-- ==== Sys2Proof/Word.lean ====
section
/-!
DEFINITION. The plainest words and containers of the model: bytes, 64-bit words, little-endian byte lists, sparse maps,
and named bit fields of a byte layout.
-/

namespace Sys2Proof

abbrev Byte := BitVec 8
abbrev Word := BitVec 64

/-- A sparse map in one canonical form: keys strictly rising, no entry that equals what an unlisted key reads as. -/
abbrev SMap (α : Type) := List (Nat × α)

/-- A bit field of a byte layout: its lowest bit, counted from bit 0 of the first byte, and its width. -/
structure Fld where
  lo : Nat
  w : Nat
  deriving DecidableEq, Repr

/-- A field of whole bytes at a byte offset. -/
abbrev fb (off size : Nat) : Fld := ⟨8 * off, 8 * size⟩

/-- A field of bits [hi:lo] of the word that starts at a byte offset. -/
abbrev fm (off hi lo : Nat) : Fld := ⟨8 * off + lo, hi - lo + 1⟩

/-- The unsigned value of a field. -/
def Fld.get {n : Nat} (f : Fld) (x : BitVec n) : Nat := (x.extractLsb' f.lo f.w).toNat

/-- A layout with one field replaced; bits of the value beyond the field's width are dropped. -/
def Fld.set {n : Nat} (f : Fld) (x : BitVec n) (v : Nat) : BitVec n :=
  (x &&& ~~~(BitVec.ofNat n ((2 ^ f.w - 1) <<< f.lo))) ||| BitVec.ofNat n ((v % 2 ^ f.w) <<< f.lo)

/-- Little-endian value of a byte list. -/
def leNat : List Byte → Nat
  | [] => 0
  | b :: bs => b.toNat + 256 * leNat bs

/-- The `n` little-endian bytes of a value; higher bytes are dropped. -/
def leBytes : Nat → Nat → List Byte
  | 0, _ => []
  | n + 1, v => BitVec.ofNat 8 (v % 256) :: leBytes n (v / 256)

/-- Big-endian value of a byte list. -/
def beNat (bs : List Byte) : Nat := leNat bs.reverse

/-- The `n` big-endian bytes of a value. -/
def beBytes (n v : Nat) : List Byte := (leBytes n v).reverse

/-- Whether bit `i` of a natural number is set. -/
abbrev bit (v i : Nat) : Bool := v.testBit i

/-- A value with one more bit set. -/
def setBit (v i : Nat) : Nat := v ||| (1 <<< i)

/-- A value with one bit cleared. -/
def clearBit (v i : Nat) : Nat := if v.testBit i then v - 2 ^ i else v

/-- The quotient rounded up. -/
def ceilDiv (a b : Nat) : Nat := (a + b - 1) / b

/-- A value rounded up to a multiple. -/
def alignUp (a b : Nat) : Nat := ceilDiv a b * b

/-- Two's complement reading of the low `w` bits of a value. -/
def signed (w v : Nat) : Int := if v % 2 ^ w < 2 ^ (w - 1) then (v % 2 ^ w : Nat) else (v % 2 ^ w : Nat) - (2 ^ w : Nat)

/-- The `w`-bit two's complement pattern of an integer. -/
def unsigned (w : Nat) (v : Int) : Nat := (v % (2 ^ w : Nat)).toNat

/-- The positions of the set bits below `n`, rising. -/
def bitsOf (n v : Nat) : List Nat := (List.range n).filter (fun i => v.testBit i)

/-- The number of set bits below `n`. -/
def popCount (n v : Nat) : Nat := (bitsOf n v).length

end Sys2Proof
end

