-- ==== Sys2Proof/Syntax.lean ====
section
/-!
DEFINITION. The commands of the module: one constructor for every row of spec/opcode_table.json, with its operands.
The table gives the rows no bits; the operands are the model's (log 9): what an event names (a partition, a cluster, a
device, a port) and what the world outside decides in it (a received frame, an instant, an error met).
-/

namespace Sys2Proof

abbrev PartId := Fin 12
abbrev ClusterId := Fin 48
abbrev ArrayId := Fin 16
abbrev QuarterId := Fin 4
abbrev DeviceId := Fin 48
abbrev CxlId := Fin 8
/-- A Kettle unit: K00 to K47 at the GDDR7 devices, K48 to K55 at the CXL ports (R24). -/
abbrev UnitId := Fin 56
/-- A fabric port P00 to P63, or 64 for the host port. -/
abbrev PortId := Fin 65
abbrev RegId := BitVec 5

/-- A tick-status frame's payload (02, R57). -/
structure StatusFrame where
  kind : Nat            -- 0x01 round 1, 0x02 round 2, bit 7 HALT
  module : Nat
  job : Nat
  tick : Nat
  units : Nat
  mb : Nat
  buckets : Nat
  heard : Nat
  deriving DecidableEq, Repr

/-- What goes wrong in the memory accesses of one item: decided by the devices, not by the schedule. -/
structure AccessErrors where
  crcRetries : List Nat         -- addresses of 64 B transfers repeated, once for each repetition (R264)
  cxlRetries : List Nat         -- addresses of transfers that a CXL link retried, once for each retry (R273)
  badUnits : List Nat           -- device addresses of 64 B units read or transferred uncorrectably (R265)
  cxlPoison : List Nat          -- addresses of 64 B lines the expander returns with poison (R273)
  badPages : List (Nat × Nat)   -- uncorrectable reference store pages: start address and bytes (R515)
  corrected : List Nat          -- addresses of corrected reference store pages (9060:01)
  links : Nat                   -- bit l: die-to-die link l (R22 order) hit a flit parity error
  datapath : Bool               -- a parity hit in the burst datapath or controller buffers (R279)
  badParity : List Nat          -- offsets of delivered batt bytes that the SRAM will read with bad parity (R279)
  cacheHit : List Nat           -- Residency entries with a parity hit in one cached copy (R279, R281)
  cacheLost : List Nat          -- Residency entries whose two cached copies both hit parity (R281)
  deriving DecidableEq, Repr

/-- No error. -/
abbrev AccessErrors.none : AccessErrors := ⟨[], [], [], [], [], [], 0, false, [], [], []⟩

/-- Mirror traffic of a CONTROL stream (12, R423): the spec gives its content and no layout, so it is kept as content. -/
inductive MirrorItem
  /-- A 32 B sweep header: UNIT, SLOT, STATE, STEP and PROGRESS at the item's start. -/
  | header (unit slot state step progress : Nat)
  /-- A write group of one block: each mirrored entry of the sender with the offset and bytes written in its slot CUR. -/
  | group (unit slot block : Nat) (writes : List (Nat × Nat × List Byte))
  deriving DecidableEq, Repr

/-- A Jenjo request as it arrives (13, Message header): from which port and source, with its header fields and payload. -/
structure Request where
  port : Nat                    -- fabric port, or 64 for the host port
  source : Nat                  -- source address and UDP port
  session : Nat
  seq : Nat
  index : Nat
  sub : Nat
  last : Bool
  offset : Nat
  payload : List Byte
  tag : List Byte               -- the 64 B TAG as received
  reserved : Nat                -- the header's bits that the request does not use
  deriving DecidableEq, Repr

/-- The header of a fabric transport frame, 40 B (10, Transport header). -/
structure FabricHeader where
  kind : Nat                    -- 0x10 DATA, 0x11 NULL, 0x12 ACK
  flags : Nat                   -- bit 0 LAST, 1 RETX, 2 RELAY, 3 RELAYED, 4 NAK
  job : Nat
  stream : Nat                  -- DEST_STREAM
  src : Nat                     -- SRC_MODULE
  final : Nat                   -- FINAL_MODULE
  tick : Nat
  ord : Nat                     -- SLOT_ORD
  len : Nat                     -- PAYLOAD_LEN
  seq : Nat
  version : Nat
  slotLength : Nat
  reserved : Nat
  deriving DecidableEq, Repr

/-- What becomes of a frame at the MAC and at its receive queue (R338, R342): a UDP checksum that fails is as a bad FCS (R351). Whether
a frame is longer than MAX_FRAME follows from its length. -/
inductive FrameFate
  | intact
  | badFcs
  | noRoom
  deriving DecidableEq, Repr

/-- A received PTP message (10, R375 to R377): an Announce after which the best master clock selection of IEEE 1588 gives a
slave port (0xFF none, 0x40 host), a Sync with the offset that it yields, a peer delay response, a peer delay request, or any
other. -/
inductive PtpMsg
  | announce (slave : Nat)
  | sync (offset : Int)
  | peerDelay (ns : Nat)
  | delayRequest
  | general
  deriving DecidableEq, Repr

/-- What the MAC and the steering rules of R347 to R349 look at in a received frame, with what a relay keeps of it (R363). -/
structure FrameInfo where
  dst : List Byte               -- the six destination address bytes
  vlan : Option Nat             -- TCI of its VLAN tag
  etype : Nat                   -- type after any VLAN tag
  ip : Nat                      -- 0 none, 4 IPv4, 6 IPv6
  udp : Option Nat              -- UDP destination port
  udpSrc : Nat                  -- UDP source port
  first : Nat                   -- first payload byte
  bytes : Nat                   -- length from destination address to FCS
  deriving DecidableEq, Repr

/-- A received transport frame (10, R352): what the MAC and the steering rules look at, and its transport header. -/
structure Arrival where
  info : FrameInfo
  header : FabricHeader
  deriving DecidableEq, Repr

/-- An array, and whether the descriptor at the head of its issue queue is found with bad parity (R279). -/
structure ArrayHead where
  array : ArrayId
  parity : Bool
  deriving DecidableEq, Repr

/-- A cluster, and whether the Nap descriptor at the head of its issue queue is found with bad parity (R279). -/
structure NapHead where
  cluster : ClusterId
  parity : Bool
  deriving DecidableEq, Repr

/-- What the reads and the write transfers of a Kettle item meet (R264, R265). -/
structure KettleErrors where
  reads : AccessErrors
  stores : AccessErrors
  deriving DecidableEq, Repr

/-- The end of a job's check: its instant, and the entries that the streams of the Block's stitch programs name, each with a quarter
(R293, log 106). -/
structure JobChecked where
  at_ : Nat
  stitch : List (Nat × Nat)
  deriving DecidableEq, Repr

/-- The local QPN of a received RoCEv2 packet that is no request, and whether its ICRC is good (R372). -/
structure RoceHead where
  qp : Nat
  icrc : Bool
  deriving DecidableEq, Repr

/-- A RoCEv2 request packet (10, R372, R373): for the first packet of a message its address, key and length. `errs`: what its access to
device memory meets. -/
structure RocePacket where
  qp : Nat                      -- local QPN
  psn : Nat
  first : Bool
  last : Bool
  addr : Nat
  rkey : Nat
  length : Nat
  data : List Byte
  ackReq : Bool
  ce : Bool                     -- CE-marked
  icrc : Bool                   -- its ICRC is good
  errs : AccessErrors
  deriving DecidableEq, Repr

/-- A piece of a staged generation as a drain window carries it (12, R419): its generation, the step of that generation, the
offset of the bytes in the generation, and whether they end it. -/
structure DrainPiece where
  gen : Nat
  step : Nat
  offset : Nat
  data : List Byte
  last : Bool
  deriving DecidableEq, Repr

/-- What restore and resync transfers carry (12, R427, R430, R431): the spec gives their content and, but for the pairing
record, no layout, so they are kept as content. -/
inductive RestoreItem
  /-- A pairing record: FEED_TAG, BASE_MAC, the job and the job module index of its sender. -/
  | pairing (feed mac job module : Nat)
  /-- Bytes of slot CUR of an entry to restore, at an offset of its element region followed by its scale region, with its
  VERSION. -/
  | entry (index version offset : Nat) (data : List Byte)
  /-- Bytes of slot CUR of an entry of the sender for the mirror entry that the receiver holds for it. -/
  | resync (index version offset : Nat) (data : List Byte)
  /-- A mirrored sweep to restore: unit, slot, STATE, STEP and PROGRESS. -/
  | sweep (unit slot state step progress : Nat)
  /-- An open mirrored sweep of the sender, for the record that the receiver holds of it. -/
  | resyncSweep (unit slot state step progress : Nat)
  /-- A job position record. -/
  | position (r : BitVec 512)
  /-- The decided dropped and missing sets of the step. -/
  | sets (dropped missing : List Nat)
  deriving DecidableEq, Repr

/-- What the other modules of a job report when a RECOVER is given (12, R411, R428, R429, R438): whether one of them reports
UPDATE_STARTED, whether a holder of a lost module reports HELD_UPDATE_STARTED, whether the holder of a lost module is lost too,
the steps of the generations that the holder keeps, and the job's JOB_MODULES with HOLDER_MODULE and MIRROR_OF of the index
taken over. -/
structure RecoverFacts where
  updateStarted : Bool
  heldStarted : Bool
  orphan : Bool
  steps : List Nat
  modules : Nat
  holder : Nat
  mirrorOf : Nat
  deriving DecidableEq, Repr

/-- One transfer of a recovery: an item received from the partner, the pairing record sent, or what this module sends as holder
(bytes of what it holds for an entry, a sweep record, its position and decided sets) or as the sender of mirrors (bytes of an
entry, an open sweep). -/
inductive Transfer
  | receive (x : RestoreItem)
  | sendPairing
  | sendHeld (index offset length : Nat)
  | sendHeldSweep (unit slot : Nat)
  | sendPosition
  | sendEntry (index offset length : Nat)
  | sendSweep (unit slot : Nat)
  deriving DecidableEq, Repr

/-- The commands (spec/opcode_table.json, in its order). -/
inductive Instr
  /-- TICK_EDGE (R51). -/
  | tickEdge (p : PartId)
  /-- CLOSING_GUARD (R48). -/
  | closingGuard (p : PartId)
  /-- ROUND2_SEND (R58). -/
  | round2Send (p : PartId)
  /-- TICK_STATUS_RX (R57). -/
  | tickStatusRx (port : PortId) (at_ : Nat) (f : StatusFrame)
  /-- SETTLE_DECIDE (R59). -/
  | settleDecide (p : PartId) (recMb : Nat) (recBuckets : Nat)
  /-- STATUS_RECORD_WRITE (R69). -/
  | statusRecordWrite (p : PartId)
  /-- JOB_COMPLETE (R80). -/
  | jobComplete (p : PartId)
  /-- CROWN_PROGRAM_LOAD (R73). -/
  | crownProgramLoad (p : PartId) (bad : List Nat)
  /-- TICK_GENERATOR_RESTART (R35). -/
  | tickGeneratorRestart (p : PartId)
  /-- WATCHDOG_FIRE (R403). -/
  | watchdogFire (c : ClusterId)
  /-- CLUSTER_RESET_DONE (R403). -/
  | clusterResetDone (c : ClusterId)
  /-- NOP (R75). -/
  | nop (c : ClusterId)
  /-- LI (R75). -/
  | li (c : ClusterId) (rd : RegId) (imm : BitVec 32)
  /-- LIH (R75). -/
  | lih (c : ClusterId) (rd : RegId) (imm : BitVec 32)
  /-- ADD (R75). -/
  | add (c : ClusterId) (rd : RegId) (rs1 : RegId) (rs2 : RegId)
  /-- ADDI (R75). -/
  | addi (c : ClusterId) (rd : RegId) (rs1 : RegId) (imm : BitVec 32)
  /-- SUB (R75). -/
  | sub (c : ClusterId) (rd : RegId) (rs1 : RegId) (rs2 : RegId)
  /-- AND (R75). -/
  | and_ (c : ClusterId) (rd : RegId) (rs1 : RegId) (rs2 : RegId)
  /-- OR (R75). -/
  | or_ (c : ClusterId) (rd : RegId) (rs1 : RegId) (rs2 : RegId)
  /-- XOR (R75). -/
  | xor_ (c : ClusterId) (rd : RegId) (rs1 : RegId) (rs2 : RegId)
  /-- SHL (R75). -/
  | shl (c : ClusterId) (rd : RegId) (rs1 : RegId) (sh : BitVec 6)
  /-- SHR (R75). -/
  | shr (c : ClusterId) (rd : RegId) (rs1 : RegId) (sh : BitVec 6)
  /-- MUL (R75). -/
  | mul (c : ClusterId) (rd : RegId) (rs1 : RegId) (rs2 : RegId)
  /-- SLTU (R75). -/
  | sltu (c : ClusterId) (rd : RegId) (rs1 : RegId) (rs2 : RegId)
  /-- LD (R75). -/
  | ld (c : ClusterId) (rd : RegId) (rs1 : RegId) (imm : BitVec 32)
  /-- ST (R75). -/
  | st (c : ClusterId) (rs1 : RegId) (rs2 : RegId) (imm : BitVec 32)
  /-- LDZ (R75). -/
  | ldz (c : ClusterId) (rd : RegId) (z : BitVec 4)
  /-- ISSA (R92). -/
  | issa (c : ClusterId) (arr : BitVec 4) (discard : Bool) (tag : BitVec 7) (rs1 : RegId) (imm : BitVec 32)
  /-- ISSN (R169). -/
  | issn (c : ClusterId) (rs1 : RegId) (imm : BitVec 32)
  /-- WAIT (R76). -/
  | wait (c : ClusterId) (cls : BitVec 3) (count : BitVec 16) (first : BitVec 32)
  /-- UNTIL (R75). -/
  | until_ (c : ClusterId) (imm : BitVec 32)
  /-- UNTIL_REACHED (R75). -/
  | untilReached (c : ClusterId)
  /-- BRANCH (R77). -/
  | branch (c : ClusterId) (z : BitVec 4) (flag : Bool) (b : BitVec 6) (alts : BitVec 2) (join : BitVec 32)
  /-- ENDA (R71). -/
  | enda (c : ClusterId)
  /-- JOIN_RESUME (R71). -/
  | joinResume (c : ClusterId)
  /-- LOOP (R75). -/
  | loop (c : ClusterId) (body : BitVec 16) (count : BitVec 32)
  /-- JMP (R75). -/
  | jmp (c : ClusterId) (imm : BitVec 32)
  /-- DONE (R75). -/
  | done (c : ClusterId)
  /-- PRODUCT (R97). -/
  | product (c : ClusterId) (a : ArrayId) (parity : Bool)
  /-- PRELOAD (R113). -/
  | preload (c : ClusterId) (a : ArrayId) (parity : Bool)
  /-- ILLEGAL_DESCRIPTOR (R89). -/
  | illegalDescriptor (c : ClusterId) (a : ArrayHead)
  /-- ARRAY_COMPLETE (R93). -/
  | arrayComplete (c : ClusterId) (a : ArrayId)
  /-- GAUGE_EVAL_DONE (R157). -/
  | gaugeEvalDone (q : QuarterId) (p : PartId)
  /-- RUN (R170). -/
  | run (c : ClusterId) (parity : List Nat)
  /-- SCALE (R202). -/
  | scale (c : ClusterId)
  /-- AMAX_NOTE (R203). -/
  | amaxNote (c : ClusterId)
  /-- SUMMARY_LOAD (R203). -/
  | summaryLoad (c : ClusterId)
  /-- SUMMARY_STORE (R203). -/
  | summaryStore (c : ClusterId)
  /-- NAP_ILLEGAL (R173). -/
  | napIllegal (c : NapHead)
  /-- NAP_OP_END (R170). -/
  | napOpEnd (c : ClusterId)
  /-- BURST (R260). -/
  | burst (p : PartId) (n : Nat) (errs : AccessErrors)
  /-- BURST_COMPLETE (R261). -/
  | burstComplete (p : PartId) (n : Nat) (at_ : Nat) (errs : AccessErrors)
  /-- HIGH_TEMP_REFRESH (R263). -/
  | highTempRefresh (d : DeviceId) (cycles : Nat)
  /-- RETRAIN_DEVICE (R268). -/
  | retrainDevice (sess : Nat) (d : Nat)
  /-- RETRAIN_DONE (R268). -/
  | retrainDone (d : DeviceId) (temp : Option Int)
  /-- GDDR7_RETRAIN_ADVISED (R269). -/
  | gddr7RetrainAdvised (d : DeviceId) (temp : Int)
  /-- CXL_ENUMERATE (R271). -/
  | cxlEnumerate (x : CxlId) (capacity : Option Nat) (type3 : Bool) (hotAdd : Bool) (refclk : Bool)
  /-- CXL_REMOVE (R274). -/
  | cxlRemove (sess : Nat) (x : CxlId)
  /-- CXL_LOST (R275). -/
  | cxlLost (x : CxlId)
  /-- KETTLE_ITEM (R243). -/
  | kettleItem (u : UnitId) (p : PartId) (n : Nat) (blocks : Nat) (errs : KettleErrors)
  /-- KETTLE_ITEM_END (R252). -/
  | kettleItemEnd (u : UnitId) (p : PartId) (at_ : Nat)
  /-- REDUCE (R316). -/
  | reduce (q : QuarterId) (p : PartId) (n : Nat) (errs : AccessErrors)
  /-- REBLOCK_MOVE (R319). -/
  | reblockMove (q : QuarterId) (p : PartId) (n : Nat) (errs : AccessErrors)
  /-- REBLOCK_ITEM_END (R322). -/
  | reblockItemEnd (q : QuarterId) (p : PartId) (n : Nat) (at_ : Nat) (errs : AccessErrors)
  /-- PORT_UP (R334). -/
  | portUp (port : PortId) (at_ : Nat)
  /-- PORT_DOWN (R334). -/
  | portDown (port : PortId) (at_ : Nat)
  /-- FAILBACK (R362). -/
  | failback (stream : Nat)
  /-- ADAPT (R335). -/
  | adapt (sess : Nat) (port : PortId)
  /-- FEC_UNCORRECTABLE (R339). -/
  | fecUncorrectable (port : PortId) (codewords corrected : Nat)
  /-- PAUSE_FRAME (R340). -/
  | pauseFrame (port : PortId) (at_ : Nat) (all_ : Bool) (times : List (Nat × Nat))
  /-- PAUSE_EXPIRE (R340). -/
  | pauseExpire (port : PortId) (at_ : Nat)
  /-- HOST_PAUSE_TX (R341). -/
  | hostPauseTx (level : Nat)
  /-- TRANSMIT_SLOT (R354). -/
  | transmitSlot (p : PartId) (n : Nat) (errs : AccessErrors)
  /-- DATA_FRAME (R356). -/
  | dataFrame (port : PortId) (at_ : Nat) (x : Arrival) (data : List Byte) (mirror : List MirrorItem) (fate : FrameFate) (errs : AccessErrors)
  /-- NULL_FRAME (R359). -/
  | nullFrame (port : PortId) (at_ : Nat) (x : Arrival) (fate : FrameFate)
  /-- ACK (R357). -/
  | ack (port : PortId) (at_ : Nat) (x : Arrival) (fate : FrameFate)
  /-- NAK (R357). -/
  | nak (port : PortId) (at_ : Nat) (x : Arrival) (fate : FrameFate)
  /-- ACK_TIMEOUT (R357). -/
  | ackTimeout (p : PartId) (n : Nat) (at_ : Nat)
  /-- RELAY_FORWARD (R363). -/
  | relayForward (port : PortId) (at_ : Nat)
  /-- HELLO_SEND (R369). -/
  | helloSend (port : PortId)
  /-- HELLO (R369). -/
  | hello (port : PortId) (caps : Nat) (size : Nat) (position : Nat) (number : Nat)
  /-- SLEEP (R346). -/
  | sleep (port : PortId) (sleepNs : Nat)
  /-- LLDP (R344). -/
  | lldp (port : PortId) (mac : Nat) (wake : Option Nat)
  /-- LPI_ENTER (R345). -/
  | lpiEnter (port : PortId) (from_ : Nat) (until_ : Nat)
  /-- LPI_WAKE (R345). -/
  | lpiWake (port : PortId)
  /-- LPI_EARLY_WAKE (R345). -/
  | lpiEarlyWake (port : PortId) (at_ : Nat)
  /-- PTP_MESSAGE (R375). -/
  | ptpMessage (port : PortId) (at_ : Nat) (m : PtpMsg)
  /-- ANNOUNCE_TIMEOUT (R377). -/
  | announceTimeout (at_ : Nat) (slave : Nat)
  /-- HOLDOVER_EXPIRE (R37). -/
  | holdoverExpire (at_ : Nat)
  /-- SYNCE_LOSS (R376). -/
  | synceLoss (at_ : Nat)
  /-- PPS_OUT (R522). -/
  | ppsOut (second : Nat)
  /-- PPS_IN (R378). -/
  | ppsIn (at_ : Nat) (width : Nat)
  /-- RDMA_WRITE (R373). -/
  | rdmaWrite (x : RocePacket)
  /-- RDMA_READ (R373). -/
  | rdmaRead (x : RocePacket)
  /-- CNP (R372). -/
  | cnp (x : RoceHead)
  /-- ROCE_TIMEOUT (R372). -/
  | roceTimeout (qp : Nat) (at_ : Nat)
  /-- QP_CONNECT (R372). -/
  | qpConnect (sess : Nat)
  /-- QP_RESET (R372). -/
  | qpReset (sess : Nat)
  /-- REGION_ENABLE (R373). -/
  | regionEnable (sess : Nat)
  /-- REGION_DISABLE (R373). -/
  | regionDisable (sess : Nat)
  /-- OPEN (R446). -/
  | open_ (r : Request)
  /-- OPEN_CONFIRM (R447). -/
  | openConfirm (r : Request)
  /-- OPEN_TIMEOUT (R446). -/
  | openTimeout (sess : Nat) (at_ : Nat)
  /-- CLOSE (R450). -/
  | close (r : Request)
  /-- SESSION_IDLE_TIMEOUT (R450). -/
  | sessionIdleTimeout (sess : Nat) (at_ : Nat)
  /-- JENJO_MALFORMED (R444). -/
  | jenjoMalformed (port : PortId)
  /-- READ (R454). -/
  | read (r : Request)
  /-- WRITE (R452). -/
  | write (r : Request) (facts : RecoverFacts)
  /-- READ_BLOCK (R454). -/
  | readBlock (r : Request)
  /-- WRITE_BLOCK (R454). -/
  | writeBlock (r : Request)
  /-- NOTIFY_ACK (R455). -/
  | notifyAck (r : Request)
  /-- NOTIFY_RESEND (R455). -/
  | notifyResend (sess : Nat) (seq : Nat) (at_ : Nat)
  /-- REGISTER_WRITE (R452). -/
  | registerWrite (sess : Nat) (key : Nat) (val : Nat) (facts : RecoverFacts)
  /-- TICK_GRAINS_WRITE (R34). -/
  | tickGrainsWrite (sess : Nat) (p : PartId) (epoch : Bool) (val : Nat)
  /-- CLOSE_GUARD_NS_WRITE (R47). -/
  | closeGuardNsWrite (sess : Nat) (p : PartId) (val : Nat)
  /-- TIME_CONFIG_WRITE (R375). -/
  | timeConfigWrite (sess : Nat) (sub : Nat) (val : Nat)
  /-- FACTORY_RESET (R458). -/
  | factoryReset (sess : Nat) (val : Nat)
  /-- RES_ENABLE (R289). -/
  | resEnable (sess : Nat)
  /-- RES_DISABLE (R291). -/
  | resDisable (sess : Nat)
  /-- RES_LIST (R289). -/
  | resList (sess : Nat) (list_ : List Byte)
  /-- STREAM_ENABLE (R364). -/
  | streamEnable (sess : Nat)
  /-- STREAM_DISABLE (R364). -/
  | streamDisable (sess : Nat)
  /-- STREAM_REPLACE (R364). -/
  | streamReplace (sess : Nat)
  /-- WINDOW_DATA_WRITE (R543). -/
  | windowDataWrite (sess : Nat) (data : List Byte)
  /-- PART_BUILD (R466). -/
  | partBuild (sess : Nat) (p : PartId)
  /-- PART_REBUILD (R467). -/
  | partRebuild (sess : Nat) (p : PartId)
  /-- PART_DISSOLVE (R468). -/
  | partDissolve (sess : Nat) (p : PartId)
  /-- PART_STOP (R468). -/
  | partStop (sess : Nat) (p : PartId)
  /-- JOB_ENABLE (R470). -/
  | jobEnable (sess : Nat) (p : PartId)
  /-- JOB_CHECK_DONE (R470). -/
  | jobCheckDone (p : PartId) (x : JobChecked)
  /-- JOB_DISABLE (R475). -/
  | jobDisable (sess : Nat) (p : PartId)
  /-- JOB_CANCEL (R474). -/
  | jobCancel (sess : Nat) (p : PartId)
  /-- SLOT_ENABLE (R383). -/
  | slotEnable (sess : Nat)
  /-- SLOT_DISABLE (R384). -/
  | slotDisable (sess : Nat)
  /-- SLOT_CANCEL (R398). -/
  | slotCancel (sess : Nat)
  /-- PAGE_ENABLE (R380). -/
  | pageEnable (sess : Nat)
  /-- PAGE_DISABLE (R401). -/
  | pageDisable (sess : Nat)
  /-- PREFIX_ENABLE (R395). -/
  | prefixEnable (sess : Nat)
  /-- PREFIX_DISABLE (R395). -/
  | prefixDisable (sess : Nat)
  /-- COPY_PREPARE (R400). -/
  | copyPrepare (sess : Nat)
  /-- COPY_SWITCH (R400). -/
  | copySwitch (sess : Nat)
  /-- GEN_STEP_SETTLE (R387). -/
  | genStepSettle (p : PartId)
  /-- RECOVER (R428). -/
  | recover (sess : Nat) (p : PartId) (facts : RecoverFacts)
  /-- RECOVERY_START (R430). -/
  | recoveryStart (p : PartId)
  /-- RESTORE_TRANSFER (R431). -/
  | restoreTransfer (p : PartId) (x : Transfer)
  /-- RECOVERY_READY (R434). -/
  | recoveryReady (p : PartId) (at_ : Nat) (roots : List (Nat × List Byte)) (replicas : List (Nat × Nat × Nat))
  /-- RESUME (R436). -/
  | resume (sess : Nat) (p : PartId)
  /-- ABANDON (R408). -/
  | abandon (sess : Nat) (p : PartId)
  /-- PRESS_ARM (R415). -/
  | pressArm (sess : Nat) (p : PartId) (val : Nat)
  /-- PRESS_COPY_DONE (R416). -/
  | pressCopyDone (p : PartId) (at_ : Nat)
  /-- DRAIN_WINDOW (R419). -/
  | drainWindow (p : PartId) (row : Nat) (acked : Nat) (piece : Option DrainPiece)
  /-- SNAPSHOT (R485). -/
  | snapshot (sess : Nat) (p : PartId)
  /-- SNAPSHOT_SWITCH (R485). -/
  | snapshotSwitch (p : PartId)
  /-- COUNTER_IMAGE_WRITE (R487). -/
  | counterImageWrite (p : PartId)
  /-- TRACE_ARM (R492). -/
  | traceArm (sess : Nat) (p : PartId)
  /-- TRACE_STOP (R492). -/
  | traceStop (sess : Nat) (p : PartId)
  /-- TRACE_TRIGGER (R493). -/
  | traceTrigger (p : PartId)
  /-- TRACE_FROZEN (R492). -/
  | traceFrozen (c : ClusterId)
  /-- TRACE_STOPPED_FULL (R492). -/
  | traceStoppedFull (c : ClusterId)
  /-- TRACE_SPILL (R494). -/
  | traceSpill (p : PartId) (w : Nat)
  /-- DUMP_ARM (R498). -/
  | dumpArm (sess : Nat) (p : PartId)
  /-- DUMP_CANCEL (R498). -/
  | dumpCancel (sess : Nat) (p : PartId)
  /-- DUMP_CAPTURE (R495). -/
  | dumpCapture (p : PartId) (n : Nat)
  /-- DUMP_DONE (R497). -/
  | dumpDone (p : PartId) (n : Nat)
  /-- FW_PROGRAM (R504). -/
  | fwProgram (sess : Nat)
  /-- FW_PROGRAMMED (R504). -/
  | fwProgrammed (at_ : Nat) (ok : Bool)
  /-- ACTIVATE (R476). -/
  | activate (sess : Nat)
  /-- ACTIVATION_DONE (R476). -/
  | activationDone (at_ : Nat) (ok : Bool)
  /-- MIN_SECURITY_VERSION_ADVANCE (R503). -/
  | minSecurityVersionAdvance (at_ : Nat)
  /-- MILLINER_RESTART (R18). -/
  | millinerRestart (at_ : Nat)
  /-- REF_LOAD (R508). -/
  | refLoad (sess : Nat)
  /-- REF_ABORT (R511). -/
  | refAbort (sess : Nat)
  /-- REF_ERASE (R514). -/
  | refErase (sess : Nat)
  /-- REF_CHUNK (R509). -/
  | refChunk (at_ : Nat)
  /-- REF_LOAD_TIMEOUT (R509). -/
  | refLoadTimeout (at_ : Nat)
  /-- IMAGE_LOADED (R510). -/
  | imageLoaded (at_ : Nat)
  /-- ERASE_DONE (R514). -/
  | eraseDone (at_ : Nat)
  /-- ATTEST_NONCE (R506). -/
  | attestNonce (sess : Nat) (nonce : List Byte)
  /-- PUBLISHER_KEYS (R507). -/
  | publisherKeys (sess : Nat) (keys : List Byte)
  /-- VIN_APPLIED (R527). -/
  | vinApplied (at_ : Nat) (mv : Nat) (rst : Bool)
  /-- POWER_ON_SEQUENCE (R527). -/
  | powerOnSequence (at_ : Nat) (lowNs : Nat) (times : List Nat)
  /-- RAIL_TIMEOUT (R528). -/
  | railTimeout (at_ : Nat)
  /-- RESET_RELEASE (R500). -/
  | resetRelease (at_ : Nat) (bad : Nat) (keyOk : Bool)
  /-- ROM_RECOVERY_DATAGRAM (R501). -/
  | romRecoveryDatagram (data : List Byte)
  /-- HELPER_BOOT (R502). -/
  | helperBoot (at_ : Nat) (bad : Nat) (trained : List (Nat × Int))
  /-- SHUTDOWN (R529). -/
  | shutdown (at_ : Nat) (causes : Nat)
  /-- POWER_SAMPLE (R532). -/
  | powerSample (at_ : Nat) (watts : Nat)
  /-- THERMAL_THROTTLE (R534). -/
  | thermalThrottle (at_ : Nat) (q : QuarterId) (device : Bool) (temp : Int)
  /-- THROTTLE_STEP (R533). -/
  | throttleStep (at_ : Nat) (q : QuarterId) (power : Bool)
  /-- THROTTLE_RELEASE (R534). -/
  | throttleRelease (at_ : Nat) (q : QuarterId) (cool : Nat)
  /-- INLET_HIGH (R537). -/
  | inletHigh (at_ : Nat) (temp : Int) (altitude : Nat)
  /-- NORMAL_TEMPERATURE_REFRESH (R263). -/
  | normalTemperatureRefresh (d : DeviceId)
  /-- SYNCE_LOCKED (R376). -/
  | synceLocked (at_ : Nat)
  /-- SYNC_INTERVAL (R375). -/
  | syncInterval (kind : Nat)
  /-- ROCE_ACK (R372). -/
  | roceAck (x : RoceHead) (psn : Nat) (nak : Option Bool)
  /-- DROP_QUEUE_FRAME (R348). -/
  | dropQueueFrame (port : PortId) (at_ : Nat) (x : FrameInfo) (fate : FrameFate)
  /-- DUMP_WINDOW (R496). -/
  | dumpWindow (p : PartId) (w : Nat) (room : Nat)
  deriving DecidableEq, Repr


end Sys2Proof
end

