-- ==== Sys2Proof/Decode.lean ====
section
/-!
DEFINITION. The crown core's instruction words (02_tick_and_schedule.md R74, R75): decoder and encoder, and `decodeTableWord`.
The rows of the opcode table carry no bits, so no table word spells a command; the words of the crown rows are those of the
spec's own encoding tables.
-/

namespace Sys2Proof

/-- The command a table word spells: no row of the table gives bits (spec/opcode_table.json), so none does. -/
def decodeTableWord (_nbits _w : Nat) : Option Instr := none

/-- The general crown word: OPCODE, RD, RS1, RS2, FUNC, IMM. -/
def crownWord (op : BitVec 8) (rd rs1 rs2 : BitVec 5) (func : BitVec 9) (imm : BitVec 32) : Word :=
  op ++ (rd ++ (rs1 ++ (rs2 ++ (func ++ imm))))

/-- ISSA: OPCODE, ARRAY, DISCARD, RS1, TAG, 7 zero bits, IMM. -/
def issaWord (arr : BitVec 4) (discard : Bool) (rs1 : BitVec 5) (tag : BitVec 7) (imm : BitVec 32) : Word :=
  0x20#8 ++ (arr ++ (BitVec.ofBool discard ++ (rs1 ++ (tag ++ (0#7 ++ imm)))))

/-- WAIT: OPCODE, CLASS, 5 zero bits, COUNT − 1, FIRST. -/
def waitWord (cls : BitVec 3) (countM1 : BitVec 16) (first : BitVec 32) : Word :=
  0x28#8 ++ (cls ++ (0#5 ++ (countM1 ++ first)))

/-- BRANCH: OPCODE, summary register, MODE, BIT, ALTERNATIVES − 1, 11 zero bits, JOIN. -/
def branchWord (z : BitVec 4) (flag : Bool) (b : BitVec 6) (altsM1 : BitVec 2) (join : BitVec 32) : Word :=
  0x30#8 ++ (z ++ (BitVec.ofBool flag ++ (b ++ (altsM1 ++ (0#11 ++ join)))))

/-- LOOP: OPCODE, 8 zero bits, BODY, COUNT. -/
def loopWord (body : BitVec 16) (count : BitVec 32) : Word :=
  0x32#8 ++ (0#8 ++ (body ++ count))

/-- The word of a crown instruction (R74, R75); none for a command that is no crown instruction. -/
def encodeCrown : Instr → Option Word
  | .nop _ => some (crownWord 0x00 0 0 0 0 0)
  | .li _ rd imm => some (crownWord 0x01 rd 0 0 0 imm)
  | .lih _ rd imm => some (crownWord 0x02 rd 0 0 0 imm)
  | .add _ rd rs1 rs2 => some (crownWord 0x03 rd rs1 rs2 0 0)
  | .addi _ rd rs1 imm => some (crownWord 0x04 rd rs1 0 0 imm)
  | .sub _ rd rs1 rs2 => some (crownWord 0x05 rd rs1 rs2 0 0)
  | .and_ _ rd rs1 rs2 => some (crownWord 0x06 rd rs1 rs2 0 0)
  | .or_ _ rd rs1 rs2 => some (crownWord 0x07 rd rs1 rs2 0 0)
  | .xor_ _ rd rs1 rs2 => some (crownWord 0x08 rd rs1 rs2 0 0)
  | .shl _ rd rs1 sh => some (crownWord 0x09 rd rs1 0 0 (0#26 ++ sh))
  | .shr _ rd rs1 sh => some (crownWord 0x0A rd rs1 0 0 (0#26 ++ sh))
  | .mul _ rd rs1 rs2 => some (crownWord 0x0B rd rs1 rs2 0 0)
  | .sltu _ rd rs1 rs2 => some (crownWord 0x0C rd rs1 rs2 0 0)
  | .ld _ rd rs1 imm => some (crownWord 0x10 rd rs1 0 0 imm)
  | .st _ rs1 rs2 imm => some (crownWord 0x11 0 rs1 rs2 0 imm)
  | .ldz _ rd z => some (crownWord 0x12 rd 0 0 (0#5 ++ z) 0)
  | .issa _ arr discard tag rs1 imm => some (issaWord arr discard rs1 tag imm)
  | .issn _ rs1 imm => some (crownWord 0x21 0 rs1 0 0 imm)
  | .wait _ cls count first => some (waitWord cls count first)
  | .until_ _ imm => some (crownWord 0x29 0 0 0 0 imm)
  | .branch _ z flag b alts join => some (branchWord z flag b alts join)
  | .enda _ => some (crownWord 0x31 0 0 0 0 0)
  | .loop _ body count => some (loopWord body count)
  | .jmp _ imm => some (crownWord 0x33 0 0 0 0 imm)
  | .done _ => some (crownWord 0x3F 0 0 0 0 0)
  | _ => none

/-- The ranges the instruction tables give the fields of a crown instruction (R74 to R76): TAG 0 to 64, CLASS 0 to 4, BODY 1
to 4,096, COUNT of a LOOP 1 to 2^31. -/
def crownFieldsOk : Instr → Bool
  | .issa _ _ _ tag _ _ => tag.toNat ≤ 64
  | .wait _ cls _ _ => cls.toNat ≤ 4
  | .loop _ body count => 1 ≤ body.toNat && body.toNat ≤ 4096 && 1 ≤ count.toNat && count.toNat ≤ 2 ^ 31
  | _ => true

/-- The instruction a word's opcode and fields name, before its unused bits are judged. -/
def crownCandidate (c : ClusterId) (w : Word) : Option Instr :=
  let rd := w.extractLsb' 51 5
  let rs1 := w.extractLsb' 46 5
  let rs2 := w.extractLsb' 41 5
  let imm := w.extractLsb' 0 32
  match (w.extractLsb' 56 8).toNat with
  | 0x00 => some (.nop c)
  | 0x01 => some (.li c rd imm)
  | 0x02 => some (.lih c rd imm)
  | 0x03 => some (.add c rd rs1 rs2)
  | 0x04 => some (.addi c rd rs1 imm)
  | 0x05 => some (.sub c rd rs1 rs2)
  | 0x06 => some (.and_ c rd rs1 rs2)
  | 0x07 => some (.or_ c rd rs1 rs2)
  | 0x08 => some (.xor_ c rd rs1 rs2)
  | 0x09 => some (.shl c rd rs1 (w.extractLsb' 0 6))
  | 0x0A => some (.shr c rd rs1 (w.extractLsb' 0 6))
  | 0x0B => some (.mul c rd rs1 rs2)
  | 0x0C => some (.sltu c rd rs1 rs2)
  | 0x10 => some (.ld c rd rs1 imm)
  | 0x11 => some (.st c rs1 rs2 imm)
  | 0x12 => some (.ldz c rd (w.extractLsb' 32 4))
  | 0x20 => some (.issa c (w.extractLsb' 52 4) (w.getLsbD 51) (w.extractLsb' 39 7) rs1 imm)
  | 0x21 => some (.issn c rs1 imm)
  | 0x28 => some (.wait c (w.extractLsb' 53 3) (w.extractLsb' 32 16) imm)
  | 0x29 => some (.until_ c imm)
  | 0x30 => some (.branch c (w.extractLsb' 52 4) (w.getLsbD 51) (w.extractLsb' 45 6) (w.extractLsb' 43 2) imm)
  | 0x31 => some (.enda c)
  | 0x32 => some (.loop c (w.extractLsb' 32 16) imm)
  | 0x33 => some (.jmp c imm)
  | 0x3F => some (.done c)
  | _ => none

/-- The crown instruction of a word for the core of cluster `c`: none when the opcode is undefined, when a bit that the
instruction does not use is set (R75), or when a field lies outside its range. -/
def decodeCrown (c : ClusterId) (w : Word) : Option Instr :=
  match crownCandidate c w with
  | some i => if encodeCrown i = some w && crownFieldsOk i then some i else none
  | none => none

/-- Why a word is no crown instruction. -/
inductive CrownReject
  | undefinedOpcode
  | reservedBit
  | fieldRange
  deriving DecidableEq, Repr

/-- The rejection of a word by name, or none for an instruction. -/
def rejectCrown (c : ClusterId) (w : Word) : Option CrownReject :=
  match crownCandidate c w with
  | none => some .undefinedOpcode
  | some i => if encodeCrown i ≠ some w then some .reservedBit else if crownFieldsOk i then none else some .fieldRange

/-- The cluster of a crown instruction; none for any other command. -/
def crownCluster : Instr → Option ClusterId
  | .nop c => some c
  | .li c _ _ => some c
  | .lih c _ _ => some c
  | .add c _ _ _ => some c
  | .addi c _ _ _ => some c
  | .sub c _ _ _ => some c
  | .and_ c _ _ _ => some c
  | .or_ c _ _ _ => some c
  | .xor_ c _ _ _ => some c
  | .shl c _ _ _ => some c
  | .shr c _ _ _ => some c
  | .mul c _ _ _ => some c
  | .sltu c _ _ _ => some c
  | .ld c _ _ _ => some c
  | .st c _ _ _ => some c
  | .ldz c _ _ => some c
  | .issa c _ _ _ _ _ => some c
  | .issn c _ _ => some c
  | .wait c _ _ _ => some c
  | .until_ c _ => some c
  | .branch c _ _ _ _ _ => some c
  | .enda c => some c
  | .loop c _ _ => some c
  | .jmp c _ => some c
  | .done c => some c
  | _ => none

/-- The register that a crown instruction writes. -/
def crownRd : Instr → Option RegId
  | .li _ rd _ => some rd
  | .lih _ rd _ => some rd
  | .add _ rd _ _ => some rd
  | .addi _ rd _ _ => some rd
  | .sub _ rd _ _ => some rd
  | .and_ _ rd _ _ => some rd
  | .or_ _ rd _ _ => some rd
  | .xor_ _ rd _ _ => some rd
  | .shl _ rd _ _ => some rd
  | .shr _ rd _ _ => some rd
  | .mul _ rd _ _ => some rd
  | .sltu _ rd _ _ => some rd
  | .ld _ rd _ _ => some rd
  | .ldz _ rd _ => some rd
  | _ => none

end Sys2Proof
end

