-- ==== Sys2Proof/Machine/Maps.lean ====
section
/-!
DEFINITION. Reading and writing sparse maps. A map lists keys strictly rising; a map with a default lists no entry equal to
what an unlisted key reads as, so equal maps are equal lists.
-/

namespace Sys2Proof.Machine
open Sys2Proof

variable {α : Type}

/-- The entry of a key. -/
def SMap.get? : SMap α → Nat → Option α
  | [], _ => none
  | (j, v) :: m, k => if j = k then some v else SMap.get? m k

/-- The map with the entry of a key set. -/
def SMap.ins : SMap α → Nat → α → SMap α
  | [], k, v => [(k, v)]
  | (j, w) :: m, k, v => if k < j then (k, v) :: (j, w) :: m else if k = j then (k, v) :: m else (j, w) :: SMap.ins m k v

/-- The map without a key. -/
def SMap.del : SMap α → Nat → SMap α
  | [], _ => []
  | (j, w) :: m, k => if j = k then SMap.del m k else (j, w) :: SMap.del m k

/-- The entry of a key, or what an unlisted key reads as. -/
def SMap.getD (d : α) (m : SMap α) (k : Nat) : α := (SMap.get? m k).getD d

/-- A map with a default written: the default's value removes the entry. -/
def SMap.put [DecidableEq α] (d : α) (m : SMap α) (k : Nat) (v : α) : SMap α := if v = d then SMap.del m k else SMap.ins m k v

/-- Keys strictly rising. -/
abbrev SMap.Rising (m : SMap α) : Prop := (m.map (·.1)).Pairwise (· < ·)

/-- The canonical form of a map with a default. -/
abbrev SMap.Wf (d : α) (m : SMap α) : Prop := SMap.Rising m ∧ ∀ kv ∈ m, kv.2 ≠ d

/-- The `n` entries from key `k` on. -/
def SMap.range (d : α) (m : SMap α) (k n : Nat) : List α := (List.range n).map (fun i => SMap.getD d m (k + i))

/-- Consecutive entries written from key `k` on. -/
def SMap.putList [DecidableEq α] (d : α) (m : SMap α) (k : Nat) : List α → SMap α
  | [] => m
  | v :: vs => SMap.putList d (SMap.put d m k v) (k + 1) vs

end Sys2Proof.Machine
end

