-- ==== Sys2Proof/Config.lean ====
section
/-!
DEFINITION. What an implementation fixes and what the spec leaves open: opaque constants that no proof can see the value of.
-/

namespace Sys2Proof.Config
open Sys2Proof

/-- Whether the module is a BL48-A8 (R3, R4). -/
opaque isA8 : Bool

/-- REFSTORE_BYTES by ordering code (R4): 8 TiB or 2 TiB. -/
def refstoreBytes : Nat := if isA8 then 8 * 2 ^ 40 else 2 * 2 ^ 40

/-- The string of ORDERING_CODE (R4). -/
def orderingCode : List Byte :=
  [0x42, 0x4C, 0x34, 0x38, 0x2D, 0x41] ++ (if isA8 then [0x38] else [0x32])

/-- The serial number, one constant of the module (13, 0x1000:03); its length is free too. -/
opaque serial : List Byte
/-- BASE_MAC: the MAC address of P00 (13, 0x1000:05). -/
opaque baseMac : BitVec 48
/-- HOST_MAC (10, 0x4400:04). -/
opaque hostMac : BitVec 48
/-- The MAC address of a fabric port other than P00 (10, 0x4000:09). -/
opaque otherMac : Nat → BitVec 48
/-- The MAC address of fabric port `p`. -/
def portMac (p : Nat) : BitVec 48 := if p = 0 then baseMac else otherMac p
/-- Fields of the IP headers of fabric frames that R351 leaves open: the type of service or traffic class, the identification of an
IPv4 header and the flow label of an IPv6 one. -/
opaque ipService : Byte
opaque ipIdent : BitVec 16
opaque ipFlow : BitVec 20
/-- Whether IEEE 802.3 defines low-power idle for a PHY type (R344). -/
opaque lpiStandard : Nat → Bool
/-- The 12-character claim code on the module label (R447). -/
opaque claimCode : List Byte
/-- The modulus and exponent of the identity key (R505), and its certificate. -/
opaque identityPublic : List Byte
opaque identityCert : List Byte
/-- The hash of the mask ROM's public key (15, 0x8000:04). -/
opaque romKeyHash : List Byte
/-- The measurement and SECURITY_VERSION of a firmware copy as it left manufacture, by copy 2 (type - 1) + B (log 5). -/
opaque factoryMeasure : Nat → List Byte
opaque factorySv : Nat → Nat
/-- A fresh free word by draw number (log 8): nonces, keys, signatures and values the spec leaves undefined. -/
opaque freeWord : Nat → Word
/-- A fresh free byte by draw number and position. -/
opaque freeByte : Nat → Nat → Byte
/-- `n` fresh free bytes. -/
def freeBytes (k n : Nat) : List Byte := (List.range n).map (freeByte k)

/-! Values that the Nap engine chapter leaves open (log 36), each a function of what it depends on. -/
/-- What an operand reads as that is NONE or a temporary not yet written in the iteration; the argument is its code. -/
opaque unwritten : Nat → BitVec 32
/-- The FP32 value that an FP32 operation takes from an INT32 operand (the spec converts INT32 by TOFLOAT only). -/
opaque fp32OfInt : BitVec 32 → BitVec 32
/-- The INT32 value that an integer operation takes from an operand with no 32-bit form: sign, significand and exponent. -/
opaque intOfWide : Bool → Nat → Int → BitVec 32
/-- The second tile of an accumulator operand in BF16 lane mode, beside the tile that R175 numbers. -/
opaque bf16Partner : Nat → Nat
/-- Whether the even lane of a pair lies in the low half of a 32-bit tile register element in BF16 lane mode. -/
opaque bf16EvenLow : Bool
/-- The Residency index of the history entry that a tensor's own entry owns (04, History scaling): the spec names no link to it. -/
opaque historyOf : Nat → Nat

end Sys2Proof.Config
end

