-- ==== Sys2Proof/Machine/Numerics.lean ====
section
/-!
DEFINITION. Formats, exact values, rounding and conversion (04_numerics.md R118 to R142, 03_fulling_arrays.md R101 to R104).
Every value is exact: a dyadic number, an infinity or a NaN; a rounding happens in one place only, `FFmt.round`.
-/

namespace Sys2Proof.Machine
open Sys2Proof

/-- An exact value (R127): `fin neg m e` is (−1)^neg × m × 2^e; `fin neg 0 e` is a signed zero. -/
inductive XVal
  | nan
  | inf (neg : Bool)
  | fin (neg : Bool) (m : Nat) (e : Int)
  deriving DecidableEq, Repr

/-- The magnitude of a finite quotient before its one rounding: num ÷ den × 2^e. -/
structure Mag where
  num : Nat
  den : Nat
  e : Int
  deriving DecidableEq, Repr

/-- The rounding of one conversion (R128, R138): to nearest even, or stochastic with the element's 32-bit draw. -/
inductive Rnd
  | rne
  | sr (draw : Nat)
  deriving DecidableEq, Repr

abbrev XVal.zero : XVal := .fin false 0 0
abbrev XVal.one : XVal := .fin false 1 0
abbrev XVal.ofNat (n : Nat) : XVal := .fin false n 0
def XVal.ofInt (i : Int) : XVal := .fin (i < 0) i.natAbs 0

def XVal.isZero : XVal → Bool
  | .fin _ m _ => m == 0
  | _ => false

def XVal.isNan : XVal → Bool
  | .nan => true
  | _ => false

def XVal.isInf : XVal → Bool
  | .inf _ => true
  | _ => false

def XVal.isNeg : XVal → Bool
  | .nan => false
  | .inf n => n
  | .fin n _ _ => n

def XVal.neg : XVal → XVal
  | .nan => .nan
  | .inf n => .inf !n
  | .fin n m e => .fin (!n) m e

def XVal.abs : XVal → XVal
  | .nan => .nan
  | .inf _ => .inf false
  | .fin _ m e => .fin false m e

/-- A value times a power of two. -/
def XVal.scale (x : XVal) (k : Int) : XVal :=
  match x with
  | .fin n m e => .fin n m (e + k)
  | y => y

/-- The signed integer m × 2^(e − lo) of a finite value on a grid no coarser than its own. -/
def gridInt (n : Bool) (m : Nat) (e lo : Int) : Int :=
  let v : Int := (m <<< (e - lo).toNat : Nat)
  if n then -v else v

/-- Exact sum. An exact zero sum is +0 unless both terms are −0 (R101). -/
def XVal.add : XVal → XVal → XVal
  | .nan, _ => .nan
  | _, .nan => .nan
  | .inf a, .inf b => if a = b then .inf a else .nan
  | .inf a, _ => .inf a
  | _, .inf b => .inf b
  | .fin n1 m1 e1, .fin n2 m2 e2 =>
    let lo := min e1 e2
    let s := gridInt n1 m1 e1 lo + gridInt n2 m2 e2 lo
    if s = 0 then .fin (n1 && n2 && m1 == 0 && m2 == 0) 0 0 else .fin (s < 0) s.natAbs lo

def XVal.sub (a b : XVal) : XVal := a.add b.neg

/-- Exact product; infinity times zero is NaN (R103). -/
def XVal.mul : XVal → XVal → XVal
  | .nan, _ => .nan
  | _, .nan => .nan
  | .inf a, .inf b => .inf (a != b)
  | .inf a, .fin n m _ => if m = 0 then .nan else .inf (a != n)
  | .fin n m _, .inf b => if m = 0 then .nan else .inf (n != b)
  | .fin n1 m1 e1, .fin n2 m2 e2 => .fin (n1 != n2) (m1 * m2) (e1 + e2)

/-- Comparison of two values that are not NaN; −0 equals +0. -/
def XVal.cmp : XVal → XVal → Ordering
  | .inf a, .inf b => compare (if a then 0 else 1) (if b then (0 : Nat) else 1)
  | .inf a, _ => if a then .lt else .gt
  | _, .inf b => if b then .gt else .lt
  | .fin n1 m1 e1, .fin n2 m2 e2 =>
    let lo := min e1 e2
    compare (gridInt n1 m1 e1 lo) (gridInt n2 m2 e2 lo)
  | _, _ => .eq

def XVal.lt (a b : XVal) : Bool := !a.isNan && !b.isNan && a.cmp b == .lt
def XVal.le (a b : XVal) : Bool := !a.isNan && !b.isNan && a.cmp b != .gt
def XVal.eq (a b : XVal) : Bool := !a.isNan && !b.isNan && a.cmp b == .eq

/-- Maximum and minimum of two values, NaN if either is NaN; max(−0, +0) is +0 and min(−0, +0) is −0 (R159, R178). -/
def XVal.max (a b : XVal) : XVal :=
  if a.isNan || b.isNan then .nan
  else match a.cmp b with
    | .lt => b
    | .gt => a
    | .eq => if a.isNeg then b else a

def XVal.min (a b : XVal) : XVal :=
  if a.isNan || b.isNan then .nan
  else match a.cmp b with
    | .lt => a
    | .gt => b
    | .eq => if a.isNeg then a else b

/-- floor(log2(num ÷ den × 2^e)) of a positive magnitude. -/
def Mag.floorLog2 (x : Mag) : Int :=
  let k : Int := (Nat.log2 x.num : Int) - (Nat.log2 x.den : Int)
  let ge := if 0 ≤ k then x.num ≥ x.den <<< k.toNat else x.num <<< (-k).toNat ≥ x.den
  (if ge then k else k - 1) + x.e

/-- The magnitude on the grid of 2^g: the quotient below it and the remainder over the (shifted) denominator. -/
def Mag.onGrid (x : Mag) (g : Int) : Nat × Nat × Nat :=
  let num := if x.e ≥ g then x.num <<< (x.e - g).toNat else x.num
  let den := if x.e ≥ g then x.den else x.den <<< (g - x.e).toNat
  (num / den, num % den, den)

/-- The rounded multiple of 2^g (R128, R138): hi when the draw lies below floor(f × 2^32). -/
def Mag.roundGrid (x : Mag) (g : Int) (r : Rnd) : Nat :=
  let (q, rem, den) := x.onGrid g
  match r with
  | .rne => if 2 * rem > den || (2 * rem == den && q % 2 == 1) then q + 1 else q
  | .sr draw => if draw < rem * 2 ^ 32 / den then q + 1 else q

/-- A binary floating format: exponent and fraction bits, bias, and the largest finite code without its sign. -/
structure FFmt where
  ebits : Nat
  mbits : Nat
  bias : Nat
  maxCode : Nat
  hasInf : Bool
  nan : Option Nat
  deriving DecidableEq, Repr

/-- The formats of R119 and of the W40 table of 03_fulling_arrays.md. -/
def fE4M3 : FFmt := ⟨4, 3, 7, 0x7E, false, some 0x7F⟩
def fE5M2 : FFmt := ⟨5, 2, 15, 0x7B, true, some 0x7E⟩
def fE3M2 : FFmt := ⟨3, 2, 3, 0x1F, false, none⟩
def fE2M3 : FFmt := ⟨2, 3, 1, 0x1F, false, none⟩
def fE2M1 : FFmt := ⟨2, 1, 1, 0x7, false, none⟩
def fFP16 : FFmt := ⟨5, 10, 15, 0x7BFF, true, some 0x7E00⟩
def fBF16 : FFmt := ⟨8, 7, 127, 0x7F7F, true, some 0x7FC0⟩
def fFP32 : FFmt := ⟨8, 23, 127, 0x7F7FFFFF, true, some 0x7FC00000⟩
def fW40 : FFmt := ⟨8, 31, 127, 0x7F7FFFFFFF, true, some 0x7FC0000000⟩

abbrev FFmt.signBit (f : FFmt) : Nat := 2 ^ (f.ebits + f.mbits)
abbrev FFmt.width (f : FFmt) : Nat := 1 + f.ebits + f.mbits
/-- The infinity code without its sign: the exponent field all ones, the fraction zero. -/
abbrev FFmt.infCode (f : FFmt) : Nat := (2 ^ f.ebits - 1) * 2 ^ f.mbits

/-- The value of a code (R119, R120, R122). -/
def FFmt.decode (f : FFmt) (code : Nat) : XVal :=
  let c := code % 2 ^ f.width
  let neg := c ≥ f.signBit
  let mag := c % f.signBit
  let field := mag / 2 ^ f.mbits
  let mant := mag % 2 ^ f.mbits
  if mag > f.maxCode then
    if f.hasInf && mag == f.infCode then .inf neg else .nan
  else if field = 0 then .fin neg mant (1 - (f.bias : Int) - f.mbits)
  else .fin neg (2 ^ f.mbits + mant) ((field : Int) - f.bias - f.mbits)

/-- The code, without its sign, of a finite magnitude rounded once, and whether it overflows the largest finite value
(R128, R129, R138: to nearest, when the rounded result would exceed it; stochastically, when the value exceeds it). -/
def FFmt.round (f : FFmt) (r : Rnd) (x : Mag) : Nat × Bool :=
  if x.num = 0 then (0, false)
  else
    let ee := Max.max x.floorLog2 (1 - (f.bias : Int))
    let g := ee - f.mbits
    let base := (ee + f.bias - 1).toNat * 2 ^ f.mbits
    let c := base + x.roundGrid g r
    let (q, rem, _) := x.onGrid g
    let ovf := match r with
      | .rne => c > f.maxCode
      | .sr _ => base + q > f.maxCode || (base + q == f.maxCode && rem != 0)
    (c, ovf)

def FFmt.signed (f : FFmt) (neg : Bool) (code : Nat) : Nat := if neg then f.signBit + code else code

/-! Conversion status bits (R135): bit 0 CV_SAT, bit 1 CV_INF, bit 2 CV_NAN, bit 3 CV_CLAMP. -/
abbrev cvSat : Nat := 1
abbrev cvInf : Nat := 2
abbrev cvNan : Nat := 4
abbrev cvClamp : Nat := 8

/-- A conversion of a signed quotient into a floating format without block scale (R129). -/
def FFmt.encodeMag (f : FFmt) (sat : Bool) (r : Rnd) (neg : Bool) (x : Mag) : Nat × Nat :=
  let (c, ovf) := f.round r x
  if ovf then
    if sat || !f.hasInf then (f.signed neg f.maxCode, cvSat) else (f.signed neg f.infCode, cvInf)
  else (f.signed neg c, 0)

/-- A conversion of an exact value into a floating format without block scale (R129). -/
def FFmt.encode (f : FFmt) (sat : Bool) (r : Rnd) (x : XVal) : Nat × Nat :=
  match x with
  | .nan => (f.nan.getD 0, cvNan)
  | .inf n => if sat || !f.hasInf then (f.signed n f.maxCode, cvSat) else (f.signed n f.infCode, 0)
  | .fin n m e => f.encodeMag sat r n ⟨m, 1, e⟩

/-- Rounding to FP32 or BF16 to nearest even as an arithmetic result (R178). -/
def rneFP32 (x : XVal) : Nat := (fFP32.encode false .rne x).1
def rneBF16 (x : XVal) : Nat := (fBF16.encode false .rne x).1
def toFP32 (x : XVal) : XVal := fFP32.decode (rneFP32 x)

/-- The nearest value of a format to the quotient of two finite values (R130, R178); zero divided by zero is NaN, and a
nonzero value divided by zero is infinite. -/
def FFmt.quot (f : FFmt) (a b : XVal) : Nat :=
  match a, b with
  | .nan, _ => f.nan.getD 0
  | _, .nan => f.nan.getD 0
  | .inf _, .inf _ => f.nan.getD 0
  | .inf s, .fin n _ _ => f.signed (s != n) f.infCode
  | .fin n _ _, .inf s => f.signed (n != s) 0
  | .fin n1 m1 e1, .fin n2 m2 e2 =>
    if m2 = 0 then (if m1 = 0 then f.nan.getD 0 else f.signed (n1 != n2) f.infCode)
    else (f.encodeMag false .rne (n1 != n2) ⟨m1, m2, e1 - e2⟩).1

/-! ## W40 (R101 to R104) -/

/-- round_w40: the nearest W40 value, and whether it saturated; a NaN or an infinity passes through. -/
def w40Round (x : XVal) : Nat × Bool :=
  match x with
  | .nan => (0x7FC0000000, false)
  | .inf n => (fW40.signed n fW40.infCode, false)
  | .fin n m e =>
    let (c, ovf) := fW40.round .rne ⟨m, 1, e⟩
    if ovf then (fW40.signed n fW40.maxCode, true) else (fW40.signed n c, false)

/-- One accumulation into a W40 element: its code, SAT and NAN (R101 to R104). -/
def w40Add (acc : Nat) (x : XVal) : Nat × Bool × Bool :=
  let s := (fW40.decode acc).add x
  let (c, sat) := w40Round s
  (c, sat, s.isNan && (x.isNan || x.isInf))

/-! ## Format codes (R118) -/

/-- Bits of one element by format code. -/
def fmtBits (f : Nat) : Nat :=
  if f = 0x02 || f = 0x03 then 6
  else if f = 0x04 then 4
  else if f = 0x06 || f = 0x07 || f = 0x10 then 16
  else if f = 0x08 || f = 0x12 then 32
  else if f = 0x11 then 40
  else if f = 0x13 then 1
  else 8

def fmtDefined (f : Nat) : Bool := f ≤ 0x0A || (0x10 ≤ f && f ≤ 0x13)
/-- The MX formats 0x00 to 0x05. -/
def fmtIsMX (f : Nat) : Bool := f ≤ 0x05
/-- The formats that carry an E8M0 scale per 32 elements. -/
def fmtBlockScaled (f : Nat) : Bool := f ≤ 0x05 || f == 0x10
/-- Plain FP8, which carries an FP32 scale per tensor. -/
def fmtPlainFP8 (f : Nat) : Bool := f == 0x09 || f == 0x0A

/-- The floating layout of a format code; MXINT8, INT32 and Bitmask have none. -/
def fmtFloat (f : Nat) : Option FFmt :=
  match f with
  | 0x00 => some fE4M3
  | 0x01 => some fE5M2
  | 0x02 => some fE3M2
  | 0x03 => some fE2M3
  | 0x04 => some fE2M1
  | 0x06 => some fBF16
  | 0x07 => some fFP16
  | 0x08 => some fFP32
  | 0x09 => some fE4M3
  | 0x0A => some fE5M2
  | 0x10 => some fFP16
  | 0x11 => some fW40
  | _ => none

/-- The value of an element code before any scale (R119, R121, R123, R131). -/
def decodeElem (f code : Nat) : XVal :=
  match fmtFloat f with
  | some ff => ff.decode code
  | none =>
    if f = 0x05 then (XVal.ofInt (Sys2Proof.signed 8 code)).scale (-6)
    else if f = 0x12 then XVal.ofInt (Sys2Proof.signed 32 code)
    else if code % 2 = 1 then .one else .zero

/-- An E8M0 scale applied to an element value (R125). -/
def e8m0Scale (s : Nat) (x : XVal) : XVal := if s = 0xFF then .nan else x.scale ((s : Int) - 127)

/-- A usable per-tensor scale is a positive finite FP32 value (R130). -/
def scaleUsable (code : Nat) : Bool := 0 < code && code ≤ fFP32.maxCode

/-- An element of a plain FP8 tensor (R130). -/
def plainFP8Value (f code scale : Nat) : XVal :=
  if scaleUsable scale then (decodeElem f code).mul (fFP32.decode scale) else .nan

/-- OUTER is valid when it is a normal power of two (R126). -/
def outerValid (code : Nat) : Bool := code % 2 ^ 23 == 0 && 1 ≤ code / 2 ^ 23 && code / 2 ^ 23 ≤ 254
/-- The exponent of a valid OUTER. -/
def outerExp (code : Nat) : Int := ((code / 2 ^ 23 : Nat) : Int) - 127

/-- A value rounded to an integer with saturation into [lo, hi] (R129, R131). -/
def toInteger (r : Rnd) (neg : Bool) (m : Nat) (e lo hi : Int) : Int × Bool :=
  let n : Int := (⟨m, 1, e⟩ : Mag).roundGrid 0 r
  let v := if neg then -n else n
  let (q, rem, _) := (⟨m, 1, e⟩ : Mag).onGrid 0
  let beyond := match r with          -- under SR a magnitude beyond the largest overflows whatever the draw (R129)
    | .rne => false
    | .sr _ => rem != 0 && (if neg then (q : Int) ≥ -lo else (q : Int) ≥ hi)
  if v > hi || (beyond && !neg) then (hi, true) else if v < lo || beyond then (lo, true) else (v, false)

/-- A conversion into a destination without block scale: code and status bits (R129, R130, R131). `scale` is the FP32
per-tensor scale of a plain FP8 destination. -/
def encodeUnscaled (f : Nat) (sat : Bool) (r : Rnd) (scale : Nat) (x : XVal) : Nat × Nat :=
  if f = 0x12 then
    match x with
    | .nan => (0, cvNan)
    | .inf n => (if n then 0x80000000 else 0x7FFFFFFF, cvSat)
    | .fin n m e =>
      let (v, s) := toInteger r n m e (-2147483648) 2147483647
      (unsigned 32 v, if s then cvSat else 0)
  else if f = 0x13 then
    (if x.isZero then 0 else 1, if x.isNan then cvNan else 0)
  else if fmtPlainFP8 f then
    let ff := if f = 0x09 then fE4M3 else fE5M2
    if !scaleUsable scale then ff.encode sat r .nan
    else match x, fFP32.decode scale with
      | .fin n m e, .fin _ m2 e2 => ff.encodeMag sat r n ⟨m, m2, e - e2⟩
      | y, _ => ff.encode sat r y
  else match fmtFloat f with
    | some ff => ff.encode sat r x
    | none => (0, 0)

/-- emax of R132. -/
def fmtEmax (f : Nat) : Int :=
  if f = 0x00 then 8 else if f = 0x01 then 15 else if f = 0x02 then 4 else if f = 0x03 || f = 0x04 then 2
  else if f = 0x05 then 0 else 14

/-- One element of a block rounded into its format and clamped to the largest finite magnitude (R132, R121). -/
def encodeBlockElem (f : Nat) (r : Rnd) (x : XVal) (e : Int) : Nat :=
  match x.scale (-e) with
  | .fin n m ee =>
    if f = 0x05 then
      let (v, _) := toInteger r n m (ee + 6) (-127) 127
      unsigned 8 v
    else match fmtFloat f with
      | some ff =>
        let (c, ovf) := ff.round r ⟨m, 1, ee⟩
        ff.signed n (if ovf then ff.maxCode else c)
      | none => 0
  | .inf n => fE5M2.signed n fE5M2.infCode
  | .nan => 0

/-- The largest magnitude among the finite values. -/
def amaxFinite (xs : List XVal) : XVal :=
  xs.foldl (fun a x => match x with
    | .fin _ m e => if a.lt (.fin false m e) then .fin false m e else a
    | _ => a) .zero

/-- quantize block (R132): the scale, the element codes and the status bits. `outer` is the exponent of the bucket's OUTER
for BS16, 0 for an MX format. `rs` gives each element's rounding. -/
def quantizeBlock (f : Nat) (outer : Int) (xs : List XVal) (rs : List Rnd) : Nat × List Nat × Nat :=
  let ys := xs.map (·.scale (-outer))
  if ys.any (fun x => x.isNan || (x.isInf && f != 0x01)) then (0xFF, ys.map (fun _ => 0), cvNan)
  else
    match amaxFinite ys with
    | .fin _ 0 _ => (127, List.zipWith (fun x r => encodeBlockElem f r x 0) ys rs, 0)
    | .fin _ m e0 =>
      let e := (⟨m, 1, e0⟩ : Mag).floorLog2 - fmtEmax f
      let ec := if e < -127 then -127 else if e > 127 then 127 else e
      ((ec + 127).toNat, List.zipWith (fun x r => encodeBlockElem f r x ec) ys rs, if e < -127 || e > 127 then cvClamp else 0)
    | _ => (127, [], 0)

/-! ## The generator (R139) -/

/-- One round of Philox-4x32. -/
def philoxRound (c : Nat × Nat × Nat × Nat) (k0 k1 : Nat) : Nat × Nat × Nat × Nat :=
  let (c0, c1, c2, c3) := c
  let p0 := 0xD2511F53 * c0
  let p1 := 0xCD9E8D57 * c2
  ((p1 / 2 ^ 32) ^^^ c1 ^^^ k0, p1 % 2 ^ 32, (p0 / 2 ^ 32) ^^^ c3 ^^^ k1, p0 % 2 ^ 32)

/-- Rounds of Philox with the key advanced by the Weyl constants between rounds. -/
def philox : Nat → Nat × Nat × Nat × Nat → Nat → Nat → Nat × Nat × Nat × Nat
  | 0, c, _, _ => c
  | n + 1, c, k0, k1 => philox n (philoxRound c k0 k1) ((k0 + 0x9E3779B9) % 2 ^ 32) ((k1 + 0xBB67AE85) % 2 ^ 32)

/-- The counter of element group E (R139). -/
def drawCounter (step tensor mb g : Nat) : Nat × Nat × Nat × Nat :=
  (g % 2 ^ 32,
   (tensor % 2 ^ 19) <<< 13 ||| ((g >>> 38) % 2 ^ 7) <<< 6 ||| (g >>> 32) % 2 ^ 6,
   mb % 2 ^ 32,
   step % 2 ^ 32)

/-- The 32-bit draw of element `e` (R139, R140). -/
def drawOf (seed step tensor mb e : Nat) : Nat :=
  let (w0, w1, w2, w3) := philox 10 (drawCounter step tensor mb (e / 4)) (seed % 2 ^ 32) ((seed >>> 32) % 2 ^ 32 ^^^ (step >>> 32) % 2 ^ 32)
  match e % 4 with
  | 0 => w0
  | 1 => w1
  | 2 => w2
  | _ => w3

/-! ## Reductions (R158 to R161) -/

/-- combine: an absent operand yields the other. -/
def combine {α : Type} (op : α → α → α) : Option α → Option α → Option α
  | none, v => v
  | u, none => u
  | some a, some b => some (op a b)

/-- One level: neighbours combined pairwise. -/
def combineLevel {α : Type} (op : α → α → α) : List (Option α) → List (Option α)
  | a :: b :: rest => combine op a b :: combineLevel op rest
  | l => l

/-- `n` levels of pairwise combination. -/
def combineLevels {α : Type} (op : α → α → α) : Nat → List (Option α) → List (Option α)
  | 0, l => l
  | n + 1, l => combineLevels op n (combineLevel op l)

/-- The list cut into leaves of 256 elements, the last one padded with absent elements. -/
def leavesOf {α : Type} : Nat → List (Option α) → List (List (Option α))
  | 0, _ => []
  | n + 1, l => ((l.take 256) ++ List.replicate (256 - (l.take 256).length) none) :: leavesOf n (l.drop 256)

/-- The reduction tree of R158; `none` is the empty result. -/
def reduceTree {α : Type} (op : α → α → α) (xs : List (Option α)) : Option α :=
  let l := ceilDiv xs.length 256
  let leaves := (leavesOf l xs).map (fun lf => (combineLevels op 8 lf).headD none)
  let lv := if l ≤ 1 then 0 else Nat.log2 (l - 1) + 1
  (combineLevels op lv (leaves ++ List.replicate (2 ^ lv - leaves.length) none)).headD none

/-- A W40 addition of two W40 values (R159). -/
def w40Sum (a b : Nat) : Nat := (w40Round ((fW40.decode a).add (fW40.decode b))).1

/-- The W40 sum over the present elements (R159); `none` when none is present. A value beyond the range of W40 decodes to an
infinity (R127, R129). -/
def sumTree (xs : List (Option XVal)) : Option Nat := reduceTree w40Sum (xs.map (·.map (fun x => (fW40.encode false .rne x).1)))

/-- The sum of squares: each square rounds once into W40 before the tree, as an accumulation does (R102, R159). -/
def sumSqTree (xs : List (Option XVal)) : Option Nat := reduceTree w40Sum (xs.map (·.map (fun x => (w40Round (x.mul x)).1)))

def maxTree (xs : List (Option XVal)) : Option XVal := reduceTree XVal.max xs
def minTree (xs : List (Option XVal)) : Option XVal := reduceTree XVal.min xs

/-- The order of top-k: NaN above +infinity, then by value with +0 above −0 (as max of R159 orders them; log 31),
then by the lower position (R160, R161). `true` when the first precedes the second. -/
def topkBefore (a b : XVal × Nat) : Bool :=
  match a.1.isNan, b.1.isNan with
  | true, true => a.2 < b.2
  | true, false => true
  | false, true => false
  | false, false => b.1.lt a.1 || (a.1.eq b.1 && (if a.1.isNeg == b.1.isNeg then a.2 < b.2 else b.1.isNeg))

def topkInsert (x : XVal × Nat) : List (XVal × Nat) → List (XVal × Nat)
  | [] => [x]
  | y :: ys => if topkBefore x y then x :: y :: ys else y :: topkInsert x ys

/-- The k largest present values with their positions, descending; missing results are −inf with 0xFFFF_FFFF (R161). -/
def topk (k : Nat) (xs : List (XVal × Nat)) : List (XVal × Nat) :=
  let s := (xs.foldl (fun acc x => topkInsert x acc) []).take k
  s ++ List.replicate (k - s.length) (.inf true, 0xFFFFFFFF)

end Sys2Proof.Machine
end

