-- ==== Sys2Proof/Machine/Objects.lean ====
section
/-!
DEFINITION. The object dictionary as the spec's object tables give it: index, stride, subindex, type, access, default, whether
the object is a window held per session (R453), and its stated range. Every number is from a table of spec/
(the object tables of 02 to 16; the generic types and access codes of 13_management.md).
-/

namespace Sys2Proof.Machine
open Sys2Proof

/-- Data types of 13_management.md. -/
inductive ObjType | bool | u8 | u16 | u32 | u64 | i32 | f32 | str | addr | domain
  deriving DecidableEq, Repr

/-- Access codes of 13_management.md. -/
inductive Access | ro | rw | wo | rwp | rws
  deriving DecidableEq, Repr

/-- One row of an object table: `count` copies at `index + i × step`, subindices `lo` to `hi`. -/
structure ObjRow where
  index : Nat
  count : Nat
  step : Nat
  lo : Nat
  hi : Nat
  ty : ObjType
  acc : Access
  dflt : Nat
  window : Bool
  rlo : Nat
  rhi : Option Nat
  deriving DecidableEq, Repr

/-- The key of an object in the register maps. -/
def okey (index sub : Nat) : Nat := index * 256 + sub

def objRows0 : List ObjRow := [
  ⟨0x1000, 1, 0x0, 0x01, 0x01, .str, .ro, 0x0, false, 0, none⟩,
  ⟨0x1000, 1, 0x0, 0x02, 0x02, .u64, .ro, 0x0, false, 0, none⟩,
  ⟨0x3004, 12, 0x100, 0x01, 0x01, .u64, .rws, 0x0, false, 0, none⟩,
  ⟨0x3004, 12, 0x100, 0x02, 0x02, .u32, .rws, 0x64, false, 5, some 100000⟩,
  ⟨0x3004, 12, 0x100, 0x03, 0x03, .u32, .rws, 0x7D0, false, 500, some 50000⟩,
  ⟨0x3004, 12, 0x100, 0x04, 0x04, .u64, .ro, 0x0, false, 0, none⟩,
  ⟨0x3004, 12, 0x100, 0x05, 0x05, .u8, .rws, 0x3, false, 1, some 16⟩,
  ⟨0x3005, 12, 0x100, 0x01, 0x01, .u64, .ro, 0x0, false, 0, none⟩,
  ⟨0x3005, 12, 0x100, 0x02, 0x02, .u8, .ro, 0x0, false, 0, none⟩,
  ⟨0x3005, 12, 0x100, 0x03, 0x03, .u32, .ro, 0x0, false, 0, none⟩,
  ⟨0x3005, 12, 0x100, 0x04, 0x04, .u64, .ro, 0x0, false, 0, none⟩,
  ⟨0x3005, 12, 0x100, 0x05, 0x05, .u32, .ro, 0x0, false, 0, none⟩,
  ⟨0x3005, 12, 0x100, 0x06, 0x06, .u64, .ro, 0x0, false, 0, none⟩,
  ⟨0x3005, 12, 0x100, 0x07, 0x07, .u64, .ro, 0x0, false, 0, none⟩,
  ⟨0x3005, 12, 0x100, 0x08, 0x08, .u64, .ro, 0x0, false, 0, none⟩,
  ⟨0x3005, 12, 0x100, 0x09, 0x09, .u64, .ro, 0x0, false, 0, none⟩,
  ⟨0x3005, 12, 0x100, 0x0A, 0x0A, .u32, .ro, 0x0, false, 0, none⟩,
  ⟨0x3005, 12, 0x100, 0x0B, 0x0B, .u64, .ro, 0x0, false, 0, none⟩,
  ⟨0x3005, 12, 0x100, 0x0C, 0x0C, .u32, .ro, 0x0, false, 0, none⟩,
  ⟨0x3005, 12, 0x100, 0x0D, 0x0D, .u32, .ro, 0x0, false, 0, none⟩,
  ⟨0x2100, 1, 0x0, 0x01, 0x05, .u8, .rwp, 0x2, false, 0, some 2⟩,
  ⟨0x2101, 1, 0x0, 0x01, 0x01, .f32, .rwp, 0x3B800000, false, 0, none⟩,
  ⟨0x2101, 1, 0x0, 0x02, 0x02, .f32, .rwp, 0x3E000000, false, 0, none⟩,
  ⟨0x2101, 1, 0x0, 0x03, 0x03, .f32, .rwp, 0x39800000, false, 0, none⟩,
  ⟨0x2101, 1, 0x0, 0x04, 0x04, .f32, .rwp, 0x3A800000, false, 0, none⟩,
  ⟨0x2101, 1, 0x0, 0x05, 0x05, .f32, .rwp, 0x3D800000, false, 0, none⟩,
  ⟨0x2102, 1, 0x0, 0x01, 0x01, .u8, .rwp, 0x10, false, 1, some 64⟩,
  ⟨0x2102, 1, 0x0, 0x02, 0x02, .u8, .rwp, 0x1, false, 0, some 8⟩,
  ⟨0x2102, 1, 0x0, 0x03, 0x03, .u8, .rwp, 0x8, false, 1, some 64⟩,
  ⟨0x2103, 1, 0x0, 0x01, 0x01, .u32, .rwp, 0x1000, false, 0, some 1048576⟩,
  ⟨0x2103, 1, 0x0, 0x02, 0x06, .f32, .rwp, 0x3D800000, false, 0, none⟩,
  ⟨0x2103, 1, 0x0, 0x07, 0x0B, .u8, .rwp, 0x1, false, 0, none⟩,
  ⟨0x3006, 12, 0x100, 0x01, 0x01, .u8, .ro, 0x0, false, 0, none⟩,
  ⟨0x3006, 12, 0x100, 0x02, 0x02, .u8, .ro, 0x0, false, 0, none⟩,
  ⟨0x3006, 12, 0x100, 0x03, 0x03, .u32, .ro, 0x0, false, 0, none⟩,
  ⟨0x3006, 12, 0x100, 0x04, 0x04, .u32, .ro, 0x0, false, 0, none⟩,
  ⟨0x3006, 12, 0x100, 0x05, 0x05, .u8, .ro, 0x0, false, 0, none⟩,
  ⟨0x3007, 12, 0x100, 0x01, 0x05, .u64, .ro, 0x0, false, 0, none⟩,
  ⟨0x3007, 12, 0x100, 0x06, 0x0A, .f32, .ro, 0x0, false, 0, none⟩,
  ⟨0x3007, 12, 0x100, 0x0B, 0x0F, .f32, .ro, 0x0, false, 0, none⟩]

def objRows1 : List ObjRow := [
  ⟨0x3007, 12, 0x100, 0x10, 0x14, .u64, .ro, 0x0, false, 0, none⟩,
  ⟨0x3007, 12, 0x100, 0x15, 0x15, .u64, .ro, 0x0, false, 0, none⟩,
  ⟨0x3007, 12, 0x100, 0x16, 0x16, .u64, .ro, 0x0, false, 0, none⟩,
  ⟨0x2300, 1, 0x0, 0x01, 0x01, .u16, .rw, 0x0, true, 0, some 1023⟩,
  ⟨0x2300, 1, 0x0, 0x02, 0x02, .domain, .rw, 0x0, true, 0, none⟩,
  ⟨0x2300, 1, 0x0, 0x03, 0x03, .u16, .ro, 0x0, false, 0, none⟩,
  ⟨0x3008, 12, 0x100, 0x01, 0x01, .bool, .rws, 0x0, false, 0, none⟩,
  ⟨0x3008, 12, 0x100, 0x02, 0x02, .u64, .ro, 0x0, false, 0, none⟩,
  ⟨0x3008, 12, 0x100, 0x03, 0x03, .u64, .ro, 0x0, false, 0, none⟩,
  ⟨0x3008, 12, 0x100, 0x04, 0x04, .u64, .ro, 0x0, false, 0, none⟩,
  ⟨0x3008, 12, 0x100, 0x05, 0x05, .u64, .ro, 0x0, false, 0, none⟩,
  ⟨0x3008, 12, 0x100, 0x06, 0x06, .u64, .ro, 0x0, false, 0, none⟩,
  ⟨0x3008, 12, 0x100, 0x07, 0x07, .u64, .ro, 0x0, false, 0, none⟩,
  ⟨0x3008, 12, 0x100, 0x08, 0x08, .u32, .ro, 0x0, false, 0, none⟩,
  ⟨0x3008, 12, 0x100, 0x09, 0x09, .u32, .ro, 0x0, false, 0, none⟩,
  ⟨0x3008, 12, 0x100, 0x0A, 0x0A, .u32, .ro, 0x0, false, 0, none⟩,
  ⟨0x2200, 1, 0x0, 0x01, 0x01, .u64, .ro, 0x0, false, 0, none⟩,
  ⟨0x2201, 1, 0x0, 0x01, 0x30, .u8, .ro, 0x0, false, 0, none⟩,
  ⟨0x2202, 1, 0x0, 0x01, 0x30, .i32, .ro, 0x0, false, 0, none⟩,
  ⟨0x2203, 1, 0x0, 0x01, 0x01, .u8, .wo, 0x0, false, 0, some 47⟩,
  ⟨0x2203, 1, 0x0, 0x02, 0x02, .u8, .ro, 0x0, false, 0, none⟩,
  ⟨0x2204, 1, 0x0, 0x01, 0x30, .u16, .ro, 0x0, false, 0, none⟩,
  ⟨0x2210, 8, 0x1, 0x01, 0x01, .u8, .ro, 0x0, false, 0, none⟩,
  ⟨0x2210, 8, 0x1, 0x02, 0x02, .u64, .ro, 0x0, false, 0, none⟩,
  ⟨0x2210, 8, 0x1, 0x03, 0x03, .bool, .wo, 0x0, false, 0, none⟩,
  ⟨0x2210, 8, 0x1, 0x04, 0x04, .u32, .ro, 0x0, false, 0, none⟩,
  ⟨0x2210, 8, 0x1, 0x05, 0x05, .u32, .ro, 0x0, false, 0, none⟩,
  ⟨0x2241, 1, 0x0, 0x01, 0x01, .u32, .rw, 0x0, true, 0, some 524287⟩,
  ⟨0x2241, 1, 0x0, 0x02, 0x02, .u8, .wo, 0x0, true, 0, none⟩,
  ⟨0x2241, 1, 0x0, 0x03, 0x03, .u8, .ro, 0x0, true, 0, none⟩,
  ⟨0x2241, 1, 0x0, 0x04, 0x04, .domain, .wo, 0x0, true, 0, none⟩,
  ⟨0x2241, 1, 0x0, 0x05, 0x05, .u32, .ro, 0x0, true, 0, none⟩,
  ⟨0x2240, 1, 0x0, 0x01, 0x01, .u64, .rwp, 0x1000000, false, 0, none⟩,
  ⟨0x3009, 12, 0x100, 0x01, 0x01, .u32, .rws, 0xFFFFFFFF, false, 0, none⟩,
  ⟨0x3009, 12, 0x100, 0x02, 0x02, .u64, .ro, 0x0, false, 0, none⟩,
  ⟨0x3009, 12, 0x100, 0x03, 0x03, .u64, .ro, 0x0, false, 0, none⟩,
  ⟨0x3009, 12, 0x100, 0x04, 0x04, .u32, .ro, 0x0, false, 0, none⟩,
  ⟨0x3009, 12, 0x100, 0x05, 0x05, .u32, .ro, 0x0, false, 0, none⟩,
  ⟨0x3009, 12, 0x100, 0x06, 0x06, .u32, .ro, 0x0, false, 0, none⟩,
  ⟨0x3009, 12, 0x100, 0x07, 0x07, .u64, .ro, 0x0, false, 0, none⟩]

def objRows2 : List ObjRow := [
  ⟨0x4000, 64, 0x10, 0x01, 0x01, .u8, .rwp, 0x1, false, 0, none⟩,
  ⟨0x4000, 64, 0x10, 0x02, 0x02, .u8, .rwp, 0x0, false, 0, none⟩,
  ⟨0x4000, 64, 0x10, 0x03, 0x03, .u16, .rwp, 0x2400, false, 1518, some 9216⟩,
  ⟨0x4000, 64, 0x10, 0x04, 0x04, .u32, .rwp, 0x0, false, 0, some 100000⟩,
  ⟨0x4000, 64, 0x10, 0x05, 0x05, .bool, .rwp, 0x0, false, 0, none⟩,
  ⟨0x4000, 64, 0x10, 0x06, 0x06, .bool, .rwp, 0x0, false, 0, none⟩,
  ⟨0x4000, 64, 0x10, 0x07, 0x07, .u8, .rw, 0x1, false, 0, none⟩,
  ⟨0x4000, 64, 0x10, 0x08, 0x08, .u8, .wo, 0x0, false, 0, none⟩,
  ⟨0x4000, 64, 0x10, 0x09, 0x09, .u64, .ro, 0x0, false, 0, none⟩,
  ⟨0x4000, 64, 0x10, 0x0A, 0x0A, .domain, .rwp, 0x0, false, 0, none⟩,
  ⟨0x4000, 64, 0x10, 0x0B, 0x0B, .bool, .rwp, 0x0, false, 0, none⟩,
  ⟨0x4000, 64, 0x10, 0x0C, 0x0C, .u16, .rwp, 0x1, false, 1, some 100⟩,
  ⟨0x4001, 64, 0x10, 0x01, 0x01, .u8, .ro, 0x0, false, 0, none⟩,
  ⟨0x4001, 64, 0x10, 0x02, 0x02, .u8, .ro, 0xFF, false, 0, none⟩,
  ⟨0x4001, 64, 0x10, 0x03, 0x03, .u64, .ro, 0x0, false, 0, none⟩,
  ⟨0x4001, 64, 0x10, 0x04, 0x04, .u8, .ro, 0xFF, false, 0, none⟩,
  ⟨0x4001, 64, 0x10, 0x05, 0x05, .u8, .ro, 0xFF, false, 0, none⟩,
  ⟨0x4001, 64, 0x10, 0x06, 0x06, .u8, .ro, 0x0, false, 0, none⟩,
  ⟨0x4001, 64, 0x10, 0x07, 0x07, .u16, .ro, 0x0, false, 0, none⟩,
  ⟨0x4001, 64, 0x10, 0x08, 0x08, .u8, .ro, 0x0, false, 0, none⟩,
  ⟨0x4001, 64, 0x10, 0x09, 0x09, .u32, .ro, 0x0, false, 0, none⟩,
  ⟨0x4002, 65, 0x10, 0x01, 0x01, .u64, .ro, 0x0, false, 0, none⟩,
  ⟨0x4002, 65, 0x10, 0x02, 0x02, .u64, .ro, 0x0, false, 0, none⟩,
  ⟨0x4002, 65, 0x10, 0x03, 0x03, .u64, .ro, 0x0, false, 0, none⟩,
  ⟨0x4002, 65, 0x10, 0x04, 0x04, .u64, .ro, 0x0, false, 0, none⟩,
  ⟨0x4002, 65, 0x10, 0x05, 0x05, .u64, .ro, 0x0, false, 0, none⟩,
  ⟨0x4002, 65, 0x10, 0x06, 0x06, .u64, .ro, 0x0, false, 0, none⟩,
  ⟨0x4002, 65, 0x10, 0x07, 0x07, .u64, .ro, 0x0, false, 0, none⟩,
  ⟨0x4002, 65, 0x10, 0x08, 0x08, .u64, .ro, 0x0, false, 0, none⟩,
  ⟨0x4002, 65, 0x10, 0x09, 0x09, .u64, .ro, 0x0, false, 0, none⟩,
  ⟨0x4002, 65, 0x10, 0x0A, 0x0A, .u64, .ro, 0x0, false, 0, none⟩,
  ⟨0x4002, 65, 0x10, 0x0B, 0x0B, .u64, .ro, 0x0, false, 0, none⟩,
  ⟨0x4002, 65, 0x10, 0x0C, 0x0C, .u64, .ro, 0x0, false, 0, none⟩,
  ⟨0x4002, 65, 0x10, 0x0D, 0x0D, .u64, .ro, 0x0, false, 0, none⟩,
  ⟨0x4002, 65, 0x10, 0x0E, 0x0E, .u32, .ro, 0x0, false, 0, none⟩,
  ⟨0x4002, 65, 0x10, 0x0F, 0x0F, .u64, .ro, 0x0, false, 0, none⟩,
  ⟨0x4003, 65, 0x10, 0x01, 0x08, .u64, .ro, 0x0, false, 0, none⟩,
  ⟨0x2020, 4, 0x1, 0x01, 0x01, .u8, .rw, 0x0, true, 0, none⟩,
  ⟨0x2020, 4, 0x1, 0x02, 0x02, .domain, .rwp, 0x0, true, 0, none⟩,
  ⟨0x2024, 4, 0x1, 0x01, 0x01, .domain, .rw, 0x0, false, 0, none⟩]

def objRows3 : List ObjRow := [
  ⟨0x2010, 1, 0x0, 0x01, 0x01, .u16, .rwp, 0x88B5, false, 0, none⟩,
  ⟨0x2010, 1, 0x0, 0x02, 0x02, .u16, .rwp, 0xBDEE, false, 0, none⟩,
  ⟨0x2010, 1, 0x0, 0x03, 0x03, .u32, .rwp, 0xA28, false, 1000, some 100000⟩,
  ⟨0x2010, 1, 0x0, 0x04, 0x04, .u32, .rwp, 0x3E8, false, 0, some 600000⟩,
  ⟨0x2010, 1, 0x0, 0x05, 0x05, .u8, .rwp, 0x0, false, 0, none⟩,
  ⟨0x2010, 1, 0x0, 0x06, 0x06, .u8, .rwp, 0xFF, false, 0, none⟩,
  ⟨0x2010, 1, 0x0, 0x07, 0x07, .u64, .rwp, 0x3424C000000, false, 0, none⟩,
  ⟨0x2010, 1, 0x0, 0x08, 0x08, .u64, .rwp, 0x3424C000100, false, 0, none⟩,
  ⟨0x4800, 1, 0x0, 0x01, 0x01, .u16, .rw, 0x0, true, 0, some 4095⟩,
  ⟨0x4800, 1, 0x0, 0x02, 0x02, .u8, .wo, 0x0, true, 0, none⟩,
  ⟨0x4800, 1, 0x0, 0x03, 0x03, .u8, .ro, 0x0, true, 0, none⟩,
  ⟨0x4800, 1, 0x0, 0x04, 0x04, .domain, .wo, 0x0, true, 0, none⟩,
  ⟨0x4800, 1, 0x0, 0x05, 0x05, .u16, .ro, 0x0, false, 0, none⟩,
  ⟨0x4800, 1, 0x0, 0x06, 0x06, .u64, .ro, 0x0, false, 0, none⟩,
  ⟨0x4400, 1, 0x0, 0x01, 0x01, .u8, .rwp, 0x1, false, 0, none⟩,
  ⟨0x4400, 1, 0x0, 0x02, 0x02, .u8, .rwp, 0x0, false, 0, none⟩,
  ⟨0x4400, 1, 0x0, 0x03, 0x03, .u16, .rwp, 0x2400, false, 1518, some 9216⟩,
  ⟨0x4400, 1, 0x0, 0x04, 0x04, .u64, .ro, 0x0, false, 0, none⟩,
  ⟨0x4400, 1, 0x0, 0x05, 0x05, .domain, .rwp, 0x0, false, 0, none⟩,
  ⟨0x4400, 1, 0x0, 0x06, 0x06, .u8, .rwp, 0x0, false, 0, none⟩,
  ⟨0x4400, 1, 0x0, 0x07, 0x07, .u8, .rwp, 0x3, false, 0, some 7⟩,
  ⟨0x4400, 1, 0x0, 0x08, 0x08, .u8, .ro, 0x0, false, 0, none⟩,
  ⟨0x4400, 1, 0x0, 0x09, 0x09, .bool, .rwp, 0x0, false, 0, none⟩,
  ⟨0x4410, 1, 0x0, 0x01, 0x01, .u8, .rw, 0x0, true, 0, some 255⟩,
  ⟨0x4410, 1, 0x0, 0x02, 0x02, .domain, .rw, 0x0, true, 0, none⟩,
  ⟨0x4410, 1, 0x0, 0x03, 0x03, .u8, .wo, 0x0, true, 0, none⟩,
  ⟨0x4410, 1, 0x0, 0x04, 0x04, .u8, .ro, 0x0, true, 0, none⟩,
  ⟨0x4410, 1, 0x0, 0x05, 0x05, .u8, .ro, 0x0, true, 0, none⟩,
  ⟨0x4411, 1, 0x0, 0x01, 0x01, .u8, .rw, 0x0, true, 0, some 255⟩,
  ⟨0x4411, 1, 0x0, 0x02, 0x02, .domain, .rw, 0x0, true, 0, none⟩,
  ⟨0x4411, 1, 0x0, 0x03, 0x03, .u8, .wo, 0x0, true, 0, none⟩,
  ⟨0x4411, 1, 0x0, 0x04, 0x04, .u32, .ro, 0x0, true, 0, none⟩,
  ⟨0x4411, 1, 0x0, 0x05, 0x05, .u8, .ro, 0x0, true, 0, none⟩,
  ⟨0x4412, 1, 0x0, 0x01, 0x01, .u32, .ro, 0x0, false, 0, none⟩,
  ⟨0x4412, 1, 0x0, 0x02, 0x02, .u32, .ro, 0x0, false, 0, none⟩,
  ⟨0x4412, 1, 0x0, 0x03, 0x03, .u64, .ro, 0x0, false, 0, none⟩,
  ⟨0x4412, 1, 0x0, 0x04, 0x04, .u64, .ro, 0x0, false, 0, none⟩,
  ⟨0x1400, 1, 0x0, 0x01, 0x01, .u8, .rwp, 0x0, false, 0, some 127⟩,
  ⟨0x1400, 1, 0x0, 0x02, 0x02, .u8, .rwp, 0x80, false, 0, none⟩,
  ⟨0x1400, 1, 0x0, 0x03, 0x03, .u8, .rwp, 0x80, false, 0, none⟩]

def objRows4 : List ObjRow := [
  ⟨0x1400, 1, 0x0, 0x04, 0x04, .u64, .rwp, 0xFFFFFFFFFFFFFFFF, false, 0, none⟩,
  ⟨0x1400, 1, 0x0, 0x05, 0x05, .bool, .rwp, 0x1, false, 0, none⟩,
  ⟨0x1400, 1, 0x0, 0x06, 0x06, .u8, .ro, 0x0, false, 0, none⟩,
  ⟨0x1400, 1, 0x0, 0x07, 0x07, .i32, .ro, 0x0, false, 0, none⟩,
  ⟨0x1400, 1, 0x0, 0x08, 0x08, .u8, .ro, 0xFF, false, 0, none⟩,
  ⟨0x1400, 1, 0x0, 0x09, 0x09, .u8, .ro, 0x0, false, 0, none⟩,
  ⟨0x1400, 1, 0x0, 0x0A, 0x0A, .u32, .ro, 0x0, false, 0, none⟩,
  ⟨0x1400, 1, 0x0, 0x0B, 0x0B, .u64, .ro, 0x0, false, 0, none⟩,
  ⟨0x1400, 1, 0x0, 0x0C, 0x0C, .i32, .ro, 0x0, false, 0, none⟩,
  ⟨0x300A, 12, 0x100, 0x01, 0x01, .u32, .rws, 0xFFFFFFFF, false, 0, none⟩,
  ⟨0x300A, 12, 0x100, 0x02, 0x02, .u16, .rws, 0x0, false, 0, none⟩,
  ⟨0x300A, 12, 0x100, 0x03, 0x03, .u32, .rws, 0x0, false, 0, none⟩,
  ⟨0x300A, 12, 0x100, 0x04, 0x04, .u32, .rws, 0x0, false, 0, none⟩,
  ⟨0x300A, 12, 0x100, 0x05, 0x05, .u32, .rws, 0x0, false, 0, none⟩,
  ⟨0x300A, 12, 0x100, 0x06, 0x06, .u32, .rws, 0xFFFFFFFF, false, 0, none⟩,
  ⟨0x300A, 12, 0x100, 0x07, 0x07, .u32, .rws, 0xFFFFFFFF, false, 0, none⟩,
  ⟨0x300A, 12, 0x100, 0x08, 0x08, .u32, .rws, 0xFFFFFFFF, false, 0, none⟩,
  ⟨0x300A, 12, 0x100, 0x09, 0x09, .u32, .rws, 0xFFFFFFFF, false, 0, none⟩,
  ⟨0x300A, 12, 0x100, 0x0A, 0x0A, .u32, .rws, 0x0, false, 0, none⟩,
  ⟨0x5800, 1, 0x0, 0x01, 0x01, .u16, .rw, 0x0, true, 0, some 8191⟩,
  ⟨0x5800, 1, 0x0, 0x02, 0x02, .u8, .wo, 0x0, true, 0, none⟩,
  ⟨0x5800, 1, 0x0, 0x03, 0x03, .u8, .ro, 0x0, true, 0, none⟩,
  ⟨0x5800, 1, 0x0, 0x04, 0x04, .u64, .rw, 0x0, true, 0, none⟩,
  ⟨0x5801, 1, 0x0, 0x01, 0x01, .u32, .rw, 0x0, true, 0, some 262143⟩,
  ⟨0x5801, 1, 0x0, 0x02, 0x02, .u32, .rw, 0x1, true, 1, some 262144⟩,
  ⟨0x5801, 1, 0x0, 0x03, 0x03, .u8, .wo, 0x0, true, 0, none⟩,
  ⟨0x5801, 1, 0x0, 0x04, 0x04, .u8, .ro, 0x0, true, 0, none⟩,
  ⟨0x5801, 1, 0x0, 0x05, 0x05, .u32, .ro, 0x0, true, 0, none⟩,
  ⟨0x5802, 1, 0x0, 0x01, 0x01, .u32, .rw, 0x0, true, 0, some 65535⟩,
  ⟨0x5802, 1, 0x0, 0x02, 0x02, .u8, .wo, 0x0, true, 0, none⟩,
  ⟨0x5802, 1, 0x0, 0x03, 0x03, .u8, .ro, 0x0, true, 0, none⟩,
  ⟨0x5803, 1, 0x0, 0x01, 0x01, .u8, .rw, 0x0, true, 0, none⟩,
  ⟨0x5803, 1, 0x0, 0x02, 0x02, .u8, .wo, 0x0, true, 0, none⟩,
  ⟨0x5803, 1, 0x0, 0x03, 0x03, .u64, .rw, 0x0, true, 0, none⟩,
  ⟨0x5803, 1, 0x0, 0x04, 0x04, .u8, .ro, 0x0, true, 0, none⟩,
  ⟨0x5803, 1, 0x0, 0x05, 0x05, .u64, .ro, 0x0, false, 0, none⟩,
  ⟨0x300B, 12, 0x100, 0x01, 0x01, .u64, .ro, 0x0, false, 0, none⟩,
  ⟨0x300B, 12, 0x100, 0x02, 0x02, .u64, .ro, 0x0, false, 0, none⟩,
  ⟨0x300B, 12, 0x100, 0x03, 0x03, .u64, .ro, 0x0, false, 0, none⟩,
  ⟨0x300B, 12, 0x100, 0x04, 0x04, .u64, .ro, 0x0, false, 0, none⟩]

def objRows5 : List ObjRow := [
  ⟨0x300B, 12, 0x100, 0x05, 0x05, .u64, .ro, 0x0, false, 0, none⟩,
  ⟨0x300B, 12, 0x100, 0x06, 0x06, .u64, .ro, 0x0, false, 0, none⟩,
  ⟨0x300B, 12, 0x100, 0x07, 0x07, .u32, .ro, 0x0, false, 0, none⟩,
  ⟨0x300B, 12, 0x100, 0x08, 0x08, .u32, .ro, 0x0, false, 0, none⟩,
  ⟨0x300B, 12, 0x100, 0x09, 0x09, .u32, .ro, 0x0, false, 0, none⟩,
  ⟨0x300B, 12, 0x100, 0x0A, 0x0A, .u32, .ro, 0x0, false, 0, none⟩,
  ⟨0x300B, 12, 0x100, 0x0B, 0x0B, .u32, .ro, 0x0, false, 0, none⟩,
  ⟨0x7800, 1, 0x0, 0x01, 0x01, .u32, .rwp, 0x0, false, 0, none⟩,
  ⟨0x7800, 1, 0x0, 0x02, 0x02, .u32, .rwp, 0x64, false, 10, some 1000000⟩,
  ⟨0x7810, 12, 0x1, 0x01, 0x01, .u8, .rwp, 0xFF, false, 0, none⟩,
  ⟨0x7810, 12, 0x1, 0x02, 0x02, .u8, .rwp, 0xFF, false, 0, none⟩,
  ⟨0x7810, 12, 0x1, 0x03, 0x03, .u32, .rwp, 0x0, false, 0, none⟩,
  ⟨0x7810, 12, 0x1, 0x04, 0x04, .bool, .rwp, 0x0, false, 0, none⟩,
  ⟨0x7810, 12, 0x1, 0x05, 0x05, .bool, .ro, 0x0, false, 0, none⟩,
  ⟨0x7810, 12, 0x1, 0x06, 0x06, .u64, .rwp, 0x0, false, 0, none⟩,
  ⟨0x7810, 12, 0x1, 0x07, 0x07, .u64, .rwp, 0x0, false, 0, none⟩,
  ⟨0x7810, 12, 0x1, 0x08, 0x08, .u64, .rw, 0xFFFFFFFFFFFFFFFF, false, 0, none⟩,
  ⟨0x7810, 12, 0x1, 0x09, 0x09, .u32, .rw, 0x0, false, 1, some 100000⟩,
  ⟨0x7810, 12, 0x1, 0x0A, 0x0A, .u8, .ro, 0x0, false, 0, none⟩,
  ⟨0x7810, 12, 0x1, 0x0B, 0x0B, .u64, .ro, 0xFFFFFFFFFFFFFFFF, false, 0, none⟩,
  ⟨0x7810, 12, 0x1, 0x0C, 0x0C, .u64, .ro, 0xFFFFFFFFFFFFFFFF, false, 0, none⟩,
  ⟨0x7810, 12, 0x1, 0x0D, 0x0D, .u32, .ro, 0x0, false, 0, none⟩,
  ⟨0x7810, 12, 0x1, 0x0E, 0x0E, .u64, .ro, 0x0, false, 0, none⟩,
  ⟨0x7810, 12, 0x1, 0x0F, 0x0F, .bool, .rws, 0x0, false, 0, none⟩,
  ⟨0x7810, 12, 0x1, 0x10, 0x10, .u8, .rwp, 0xFF, false, 0, none⟩,
  ⟨0x7820, 12, 0x1, 0x01, 0x01, .u8, .ro, 0x0, false, 0, none⟩,
  ⟨0x7820, 12, 0x1, 0x02, 0x02, .u64, .ro, 0x0, false, 0, none⟩,
  ⟨0x7820, 12, 0x1, 0x03, 0x03, .u8, .ro, 0x0, false, 0, none⟩,
  ⟨0x7820, 12, 0x1, 0x04, 0x04, .u64, .ro, 0x0, false, 0, none⟩,
  ⟨0x7820, 12, 0x1, 0x05, 0x05, .bool, .ro, 0x0, false, 0, none⟩,
  ⟨0x7820, 12, 0x1, 0x06, 0x06, .u8, .rw, 0x0, false, 0, none⟩,
  ⟨0x7820, 12, 0x1, 0x07, 0x07, .u64, .rw, 0x0, false, 0, none⟩,
  ⟨0x7820, 12, 0x1, 0x08, 0x08, .u8, .rw, 0xFF, false, 0, none⟩,
  ⟨0x7820, 12, 0x1, 0x09, 0x09, .u64, .rw, 0x0, false, 0, none⟩,
  ⟨0x7820, 12, 0x1, 0x0A, 0x0A, .u64, .rw, 0x0, false, 0, none⟩,
  ⟨0x7820, 12, 0x1, 0x0B, 0x0B, .u8, .wo, 0x0, false, 0, none⟩,
  ⟨0x7820, 12, 0x1, 0x0C, 0x0C, .u8, .ro, 0x0, false, 0, none⟩,
  ⟨0x7820, 12, 0x1, 0x0D, 0x0D, .u64, .ro, 0x0, false, 0, none⟩,
  ⟨0x7820, 12, 0x1, 0x0E, 0x0E, .u8, .ro, 0x0, false, 0, none⟩,
  ⟨0x7820, 12, 0x1, 0x0F, 0x0F, .bool, .ro, 0x0, false, 0, none⟩]

def objRows6 : List ObjRow := [
  ⟨0x7830, 12, 0x1, 0x01, 0x01, .u32, .ro, 0x0, false, 0, none⟩,
  ⟨0x7830, 12, 0x1, 0x02, 0x02, .u32, .ro, 0x0, false, 0, none⟩,
  ⟨0x7830, 12, 0x1, 0x03, 0x03, .u32, .ro, 0x0, false, 0, none⟩,
  ⟨0x7830, 12, 0x1, 0x04, 0x04, .u32, .ro, 0x0, false, 0, none⟩,
  ⟨0x7830, 12, 0x1, 0x05, 0x05, .u32, .ro, 0x0, false, 0, none⟩,
  ⟨0x7830, 12, 0x1, 0x06, 0x06, .u32, .ro, 0x0, false, 0, none⟩,
  ⟨0x7830, 12, 0x1, 0x07, 0x07, .u64, .ro, 0x0, false, 0, none⟩,
  ⟨0x7830, 12, 0x1, 0x08, 0x08, .u32, .ro, 0x0, false, 0, none⟩,
  ⟨0x1000, 1, 0x0, 0x03, 0x03, .str, .ro, 0x0, false, 0, none⟩,
  ⟨0x1000, 1, 0x0, 0x04, 0x04, .u8, .ro, 0x0, false, 0, none⟩,
  ⟨0x1000, 1, 0x0, 0x05, 0x05, .u64, .ro, 0x0, false, 0, none⟩,
  ⟨0x1100, 1, 0x0, 0x01, 0x01, .domain, .rwp, 0x0, false, 0, none⟩,
  ⟨0x1100, 1, 0x0, 0x02, 0x02, .u8, .ro, 0x0, false, 0, none⟩,
  ⟨0x1100, 1, 0x0, 0x03, 0x03, .u32, .rwp, 0x12C, false, 10, some 86400⟩,
  ⟨0x1100, 1, 0x0, 0x04, 0x04, .u32, .ro, 0x0, false, 0, none⟩,
  ⟨0x1100, 1, 0x0, 0x05, 0x05, .u32, .ro, 0x0, false, 0, none⟩,
  ⟨0x1101, 1, 0x0, 0x01, 0x01, .u32, .ro, 0x0, true, 0, none⟩,
  ⟨0x1101, 1, 0x0, 0x02, 0x02, .u8, .ro, 0x0, true, 0, none⟩,
  ⟨0x1101, 1, 0x0, 0x03, 0x03, .u16, .rw, 0xFFFF, true, 0, none⟩,
  ⟨0x2000, 1, 0x0, 0x01, 0x01, .u32, .wo, 0x0, false, 0, none⟩,
  ⟨0x5000, 1, 0x0, 0x01, 0x01, .addr, .rwp, 0x0, false, 0, none⟩,
  ⟨0x5000, 1, 0x0, 0x02, 0x02, .addr, .rwp, 0x0, false, 0, none⟩,
  ⟨0x5000, 1, 0x0, 0x03, 0x03, .addr, .rwp, 0x0, false, 0, none⟩,
  ⟨0x5000, 1, 0x0, 0x04, 0x04, .addr, .rwp, 0x0, false, 0, none⟩,
  ⟨0x5000, 1, 0x0, 0x05, 0x05, .addr, .rwp, 0x0, false, 0, none⟩,
  ⟨0x5000, 1, 0x0, 0x06, 0x06, .addr, .rwp, 0x0, false, 0, none⟩,
  ⟨0x5000, 1, 0x0, 0x07, 0x07, .u8, .ro, 0x0, false, 0, none⟩,
  ⟨0x3000, 12, 0x100, 0x01, 0x01, .u8, .ro, 0x0, false, 0, none⟩,
  ⟨0x3000, 12, 0x100, 0x02, 0x02, .u64, .rws, 0x0, false, 0, none⟩,
  ⟨0x3000, 12, 0x100, 0x03, 0x03, .u64, .rws, 0x0, false, 0, none⟩,
  ⟨0x3000, 12, 0x100, 0x04, 0x04, .u64, .rws, 0x0, false, 0, none⟩,
  ⟨0x3000, 12, 0x100, 0x05, 0x05, .domain, .rws, 0x0, false, 0, none⟩,
  ⟨0x3000, 12, 0x100, 0x06, 0x06, .domain, .rws, 0x0, false, 0, none⟩,
  ⟨0x3000, 12, 0x100, 0x07, 0x07, .addr, .rws, 0x0, false, 0, none⟩,
  ⟨0x3000, 12, 0x100, 0x08, 0x08, .u8, .wo, 0x0, false, 0, none⟩,
  ⟨0x3000, 12, 0x100, 0x09, 0x09, .u8, .ro, 0x0, false, 0, none⟩,
  ⟨0x3001, 12, 0x100, 0x01, 0x01, .domain, .rwp, 0x0, false, 0, none⟩,
  ⟨0x3001, 12, 0x100, 0x02, 0x02, .domain, .rwp, 0x0, false, 0, none⟩,
  ⟨0x3001, 12, 0x100, 0x03, 0x03, .u8, .rwp, 0x0, false, 0, none⟩,
  ⟨0x3001, 12, 0x100, 0x04, 0x04, .bool, .rwp, 0x0, false, 0, none⟩]

def objRows7 : List ObjRow := [
  ⟨0x3002, 12, 0x100, 0x01, 0x01, .u8, .rw, 0x0, true, 0, none⟩,
  ⟨0x3002, 12, 0x100, 0x02, 0x02, .u8, .wo, 0x0, true, 0, none⟩,
  ⟨0x3002, 12, 0x100, 0x03, 0x03, .u8, .ro, 0x0, true, 0, none⟩,
  ⟨0x3002, 12, 0x100, 0x04, 0x04, .u64, .rw, 0x0, true, 0, none⟩,
  ⟨0x3002, 12, 0x100, 0x05, 0x05, .u8, .ro, 0x0, false, 0, none⟩,
  ⟨0x3002, 12, 0x100, 0x06, 0x06, .u8, .ro, 0xFF, false, 0, none⟩,
  ⟨0x3002, 12, 0x100, 0x07, 0x07, .u16, .ro, 0x0, false, 0, none⟩,
  ⟨0x9020, 1, 0x0, 0x01, 0x01, .u8, .rw, 0x0, true, 0, none⟩,
  ⟨0x9020, 1, 0x0, 0x02, 0x02, .u8, .wo, 0x0, false, 0, none⟩,
  ⟨0x9020, 1, 0x0, 0x03, 0x03, .u8, .ro, 0x0, false, 0, none⟩,
  ⟨0x9020, 1, 0x0, 0x04, 0x04, .u16, .ro, 0x0, false, 0, none⟩,
  ⟨0x6010, 12, 0x1, 0x01, 0x01, .u32, .rws, 0xFFFFFFFF, false, 0, none⟩,
  ⟨0x6010, 12, 0x1, 0x02, 0x02, .u8, .rw, 0x0, false, 0, none⟩,
  ⟨0x6010, 12, 0x1, 0x03, 0x03, .u32, .rw, 0x1, false, 1, some 1000000⟩,
  ⟨0x6010, 12, 0x1, 0x04, 0x04, .u8, .wo, 0x0, false, 0, none⟩,
  ⟨0x6010, 12, 0x1, 0x05, 0x05, .u8, .ro, 0x0, false, 0, none⟩,
  ⟨0x6010, 12, 0x1, 0x06, 0x06, .domain, .ro, 0x0, false, 0, none⟩,
  ⟨0x6010, 12, 0x1, 0x07, 0x07, .u64, .ro, 0x0, false, 0, none⟩,
  ⟨0x6010, 12, 0x1, 0x08, 0x08, .u64, .ro, 0x0, false, 0, none⟩,
  ⟨0x6010, 12, 0x1, 0x09, 0x09, .u32, .ro, 0x40, false, 0, none⟩,
  ⟨0x6400, 1, 0x0, 0x01, 0x01, .u8, .rw, 0x0, true, 0, none⟩,
  ⟨0x6400, 1, 0x0, 0x02, 0x02, .u16, .rw, 0x0, true, 0, none⟩,
  ⟨0x6400, 1, 0x0, 0x03, 0x03, .u8, .rw, 0x0, true, 0, none⟩,
  ⟨0x6400, 1, 0x0, 0x04, 0x04, .domain, .ro, 0x0, true, 0, none⟩,
  ⟨0x6400, 1, 0x0, 0x05, 0x05, .domain, .ro, 0x0, true, 0, none⟩,
  ⟨0x6000, 1, 0x0, 0x01, 0x0A, .u64, .ro, 0x0, false, 0, none⟩,
  ⟨0x6000, 1, 0x0, 0x0B, 0x0E, .u64, .ro, 0x0, false, 0, none⟩,
  ⟨0x6100, 12, 0x1, 0x01, 0x01, .u64, .ro, 0x0, false, 0, none⟩,
  ⟨0x6100, 12, 0x1, 0x02, 0x02, .u64, .ro, 0x0, false, 0, none⟩,
  ⟨0x6100, 12, 0x1, 0x03, 0x03, .u64, .ro, 0x0, false, 0, none⟩,
  ⟨0x6100, 12, 0x1, 0x04, 0x04, .u64, .ro, 0x0, false, 0, none⟩,
  ⟨0x6100, 12, 0x1, 0x05, 0x05, .u64, .ro, 0x0, false, 0, none⟩,
  ⟨0x6100, 12, 0x1, 0x06, 0x06, .u32, .ro, 0x0, false, 0, none⟩,
  ⟨0x6100, 12, 0x1, 0x07, 0x07, .u64, .ro, 0x0, false, 0, none⟩,
  ⟨0x6100, 12, 0x1, 0x08, 0x08, .u64, .ro, 0x0, false, 0, none⟩,
  ⟨0x6100, 12, 0x1, 0x09, 0x09, .u64, .ro, 0x0, false, 0, none⟩,
  ⟨0x6100, 12, 0x1, 0x0A, 0x0A, .u32, .ro, 0x0, false, 0, none⟩,
  ⟨0x6100, 12, 0x1, 0x0B, 0x0B, .u32, .ro, 0x0, false, 0, none⟩,
  ⟨0x6100, 12, 0x1, 0x0C, 0x0C, .u32, .ro, 0x0, false, 0, none⟩,
  ⟨0x6100, 12, 0x1, 0x0D, 0x13, .u64, .ro, 0x0, false, 0, none⟩]

def objRows8 : List ObjRow := [
  ⟨0x6200, 12, 0x1, 0x01, 0x04, .u64, .ro, 0x0, false, 0, none⟩,
  ⟨0x6200, 12, 0x1, 0x05, 0x08, .u64, .ro, 0x0, false, 0, none⟩,
  ⟨0x6200, 12, 0x1, 0x09, 0x09, .u64, .ro, 0x0, false, 0, none⟩,
  ⟨0x6200, 12, 0x1, 0x0A, 0x0A, .u64, .ro, 0x0, false, 0, none⟩,
  ⟨0x7000, 12, 0x1, 0x01, 0x01, .u64, .rw, 0x0, false, 0, none⟩,
  ⟨0x7000, 12, 0x1, 0x02, 0x02, .u8, .rw, 0x0, false, 0, none⟩,
  ⟨0x7000, 12, 0x1, 0x03, 0x03, .u8, .rw, 0xE, false, 0, none⟩,
  ⟨0x7000, 12, 0x1, 0x04, 0x04, .u8, .rw, 0x32, false, 0, some 100⟩,
  ⟨0x7000, 12, 0x1, 0x05, 0x05, .u8, .rw, 0x0, false, 0, none⟩,
  ⟨0x7000, 12, 0x1, 0x06, 0x06, .u64, .rw, 0x0, false, 0, none⟩,
  ⟨0x7000, 12, 0x1, 0x07, 0x07, .u8, .rw, 0x0, false, 0, none⟩,
  ⟨0x7000, 12, 0x1, 0x08, 0x08, .u32, .rw, 0xFFFFFFFF, false, 0, none⟩,
  ⟨0x7000, 12, 0x1, 0x09, 0x09, .u8, .wo, 0x0, false, 0, none⟩,
  ⟨0x7000, 12, 0x1, 0x0A, 0x0A, .u8, .ro, 0x0, false, 0, none⟩,
  ⟨0x7000, 12, 0x1, 0x0B, 0x0B, .u64, .ro, 0x0, false, 0, none⟩,
  ⟨0x7000, 12, 0x1, 0x0C, 0x0C, .u64, .ro, 0x0, false, 0, none⟩,
  ⟨0x7000, 12, 0x1, 0x0D, 0x0D, .u64, .ro, 0x0, false, 0, none⟩,
  ⟨0x7040, 1, 0x0, 0x01, 0x01, .u8, .rw, 0x0, true, 0, none⟩,
  ⟨0x7040, 1, 0x0, 0x02, 0x02, .domain, .ro, 0x0, true, 0, none⟩,
  ⟨0x7040, 1, 0x0, 0x03, 0x03, .u16, .ro, 0x0, true, 0, none⟩,
  ⟨0x7040, 1, 0x0, 0x04, 0x04, .u16, .ro, 0xFFFF, true, 0, none⟩,
  ⟨0x7040, 1, 0x0, 0x05, 0x05, .u64, .ro, 0x0, true, 0, none⟩,
  ⟨0x7100, 12, 0x1, 0x01, 0x01, .u8, .rw, 0x0, true, 0, some 15⟩,
  ⟨0x7100, 12, 0x1, 0x02, 0x02, .domain, .rw, 0x0, true, 0, none⟩,
  ⟨0x7100, 12, 0x1, 0x03, 0x03, .u8, .wo, 0x0, true, 0, none⟩,
  ⟨0x7100, 12, 0x1, 0x04, 0x04, .u8, .ro, 0x0, true, 0, none⟩,
  ⟨0x7100, 12, 0x1, 0x05, 0x05, .u8, .ro, 0x0, true, 0, none⟩,
  ⟨0x7100, 12, 0x1, 0x06, 0x06, .u16, .ro, 0x0, false, 0, none⟩,
  ⟨0x8000, 1, 0x0, 0x01, 0x01, .domain, .ro, 0x0, false, 0, none⟩,
  ⟨0x8000, 1, 0x0, 0x02, 0x02, .domain, .ro, 0x0, false, 0, none⟩,
  ⟨0x8000, 1, 0x0, 0x03, 0x03, .domain, .ro, 0x0, false, 0, none⟩,
  ⟨0x8000, 1, 0x0, 0x04, 0x04, .domain, .ro, 0x0, false, 0, none⟩,
  ⟨0x8001, 1, 0x0, 0x01, 0x01, .domain, .rwp, 0x0, false, 0, none⟩,
  ⟨0x8001, 1, 0x0, 0x02, 0x02, .u8, .ro, 0x0, false, 0, none⟩,
  ⟨0x8002, 1, 0x0, 0x01, 0x01, .domain, .wo, 0x0, true, 0, none⟩,
  ⟨0x8002, 1, 0x0, 0x02, 0x02, .domain, .ro, 0x0, true, 0, none⟩,
  ⟨0x8003, 1, 0x0, 0x01, 0x04, .u32, .ro, 0x0, false, 0, none⟩,
  ⟨0x8003, 1, 0x0, 0x05, 0x05, .u8, .ro, 0x0, false, 0, none⟩,
  ⟨0x8003, 1, 0x0, 0x06, 0x06, .u32, .ro, 0x0, false, 0, none⟩,
  ⟨0x9000, 1, 0x0, 0x01, 0x01, .u8, .rw, 0x1, true, 0, none⟩]

def objRows9 : List ObjRow := [
  ⟨0x9000, 1, 0x0, 0x02, 0x02, .domain, .wo, 0x0, true, 0, none⟩,
  ⟨0x9000, 1, 0x0, 0x03, 0x03, .u8, .wo, 0x0, false, 0, none⟩,
  ⟨0x9000, 1, 0x0, 0x04, 0x04, .u8, .ro, 0x0, false, 0, none⟩,
  ⟨0x9001, 1, 0x0, 0x01, 0x08, .domain, .ro, 0x0, false, 0, none⟩,
  ⟨0x9001, 1, 0x0, 0x09, 0x10, .u32, .ro, 0x0, false, 0, none⟩,
  ⟨0x9040, 1, 0x0, 0x01, 0x01, .u8, .rw, 0x0, true, 0, some 15⟩,
  ⟨0x9040, 1, 0x0, 0x02, 0x02, .u32, .rw, 0xFFFFFFFF, true, 0, none⟩,
  ⟨0x9040, 1, 0x0, 0x03, 0x03, .u64, .rw, 0x0, true, 0, none⟩,
  ⟨0x9040, 1, 0x0, 0x04, 0x04, .u8, .wo, 0x0, true, 0, none⟩,
  ⟨0x9040, 1, 0x0, 0x05, 0x05, .u8, .ro, 0x0, true, 0, none⟩,
  ⟨0x9040, 1, 0x0, 0x06, 0x06, .u64, .ro, 0x0, true, 0, none⟩,
  ⟨0x9040, 1, 0x0, 0x07, 0x07, .u64, .ro, 0x0, false, 0, none⟩,
  ⟨0x9041, 1, 0x0, 0x01, 0x10, .u8, .ro, 0x0, false, 0, none⟩,
  ⟨0x9042, 1, 0x0, 0x01, 0x10, .addr, .ro, 0x0, false, 0, none⟩,
  ⟨0x9043, 1, 0x0, 0x01, 0x10, .domain, .ro, 0x0, false, 0, none⟩,
  ⟨0x9044, 1, 0x0, 0x01, 0x10, .u32, .ro, 0x0, false, 0, none⟩,
  ⟨0x9045, 1, 0x0, 0x01, 0x10, .u8, .ro, 0x0, false, 0, none⟩,
  ⟨0x9060, 1, 0x0, 0x01, 0x01, .u64, .ro, 0x0, false, 0, none⟩,
  ⟨0x9060, 1, 0x0, 0x02, 0x02, .u64, .ro, 0x0, false, 0, none⟩,
  ⟨0x2030, 1, 0x0, 0x01, 0x01, .u32, .ro, 0x0, false, 0, none⟩,
  ⟨0x2030, 1, 0x0, 0x02, 0x02, .u32, .ro, 0x0, false, 0, none⟩,
  ⟨0x2030, 1, 0x0, 0x03, 0x03, .u16, .rwp, 0x578, false, 900, some 1400⟩,
  ⟨0x2030, 1, 0x0, 0x04, 0x04, .u8, .rwp, 0x64, false, 85, some 105⟩,
  ⟨0x2030, 1, 0x0, 0x05, 0x05, .u16, .ro, 0x0, false, 0, none⟩,
  ⟨0x2030, 1, 0x0, 0x06, 0x06, .u8, .ro, 0x0, false, 0, none⟩,
  ⟨0x2030, 1, 0x0, 0x07, 0x07, .bool, .rwp, 0x0, false, 0, none⟩,
  ⟨0x2030, 1, 0x0, 0x08, 0x08, .u8, .ro, 0x1, false, 0, none⟩,
  ⟨0x2031, 1, 0x0, 0x01, 0x04, .i32, .ro, 0x0, false, 0, none⟩,
  ⟨0x2031, 1, 0x0, 0x05, 0x05, .i32, .ro, 0x0, false, 0, none⟩,
  ⟨0x2031, 1, 0x0, 0x06, 0x06, .i32, .ro, 0x0, false, 0, none⟩,
  ⟨0x2031, 1, 0x0, 0x07, 0x07, .i32, .ro, 0x0, false, 0, none⟩,
  ⟨0x2031, 1, 0x0, 0x08, 0x08, .i32, .ro, 0x0, false, 0, none⟩]

/-- The whole dictionary. -/
def objRows : List ObjRow :=
  objRows0 ++ objRows1 ++ objRows2 ++ objRows3 ++ objRows4 ++ objRows5 ++ objRows6 ++ objRows7 ++ objRows8 ++ objRows9

/-- Whether a row holds the object at an index and subindex. -/
def ObjRow.holds (r : ObjRow) (index sub : Nat) : Bool :=
  r.lo ≤ sub && sub ≤ r.hi && r.index ≤ index &&
    (if r.count = 1 then index == r.index else (index - r.index) % r.step == 0 && (index - r.index) / r.step < r.count)

/-- The row of an object, by its key. -/
def objRow (key : Nat) : Option ObjRow := objRows.find? (fun r => r.holds (key / 256) (key % 256))

/-- The value an unwritten register object reads as: its Default column (R10; log 3 where the column is a dash). -/
def objDefault (key : Nat) : Word := match objRow key with
  | some r => BitVec.ofNat 64 r.dflt
  | none => 0

/-- The size of a value of a type in bytes; none for STR and DOMAIN. -/
def ObjType.size : ObjType → Option Nat
  | .bool => some 1
  | .u8 => some 1
  | .u16 => some 2
  | .u32 => some 4
  | .i32 => some 4
  | .f32 => some 4
  | .u64 => some 8
  | .addr => some 8
  | .str => none
  | .domain => none

/-- The highest subindex defined at an index (R454). -/
def objHighest (index : Nat) : Option Nat :=
  let rs := objRows.filter (fun r => r.holds index r.lo)
  if rs.isEmpty then none else some (rs.foldl (fun m r => Nat.max m r.hi) 0)

def Obj.ORDERING_CODE : Nat := okey 0x1000 0x01
def Obj.REFSTORE_BYTES : Nat := okey 0x1000 0x02
def Obj.TICK_EPOCH_GRAIN (p : Nat) : Nat := okey (0x3004 + p * 0x100) 0x01
def Obj.TICK_GRAINS (p : Nat) : Nat := okey (0x3004 + p * 0x100) 0x02
def Obj.CLOSE_GUARD_NS (p : Nat) : Nat := okey (0x3004 + p * 0x100) 0x03
def Obj.TICK_NUMBER (p : Nat) : Nat := okey (0x3004 + p * 0x100) 0x04
def Obj.SILENT_LIMIT (p : Nat) : Nat := okey (0x3004 + p * 0x100) 0x05
def Obj.SETTLED_TICK (p : Nat) : Nat := okey (0x3005 + p * 0x100) 0x01
def Obj.OUTCOME (p : Nat) : Nat := okey (0x3005 + p * 0x100) 0x02
def Obj.MB_BASE (p : Nat) : Nat := okey (0x3005 + p * 0x100) 0x03
def Obj.MB_DROPPED (p : Nat) : Nat := okey (0x3005 + p * 0x100) 0x04
def Obj.BUCKET_BASE (p : Nat) : Nat := okey (0x3005 + p * 0x100) 0x05
def Obj.BUCKETS_MISSING (p : Nat) : Nat := okey (0x3005 + p * 0x100) 0x06
def Obj.LATE_MODULES (p : Nat) : Nat := okey (0x3005 + p * 0x100) 0x07
def Obj.SILENT_MODULES (p : Nat) : Nat := okey (0x3005 + p * 0x100) 0x08
def Obj.LATE_UNITS (p : Nat) : Nat := okey (0x3005 + p * 0x100) 0x09
def Obj.CONTRACT_FLAGS (p : Nat) : Nat := okey (0x3005 + p * 0x100) 0x0A
def Obj.STEP_COUNTER (p : Nat) : Nat := okey (0x3005 + p * 0x100) 0x0B
def Obj.STEP_GRADIENT_COUNT (p : Nat) : Nat := okey (0x3005 + p * 0x100) 0x0C
def Obj.STEP_BUCKETS_MISSING (p : Nat) : Nat := okey (0x3005 + p * 0x100) 0x0D
def Obj.SCALE_MODE (k : Nat) : Nat := okey 0x2100 (0x01 + k)
def Obj.RECIPE_SCALE_WEIGHT : Nat := okey 0x2101 0x01
def Obj.RECIPE_SCALE_ACTIVATION : Nat := okey 0x2101 0x02
def Obj.RECIPE_SCALE_GRADIENT : Nat := okey 0x2101 0x03
def Obj.RECIPE_SCALE_STATE : Nat := okey 0x2101 0x04
def Obj.RECIPE_SCALE_KV : Nat := okey 0x2101 0x05
def Obj.HISTORY_LENGTH : Nat := okey 0x2102 0x01
def Obj.SCALE_MARGIN : Nat := okey 0x2102 0x02
def Obj.AUTO_LIMIT : Nat := okey 0x2102 0x03
def Obj.GAUGE_RATE : Nat := okey 0x2103 0x01
def Obj.GAUGE_THRESHOLD (k : Nat) : Nat := okey 0x2103 (0x02 + k)
def Obj.GAUGE_ACTION (k : Nat) : Nat := okey 0x2103 (0x07 + k)
def Obj.HIST_WARMUP (p : Nat) : Nat := okey (0x3006 + p * 0x100) 0x01
def Obj.HIST_LOST (p : Nat) : Nat := okey (0x3006 + p * 0x100) 0x02
def Obj.HIST_NONFINITE (p : Nat) : Nat := okey (0x3006 + p * 0x100) 0x03
def Obj.NOTE_OVERFLOW (p : Nat) : Nat := okey (0x3006 + p * 0x100) 0x04
def Obj.CONV_STATUS (p : Nat) : Nat := okey (0x3006 + p * 0x100) 0x05
def Obj.GAUGE_SAMPLES (p k : Nat) : Nat := okey (0x3007 + p * 0x100) (0x01 + k)
def Obj.GAUGE_ERR_SUM (p k : Nat) : Nat := okey (0x3007 + p * 0x100) (0x06 + k)
def Obj.GAUGE_ERR_MAX (p k : Nat) : Nat := okey (0x3007 + p * 0x100) (0x0B + k)
def Obj.GAUGE_ALERTS (p k : Nat) : Nat := okey (0x3007 + p * 0x100) (0x10 + k)
def Obj.GAUGE_SKIPPED (p : Nat) : Nat := okey (0x3007 + p * 0x100) 0x15
def Obj.GAUGE_NONFINITE (p : Nat) : Nat := okey (0x3007 + p * 0x100) 0x16
def Obj.WINDOW_ROW : Nat := okey 0x2300 0x01
def Obj.WINDOW_DATA : Nat := okey 0x2300 0x02
def Obj.ROWS_ENABLED : Nat := okey 0x2300 0x03
def Obj.FROZEN_STRICT (p : Nat) : Nat := okey (0x3008 + p * 0x100) 0x01
def Obj.KETTLE_BLOCKS_UPDATED (p : Nat) : Nat := okey (0x3008 + p * 0x100) 0x02
def Obj.KETTLE_FROZEN_BLOCKS (p : Nat) : Nat := okey (0x3008 + p * 0x100) 0x03
def Obj.KETTLE_MISSING_BLOCKS (p : Nat) : Nat := okey (0x3008 + p * 0x100) 0x04
def Obj.KETTLE_NONFINITE_BLOCKS (p : Nat) : Nat := okey (0x3008 + p * 0x100) 0x05
def Obj.KETTLE_SHORT_BLOCKS (p : Nat) : Nat := okey (0x3008 + p * 0x100) 0x06
def Obj.KETTLE_UNFINISHED_BLOCKS (p : Nat) : Nat := okey (0x3008 + p * 0x100) 0x07
def Obj.SWEEPS_PARTIAL (p : Nat) : Nat := okey (0x3008 + p * 0x100) 0x08
def Obj.SWEEP_ACCESS (p : Nat) : Nat := okey (0x3008 + p * 0x100) 0x09
def Obj.SCALAR_STALE (p : Nat) : Nat := okey (0x3008 + p * 0x100) 0x0A
def Obj.GDDR7_PRESENT : Nat := okey 0x2200 0x01
def Obj.DEV_STATE (k : Nat) : Nat := okey 0x2201 (0x01 + k)
def Obj.DEV_TEMP (k : Nat) : Nat := okey 0x2202 (0x01 + k)
def Obj.RETRAIN_DEVICE : Nat := okey 0x2203 0x01
def Obj.RETRAIN_STATUS : Nat := okey 0x2203 0x02
def Obj.POISON_COUNT (k : Nat) : Nat := okey 0x2204 (0x01 + k)
def Obj.CXL_STATE (p : Nat) : Nat := okey (0x2210 + p * 0x1) 0x01
def Obj.CXL_BYTES (p : Nat) : Nat := okey (0x2210 + p * 0x1) 0x02
def Obj.CXL_REMOVE (p : Nat) : Nat := okey (0x2210 + p * 0x1) 0x03
def Obj.CXL_RETRIES (p : Nat) : Nat := okey (0x2210 + p * 0x1) 0x04
def Obj.CXL_POISON_READS (p : Nat) : Nat := okey (0x2210 + p * 0x1) 0x05
def Obj.RES_INDEX : Nat := okey 0x2241 0x01
def Obj.RES_COMMAND : Nat := okey 0x2241 0x02
def Obj.RES_RESULT : Nat := okey 0x2241 0x03
def Obj.RES_LIST : Nat := okey 0x2241 0x04
def Obj.RES_LIST_REFUSED : Nat := okey 0x2241 0x05
def Obj.MIRROR_LIMIT : Nat := okey 0x2240 0x01
def Obj.LEDGER_INDEX (p : Nat) : Nat := okey (0x3009 + p * 0x100) 0x01
def Obj.LEDGER_RECORDS (p : Nat) : Nat := okey (0x3009 + p * 0x100) 0x02
def Obj.REBLOCK_ITEMS (p : Nat) : Nat := okey (0x3009 + p * 0x100) 0x03
def Obj.REBLOCK_HEADER (p : Nat) : Nat := okey (0x3009 + p * 0x100) 0x04
def Obj.BUILD_VERSION (p : Nat) : Nat := okey (0x3009 + p * 0x100) 0x05
def Obj.CRITICAL_FAULTS (p : Nat) : Nat := okey (0x3009 + p * 0x100) 0x06
def Obj.COPY_SWITCHES (p : Nat) : Nat := okey (0x3009 + p * 0x100) 0x07
def Obj.ADMIN (p : Nat) : Nat := okey (0x4000 + p * 0x10) 0x01
def Obj.PHY_TYPE (p : Nat) : Nat := okey (0x4000 + p * 0x10) 0x02
def Obj.MAX_FRAME (p : Nat) : Nat := okey (0x4000 + p * 0x10) 0x03
def Obj.SWITCH_BOUND_NS (p : Nat) : Nat := okey (0x4000 + p * 0x10) 0x04
def Obj.SETTLE_PORT (p : Nat) : Nat := okey (0x4000 + p * 0x10) 0x05
def Obj.JENJO_EN (p : Nat) : Nat := okey (0x4000 + p * 0x10) 0x06
def Obj.FILTER_MODE (p : Nat) : Nat := okey (0x4000 + p * 0x10) 0x07
def Obj.ADAPT (p : Nat) : Nat := okey (0x4000 + p * 0x10) 0x08
def Obj.MAC_ADDR (p : Nat) : Nat := okey (0x4000 + p * 0x10) 0x09
def Obj.PORT_IP (p : Nat) : Nat := okey (0x4000 + p * 0x10) 0x0A
def Obj.LPI_EN (p : Nat) : Nat := okey (0x4000 + p * 0x10) 0x0B
def Obj.WAKE_REQ_US (p : Nat) : Nat := okey (0x4000 + p * 0x10) 0x0C
def Obj.LINK_STATE (p : Nat) : Nat := okey (0x4001 + p * 0x10) 0x01
def Obj.PARTITION (p : Nat) : Nat := okey (0x4001 + p * 0x10) 0x02
def Obj.PEER_MAC (p : Nat) : Nat := okey (0x4001 + p * 0x10) 0x03
def Obj.PEER_POSITION (p : Nat) : Nat := okey (0x4001 + p * 0x10) 0x04
def Obj.PEER_PORT (p : Nat) : Nat := okey (0x4001 + p * 0x10) 0x05
def Obj.WIRING (p : Nat) : Nat := okey (0x4001 + p * 0x10) 0x06
def Obj.WAKE_US (p : Nat) : Nat := okey (0x4001 + p * 0x10) 0x07
def Obj.LPI_STATE (p : Nat) : Nat := okey (0x4001 + p * 0x10) 0x08
def Obj.PATH_DELAY_NS (p : Nat) : Nat := okey (0x4001 + p * 0x10) 0x09
def Obj.TX_FRAMES (p : Nat) : Nat := okey (0x4002 + p * 0x10) 0x01
def Obj.RX_FRAMES (p : Nat) : Nat := okey (0x4002 + p * 0x10) 0x02
def Obj.FEC_CORRECTED (p : Nat) : Nat := okey (0x4002 + p * 0x10) 0x03
def Obj.FEC_UNCORRECTABLE (p : Nat) : Nat := okey (0x4002 + p * 0x10) 0x04
def Obj.RX_FCS_ERRORS (p : Nat) : Nat := okey (0x4002 + p * 0x10) 0x05
def Obj.RX_OVERSIZE (p : Nat) : Nat := okey (0x4002 + p * 0x10) 0x06
def Obj.PAUSE_RX (p : Nat) : Nat := okey (0x4002 + p * 0x10) 0x07
def Obj.PAUSE_NS (p : Nat) : Nat := okey (0x4002 + p * 0x10) 0x08
def Obj.STALE_FRAMES (p : Nat) : Nat := okey (0x4002 + p * 0x10) 0x09
def Obj.UNEXPECTED_FRAMES (p : Nat) : Nat := okey (0x4002 + p * 0x10) 0x0A
def Obj.RETX_FRAMES (p : Nat) : Nat := okey (0x4002 + p * 0x10) 0x0B
def Obj.RELAY_FORWARDED (p : Nat) : Nat := okey (0x4002 + p * 0x10) 0x0C
def Obj.RELAY_DROPS (p : Nat) : Nat := okey (0x4002 + p * 0x10) 0x0D
def Obj.LINK_DOWNS (p : Nat) : Nat := okey (0x4002 + p * 0x10) 0x0E
def Obj.LPI_EARLY_WAKES (p : Nat) : Nat := okey (0x4002 + p * 0x10) 0x0F
def Obj.RX_DROP (p k : Nat) : Nat := okey (0x4003 + p * 0x10) (0x01 + k)
def Obj.FILTER_INDEX (p : Nat) : Nat := okey (0x2020 + p * 0x1) 0x01
def Obj.FILTER_DATA (p : Nat) : Nat := okey (0x2020 + p * 0x1) 0x02
def Obj.GROUP_HASH (p : Nat) : Nat := okey (0x2024 + p * 0x1) 0x01
def Obj.FABRIC_ETHERTYPE : Nat := okey 0x2010 0x01
def Obj.FABRIC_UDP_PORT : Nat := okey 0x2010 0x02
def Obj.ACK_TIMEOUT_NS : Nat := okey 0x2010 0x03
def Obj.FAILBACK_MS : Nat := okey 0x2010 0x04
def Obj.MESH_SIZE : Nat := okey 0x2010 0x05
def Obj.MESH_POSITION : Nat := okey 0x2010 0x06
def Obj.SETTLE_GROUP : Nat := okey 0x2010 0x07
def Obj.DISCOVERY_GROUP : Nat := okey 0x2010 0x08
def Obj.STREAM_INDEX : Nat := okey 0x4800 0x01
def Obj.STREAM_COMMAND : Nat := okey 0x4800 0x02
def Obj.STREAM_RESULT : Nat := okey 0x4800 0x03
def Obj.STREAM_IMAGE : Nat := okey 0x4800 0x04
def Obj.STREAMS_ENABLED : Nat := okey 0x4800 0x05
def Obj.STREAMS_PINNED : Nat := okey 0x4800 0x06
def Obj.HOST_ADMIN : Nat := okey 0x4400 0x01
def Obj.HOST_PHY_TYPE : Nat := okey 0x4400 0x02
def Obj.HOST_MAX_FRAME : Nat := okey 0x4400 0x03
def Obj.HOST_MAC : Nat := okey 0x4400 0x04
def Obj.HOST_IP : Nat := okey 0x4400 0x05
def Obj.PAUSE_TX : Nat := okey 0x4400 0x06
def Obj.PFC_PRIORITY : Nat := okey 0x4400 0x07
def Obj.HOST_LINK_STATE : Nat := okey 0x4400 0x08
def Obj.HOST_LPI_EN : Nat := okey 0x4400 0x09
def Obj.QP_INDEX : Nat := okey 0x4410 0x01
def Obj.QP_DATA : Nat := okey 0x4410 0x02
def Obj.QP_COMMAND : Nat := okey 0x4410 0x03
def Obj.QP_STATE : Nat := okey 0x4410 0x04
def Obj.QP_RESULT : Nat := okey 0x4410 0x05
def Obj.REGION_INDEX : Nat := okey 0x4411 0x01
def Obj.REGION_DATA : Nat := okey 0x4411 0x02
def Obj.REGION_COMMAND : Nat := okey 0x4411 0x03
def Obj.RKEY : Nat := okey 0x4411 0x04
def Obj.REGION_RESULT : Nat := okey 0x4411 0x05
def Obj.ROCE_ACCESS_ERRORS : Nat := okey 0x4412 0x01
def Obj.ROCE_RETRIES : Nat := okey 0x4412 0x02
def Obj.ROCE_CNP_SENT : Nat := okey 0x4412 0x03
def Obj.ROCE_CNP_IGNORED : Nat := okey 0x4412 0x04
def Obj.PTP_DOMAIN : Nat := okey 0x1400 0x01
def Obj.PRIORITY1 : Nat := okey 0x1400 0x02
def Obj.PRIORITY2 : Nat := okey 0x1400 0x03
def Obj.PTP_PORTS : Nat := okey 0x1400 0x04
def Obj.PTP_HOST : Nat := okey 0x1400 0x05
def Obj.TIME_STATE : Nat := okey 0x1400 0x06
def Obj.OFFSET_NS : Nat := okey 0x1400 0x07
def Obj.SLAVE_PORT : Nat := okey 0x1400 0x08
def Obj.SYNCE_STATE : Nat := okey 0x1400 0x09
def Obj.HOLDOVER_MS : Nat := okey 0x1400 0x0A
def Obj.GRAIN_NOW : Nat := okey 0x1400 0x0B
def Obj.PPS_IN_OFFSET_NS : Nat := okey 0x1400 0x0C
def Obj.KV_POOL_LIST (p : Nat) : Nat := okey (0x300A + p * 0x100) 0x01
def Obj.KV_LAYERS (p : Nat) : Nat := okey (0x300A + p * 0x100) 0x02
def Obj.PAGE_FIRST (p : Nat) : Nat := okey (0x300A + p * 0x100) 0x03
def Obj.PAGE_COUNT (p : Nat) : Nat := okey (0x300A + p * 0x100) 0x04
def Obj.PAGE_BYTES (p : Nat) : Nat := okey (0x300A + p * 0x100) 0x05
def Obj.PROMPT_POOL (p : Nat) : Nat := okey (0x300A + p * 0x100) 0x06
def Obj.OUTPUT_POOL (p : Nat) : Nat := okey (0x300A + p * 0x100) 0x07
def Obj.MASK_POOL (p : Nat) : Nat := okey (0x300A + p * 0x100) 0x08
def Obj.AUTOMATON_POOL (p : Nat) : Nat := okey (0x300A + p * 0x100) 0x09
def Obj.VOCAB (p : Nat) : Nat := okey (0x300A + p * 0x100) 0x0A
def Obj.SLOT_INDEX : Nat := okey 0x5800 0x01
def Obj.SLOT_COMMAND : Nat := okey 0x5800 0x02
def Obj.SLOT_RESULT : Nat := okey 0x5800 0x03
def Obj.CANCEL_TICK : Nat := okey 0x5800 0x04
def Obj.PAGE_INDEX : Nat := okey 0x5801 0x01
def Obj.PAGE_SPAN : Nat := okey 0x5801 0x02
def Obj.PAGE_COMMAND : Nat := okey 0x5801 0x03
def Obj.PAGE_RESULT : Nat := okey 0x5801 0x04
def Obj.PAGE_REFUSED : Nat := okey 0x5801 0x05
def Obj.PREFIX_INDEX : Nat := okey 0x5802 0x01
def Obj.PREFIX_COMMAND : Nat := okey 0x5802 0x02
def Obj.PREFIX_RESULT : Nat := okey 0x5802 0x03
def Obj.COPY_PARTITION : Nat := okey 0x5803 0x01
def Obj.COPY_COMMAND : Nat := okey 0x5803 0x02
def Obj.COPY_TICK : Nat := okey 0x5803 0x03
def Obj.COPY_RESULT : Nat := okey 0x5803 0x04
def Obj.BATCH_BOUND : Nat := okey 0x5803 0x05
def Obj.SLOTS_ACTIVATED (p : Nat) : Nat := okey (0x300B + p * 0x100) 0x01
def Obj.SLOTS_STOPPED (p : Nat) : Nat := okey (0x300B + p * 0x100) 0x02
def Obj.RECORDS_WRITTEN (p : Nat) : Nat := okey (0x300B + p * 0x100) 0x03
def Obj.STEPS_DROPPED (p : Nat) : Nat := okey (0x300B + p * 0x100) 0x04
def Obj.DRAFTS_PROPOSED (p : Nat) : Nat := okey (0x300B + p * 0x100) 0x05
def Obj.DRAFTS_ACCEPTED (p : Nat) : Nat := okey (0x300B + p * 0x100) 0x06
def Obj.TTFT_BREACHES (p : Nat) : Nat := okey (0x300B + p * 0x100) 0x07
def Obj.TBT_BREACHES (p : Nat) : Nat := okey (0x300B + p * 0x100) 0x08
def Obj.KV_PREFIX_WRITES (p : Nat) : Nat := okey (0x300B + p * 0x100) 0x09
def Obj.COPY_BOUND_WRITES (p : Nat) : Nat := okey (0x300B + p * 0x100) 0x0A
def Obj.AUTOMATON_FAULTS (p : Nat) : Nat := okey (0x300B + p * 0x100) 0x0B
def Obj.FEED_TAG : Nat := okey 0x7800 0x01
def Obj.WATCHDOG_US : Nat := okey 0x7800 0x02
def Obj.HOLDER_MODULE (p : Nat) : Nat := okey (0x7810 + p * 0x1) 0x01
def Obj.MIRROR_OF (p : Nat) : Nat := okey (0x7810 + p * 0x1) 0x02
def Obj.HOLDER_FEED (p : Nat) : Nat := okey (0x7810 + p * 0x1) 0x03
def Obj.FEED_OVERRIDE (p : Nat) : Nat := okey (0x7810 + p * 0x1) 0x04
def Obj.CO_FED (p : Nat) : Nat := okey (0x7810 + p * 0x1) 0x05
def Obj.STAGING_BASE (p : Nat) : Nat := okey (0x7810 + p * 0x1) 0x06
def Obj.STAGING_BYTES (p : Nat) : Nat := okey (0x7810 + p * 0x1) 0x07
def Obj.PRESS_STEP (p : Nat) : Nat := okey (0x7810 + p * 0x1) 0x08
def Obj.PRESS_TICKS (p : Nat) : Nat := okey (0x7810 + p * 0x1) 0x09
def Obj.PRESS_STATE (p : Nat) : Nat := okey (0x7810 + p * 0x1) 0x0A
def Obj.STAGED_STEP (p : Nat) : Nat := okey (0x7810 + p * 0x1) 0x0B
def Obj.DRAINED_STEP (p : Nat) : Nat := okey (0x7810 + p * 0x1) 0x0C
def Obj.PRESS_BOUND_US (p : Nat) : Nat := okey (0x7810 + p * 0x1) 0x0D
def Obj.DRAIN_BYTES_LEFT (p : Nat) : Nat := okey (0x7810 + p * 0x1) 0x0E
def Obj.REPLAY (p : Nat) : Nat := okey (0x7810 + p * 0x1) 0x0F
def Obj.SELF_MODULE (p : Nat) : Nat := okey (0x7810 + p * 0x1) 0x10
def Obj.RECOVERY_STATE (p : Nat) : Nat := okey (0x7820 + p * 0x1) 0x01
def Obj.STOP_TICK (p : Nat) : Nat := okey (0x7820 + p * 0x1) 0x02
def Obj.STOP_CAUSE (p : Nat) : Nat := okey (0x7820 + p * 0x1) 0x03
def Obj.LOST_MODULES (p : Nat) : Nat := okey (0x7820 + p * 0x1) 0x04
def Obj.UPDATE_STARTED (p : Nat) : Nat := okey (0x7820 + p * 0x1) 0x05
def Obj.POINT_KIND (p : Nat) : Nat := okey (0x7820 + p * 0x1) 0x06
def Obj.POINT_STEP (p : Nat) : Nat := okey (0x7820 + p * 0x1) 0x07
def Obj.TAKEOVER_INDEX (p : Nat) : Nat := okey (0x7820 + p * 0x1) 0x08
def Obj.RECOVER_TICK (p : Nat) : Nat := okey (0x7820 + p * 0x1) 0x09
def Obj.RESUME_TICK (p : Nat) : Nat := okey (0x7820 + p * 0x1) 0x0A
def Obj.RECOVER_COMMAND (p : Nat) : Nat := okey (0x7820 + p * 0x1) 0x0B
def Obj.RECOVER_RESULT (p : Nat) : Nat := okey (0x7820 + p * 0x1) 0x0C
def Obj.RESTORE_BYTES (p : Nat) : Nat := okey (0x7820 + p * 0x1) 0x0D
def Obj.RESTORE_REPORT (p : Nat) : Nat := okey (0x7820 + p * 0x1) 0x0E
def Obj.HELD_UPDATE_STARTED (p : Nat) : Nat := okey (0x7820 + p * 0x1) 0x0F
def Obj.WATCHDOG_RESETS (p : Nat) : Nat := okey (0x7830 + p * 0x1) 0x01
def Obj.COMMITTED_POISON (p : Nat) : Nat := okey (0x7830 + p * 0x1) 0x02
def Obj.RECOVERIES (p : Nat) : Nat := okey (0x7830 + p * 0x1) 0x03
def Obj.PRESS_COPIES (p : Nat) : Nat := okey (0x7830 + p * 0x1) 0x04
def Obj.PRESS_FAILED (p : Nat) : Nat := okey (0x7830 + p * 0x1) 0x05
def Obj.HASH_MISMATCHES (p : Nat) : Nat := okey (0x7830 + p * 0x1) 0x06
def Obj.THROTTLE_TICKS (p : Nat) : Nat := okey (0x7830 + p * 0x1) 0x07
def Obj.REPLAY_DIVERGED (p : Nat) : Nat := okey (0x7830 + p * 0x1) 0x08
def Obj.SERIAL : Nat := okey 0x1000 0x03
def Obj.MODULE_STATE : Nat := okey 0x1000 0x04
def Obj.BASE_MAC : Nat := okey 0x1000 0x05
def Obj.ADMIN_KEYS : Nat := okey 0x1100 0x01
def Obj.SESSIONS_OPEN : Nat := okey 0x1100 0x02
def Obj.SESSION_IDLE_S : Nat := okey 0x1100 0x03
def Obj.JENJO_AUTH_FAIL : Nat := okey 0x1100 0x04
def Obj.JENJO_MALFORMED : Nat := okey 0x1100 0x05
def Obj.MY_SESSION : Nat := okey 0x1101 0x01
def Obj.MY_ROLE : Nat := okey 0x1101 0x02
def Obj.EVENT_MASK : Nat := okey 0x1101 0x03
def Obj.FACTORY_RESET : Nat := okey 0x2000 0x01
def Obj.RES_BASE : Nat := okey 0x5000 0x01
def Obj.STREAM_BASE : Nat := okey 0x5000 0x02
def Obj.SLOT_BASE : Nat := okey 0x5000 0x03
def Obj.PAGE_BASE : Nat := okey 0x5000 0x04
def Obj.PREFIX_BASE : Nat := okey 0x5000 0x05
def Obj.COEF_BASE : Nat := okey 0x5000 0x06
def Obj.TABLES_SET : Nat := okey 0x5000 0x07
def Obj.PART_STATE (p : Nat) : Nat := okey (0x3000 + p * 0x100) 0x01
def Obj.CLUSTERS (p : Nat) : Nat := okey (0x3000 + p * 0x100) 0x02
def Obj.DEVICES (p : Nat) : Nat := okey (0x3000 + p * 0x100) 0x03
def Obj.PORTS (p : Nat) : Nat := okey (0x3000 + p * 0x100) 0x04
def Obj.CXL_RANGES (p : Nat) : Nat := okey (0x3000 + p * 0x100) 0x05
def Obj.SHARES (p : Nat) : Nat := okey (0x3000 + p * 0x100) 0x06
def Obj.JOB_TABLE_BASE (p : Nat) : Nat := okey (0x3000 + p * 0x100) 0x07
def Obj.PART_COMMAND (p : Nat) : Nat := okey (0x3000 + p * 0x100) 0x08
def Obj.PART_RESULT (p : Nat) : Nat := okey (0x3000 + p * 0x100) 0x09
def Obj.OWNER_KEYS (p : Nat) : Nat := okey (0x3001 + p * 0x100) 0x01
def Obj.USER_KEYS (p : Nat) : Nat := okey (0x3001 + p * 0x100) 0x02
def Obj.USER_GRANTS (p : Nat) : Nat := okey (0x3001 + p * 0x100) 0x03
def Obj.ALLOW_UNSIGNED (p : Nat) : Nat := okey (0x3001 + p * 0x100) 0x04
def Obj.JOB_INDEX (p : Nat) : Nat := okey (0x3002 + p * 0x100) 0x01
def Obj.JOB_COMMAND (p : Nat) : Nat := okey (0x3002 + p * 0x100) 0x02
def Obj.JOB_RESULT (p : Nat) : Nat := okey (0x3002 + p * 0x100) 0x03
def Obj.JOB_CANCEL_TICK (p : Nat) : Nat := okey (0x3002 + p * 0x100) 0x04
def Obj.CANCEL_ACK (p : Nat) : Nat := okey (0x3002 + p * 0x100) 0x05
def Obj.JOB_CURRENT (p : Nat) : Nat := okey (0x3002 + p * 0x100) 0x06
def Obj.JOBS_ACCEPTED (p : Nat) : Nat := okey (0x3002 + p * 0x100) 0x07
def Obj.ACTIVATE_TARGET : Nat := okey 0x9020 0x01
def Obj.ACTIVATE_COMMAND : Nat := okey 0x9020 0x02
def Obj.ACTIVATE_RESULT : Nat := okey 0x9020 0x03
def Obj.ACTIVE_COPIES : Nat := okey 0x9020 0x04
def Obj.COUNTER_ENTRY (p : Nat) : Nat := okey (0x6010 + p * 0x1) 0x01
def Obj.IMAGE_MODE (p : Nat) : Nat := okey (0x6010 + p * 0x1) 0x02
def Obj.IMAGE_EVERY (p : Nat) : Nat := okey (0x6010 + p * 0x1) 0x03
def Obj.COUNTER_COMMAND (p : Nat) : Nat := okey (0x6010 + p * 0x1) 0x04
def Obj.SNAPSHOT_STATE (p : Nat) : Nat := okey (0x6010 + p * 0x1) 0x05
def Obj.SNAPSHOT_IMAGE (p : Nat) : Nat := okey (0x6010 + p * 0x1) 0x06
def Obj.IMAGES_WRITTEN (p : Nat) : Nat := okey (0x6010 + p * 0x1) 0x07
def Obj.IMAGES_SKIPPED (p : Nat) : Nat := okey (0x6010 + p * 0x1) 0x08
def Obj.IMAGE_BYTES (p : Nat) : Nat := okey (0x6010 + p * 0x1) 0x09
def Obj.WIN_KIND : Nat := okey 0x6400 0x01
def Obj.WIN_NUMBER : Nat := okey 0x6400 0x02
def Obj.WIN_PARTITION : Nat := okey 0x6400 0x03
def Obj.WIN_LIVE : Nat := okey 0x6400 0x04
def Obj.WIN_TOTAL : Nat := okey 0x6400 0x05
def Obj.LINK_PARITY (k : Nat) : Nat := okey 0x6000 (0x01 + k)
def Obj.GAUGE_SKIPPED_6000 (k : Nat) : Nat := okey 0x6000 (0x0B + k)
def Obj.LATE_SLICES (p : Nat) : Nat := okey (0x6100 + p * 0x1) 0x01
def Obj.DROP_TICKS (p : Nat) : Nat := okey (0x6100 + p * 0x1) 0x02
def Obj.MB_DROPPED_6100 (p : Nat) : Nat := okey (0x6100 + p * 0x1) 0x03
def Obj.BUCKETS_MISSING_6100 (p : Nat) : Nat := okey (0x6100 + p * 0x1) 0x04
def Obj.CONTRACT_MISSES (p : Nat) : Nat := okey (0x6100 + p * 0x1) 0x05
def Obj.SETTLE_FAULTS (p : Nat) : Nat := okey (0x6100 + p * 0x1) 0x06
def Obj.SILENT_TICKS (p : Nat) : Nat := okey (0x6100 + p * 0x1) 0x07
def Obj.TICK_MISMATCH (p : Nat) : Nat := okey (0x6100 + p * 0x1) 0x08
def Obj.STALE_FRAMES_6100 (p : Nat) : Nat := okey (0x6100 + p * 0x1) 0x09
def Obj.PAIR_STALE (p : Nat) : Nat := okey (0x6100 + p * 0x1) 0x0A
def Obj.CHAIN_FAULT (p : Nat) : Nat := okey (0x6100 + p * 0x1) 0x0B
def Obj.SHARD_VERSION (p : Nat) : Nat := okey (0x6100 + p * 0x1) 0x0C
def Obj.COND_FAIL (p k : Nat) : Nat := okey (0x6100 + p * 0x1) (0x0D + k)
def Obj.STEP_SLOTS (p k : Nat) : Nat := okey (0x6200 + p * 0x1) (0x01 + k)
def Obj.TOTAL_SLOTS (p k : Nat) : Nat := okey (0x6200 + p * 0x1) (0x05 + k)
def Obj.WASTED_SPEC (p : Nat) : Nat := okey (0x6200 + p * 0x1) 0x09
def Obj.TAG_OVERFLOW (p : Nat) : Nat := okey (0x6200 + p * 0x1) 0x0A
def Obj.TRACE_CLUSTERS (p : Nat) : Nat := okey (0x7000 + p * 0x1) 0x01
def Obj.TRACE_MODE (p : Nat) : Nat := okey (0x7000 + p * 0x1) 0x02
def Obj.TRACE_SELECT (p : Nat) : Nat := okey (0x7000 + p * 0x1) 0x03
def Obj.PRE_PERCENT (p : Nat) : Nat := okey (0x7000 + p * 0x1) 0x04
def Obj.TRIGGER_KIND (p : Nat) : Nat := okey (0x7000 + p * 0x1) 0x05
def Obj.TRIGGER_ARG (p : Nat) : Nat := okey (0x7000 + p * 0x1) 0x06
def Obj.TRIGGER_SCOPE (p : Nat) : Nat := okey (0x7000 + p * 0x1) 0x07
def Obj.SPILL_ENTRY (p : Nat) : Nat := okey (0x7000 + p * 0x1) 0x08
def Obj.TRACE_COMMAND (p : Nat) : Nat := okey (0x7000 + p * 0x1) 0x09
def Obj.TRACE_STATE (p : Nat) : Nat := okey (0x7000 + p * 0x1) 0x0A
def Obj.TRIGGER_TICK (p : Nat) : Nat := okey (0x7000 + p * 0x1) 0x0B
def Obj.SPILL_WRITTEN (p : Nat) : Nat := okey (0x7000 + p * 0x1) 0x0C
def Obj.TRACE_GAPS (p : Nat) : Nat := okey (0x7000 + p * 0x1) 0x0D
def Obj.TRACE_CLUSTER : Nat := okey 0x7040 0x01
def Obj.TRACE_BUFFER : Nat := okey 0x7040 0x02
def Obj.WRITE_POINTER : Nat := okey 0x7040 0x03
def Obj.TRIGGER_POINTER : Nat := okey 0x7040 0x04
def Obj.OVERFLOW : Nat := okey 0x7040 0x05
def Obj.DUMP_INDEX (p : Nat) : Nat := okey (0x7100 + p * 0x1) 0x01
def Obj.DUMP_DATA (p : Nat) : Nat := okey (0x7100 + p * 0x1) 0x02
def Obj.DUMP_COMMAND (p : Nat) : Nat := okey (0x7100 + p * 0x1) 0x03
def Obj.DUMP_STATE (p : Nat) : Nat := okey (0x7100 + p * 0x1) 0x04
def Obj.DUMP_RESULT (p : Nat) : Nat := okey (0x7100 + p * 0x1) 0x05
def Obj.DUMPS_DONE (p : Nat) : Nat := okey (0x7100 + p * 0x1) 0x06
def Obj.IDENTITY_PUBLIC : Nat := okey 0x8000 0x01
def Obj.IDENTITY_CERT : Nat := okey 0x8000 0x02
def Obj.IDENTITY_HASH : Nat := okey 0x8000 0x03
def Obj.ROM_KEY_HASH : Nat := okey 0x8000 0x04
def Obj.PUBLISHER_KEYS : Nat := okey 0x8001 0x01
def Obj.KEYS_RESULT : Nat := okey 0x8001 0x02
def Obj.ATTEST_NONCE : Nat := okey 0x8002 0x01
def Obj.ATTEST_REPORT : Nat := okey 0x8002 0x02
def Obj.MIN_SECURITY_VERSION (k : Nat) : Nat := okey 0x8003 (0x01 + k)
def Obj.BOOT_COPY : Nat := okey 0x8003 0x05
def Obj.BOOT_FAILURES : Nat := okey 0x8003 0x06
def Obj.FW_TARGET : Nat := okey 0x9000 0x01
def Obj.FW_IMAGE : Nat := okey 0x9000 0x02
def Obj.FW_COMMAND : Nat := okey 0x9000 0x03
def Obj.FW_RESULT : Nat := okey 0x9000 0x04
def Obj.COPY_MEASURE (k : Nat) : Nat := okey 0x9001 (0x01 + k)
def Obj.COPY_SV (k : Nat) : Nat := okey 0x9001 (0x09 + k)
def Obj.REF_SLOT : Nat := okey 0x9040 0x01
def Obj.REF_FEED : Nat := okey 0x9040 0x02
def Obj.REF_BYTES : Nat := okey 0x9040 0x03
def Obj.REF_COMMAND : Nat := okey 0x9040 0x04
def Obj.REF_RESULT : Nat := okey 0x9040 0x05
def Obj.REF_PROGRESS : Nat := okey 0x9040 0x06
def Obj.REF_FREE_BYTES : Nat := okey 0x9040 0x07
def Obj.SLOT_STATE (k : Nat) : Nat := okey 0x9041 (0x01 + k)
def Obj.SLOT_BASE_9042 (k : Nat) : Nat := okey 0x9042 (0x01 + k)
def Obj.SLOT_MEASURE (k : Nat) : Nat := okey 0x9043 (0x01 + k)
def Obj.SLOT_SERIAL (k : Nat) : Nat := okey 0x9044 (0x01 + k)
def Obj.SLOT_RESULT_9045 (k : Nat) : Nat := okey 0x9045 (0x01 + k)
def Obj.REFSTORE_CORRECTED : Nat := okey 0x9060 0x01
def Obj.REFSTORE_UNCORRECTABLE : Nat := okey 0x9060 0x02
def Obj.VIN_MV : Nat := okey 0x2030 0x01
def Obj.PIN_W : Nat := okey 0x2030 0x02
def Obj.POWER_LIMIT_W : Nat := okey 0x2030 0x03
def Obj.THROTTLE_C : Nat := okey 0x2030 0x04
def Obj.THROTTLE_STATE : Nat := okey 0x2030 0x05
def Obj.LAST_SHUTDOWN : Nat := okey 0x2030 0x06
def Obj.PPS_IN_TERM : Nat := okey 0x2030 0x07
def Obj.FORM_VERSION : Nat := okey 0x2030 0x08
def Obj.QUARTER_TEMP (k : Nat) : Nat := okey 0x2031 (0x01 + k)
def Obj.HUB_TEMP : Nat := okey 0x2031 0x05
def Obj.INLET_TEMP : Nat := okey 0x2031 0x06
def Obj.EXHAUST_TEMP : Nat := okey 0x2031 0x07
def Obj.REFSTORE_TEMP : Nat := okey 0x2031 0x08

end Sys2Proof.Machine
end

