-- ==== Sys2Proof/Machine/State.lean ====
section
/-!
DEFINITION. The state of the module: everything the spec gives it, as plain data, and the state right after reset.
-/

namespace Sys2Proof.Machine
open Sys2Proof

/-- Why the machine stops with a fault. No command of the table raises one: every effect the spec gives a command is a next
state, also where the spec itself calls the outcome poisoned, late, refused or discarded. -/
inductive Fault
  /-- Raised by nobody: the module has no effect without a stated outcome. Safe. -/
  | none_
  deriving DecidableEq, Repr

/-- Why a command is refused. -/
inductive Refusal
  /-- Raised by an arm of `exec` for a command that has no meaning yet. Safe. -/
  | notModelled (mnemonic : String)
  deriving DecidableEq, Repr

/-! ## Cluster state (02, 03, 05) -/

/-- What a crown core is doing (R73 to R77). -/
inductive CoreMode
  | idle                        -- no program of a running slice
  | running
  | waiting                     -- a WAIT or a full issue queue holds it: the same instruction is tried again
  | until_ (cycle : Nat)        -- UNTIL: idles until that cycle
  | join (cycle : Nat) (pc : Nat)  -- ENDA: idles until JOIN, then continues at pc
  | stopped                     -- parity error or bad address: stays until the edge
  | done                        -- DONE executed
  deriving DecidableEq, Repr

/-- The decision of one branch point with the cycle at which its BRANCH retired (R40, R77). -/
inductive BpState
  | open_
  | taken (alt : Nat) (cycle : Nat)
  | skipped (cycle : Nat)
  deriving DecidableEq, Repr

structure LoopFrame where
  first : Nat     -- program address of the body's first word
  last : Nat      -- program address of the word after the body
  left : Nat      -- repetitions still to run after this one
  deriving DecidableEq, Repr

structure BranchFrame where
  resume : Nat    -- program address after the last alternative's ENDA
  joinAt : Nat    -- the cycle by which the alternative must have ended: retire cycle + JOIN
  overrun : Bool  -- the JOIN has been found overrun
  deriving DecidableEq, Repr

/-- A crown core (R73, R74). -/
structure Crown where
  regs : Vector Word 32
  pc : Nat
  cycle : Nat                     -- the cycle in which the next instruction begins
  mode : CoreMode
  loops : List LoopFrame          -- innermost first, at most 4
  branches : List BranchFrame     -- innermost first
  points : SMap BpState           -- by branch point number
  bankA : SMap (Word × Bool)      -- program store by word address / 8; the Bool marks bad parity
  bankB : SMap (Word × Bool)
  useB : Bool                     -- the bank in use
  lastRetire : Nat                -- instant in ns of the last retired instruction, for the watchdog (R403)
  stallFrom : Nat                 -- cycle in which the present stall began
  deriving DecidableEq, Repr

/-- An accumulator tile with its metadata (03, Tiles, flags and ownership). -/
structure Tile where
  elems : SMap (BitVec 40)        -- element (i, j) at 16 i + j
  sat : Bool
  nan : Bool
  conflict : Bool
  poison : Bool
  ref : SMap (BitVec 32)          -- the gauge unit's FP32 reference of the present accumulation (R155)
  capKind : Option Nat            -- kind logged for the accumulation, when an operand was captured (R157)
  doneAt : Nat                    -- completion cycle of the last completed operation (R76)
  deriving DecidableEq, Repr

abbrev Tile.empty : Tile := ⟨[], false, false, false, false, [], none, 0⟩

/-- A descriptor issued to an array, with the exact timing of R93. -/
structure ArrOp where
  desc : BitVec 256
  bad : Bool                      -- the descriptor was read, or is held, with a parity error (R279)
  discard : Bool                  -- R227
  tag : Nat                       -- R483
  issue : Nat
  start : Nat
  streamEnd : Nat
  complete : Nat
  result : Tile                   -- the tile value at completion, known once the operation streams
  deriving DecidableEq, Repr

/-- A fulling array: its issue queue of four and its started operations, oldest first (R92, R93). -/
structure ArrState where
  queue : List ArrOp
  flight : List ArrOp
  lastEnd : Nat
  streams : List (Nat × Nat)      -- stream start and end of every operation issued in the tick, newest first
  deriving DecidableEq, Repr

/-- A Nap descriptor issued in cycle I(n) (R169). -/
structure NapOp where
  desc : BitVec 256
  bad : Bool
  issue : Nat
  deriving DecidableEq, Repr

/-- The operation the Nap engine runs (R170): for a RUN with the image as fetched. -/
structure NapRun where
  op : NapOp
  start : Nat
  finish : Nat
  illegal : Bool
  image : List Byte
  fetched : Bool                    -- a RUN, whose image is fetched in its first cycles (R176)
  badAt : List Nat                  -- offsets of image bytes fetched with bad parity
  windows : List (Nat × Nat × Nat)  -- read windows of accumulator tiles: tile, first and last cycle (R187)
  saved : List (Nat × Nat × Tile)   -- tile number, the cycle at which it was overwritten, its value before
  deriving DecidableEq, Repr

structure Nap where
  queue : List NapOp
  run : Option NapRun
  lastEnd : Nat
  recent : List Nat               -- start cycles of the last four operations issued, newest first; 0 while unknown (R169)
  t : SMap (BitVec 32 × Bool)     -- T register r, element i at 256 r + i; the Bool is the hidden poison bit (R167)
  b : SMap (BitVec 40 × Bool)     -- B register r, element row i at 16 r + i
  z : SMap Word                   -- Z0 to Z14 as written
  deriving DecidableEq, Repr

/-- The ports through which batt memory is written (R186): bursts and other quarter engines, the Nap engine, the crown core. -/
inductive BattPort
  | burst
  | nap
  | crown
  deriving DecidableEq, Repr

/-- The batt writes of the last cycle in which one took place: port, address and the bytes as they were before that cycle. -/
structure CycleWrites where
  cycle : Nat
  spans : List (BattPort × Nat × List (Byte × Bool))
  deriving DecidableEq, Repr

abbrev CycleWrites.none : CycleWrites := ⟨0, []⟩

/-- A cluster's trace buffer of 16,384 records (R491 to R494). -/
structure TraceBuf where
  recs : SMap (BitVec 128)
  wp : Nat                        -- record written next
  filled : Nat                    -- records held
  trig : Option Nat               -- record holding TRIGGER
  overflow : Nat
  post : Option Nat               -- records still to write after the trigger
  halted : Bool                   -- the buffer is full in STOP mode, or frozen
  told : Bool                     -- TRACE_STOPPED_FULL or TRACE_FROZEN has been raised
  lost : Nat                      -- records discarded since the last GAP record
  deriving DecidableEq, Repr

abbrev TraceBuf.empty : TraceBuf := ⟨[], 0, 0, none, 0, none, false, false, 0⟩

structure Cluster where
  crown : Crown
  arrays : Vector ArrState 16
  tiles : SMap Tile               -- by 64 a + t
  nap : Nap
  batt : SMap (Byte × Bool)       -- by batt address; the Bool marks bad parity
  writes : CycleWrites            -- the batt writes of the last cycle that had one (R186, R278)
  cap : SMap (BitVec 32 × Nat)    -- captured wide value and kind by batt bit address (R153)
  gaugeBit : Bool                 -- gauge fallback of the present tick (R199)
  resetting : Bool                -- a watchdog cluster reset is in progress (R403)
  trace : TraceBuf
  deriving DecidableEq, Repr

abbrev Crown.empty : Crown :=
  ⟨Vector.replicate 32 0, 16, 0, .idle, [], [], [], [], [], false, 0, 0⟩

abbrev Cluster.empty : Cluster :=
  ⟨Crown.empty, Vector.replicate 16 ⟨[], [], 0, []⟩, [], ⟨[], none, 0, [], [], [], []⟩, [], CycleWrites.none, [], false, false,
    TraceBuf.empty⟩
/-! ## Partition state (02, 13) -/

/-- The resources a partition was built with (R466). -/
structure Resources where
  clusters : Nat                  -- bit c
  devices : Nat                   -- bit d
  ports : Nat                     -- bit p
  cxl : List (Nat × Nat × Nat)    -- port, FIRST and COUNT in units of 64 KiB
  shares : List Nat               -- 22 shares of 1/64
  jobBase : Nat
  deriving DecidableEq, Repr

/-- The tick generator (R33 to R35). -/
structure TickGen where
  on : Bool                       -- the generator is started (the partition is built)
  begun : Bool                    -- a tick is in progress
  start : Nat                     -- the grain at which the tick in progress began
  len : Nat                       -- its length in grains
  guard : Nat                     -- CLOSE_GUARD_NS in force since its edge
  tick : Nat                      -- its number
  stopping : Bool                 -- an accepted write ends it at the end of the present tick
  writeGrain : Nat                -- the grain in which the last write was accepted
  deriving DecidableEq, Repr

/-- A commit list entry. -/
structure Commit where
  index : Nat
  settle : Bool
  kind : Nat
  bit : Nat
  buffer : Nat
  deriving DecidableEq, Repr

/-- How an item of the slice stands. -/
inductive ItemState
  | waiting
  | running
  | finished
  | notTaken
  deriving DecidableEq, Repr

/-- A burst, a Reblock item, a Kettle item or a transmit slot in progress: where it stands and the data in flight (byte and poison);
`runs` lists, by offset, where data out of a port queue goes on with another version. -/
structure ItemRun where
  state : ItemState
  start : Nat                     -- position in ns at which it started
  finish : Nat                    -- the latest position at which it completes under R261, R252 or R322
  data : List (Byte × Bool)
  version : Nat                   -- the version the data carries (R221)
  aux : Nat
  runs : List (Nat × Nat)
  deriving DecidableEq, Repr

abbrev ItemRun.none : ItemRun := ⟨.waiting, 0, 0, [], 0xFFFFFFFF, 0, []⟩

/-- How the frames of a port slot stand (10): frames sent, acknowledged and expected, the highest value NAKed plus one, the
start of the last frame sent in hundredths of a ns, and the bytes accepted. A transmit slot uses `got` for the frames it has sent
at least once, and `nak` for the instant in ns at which its acknowledgement last advanced. -/
structure SlotIO where
  sent : Nat
  acked : Nat
  expect : Nat
  nak : Nat
  last : Nat
  got : Nat
  deriving DecidableEq, Repr

abbrev SlotIO.none : SlotIO := ⟨0, 0, 0, 0, 0, 0⟩

/-- The slice in progress. -/
structure SliceRun where
  job : Nat                       -- Job Table index
  number : Nat                    -- slice of the Block
  late : Nat                      -- LATE_UNITS gathered so far
  cond : Nat                      -- failed conditions, as CONTRACT_FLAGS bits 1 to 7
  guard : Bool                    -- the closing guard has begun
  nonfinite : Bool                -- KETTLE_NONFINITE has been raised in this tick (R237)
  bursts : SMap ItemRun
  slots : SMap ItemRun
  kettle : SMap ItemRun
  reblock : SMap ItemRun          -- by 65536 q + row
  io : SMap SlotIO                -- frames of the port slots
  versions : SMap Nat             -- VERSION of entries at the start of the tick, where asked for (R211)
  work : List (Nat × Nat × Bool × Nat)  -- array 16 c + a, TAG, DISCARD and stream cycles of started operations (R483)
  deriving DecidableEq, Repr

/-- A gauge sample under evaluation (R154 to R156): the tile's value, its reference, the kind and the finishing cycle. -/
structure GaugeSample where
  tile : Tile
  kind : Nat
  finish : Nat
  deriving DecidableEq, Repr

/-- A held AMAX note (R147): history entry, micro-batch identifier (0xFFFF_FFFF: none) and FP32 value. -/
structure Note where
  entry : Nat
  mb : Nat
  value : Nat
  deriving DecidableEq, Repr

/-- One module's round-1 or round-2 report as held (R57). -/
structure Heard where
  units : Nat
  mb : Nat
  buckets : Nat
  heard : Nat
  deriving DecidableEq, Repr

/-- The settlement of the last slice (R57 to R69). `mode`: 0 no job, 1 a slice, 2 a stopped or recovering job, whose round-2
frames carry HALT (R407), 3 a job suspended for a press copy (R416). -/
structure Settling where
  mode : Nat
  job : Nat
  jobId : Nat
  modules : Nat
  self : Nat
  slice : Nat
  tick : Nat
  mbBase : Nat
  bktBase : Nat
  jobMb : Nat
  jobBkt : Nat
  localMb : Nat
  localBkt : Nat
  stepEnd : Bool
  late : Nat                      -- this module's LATE_UNITS
  cond : Nat
  held : List Commit
  final : Bool                    -- the job's final slice
  r1 : SMap Heard                 -- round-1 view by module
  r2 : SMap Heard                 -- round-2 views by module
  sentR2 : Bool
  decided : Bool
  dropped : Nat
  missing : Nat
  lateM : Nat
  silent : Nat
  fault : Bool
  cause : Nat                     -- STOP_CAUSE of the fault
  haltHeard : Bool
  recorded : Bool
  critical : Bool                 -- a late slice held a CRITICAL item (R324)
  versions : SMap Nat             -- VERSION of forward entries at the start of the slice's tick (R211)
  work : List (Nat × Nat × Bool × Nat)
  counted : Nat                   -- reference cycles of the slice's tick
  note : List Note                -- notes of the slice's tick
  conv : Nat                      -- conversion status of the slice's tick
  warm : Nat                      -- HIST_WARMUP bits of the slice's tick
  step : Nat                      -- the step that the slice belongs to
  deriving DecidableEq, Repr

/-- A pending cancel of a job or a slot, with its tick (0: the next edge). -/
structure Cancel where
  index : Nat
  tick : Nat
  deriving DecidableEq, Repr

/-- A sweep slot of a Kettle unit (07): the STATE codes are 0 CLOSED, 1 OPEN, 2 FROZEN, 3 MISSING. -/
structure Sweep where
  state : Nat
  step : Nat
  progress : Nat
  blocks : Nat
  row : Nat
  w : Nat
  s1 : Nat
  s2 : Nat
  g : Nat
  group : Nat
  deriving DecidableEq, Repr

abbrev Sweep.closed : Sweep := ⟨0, 0, 0, 0, 0, 0, 0, 0, 0, 0⟩

/-- How reads see an entry that a settlement has just changed: as it was, until a position of the tick (R64, R385). -/
structure Former where
  entry : BitVec 256
  until_ : Nat
  deriving DecidableEq, Repr

/-- A capture of a dump request that is being copied (R495 to R497). -/
structure DumpCopy where
  index : Nat                     -- TENSOR
  slot : Nat
  version : Nat
  format : Nat
  step : Nat
  tick : Nat
  shape : Nat
  bytes : Nat
  from_ : Nat                     -- device address of the captured slot
  done : Nat                      -- bytes copied
  torn : Bool
  deriving DecidableEq, Repr

/-- One of a partition's 16 dump requests (14). -/
structure Dump where
  req : BitVec 512
  state : Nat
  result : Nat
  count : Nat                     -- captures copied
  due : List Nat                  -- grains at which captures fall due, oldest first
  copies : List DumpCopy          -- captures in progress, oldest first
  next : Nat                      -- offset in the target at which the next capture begins
  anyTorn : Bool
  deriving DecidableEq, Repr

abbrev Dump.idle : Dump := ⟨0, 0, 0, 0, [], [], 0, false⟩

/-- What the module keeps of an active slot beside its Slot Table entry (11). -/
structure SlotRun where
  since : Nat                     -- tick of its activation settlement
  edge : Nat                      -- edge grain of its activation settlement (R397)
  lane : Option Nat
  inputs : List Nat               -- the last emitted token and the guesses that follow it (R389)
  told : Nat                      -- the grain up to which TBT gaps have been measured
  deriving DecidableEq, Repr

/-- The binding of a batch (R399). -/
structure Binding where
  slot : Nat                      -- copy slot
  version : Nat
  deriving DecidableEq, Repr


/-- A recovery (12): the position asked for, and how far it has come. -/
structure Recover where
  kind : Nat                      -- POINT_KIND
  step : Nat                      -- POINT_STEP
  tick : Nat                      -- RECOVER_TICK
  takeover : Nat                  -- TAKEOVER_INDEX
  active : Bool                   -- the edge of RECOVER_TICK has come
  paired : Bool                   -- the partner's pairing record has been taken (R427)
  wanted : List Nat               -- entries still to be restored here
  resync : List Nat               -- mirror entries still to be resynced here
  got : SMap Nat                  -- bytes taken so far of an entry
  restored : List Nat             -- entries restored or resynced so far
  resume : Option Nat             -- RESUME_TICK of an accepted RESUME
  deriving DecidableEq, Repr

/-- The drain of a staged generation (R419). -/
structure Drain where
  gen : Nat                       -- the generation
  step : Nat
  cursor : Nat                    -- acknowledged bytes
  deriving DecidableEq, Repr

/-- A partition. -/
structure Part where
  built : Option Resources
  gen : TickGen
  slice : Option SliceRun
  settling : Option Settling
  jobs : SMap (BitVec 1024)       -- Job Table entries the module has taken up, by index
  order : List Nat                -- accepted entries that wait to start, oldest first (R471)
  accepted : SMap Nat             -- instant of each job's acceptance, by Job Table index (R31)
  cancels : List Cancel
  stopAtEdge : Bool               -- a PART_STOP waits for the edge
  abandonAtEdge : Bool            -- an ABANDON waits for the edge (R82, R408)
  stepDropped : List Nat          -- micro-batches dropped in the present step (R65)
  stepMissing : List Nat          -- bucket groups missing in the present step
  missingMap : List Nat           -- the missing-group map, set positions rising (R245)
  silentRun : SMap Nat            -- consecutive silent ticks by module (R62)
  conv : Nat                      -- conversion status raised in the tick in progress (R198)
  gaugeCount : SMap Nat           -- eligible product tiles counted since job start, by quarter (R154)
  gauge : SMap GaugeSample        -- the sample slot of each quarter
  trigger : Option (Nat × Nat)    -- the trace trigger has fired: originating cluster and cycle (R493)
  triggerDone : Bool              -- its TRIGGER records are written; later firings are ignored until ARM
  gaugeNext : Nat                 -- bit q: the gauge fallback is set for the next tick in quarter q (R157)
  notes : List Note               -- notes held in the tick in progress, oldest first (R147)
  numerics : SMap (SMap Word)     -- 0x2100 to 0x2103 as taken when a job was accepted (R144), by Job Table index
  warm : Nat                      -- HIST_WARMUP bits of the tick in progress (R151)
  fault : Nat                     -- STOP_CAUSE of a settle fault due at the settlement of the tick in progress; 0 none
  sweeps : SMap Sweep             -- sweep slots by 64 u + slot of the partition's Kettle units
  rows : SMap (BitVec 512)        -- Coefficient Table rows as snapshot by a job, by 1024 j + row (R240)
  builds : SMap Nat               -- versions recorded under (quarter, BUILD, source index) (R321)
  former : SMap Former            -- entries whose reads still see the state before a settlement
  applied : SMap Nat              -- entries with a commit of the last edge, and the position at which it is applied (R52)
  pins : SMap (List Nat)          -- entries pinned by a job, by 4 j + quarter (R293)
  streamPins : SMap (List Nat)    -- streams pinned by a job, by 4 j + quarter (R365)
  stitch : SMap (List (Nat × Nat))  -- by job: entries named by streams of its stitch programs, each with a quarter (R293)
  dumps : SMap Dump
  mirrorOut : List MirrorItem     -- write groups and sweep headers that wait for the CONTROL stream's frames (R423)
  descs : SMap (BitVec 1024)      -- generation descriptors of accepted jobs, by Job Table index
  copySet : List Nat              -- the COPY_SET entries of the running generation job
  slotRuns : SMap SlotRun         -- active slots
  slotCancels : SMap Nat          -- pending slot cancels with their tick
  lanes : SMap (BitVec 512)       -- LANE_RECORD rows as last built; unlisted: empty
  laneInputs : SMap (List Nat)    -- input tokens of a lane
  batches : SMap Binding          -- bound batches (R399)
  copyPrepared : Bool
  copySwitch : Option Nat         -- the tick whose edge applies a copy switch
  updateStarted : Bool            -- a Kettle FIRST item of the step in progress has started (R406)
  atUpdate : Bool                 -- the step in progress was resumed at an UPDATE position (R437)
  mirrorSweeps : SMap Sweep       -- sweep records of the module whose mirrors are held (R423): STATE, STEP and PROGRESS_M
  genDue : Option (List Nat × SMap Nat)  -- a step settlement of a generation job is due: the step's drops, and its slots by identifier
  genEnd : Option Nat             -- the generation job that has ended, and whose last step still settles (R82)
  genStart : Nat                  -- tick in which the present generation step began
  cursor : Option (Nat × Nat)     -- the job that ticks, and the slice that its next tick runs
  stopped : Option Nat            -- the job in STOPPED
  suspend : Nat                   -- ticks for which the job stays suspended for a press copy (R416)
  pressGen : Nat                  -- generation of the staging that a press copy writes
  pressDone : Bool                -- the press copy of the present suspension is complete
  gens : SMap Nat                 -- step of each complete staged generation, by generation
  genRows : SMap Nat              -- directory rows of each complete staged generation
  drain : Option Drain
  held : SMap Byte                -- generations held for another module, by 2^48 generation + offset (R419)
  heldSteps : SMap Nat            -- step of each complete held generation, by generation
  posRec : BitVec 512             -- the job position record (R414)
  recover : Option Recover
  tagSlots : SMap Nat             -- array slots of the step by micro-batch identifier (R484)
  stepSlots : SMap Nat            -- slots of the step by class: 0 stream cycles, 1 discarded, 2 front, 3 back
  lateTicks : Nat                 -- settled ticks of the step with LATE_MODULES nonzero
  silentTicks : Nat               -- settled ticks of the step with SILENT_MODULES nonzero
  stepSwitches : Nat              -- copy switches of the step
  buildGrain : Nat                -- grain at which the partition was built
  switchGrain : Nat               -- grain of the last bank switch
  lastSwitch : Nat                -- grain of the one before it
  imgFrom : Nat                   -- grain from which the next counter image covers
  imgBank : SMap Nat              -- closed counts since then, by `ctrKey`
  imgSnap : Bool                  -- an interval of the next image began at a snapshot
  imgDue : Option Nat             -- last tick covered by an image that is being written
  imgHold : SMap Nat              -- its counts
  imgSpan : Nat                   -- its reference cycles
  imgFlags : Nat
  snapAt : Option Nat             -- grain at which a snapshot switches the banks
  snapTick : Nat                  -- tick of the last snapshot's switch
  snapBank : SMap Nat             -- counts of the banks that the last snapshot closed
  snapSpan : Nat                  -- their reference cycles
  step : Nat                      -- steps that the ticking job has completed, at the slice in progress (R83)
  loaded : Option (Nat × Nat)     -- job and slice whose crown programs stand in the unused banks (R73)
  deriving DecidableEq, Repr

abbrev Part.empty : Part where
  built := none
  gen := ⟨false, false, 0, 0, 0, 0, false, 0⟩
  slice := none
  settling := none
  jobs := []
  order := []
  accepted := []
  cancels := []
  stopAtEdge := false
  abandonAtEdge := false
  stepDropped := []
  stepMissing := []
  missingMap := []
  silentRun := []
  conv := 0
  gaugeCount := []
  gauge := []
  trigger := none
  triggerDone := false
  gaugeNext := 0
  notes := []
  numerics := []
  warm := 0
  fault := 0
  sweeps := []
  rows := []
  builds := []
  former := []
  applied := []
  pins := []
  streamPins := []
  stitch := []
  dumps := []
  mirrorOut := []
  descs := []
  copySet := []
  slotRuns := []
  slotCancels := []
  lanes := []
  laneInputs := []
  batches := []
  copyPrepared := false
  copySwitch := none
  updateStarted := false
  atUpdate := false
  mirrorSweeps := []
  genDue := none
  genEnd := none
  genStart := 0
  cursor := none
  stopped := none
  suspend := 0
  pressGen := 0
  pressDone := false
  gens := []
  genRows := []
  drain := none
  held := []
  heldSteps := []
  posRec := 0
  recover := none
  tagSlots := []
  stepSlots := []
  lateTicks := 0
  silentTicks := 0
  stepSwitches := 0
  buildGrain := 0
  switchGrain := 0
  lastSwitch := 0
  imgFrom := 0
  imgBank := []
  imgSnap := false
  imgDue := none
  imgHold := []
  imgSpan := 0
  imgFlags := 0
  snapAt := none
  snapTick := 0
  snapBank := []
  snapSpan := 0
  step := 0
  loaded := none

/-! ## Jenjo sessions and what leaves the module (13) -/

/-- The content of a NOTIFY (13, NOTIFY payload). -/
structure Event where
  code : Nat
  part : Nat
  tick : Nat
  arg0 : Nat
  arg1 : Nat
  deriving DecidableEq, Repr

/-- An event of a session that waits for its acknowledgement (R455). -/
structure Unacked where
  seq : Nat
  event : Event
  sends : Nat
  lastSent : Nat
  deriving DecidableEq, Repr

/-- A Jenjo response (13, Message header). -/
structure Response where
  op : Nat
  session : Nat
  seq : Nat
  index : Nat
  sub : Nat
  code : Nat
  offset : Nat
  payload : List Byte
  detail : Nat
  deriving DecidableEq, Repr

structure Session where
  id : Nat
  role : Nat                      -- 1 admin, 2 owner, 3 user, 4 claim until confirmed
  part : Nat
  port : Nat                      -- the port of the OPEN: a fabric port, or 64 for the host port
  source : Nat                    -- the source address and UDP port of the OPEN
  keyHash : List Byte
  key : List Byte                 -- the session key
  nonces : List Byte              -- client nonce then module nonce
  open_ : Bool                    -- false while half-open
  openedAt : Nat
  lastMsg : Nat
  lastSeq : Nat
  lastResp : Option Response
  failures : Nat
  regs : SMap Word                -- this session's window registers (R453)
  doms : SMap (List Byte)
  upload : Option (Nat × List Byte)  -- object key and bytes of a partial WRITE_BLOCK (R454)
  queue : List Unacked
  nextSeq : Nat
  lost : Nat                      -- events discarded since the last NOTIFY_LOST
  deriving DecidableEq, Repr

/-- A RoCEv2 packet that the module sends (R372, R373), with a good ICRC. -/
inductive RoceOut
  | ack (psn : Nat)
  | nakSequence (psn : Nat)
  | nakAccess (psn : Nat)
  | readData (psn : Nat) (data : List Byte)
  | cnp
  | write (psn addr rkey : Nat) (data : List Byte)
  deriving DecidableEq, Repr

/-- A RoCEv2 queue pair (10, QP entry): its entry, its state (0 RESET, 1 READY, 2 ERROR), the next send and expected PSN, the
message in progress, and what it has sent as requester and not seen acknowledged. -/
structure Qp where
  entry : BitVec 512
  state : Nat
  sq : Nat
  rq : Nat
  addr : Nat                      -- where the message in progress goes on
  left : Nat                      -- its bytes still to come
  rkey : Nat
  tries : Nat                     -- repetitions since the last advance
  unacked : List (Nat × Nat × Nat × List Byte)  -- PSN, remote address, remote key and data, oldest first
  since : Nat                     -- instant from which the timeout of the oldest of them counts
  freeAt : Nat                    -- instant from which RATE_MBPS lets the requester send again
  deriving DecidableEq, Repr

abbrev Qp.reset : Qp := ⟨0, 0, 0, 0, 0, 0, 0, 0, [], 0, 0⟩

/-- An enabled RDMA region: its 32 B entry and its key (R373). -/
structure RdmaRegion where
  entry : BitVec 256
  rkey : Nat
  deriving DecidableEq, Repr

/-- What left the module's pins (log 6). -/
inductive Sent
  | notify (session seq : Nat) (e : Event)
  | response (r : Response)
  | status (port : Nat) (head : List Byte) (f : StatusFrame)
  | mirror (part : Nat) (x : MirrorItem)
  | frame (port : Nat) (head : List Byte) (h : FabricHeader) (payload : List Byte)
  | hello (port : Nat) (head payload : List Byte)                  -- HELLO and SLEEP, R369
  | lldp (port : Nat) (mac : Nat) (wake : Option Nat)              -- chassis address and EEE TLV (R344)
  | ptp (port kind : Nat)           -- 0 Sync, 1 Announce, 2 peer delay request, 3 peer delay response (R375)
  | pause (port : Nat) (priority : Option Nat) (on : Bool)         -- R341
  | pps                             -- a rising edge of PPS_OUT (R378)
  | roce (qp : Nat) (src dst : List Byte) (x : RoceOut)            -- with its IP addresses (R544)
  | drain (part : Nat) (x : DrainPiece)   -- a piece of a staged generation (R419)
  | restore (part : Nat) (x : RestoreItem)  -- restore and resync transfers (R427, R431)
  deriving DecidableEq, Repr

/-- A frame that waits for its port's transmitter: its class of R343, its priority (R340), its bytes on the wire, and the instant, in
hundredths of a ns, at which it became ready. -/
structure TxItem where
  cls : Nat
  prio : Nat
  wire : Nat
  ready : Nat
  sent : Sent
  deriving DecidableEq, Repr

/-- A reference image slot beside its registers (15). -/
structure RefSlot where
  range : Nat                     -- bytes of its range
  bytes : Nat                     -- length of its image
  told : Bool                     -- REFSTORE_ERROR has been raised for its image
  signer : List Byte              -- key hash of the image's signer
  deriving DecidableEq, Repr

abbrev RefSlot.empty : RefSlot := ⟨0, 0, false, []⟩

/-- A byte of a port queue: its value, whether it is poisoned, and the version of the data (R221, R360). -/
structure QByte where
  value : Byte
  bad : Bool
  version : Nat
  deriving DecidableEq, Repr

/-- An unwritten byte of a queue. -/
abbrev QByte.unwritten : QByte := ⟨0, true, 0xFFFFFFFF⟩


/-! ## Power, boot and the commands that the milliner runs (15, 16) -/

/-- The supply and the power-on sequence (R526 to R531). -/
structure Power where
  vin : Bool                      -- VIN is within its operating range
  rst : Bool                      -- RST_N is high
  armed : Bool                    -- a sequence may start: VIN was applied, or RST_N stayed low for 10 ms
  seq : Option (Nat × Nat)        -- a sequence in progress that a rail holds up: its start in ns, milestones passed
  good : Bool                     -- PWR_GOOD
  goodAt : Nat                    -- the instant at which it rose
  up : Bool                       -- the module has left reset
  deriving DecidableEq, Repr

abbrev Power.off : Power := ⟨false, false, false, none, false, 0, false⟩

/-- The values that MRAM holds for RWP objects, from a loss of power until the milliner starts and they replace the reset values
(R10). -/
structure Mram where
  regs : SMap Word
  doms : SMap (List Byte)
  filters : SMap (BitVec 128)
  deriving DecidableEq, Repr

abbrev Mram.empty : Mram := ⟨[], [], []⟩

/-- The mask ROM, the milliner and the firmware copies (R500 to R504, R476, R477, R456, R538). -/
structure Boot where
  romRecovery : Bool
  romBytes : List Byte            -- image bytes taken in ROM recovery
  milliner : Bool                 -- the milliner serves Jenjo
  nor : SMap (List Byte)          -- images written into NOR copies since manufacture, by copy 2 (type - 1) + B
  copyOk : Nat                    -- bit k: copy k verified when it was written (R476)
  svDue : Option Nat              -- instant at which a newly activated milliner copy has run for 60 s (R503)
  restarted : Option Nat          -- events lost at the last milliner restart, for sessions opened since (R456)
  keyOk : Bool                    -- the identity key could be unwrapped at boot (R505)
  shutdownDue : Bool              -- LAST_SHUTDOWN_CAUSE waits for the first admin session (R538)
  deriving DecidableEq, Repr

abbrev Boot.factory : Boot := ⟨false, [], false, [], 0xFF, none, none, true, false⟩

/-- A firmware program command in progress (R504): the copy, the code, the image and its session. -/
structure FwRun where
  copy : Nat
  code : Nat
  image : List Byte
  deriving DecidableEq, Repr

/-- A reference image LOAD in progress (R508 to R510). -/
structure RefLoad where
  slot : Nat
  feed : Nat                      -- feed entry
  bytes : Nat                     -- REF_BYTES
  next : Nat                      -- chunk taken next
  since : Nat                     -- instant of the last progress
  head : List Byte                -- bytes taken until the header and the whole hash table are there
  ready : Bool                    -- the header and the table have passed
  failed : Nat                    -- code of a failed check, 0 while none
  session : Nat                   -- session whose window shows the result
  deriving DecidableEq, Repr

/-- The throttles and the sensors that drive them (R532 to R537). -/
structure Throttle where
  samples : List Nat              -- input power of the last 100 grains, newest first
  lowFrom : Option Nat            -- instant since which the average has stayed below the limit less 50 W
  powerN : Nat                    -- n of the power throttle; 0 released
  powerStep : Nat                 -- instant of its last step
  thermalN : SMap Nat             -- n of the thermal throttle by quarter
  thermalStep : SMap Nat
  powerTold : Option Nat          -- instant of the last POWER_LIMITED
  thermalTold : Option Nat        -- instant of the last THERMAL_THROTTLE
  inletTold : Bool
  deriving DecidableEq, Repr

abbrev Throttle.none : Throttle := ⟨[], Option.none, 0, 0, [], [], Option.none, Option.none, false⟩
/-! ## The module -/

structure State where
  now : Nat                        -- the present instant in ns from the PTP epoch (log 2)
  regs : SMap Word                 -- register objects by key; unlisted reads its default
  doms : SMap (List Byte)          -- DOMAIN and STR objects by key; unlisted reads empty
  mem : List Host.Cell             -- device memory by device address; unlisted reads 0 (log 7)
  poisonLog : SMap (List Nat)      -- per GDDR7 device: addresses of logged 64 B units, oldest first (R265)
  cxlPoison : List Nat             -- addresses of CXL 64 B lines that hold poison (R273)
  badPages : List (Nat × Nat)      -- reference store pages (start and bytes) found uncorrectable (R515)
  res : SMap (BitVec 256)          -- enabled Residency entries as accepted (R292)
  resAt : SMap Nat                 -- instant of acceptance of entries that wait for the edge to be taken up (R31)
  resChanged : List Nat            -- pinned entries that have changed and wait for their write-through (R295)
  streams : SMap (BitVec 1024)     -- Stream Table entries as accepted
  streamPending : SMap (BitVec 1024)  -- accepted enables and replaces, or 0 for a disable, until the next tick edge (R364)
  streamAt : SMap Nat              -- their instants of acceptance (R31)
  slots : SMap (BitVec 1024)       -- Slot Table entries as accepted
  pages : SMap (BitVec 128)        -- KV Page Table entries as accepted
  prefixes : SMap (BitVec 256)     -- Prefix Handle Table entries as accepted
  queues : SMap (SMap QByte)       -- port queues by 2 port + direction (0 transmit, 1 receive)
  upSince : SMap Nat               -- instant at which each port last became up
  pauseEnd : SMap Nat              -- instant to which a pause holds the frames of a priority: 8 port + priority (R340)
  pauseFrom : SMap Nat             -- instant from which pauses have held a transmitter without a break, for PAUSE_NS
  hostPause : Bool                 -- the host port has paused its peer (R341)
  lpiEnd : SMap Nat                -- instant at which the low-power interval of a port ends (R345)
  filters : SMap (BitVec 128)      -- filter entries by 256 q + i that differ from their first power-up value (R348)
  goodSyncs : Nat                  -- consecutive Sync intervals within 8 ns with SyncE locked (R377)
  badSyncs : Nat                   -- consecutive Sync intervals beyond 20 ns
  holdFrom : Nat                   -- instant at which the present holdover began
  announceAt : Nat                 -- instant of the last Announce of the slave port (R377)
  ppsHigh : Nat                    -- instant to which PPS_OUT stays high (R522)
  qps : SMap Qp                    -- RoCEv2 queue pairs by entry
  regions : SMap RdmaRegion        -- enabled RDMA regions
  rkeys : Nat                      -- enables of regions so far (R373)
  histUsed : List Nat              -- history entries that a job has used, or a restore supplied, since power-up (R152)
  helloTold : Nat                  -- bit p: MESH_MISWIRED has been raised for port p
  peerCaps : SMap Nat              -- CAPS of the last HELLO of each port, plus one
  peerWake : SMap Nat              -- wake time of the peer in its LLDP, plus one
  relays : SMap (List (FrameInfo × FabricHeader × List Byte))  -- frames that wait for relay, by port (R363)
  txq : SMap (List TxItem)         -- frames that wait for the transmitter of a port, oldest first (R343)
  txFree : SMap Nat                -- instant, in hundredths of a ns, at which a transmitter is free for the next frame
  refs : SMap RefSlot              -- reference image slots
  cxlSris : Nat                    -- bit x: CXL port x linked up in SRIS mode at its last link-up (R523)
  trainTemp : SMap Word            -- temperature in °C of each device at its last training, as a 32-bit pattern (R269)
  advised : Nat                    -- bit d: GDDR7_RETRAIN_ADVISED has been raised since the last training of Gd
  clusters : Vector Cluster 48
  parts : Vector Part 12
  open_ : SMap Nat                 -- open counter banks: word by `ctrKey` (R478, R485)
  closed : SMap Nat                -- closed banks of the last switch
  totals : SMap Nat                -- running totals since the partition's build
  sessions : List Session
  draws : Nat                      -- free values drawn so far (log 8): the model's own field
  out : List Sent                  -- what left the module, newest first (log 6)
  checks : List (Nat × Nat × Nat)  -- job checks in progress, oldest first: partition, entry, session (R470)
  power : Power
  mram : Mram
  boot : Boot
  fwRun : Option FwRun
  actRun : Option (Nat × Nat)      -- an activation in progress (R476): target, and its result so far
  refLoad : Option RefLoad
  refErase : Option Nat            -- image slot whose range is being erased
  throttle : Throttle
  withheldFrom : Nat               -- instant from which the cycles that throttles withhold are still to be counted (R479, R533)
  pending : List Instr             -- the commands that wait, first in first out
  deriving DecidableEq, Repr

/-- The machine right after reset (log 4). -/
def State.reset : State where
  now := 0
  regs := []
  doms := []
  mem := []
  poisonLog := []
  cxlPoison := []
  badPages := []
  res := []
  resAt := []
  resChanged := []
  streams := []
  streamPending := []
  streamAt := []
  slots := []
  pages := []
  prefixes := []
  queues := []
  upSince := []
  pauseEnd := []
  pauseFrom := []
  hostPause := false
  lpiEnd := []
  filters := []
  goodSyncs := 0
  badSyncs := 0
  holdFrom := 0
  announceAt := 0
  ppsHigh := 0
  qps := []
  regions := []
  rkeys := 0
  histUsed := []
  helloTold := 0
  peerCaps := []
  peerWake := []
  relays := []
  txq := []
  txFree := []
  refs := []
  cxlSris := 0
  trainTemp := []
  advised := 0
  clusters := Vector.replicate 48 Cluster.empty
  parts := Vector.replicate 12 Part.empty
  open_ := []
  closed := []
  totals := []
  sessions := []
  draws := 0
  out := []
  checks := []
  power := Power.off
  mram := Mram.empty
  boot := Boot.factory
  fwRun := none
  actRun := none
  refLoad := none
  refErase := none
  throttle := Throttle.none
  withheldFrom := 0
  pending := []

end Sys2Proof.Machine
end

