-- ==== Sys2Proof/Machine/NapProgram.lean ====
section
/-!
DEFINITION. The descriptors and stitch programs of the Nap engines (05_nap_engine.md R170 to R176, R187, R194, R204, R545): fields,
streams, timing, addresses, legality and read windows.
-/

namespace Sys2Proof.Machine
open Sys2Proof

abbrev battSize : Nat := 4 * 2 ^ 20

/-! ## Descriptor, 32 B -/
namespace Nd
def opcode : Fld := fb 0x00 1
def summary : Fld := fm 0x01 3 0
def summaryRsv : Fld := fm 0x01 7 4
def iterations : Fld := fb 0x02 2
def target : Fld := fb 0x04 4
def base (k : Nat) : Fld := fb (8 + 4 * k) 4
end Nd

abbrev NDesc := BitVec 256
def napBases (d : NDesc) : List Nat := (List.range 6).map (fun k => (Nd.base k).get d)

/-! ## The program image -/

structure NStream where
  kind : Nat
  fmt : Nat
  flags : Nat
  sel : Nat
  res : Nat
  tileStride : Nat
  bandStride : Nat
  rowStride : Nat
  scaleOffset : Nat
  captureAddr : Nat
  scaleStride : Nat
  elemBase : Nat
  rowLen : Nat
  deriving DecidableEq, Repr

abbrev NStream.sr (st : NStream) : Bool := st.flags.testBit 0
abbrev NStream.satFinite (st : NStream) : Bool := st.flags.testBit 1
abbrev NStream.capture (st : NStream) : Bool := st.flags.testBit 2
abbrev NStream.column (st : NStream) : Bool := st.flags.testBit 3

structure NOp where
  op : Nat
  dst : Nat
  a : Nat
  b : Nat
  c : Nat
  imm : Nat
  deriving DecidableEq, Repr

structure NProg where
  streams : List NStream
  consts : List Nat
  ops : List NOp
  mode : Nat
  rowTiles : Nat
  tensor : Nat
  mb : Nat
  ths : List Nat
  reserved : Nat
  deriving DecidableEq, Repr

abbrev NProg.bf (x : NProg) : Bool := x.mode.testBit 0
abbrev NProg.pairDown (x : NProg) : Bool := x.mode.testBit 1
/-- Element columns of one iteration. -/
abbrev NProg.width (x : NProg) : Nat := if x.bf then 32 else 16

/-- A little-endian field of an image. -/
def imgField (bs : List Byte) (off n : Nat) : Nat := leNat ((bs.drop off).take n)

/-- The bytes of an image as its header's counts give them, each part padded to 8 B (R176). -/
def imageSize (hdr : List Byte) : Nat := 64 + 40 * imgField hdr 1 1 + alignUp (4 * imgField hdr 2 1) 8 + 8 * imgField hdr 0 1

def parseStream (bs : List Byte) : NStream :=
  ⟨imgField bs 0 1, imgField bs 1 1, imgField bs 2 1, imgField bs 3 1, imgField bs 4 4, imgField bs 8 4, imgField bs 0xC 4,
   imgField bs 0x10 4, imgField bs 0x14 4, imgField bs 0x18 4, imgField bs 0x1C 4, imgField bs 0x20 5, imgField bs 0x25 3⟩

def parseOp (w : Nat) : NOp :=
  ⟨w / 2 ^ 56 % 2 ^ 8, w / 2 ^ 50 % 2 ^ 6, w / 2 ^ 44 % 2 ^ 6, w / 2 ^ 38 % 2 ^ 6, w / 2 ^ 32 % 2 ^ 6, w % 2 ^ 32⟩

def parseProg (bs : List Byte) : NProg :=
  let ns := imgField bs 1 1
  let nc := imgField bs 2 1
  let co := 64 + 40 * ns
  let oo := co + alignUp (4 * nc) 8
  { streams := (List.range ns).map (fun k => parseStream (bs.drop (64 + 40 * k)))
    consts := (List.range nc).map (fun k => imgField bs (co + 4 * k) 4)
    ops := (List.range (imgField bs 0 1)).map (fun k => parseOp (imgField bs (oo + 8 * k) 8))
    mode := imgField bs 3 1
    rowTiles := imgField bs 4 2
    tensor := imgField bs 8 4
    mb := imgField bs 0xC 4
    ths := [imgField bs 0x10 4, imgField bs 0x14 4, imgField bs 0x18 4]
    reserved := imgField bs 6 2 + imgField bs 0x1C 36 }

/-! ## Operation costs (Operations table) and classes -/

def opElem (c : Nat) : Bool :=
  (1 ≤ c && c ≤ 0x12) || c == 0x18 || c == 0x19 || (0x20 ≤ c && c ≤ 0x24) || (0x28 ≤ c && c ≤ 0x2C)
def opBrim (c : Nat) : Bool := 0x38 ≤ c && c ≤ 0x3E
def opSum (c : Nat) : Bool := 0x48 ≤ c && c ≤ 0x4A
/-- Row operations: those of R190 to R192, and TOPK. -/
def opRow (c : Nat) : Bool := 0x38 ≤ c && c ≤ 0x40
def opDefined (c : Nat) : Bool := opElem c || c == 0x30 || opRow c || opSum c

/-- The Ops column: the operation's count against the limit of 64. -/
def opCount (c : Nat) : Nat := if c = 0x18 then 4 else if c = 0x19 then 5 else 1

/-- The stream a code 0x10 to 0x17 names. -/
def NProg.stream (x : NProg) (code : Nat) : Option NStream := if 0x10 ≤ code && code ≤ 0x17 then x.streams[code - 0x10]? else none

/-- Whether a code names a store stream. -/
def NProg.isStore (x : NProg) (code : Nat) : Bool := match x.stream code with
  | some st => st.kind == 2
  | none => false

/-- The Cycles column. -/
def NProg.opCycles (x : NProg) (o : NOp) : Nat :=
  let c := o.op
  if 0x0A ≤ c && c ≤ 0x12 then 4
  else if c = 0x18 then 10
  else if c = 0x19 then 11
  else if c = 0x30 then (match x.stream o.dst with
    | some st => if fmtBlockScaled st.fmt then 2 else 1
    | none => 1)
  else if c = 0x3D || c = 0x3E then 2
  else if c = 0x3F then 4
  else 1

/-! ## Timing (R170, R176, R187, R194, R204) -/

def NProg.has (x : NProg) (c : Nat) : Bool := x.ops.any (fun o => o.op == c)
/-- The pass count. -/
def NProg.passes (x : NProg) : Nat := if x.has 0x3F then 3 else if x.has 0x3D then 2 else 1
/-- The row-end time e. -/
def NProg.rowEnd (x : NProg) : Nat :=
  (x.ops.map (fun o => if o.op = 0x40 then 2 * (o.imm % 128) + 32 else if opRow o.op then 16 else 0)).sum
/-- Accumulator streams, in stream order. -/
def NProg.accs (x : NProg) : List Nat := (List.range x.streams.length).filter (fun k => (x.streams[k]?).any (fun st => st.kind == 3))

/-- Whether an operation reads its second and its third source. -/
def NOp.usesB (o : NOp) : Bool :=
  [0x02, 0x03, 0x04, 0x05, 0x06, 0x07, 0x0A, 0x20, 0x21, 0x22, 0x23, 0x28, 0x29, 0x2A].contains o.op || (o.op == 0x40 && o.b != 0x1F)
def NOp.usesC (o : NOp) : Bool :=
  o.op == 0x05 || o.op == 0x21 || ((o.op == 0x30 || opRow o.op || o.op == 0x48 || o.op == 0x49) && o.c != 0x1F)

/-- Whether an operation loads stream `k`, and whether a STORE stores through it in every iteration. -/
def NProg.loads (x : NProg) (k : Nat) : Bool :=
  x.ops.any (fun o => o.a == 0x10 + k || (o.usesB && o.b == 0x10 + k) || (o.usesC && o.c == 0x10 + k))
def NProg.stores (x : NProg) (k : Nat) : Bool := x.ops.any (fun o => o.op == 0x30 && o.dst == 0x10 + k)
/-- The most results that a TOPK stores in a row through stream `k` (R196). -/
def NProg.topkLen (x : NProg) (k : Nat) : Nat :=
  ((x.ops.filter (fun o => o.op == 0x40 && (o.dst == 0x10 + k || o.imm / 2 ^ 8 % 8 == k))).map (fun o => o.imm % 128)).foldl Nat.max 0

/-- Batt bytes that one iteration loads or stores through stream `k`, capture included (log 38). -/
def NProg.streamBytes (x : NProg) (k : Nat) (st : NStream) : Nat :=
  if (st.kind = 1 && x.loads k) || (st.kind = 2 && x.stores k) then
    (if st.kind = 2 && st.fmt = 0x11 then 1344 * (x.width / 16) else ceilDiv (16 * x.width * fmtBits st.fmt) 8)
      + (if fmtBlockScaled st.fmt then x.width / 2 else 0) + (if st.kind = 2 && st.capture then 64 * x.width else 0)
  else 0

/-- The iteration period p (R204). -/
def NProg.period (x : NProg) : Nat :=
  Nat.max (Nat.max ((x.ops.map x.opCycles).sum) ((x.width / 4) * x.accs.length))
    (ceilDiv (((List.range x.streams.length).zip x.streams).map (fun ks => x.streamBytes ks.1 ks.2)).sum 512)

/-- Walk position of iteration t: tile row and tile column (R174). -/
def NProg.pos (x : NProg) (t : Nat) : Nat × Nat :=
  if x.pairDown then (2 * (t / (2 * x.rowTiles)) + t % 2, t / 2 % x.rowTiles) else (t / x.rowTiles, t % x.rowTiles)

/-- The duration of a RUN (R170). -/
def NProg.duration (x : NProg) (size iters : Nat) : Nat :=
  ceilDiv size 64 + x.passes * iters * x.period + (iters / x.rowTiles) * x.rowEnd + 24

/-- The start cycle of iteration t in pass q, from start(n) (R187; the passes cover one walk row after another, R192). -/
def NProg.iterStart (x : NProg) (size t q : Nat) : Nat :=
  ceilDiv size 64 + ((t / x.rowTiles * x.passes + q) * x.rowTiles + t % x.rowTiles) * x.period

/-- The tile that an accumulator stream reads in iteration t (R175): 1,024 or more when it lies outside the range. -/
def NProg.tileOf (x : NProg) (bases : List Nat) (st : NStream) (t : Nat) : Nat :=
  let (tr, tc) := x.pos t
  let n : Int := (bases.getD st.sel 0 % 1024 : Nat) + tc * signed 32 st.tileStride + tr * signed 32 st.bandStride
  if n < 0 then 1024 else n.toNat

/-- The tiles of an accumulator operand: in BF16 lane mode two (R187; the second is left open, log 36). -/
def NProg.tilesOf (x : NProg) (bases : List Nat) (st : NStream) (t : Nat) : List Nat :=
  let n := x.tileOf bases st t
  if x.bf then [n, Config.bf16Partner n % 1024] else [n]

/-! ## Addresses (R174, R545) -/

def NProg.tileAddr (x : NProg) (bases : List Nat) (st : NStream) (t : Nat) : Nat :=
  let (tr, tc) := x.pos t
  bases.getD st.sel 0 + tc * st.tileStride + tr * st.bandStride

/-- The bit address of element (i, j) of iteration t. -/
def NProg.elemBit (x : NProg) (bases : List Nat) (st : NStream) (t i j : Nat) : Nat :=
  8 * (x.tileAddr bases st t + i * st.rowStride) + j * fmtBits st.fmt

/-- The logical element index. -/
def NProg.logical (x : NProg) (st : NStream) (t i j : Nat) : Nat :=
  let (tr, tc) := x.pos t
  st.elemBase + (16 * tr + i) * st.rowLen + x.width * tc + j

/-- The scale byte of element (i, j) of iteration t (R545). -/
def NProg.scaleAddrOf (x : NProg) (bases : List Nat) (st : NStream) (t i j : Nat) : Nat :=
  let (tr, tc) := x.pos t
  let (l, q) := if st.column then (x.width * tc + j, tr / 2) else (16 * tr + i, if x.bf then tc else tc / 2)
  bases.getD st.sel 0 + st.scaleOffset + l * st.scaleStride + q

/-- The address of the per-tensor scale or, 64 B before SCALE_OFFSET, of the BS16 bucket header. -/
def streamScale (bases : List Nat) (st : NStream) : Nat := bases.getD st.sel 0 + st.scaleOffset
def streamHeader (bases : List Nat) (st : NStream) : Nat := bases.getD st.sel 0 + st.scaleOffset - 64

/-- How far from an element of iteration t its block's padding element lies, where the block has no second half: behind the last tile
column of an odd ROW_TILES, or behind the last tile row of an odd number (R124, R183). -/
def NProg.padStep (x : NProg) (st : NStream) (iters t : Nat) : Option Nat :=
  let (_, tc) := x.pos t
  if !fmtBlockScaled st.fmt then none
  else if st.column then (if t % 2 = 0 && t + 1 = iters then some st.bandStride else none)
  else if !x.bf && tc % 2 = 0 && tc + 1 = x.rowTiles then some st.tileStride
  else none

/-- Whether column j of iteration t lies beyond the row of the tensor: padding of a row-blocked format (R124), or bits behind the last
element of a Bitmask row (R123). -/
def NProg.padded (x : NProg) (st : NStream) (t j : Nat) : Bool :=
  ((fmtBlockScaled st.fmt && !st.column) || st.fmt == 0x13) && st.rowLen != 0
    && st.rowLen ≤ st.elemBase % st.rowLen + x.width * (x.pos t).2 + j

/-- The byte after the last one that the iterations load or store through a stream. -/
def NProg.iterEnd (x : NProg) (bases : List Nat) (st : NStream) (iters : Nat) : Nat :=
  let row := ceilDiv (x.width * fmtBits st.fmt) 8
  let image := st.kind = 2 && st.fmt = 0x11
  ((List.range iters).map (fun t =>
    Nat.max (x.tileAddr bases st t + (if image then 1344 * (x.width / 16) else 15 * st.rowStride + row)
        + (if st.kind = 2 then (x.padStep st iters t).getD 0 else 0))
      (if fmtBlockScaled st.fmt then x.scaleAddrOf bases st t 15 (x.width - 1) + 1 else 0))).foldl Nat.max 0

/-- The byte after the last one that TOPK stores through a stream: `n` results in each of 16 rows, in whole blocks (R124, R196). -/
def NProg.topkEnd (x : NProg) (bases : List Nat) (st : NStream) (iters n : Nat) : Nat :=
  let len := if fmtBlockScaled st.fmt then alignUp n 32 else n
  ((List.range (iters / x.rowTiles)).map (fun r =>
    let t := r * x.rowTiles
    Nat.max (x.tileAddr bases st t + 15 * st.rowStride + ceilDiv (len * fmtBits st.fmt) 8)
      (if fmtBlockScaled st.fmt then
        bases.getD st.sel 0 + st.scaleOffset + (16 * (x.pos t).1 + 15) * st.scaleStride + ceilDiv n 32 else 0))).foldl Nat.max 0

/-- The byte after the last one that stream `k` touches over the RUN (R172). -/
def NProg.streamEnd (x : NProg) (bases : List Nat) (k : Nat) (st : NStream) (iters : Nat) : Nat :=
  let each := (st.kind == 1 && x.loads k) || (st.kind == 2 && x.stores k)
  let n := if st.kind = 2 then x.topkLen k else 0
  if !each && n = 0 then 0
  else Nat.max (Nat.max (if each then x.iterEnd bases st iters else 0) (if n = 0 then 0 else x.topkEnd bases st iters n))
    (Nat.max (if fmtPlainFP8 st.fmt then streamScale bases st + 4 else if st.fmt = 0x10 then streamScale bases st else 0)
      (if st.capture && st.kind = 2 then st.captureAddr + 64 * x.width * iters else 0))

/-! ## Legality (R172) -/

/-- The legality of one operand source. -/
def NProg.srcOk (x : NProg) (code imm : Nat) : Bool :=
  if 0x10 ≤ code && code ≤ 0x17 then (x.stream code).any (fun st => st.kind == 1 || st.kind == 3)
  else if code = 0x18 then imm % 32 < x.consts.length
  else true

def NProg.opOk (x : NProg) (o : NOp) : Bool :=
  opDefined o.op && x.srcOk o.a o.imm && x.srcOk o.b o.imm && x.srcOk o.c o.imm &&
  (if opBrim o.op then o.dst == 0x1D && o.b < 8 && !(o.op == 0x3D && o.b == 7)
   else if o.op = 0x30 then x.isStore o.dst
   else if o.op = 0x40 then
     x.isStore o.dst && x.isStore (0x10 + o.imm / 2 ^ 8 % 8) && 1 ≤ o.imm % 128 && o.imm % 128 ≤ 64
   else (o.dst < 0x10 || 0x1F ≤ o.dst) && !((o.op == 0x20 || o.op == 0x2A) && 5 < o.imm % 8))

def NProg.streamOk (x : NProg) (bases : List Nat) (iters k : Nat) (st : NStream) : Bool :=
  st.flags < 16 && st.kind ≤ 3 && st.sel ≤ 5 &&
  (st.kind == 0 ||
    (fmtDefined st.fmt && (st.res == 0xFFFFFFFF || st.res < 524288) && (!st.column || x.pairDown)
      && (fmtBlockScaled st.fmt || st.scaleStride == 0) && (st.capture || st.captureAddr == 0)
      && (if st.kind = 3 then
            st.fmt == 0x11 && st.rowStride == 0 && (List.range iters).all (fun t => x.tileOf bases st t < 1024)
          else (st.fmt != 0x10 || 64 ≤ streamScale bases st) && x.streamEnd bases k st iters ≤ battSize)))

def NProg.legal (x : NProg) (bases : List Nat) (iters : Nat) : Bool :=
  x.reserved == 0 && x.mode < 4 && 1 ≤ x.ops.length && x.ops.length ≤ 64 && x.streams.length ≤ 8 && x.consts.length ≤ 32
    && 1 ≤ x.rowTiles && x.rowTiles ≤ 8192 && x.tensor < 524288
    && x.ops.all x.opOk && (x.ops.map (fun o => opCount o.op)).sum ≤ 64 && (x.ops.filter (fun o => opSum o.op)).length ≤ 1
    && !(x.ops.any (fun o => opRow o.op) && (x.pairDown || iters % x.rowTiles != 0))
    && !(x.has 0x3D && x.has 0x3F)
    && ((List.range x.streams.length).zip x.streams).all (fun ks => x.streamOk bases iters ks.1 ks.2)

/-- The read windows of a RUN (R187): every operand of every iteration in every pass. -/
def runWindows (x : NProg) (size : Nat) (bases : List Nat) (iters start : Nat) : List (Nat × Nat × Nat) :=
  (List.range iters).flatMap (fun t => (List.range x.passes).flatMap (fun q =>
    ((List.range x.accs.length).zip x.accs).flatMap (fun uk =>
      match x.streams[uk.2]? with
      | some st =>
        let w := start + x.iterStart size t q + (x.width / 4) * uk.1
        (x.tilesOf bases st t).map (fun n => (n, w, w + x.width / 4 - 1))
      | none => [])))

/-- A RUN as its image so far makes it: its end and its read windows, or 4 cycles where it is not legal (R170, R172, R173, R176). -/
def NapRun.judged (r : NapRun) : NapRun :=
  let x := parseProg r.image
  let bases := napBases r.op.desc
  let it := Nd.iterations.get r.op.desc
  if r.badAt.isEmpty && x.legal bases it then
    { r with illegal := false, finish := r.start + x.duration r.image.length it,
             windows := runWindows x r.image.length bases it r.start }
  else { r with illegal := true, finish := r.start + 4, windows := [] }

end Sys2Proof.Machine
end

