-- ==== Sys2Proof/Machine/Ops.lean ====
section
/-!
DEFINITION. The named operations every meaning uses: registers and DOMAIN objects, partitions and clusters, counters,
marking a slice late or a condition failed, NOTIFY events, batt memory and device memory with poison.
-/

namespace Sys2Proof.Machine
open Sys2Proof

abbrev Out := Host.Outcome State Fault Refusal

/-- The outcome of a command that takes effect only where its premise holds: otherwise the module has no such event and
nothing changes (log 10). -/
def takes (premise : Bool) (s : State) (eff : State → State) : Out := if premise then .next (eff s) else .next s

/-! ## Registers -/

/-- The value of a register object. -/
def State.rg (s : State) (key : Nat) : Nat := (SMap.getD (objDefault key) s.regs key).toNat

/-- The bits a register object holds, by its type. -/
def objMask (key v : Nat) : Nat :=
  match objRow key with
  | some r => match r.ty.size with
    | some n => v % 2 ^ (8 * n)
    | none => v
  | none => v

/-- A register object set; bits beyond its type are dropped. -/
def State.setRg (s : State) (key v : Nat) : State :=
  { s with regs := SMap.put (objDefault key) s.regs key (BitVec.ofNat 64 (objMask key v)) }

/-- A counter object advanced. -/
def State.incRg (s : State) (key n : Nat) : State := s.setRg key (s.rg key + n)

/-- A DOMAIN or STR object. -/
def State.dom (s : State) (key : Nat) : List Byte := SMap.getD [] s.doms key
def State.setDom (s : State) (key : Nat) (v : List Byte) : State := { s with doms := SMap.put [] s.doms key v }

/-- Time never runs back: the instant of an event is the later of the present and its own. -/
def State.at (s : State) (t : Nat) : State := { s with now := Nat.max s.now t }

/-- The grain in progress (R32). -/
def State.grain (s : State) : Nat := s.now / 10000

/-- One fresh free value (log 8): its draw number, and the state with the draw counted. -/
def State.draw (s : State) : Nat × State := (s.draws, { s with draws := s.draws + 1 })

/-! ## Partitions and clusters -/

def State.pt (s : State) (p : Nat) : Part := (s.parts[p]?).getD Part.empty
def State.modPt (s : State) (p : Nat) (f : Part → Part) : State := { s with parts := s.parts.setIfInBounds p (f (s.pt p)) }
def State.cl (s : State) (c : Nat) : Cluster := (s.clusters[c]?).getD Cluster.empty
def State.modCl (s : State) (c : Nat) (f : Cluster → Cluster) : State :=
  { s with clusters := s.clusters.setIfInBounds c (f (s.cl c)) }

/-- The first partition whose built resources satisfy a test. -/
def State.ownerBy (s : State) (f : Resources → Bool) : Option Nat :=
  (List.range 12).find? (fun p => match (s.pt p).built with
    | some r => f r
    | none => false)

/-- The partition a cluster, device or port belongs to (R26). -/
def State.ownerOfCluster (s : State) (c : Nat) : Option Nat := s.ownerBy (fun r => r.clusters.testBit c)
def State.ownerOfDevice (s : State) (d : Nat) : Option Nat := s.ownerBy (fun r => r.devices.testBit d)
def State.ownerOfPort (s : State) (p : Nat) : Option Nat := s.ownerBy (fun r => r.ports.testBit p)

/-- The quarter of a cluster, a device or a port (R24). -/
def quarterOf12 (n : Nat) : Nat := n / 12
def quarterOfPort (p : Nat) : Nat := p / 16

/-- The physical number of the `i`-th lowest resource that a partition owns in quarter `q` (R38): `n` per quarter. -/
def logicalToPhysical (mask n q i : Nat) : Option Nat :=
  ((List.range n).map (fun k => q * n + k)).filter (fun k => mask.testBit k) |>.drop i |>.head?

/-- All resources of a mask, quarter by quarter in number order: logical numbers of a whole partition. -/
def maskList (total mask : Nat) : List Nat := bitsOf total mask

/-! ## Counters (R478) -/

/-- The place of word `w` of the record of engine (kind, number) as partition `p` sees it. -/
def ctrKey (p kind num w : Nat) : Nat := ((p * 8 + kind) * 1024 + num) * 16 + w

/-! Words of a counter record, in units of 8 B of its layout: BUSY 1, IDLE 2, STALL[k] 3 + k, EVENT[k] 10 + k. -/
abbrev wBusy : Nat := 1
abbrev wIdle : Nat := 2
abbrev wStall (k : Nat) : Nat := 3 + k
abbrev wEvent (k : Nat) : Nat := 10 + k

def State.count (s : State) (p kind num w n : Nat) : State :=
  { s with open_ := SMap.put 0 s.open_ (ctrKey p kind num w) (SMap.getD 0 s.open_ (ctrKey p kind num w) + n) }

/-- A count in a record of cluster `c` for the partition that owns it. -/
def State.countC (s : State) (c kind num w n : Nat) : State :=
  match s.ownerOfCluster c with
  | some p => s.count p kind num w n
  | none => s

/-! ## The slice in progress -/

def Part.modSlice (pt : Part) (f : SliceRun → SliceRun) : Part := { pt with slice := pt.slice.map f }

/-- Marks the slice of a partition late under a LATE_UNITS bit (R50). -/
def State.late (s : State) (p b : Nat) : State := s.modPt p (·.modSlice (fun r => { r with late := setBit r.late b }))

/-! LATE_UNITS bits (02, LATE_UNITS). -/
abbrev lateCluster (c : Nat) : Nat := c
abbrev lateMemory (q : Nat) : Nat := 48 + q
abbrev lateNetwork (q : Nat) : Nat := 52 + q
abbrev lateReblock (q : Nat) : Nat := 56 + q
abbrev lateKettle (q : Nat) : Nat := 60 + q

/-- Marks the slice of the partition that owns cluster `c` late under its bit. -/
def State.lateC (s : State) (c : Nat) : State :=
  match s.ownerOfCluster c with
  | some p => s.late p (lateCluster c)
  | none => s

/-! CONTRACT_FLAGS bits (02). -/
abbrev cfSliceLate : Nat := 0
abbrev cfLink : Nat := 1
abbrev cfThermal : Nat := 2
abbrev cfRefresh : Nat := 3
abbrev cfRetry : Nat := 4
abbrev cfTime : Nat := 5
abbrev cfMaint : Nat := 6
abbrev cfParity : Nat := 7
abbrev cfContractMiss : Nat := 8
abbrev cfSettleFault : Nat := 9

/-- A condition of the contract fails for the slice of a partition (R44, R45). -/
def State.fails (s : State) (p b : Nat) : State := s.modPt p (·.modSlice (fun r => { r with cond := setBit r.cond b }))

/-! ## NOTIFY (R455) -/

/-- Whether a session receives events of a partition (0xFF: the whole module): an admin receives every event, an owner or user
those of its partition. -/
def Session.receives (x : Session) (part : Nat) : Bool := x.open_ && (x.role == 1 || x.part == part)

/-- Whether EVENT_MASK selects an event: bit k selects codes 0x10 k to 0x10 k + 0xF. -/
def Session.selects (x : Session) (code : Nat) : Bool :=
  (SMap.getD (objDefault Obj.EVENT_MASK) x.regs Obj.EVENT_MASK).toNat.testBit (code / 16)

/-- One event queued and sent on one session: a full queue of 256 discards its oldest event, and NOTIFY_LOST with the count
precedes the next event delivered. -/
def Session.push (x : Session) (now : Nat) (e : Event) : Session × List Sent :=
  let full := x.queue.length ≥ 256
  let q := if full then x.queue.drop 1 else x.queue
  let lost := if full then x.lost + 1 else x.lost
  if full || lost = 0 then
    ({ x with queue := q ++ [⟨x.nextSeq, e, 1, now⟩], nextSeq := x.nextSeq + 1, lost := lost }, [.notify x.id x.nextSeq e])
  else
    let l : Event := ⟨0x0002, 0xFF, now / 10000, lost, 0⟩
    ({ x with queue := q ++ [⟨x.nextSeq, l, 1, now⟩, ⟨x.nextSeq + 1, e, 1, now⟩], nextSeq := x.nextSeq + 2, lost := 0 },
      [.notify x.id (x.nextSeq + 1) e, .notify x.id x.nextSeq l])

def State.emit (s : State) (x : Sent) : State := { s with out := x :: s.out }

/-- The event delivered to every session that may receive it, in session order. -/
def notifyAll (now : Nat) (e : Event) : List Session → List Session × List Sent
  | [] => ([], [])
  | x :: xs =>
    let r := notifyAll now e xs
    if x.receives e.part && x.selects e.code then
      let (y, o) := x.push now e
      (y :: r.1, r.2 ++ o)
    else (x :: r.1, r.2)

/-- An event of a partition (its TICK is the partition's tick) or, with 0xFF, of the whole module (its TICK is GRAIN_NOW). -/
def State.notify (s : State) (code part arg0 arg1 : Nat) : State :=
  let tick := if part = 0xFF then s.grain else (s.pt part).gen.tick
  let (ss, o) := notifyAll s.now ⟨code, part, tick, arg0, arg1⟩ s.sessions
  { s with sessions := ss, out := o ++ s.out }

/-! ## Batt memory (R277 to R279) -/

/-- A read of batt bytes with their parity marks. -/
def Cluster.battRead (cl : Cluster) (a n : Nat) : List (Byte × Bool) := SMap.range (0, false) cl.batt a n
/-- The bytes alone, for a reader that judges parity apart. -/
def Cluster.battBytes (cl : Cluster) (a n : Nat) : List Byte := (cl.battRead a n).map (·.1)
/-- Whether a read of batt bytes meets bad parity. -/
def Cluster.battBad (cl : Cluster) (a n : Nat) : Bool := (cl.battRead a n).any (·.2)

/-- A write of batt bytes with their parity marks; captured wide values of the bytes written are gone (R153). -/
def Cluster.battWrite (cl : Cluster) (a : Nat) (bs : List (Byte × Bool)) : Cluster :=
  { cl with batt := SMap.putList (0, false) cl.batt a bs,
            cap := cl.cap.filter (fun kv => !(8 * a ≤ kv.1 && kv.1 < 8 * (a + bs.length))) }

/-- A write of good bytes. -/
def Cluster.battStore (cl : Cluster) (a : Nat) (bs : List Byte) : Cluster := cl.battWrite a (bs.map (·, false))

/-! ## Batt writes of one cycle (R186, R278; log 100) -/

/-- Whether the value of the first port stands over that of the second: the crown core's over all, the Nap engine's over a burst's. -/
def BattPort.beats : BattPort → BattPort → Bool
  | .crown, .nap => true
  | .crown, .burst => true
  | .nap, .burst => true
  | _, _ => false

/-- The writes of a cycle so far. -/
def CycleWrites.at (w : CycleWrites) (cy : Nat) : List (BattPort × Nat × List (Byte × Bool)) := if w.cycle = cy then w.spans else []

/-- The ports that have written a byte. -/
def portsAt (w : List (BattPort × Nat × List (Byte × Bool))) (a : Nat) : List BattPort :=
  (w.filter (fun x => x.2.1 ≤ a && a < x.2.1 + x.2.2.length)).map (·.1)

/-- The cluster as a read of cycle `cy` sees it: batt memory before the writes of that cycle (R186). -/
def Cluster.before (cl : Cluster) (cy : Nat) : Cluster :=
  { cl with batt := (cl.writes.at cy).foldl (fun m x => SMap.putList (0, false) m x.2.1 x.2.2) cl.batt }

/-- The byte at `a` left as it stood in `old`, with its captured values. -/
def Cluster.keepByte (cl old : Cluster) (a : Nat) : Cluster :=
  { cl with
    batt := SMap.putList (0, false) cl.batt a (old.battRead a 1)
    cap := (old.cap.filter (fun kv => kv.1 / 8 == a)).foldl (fun m kv => SMap.ins m kv.1 kv.2) (cl.cap.filter (fun kv => kv.1 / 8 != a)) }

/-- The bytes of some ranges that another port has written in the same cycle. -/
def contested (w : List (BattPort × Nat × List (Byte × Bool))) (port : BattPort) (ranges : List (Nat × Nat)) : List Nat :=
  ((ranges.flatMap (fun r => (List.range r.2).map (r.1 + ·))).filter (fun a => (portsAt w a).any (· != port))).eraseDups

/-- A write of some ranges in cycle `cy`, `new` being the cluster as that port alone leaves it: bytes that a stronger port wrote in
the same cycle keep its value, and the second part counts the bytes that collide for the first time in the cycle. -/
def Cluster.settleWrite (old new : Cluster) (cy : Nat) (port : BattPort) (ranges : List (Nat × Nat)) : Cluster × Nat :=
  let w := old.writes.at cy
  let hit := contested w port ranges
  let new := (hit.filter (fun a => (portsAt w a).any (fun g => g.beats port))).foldl (fun c a => c.keepByte old a) new
  let log := ⟨cy, ranges.map (fun r => (port, r.1, (old.before cy).battRead r.1 r.2)) ++ w⟩
  ({ new with writes := if cy < old.writes.cycle then old.writes else log },
   (hit.filter (fun a => (portsAt w a).all (fun g => (portsAt w a).all (· == g)))).length)

/-- A RUN whose image is still being fetched, 64 B a cycle, takes what it fetches after cycle `cy` as it now stands (R176); the header
is fetched in the first cycle. -/
def Cluster.refetch (cl : Cluster) (cy : Nat) : Cluster :=
  match cl.nap.run with
  | none => cl
  | some r =>
    let k := 64 * (cy + 1 - r.start)
    if !r.fetched || cy < r.start || r.image.length ≤ k then cl
    else
      let rest := cl.battRead (Nd.target.get r.op.desc + k) (r.image.length - k)
      let bad := ((List.range rest.length).zip rest).filterMap (fun (ib : Nat × Byte × Bool) => if ib.2.2 then some (k + ib.1) else none)
      let r : NapRun := { r with image := r.image.take k ++ rest.map (·.1), badAt := r.badAt.filter (· < k) ++ bad }
      { cl with nap := { cl.nap with run := some r.judged } }

/-- The cluster that a port's writes of cycle `cy` leave, with the cluster's batt-collision counter. -/
def State.battWrites (s : State) (p c cy : Nat) (port : BattPort) (new : Cluster) (ranges : List (Nat × Nat)) : State :=
  let (cl, k) := (s.cl c).settleWrite new cy port ranges
  let s := s.modCl c (fun _ => cl.refetch cy)
  if k = 0 then s else s.count p 1 c (wEvent 2) k

/-- One range written by a port in cycle `cy`. -/
def State.battPut (s : State) (p c cy : Nat) (port : BattPort) (a : Nat) (bs : List (Byte × Bool)) : State :=
  s.battWrites p c cy port ((s.cl c).battWrite a bs) [(a, bs.length)]

/-! ## Device memory (R257 to R259, R265, R273, R280) -/

/-- A region of the device address space. -/
inductive Region
  | gddr (d : Nat)
  | cxl (x : Nat)
  | refstore
  deriving DecidableEq, Repr

abbrev gddrBase (d : Nat) : Nat := d * 2 ^ 32
abbrev cxlBase (x : Nat) : Nat := 0x1000_0000_0000 + x * 0x0200_0000_0000
abbrev refBase : Nat := 0x2000_0000_0000

/-- The capacity that CXL port `x` reports (R272): CXL_BYTES. -/
def State.cxlBytes (s : State) (x : Nat) : Nat := s.rg (Obj.CXL_BYTES x)

/-- The region of a device address; none outside every region (R257). -/
def State.region (s : State) (a : Nat) : Option Region :=
  if a < 48 * 2 ^ 32 then some (.gddr (a / 2 ^ 32))
  else if 0x1000_0000_0000 ≤ a && a < 0x2000_0000_0000 then
    let x := (a - 0x1000_0000_0000) / 0x0200_0000_0000
    if a - cxlBase x < s.cxlBytes x then some (.cxl x) else none
  else if refBase ≤ a && a < refBase + Config.refstoreBytes then some .refstore
  else none

/-- Whether `n` bytes from an address lie in one region. -/
def State.inRegion (s : State) (a n : Nat) : Bool :=
  match s.region a, s.region (a + n - 1) with
  | some r, some r' => r == r'
  | _, _ => false

/-- Device states of 0x2201. -/
abbrev devReady : Nat := 0
abbrev devTraining : Nat := 1
abbrev devSelfRefresh : Nat := 2
abbrev devHot : Nat := 3
abbrev devFailed : Nat := 4
/-- CXL port states of 0x2210. -/
abbrev cxlEmpty : Nat := 0
abbrev cxlTraining : Nat := 1
abbrev cxlUp : Nat := 2
abbrev cxlRemoving : Nat := 3
abbrev cxlFailed : Nat := 4

/-- Whether a read of the byte at an address is delivered poisoned: it lies in a logged unit, on a FAILED device, in a line
that its expander holds poisoned, behind a port that is not UP, or outside every region. -/
def State.poisonAt (s : State) (a : Nat) : Bool :=
  match s.region a with
  | some (.gddr d) => s.rg (Obj.DEV_STATE d) == devFailed || (SMap.getD [] s.poisonLog d).contains (a / 64 * 64)
  | some (.cxl x) => s.rg (Obj.CXL_STATE x) != cxlUp || s.cxlPoison.contains (a / 64 * 64)
  | some .refstore => s.badPages.any (fun r => r.1 ≤ a && a < r.1 + r.2)
  | none => true

def State.memByte (s : State) (a : Nat) : Byte := SMap.getD 0 s.mem a

/-- A read of device bytes with their poison. -/
def State.memRead (s : State) (a n : Nat) : List (Byte × Bool) :=
  (List.range n).map (fun i => (s.memByte (a + i), s.poisonAt (a + i)))
def State.memBytes (s : State) (a n : Nat) : List Byte := SMap.range 0 s.mem a n
def State.memBad (s : State) (a n : Nat) : Bool := (List.range n).any (fun i => s.poisonAt (a + i))
/-- A little-endian value in device memory. -/
def State.memLE (s : State) (a n : Nat) : Nat := leNat (s.memBytes a n)
/-- An `n`-byte record in device memory. -/
def State.memRec (s : State) (a n : Nat) : BitVec (8 * n) := BitVec.ofNat (8 * n) (s.memLE a n)

/-- Good bytes placed in device memory without regard to poison. -/
def State.memPut (s : State) (a : Nat) (bs : List Byte) : State := { s with mem := SMap.putList 0 s.mem a bs }

/-- A unit entered in a GDDR7 poison log; a 257th entry makes the device FAILED and raises GDDR7_FAILED (R265, R266). -/
def State.logPoison (s : State) (a : Nat) : State :=
  let d := a / 2 ^ 32
  let l := SMap.getD [] s.poisonLog d
  let u := a / 64 * 64
  if l.contains u then s
  else if l.length ≥ 256 then
    if s.rg (Obj.DEV_STATE d) == devFailed then s
    else
      let s := (s.setRg (Obj.DEV_STATE d) devFailed).setRg Obj.MODULE_STATE
        (if s.rg Obj.MODULE_STATE == 1 then 2 else s.rg Obj.MODULE_STATE)
      s.notify 0x0030 ((s.ownerOfDevice d).getD 0xFF) d (s.rg (Obj.DEV_TEMP d))
  else ({ s with poisonLog := SMap.put [] s.poisonLog d (l ++ [u]) } : State).setRg (Obj.POISON_COUNT d) (l.length + 1)

/-- A logged unit removed by a write that covers all its 64 B (R265). -/
def State.clearPoison (s : State) (a : Nat) : State :=
  let d := a / 2 ^ 32
  let l := SMap.getD [] s.poisonLog d
  if l.contains a then
    ({ s with poisonLog := SMap.put [] s.poisonLog d (l.filter (· != a)) } : State).setRg (Obj.POISON_COUNT d) (l.length - 1)
  else s

/-- The 64 B units an access of `n` bytes touches. -/
def unitsOf (a n : Nat) : List Nat := if n = 0 then [] else (List.range ((a + n - 1) / 64 - a / 64 + 1)).map (fun i => (a / 64 + i) * 64)

/-- The poison bookkeeping of a write into one 64 B unit: `cov` whether it covers the unit, `bad` whether data in it is
poisoned (R265, R273, R280). -/
def State.unitWritten (s : State) (u : Nat) (cov bad : Bool) : State :=
  match s.region u with
  | some (.gddr _) => if bad then s.logPoison u else if cov then s.clearPoison u else s
  | some (.cxl _) =>
    if bad then (if s.cxlPoison.contains u then s else { s with cxlPoison := u :: s.cxlPoison })
    else if cov then { s with cxlPoison := s.cxlPoison.filter (· != u) } else s
  | _ => s

/-- Whether an address may be written: it lies in GDDR7 on a device that accepts bursts, or behind an UP CXL port; the
reference store is read-only (R257, R259, R266, R275). -/
def State.writable (s : State) (a : Nat) : Bool :=
  match s.region a with
  | some (.gddr d) => s.rg (Obj.DEV_STATE d) != devFailed
  | some (.cxl x) => s.rg (Obj.CXL_STATE x) == cxlUp
  | _ => false

/-- A write of device bytes with their poison: bytes land where they may, and every 64 B unit touched takes or loses its
poison mark. -/
def State.memWrite (s : State) (a : Nat) (bs : List (Byte × Bool)) : State :=
  let s1 := { s with mem := ((List.range bs.length).zip bs).foldl (fun m ib => if s.writable (a + ib.1) then SMap.put 0 m (a + ib.1) ib.2.1 else m) s.mem }
  (unitsOf a bs.length).foldl (fun t u =>
    let inUnit := ((List.range bs.length).zip bs).filter (fun ib => (a + ib.1) / 64 * 64 == u)
    t.unitWritten u (inUnit.length == 64) (inUnit.any (·.2.2))) s1

/-! ## Bytes and poison -/

/-- The bytes of a list with one poison flag for all. -/
def poisoned (bs : List Byte) : List (Byte × Bool) := bs.map (·, true)
def goodBytes (bs : List Byte) : List (Byte × Bool) := bs.map (·, false)

end Sys2Proof.Machine
end

