-- ==== Sys2Proof/Machine/BlockImage.lean ====
section
/-!
DEFINITION. The Job Table entry (13) and the Block image (02, The Block image) as they lie in memory: every field by its
offset in the spec's layout tables, and the lists of a slice read on demand.
-/

namespace Sys2Proof.Machine
open Sys2Proof

/-! ## Job Table entry, 128 B (13) -/
namespace Job
def enable : Fld := fm 0 31 31
def refusal : Fld := fm 0 23 16
def state : Fld := fm 0 10 8
def job : Fld := fb 0x04 2
def jobModule : Fld := fb 0x06 1
def blockAddr : Fld := fb 0x08 8
def blockBytes : Fld := fb 0x10 8
def startTick : Fld := fb 0x18 8
def sliceLimit : Fld := fb 0x20 8
def jobSeed : Fld := fb 0x28 8
def slicesRun : Fld := fb 0x30 8
def firstTick : Fld := fb 0x38 8
def finalTick : Fld := fb 0x40 8
def signer : Fld := fb 0x48 1
end Job

/-! STATE of a Job Table entry. -/
abbrev jsIdle : Nat := 0
abbrev jsChecking : Nat := 1
abbrev jsAccepted : Nat := 2
abbrev jsTicking : Nat := 3
abbrev jsComplete : Nat := 4
abbrev jsCancelled : Nat := 5
abbrev jsStopped : Nat := 6
abbrev jsAbandoned : Nat := 7

def Part.job (pt : Part) (j : Nat) : BitVec 1024 := SMap.getD 0 pt.jobs j
def Part.setJob (pt : Part) (j : Nat) (e : BitVec 1024) : Part := { pt with jobs := SMap.put 0 pt.jobs j e }
/-- One field of a job's entry set. -/
def Part.setJobFld (pt : Part) (j : Nat) (f : Fld) (v : Nat) : Part := pt.setJob j (f.set (pt.job j) v)

def State.jobAddr (s : State) (p j : Nat) : Nat := s.rg (Obj.JOB_TABLE_BASE p) + 128 * j
/-- A job's entry as the module holds it, written to its memory image at once (log 46). -/
def State.putJob (s : State) (p j : Nat) (e : BitVec 1024) : State :=
  (s.modPt p (·.setJob j e)).memPut (s.jobAddr p j) (leBytes 128 e.toNat)
def State.setJobF (s : State) (p j : Nat) (f : Fld) (v : Nat) : State := s.putJob p j (f.set ((s.pt p).job j) v)
def State.jobState (s : State) (p j : Nat) : Nat := Job.state.get ((s.pt p).job j)

/-! ## Block header (02) -/

/-- The device address of a Block's payload: the image's address plus PAYLOAD_OFFSET (15, Pyleora header). -/
def State.payloadOf (s : State) (imageAddr : Nat) : Nat := imageAddr + s.memLE (imageAddr + 0x014) 4

/-- The payload of the Block that a job of a partition runs. -/
def State.blockOf (s : State) (p j : Nat) : Nat := s.payloadOf (Job.blockAddr.get ((s.pt p).job j))

def State.blkTickGrains (s : State) (b : Nat) : Nat := s.memLE (b + 0x008) 4
def State.blkCloseGuard (s : State) (b : Nat) : Nat := s.memLE (b + 0x00C) 4
def State.blkSliceCount (s : State) (b : Nat) : Nat := s.memLE (b + 0x010) 4
def State.blkLoopFirst (s : State) (b : Nat) : Nat := s.memLE (b + 0x014) 4
def State.blkMbPerStep (s : State) (b : Nat) : Nat := s.memLE (b + 0x018) 4
def State.blkJobModules (s : State) (b : Nat) : Nat := s.memLE (b + 0x01C) 1
def State.blkClusters (s : State) (b q : Nat) : Nat := s.memLE (b + 0x020 + q) 1
def State.blkDevices (s : State) (b q : Nat) : Nat := s.memLE (b + 0x024 + q) 1
def State.blkPorts (s : State) (b q : Nat) : Nat := s.memLE (b + 0x028 + q) 1
def State.blkShare (s : State) (b i : Nat) : Nat := s.memLE (b + 0x02C + i) 1
def State.blkSliceIndex (s : State) (b : Nat) : Nat := s.memLE (b + 0x050) 8
def State.blkSymbolOffset (s : State) (b : Nat) : Nat := s.memLE (b + 0x058) 8
def State.blkSymbolCount (s : State) (b : Nat) : Nat := s.memLE (b + 0x060) 4
/-- The logical clusters of the Block: one program each. -/
def State.blkPrograms (s : State) (b : Nat) : Nat := s.blkClusters b 0 + s.blkClusters b 1 + s.blkClusters b 2 + s.blkClusters b 3

/-! ## Symbol table: 4 B index, 4 B name length, name padded to 8 B -/

structure Symbol where
  index : Nat
  name : List Byte
  deriving DecidableEq, Repr

/-- `n` symbol entries from an address on. -/
def State.symbolsFrom (s : State) : Nat → Nat → List Symbol
  | 0, _ => []
  | n + 1, a =>
    let len := s.memLE (a + 4) 4
    ⟨s.memLE a 4, s.memBytes (a + 8) len⟩ :: s.symbolsFrom n (a + alignUp (8 + len) 8)

def State.symbols (s : State) (b : Nat) : List Symbol := s.symbolsFrom (s.blkSymbolCount b) (b + s.blkSymbolOffset b)

/-- The UTF-8 bytes of an ASCII name. -/
def nameBytes (n : String) : List Byte := n.toList.map (fun c => BitVec.ofNat 8 c.toNat)

/-- The Residency index that the symbol table gives a name. -/
def State.symbol (s : State) (b : Nat) (n : String) : Option Nat :=
  ((s.symbols b).find? (fun y => y.name == nameBytes n)).map (·.index)

/-! ## Slices -/

/-- The address and length of the descriptor of slice `k`. -/
def State.sliceAddr (s : State) (b k : Nat) : Nat := b + s.memLE (b + s.blkSliceIndex b + 16 * k) 8
def State.sliceLength (s : State) (b k : Nat) : Nat := s.memLE (b + s.blkSliceIndex b + 16 * k + 8) 8

/-- The slice header (02). -/
structure SliceHdr where
  number : Nat
  flags : Nat
  mbBase : Nat
  bktBase : Nat
  jobMb : Nat
  jobBkt : Nat
  localMb : Nat
  localBkt : Nat
  deriving DecidableEq, Repr

def State.sliceHdr (s : State) (b k : Nat) : SliceHdr :=
  let a := s.sliceAddr b k
  ⟨s.memLE a 4, s.memLE (a + 4) 2, s.memLE (a + 8) 4, s.memLE (a + 0xC) 4, s.memLE (a + 0x10) 8, s.memLE (a + 0x18) 8,
   s.memLE (a + 0x20) 8, s.memLE (a + 0x28) 8⟩

def SliceHdr.stepEnd (h : SliceHdr) : Bool := h.flags.testBit 0

/-- Address and length of section `i` (0 crown, 1 bursts, 2 port slots, 3 Kettle, 4 commits); offsets count from the payload
(log 34). -/
def State.secAddr (s : State) (b k i : Nat) : Nat := b + s.memLE (s.sliceAddr b k + 0x30 + 16 * i) 8
def State.secLength (s : State) (b k i : Nat) : Nat := s.memLE (s.sliceAddr b k + 0x38 + 16 * i) 8

/-! ### Crown programs -/

/-- The address of the `l`-th program of a crown section that starts at `a`. -/
def State.programAddr (s : State) : Nat → Nat → Nat
  | 0, a => a
  | l + 1, a => s.programAddr l (a + 16 + 8 * s.memLE a 4)

def State.progAddr (s : State) (b k l : Nat) : Nat := s.programAddr l (s.secAddr b k 0)
/-- WORDS of a program. -/
def State.progWords (s : State) (a : Nat) : Nat := s.memLE a 4

/-! ### Burst schedule entry, 32 B -/
namespace Bu
def startNs : Fld := fb 0x00 4
def length : Fld := fb 0x04 4
def source : Fld := fb 0x08 8
def dest : Fld := fb 0x10 8
def alt : Fld := fb 0x18 2
def critical : Fld := fm 0x1A 0 0
def endBuild : Fld := fm 0x1A 1 1
def convert : Fld := fm 0x1A 2 2
def sr : Fld := fm 0x1A 3 3
def flagsRsv : Fld := fm 0x1A 7 4
def srcFormat : Fld := fb 0x1B 1
def dstFormat : Fld := fb 0x1C 1
def mbTag : Fld := fb 0x1D 1
def build : Fld := fb 0x1E 2
end Bu

abbrev Burst := BitVec 256
def State.burstCount (s : State) (b k : Nat) : Nat := s.secLength b k 1 / 32
def State.burst (s : State) (b k n : Nat) : Burst := s.memRec (s.secAddr b k 1 + 32 * n) 32

/-! ### Port slot schedule entry, 32 B -/
namespace Ps
def startNs : Fld := fb 0x00 4
def durationNs : Fld := fb 0x04 4
def port : Fld := fb 0x08 1
def direction : Fld := fb 0x09 1
def stream : Fld := fb 0x0A 2
def length : Fld := fb 0x0C 4
def buffer : Fld := fb 0x10 8
def alt : Fld := fb 0x18 2
def rsv : Fld := fb 0x1A 6
end Ps

def State.slotCount (s : State) (b k : Nat) : Nat := s.secLength b k 2 / 32
def State.slotEntry (s : State) (b k n : Nat) : BitVec 256 := s.memRec (s.secAddr b k 2 + 32 * n) 32

/-- The quarter of the `n`-th logical port of a Block, counted through the quarters as its header holds them (log 45). -/
def State.blkPortQuarter (s : State) (b n : Nat) : Nat :=
  let c := fun q => s.blkPorts b q
  if n < c 0 then 0 else if n < c 0 + c 1 then 1 else if n < c 0 + c 1 + c 2 then 2 else 3

/-! ### Kettle work list entry, 64 B (07) and commit list entry, 16 B -/

def State.kettleCount (s : State) (b k : Nat) : Nat := s.secLength b k 3 / 64
def State.kettleEntry (s : State) (b k n : Nat) : BitVec 512 := s.memRec (s.secAddr b k 3 + 64 * n) 64

namespace Cm
def index : Fld := fb 0x00 4
def mode : Fld := fb 0x04 1
def tagKind : Fld := fb 0x05 1
def tagBit : Fld := fb 0x06 1
def rsv : Fld := fb 0x07 1
def buffer : Fld := fb 0x08 8
end Cm

def State.commitCount (s : State) (b k : Nat) : Nat := s.secLength b k 4 / 16
def State.commitEntry (s : State) (b k n : Nat) : BitVec 128 := s.memRec (s.secAddr b k 4 + 16 * n) 16
def commitOf (e : BitVec 128) : Commit := ⟨Cm.index.get e, Cm.mode.get e == 1, Cm.tagKind.get e, Cm.tagBit.get e, Cm.buffer.get e⟩
/-- The commit list of a slice, in list order. -/
def State.commits (s : State) (b k : Nat) : List Commit := (List.range (s.commitCount b k)).map (fun n => commitOf (s.commitEntry b k n))

/-! ## The running slice -/

/-- The payload of the Block and the number of the slice in progress. -/
def State.running (s : State) (p : Nat) : Option (Nat × Nat × SliceRun) :=
  (s.pt p).slice.map (fun r => (s.blockOf p r.job, r.number, r))

/-- A numerics object (0x2100 to 0x2103) as the running job took it when it was accepted (R144). -/
def State.num (s : State) (p key : Nat) : Nat :=
  match (s.pt p).slice with
  | some r => (SMap.getD (objDefault key) (SMap.getD [] (s.pt p).numerics r.job) key).toNat
  | none => s.rg key

/-- The physical cluster of logical cluster `l`, the position of its program: the partition's clusters in number order (R38). -/
def State.clusterOfProgram (s : State) (p l : Nat) : Option Nat :=
  match (s.pt p).built with
  | some r => (maskList 48 r.clusters)[l]?
  | none => none

/-- The logical position of a cluster in its partition. -/
def State.programOfCluster (s : State) (p c : Nat) : Option Nat :=
  match (s.pt p).built with
  | some r => if r.clusters.testBit c then some ((maskList c r.clusters).length) else none
  | none => none

/-- The tick length in ns and the position from the edge of the present instant of a partition. -/
def Part.tickNs (pt : Part) : Nat := pt.gen.len * 10000
def Part.edgeNs (pt : Part) : Nat := pt.gen.start * 10000
/-- The position at which the closing guard begins (R48). -/
def Part.guardPos (pt : Part) : Nat := pt.tickNs - pt.gen.guard

/-- Position in ns of arithmetic cycle `k` of a tick: 19 cycles in 10 ns, rounded up. -/
def cycleNs (k : Nat) : Nat := ceilDiv (k * 10) 19
/-- The first arithmetic cycle that begins at or after a position. -/
def nsCycle (t : Nat) : Nat := ceilDiv (t * 19) 10
/-- Cycles of a tick before its closing guard, and before its edge. -/
def Part.guardCycle (pt : Part) : Nat := nsCycle pt.guardPos
def Part.edgeCycle (pt : Part) : Nat := pt.gen.len * 19000
/-- The arithmetic cycle of a partition's tick at the present instant. -/
def State.cycleNow (s : State) (p : Nat) : Nat := nsCycle (s.now - (s.pt p).edgeNs)

end Sys2Proof.Machine
end

