-- ==== Sys2Proof/Machine/Flags.lean ====
section
/-!
DEFINITION. Flags and status fields: tile metadata (03), summary registers (05, Scalar summaries, R198 to R201).
-/

namespace Sys2Proof.Machine
open Sys2Proof

/-- The metadata byte of a tile (03, Tile metadata). -/
def Tile.meta (t : Tile) : Nat :=
  (if t.sat then 1 else 0) + (if t.nan then 2 else 0) + (if t.conflict then 4 else 0) + (if t.poison then 8 else 0)

/-! Bits of a summary register (05). -/
abbrev zCvSat : Nat := 0
abbrev zCvInf : Nat := 1
abbrev zCvNan : Nat := 2
abbrev zCvClamp : Nat := 3
abbrev zSat : Nat := 5
abbrev zNan : Nat := 6
abbrev zEmpty : Nat := 7
abbrev zConflict : Nat := 9
abbrev zPoison : Nat := 10
abbrev zGauge : Nat := 11
abbrev zValid : Nat := 14
abbrev zValueInt : Nat := 15

/-- The reserved bits of a summary register: [31:16], 8 and 4. -/
def zReserved : Nat := 0xFFFF0110

/-- A summary word from its flags, its SELECT and its VALUE; VALID is set (R198). -/
def zWord (flags select value : Nat) (isInt : Bool) : Nat :=
  (value % 2 ^ 32) * 2 ^ 32 + (flags ||| (select % 4) <<< 12 ||| 2 ^ zValid ||| (if isInt then 2 ^ zValueInt else 0))

/-- Bit 11 of every summary register reads the cluster's gauge state (R199); Z15 carries it in VALID and GAUGE and reads 0 in
every other bit. -/
def Cluster.zRead (cl : Cluster) (k : Nat) : Nat :=
  if k = 15 then (if cl.gaugeBit then 2 ^ zValid + 2 ^ zGauge else 0)
  else
    let v := clearBit (SMap.getD 0 cl.nap.z k).toNat zGauge
    if cl.gaugeBit then setBit v zGauge else v

/-- SELECT of a VALUE under three thresholds (R198): how many are no greater than it; 3 for NaN. -/
def zSelect (value : Nat) (isInt : Bool) (ths : List Nat) : Nat :=
  if isInt then (ths.filter (fun t => signed 32 t ≤ signed 32 value)).length
  else
    let v := fFP32.decode value
    if v.isNan then 3 else (ths.filter (fun t => (fFP32.decode t).le v)).length

/-- The alternative a branch point selects (R200): SELECT or FLAG mode, held to the number of alternatives. -/
def zAlternative (z : Nat) (flag : Bool) (b n : Nat) : Nat :=
  if n ≤ 1 then 0
  else if flag then (if z.testBit b then 1 else 0)
  else Nat.min (z / 2 ^ 12 % 4) (n - 1)

/-- Conversion status raised by an engine of a partition, gathered for CONV_STATUS of the tick (R198). -/
def State.raiseConv (s : State) (p cv : Nat) : State := s.modPt p (fun t => { t with conv := t.conv ||| (cv % 16) })

end Sys2Proof.Machine
end

