-- ==== Sys2Proof/Machine/Transcend.lean ====
section
/-!
DEFINITION. The correctly rounded functions of the Nap engine (05_nap_engine.md R178, R180, R192).
The spec fixes the result as the value nearest the exact mathematical result. Each function is evaluated on a grid of
2^-320, far below half a step of any result, and rounded once (log 32, DEDUCED).
-/

namespace Sys2Proof.Machine
open Sys2Proof

/-- Fraction bits of the working grid. -/
abbrev fxBits : Nat := 320
abbrev fxOne : Nat := 2 ^ fxBits

/-- floor(ln 2 × 2^320). -/
def fxLn2 : Nat := 1480553391661173448385607439722553250922680800745876974795605978609098082859138712941075737848984

/-- A finite magnitude on the working grid, rounded down. -/
def fxOf (m : Nat) (e : Int) : Nat :=
  if 0 ≤ e + fxBits then m <<< (e + fxBits).toNat else m >>> (-(e + fxBits)).toNat

/-- Taylor sum of e^r for 0 ≤ r < 1 on the grid: `t` is the present term, `k` its index. -/
def fxExpSeries (r : Nat) : Nat → Nat → Nat → Nat → Nat
  | 0, _, _, acc => acc
  | n + 1, k, t, acc =>
    let t' := t * r / fxOne / (k + 1)
    fxExpSeries r n (k + 1) t' (acc + t')

def fxExp (r : Nat) : Nat := fxExpSeries r 90 0 fxOne fxOne

/-- atanh series: sum of z^(2k+1) ÷ (2k+1). -/
def fxAtanhSeries (z2 : Nat) : Nat → Nat → Nat → Nat → Nat
  | 0, _, _, acc => acc
  | n + 1, k, t, acc => fxAtanhSeries z2 n (k + 1) (t * z2 / fxOne) (acc + t / (2 * k + 1))

/-- ln of num ÷ den in [1, 2) on the grid: 2 × atanh((x − 1) ÷ (x + 1)). -/
def fxLn1p (num den : Nat) : Nat :=
  let z := (num - den) * fxOne / (num + den)
  2 * fxAtanhSeries (z * z / fxOne) 110 0 z 0

/-- e^(±a) as a magnitude, for a = `a` on the grid. -/
def expMag (neg : Bool) (a : Nat) : Mag :=
  if !neg then
    let k := a / fxLn2
    ⟨fxExp (a - k * fxLn2), 1, (k : Int) - fxBits⟩
  else
    let k := a / fxLn2 + 1
    ⟨fxExp (k * fxLn2 - a), 1, -(k : Int) - fxBits⟩

/-- e^x: beyond ±2^10 the result overflows or vanishes in every destination, and the argument is held there. -/
def expOf (x : XVal) : XVal ⊕ Mag :=
  match x with
  | .nan => .inl .nan
  | .inf true => .inl .zero
  | .inf false => .inl (.inf false)
  | .fin n m e =>
    if m = 0 then .inl .one
    else if (⟨m, 1, e⟩ : Mag).floorLog2 ≥ 10 then .inr (expMag n (1024 * fxOne))
    else if (⟨m, 1, e⟩ : Mag).floorLog2 < -200 then .inl .one
    else .inr (expMag n (fxOf m e))

/-- 2^x: exact for an integer x. -/
def exp2Of (x : XVal) : XVal ⊕ Mag :=
  match x with
  | .nan => .inl .nan
  | .inf true => .inl .zero
  | .inf false => .inl (.inf false)
  | .fin n m e =>
    if m = 0 then .inl .one
    else if (⟨m, 1, e⟩ : Mag).floorLog2 ≥ 10 then .inl (.fin false 1 (if n then -1024 else 1024))
    else if (⟨m, 1, e⟩ : Mag).floorLog2 < -200 then .inl .one
    else
      let a := fxOf m e
      let k := a / fxOne
      let f := a % fxOne
      if f = 0 then .inl (.fin false 1 (if n then -(k : Int) else k))
      else if n then .inr ⟨fxExp ((fxOne - f) * fxLn2 / fxOne), 1, -(k : Int) - 1 - fxBits⟩
      else .inr ⟨fxExp (f * fxLn2 / fxOne), 1, (k : Int) - fxBits⟩

/-- The natural logarithm of a positive magnitude on the grid: its sign and size. -/
def lnGrid (m : Nat) (e : Int) : Bool × Nat :=
  let k : Int := (⟨m, 1, e⟩ : Mag).floorLog2
  let b := Nat.log2 m
  let f := fxLn1p m (2 ^ b)
  let v : Int := k * fxLn2 + f
  (v < 0, v.natAbs)

def lnOf (x : XVal) : XVal ⊕ (Bool × Mag) :=
  match x with
  | .nan => .inl .nan
  | .inf true => .inl .nan
  | .inf false => .inl (.inf false)
  | .fin n m e =>
    if m = 0 then .inl (.inf true)
    else if n then .inl .nan
    else
      let (s, v) := lnGrid m e
      if m = 2 ^ Nat.log2 m && (⟨m, 1, e⟩ : Mag).floorLog2 == 0 then .inl .zero else .inr (s, ⟨v, 1, -(fxBits : Int)⟩)

/-- log2 x: exact for a power of two. -/
def log2Of (x : XVal) : XVal ⊕ (Bool × Mag) :=
  match x with
  | .nan => .inl .nan
  | .inf true => .inl .nan
  | .inf false => .inl (.inf false)
  | .fin n m e =>
    if m = 0 then .inl (.inf true)
    else if n then .inl .nan
    else if m = 2 ^ Nat.log2 m then .inl (XVal.ofInt (⟨m, 1, e⟩ : Mag).floorLog2)
    else
      let (s, v) := lnGrid m e
      .inr (s, ⟨v, fxLn2, 0⟩)

/-- tanh x: below 2^-12 by its series x − x³/3 + 2x⁵/15 − 17x⁷/315, above 64 just below 1, else by e^(2x). -/
def tanhOf (x : XVal) : XVal ⊕ (Bool × Mag) :=
  match x with
  | .nan => .inl .nan
  | .inf n => .inl (.fin n 1 0)
  | .fin n m e =>
    let lg := (⟨m, 1, e⟩ : Mag).floorLog2
    if m = 0 then .inl (.fin n 0 0)
    else if lg < -60 then .inr (n, ⟨m * 2 ^ 100 - 1, 1, e - 100⟩)
    else if lg < -12 then
      let a := fxOf m e
      let a2 := a * a / fxOne
      let a3 := a * a2 / fxOne
      let a5 := a3 * a2 / fxOne
      let a7 := a5 * a2 / fxOne
      .inr (n, ⟨a - a3 / 3 + 2 * a5 / 15 - 17 * a7 / 315, 1, -(fxBits : Int)⟩)
    else if lg ≥ 6 then .inr (n, ⟨2 ^ 100 - 1, 1, -100⟩)
    else
      let t := expMag false (2 * fxOf m e)
      let v := t.num <<< (t.e + fxBits).toNat
      .inr (n, ⟨v - fxOne, v + fxOne, 0⟩)

/-- Integer square root by bisection from the top bit. -/
def isqrtGo : Nat → Nat → Nat → Nat
  | 0, _, r => r
  | n + 1, x, r => if (r + 2 ^ n) * (r + 2 ^ n) ≤ x then isqrtGo n x (r + 2 ^ n) else isqrtGo n x r

def isqrt (x : Nat) : Nat := isqrtGo (Nat.log2 x / 2 + 1) x 0

/-- The square root of a positive quotient num ÷ den × 2^e, on a fine grid with a sticky half step when it is not exact. -/
def sqrtMag (x : Mag) : Mag :=
  let x := if x.e % 2 = 0 then x else ⟨2 * x.num, x.den, x.e - 1⟩
  let v := (x.num <<< 400) / x.den
  let r := isqrt v
  ⟨2 * r + (if r * r = v && (x.num <<< 400) % x.den = 0 then 0 else 1), 1, x.e / 2 - 201⟩

def sqrtOf (x : XVal) : XVal ⊕ Mag :=
  match x with
  | .nan => .inl .nan
  | .inf true => .inl .nan
  | .inf false => .inl (.inf false)
  | .fin n m e => if m = 0 then .inl (.fin n 0 0) else if n then .inl .nan else .inr (sqrtMag ⟨m, 1, e⟩)

def rsqrtOf (x : XVal) : XVal ⊕ Mag :=
  match x with
  | .nan => .inl .nan
  | .inf true => .inl .nan
  | .inf false => .inl .zero
  | .fin n m e => if m = 0 then .inl (.inf n) else if n then .inl .nan else .inr (sqrtMag ⟨1, m, -e⟩)

/-- A result rounded once to nearest into a floating format. -/
def FFmt.ofRes (f : FFmt) : XVal ⊕ Mag → Nat
  | .inl x => (f.encode false .rne x).1
  | .inr m => (f.encodeMag false .rne false m).1

def FFmt.ofSigned (f : FFmt) : XVal ⊕ (Bool × Mag) → Nat
  | .inl x => (f.encode false .rne x).1
  | .inr (n, m) => (f.encodeMag false .rne n m).1

end Sys2Proof.Machine
end

