-- ==== Sys2Proof/Machine/Arrays.lean ====
section
/-!
DEFINITION. The fulling arrays (03_fulling_arrays.md): descriptors, timing, operand staging, exact block sums, W40
accumulation, tile ownership, and the array commands.
-/

namespace Sys2Proof.Machine
open Sys2Proof

/-! ## The operation descriptor, 32 B -/
namespace Ad
def opcode : Fld := fb 0x00 1
def tile : Fld := fm 0x01 5 0
def tileRsv : Fld := fm 0x01 7 6
def add : Fld := fm 0x02 0 0
def aOrder : Fld := fm 0x02 2 1
def bOrder : Fld := fm 0x02 4 3
def modeRsv : Fld := fm 0x02 7 5
def fmtA : Fld := fm 0x03 7 4
def fmtB : Fld := fm 0x03 3 0
def formats : Fld := fb 0x03 1
def kSteps : Fld := fb 0x04 2
def rsv : Fld := fb 0x06 2
def aAddr : Fld := fb 0x08 4
def bAddr : Fld := fb 0x0C 4
def aScale : Fld := fb 0x10 4
def bScale : Fld := fb 0x14 4
def aStride : Fld := fb 0x18 4
def bStride : Fld := fb 0x1C 4
/-- Everything from B_ADDR onward. -/
def fromB : Fld := fb 0x0C 20
end Ad

abbrev ADesc := BitVec 256

/-- K of a descriptor. -/
def adK (d : ADesc) : Nat := 16 * Ad.kSteps.get d

/-- The legal pairings of R87. Its row "E5M2 × E5M2, MX or plain" is read as two MX or two plain operands: a mixed pair is illegal
(log 102). -/
def pairingLegal (a b : Nat) : Bool :=
  (a ≤ 5 && b ≤ 5) || (fmtPlainFP8 a && fmtPlainFP8 b) || (a == b && (a == 6 || a == 7 || a == 8))

/-- Stream cycles of a pairing before the order-2 doubling (R87). -/
def pairingCycles (a b k : Nat) : Nat :=
  if a = 4 && b = 4 then k / 2
  else if (a = 1 || a = 0xA) && (b = 1 || b = 0xA) then 2 * k
  else if a = 8 then 6 * k
  else if a = 6 || a = 7 then 2 * k
  else k

/-- The byte after the last one an operand panel of K positions reads (R88, storage orders). -/
def panelEnd (order addr stride w k : Nat) : Nat :=
  if order = 0 then addr + 15 * stride + ceilDiv (k * w) 8 else addr + (k - 1) * stride + 2 * w
/-- The byte after the last scale byte an operand reads. -/
def scaleEnd (order addr k : Nat) : Nat := if order = 2 then addr + k else addr + 16 * (k / 32)

/-- An operand's addresses and order are legal (R88, R542). -/
def operandLegal (fmt order addr stride scale k : Nat) : Bool :=
  order ≤ 2 && (order != 2 || fmt ≤ 5) && addr % 8 == 0 && stride % 8 == 0 && panelEnd order addr stride (fmtBits fmt) k ≤ battSize
    && (fmt > 5 || (scale % 8 == 0 && scaleEnd order scale k ≤ battSize))

/-- Whether a descriptor is legal (R88). -/
def descLegal (d : ADesc) : Bool :=
  let a := Ad.fmtA.get d
  let b := Ad.fmtB.get d
  let k := adK d
  Ad.tileRsv.get d == 0 && Ad.modeRsv.get d == 0 && Ad.rsv.get d == 0 &&
  (if Ad.opcode.get d = 1 then
    pairingLegal a b && 1 ≤ Ad.kSteps.get d && Ad.kSteps.get d ≤ 8192
      && ((a == 6 || a == 7 || a == 8) || Ad.kSteps.get d % 2 == 0)
      && operandLegal a (Ad.aOrder.get d) (Ad.aAddr.get d) (Ad.aStride.get d) (Ad.aScale.get d) k
      && operandLegal b (Ad.bOrder.get d) (Ad.bAddr.get d) (Ad.bStride.get d) (Ad.bScale.get d) k
  else if Ad.opcode.get d = 2 then
    Ad.aOrder.get d ≤ 2 && Ad.bOrder.get d ≤ 2 && Ad.aAddr.get d % 64 == 0 && Ad.aAddr.get d + 1344 ≤ battSize
      && Ad.formats.get d == 0 && Ad.kSteps.get d == 0 && Ad.fromB.get d == 0
  else false)

/-- Stream cycles S, turn cycles T and drain of an operation (R87, R91, R93, R89). -/
def adTiming (d : ADesc) (bad : Bool) : Nat × Nat × Nat :=
  if bad || !descLegal d then (4, 0, 0)
  else if Ad.opcode.get d = 2 then (21, 0, 38)
  else
    let s := pairingCycles (Ad.fmtA.get d) (Ad.fmtB.get d) (adK d)
    let two := Ad.aOrder.get d = 2 || Ad.bOrder.get d = 2
    let turned := Ad.aOrder.get d ≠ 0 || Ad.bOrder.get d ≠ 0
    (if two then 2 * s else s, if turned then 32 else 0, 38)

/-- The timing of the n-th operation of an array (R93): start, end of stream and completion. -/
def arrayTiming (issue lastEnd : Nat) (d : ADesc) (bad : Bool) : Nat × Nat × Nat :=
  let (s, t, drain) := adTiming d bad
  let start := Nat.max (issue + 4) lastEnd
  (start, start + s + t, start + s + t + drain)

/-! ## Operand staging (R90, storage orders, R542) -/

/-- `w` bits of batt memory from a bit address, least significant first. -/
def Cluster.battBits (cl : Cluster) (bitAddr w : Nat) : Nat :=
  (leNat (cl.battBytes (bitAddr / 8) ((bitAddr + w - 1) / 8 - bitAddr / 8 + 1)) >>> (bitAddr % 8)) % 2 ^ w

/-- One operand of a PRODUCT. -/
structure Operand where
  fmt : Nat
  order : Nat
  addr : Nat
  scale : Nat
  stride : Nat
  k : Nat
  deriving DecidableEq, Repr

def operandA (d : ADesc) : Operand := ⟨Ad.fmtA.get d, Ad.aOrder.get d, Ad.aAddr.get d, Ad.aScale.get d, Ad.aStride.get d, adK d⟩
def operandB (d : ADesc) : Operand := ⟨Ad.fmtB.get d, Ad.bOrder.get d, Ad.bAddr.get d, Ad.bScale.get d, Ad.bStride.get d, adK d⟩

/-- The bit address of the element of line `r` at K position `k`. -/
def Operand.bitAddr (o : Operand) (r k : Nat) : Nat :=
  if o.order = 0 then 8 * (o.addr + r * o.stride) + fmtBits o.fmt * k else 8 * (o.addr + k * o.stride) + fmtBits o.fmt * r

/-- The address of the scale of line `r` at K position `k`. -/
def Operand.scaleAddr (o : Operand) (r k : Nat) : Nat := if o.order = 2 then o.scale + k else o.scale + r * (o.k / 32) + k / 32

/-- The element's value before scaling. -/
def Operand.elem (o : Operand) (cl : Cluster) (r k : Nat) : XVal := decodeElem o.fmt (cl.battBits (o.bitAddr r k) (fmtBits o.fmt))
/-- The E8M0 scale that applies; formats without one have 127. -/
def Operand.scaleOf (o : Operand) (cl : Cluster) (r k : Nat) : Nat :=
  if o.fmt ≤ 5 then leNat (cl.battBytes (o.scaleAddr r k) 1) else 127

/-- Whether any byte that the operand reads has bad parity (R108). -/
def Operand.bad (o : Operand) (cl : Cluster) : Bool :=
  (List.range (if o.order = 0 then 16 else o.k)).any (fun i =>
      cl.battBad (o.addr + i * o.stride) (if o.order = 0 then ceilDiv (o.k * fmtBits o.fmt) 8 else 2 * fmtBits o.fmt))
    || (o.fmt ≤ 5 && cl.battBad o.scale (scaleEnd o.order o.scale o.k - o.scale))

/-- The element in its wide form for the gauge unit: the captured value, else the narrow one decoded exactly (R155). -/
def Operand.wide (o : Operand) (cl : Cluster) (r k : Nat) : XVal :=
  match SMap.get? cl.cap (o.bitAddr r k) with
  | some (v, _) => fFP32.decode v.toNat
  | none => e8m0Scale (o.scaleOf cl r k) (o.elem cl r k)

/-- The kind under which a captured operand is logged; none when no element of it was captured (R153, R157). -/
def Operand.capKind (o : Operand) (cl : Cluster) : Option Nat :=
  ((List.range 16).flatMap (fun r => (List.range o.k).filterMap (fun k => (SMap.get? cl.cap (o.bitAddr r k)).map (·.2)))).head?

/-! ## Accumulation -/

/-- The exact sum of one 32-element block, scaled (R95, R96, R103). -/
def blockSum (a b : Operand) (cl : Cluster) (i j blk : Nat) : XVal :=
  let sa := a.scaleOf cl i (32 * blk)
  let sb := b.scaleOf cl j (32 * blk)
  if sa = 0xFF || sb = 0xFF then .nan
  else
    let s := (List.range 32).foldl (fun (acc : XVal) t => acc.add ((a.elem cl i (32 * blk + t)).mul (b.elem cl j (32 * blk + t)))) .zero
    s.scale ((sa : Int) + sb - 254)

/-- One product in the per-product path, with the scales that apply at k (R98). -/
def scaledProduct (a b : Operand) (cl : Cluster) (i j k : Nat) : XVal :=
  (e8m0Scale (a.scaleOf cl i k) (a.elem cl i k)).mul (e8m0Scale (b.scaleOf cl j k) (b.elem cl j k))

/-- RNE_BF16 of a finite value, held to the largest finite BF16 value (R105). -/
def bf16Split (x : XVal) : XVal := fBF16.decode (fBF16.encode true .rne x).1

/-- The contribution of one k of a three-pass FP32 product (R105). -/
def threePass (a b : XVal) : XVal :=
  match a, b with
  | .fin _ _ _, .fin _ _ _ =>
    let ah := bf16Split a
    let al := bf16Split (a.sub ah)
    let bh := bf16Split b
    let bl := bf16Split (b.sub bh)
    ((ah.mul bh).add (ah.mul bl)).add (al.mul bh)
  | _, _ => a.mul b

/-- The contributions to element (i, j), in the order in which they are rounded into the accumulator (R97, R98, R105). -/
def contributions (a b : Operand) (cl : Cluster) (i j : Nat) : List XVal :=
  if a.fmt = 8 then (List.range a.k).map (fun k => threePass (a.elem cl i k) (b.elem cl j k))
  else if a.fmt = 6 || a.fmt = 7 || a.order = 2 || b.order = 2 then (List.range a.k).map (scaledProduct a b cl i j)
  else (List.range (a.k / 32)).map (blockSum a b cl i j)

/-- The contributions rounded one after another into a W40 element; with its SAT and NAN (R97 to R104). -/
def accumulate (acc : Nat) (xs : List XVal) : Nat × Bool × Bool :=
  xs.foldl (fun (s : Nat × Bool × Bool) x =>
    let (c, sat, nan) := w40Add s.1 x
    (c, s.2.1 || sat, s.2.2 || nan)) (acc, false, false)

/-- FP32 reference accumulation of the gauge unit: products and sums each rounded to FP32 (R155). -/
def refAccumulate (acc : Nat) (a b : Operand) (cl : Cluster) (i j : Nat) : Nat :=
  (List.range a.k).foldl (fun (s : Nat) k =>
    rneFP32 ((fFP32.decode s).add (toFP32 ((a.wide cl i k).mul (b.wide cl j k))))) acc

/-! ## Tiles -/

def Cluster.tile (cl : Cluster) (n : Nat) : Tile := SMap.getD Tile.empty cl.tiles n
def Cluster.setTile (cl : Cluster) (n : Nat) (t : Tile) : Cluster := { cl with tiles := SMap.put Tile.empty cl.tiles n t }
def Tile.elem (t : Tile) (i : Nat) : Nat := (SMap.getD 0 t.elems i).toNat
def Tile.refElem (t : Tile) (i : Nat) : Nat := (SMap.getD 0 t.ref i).toNat

/-- Element values placed in a sparse list, zero codes unlisted. -/
def sparseElems {w : Nat} (vs : List Nat) : SMap (BitVec w) :=
  ((List.range vs.length).zip vs).filterMap (fun iv => let b := BitVec.ofNat w iv.2; if b = 0 then none else some (iv.1, b))

/-- The tile after a PRODUCT (R97 to R105, R107, R108): `hit` a parity error in an operand or in the tile. -/
def productTile (cl : Cluster) (d : ADesc) (t : Tile) (hit : Bool) : Tile :=
  let a := operandA d
  let b := operandB d
  let add := Ad.add.get d = 1
  let rs := (List.range 256).map (fun e => accumulate (if add then t.elem e else 0) (contributions a b cl (e / 16) (e % 16)))
  let rf := (List.range 256).map (fun e => refAccumulate (if add then t.refElem e else 0) a b cl (e / 16) (e % 16))
  let kind := (a.capKind cl).orElse (fun _ => b.capKind cl)
  { elems := sparseElems (rs.map (·.1))
    sat := (add && t.sat) || rs.any (·.2.1)
    nan := (add && t.nan) || rs.any (·.2.2)
    conflict := t.conflict
    poison := t.poison || hit
    ref := sparseElems rf
    capKind := if add then t.capKind.orElse (fun _ => kind) else kind
    doneAt := t.doneAt }

/-- The tile after a PRELOAD (R113). -/
def preloadTile (cl : Cluster) (d : ADesc) (t : Tile) (hit : Bool) : Tile :=
  let img := cl.battBytes (Ad.aAddr.get d) 1344
  let es := (List.range 256).map (fun e => leNat ((img.drop (5 * e)).take 5))
  let m := leNat ((img.drop 1280).take 1)
  { elems := sparseElems es
    sat := m.testBit 0
    nan := m.testBit 1
    conflict := t.conflict
    poison := t.poison || hit || m / 4 != 0 || (img.drop 1281).any (· != 0)
    ref := sparseElems (es.map (fun c => rneFP32 (fW40.decode c)))
    capKind := none
    doneAt := t.doneAt }

/-- The tile value an operation that starts now continues from: that of the last started operation on it (R99, R111). -/
def Cluster.flightTile (cl : Cluster) (a n : Nat) : Tile :=
  match ((cl.arrays[a]?).getD ⟨[], [], 0, []⟩).flight.filter (fun o => 64 * a + Ad.tile.get o.desc == n) |>.getLast? with
  | some o => { o.result with conflict := o.result.conflict || (cl.tile n).conflict, poison := o.result.poison || (cl.tile n).poison }
  | none => cl.tile n

def Cluster.arr (cl : Cluster) (a : Nat) : ArrState := (cl.arrays[a]?).getD ⟨[], [], 0, []⟩
def Cluster.modArr (cl : Cluster) (a : Nat) (f : ArrState → ArrState) : Cluster :=
  { cl with arrays := cl.arrays.setIfInBounds a (f (cl.arr a)) }

/-- A tile changes in a cycle: a RUN in progress keeps its value from before, for what it has read by then (R187). -/
def Cluster.retile (cl : Cluster) (n cycle : Nat) (t : Tile) : Cluster :=
  { cl.setTile n t with nap := { cl.nap with run := cl.nap.run.map (fun r => { r with saved := r.saved ++ [(n, cycle, cl.tile n)] }) } }

/-- A conflict of ownership on a tile from a cycle on (R112): CONFLICT and POISON, the array's conflict counter, and the slice late. -/
def State.tileConflict (s : State) (c n cycle : Nat) : State :=
  ((s.modCl c (fun cl => cl.retile n cycle { cl.tile n with conflict := true, poison := true })).countC c 0 (16 * c + n / 64)
    (wEvent 3) 1).lateC c

/-- The first cycle in which a write ownership meets read windows of its tile, where it meets one (R112). -/
def clashAt (from_ until_ : Nat) (windows : List (Nat × Nat)) : Option Nat :=
  ((windows.filter (fun w => from_ ≤ w.2 && w.1 ≤ until_)).map (fun w => Nat.max from_ w.1)).min?

/-- The operation at the head of an array's queue may start: the array's cluster runs a slice and its stream start lies before
the guard and the edge (R94). -/
def State.headMay (s : State) (c a : Nat) : Bool :=
  match s.ownerOfCluster c, ((s.cl c).arr a).queue with
  | some p, o :: _ => (s.pt p).slice.isSome && o.start < (s.pt p).guardCycle && !(s.cl c).resetting
  | _, _ => false

/-- It is of an opcode; 0 for an illegal one. -/
def State.headStarts (s : State) (c a : Nat) (op : Nat) : Bool :=
  s.headMay c a && (match ((s.cl c).arr a).queue with
    | o :: _ => if o.bad || !descLegal o.desc then op == 0 else op == Ad.opcode.get o.desc
    | [] => false)

/-- The exact timing of queued operations behind a stream end (R93). -/
def retime (last : Nat) : List ArrOp → List ArrOp
  | [] => []
  | o :: l =>
    let (st, en, co) := arrayTiming o.issue last o.desc o.bad
    { o with start := st, streamEnd := en, complete := co } :: retime en l

/-- A parity hit in the descriptor at the head of an issue queue makes it illegal (R279), with the timing that follows. -/
def ArrState.headHit (x : ArrState) : ArrState :=
  match x.queue with
  | [] => x
  | o :: l =>
    let q := retime (o.start) ({ o with bad := true } :: l)
    { x with queue := q, lastEnd := (q.getLast?.map (·.streamEnd)).getD x.lastEnd,
             streams := (q.map (fun o => (o.start, o.streamEnd))).reverse ++ x.streams.drop q.length }

/-- The head of the queue becomes an operation in flight with its result; its stream cycles count BUSY, its turn cycles
STALL BATT (R480), and its work is noted for the classes of R483. -/
def State.startHead (s : State) (c a : Nat) (result : Cluster → ArrOp → Tile) : State :=
  match ((s.cl c).arr a).queue, s.ownerOfCluster c with
  | o :: rest, some p =>
    let (sc, tc, _) := adTiming o.desc o.bad
    let run := Nat.min sc ((s.pt p).edgeCycle - o.start)
    let s := s.modCl c (fun cl => cl.modArr a (fun x => { x with queue := rest, flight := x.flight ++ [{ o with result := result cl o }] }))
    let s := (s.count p 0 (16 * c + a) wBusy run).count p 0 (16 * c + a) (wStall 0) tc
    let s := s.modPt p (·.modSlice (fun r => { r with work := (16 * c + a, o.tag, o.discard, run) :: r.work }))
    s.at ((s.pt p).edgeNs + cycleNs o.start)
  | _, _ => s

/-- A parity hit met by an array: the array's parity counter, PARITY of the contract and the slice late (R108, R279). -/
def State.arrayParity (s : State) (c a : Nat) : State :=
  let s := (s.countC c 0 (16 * c + a) (wEvent 2) 1).lateC c
  match s.ownerOfCluster c with
  | some p => s.fails p cfParity
  | none => s

/-- PRODUCT (R97): the operation at the head of the array's queue starts streaming. `parity`: a bad byte is met in the tile. -/
def execProduct (c : ClusterId) (a : ArrayId) (parity : Bool) (s : State) : Out :=
  takes (s.headStarts c a 1) s (fun s =>
    match ((s.cl c).arr a).queue with
    | o :: _ =>
      let cl := s.cl c
      let n := 64 * a.val + Ad.tile.get o.desc
      let hit := parity || (operandA o.desc).bad cl || (operandB o.desc).bad cl
      let s := s.startHead c a (fun cl o => productTile cl o.desc (cl.flightTile a n) hit)
      if hit then s.arrayParity c a else s
    | [] => s)

/-- PRELOAD (R113). -/
def execPreload (c : ClusterId) (a : ArrayId) (parity : Bool) (s : State) : Out :=
  takes (s.headStarts c a 2) s (fun s =>
    match ((s.cl c).arr a).queue with
    | o :: _ =>
      let n := 64 * a.val + Ad.tile.get o.desc
      let hit := parity || (s.cl c).battBad (Ad.aAddr.get o.desc) 1344
      let s := s.startHead c a (fun cl o => preloadTile cl o.desc (cl.flightTile a n) hit)
      if hit then s.arrayParity c a else s
    | [] => s)

/-- ILLEGAL_DESCRIPTOR (R89): occupies the array for 4 cycles; its completion poisons the named tile. `parity`: the descriptor is found
with bad parity in the issue queue (R279). -/
def execIllegalDescriptor (c : ClusterId) (a : ArrayHead) (s : State) : Out :=
  let ⟨a, parity⟩ := a
  takes (s.headStarts c a 0 || (parity && s.headMay c a)) s (fun s =>
    let s := if parity then s.modCl c (fun cl => cl.modArr a ArrState.headHit) else s
    match ((s.cl c).arr a).queue with
    | o :: _ =>
      let n := 64 * a.val + Ad.tile.get o.desc
      let s := s.startHead c a (fun cl _ => { cl.flightTile a n with poison := true })
      if o.bad then s.arrayParity c a else s
    | [] => s)

/-- The gauge unit counts an eligible product tile and samples it when the count reaches the rate, or skips it while the
partition's sample slot of the quarter is in use (R17, R153, R154). -/
def State.gaugeCountTile (s : State) (p c : Nat) (t : Tile) (kind k cycle : Nat) : State :=
  let q := quarterOf12 c
  let n := SMap.getD 0 (s.pt p).gaugeCount q
  let rate := s.num p Obj.GAUGE_RATE
  let s := s.modPt p (fun x => { x with gaugeCount := SMap.put 0 x.gaugeCount q (n + 1) })
  if rate ≠ 0 && n % rate == rate - 1 then
    if (SMap.get? (s.pt p).gauge q).isSome then
      (s.incRg (Obj.GAUGE_SKIPPED_6000 q) 1).incRg (Obj.GAUGE_SKIPPED p) 1
    else s.modPt p (fun x => { x with gauge := SMap.ins x.gauge q ⟨t, kind, cycle + 256 * k / 64⟩ })
  else s

/-- The started operation that completes first, with the others; of two that complete in one cycle the older. An illegal one completes
before a product that streams ahead of it (R89). -/
def firstComplete : List ArrOp → Option (ArrOp × List ArrOp)
  | [] => none
  | o :: l => match firstComplete l with
    | some (x, r) => if x.complete < o.complete then some (x, o :: r) else some (o, l)
    | none => some (o, [])

/-- ARRAY_COMPLETE (R93): the started operation that completes next does so; its tile value and flags become final. An illegal one
leaves the tile as it stands, with POISON (R89). Every completed PRODUCT counts as one product tile for R154 (log 102). -/
def execArrayComplete (c : ClusterId) (a : ArrayId) (s : State) : Out :=
  let ok := match s.ownerOfCluster c, firstComplete ((s.cl c).arr a).flight with
    | some p, some (o, _) => o.complete < (s.pt p).edgeCycle
    | _, _ => false
  takes ok s (fun s =>
    match s.ownerOfCluster c, firstComplete ((s.cl c).arr a).flight with
    | some p, some (o, rest) =>
      let n := 64 * a.val + Ad.tile.get o.desc
      let old := (s.cl c).tile n
      let illegal := o.bad || !descLegal o.desc
      let t : Tile := if illegal then { old with poison := true, doneAt := o.complete }
        else { o.result with conflict := o.result.conflict || old.conflict, poison := o.result.poison || old.poison, doneAt := o.complete }
      let s := s.modCl c (fun cl => (cl.modArr a (fun x => { x with flight := rest })).retile n o.complete t)
      let s := s.at ((s.pt p).edgeNs + cycleNs o.complete)
      let s := if illegal then (s.count p 0 (16 * c + a) (wEvent 1) 1).lateC c else s.count p 0 (16 * c + a) (wEvent 4) 1
      match t.capKind, !illegal && Ad.opcode.get o.desc == 1 with
      | some kind, true => s.gaugeCountTile p c t kind (adK o.desc) o.complete
      | _, _ => s
    | _, _ => s)

/-- The Frobenius norm of FP32 codes, in FP32 (R155): squares and sums rounded in ascending order, then the root. -/
def frobenius (xs : List Nat) : Nat :=
  let sum := xs.foldl (fun acc x => rneFP32 ((fFP32.decode acc).add (toFP32 ((fFP32.decode x).mul (fFP32.decode x))))) 0
  fFP32.ofRes (sqrtOf (fFP32.decode sum))

/-- The relative error e of a sample (R155): none when the sample holds an infinity or a NaN. -/
def gaugeError (t : Tile) : Option Nat :=
  let cs := (List.range 256).map (fun i => rneFP32 (fW40.decode (t.elem i)))
  let rs := (List.range 256).map t.refElem
  let special := fun x => (fFP32.decode x).isNan || (fFP32.decode x).isInf
  if t.poison || cs.any special || rs.any special then none
  else
    let den := frobenius rs
    if (fFP32.decode den).isZero then
      some (if cs.all (fun x => (fFP32.decode x).isZero) then 0 else fFP32.infCode)
    else
      let ds := List.zipWith (fun c r => rneFP32 ((fFP32.decode c).sub (fFP32.decode r))) cs rs
      some (fFP32.quot (fFP32.decode (frobenius ds)) (fFP32.decode den))

/-- GAUGE_EVAL_DONE (R155 to R157): a sample's error is logged under its kind; above the threshold the alert count rises, bit 0
of the action raises GAUGE_ALERT, and bit 1 sets the GAUGE bit of the quarter's clusters for the next tick. -/
def execGaugeEvalDone (q : QuarterId) (p : PartId) (s : State) : Out :=
  let ok := match SMap.get? (s.pt p).gauge q with
    | some g => (s.pt p).slice.isSome && g.finish ≤ (s.pt p).edgeCycle
    | none => false
  takes ok s (fun s =>
    match SMap.get? (s.pt p).gauge q with
    | none => s
    | some g =>
      let s := s.modPt p (fun x => { x with gauge := SMap.del x.gauge q })
      match gaugeError g.tile with
      | none => s.incRg (Obj.GAUGE_NONFINITE p) 1
      | some e =>
        let k := g.kind
        let s := s.incRg (Obj.GAUGE_SAMPLES p k) 1
        let s := s.setRg (Obj.GAUGE_ERR_SUM p k) (rneFP32 ((fFP32.decode (s.rg (Obj.GAUGE_ERR_SUM p k))).add (fFP32.decode e)))
        let s := if (fFP32.decode (s.rg (Obj.GAUGE_ERR_MAX p k))).lt (fFP32.decode e) then s.setRg (Obj.GAUGE_ERR_MAX p k) e else s
        if (fFP32.decode (s.num p (Obj.GAUGE_THRESHOLD k))).lt (fFP32.decode e) then
          let act := s.num p (Obj.GAUGE_ACTION k)
          let s := s.incRg (Obj.GAUGE_ALERTS p k) 1
          let s := if act.testBit 1 then s.modPt p (fun x => { x with gaugeNext := setBit x.gaugeNext q }) else s
          if act.testBit 0 then s.notify 0x0040 p k e else s
        else s)

end Sys2Proof.Machine
end

