-- ==== Sys2Proof/Machine/Residency.lean ====
section
/-!
DEFINITION. The Residency Table (08_memory_and_residency.md R282 to R287): entry fields, slots, scales and versions.
-/

namespace Sys2Proof.Machine
open Sys2Proof

abbrev ResEntry := BitVec 256

/-! ## Residency entry, 32 B -/
namespace Rs
def enable : Fld := fm 0 31 31
def rsv0 : Fld := fm 0 30 28
def partition : Fld := fm 0 27 24
def refusal : Fld := fm 0 23 16
def rsv1 : Fld := fm 0 15 15
def frozen : Fld := fm 0 14 14
def bwdMode : Fld := fm 0 13 12
def ckpt : Fld := fm 0 11 10
def role : Fld := fm 0 9 8
def tier : Fld := fm 0 7 6
def class_ : Fld := fm 0 5 3
def kind : Fld := fm 0 2 0
def format : Fld := fm 4 31 24
def buffers : Fld := fm 4 23 21
def cur : Fld := fm 4 20 18
def provSlot : Fld := fm 4 17 15
def rsv2 : Fld := fm 4 14 0
def base : Fld := fb 8 4
def provTag : Fld := fb 0x0C 4
def rows : Fld := fm 0x10 63 39
def cols : Fld := fm 0x10 38 19
def linkIndex : Fld := fm 0x10 18 0
def version : Fld := fb 0x18 4
def linkVersion : Fld := fb 0x1C 4
end Rs

/-- The mark of an empty PROV_TAG or LINK_VERSION, and the version of data that has none (R284). -/
abbrev noVersion : Nat := 0xFFFFFFFF

/-- KIND values (R143), CLASS, ROLE, TIER and CKPT values (08). -/
abbrev kindWeight : Nat := 0
abbrev classGradient : Nat := 1
abbrev classHistory : Nat := 2
abbrev classRecord : Nat := 3
abbrev rolePaired : Nat := 1
abbrev roleGathered : Nat := 2
abbrev tierGddr : Nat := 0
abbrev tierCxl : Nat := 1
abbrev tierRef : Nat := 2
abbrev ckptPress : Nat := 1
abbrev ckptMirror : Nat := 2
abbrev bwdPaired : Nat := 1

/-- The enabled entry of an index: the module's copy is authoritative (R292). A disabled entry reads all zero here. -/
def State.resE (s : State) (i : Nat) : ResEntry := SMap.getD 0 s.res i
def State.resEnabled (s : State) (i : Nat) : Bool := Rs.enable.get (s.resE i) == 1
/-- Whether the module has taken an accepted entry up: at the first edge of its partition after the acceptance (R31). -/
def State.resTaken (s : State) (i : Nat) : Bool := (SMap.get? s.resAt i).isNone
def State.setRes (s : State) (i : Nat) (e : ResEntry) : State := { s with res := SMap.put 0 s.res i e }
/-- Whether an accepted job pins an entry. -/
def State.pinnedAny (s : State) (i : Nat) : Bool := (List.range 12).any (fun p => (s.pt p).pins.any (fun kv => kv.2.contains i))
/-- A field of an entry changes in service; a pinned entry waits for its write-through (R295). -/
def State.setResFld (s : State) (i : Nat) (f : Fld) (v : Nat) : State :=
  let t := s.setRes i (f.set (s.resE i) v)
  if s.pinnedAny i && !s.resChanged.contains i then { t with resChanged := i :: s.resChanged } else t

/-- Enabled entries with their indices. -/
def State.resList (s : State) : List (Nat × ResEntry) := s.res.filter (fun kv => Rs.enable.get kv.2 == 1)

/-! ## Slots (R283) -/

/-- Blocks of a shape: ROWS × ceil(COLS ÷ 32). -/
def ResEntry.blocks (e : ResEntry) : Nat := Rs.rows.get e * ceilDiv (Rs.cols.get e) 32

/-- Element bytes E and scale bytes S of a slot (R283). -/
def ResEntry.sizes (e : ResEntry) : Nat × Nat :=
  let f := Rs.format.get e
  let r := Rs.rows.get e
  let c := Rs.cols.get e
  let n := ResEntry.blocks e
  if fmtIsMX f then (n * 4 * fmtBits f, n)
  else if f = 0x10 then (64 + 64 * n, n)
  else if fmtPlainFP8 f then (r * c, 4)
  else if f = 0x06 || f = 0x07 then (2 * r * c, 0)
  else if f = 0x08 || f = 0x12 then (4 * r * c, 0)
  else if f = 0x11 then ((r / 16) * (c / 16) * 1344, 0)
  else (ceilDiv (r * c) 8, 0)

/-- The offset of the scale region within a slot. -/
def ResEntry.scaleOffset (e : ResEntry) : Nat := alignUp (ResEntry.sizes e).1 4096
/-- The slot stride. -/
def ResEntry.stride (e : ResEntry) : Nat := alignUp (ResEntry.scaleOffset e + (ResEntry.sizes e).2) 4096
def ResEntry.slots (e : ResEntry) : Nat := Rs.buffers.get e + 1
/-- The device address of slot `k`. -/
def ResEntry.slotAddr (e : ResEntry) (k : Nat) : Nat := Rs.base.get e * 65536 + k * ResEntry.stride e
/-- The address of the current slot. -/
def ResEntry.curAddr (e : ResEntry) : Nat := ResEntry.slotAddr e (Rs.cur.get e)
/-- Bytes of all slots. -/
def ResEntry.bytes (e : ResEntry) : Nat := ResEntry.slots e * ResEntry.stride e
/-- The slot that starts at an address (R285). -/
def ResEntry.slotOfAddr (e : ResEntry) (a : Nat) : Option Nat := (List.range (ResEntry.slots e)).find? (fun k => ResEntry.slotAddr e k == a)

/-- Offset of block `b` of row `r` in the element region, and of its scale in the scale region (R283). -/
def ResEntry.blockOffset (e : ResEntry) (r b : Nat) : Nat :=
  let i := r * ceilDiv (Rs.cols.get e) 32 + b
  if Rs.format.get e = 0x10 then 64 + 64 * i else i * 4 * fmtBits (Rs.format.get e)
def ResEntry.blockScale (e : ResEntry) (r b : Nat) : Nat := ResEntry.scaleOffset e + r * ceilDiv (Rs.cols.get e) 32 + b

/-- The entry whose slots hold a device address, with the slot. -/
def State.entryAt (s : State) (a : Nat) : Option (Nat × Nat) :=
  (s.resList.find? (fun kv => ResEntry.slotAddr kv.2 0 ≤ a && a < ResEntry.slotAddr kv.2 0 + ResEntry.bytes kv.2)).map
    (fun kv => (kv.1, (a - ResEntry.slotAddr kv.2 0) / ResEntry.stride kv.2))

/-! ## Versions (R284) -/

/-- The version after a given one: 0xFFFF_FFFE advances to 0. -/
def nextVersion (v : Nat) : Nat := if v = 0xFFFFFFFE then 0 else v + 1

/-- VERSION advanced by one. -/
def State.advance (s : State) (i : Nat) : State := s.setResFld i Rs.version (nextVersion (Rs.version.get (s.resE i)))

/-- The row-major logical index of an element: row `r`, column `c` (R140). -/
def ResEntry.elemIndex (e : ResEntry) (r c : Nat) : Nat := r * Rs.cols.get e + c

end Sys2Proof.Machine
end

