-- ==== Sys2Proof/Machine/GenImage.lean ====
section
/-!
DEFINITION. The generation tables (11_generation.md): Slot Table, KV Page Table, Prefix Handle Table, generation descriptor and
lane records by their layouts, and the translation of lane accesses (R380, R381, R386).
-/

namespace Sys2Proof.Machine
open Sys2Proof

/-! ## Slot Table entry, 128 B -/
namespace Sl
def enable : Fld := fm 0 31 31
def rsv0 : Fld := fm 0 30 28
def partition : Fld := fm 0 27 24
def refusal : Fld := fm 0 23 16
def status : Fld := fm 0 15 8
def batch : Fld := fm 0 7 4
def mode : Fld := fm 0 3 2
def maskMode : Fld := fm 0 1 0
def specDepth : Fld := fb 0x04 1
def topK : Fld := fb 0x05 1
def flags : Fld := fb 0x06 1
def rsv7 : Fld := fb 0x07 1
def activateTick : Fld := fb 0x08 8
def sampleSeed : Fld := fb 0x10 8
def invTemp : Fld := fb 0x18 4
def prefix_ : Fld := fb 0x1C 4
def promptOffset : Fld := fb 0x20 4
def promptTokens : Fld := fb 0x24 4
def outputRow : Fld := fb 0x28 4
def maxNew : Fld := fb 0x2C 4
def ownFirst : Fld := fb 0x30 4
def ownPages : Fld := fb 0x34 4
def maskFirst : Fld := fb 0x38 4
def maskRows : Fld := fb 0x3C 4
def stop (k : Nat) : Fld := fb (0x40 + 4 * k) 4
def ttftBudget : Fld := fb 0x50 4
def tbtBudget : Fld := fb 0x54 4
def length : Fld := fb 0x58 4
def generated : Fld := fb 0x5C 4
def ttft : Fld := fb 0x60 4
def tbtBreaches : Fld := fb 0x64 2
def cancelAck : Fld := fb 0x66 1
def latFlags : Fld := fb 0x67 1
def proposed : Fld := fb 0x68 4
def accepted : Fld := fb 0x6C 4
def weightVersion : Fld := fb 0x70 4
def autoState : Fld := fb 0x74 4
def lastGrain : Fld := fb 0x78 8
end Sl

/-! Slot status codes. -/
abbrev slIdle : Nat := 0x00
abbrev slPrefill : Nat := 0x01
abbrev slDecode : Nat := 0x02
abbrev slDoneStop : Nat := 0x10
abbrev slDoneLimit : Nat := 0x11
abbrev slDoneAutomaton : Nat := 0x12
abbrev slDoneContext : Nat := 0x13
abbrev slDoneScored : Nat := 0x14
abbrev slNoToken : Nat := 0x20
abbrev slNonfinite : Nat := 0x21
abbrev slPrefixStale : Nat := 0x22
abbrev slAutomatonFault : Nat := 0x23
abbrev slCancelled : Nat := 0x30
abbrev slJobStopped : Nat := 0x31

/-! ## KV Page Table entry, 16 B -/
namespace Pg
def enable : Fld := fm 0 31 31
def rsv0 : Fld := fm 0 30 28
def partition : Fld := fm 0 27 24
def refusal : Fld := fm 0 23 16
def rsv1 : Fld := fm 0 15 2
def ownerKind : Fld := fm 0 1 0
def owner : Fld := fb 0x04 4
def runPos : Fld := fb 0x08 4
def rsv2 : Fld := fb 0x0C 4
end Pg

/-! ## Prefix Handle Table entry, 32 B -/
namespace Px
def enable : Fld := fm 0 31 31
def rsv0 : Fld := fm 0 30 28
def partition : Fld := fm 0 27 24
def refusal : Fld := fm 0 23 16
def rsv1 : Fld := fm 0 15 0
def sourceSlot : Fld := fb 0x04 4
def tokenPages : Fld := fb 0x08 4
def pageFirst : Fld := fb 0x0C 4
def weightVersion : Fld := fb 0x10 4
def refs : Fld := fb 0x14 4
def rsv2 : Fld := fb 0x18 8
end Px

/-! ## Generation descriptor, 128 B -/
namespace Gd
def groupSize : Fld := fb 0x00 4
def group : Fld := fb 0x04 4
def batches : Fld := fb 0x08 4
def decodeLanes : Fld := fb 0x0C 4
def prefillLanes : Fld := fb 0x10 4
def prefillChunk : Fld := fb 0x14 4
def stepTicks : Fld := fb 0x18 4
def specMax : Fld := fb 0x1C 4
def mbFirst : Fld := fb 0x20 4
def slotFirst : Fld := fb 0x24 4
def slotCount : Fld := fb 0x28 4
def copySet : Fld := fb 0x2C 4
def versionEntry : Fld := fb 0x30 4
def laneRecord : Fld := fb 0x34 4
def laneInputs : Fld := fb 0x38 4
def emit : Fld := fb 0x3C 4
def scoreEmit : Fld := fb 0x40 4
def batchRecord : Fld := fb 0x44 4
def mode : Fld := fb 0x48 4
end Gd

/-! ## LANE_RECORD row, 64 B -/
namespace Ln
def slot : Fld := fb 0x00 4
def kind : Fld := fb 0x04 1
def drafts : Fld := fb 0x05 1
def inputs : Fld := fb 0x06 2
def position : Fld := fb 0x08 4
def length : Fld := fb 0x0C 4
def lastChunk : Fld := fb 0x10 1
def topK : Fld := fb 0x11 1
def flags : Fld := fb 0x12 1
def masked : Fld := fb 0x13 1
def invTemp : Fld := fb 0x14 4
def sampleSeed : Fld := fb 0x18 8
def maskRow (v : Nat) : Fld := fb (0x20 + 4 * v) 4
def capacity : Fld := fb 0x34 4
end Ln

/-- The row of an empty lane. -/
abbrev laneEmpty : BitVec 512 := 0xFFFFFFFF

def State.slotE (s : State) (i : Nat) : BitVec 1024 := SMap.getD 0 s.slots i
def State.setSlot (s : State) (i : Nat) (e : BitVec 1024) : State := { s with slots := SMap.put 0 s.slots i e }
def State.setSlotFld (s : State) (i : Nat) (f : Fld) (v : Nat) : State := s.setSlot i (f.set (s.slotE i) v)
def State.pageE (s : State) (i : Nat) : BitVec 128 := SMap.getD 0 s.pages i
def State.setPage (s : State) (i : Nat) (e : BitVec 128) : State := { s with pages := SMap.put 0 s.pages i e }
def State.prefixE (s : State) (i : Nat) : BitVec 256 := SMap.getD 0 s.prefixes i
def State.setPrefix (s : State) (i : Nat) (e : BitVec 256) : State := { s with prefixes := SMap.put 0 s.prefixes i e }
def Part.lane (pt : Part) (l : Nat) : BitVec 512 := SMap.getD laneEmpty pt.lanes l

/-- A 4 B word of the current slot of an entry, by its word number. -/
def State.word32 (s : State) (i n : Nat) : Nat := s.memLE (ResEntry.curAddr (s.resE i) + 4 * n) 4

/-! ## Pools and pages (R379, R380) -/

def State.kvLayers (s : State) (p : Nat) : Nat := s.rg (Obj.KV_LAYERS p)
/-- The pool entry of layer `l`. -/
def State.kvPool (s : State) (p l : Nat) : Nat := s.word32 (s.rg (Obj.KV_POOL_LIST p)) l
/-- The layers whose pool entry an index is. -/
def State.kvPools (s : State) (p : Nat) : List Nat :=
  if s.rg (Obj.KV_POOL_LIST p) = 0xFFFFFFFF then [] else (List.range (s.kvLayers p)).map (s.kvPool p)

/-- Whether a slot names a prefix handle, and the token pages that come from it. -/
def State.prefixPages (s : State) (e : BitVec 1024) : Nat :=
  if Sl.prefix_.get e = 0xFFFFFFFF then 0 else Px.tokenPages.get (s.prefixE (Sl.prefix_.get e))

/-- The capacity of a slot in tokens (R380). -/
def State.capacity (s : State) (p : Nat) (e : BitVec 1024) : Nat :=
  Nat.min (64 * (s.prefixPages e + (if s.kvLayers p = 0 then 0 else Sl.ownPages.get e / s.kvLayers p))) 131072

/-- What a lane access resolves to (R381, R386). -/
inductive LaneAccess
  | illegal
  | noPage
  | at_ (offset : Nat) (shared : Bool)
  | allOnes
  | mask (row first : Nat)
  deriving DecidableEq, Repr

/-- translate of R381: the page of token page `tp` of layer `l` of a lane, and whether it is shared. -/
def State.translate (s : State) (p lane tp l : Nat) : Option (Nat × Bool) :=
  let r := (s.pt p).lane lane
  if Ln.kind.get r = 0 then none
  else
    let e := s.slotE (Ln.slot.get r)
    let pre := s.prefixPages e
    if tp * 64 ≥ s.capacity p e then none
    else if tp < pre then some (Px.pageFirst.get (s.prefixE (Sl.prefix_.get e)) + tp * s.kvLayers p + l, true)
    else some (Sl.ownFirst.get e + (tp - pre) * s.kvLayers p + l, false)

/-- A lane access to a KV pool entry (R381): an OFFSET and length over entry `index`. -/
def State.kvAccess (s : State) (p index offset n : Nat) : LaneAccess :=
  let l := offset / 2 ^ 4 % 2 ^ 8
  let pb := s.rg (Obj.PAGE_BYTES p)
  let part := (offset % 16) * (pb / 16)
  if (s.kvPools p)[l]? ≠ some index || part + n > pb then .illegal
  else match s.translate p (offset / 2 ^ 23 % 2 ^ 13) (offset / 2 ^ 12 % 2 ^ 11) l with
    | none => .noPage
    | some (pg, sh) => .at_ ((pg - s.rg (Obj.PAGE_FIRST p)) / s.kvLayers p * pb + part) sh

/-- A lane access to MASK_POOL (R386). -/
def State.maskAccess (s : State) (p offset n : Nat) : LaneAccess :=
  let r := (s.pt p).lane (offset / 2 ^ 23 % 2 ^ 13)
  let v := offset / 2 ^ 20 % 8
  let first := offset % 2 ^ 20
  if first + n > ceilDiv (s.rg (Obj.VOCAB p)) 8 then .illegal
  else if Ln.kind.get r = 0 || !(Ln.masked.get r).testBit v then .allOnes
  else .mask ((Ln.maskRow v).get r) first

end Sys2Proof.Machine
end

