-- ==== Sys2Proof/Machine/Operands.lean ====
section
/-!
DEFINITION. The operand forms of the schedule: SOURCE and DEST endpoints (08), the ALT field and branch decisions (02, R40),
and the agents an access belongs to.
-/

namespace Sys2Proof.Machine
open Sys2Proof

/-- An endpoint of a burst, port slot or Reblock item (08, Addressing an entry). A port queue is named by its quarter,
its logical port, its direction (0 transmit, 1 receive) and an offset (R360). -/
inductive Endpoint
  | res (sel : Bool) (slot index offset : Nat)
  | batt (quarter cluster addr : Nat)
  | queue (quarter port dir offset : Nat)
  | illegal
  deriving DecidableEq, Repr

/-- The endpoint a SOURCE, DEST or BUFFER word names. Reserved bits make it illegal. -/
def endpointOf (w : Nat) : Endpoint :=
  let v : BitVec 64 := BitVec.ofNat 64 w
  let ty := (Fld.mk 62 2).get v
  if ty = 0 then
    if (Fld.mk 55 3).get v ≠ 0 then .illegal
    else .res ((Fld.mk 61 1).get v == 1) ((Fld.mk 58 3).get v) ((Fld.mk 36 19).get v) ((Fld.mk 0 36).get v)
  else if ty = 1 then
    if (Fld.mk 28 34).get v ≠ 0 then .illegal
    else .batt ((Fld.mk 26 2).get v) ((Fld.mk 22 4).get v) ((Fld.mk 0 22).get v)
  else if ty = 2 then
    if (Fld.mk 20 35).get v ≠ 0 then .illegal
    else .queue ((Fld.mk 60 2).get v) ((Fld.mk 56 4).get v) ((Fld.mk 55 1).get v) ((Fld.mk 0 20).get v)
  else .illegal

/-- The physical cluster of logical cluster `i` of quarter `q` of a partition (R38). -/
def State.logicalCluster (s : State) (p q i : Nat) : Option Nat :=
  match (s.pt p).built with
  | some r => logicalToPhysical r.clusters 12 q i
  | none => none

/-- The physical port of logical port `i` of quarter `q` of a partition (R38). -/
def State.logicalPort (s : State) (p q i : Nat) : Option Nat :=
  match (s.pt p).built with
  | some r => logicalToPhysical r.ports 16 q i
  | none => none

/-- The slot of a Residency access: the current one with SEL 0, the named one with SEL 1 (R286). -/
def ResEntry.accessSlot (e : ResEntry) (sel : Bool) (slot : Nat) : Nat := if sel then slot else Rs.cur.get e

/-- Whether a Residency access of `n` bytes is legal (R286): the entry is enabled, the slot exists and the range lies in it. -/
def State.resAccessOk (s : State) (sel : Bool) (slot index offset n : Nat) : Bool :=
  let e := s.resE index
  s.resEnabled index && ResEntry.accessSlot e sel slot ≤ Rs.buffers.get e && offset + n ≤ ResEntry.stride e

/-- The device address of a Residency access. -/
def State.resAddr (s : State) (sel : Bool) (slot index offset : Nat) : Nat :=
  let e := s.resE index
  ResEntry.slotAddr e (ResEntry.accessSlot e sel slot) + offset

/-- The version an access carries (R221, R287): VERSION for the current slot, 0xFFFF_FFFF for another. -/
def State.accessVersion (s : State) (sel : Bool) (slot index : Nat) : Nat :=
  let e := s.resE index
  if !sel || slot == Rs.cur.get e then Rs.version.get e else noVersion

/-- The quarter whose memory controllers or network engine serve an endpoint. -/
def State.endpointQuarter (s : State) (e : Endpoint) : Nat :=
  match e with
  | .res sel slot i off =>
    match s.region (s.resAddr sel slot i off) with
    | some (.gddr d) => d / 12
    | some (.cxl x) => x / 2
    | _ => 0
  | .batt q _ _ => q
  | .queue q _ _ _ => q
  | .illegal => 0

/-- Whether a burst touches the CXL tier. -/
def State.burstOnCxl (s : State) (e : Burst) : Bool :=
  let on := fun ep => match ep with
    | .res _ _ i _ => Rs.tier.get (s.resE i) == tierCxl
    | _ => false
  on (endpointOf (Bu.source.get e)) || on (endpointOf (Bu.dest.get e))

/-! ## ALT (02, R40) -/

abbrev altConditional (a : Nat) : Bool := a.testBit 15
abbrev altCluster (a : Nat) : Nat := a / 2 ^ 9 % 64
abbrev altPoint (a : Nat) : Nat := a / 2 ^ 2 % 128
abbrev altAlternative (a : Nat) : Nat := a % 4

/-- How a conditional item reads its branch point at a position. -/
inductive AltRead
  | taken
  | notTaken
  | undecided (cluster : Nat)
  deriving DecidableEq, Repr

/-- The decision an item reads at its START_NS: the branch point must have retired or been skipped by then (R40). -/
def State.altRead (s : State) (p alt startNs : Nat) : AltRead :=
  if !altConditional alt then .taken
  else match s.clusterOfProgram p (altCluster alt) with
    | none => .notTaken
    | some c =>
      match SMap.getD BpState.open_ (s.cl c).crown.points (altPoint alt) with
      | .taken k cyc => if cycleNs cyc ≤ startNs then (if k = altAlternative alt then .taken else .notTaken) else .undecided c
      | .skipped cyc => if cycleNs cyc ≤ startNs then .notTaken else .undecided c
      | .open_ => .undecided c

end Sys2Proof.Machine
end

