-- ==== Sys2Proof/Machine/Access.lean ====
section
/-!
DEFINITION. What an access to an endpoint does, whoever makes it (08_memory_and_residency.md): legality, holds, sweeps, stale
and gathered entries, lane accesses, poison and its logs, parity, and the errors that devices report.
-/

namespace Sys2Proof.Machine
open Sys2Proof

/-- Who makes an access: a partition, at a position of its tick, with the LATE_UNITS bit and the memory controller (if any)
that answer for it. -/
structure Agent where
  part : Nat
  pos : Nat
  bit : Nat
  ctrl : Option Nat
  deriving DecidableEq, Repr

/-- What a read delivers: bytes with their poison, the version they carry, whether data moved at all, and the offsets at which data
out of a port queue goes on with another version (R221). -/
structure Got where
  bytes : List (Byte × Bool)
  version : Nat
  moved : Bool
  runs : List (Nat × Nat)
  deriving DecidableEq, Repr

/-- Data of one version. -/
abbrev Got.of (bytes : List (Byte × Bool)) (version : Nat) : Got := ⟨bytes, version, true, []⟩
/-- An access outside every rule delivers poisoned data (R257). -/
def Got.poison (n : Nat) : Got := Got.of (List.replicate n (0, true)) noVersion
def Got.nothing : Got := ⟨[], noVersion, false, []⟩

/-- A settle fault that the settlement of the tick in progress will enter, under the first cause that arises (R61). -/
def State.faultDue (s : State) (p cause : Nat) : State := s.modPt p (fun x => if x.fault = 0 then { x with fault := cause } else x)

/-! STOP_CAUSE values (12). -/
abbrev stopSilent : Nat := 1
abbrev stopHalt : Nat := 2
abbrev stopWatchdog : Nat := 3
abbrev stopPoison : Nat := 4
abbrev stopControl : Nat := 5
abbrev stopCritical : Nat := 6
abbrev stopChain : Nat := 7
abbrev stopPress : Nat := 8
abbrev stopCxl : Nat := 9
abbrev stopOther : Nat := 10

/-- A count in the record of a memory controller. -/
def State.countM (s : State) (ag : Agent) (w n : Nat) : State :=
  match ag.ctrl with
  | some m => s.count ag.part 6 m w n
  | none => s

/-! ## Poison (R265, R273, R404) -/

/-- Poison in slot CUR or in the provisional slot of a PRESS or MIRROR entry (R404). -/
def State.committedPoison (s : State) (u : Nat) : State :=
  match s.entryAt u with
  | some (i, k) =>
    let e := s.resE i
    if (Rs.ckpt.get e == ckptPress || Rs.ckpt.get e == ckptMirror)
        && (k == Rs.cur.get e || (Rs.provTag.get e != noVersion && k == Rs.provSlot.get e)) then
      let p := Rs.partition.get e
      ((s.notify 0x0060 p i u).incRg (Obj.COMMITTED_POISON p) 1).faultDue p stopPoison
    else s
  | none => s

/-- A device that has just become FAILED stops the job of its partition (R402). -/
def State.failStop (before after : State) (d : Nat) : State :=
  if before.rg (Obj.DEV_STATE d) != devFailed && after.rg (Obj.DEV_STATE d) == devFailed then
    match after.ownerOfDevice d with
    | some p => after.faultDue p stopOther
    | none => after
  else after

/-- A unit found uncorrectable: logged, and judged under R404. -/
def State.notePoison (s : State) (u : Nat) : State := (s.failStop (s.logPoison u) (u / 2 ^ 32)).committedPoison (u / 64 * 64)

/-- Whether a device address belongs to a GDDR7 device. -/
def isGddr (a : Nat) : Bool := a < 48 * 2 ^ 32
def isCxl (a : Nat) : Bool := 0x1000_0000_0000 ≤ a && a < 0x2000_0000_0000
def isRef (a : Nat) : Bool := refBase ≤ a

/-- A write of device bytes, with the judgement of R404 for every unit that it leaves poisoned. -/
def State.store (s : State) (a : Nat) (bs : List (Byte × Bool)) : State :=
  let s := if isGddr a then s.failStop (s.memWrite a bs) (a / 2 ^ 32) else s.memWrite a bs
  if bs.any (·.2) then (unitsOf a bs.length).foldl (fun t u => if t.poisonAt u then t.committedPoison u else t) s else s

/-! ## Errors that the devices report in an access (R264, R265, R273, R515, R22, R279) -/

/-- Whether a 64 B unit or line, or a page of `len` bytes, overlaps one of some ranges. -/
def touches (ranges : List (Nat × Nat)) (u len : Nat) : Bool := ranges.any (fun r => u < r.1 + r.2 && r.1 < u + len)

/-- The events at 64 B units that fall within some ranges. -/
def unitsIn (ranges : List (Nat × Nat)) (l : List Nat) : List Nat := l.filter (fun u => touches ranges (u / 64 * 64) 64)

/-- What the devices report to whoever accesses them: CRC repetitions and units found uncorrectable, counted in the controller's
record, link-level retries of the CXL ports, and lines that an expander holds poisoned. -/
def State.deviceReports (s : State) (ag : Agent) (er : AccessErrors) (ranges : List (Nat × Nat)) : State :=
  let s := s.countM ag (wEvent 1) ((unitsIn ranges er.crcRetries).filter isGddr).length
  let s := ((unitsIn ranges er.cxlRetries).filter isCxl).foldl (fun t a =>
    t.incRg (Obj.CXL_RETRIES ((a - 0x1000_0000_0000) / 0x0200_0000_0000)) 1) s
  let s := ((unitsIn ranges er.badUnits).filter isGddr).foldl (fun t u => (t.notePoison u).countM ag (wEvent 2) 1) s
  ((unitsIn ranges er.cxlPoison).filter isCxl).foldl (fun t u =>
    if t.cxlPoison.contains (u / 64 * 64) then t else { t with cxlPoison := (u / 64 * 64) :: t.cxlPoison }) s

/-- Repetitions, uncorrectable units, poisoned lines and pages within the device ranges of an access of a slice: RETRY fails for
repetitions, and the slice is late and PARITY fails for an uncorrectable unit or page. -/
def State.deviceErrors (s : State) (ag : Agent) (er : AccessErrors) (ranges : List (Nat × Nat)) : State :=
  let s := s.deviceReports ag er ranges
  let s := if (unitsIn ranges er.crcRetries).any isGddr || (unitsIn ranges er.cxlRetries).any isCxl then s.fails ag.part cfRetry else s
  let s := if (unitsIn ranges er.badUnits).any isGddr then (s.late ag.part ag.bit).fails ag.part cfParity else s
  let pages := er.badPages.filter (fun r => isRef r.1 && touches ranges r.1 r.2)
  let s := pages.foldl (fun t r =>
    let t := if t.badPages.contains r then t else { t with badPages := r :: t.badPages }
    let t := ((t.incRg Obj.REFSTORE_UNCORRECTABLE 1).late ag.part ag.bit).fails ag.part cfParity
    match (List.range 16).find? (fun k => let b := t.rg (Obj.SLOT_BASE_9042 k)
        t.rg (Obj.SLOT_STATE k) != 0 && b ≤ r.1 && r.1 < b + (SMap.getD RefSlot.empty t.refs k).range) with
    | some k =>
      let f := SMap.getD RefSlot.empty t.refs k
      if f.told then t else (({ t with refs := SMap.put RefSlot.empty t.refs k { f with told := true } } : State).notify 0x0084 0xFF k r.1)
    | none => t) s
  s.incRg Obj.REFSTORE_CORRECTED ((unitsIn ranges er.corrected).filter isRef).length

/-- Parity hits on die-to-die flits and in the burst datapath; the second part says that the data is poisoned. -/
def State.pathErrors (s : State) (ag : Agent) (er : AccessErrors) : State × Bool :=
  let ls := bitsOf 10 er.links
  let s := ls.foldl (fun t l => ((t.incRg (Obj.LINK_PARITY l) 1).late ag.part ag.bit).fails ag.part cfParity) s
  let s := if er.datapath then ((s.late ag.part ag.bit).fails ag.part cfParity).countM ag (wEvent 3) 1 else s
  (s, er.datapath || !ls.isEmpty)

/-- The poisoned lines that a CXL port delivers: counted at the port and in the controller's record, and judged under R404 (R273). -/
def State.cxlDelivered (s : State) (ag : Agent) (a n : Nat) : State :=
  if isCxl a then
    let x := (a - 0x1000_0000_0000) / 0x0200_0000_0000
    let lines := (unitsOf a n).filter (fun u => s.cxlPoison.contains u)
    let s := s.countM ag (wEvent 2) lines.length
    let s := if s.rg (Obj.CXL_STATE x) == cxlUp then s.incRg (Obj.CXL_POISON_READS x) lines.length else s
    lines.foldl (fun t u => t.committedPoison u) s
  else s

/-- The delivery of device bytes: poisoned where a unit is logged, a line holds poison, a page is bad, the device is FAILED or
the port is not UP; the slice is late for poisoned data, and PARITY fails for all but an image that is still loading
(R44, R265, R266, R273, R275, R513, R515). -/
def State.deliver (s : State) (ag : Agent) (a n : Nat) : State × List (Byte × Bool) :=
  let loading := isRef a && (List.range 16).any (fun k => let b := s.rg (Obj.SLOT_BASE_9042 k)
    (s.rg (Obj.SLOT_STATE k) == 1 || s.rg (Obj.SLOT_STATE k) == 3 || s.rg (Obj.SLOT_STATE k) == 4)
      && b < a + n && a < b + (SMap.getD RefSlot.empty s.refs k).range)
  let raw := s.memRead a n
  let bs := raw.map (fun b => (b.1, b.2 || loading))
  if bs.any (·.2) then
    let s := s.late ag.part ag.bit
    let s := if raw.any (·.2) then s.fails ag.part cfParity else s
    (s.cxlDelivered ag a n, bs)
  else (s, bs)

/-! ## Entries in sweep (R251) -/

def Sweep.names (w : Sweep) (i : Nat) : Bool := w.state != 0 && (w.w == i || w.s1 == i || w.s2 == i || w.g == i)
/-- Whether an entry is in sweep. -/
def State.inSweep (s : State) (p i : Nat) : Bool := (s.pt p).sweeps.any (fun kv => kv.2.names i)

/-- The refusal of an access to an entry in sweep. -/
def State.sweepAccess (s : State) (ag : Agent) : State := (s.late ag.part ag.bit).incRg (Obj.SWEEP_ACCESS ag.part) 1

/-! ## Dumps (R497) -/

/-- A write into a slot that a dump is copying tears the copy. -/
def State.tear (s : State) (p i slot : Nat) : State :=
  s.modPt p (fun x => { x with dumps := x.dumps.map (fun kv =>
    (kv.1, { kv.2 with copies := kv.2.copies.map (fun d => if d.index == i && d.slot == slot then { d with torn := true } else d) })) })

/-! ## Image bytes (R473) -/

/-- Whether a range touches the image of an accepted or ticking job, which no access may write. -/
def State.imageBytes (s : State) (a n : Nat) : Bool :=
  (List.range 12).any (fun p => (s.pt p).jobs.any (fun kv =>
    (Job.state.get kv.2 == jsAccepted || Job.state.get kv.2 == jsTicking || Job.state.get kv.2 == jsStopped)
      && a < Job.blockAddr.get kv.2 + Job.blockBytes.get kv.2 && Job.blockAddr.get kv.2 < a + n))

/-! ## Residency accesses -/

/-- An entry as a read at a position sees it (R52, R64, R385). -/
def State.resSeen (s : State) (p pos i : Nat) : ResEntry :=
  match SMap.get? (s.pt p).former i with
  | some f => if pos < f.until_ then f.entry else s.resE i
  | none => s.resE i

/-- Whether a read at a position counts as a memory stall: it waits for the EDGE commit of its entry (R52), it sees the former state
of the entry (R64, R385), or its entry has a SETTLE commit that is unresolved or freshly resolved (R64). -/
def State.resHeld (s : State) (p pos i : Nat) : Bool :=
  let x := s.pt p
  pos < SMap.getD 0 x.applied i
    || (match SMap.get? x.former i with
      | some f => pos < f.until_
      | none => false)
    || (pos < 10000 && match x.settling with
      | some z => z.held.any (fun c => c.index == i)
      | none => false)

/-- The use of a cached entry (R279, R281): a parity hit in one copy is counted, and the module takes the other copy and rewrites
the bad one; a hit in both copies (two hits) is a settle fault of the partition whose job pins the entry. -/
def State.cacheHit (s : State) (ag : Agent) (er : AccessErrors) (i : Nat) : State :=
  if er.cacheLost.contains i then
    let s := s.countM ag (wEvent 3) 2
    if (s.pt (Rs.partition.get (s.resE i))).pins.any (fun kv => kv.2.contains i)
    then s.faultDue (Rs.partition.get (s.resE i)) stopOther else s
  else if er.cacheHit.contains i then s.countM ag (wEvent 3) 1
  else s

/-- A read of byte ranges (offset and length) of a Residency slot, delivered one after another. `paired`: a burst, which judges
paired copies (R212). A lane access has one range. -/
def State.readRes (s : State) (ag : Agent) (er : AccessErrors) (paired sel : Bool) (slot i : Nat) (parts : List (Nat × Nat)) :
    State × Got :=
  let p := ag.part
  let e := s.resSeen p ag.pos i
  let k := ResEntry.accessSlot e sel slot
  let n := (parts.map (·.2)).sum
  let lane := sel && slot == 0 && parts.length == 1
  let off := (parts.map (·.1)).headD 0
  if !(Rs.enable.get e == 1 && Rs.partition.get e == p && s.resTaken i) then (s.late p ag.bit, Got.poison n)
  else if lane && (s.kvPools p).contains i then
    match s.kvAccess p i off n with
    | .at_ o _ =>
      let a := ResEntry.slotAddr e 0 + o
      let s := s.deviceErrors ag er [(a, n)]
      let (s, bs) := s.deliver ag a n
      (s, Got.of bs noVersion)
    | .noPage => (s, Got.nothing)
    | _ => (s.late p ag.bit, Got.poison n)
  else if lane && i = s.rg (Obj.MASK_POOL p) then
    match s.maskAccess p off n with
    | .allOnes => (s, Got.of (List.replicate n (0xFF, false)) noVersion)
    | .mask row first =>
      let b := row * Rs.cols.get e + 8 * first
      let a := ResEntry.slotAddr e 0 + b / 8
      let len := ceilDiv (b % 8 + 8 * n) 8
      let s := s.deviceErrors ag er [(a, len)]
      let (s, bs) := s.deliver ag a len
      let v := (leNat (bs.map (·.1)) >>> (b % 8)) % 2 ^ (Rs.cols.get e - 8 * first)
      (s, Got.of ((leBytes n v).map (·, bs.any (·.2))) noVersion)
    | _ => (s.late p ag.bit, Got.poison n)
  else if !(k ≤ Rs.buffers.get e && parts.all (fun r => r.1 + r.2 ≤ ResEntry.stride e)) then (s.late p ag.bit, Got.poison n)
  else if s.inSweep p i then (s.sweepAccess ag, Got.poison n)
  else
    let s := if s.resHeld p ag.pos i then s.countM ag (wStall 1) 1 else s
    let v := if k = Rs.cur.get e then Rs.version.get e else noVersion
    let base := ResEntry.slotAddr e k
    let s := s.deviceErrors ag er (parts.map (fun r => (base + r.1, r.2)))
    let (s, bs) := parts.foldl (fun (t : State × List (Byte × Bool)) r =>
      let (u, bs) := t.1.deliver ag (base + r.1) r.2
      (u, t.2 ++ bs)) (s, [])
    if paired && Rs.role.get e = rolePaired && Rs.linkVersion.get e ≠ Rs.version.get (s.resSeen p ag.pos (Rs.linkIndex.get e)) then
      ((s.late p ag.bit).incRg (Obj.PAIR_STALE p) 1, Got.of (bs.map (fun b => (b.1, true))) v)
    else (s, Got.of bs v)

/-- The version that data brings to a gathered entry is recorded or compared (R222, R223); the second part says that the data
is poisoned. -/
def State.gather (s : State) (ag : Agent) (i version : Nat) : State × Bool :=
  let e := s.resE i
  if Rs.role.get e ≠ roleGathered then (s, false)
  else if version ≠ noVersion && Rs.linkVersion.get e = noVersion then (s.setResFld i Rs.linkVersion version, false)
  else if version ≠ noVersion && Rs.linkVersion.get e = version then (s, false)
  else ((((s.late ag.part ag.bit).notify 0x0043 ag.part i version).incRg (Obj.SHARD_VERSION ag.part) 1), true)

/-- Whether a batch is bound to a slot of a COPY_SET entry (R400). -/
def Part.copyBound (x : Part) (i slot : Nat) : Bool := x.copySet.contains i && x.batches.any (fun kv => kv.2.slot == slot)

/-- A write of device bytes for an agent: into no image of a job, no missing device, and never into the reference store
(R257, R259, R275, R473). -/
def State.storeFor (s : State) (ag : Agent) (er : AccessErrors) (a : Nat) (bs : List (Byte × Bool)) : State :=
  let n := bs.length
  if n = 0 then s
  else if s.imageBytes a n || !s.inRegion a n then s.late ag.part ag.bit
  else if !s.writable a then
    let s := s.late ag.part ag.bit
    if isCxl a then s.fails ag.part cfParity else s
  else
    let s := s.store a bs
    let s := s.deviceErrors ag er [(a, n)]
    if bs.any (·.2) then s.late ag.part ag.bit else s

/-- A write of byte ranges (offset and bytes) of a Residency slot, with the version that the data carries. -/
def State.writeRes (s : State) (ag : Agent) (er : AccessErrors) (sel : Bool) (slot i : Nat) (parts : List (Nat × List (Byte × Bool)))
    (version : Nat) : State :=
  let p := ag.part
  let e := s.resE i
  let lane := slot == 0 && parts.length == 1
  let off := (parts.map (·.1)).headD 0
  let bs := (parts.map (·.2)).headD []
  if !(sel && Rs.enable.get e == 1 && Rs.partition.get e == p && s.resTaken i) then s.late p ag.bit
  else if lane && (s.kvPools p).contains i then
    match s.kvAccess p i off bs.length with
    | .at_ o false => (s.storeFor ag er (ResEntry.slotAddr e 0 + o) bs).tear p i 0
    | .at_ _ true => (s.late p ag.bit).incRg (Obj.KV_PREFIX_WRITES p) 1
    | .noPage => s
    | _ => s.late p ag.bit
  else if lane && i = s.rg (Obj.MASK_POOL p) then s.late p ag.bit
  else if !(slot ≤ Rs.buffers.get e && parts.all (fun r => r.1 + r.2.length ≤ ResEntry.stride e)) then s.late p ag.bit
  else if s.inSweep p i then s.sweepAccess ag
  else if (s.pt p).copyBound i slot then (s.late p ag.bit).incRg (Obj.COPY_BOUND_WRITES p) 1
  else
    let (s, bad) := s.gather ag i version
    (parts.foldl (fun t r => t.storeFor ag er (ResEntry.slotAddr e slot + r.1) (r.2.map (fun b => (b.1, b.2 || bad)))) s).tear p i slot

/-! ## Port queues (R360) -/

abbrev queueBytes : Nat := 2 ^ 20
def State.queue (s : State) (port dir : Nat) : SMap QByte := SMap.getD [] s.queues (2 * port + dir)
def State.queueWrite (s : State) (port dir off : Nat) (bs : List (Byte × Bool)) (version : Nat) : State :=
  let q := SMap.putList QByte.unwritten (s.queue port dir) off (bs.map (fun b => ⟨b.1, b.2, version⟩))
  { s with queues := SMap.put [] s.queues (2 * port + dir) q }

/-- Where queued bytes go on with another version: the offset and the version. -/
def versionRuns (off v : Nat) : List QByte → List (Nat × Nat)
  | [] => []
  | b :: l => if b.version = v then versionRuns (off + 1) v l else (off, b.version) :: versionRuns (off + 1) b.version l

/-- The version of data at an offset (R221): that of the last run that begins at or before it. -/
def versionAt (version : Nat) (runs : List (Nat × Nat)) (off : Nat) : Nat :=
  runs.foldl (fun v r => if r.1 ≤ off then r.2 else v) version

/-- The runs that begin inside `n` bytes from an offset on, counted from there. -/
def runsIn (runs : List (Nat × Nat)) (off n : Nat) : List (Nat × Nat) :=
  (runs.filter (fun r => off < r.1 && r.1 < off + n)).map (fun r => (r.1 - off, r.2))

/-! ## Endpoints -/

/-- An endpoint some bytes further on. -/
def Endpoint.plus (e : Endpoint) (d : Nat) : Endpoint :=
  match e with
  | .res sel slot i off => .res sel slot i (off + d)
  | .batt q c a => .batt q c (a + d)
  | .queue q l dir off => .queue q l dir (off + d)
  | .illegal => .illegal

/-- A read of `n` bytes from an endpoint. -/
def State.readEnd (s : State) (ag : Agent) (er : AccessErrors) (paired : Bool) (ep : Endpoint) (n : Nat) : State × Got :=
  match ep with
  | .res sel slot i off => (s.cacheHit ag er i).readRes ag er paired sel slot i [(off, n)]
  | .batt q l a =>
    match s.logicalCluster ag.part q l with
    | none => (s.late ag.part ag.bit, Got.poison n)
    | some c =>
      if a + n > battSize then (s.late ag.part ag.bit, Got.poison n)
      else
        let bs := ((s.cl c).before (s.cycleNow ag.part)).battRead a n
        if bs.any (·.2) then ((((s.late ag.part ag.bit).fails ag.part cfParity).countM ag (wEvent 3) 1), Got.of bs noVersion)
        else (s, Got.of bs noVersion)
  | .queue q l dir off =>
    match s.logicalPort ag.part q l with
    | none => (s.late ag.part ag.bit, Got.poison n)
    | some port =>
      if off + n > queueBytes then (s.late ag.part ag.bit, Got.poison n)
      else
        let qs := SMap.range QByte.unwritten (s.queue port dir) off n
        let v := match qs.head? with
          | some b => b.version
          | none => noVersion
        let bs := qs.map (fun b => (b.value, b.bad))
        (if bs.any (·.2) then s.late ag.part ag.bit else s, ⟨bs, v, true, versionRuns 0 v qs⟩)
  | .illegal => (s.late ag.part ag.bit, Got.poison n)

/-- A write of bytes to an endpoint. `er.badParity` marks batt bytes that the SRAM holds with bad parity; poisoned bytes are
written with inverted parity (R167, R279). -/
def State.writeEnd (s : State) (ag : Agent) (er : AccessErrors) (ep : Endpoint) (bs : List (Byte × Bool)) (version : Nat) : State :=
  match ep with
  | .res sel slot i off => (s.cacheHit ag er i).writeRes ag er sel slot i [(off, bs)] version
  | .batt q l a =>
    match s.logicalCluster ag.part q l with
    | none => s.late ag.part ag.bit
    | some c =>
      if a + bs.length > battSize then s.late ag.part ag.bit
      else
        let marked := ((List.range bs.length).zip bs).map (fun ib => (ib.2.1, ib.2.2 || er.badParity.contains ib.1))
        let s := s.battPut ag.part c (s.cycleNow ag.part) .burst a marked
        if bs.any (·.2) then s.late ag.part ag.bit else s
  | .queue q l dir off =>
    match s.logicalPort ag.part q l with
    | none => s.late ag.part ag.bit
    | some port =>
      if off + bs.length > queueBytes then s.late ag.part ag.bit
      else
        let s := s.queueWrite port dir off bs version
        if bs.any (·.2) then s.late ag.part ag.bit else s
  | .illegal => s.late ag.part ag.bit

/-- Data written to an endpoint from an offset on, its runs each with the version it carries (R221, R222). -/
def State.writeRuns (s : State) (ag : Agent) (er : AccessErrors) (ep : Endpoint) (off : Nat) (bs : List (Byte × Bool)) (version : Nat) :
    List (Nat × Nat) → State
  | [] => s.writeEnd ag er (Endpoint.plus ep off) bs version
  | (o, v) :: rs => (s.writeEnd ag er (Endpoint.plus ep off) (bs.take (o - off)) version).writeRuns ag er ep o (bs.drop (o - off)) v rs

/-! ## Build keys (R321) -/

/-- A read of a Residency source with SEL 0 under a nonzero BUILD: the first one records its version, a later one compares;
the second part says that the piece is poisoned. A refused read carries no version and neither records nor compares (R321). -/
def State.buildRead (s : State) (ag : Agent) (q build i version : Nat) : State × Bool :=
  let p := ag.part
  let key := (q * 65536 + build) * 524288 + i
  if build = 0 || version = noVersion then (s, false)
  else match SMap.get? (s.pt p).builds key with
    | none => (s.modPt p (fun x => { x with builds := SMap.ins x.builds key version }), false)
    | some v =>
      if v = version then (s, false)
      else (((s.late p ag.bit).incRg (Obj.BUILD_VERSION p) 1).notify 0x0044 p i build, true)

/-- END_BUILD removes every key of a build from its quarter's table. -/
def State.buildEnd (s : State) (p q build : Nat) : State :=
  s.modPt p (fun x => { x with builds := x.builds.filter (fun kv => kv.1 / 524288 != q * 65536 + build) })

end Sys2Proof.Machine
end

