-- ==== Sys2Proof/Machine/Convert.lean ====
section
/-!
DEFINITION. Conversions of stored elements (04_numerics.md R126 to R140) as memory agents make them: element codes packed in
bytes, bucket headers, block values, draws, and the storing of blocks and elements in a destination format.
-/

namespace Sys2Proof.Machine
open Sys2Proof

/-- The code of element `i` in a packed little-endian value. -/
def codeAt (v w i : Nat) : Nat := (v >>> (w * i)) % 2 ^ w

/-- Elements of `w` bits packed least significant first into bytes; a byte is poisoned when an element in it is. -/
def packCodes (w : Nat) (cs : List (Nat × Bool)) : List (Byte × Bool) :=
  let n := ceilDiv (w * cs.length) 8
  let v := cs.foldr (fun c acc => (c.1 % 2 ^ w) + acc * 2 ^ w) 0
  let bad := fun j => ((List.range cs.length).zip cs).any (fun ic => ic.2.2 && w * ic.1 / 8 ≤ j && j ≤ (w * ic.1 + w - 1) / 8)
  let anyBad := cs.any (·.2)
  ((List.range n).zip (leBytes n v)).map (fun jb => (jb.2, anyBad && bad jb.1))

/-- The exponent of OUTER of a valid bucket header (R126); none for any other header. -/
def headerOuter (h : List Byte) : Option Int :=
  if outerValid (leNat (h.take 4)) && (h.drop 16).all (· == 0) then some (outerExp (leNat (h.take 4))) else none

/-- The values of a block: element codes under an E8M0 scale, times OUTER for BS16; a header that is not valid makes every
element NaN (R126). -/
def blockValues (f : Nat) (outer : Option Int) (scale : Nat) (codes : List Nat) : List XVal :=
  match outer with
  | some o => codes.map (fun c => (e8m0Scale scale (decodeElem f c)).scale o)
  | none => codes.map (fun _ => .nan)

/-- JOB_SEED of the job that a partition runs. -/
def State.jobSeed (s : State) (p : Nat) : Nat :=
  match (s.pt p).slice with
  | some r => Job.jobSeed.get ((s.pt p).job r.job)
  | none => 0

/-- The draw of an element of a tensor under the running job and step (R139, R140). -/
def State.drawFor (s : State) (p tensor mb e : Nat) : Nat := drawOf (s.jobSeed p) (s.pt p).step tensor mb e

/-- The logical index of lane `l` of block `blk` of an entry; none for a padding lane (R124, R140). -/
def ResEntry.laneIndex (e : ResEntry) (blk l : Nat) : Option Nat :=
  let nb := ceilDiv (Rs.cols.get e) 32
  let c := 32 * (blk % nb) + l
  if nb = 0 || c ≥ Rs.cols.get e then none else some (blk / nb * Rs.cols.get e + c)

/-- One stored block: scale, codes and status. A poisoned block is scale 0xFF with element codes 0 (R134), as is one whose
destination header is not valid (R126). -/
def storeBlock (f : Nat) (outer : Option Int) (bad : Bool) (xs : List XVal) (rs : List Rnd) : Nat × List Nat × Nat :=
  match outer with
  | some o => if bad then (0xFF, List.replicate 32 0, cvNan) else quantizeBlock f o xs rs
  | none => (0xFF, List.replicate 32 0, cvNan)

/-- A list cut into rows of `k`. -/
def chunks {α : Type} (k : Nat) : Nat → List α → List (List α)
  | 0, _ => []
  | n + 1, l => l.take k :: chunks k n (l.drop k)

/-! ## Blocks of an entry (R283) -/

/-- The lanes of block `b` that are not padding. -/
def ResEntry.blockLanes (e : ResEntry) (b : Nat) : Nat :=
  let nb := ceilDiv (Rs.cols.get e) 32
  if nb = 0 then 0 else Nat.min 32 (Rs.cols.get e - 32 * (b % nb))

/-- Offset and bytes of the elements of block `b` in a slot: whole blocks in a block-scaled format, else the elements of the
row that the block covers. -/
def ResEntry.blockRange (e : ResEntry) (b : Nat) : Nat × Nat :=
  let f := Rs.format.get e
  let nb := ceilDiv (Rs.cols.get e) 32
  if f = 0x10 then (64 + 64 * b, 64)
  else if fmtBlockScaled f then (b * 4 * fmtBits f, 4 * fmtBits f)
  else ((b / nb * Rs.cols.get e + 32 * (b % nb)) * (fmtBits f / 8), ResEntry.blockLanes e b * (fmtBits f / 8))

/-- The offset of the scale of block `b`, in a block-scaled format. -/
def ResEntry.blockScaleAt (e : ResEntry) (b : Nat) : List Nat := if fmtBlockScaled (Rs.format.get e) then [ResEntry.scaleOffset e + b] else []

/-- The 32 values of a block from its bytes (padding lanes are +0), with their poison. `hdr` is the slot's bucket header. -/
def ResEntry.blockValues (e : ResEntry) (b : Nat) (bs scale hdr : List (Byte × Bool)) : List (XVal × Bool) :=
  let f := Rs.format.get e
  let w := fmtBits f
  let v := leNat (bs.map (·.1))
  let bad := bs.any (·.2) || scale.any (·.2) || (f == 0x10 && hdr.any (·.2))
  let outer := if f = 0x10 then headerOuter (hdr.map (·.1)) else some 0
  let sc := leNat ((scale.take 1).map (·.1))
  (List.range 32).map (fun l =>
    if l ≥ ResEntry.blockLanes e b then (XVal.zero, false)
    else
      let c := codeAt v w l
      (if fmtBlockScaled f then (Sys2Proof.Machine.blockValues f outer sc [c]).headD .nan else decodeElem f c, bad))

/-- The bytes of a block that stores 32 values: element bytes, scale byte, and conversion status; `rnd` rounds each lane. -/
def ResEntry.storeValues (e : ResEntry) (b : Nat) (outer : Option Int) (bad : Bool) (xs : List XVal) (rnd : Nat → Rnd) :
    List (Byte × Bool) × List (Byte × Bool) × Nat :=
  let f := Rs.format.get e
  let n := ResEntry.blockLanes e b
  if fmtBlockScaled f then
    let ys := ((List.range 32).zip xs).map (fun lx => if lx.1 < n then lx.2 else .zero)
    let (sc, cs, cv) := storeBlock f outer bad ys ((List.range 32).map rnd)
    (packCodes (fmtBits f) (cs.map (·, bad)), [(BitVec.ofNat 8 sc, bad)], cv)
  else
    let out := ((List.range n).zip xs).map (fun lx => encodeUnscaled f false (rnd lx.1) 0 (if bad then .nan else lx.2))
    (packCodes (fmtBits f) (out.map (fun c => (c.1, bad))), [], out.foldl (fun c o => c ||| o.2) 0)

end Sys2Proof.Machine
end

