-- ==== Sys2Proof/Machine/Burst.lean ====
section
/-!
DEFINITION. Scheduled bursts (02_tick_and_schedule.md R39, R40; 08_memory_and_residency.md R260 to R264): when one starts, what
it reads, converts and writes, and by when it completes.
-/

namespace Sys2Proof.Machine
open Sys2Proof

/-! ## Devices, quarters and bounds -/

/-- The device address at which an endpoint access lies, where it is in device memory. -/
def State.endAddr (s : State) (p pos : Nat) (ep : Endpoint) : Option Nat :=
  match ep with
  | .res sel k i off =>
    let e := s.resSeen p pos i
    some (if sel && k = 0 && ((s.kvPools p).contains i || i = s.rg (Obj.MASK_POOL p)) then ResEntry.slotAddr e 0
          else ResEntry.slotAddr e (ResEntry.accessSlot e sel k) + off)
  | _ => none

/-- The number of the memory controller of a device address: 0 to 47 for GDDR7, 48 + x for CXL (14). -/
def ctrlOf (a : Nat) : Option Nat :=
  if isGddr a then some (a / 2 ^ 32)
  else if isCxl a then some (48 + (a - 0x1000_0000_0000) / 0x0200_0000_0000)
  else none

/-- The quarter of a memory controller. -/
def ctrlQuarter (m : Nat) : Nat := if m < 48 then m / 12 else (m - 48) / 2

/-- The controllers whose order and bus a burst takes (R260). -/
def State.burstCtrls (s : State) (p : Nat) (e : Burst) : List Nat :=
  ([Bu.source.get e, Bu.dest.get e].filterMap (fun w => (s.endAddr p (Bu.startNs.get e) (endpointOf w)).bind ctrlOf)).eraseDups

/-- The quarter of an endpoint at a position. -/
def State.endQuarter (s : State) (p pos : Nat) (ep : Endpoint) : Nat :=
  match ep with
  | .batt q _ _ => q
  | .queue q _ _ _ => q
  | _ => match (s.endAddr p pos ep).bind ctrlOf with
    | some m => ctrlQuarter m
    | none => 0

/-- The quarter whose memory controllers answer for a burst: that of its first Residency endpoint, else of its source. -/
def State.burstQuarter (s : State) (p : Nat) (e : Burst) : Nat :=
  let src := endpointOf (Bu.source.get e)
  let dst := endpointOf (Bu.dest.get e)
  match src, dst with
  | .res .., _ => s.endQuarter p (Bu.startNs.get e) src
  | _, .res .. => s.endQuarter p (Bu.startNs.get e) dst
  | _, _ => s.endQuarter p (Bu.startNs.get e) src

/-- The read bound of R43 in ns for a device address, across quarters or not. -/
def readBound (a : Nat) (cross : Bool) : Nat :=
  if isGddr a then (if cross then 300 else 260) else if isCxl a then (if cross then 940 else 900) else 120000
/-- The write bound. -/
def writeBound (a : Nat) (cross : Bool) : Nat := (if isGddr a then 200 else 700) + (if cross then 40 else 0)
/-- The minimum streaming rate in bytes per ns. -/
def minRate (a : Nat) : Nat := if isGddr a then 180 else if isCxl a then 60 else 48

/-- The partition's share of a CXL port with its Kettle unit, in units of 1/64 (R28). -/
def State.cxlShare (s : State) (p x : Nat) : Nat :=
  match (s.pt p).built with
  | some r => r.shares.getD (4 + x) 0
  | none => 0

/-- The bytes that a device streams at least in 64 ns for a partition: a CXL port at the partition's share (R29). -/
def State.shareRate (s : State) (p a : Nat) : Nat :=
  minRate a * (if isCxl a then s.cxlShare p ((ctrlOf a).getD 48 - 48) else 64)

/-- The ns that `n` bytes take at `r` bytes per 64 ns; without capacity they never arrive. -/
def streamNs (n r : Nat) : Nat := if n = 0 then 0 else if r = 0 then 10 ^ 15 else ceilDiv (64 * n) r

/-! ### Die-to-die links (R22, R29): 0 to 5 between quarters, in the order of LINK_PARITY, 6 to 9 to the hub -/

/-- The link between two quarters; none within one. -/
def linkBetween (a b : Nat) : Option Nat :=
  if a = b then none
  else
    let lo := Nat.min a b
    let hi := Nat.max a b
    some (if lo = 0 then hi - 1 else if lo = 1 then hi + 1 else 5)

/-- The bytes that a link carries in 64 ns at the partition's share of it. -/
def State.linkRate (s : State) (p l : Nat) : Nat :=
  match (s.pt p).built with
  | some r => (if l < 6 then 1600 else 400) * r.shares.getD (12 + l) 0
  | none => 0

/-- The link that a burst crosses: that between the quarters of its ends, or the hub link of the quarter that the reference store
serves. -/
def State.burstLink (s : State) (p : Nat) (e : Burst) : Option Nat :=
  let pos := Bu.startNs.get e
  let src := endpointOf (Bu.source.get e)
  let q := s.endQuarter p pos (endpointOf (Bu.dest.get e))
  match s.endAddr p pos src with
  | some a => if isRef a then some (6 + q) else linkBetween (s.endQuarter p pos src) q
  | none => linkBetween (s.endQuarter p pos src) q

/-- Source and destination bytes of a converting or plain burst. -/
def burstBytes (e : Burst) : Nat × Nat :=
  let n := Bu.length.get e
  if Bu.convert.get e = 0 then (n, n)
  else
    let ws := fmtBits (Bu.srcFormat.get e)
    let k := if ws = 0 then 0 else 8 * n / ws
    (n, ceilDiv (k * fmtBits (Bu.dstFormat.get e)) 8)

/-- The ns by which a burst completes after its start under the contract (R261, R381); between ends outside device memory at the
256 B per cycle of the burst port (R278; log 28), and over a die-to-die link at the partition's share of it (R29). -/
def State.burstBound (s : State) (p : Nat) (e : Burst) : Nat :=
  let pos := Bu.startNs.get e
  let src := endpointOf (Bu.source.get e)
  let dst := endpointOf (Bu.dest.get e)
  let link := s.burstLink p e
  let cross := match link with
    | some l => l < 6
    | none => false
  let (b1, b2) := burstBytes e
  let n := Nat.max b1 b2 - 64
  let ra := s.endAddr p pos src
  let wa := s.endAddr p pos dst
  let lane := fun ep => match ep with
    | Endpoint.res true 0 i _ => if (s.kvPools p).contains i || i = s.rg (Obj.MASK_POOL p) then 40 else 0
    | _ => 0
  let stream := match ra, wa with
    | some a, some b => streamNs n (Nat.min (s.shareRate p a) (s.shareRate p b))
    | some a, none => streamNs n (s.shareRate p a)
    | none, some b => streamNs n (s.shareRate p b)
    | none, none => ceilDiv (10 * ceilDiv (Nat.max b1 b2) 256) 19
  let stream := match link with
    | some l => Nat.max stream (streamNs n (s.linkRate p l))
    | none => stream
  (match ra with
    | some a => readBound a cross
    | none => 0) + stream + (match wa with
    | some a => writeBound a cross
    | none => 0) + (if ra.isNone && wa.isNone && cross then 40 else 0) + lane src + lane dst

/-! ## Order and start -/

def SliceRun.burst (r : SliceRun) (n : Nat) : ItemRun := SMap.getD ItemRun.none r.bursts n
def SliceRun.setBurst (r : SliceRun) (n : Nat) (x : ItemRun) : SliceRun := { r with bursts := SMap.put ItemRun.none r.bursts n x }

/-- Whether burst `m` precedes burst `n`: an earlier START_NS, or an equal one earlier in the schedule. -/
def burstBefore (x y : Burst) (m n : Nat) : Bool := Bu.startNs.get x < Bu.startNs.get y || (Bu.startNs.get x == Bu.startNs.get y && m < n)

/-- The bursts of a slice that precede burst `n` on one of its devices. -/
def State.burstsBefore (s : State) (p b k n : Nat) : List Nat :=
  let y := s.burst b k n
  let ds := s.burstCtrls p y
  (List.range (s.burstCount b k)).filter (fun m =>
    m != n && burstBefore (s.burst b k m) y m n && (s.burstCtrls p (s.burst b k m)).any (fun d => ds.contains d))

/-- The position at which burst `n` starts (R260): its START_NS, or the end of the previous bursts on its devices. -/
def State.burstStart (s : State) (p b k n : Nat) (r : SliceRun) : Nat :=
  (s.burstsBefore p b k n).foldl (fun t m => Nat.max t (r.burst m).finish) (Bu.startNs.get (s.burst b k n))

/-- Whether burst `n` may start: it waits, its predecessors have ended, and it would start before the closing guard. -/
def State.burstReady (s : State) (p n : Nat) : Bool :=
  match s.running p with
  | some (b, k, r) =>
    n < s.burstCount b k && (r.burst n).state == .waiting && !r.guard
      && (s.burstsBefore p b k n).all (fun m => (r.burst m).state == .finished || (r.burst m).state == .notTaken)
      && s.burstStart p b k n r < (s.pt p).guardPos
  | none => false

/-! ## Conversion (R39) -/

/-- The 64 B bucket header of a BS16 endpoint: at the start of a Residency slot, in the 64 B before batt elements; for a port queue,
of which R39 does not speak, in the 64 B before the endpoint's OFFSET (log 101). -/
def State.endHeader (s : State) (p pos : Nat) (ep : Endpoint) : List (Byte × Bool) :=
  match ep with
  | .res sel k i _ => let e := s.resSeen p pos i
    s.memRead (ResEntry.slotAddr e (ResEntry.accessSlot e sel k)) 64
  | .batt q l a => match s.logicalCluster p q l with
    | some c => (s.cl c).battRead (a - 64) 64
    | none => List.replicate 64 (0, true)
  | .queue q l d off => match s.logicalPort p q l with
    | some port => (SMap.range QByte.unwritten (s.queue port d) (off - 64) 64).map (fun b => (b.value, b.bad))
    | none => List.replicate 64 (0, true)
  | .illegal => List.replicate 64 (0, true)

/-- The endpoint of the scale bytes that go with `n` element bytes of an endpoint. -/
def State.scaleEnd (s : State) (p pos f : Nat) (ep : Endpoint) (n : Nat) : Endpoint :=
  match ep with
  | .res sel k i off =>
    let e := s.resSeen p pos i
    let blk := if fmtPlainFP8 f then 0 else (if f = 0x10 then (off - 64) / 64 else off / (4 * fmtBits f))
    .res sel k i (ResEntry.scaleOffset e + blk)
  | .batt q l a => .batt q l (a + n)
  | .queue q l d off => .queue q l d (off + n)
  | .illegal => .illegal

/-- The elements of a source: values with their poison. -/
def sourceElems (f n : Nat) (bs : List (Byte × Bool)) (scales : List (Byte × Bool)) (hdr : List (Byte × Bool)) : List (XVal × Bool) :=
  let w := fmtBits f
  let v := leNat (bs.map (·.1))
  let anyBad := bs.any (·.2)
  let bad := fun i => anyBad && ((bs.drop (w * i / 8)).take ((w * i + w - 1) / 8 - w * i / 8 + 1)).any (·.2)
  let outer := if f = 0x10 then headerOuter (hdr.map (·.1)) else some 0
  let hbad := f == 0x10 && hdr.any (·.2)
  let ts := leNat ((scales.take 4).map (·.1))
  (List.range n).map (fun i =>
    let c := codeAt v w i
    if fmtBlockScaled f then
      let sc := (scales[i / 32]?).getD (0, true)
      (((blockValues f outer sc.1.toNat [c]).headD .nan), bad i || sc.2 || hbad)
    else if fmtPlainFP8 f then (plainFP8Value f c ts, bad i || scales.any (·.2))
    else (decodeElem f c, bad i))

/-- The rounding of one destination element: stochastic with its draw where SR applies and it has a logical index. -/
def State.burstRnd (s : State) (p : Nat) (sr : Bool) (tensor mb : Nat) (e : Option Nat) : Rnd :=
  match sr, e with
  | true, some i => .sr (s.drawFor p tensor mb i)
  | _, _ => .rne

/-- The destination bytes of a converting burst: element bytes, then scale bytes; and the conversion status. `first` is the
first block (block-scaled) or element (otherwise) of the destination that the burst covers. -/
def State.convertElems (s : State) (p f : Nat) (res : Option (Nat × ResEntry)) (sr : Bool) (mb first : Nat)
    (outer : Option Int) (hbad : Bool) (scale : Nat) (xs : List (XVal × Bool)) : List (Byte × Bool) × List (Byte × Bool) × Nat :=
  let tensor := (res.map (·.1)).getD 0
  if fmtBlockScaled f then
    let bl := chunks 32 (xs.length / 32) xs
    let out := ((List.range bl.length).zip bl).map (fun jb =>
      let ix := fun l => match res with
        | some re => ResEntry.laneIndex re.2 (first + jb.1) l
        | none => some (32 * (first + jb.1) + l)
      let vals := ((List.range 32).zip jb.2).map (fun lx => if (ix lx.1).isNone then (XVal.zero, false) else lx.2)
      let bad := vals.any (·.2) || hbad
      let (sc, cs, cv) := storeBlock f outer bad (vals.map (·.1)) ((List.range 32).map (fun l => s.burstRnd p sr tensor mb (ix l)))
      (cs.map (·, bad), (BitVec.ofNat 8 sc, bad), cv))
    (packCodes (fmtBits f) (out.flatMap (·.1)), out.map (·.2.1), out.foldl (fun c o => c ||| o.2.2) 0)
  else
    let out := ((List.range xs.length).zip xs).map (fun ix =>
      let (c, cv) := encodeUnscaled f false (s.burstRnd p sr tensor mb (some (first + ix.1))) scale (if ix.2.2 then .nan else ix.2.1)
      ((c, ix.2.2 || hbad), cv))
    (packCodes (fmtBits f) (out.map (·.1)), [], out.foldl (fun c o => c ||| o.2) 0)

/-- Whether element `i` of a block-scaled source is padding of its entry's row, which reads as +0 (R124). -/
def State.srcPadded (s : State) (src : Endpoint) (f i : Nat) : Bool :=
  match src with
  | .res _ _ r off =>
    let first := if f = 0x10 then (off - 64) / 64 else off / (4 * fmtBits f)
    fmtBlockScaled f && (ResEntry.laneIndex (s.resE r) (first + i / 32) (i % 32)).isNone
  | _ => false

/-- What a converting burst will write: element bytes, scale bytes, conversion status, and whether a bucket header was not
valid. -/
def State.burstConvert (s : State) (p pos : Nat) (e : Burst) (mbBase : Nat) (bs scales : List (Byte × Bool)) :
    List (Byte × Bool) × List (Byte × Bool) × Nat × Bool :=
  let sf := Bu.srcFormat.get e
  let df := Bu.dstFormat.get e
  let src := endpointOf (Bu.source.get e)
  let dst := endpointOf (Bu.dest.get e)
  let n := if fmtBits sf = 0 then 0 else 8 * bs.length / fmtBits sf
  let shdr := s.endHeader p pos src
  let dhdr := s.endHeader p pos dst
  let xs := (sourceElems sf n bs scales shdr).zip (List.range n) |>.map (fun xi => if s.srcPadded src sf xi.2 then (XVal.zero, false) else xi.1)
  let mb := if Bu.mbTag.get e = 0 then 0xFFFFFFFF else mbBase + Bu.mbTag.get e - 1
  let dn := ceilDiv (n * fmtBits df) 8
  let res := match dst with
    | .res _ _ i _ => some (i, s.resE i)
    | _ => none
  let off := match dst with
    | .res _ _ _ o => o
    | _ => 0
  let first := if df = 0x10 then (off - 64) / 64 else if fmtBlockScaled df then off / (4 * fmtBits df) else 8 * off / fmtBits df
  let sr := Bu.sr.get e = 1 || (match res with
    | some re => Rs.class_.get re.2 == classGradient
    | none => false)
  let outer := if df = 0x10 then headerOuter (dhdr.map (·.1)) else some 0
  let dsc := if fmtPlainFP8 df then
      (match s.scaleEnd p pos df dst dn with
        | .res sel k i o => let en := s.resE i
          s.memRead (ResEntry.slotAddr en (ResEntry.accessSlot en sel k) + o) 4
        | .batt q l a => (match s.logicalCluster p q l with
          | some c => (s.cl c).battRead a 4
          | none => List.replicate 4 (0, true))
        | .queue q l d o => (match s.logicalPort p q l with
          | some port => (SMap.range QByte.unwritten (s.queue port d) o 4).map (fun b => (b.value, b.bad))
          | none => List.replicate 4 (0, true))
        | .illegal => List.replicate 4 (0, true)) else []
  let hbad := (df == 0x10 && dhdr.any (·.2)) || dsc.any (·.2)
  let (eb, sb, cv) := s.convertElems p df res sr mb first outer hbad (leNat (dsc.map (·.1))) xs
  (eb, sb, cv, (sf == 0x10 && (headerOuter (shdr.map (·.1))).isNone) || (df == 0x10 && outer.isNone))

/-! ## The commands -/

/-- The agent of a burst at a position. -/
def State.burstAgent (s : State) (p pos : Nat) (e : Burst) : Agent :=
  ⟨p, pos, lateMemory (s.burstQuarter p e), (s.burstCtrls p e).head?⟩

/-- The data of a burst that starts: what it reads, checks and converts. -/
def State.burstRead (s : State) (ag : Agent) (er : AccessErrors) (e : Burst) (mbBase : Nat) : State × ItemRun :=
  let p := ag.part
  let src := endpointOf (Bu.source.get e)
  let n := Bu.length.get e
  let (s, g) := s.readEnd ag er true src n
  let (s, stale) := match src with
    | .res false _ i _ => s.buildRead ag (s.burstQuarter p e) (Bu.build.get e) i g.version
    | _ => (s, false)
  let (s, hit) := s.pathErrors ag er
  let bs := g.bytes.map (fun b => (b.1, b.2 || stale || hit))
  if !g.moved then (s, ⟨.running, ag.pos, 0, [], noVersion, 0, []⟩)
  else if Bu.convert.get e = 0 then (s, ⟨.running, ag.pos, 0, bs, g.version, n, g.runs⟩)
  else
    let sf := Bu.srcFormat.get e
    let ns := if fmtPlainFP8 sf then 4 else if fmtBlockScaled sf then n / (4 * fmtBits sf) else 0
    let (s, sc) := if ns = 0 then (s, Got.nothing) else s.readEnd ag AccessErrors.none false (s.scaleEnd p ag.pos sf src n) ns
    let (eb, sb, cv, bad) := s.burstConvert p ag.pos e mbBase bs sc.bytes
    let s := s.raiseConv p cv
    let s := if bad || (eb ++ sb).any (·.2) then s.late p ag.bit else s
    let runs := g.runs.map (fun r => (8 * r.1 / fmtBits sf * fmtBits (Bu.dstFormat.get e) / 8, r.2))
    (s, ⟨.running, ag.pos, 0, eb ++ sb, g.version, eb.length, runs⟩)

/-- Conditions of the contract that fail at a memory controller (R44, R263): high-temperature refresh, retraining, removal. -/
def State.ctrlConds (s : State) (p m : Nat) : State :=
  if m < 48 then
    let s := if s.rg (Obj.DEV_STATE m) == devHot then s.fails p cfRefresh else s
    if s.rg (Obj.DEV_STATE m) == devTraining then s.fails p cfMaint else s
  else if s.rg (Obj.CXL_STATE (m - 48)) == cxlRemoving then s.fails p cfMaint else s

/-- Conditions of the contract that a burst finds failed at its devices (R44, R263). -/
def State.burstConds (s : State) (p : Nat) (e : Burst) : State := (s.burstCtrls p e).foldl (fun t m => t.ctrlConds p m) s

/-- BURST (R260): burst `n` of the slice starts. A burst whose alternative was not taken moves no data and keeps its position
and duration (R72); an undecided branch point makes the slice late (R40). -/
def execBurst (p : PartId) (n : Nat) (errs : AccessErrors) (s : State) : Out :=
  takes (s.burstReady p n) s (fun s =>
    match s.running p with
    | none => s
    | some (b, k, r) =>
      let e := s.burst b k n
      let start := s.burstStart p b k n r
      let s := s.at ((s.pt p).edgeNs + start)
      let ag := s.burstAgent p start e
      match s.altRead p (Bu.alt.get e) (Bu.startNs.get e) with
      | .taken =>
        let s := s.burstConds p e
        let (s, x) := s.burstRead ag errs e (s.sliceHdr b k).mbBase
        s.modPt p (·.modSlice (·.setBurst n x))
      | a =>
        let s := match a with
          | .undecided c => (s.countC c 1 c (wEvent 3) 1).lateC c
          | _ => s
        let x : ItemRun := ⟨.notTaken, start, start + s.burstBound p e, [], noVersion, 0, []⟩
        s.modPt p (·.modSlice (·.setBurst n x)))

/-- The Kettle unit that a UNIT byte names (07): bit 7 set for a CXL port, bits 6 and 5 the quarter, the rest the logical
device or port. -/
def State.unitOf (s : State) (p w : Nat) : Option Nat :=
  match (s.pt p).built with
  | some rs =>
    if w < 128 then logicalToPhysical rs.devices 12 (w / 32 % 4) (w % 32)
    else (logicalToPhysical (rs.cxl.foldl (fun m c => setBit m c.1) 0) 2 (w / 32 % 4) (w % 32)).map (· + 48)
  | none => none

/-- Whether an item has run within an interval of positions: it still runs, or ended after the interval began. -/
def ItemRun.during (x : ItemRun) (from_ until_ : Nat) : Bool :=
  x.start ≤ until_ && (x.state == .running || (x.state == .finished && from_ ≤ x.finish))

/-- Whether a Kettle item has shared a device with a burst in the burst's interval (R262); the bound of R261 then does not hold. -/
def State.sharesBus (s : State) (p : Nat) (e : Burst) (r : SliceRun) (b k from_ until_ : Nat) : Bool :=
  r.kettle.any (fun kv => kv.2.during from_ until_ &&
    (match s.unitOf p ((fb 0x06 1).get (s.kettleEntry b k kv.1)) with
     | some m => (s.burstCtrls p e).contains m
     | none => false))

/-- Whether a burst may complete at a position: after its start, before the edge, and by its bound while every condition of the
contract holds (R261). -/
def State.burstEnds (s : State) (p n at_ : Nat) : Bool :=
  match s.running p with
  | some (b, k, r) =>
    let x := r.burst n
    x.state == .running && x.start ≤ at_ && at_ < (s.pt p).tickNs
      && (r.cond != 0 || s.sharesBus p (s.burst b k n) r b k x.start at_ || at_ ≤ x.start + s.burstBound p (s.burst b k n))
  | none => false

/-- BURST_COMPLETE (R261): burst `n` completes at a position of the tick: its bytes are in place. -/
def execBurstComplete (p : PartId) (n at_ : Nat) (errs : AccessErrors) (s : State) : Out :=
  takes (s.burstEnds p n at_) s (fun s =>
    match s.running p with
    | none => s
    | some (b, k, r) =>
      let e := s.burst b k n
      let x := r.burst n
      let s := s.at ((s.pt p).edgeNs + at_)
      let ag := s.burstAgent p at_ e
      let dst := endpointOf (Bu.dest.get e)
      let eb := x.data.take x.aux
      let sb := x.data.drop x.aux
      let s := if eb.isEmpty then s
        else match dst, s.scaleEnd p at_ (Bu.dstFormat.get e) dst eb.length with
          | .res sel slot i off, .res _ _ _ off2 =>
            if sb.isEmpty || !x.runs.isEmpty then
              (s.writeRuns ag errs dst 0 eb x.version x.runs).writeEnd ag errs (.res sel slot i off2) sb (versionAt x.version x.runs eb.length)
            else (s.cacheHit ag errs i).writeRes ag errs sel slot i [(off, eb), (off2, sb)] x.version
          | _, _ => s.writeRuns ag errs dst 0 (eb ++ sb) x.version x.runs
      let s := if Bu.endBuild.get e = 1 then s.buildEnd p (s.burstQuarter p e) (Bu.build.get e) else s
      let s := (s.countM ag (wEvent 0) 1).countM ag wBusy (nsCycle at_ - nsCycle x.start)
      s.modPt p (·.modSlice (·.setBurst n { x with state := .finished, finish := at_, data := [] })))

end Sys2Proof.Machine
end

