-- ==== Sys2Proof/Machine/NapOps.lean ====
section
/-!
DEFINITION. Lane values and operations of the Nap engine (05_nap_engine.md, Operations, R166, R178 to R181, R190 to R197).
-/

namespace Sys2Proof.Machine
open Sys2Proof

/-- A lane value: a 32-bit pattern without a type (tile register, constant, DRAW), an FP32 or INT32 pattern, an exact value of
a format no wider than FP32, a W40, BS16 or scaled value, or a value read from a brim register (R166, R180; log 37). -/
inductive NVal
  | raw (b : Nat)
  | fp (b : Nat)
  | int (b : Nat)
  | exact (x : XVal)
  | wide (x : XVal)
  | brim (x : XVal)
  deriving DecidableEq, Repr

/-- The exact value that a store, a row operation, a SUM operation, TOPK or TOINT takes (R180). -/
def NVal.exactOf : NVal → XVal
  | .raw b => fFP32.decode b
  | .fp b => fFP32.decode b
  | .int b => XVal.ofInt (signed 32 b)
  | .exact x => x
  | .wide x => x
  | .brim x => x

/-- The value an FP32 operation takes, with the status of its entry conversion (R180). -/
def NVal.asFP : NVal → XVal × Nat
  | .raw b => (fFP32.decode b, 0)
  | .fp b => (fFP32.decode b, 0)
  | .int b => (fFP32.decode (Config.fp32OfInt (BitVec.ofNat 32 b)).toNat, 0)
  | .exact x => (x, 0)
  | .wide x => let (c, cv) := fFP32.encode false .rne x; (fFP32.decode c, cv)
  | .brim x => let (c, cv) := fFP32.encode false .rne x; (fFP32.decode c, cv)

/-- The value taken by DIV as divisor and by LN as operand: exact from a brim register (R180). -/
def NVal.asExactFP : NVal → XVal × Nat
  | .brim x => (x, 0)
  | v => v.asFP

/-- The 32 bits an integer operation takes. -/
def NVal.asInt : NVal → Nat
  | .raw b => b % 2 ^ 32
  | .fp b => b % 2 ^ 32
  | .int b => b % 2 ^ 32
  | .exact x => wideInt x
  | .wide x => wideInt x
  | .brim x => wideInt x
where
  wideInt (x : XVal) : Nat :=
    match x with
    | .fin n m e => (Config.intOfWide n m e).toNat
    | .inf n => (Config.intOfWide n 0 1).toNat
    | .nan => (Config.intOfWide false 0 2).toNat

/-- Whether an operand used as a mask is set (R181). -/
def NVal.isSet : NVal → Bool
  | .raw b => b % 2 ^ 31 != 0
  | .fp b => b % 2 ^ 31 != 0
  | .int b => b % 2 ^ 32 != 0
  | .exact x => !x.isZero
  | .wide x => !x.isZero
  | .brim x => !x.isZero

/-- An FP32 code, or in BF16 lane mode a BF16 code widened to FP32 bits (R178). -/
def laneFp (bf : Bool) (code : Nat) : NVal := .fp (if bf then code * 2 ^ 16 else code)
def laneFmt (bf : Bool) : FFmt := if bf then fBF16 else fFP32
/-- An exact result rounded to nearest even into the lane format. -/
def laneRound (bf : Bool) (x : XVal) : NVal := laneFp bf ((laneFmt bf).encode false .rne x).1
/-- A lane result as the operand of the next step of an expansion. -/
def laneVal (v : NVal) : XVal := v.exactOf

def nTrue : NVal := .fp 0x3F800000
def nFalse : NVal := .fp 0
def nMask (b : Bool) : NVal := if b then nTrue else nFalse

/-- A comparison by IMM[2:0] of CMP and ICMP. -/
def cmpCode (c : Nat) (lt eq gt : Bool) : Bool :=
  match c with
  | 0 => lt
  | 1 => lt || eq
  | 2 => eq
  | 3 => !eq
  | 4 => gt || eq
  | _ => gt

/-- CMP of two values: ordered comparisons with NaN are false, NE is true (R181). -/
def cmpVals (c : Nat) (a b : XVal) : Bool :=
  if a.isNan || b.isNan then c == 3 else cmpCode c (a.lt b) (a.eq b) (b.lt a)

/-- SIGMOID as its expansion, a rounding after each step, NEG's too (R179). -/
def sigmoidLane (bf : Bool) (a : XVal) : NVal :=
  let e := laneFp bf ((laneFmt bf).ofRes (expOf (laneVal (laneRound bf a.neg))))
  let d := laneRound bf ((laneVal e).add .one)
  laneFp bf ((laneFmt bf).quot .one (laneVal d))

/-- The element operations 0x01 to 0x2C: result and raised status bits. -/
def elemOp (bf : Bool) (code : Nat) (a b c : NVal) (imm : Nat) : NVal × Nat :=
  let f := laneFmt bf
  let (x, cx) := a.asFP
  let (y, cy) := b.asFP
  match code with
  | 0x01 => (a, 0)
  | 0x02 => (laneRound bf (x.add y), cx ||| cy)
  | 0x03 => (laneRound bf (x.sub y), cx ||| cy)
  | 0x04 => (laneRound bf (x.mul y), cx ||| cy)
  | 0x05 => let (z, cz) := c.asFP; (laneRound bf ((x.mul y).add z), cx ||| cy ||| cz)
  | 0x06 => (laneRound bf (x.min y), cx ||| cy)
  | 0x07 => (laneRound bf (x.max y), cx ||| cy)
  | 0x08 => (laneRound bf x.abs, cx)
  | 0x09 => (laneRound bf x.neg, cx)
  | 0x0A => let (d, cd) := b.asExactFP; (laneFp bf (f.quot x d), cx ||| cd)
  | 0x0B => (laneFp bf (f.quot .one x), cx)
  | 0x0C => (laneFp bf (f.ofRes (sqrtOf x)), cx)
  | 0x0D => (laneFp bf (f.ofRes (rsqrtOf x)), cx)
  | 0x0E => (laneFp bf (f.ofRes (expOf x)), cx)
  | 0x0F => (laneFp bf (f.ofRes (exp2Of x)), cx)
  | 0x10 => let (z, cz) := a.asExactFP; (laneFp bf (f.ofSigned (lnOf z)), cz)
  | 0x11 => (laneFp bf (f.ofSigned (log2Of x)), cx)
  | 0x12 => (laneFp bf (f.ofSigned (tanhOf x)), cx)
  | 0x18 => (sigmoidLane bf x, cx)
  | 0x19 => (laneRound bf (x.mul (laneVal (sigmoidLane bf x))), cx)
  | 0x20 => (nMask (cmpVals (imm % 8) x y), cx ||| cy)
  | 0x21 => (selectIn (if c.isSet then a else b), cx ||| cy)
  | 0x22 => (nMask (a.isSet && b.isSet), 0)
  | 0x23 => (nMask (a.isSet || b.isSet), 0)
  | 0x24 => (nMask !a.isSet, 0)
  | 0x28 => (.int ((a.asInt + b.asInt) % 2 ^ 32), 0)
  | 0x29 => (.int ((a.asInt + 2 ^ 32 - b.asInt) % 2 ^ 32), 0)
  | 0x2A =>
    let u := a.asInt
    let v := b.asInt
    if imm.testBit 3 then (nMask (cmpCode (imm % 8) (u < v) (u == v) (v < u)), 0)
    else (nMask (cmpCode (imm % 8) (signed 32 u < signed 32 v) (u == v) (signed 32 v < signed 32 u)), 0)
  | 0x2B => (.fp (rneFP32 (XVal.ofInt (signed 32 a.asInt))), 0)
  | _ => let (v, cv) := encodeUnscaled 0x12 false .rne 0 a.exactOf; (.int v, cv)
where
  /-- A W40, BS16 or scaled value of SELECT becomes FP32; another is carried (R180). -/
  selectIn (v : NVal) : NVal :=
    match v with
    | .wide _ => .fp (rneFP32 v.asFP.1)
    | .brim _ => .fp (rneFP32 v.asFP.1)
    | w => w

/-! ## Row operations (R190 to R192) -/

/-- A W40 code of an exact value. -/
def w40Code (x : XVal) : Nat := (w40Round x).1
/-- The number of present elements. -/
def presentCount (xs : List (Option XVal)) : Nat := (xs.filter (·.isSome)).length
/-- Summary flags of a reduction's result: EMPTY and NAN. -/
def reduceFlags (empty nan : Bool) : Nat := (if empty then 2 ^ zEmpty else 0) ||| (if nan then 2 ^ zNan else 0)

/-- The square root chain 1 ÷ √(RNE_FP32(v + ε)) of R191. -/
def rsqrtEps (v : Nat) (eps : Nat) : Nat := fFP32.ofRes (rsqrtOf (toFP32 ((fFP32.decode v).add (fFP32.decode eps))))

/-- RNE_FP32(W40 sum ÷ count); +0 over no element. -/
def meanOf (sum : Option Nat) (n : Nat) : Nat :=
  match sum with
  | some c => fFP32.quot (fW40.decode c) (XVal.ofNat n)
  | none => 0

/-- The brim results of a row operation over one element row: W40 codes, and flags (R160, R190, R191). -/
def rowOp (code imm : Nat) (xs : List (Option XVal)) : List Nat × Nat :=
  let n := presentCount xs
  let one := fun (c : Nat) => ([c], reduceFlags (n == 0) (fW40.decode c).isNan)
  let f := fun (c : Nat) => w40Code (fFP32.decode c)
  match code with
  | 0x38 => one ((sumTree xs).getD 0)
  | 0x39 => one ((sumSqTree xs).getD 0)
  | 0x3A => one (w40Code ((maxTree xs).getD (.inf true)))
  | 0x3B => one (w40Code ((minTree xs).getD (.inf false)))
  | 0x3C => one (f (meanOf (sumTree xs) n))
  | 0x3D =>
    let mu := meanOf (sumTree xs) n
    let ds := xs.map (·.map (fun x => toFP32 (x.sub (fFP32.decode mu))))
    let r := rsqrtEps (meanOf (sumSqTree ds) n) imm
    ([f mu, f r], reduceFlags (n == 0) ((fFP32.decode mu).isNan || (fFP32.decode r).isNan))
  | _ => one (f (rsqrtEps (meanOf (sumSqTree xs) n) imm))

/-- SOFTMAX over one row (R162, R192): FP32 outputs, the FP32 log-sum-exp, and flags. -/
def softmaxRow (xs : List (Option XVal)) : List Nat × Nat × Nat :=
  let present := xs.filterMap id
  let infs := (present.filter (fun x => x == .inf false)).length
  if present.any (·.isNan) then
    (xs.map (fun x => if x.isSome then 0x7FC00000 else 0), 0x7FC00000, 2 ^ zNan)
  else if present.all (fun x => x == .inf true) then (xs.map (fun _ => 0), 0xFF800000, 2 ^ zEmpty)
  else if infs ≠ 0 then
    (xs.map (fun x => if x == some (.inf false) then fFP32.quot .one (XVal.ofNat infs) else 0), 0x7F800000, 0)
  else
    let m := (maxTree xs).getD .zero
    let es := xs.map (·.map (fun x => fFP32.ofRes (expOf (toFP32 (x.sub m)))))
    let s := (sumTree (es.map (·.map fFP32.decode))).getD 0
    let ps := es.map (fun e => match e with
      | some c => fFP32.quot (fFP32.decode c) (fW40.decode s)
      | none => 0)
    let ln := match lnOf (fW40.decode s) with
      | .inl x => x
      | .inr (n, g) => .fin n g.num g.e
    (ps, rneFP32 (m.add ln), 0)

end Sys2Proof.Machine
end

