-- ==== Sys2Proof/Machine/Trace.lean ====
section
/-!
DEFINITION. The crown-core trace (14_observability.md R491 to R494): records, buffers and triggers. The commands of the trace
stand in Observe.lean.
-/

namespace Sys2Proof.Machine
open Sys2Proof

/-! Record types, trace modes and trace states of 14. -/
abbrev trTick : Nat := 1
abbrev trInstr : Nat := 2
abbrev trBranch : Nat := 3
abbrev trIssue : Nat := 4
abbrev trStall : Nat := 5
abbrev trDone : Nat := 6
abbrev trTrigger : Nat := 7
abbrev trGap : Nat := 8
abbrev tmOff : Nat := 0
abbrev tmWrap : Nat := 1
abbrev tmStop : Nat := 2
abbrev tmTrigger : Nat := 3
abbrev tmSpill : Nat := 4
abbrev tsIdle : Nat := 0
abbrev tsRecording : Nat := 1
abbrev tsFrozen : Nat := 2
abbrev tsStopped : Nat := 3
abbrev traceDepth : Nat := 16384

/-- A trace record, 16 B. -/
def traceRecord (ty info c cycle payload : Nat) : BitVec 128 :=
  BitVec.ofNat 128 (ty % 256 + (info % 256) * 2 ^ 8 + (c % 256) * 2 ^ 16 + (cycle % 2 ^ 32) * 2 ^ 32 + (payload % 2 ^ 64) * 2 ^ 64)

/-- A record placed at the write pointer. -/
def TraceBuf.place (b : TraceBuf) (r : BitVec 128) : TraceBuf :=
  { b with recs := SMap.put 0 b.recs b.wp r, wp := (b.wp + 1) % traceDepth, filled := Nat.min (b.filled + 1) traceDepth }

/-- A record written under a mode; the second part counts records lost in SPILL mode (R492, R494). -/
def TraceBuf.push (b : TraceBuf) (mode : Nat) (c cycle : Nat) (r : BitVec 128) : TraceBuf × Nat :=
  if mode = tmStop then
    if b.filled = traceDepth then ({ b with overflow := b.overflow + 1, halted := true }, 0) else (b.place r, 0)
  else if mode = tmSpill then
    let need := if b.lost = 0 then 1 else 2
    if b.filled + need > traceDepth then ({ b with lost := b.lost + 1 }, 1)
    else if b.lost = 0 then (b.place r, 0)
    else ({ (b.place (traceRecord trGap 0 c cycle b.lost)).place r with lost := 0 }, 0)
  else if b.halted then (b, 0)
  else match b.post with
    | some 0 => ({ b with halted := true }, 0)
    | some (n + 1) => ({ b.place r with post := some n, halted := n == 0 }, 0)
    | none => (b.place r, 0)

/-- Whether a type is written: TICK, TRIGGER and GAP always, the others by TRACE_SELECT (R491). -/
def traceSelected (sel ty : Nat) : Bool := if 2 ≤ ty && ty ≤ 6 then sel.testBit (ty - 2) else true

/-- Whether cluster `c` of partition `p` records. -/
def State.tracing (s : State) (p c : Nat) : Bool :=
  s.rg (Obj.TRACE_STATE p) == tsRecording && s.rg (Obj.TRACE_MODE p) != tmOff && (s.rg (Obj.TRACE_CLUSTERS p)).testBit c

/-- One record of cluster `c`. -/
def State.trace (s : State) (p c ty info cycle payload : Nat) : State :=
  if s.tracing p c && traceSelected (s.rg (Obj.TRACE_SELECT p)) ty then
    let (b, lost) := (s.cl c).trace.push (s.rg (Obj.TRACE_MODE p)) c cycle (traceRecord ty info c cycle payload)
    (s.modCl c (fun cl => { cl with trace := b })).incRg (Obj.TRACE_GAPS p) lost
  else s

/-- The trace trigger fires when its kind and condition hold in a traced cluster; later firings are ignored until the next ARM
(R493). -/
def State.traceFire (s : State) (p c kind cycle : Nat) (cond : Bool) : State :=
  if s.tracing p c && s.rg (Obj.TRACE_MODE p) == tmTrigger && s.rg (Obj.TRIGGER_KIND p) == kind && cond
      && (s.pt p).trigger.isNone && !(s.pt p).triggerDone then
    (s.modPt p (fun x => { x with trigger := some (c, cycle) })).setRg (Obj.TRIGGER_TICK p) (s.pt p).gen.tick
  else s

/-- A cluster's LATE_UNITS bit set, with the trigger of kind 0x03. -/
def State.lateCluster (s : State) (p c cycle : Nat) : State :=
  let was := match (s.pt p).slice with
    | some r => r.late.testBit c
    | none => true
  let s := s.late p c
  if was then s else s.traceFire p c 3 cycle true

end Sys2Proof.Machine
end

