-- ==== Sys2Proof/Machine/Nap.lean ====
section
/-!
DEFINITION. The Nap engines (05_nap_engine.md R166 to R204, R545): descriptors, stitch programs, streams, timing and the Nap
commands. An operation starts with its row's command and takes effect at end(n) with NAP_OP_END.
-/

namespace Sys2Proof.Machine
open Sys2Proof

/-- The legality of a descriptor apart from its program (R172). -/
def napDescLegal (s : State) (d : NDesc) : Bool :=
  let b := fun k => (Nd.base k).get d
  Nd.summaryRsv.get d == 0 && Nd.summary.get d != 15 &&
  match Nd.opcode.get d with
  | 0x10 => 1 ≤ Nd.iterations.get d && Nd.target.get d % 8 == 0
  | 0x11 =>
    Nd.iterations.get d == 0 && b 0 ≤ 2 && (b 2 == 0x09 || b 2 == 0x0A || b 2 == 0x10) && b 3 == 0 && b 4 == 0 && b 5 == 0
      && b 1 + 4 ≤ battSize && s.resEnabled (Nd.target.get d)
  | 0x12 => Nd.iterations.get d == 0 && b 1 ≤ 14 && b 2 == 0 && b 3 == 0 && b 4 == 0 && b 5 == 0
  | 0x13 => Nd.iterations.get d == 0 && (napBases d).all (· == 0) && Nd.target.get d % 8 == 0 && Nd.target.get d + 8 ≤ battSize
  | 0x14 => Nd.iterations.get d == 0 && (napBases d).all (· == 0) && Nd.target.get d % 8 == 0 && Nd.target.get d + 8 ≤ battSize
  | _ => false

/-- The image a RUN that starts in cycle `st` fetches as batt memory stands: the header, in that cycle and so as before its writes, then
the bytes its counts give; none when it runs past batt memory (R172, R176). -/
def Cluster.fetchImage (cl : Cluster) (st a : Nat) : Option (List (Byte × Bool)) :=
  if a + 64 > battSize then none
  else
    let h := (cl.before st).battRead a 64
    let n := imageSize (h.map (·.1))
    if a + n > battSize then none else some (h ++ cl.battRead (a + 64) (n - 64))

/-- start(n) of the operation at the head of the queue (R170). -/
def Nap.headStart (n : Nap) : Option Nat := n.queue.head?.map (fun o => Nat.max (o.issue + 4) n.lastEnd)

/-- Whether the operation is legal when it starts, with the image fetched for a RUN. -/
def State.napLegal (s : State) (c : Nat) (o : NapOp) : Bool :=
  let cl := s.cl c
  !o.bad && napDescLegal s o.desc &&
  (if Nd.opcode.get o.desc = 0x10 then
    match cl.fetchImage (Nat.max (o.issue + 4) cl.nap.lastEnd) (Nd.target.get o.desc) with
    | some img => !img.any (·.2) && (parseProg (img.map (·.1))).legal (napBases o.desc) (Nd.iterations.get o.desc)
    | none => false
  else if Nd.opcode.get o.desc = 0x12 then !(cl.zRead ((Nd.base 1).get o.desc)).testBit zValueInt
  else true)

/-- The operations that write no summary register when they are legal: AMAX_NOTE and SUMMARY_STORE. -/
def napQuiet (o : NapOp) : Bool := Nd.opcode.get o.desc == 0x12 || Nd.opcode.get o.desc == 0x14

/-- Whether a queued operation writes its summary register (R201): every operation but a legal AMAX_NOTE or SUMMARY_STORE. -/
def napWritesZ (s : State) (c : Nat) (o : NapOp) : Bool := !(napQuiet o && s.napLegal c o)

/-! ## Lane tiles -/

/-- One tile of lane values, row-major, each with its poison bit; `metas` holds the metadata of the accumulator tiles it was
carried from (R184). -/
structure LaneTile where
  vals : List (NVal × Bool)
  metas : List Nat
  deriving DecidableEq, Repr

/-- A block of an MX or BS16 store under way (R183): values with poison, bit addresses, draws; by lane 0 to 31. A lane without a value
is masked. -/
structure NBlock where
  stream : Nat
  scale : Nat
  flushAt : Nat
  slots : SMap (Option XVal × Bool × Nat × Nat)
  deriving DecidableEq, Repr

/-- What a RUN has done so far. -/
structure NAcc where
  cl : Cluster
  flags : Nat
  cv : Nat
  late : Bool
  hits : Nat
  temps : SMap LaneTile
  blocks : SMap NBlock
  sums : List (Option XVal)
  count : Nat
  rows : SMap (List (Option XVal × Bool × Nat))
  brim : SMap (BitVec 40 × Bool)
  soft : SMap (List Nat × Nat × Bool)
  spans : List (Nat × Nat)        -- address and length of the batt ranges written
  deriving DecidableEq, Repr

/-- What is fixed for a RUN. -/
structure NapCtx where
  prog : NProg
  size : Nat
  bases : List Nat
  iters : Nat
  seed : Nat
  step : Nat
  srStreams : List Nat            -- streams whose stores round stochastically (R182)
  kinds : List Nat                -- the kind of each stream's tensor (R153, R157)
  run : NapRun
  deriving DecidableEq, Repr

/-- The lane positions (i, j) of one iteration, row-major. -/
def NapCtx.lanes (x : NapCtx) : List (Nat × Nat) :=
  (List.range (16 * x.prog.width)).map (fun e => (e / x.prog.width, e % x.prog.width))

/-- The value of an accumulator tile at its read: the value before any overwrite that completed after the window (R187). -/
def NapCtx.tileAt (x : NapCtx) (cl : Cluster) (n cycle : Nat) : Tile :=
  match x.run.saved.find? (fun v => v.1 == n && cycle < v.2.1) with
  | some v => v.2.2
  | none => cl.tile n

/-- What a load or an accumulator read gives: the lanes, summary flags, status bits, whether the slice is late, parity hits. -/
structure Loaded where
  tile : LaneTile
  flags : Nat
  cv : Nat
  late : Bool
  hits : Nat
  deriving DecidableEq, Repr

/-- An accumulator read of operand u in iteration t (R175, R187, R188). -/
def NapCtx.readAcc (x : NapCtx) (cl : Cluster) (st : NStream) (u t : Nat) : Loaded :=
  let w := x.run.start + x.prog.iterStart x.size t (x.prog.passes - 1) + (x.prog.width / 4) * u + 3
  let ts := (x.prog.tilesOf x.bases st t).map (fun n => x.tileAt cl n w)
  let m := fun (f : Tile → Bool) (b : Nat) => if ts.any f then 2 ^ b else 0
  ⟨⟨x.lanes.map (fun ij =>
      let tl := ts.getD (ij.2 / 16) Tile.empty
      if tl.poison then (.wide .nan, true) else (.wide (fW40.decode (tl.elem (16 * ij.1 + ij.2 % 16))), false)),
    ts.map Tile.meta⟩,
   m (·.sat) zSat ||| m (·.nan) zNan ||| m (·.conflict) zConflict ||| m (·.poison) zPoison, 0, false, 0⟩

/-- The exponent of a stream's OUTER, none when its bucket header is not valid (R126). -/
def Cluster.bucketOuter (cl : Cluster) (a : Nat) : Option Int :=
  let h := cl.battBytes a 64
  if outerValid (imgField h 0 4) && (h.drop 16).all (· == 0) then some (outerExp (imgField h 0 4)) else none

/-- One loaded element, exactly (R127, R182). `scale` is the per-tensor scale, `outer` the bucket's. -/
def loadElem (fmt code sb scale : Nat) (outer : Option Int) : NVal :=
  if fmt = 0x08 then .fp code
  else if fmt = 0x12 then .int code
  else if fmt = 0x11 then .wide (fW40.decode code)
  else if fmt = 0x10 then .wide (match outer with
    | some e => e8m0Scale sb ((decodeElem fmt code).scale e)
    | none => .nan)
  else if fmtIsMX fmt then .wide (e8m0Scale sb (decodeElem fmt code))
  else if fmtPlainFP8 fmt then .wide (plainFP8Value fmt code scale)
  else .exact (decodeElem fmt code)

/-- A batt load of iteration t (R174, R182, R545, R126, R130, R279). -/
def NapCtx.loadTile (x : NapCtx) (cl : Cluster) (st : NStream) (t : Nat) : Loaded :=
  let sc := leNat (cl.battBytes (streamScale x.bases st) 4)
  let plain := fmtPlainFP8 st.fmt
  let hdrBad := (plain && cl.battBad (streamScale x.bases st) 4) || (st.fmt == 0x10 && cl.battBad (streamHeader x.bases st) 64)
  let outer := if st.fmt = 0x10 then cl.bucketOuter (streamHeader x.bases st) else none
  let w := fmtBits st.fmt
  let vals := x.lanes.map (fun ij =>
    let b := x.prog.elemBit x.bases st t ij.1 ij.2
    let sa := x.prog.scaleAddrOf x.bases st t ij.1 ij.2
    let bad := hdrBad || cl.battBad (b / 8) ((b + w - 1) / 8 - b / 8 + 1) || (fmtBlockScaled st.fmt && cl.battBad sa 1)
    if x.prog.padded st t ij.2 then (.exact .zero, false) else
    (loadElem st.fmt (cl.battBits b w) (if fmtBlockScaled st.fmt then leNat (cl.battBytes sa 1) else 0) sc outer, bad))
  let bad := vals.any (·.2)
  let noHdr := st.fmt == 0x10 && outer.isNone
  ⟨⟨vals, []⟩, (if bad then 2 ^ zPoison else 0) ||| (if noHdr then 2 ^ zNan else 0),
   if plain && !scaleUsable sc then cvNan else 0, bad || noHdr, if bad then 1 else 0⟩

/-- A lane of tile register r. In BF16 lane mode an element holds two lanes, as BF16 codes (log 36). -/
def NapCtx.readT (x : NapCtx) (cl : Cluster) (r : Nat) : LaneTile :=
  ⟨x.lanes.map (fun ij =>
    if x.prog.bf then
      let (v, p) := SMap.getD (0, false) cl.nap.t (256 * r + 16 * ij.1 + ij.2 / 2)
      let low := (ij.2 % 2 == 0) == Config.bf16EvenLow
      (.raw ((if low then v.toNat % 2 ^ 16 else v.toNat / 2 ^ 16) * 2 ^ 16), p)
    else
      let (v, p) := SMap.getD (0, false) cl.nap.t (256 * r + 16 * ij.1 + ij.2)
      (.raw v.toNat, p)), []⟩

/-- The 32 bits a value leaves in a tile register: a wider value is converted to FP32 first (R166). -/
def NVal.toT : NVal → Nat × Nat
  | .raw b => (b % 2 ^ 32, 0)
  | .fp b => (b % 2 ^ 32, 0)
  | .int b => (b % 2 ^ 32, 0)
  | .exact x => (rneFP32 x, 0)
  | .wide x => fFP32.encode false .rne x
  | .brim x => fFP32.encode false .rne x

def NapCtx.writeT (x : NapCtx) (cl : Cluster) (r : Nat) (vs : List (NVal × Bool)) : Cluster :=
  let out : List (BitVec 32 × Bool) := (List.range 256).map (fun e =>
    if x.prog.bf then
      let lane := fun k => vs.getD (32 * (e / 16) + 2 * (e % 16) + k) (.raw 0, false)
      let code := fun k => rneBF16 (fFP32.decode ((lane k).1.toT).1)
      let (lo, hi) := if Config.bf16EvenLow then (code 0, code 1) else (code 1, code 0)
      (BitVec.ofNat 32 (lo + 2 ^ 16 * hi), (lane 0).2 || (lane 1).2)
    else
      let v := vs.getD e (.raw 0, false)
      (BitVec.ofNat 32 (v.1.toT).1, v.2))
  { cl with nap := { cl.nap with t := SMap.putList (0, false) cl.nap.t (256 * r) out } }

/-- The draw of a logical element (R177). -/
def NapCtx.drawAt (x : NapCtx) (tensor e : Nat) : Nat := drawOf x.seed x.step tensor x.prog.mb e

/-- Stream 0, whose logical index ELEMIDX and DRAW use. -/
def NProg.stream0 (x : NProg) : NStream := (x.streams[0]?).getD ⟨0, 0, 0, 0, 0, 0, 0, 0, 0, 0, 0, 0, 0⟩

/-- A whole tile of one kind of lane value. -/
def NapCtx.fill (x : NapCtx) (f : Nat → Nat → NVal) : Loaded := ⟨⟨x.lanes.map (fun ij => (f ij.1 ij.2, false)), []⟩, 0, 0, false, 0⟩

/-- A source operand of iteration t (Source and destination encoding). -/
def NapCtx.source (x : NapCtx) (a : NAcc) (t code imm : Nat) : Loaded :=
  let (tr, tc) := x.prog.pos t
  if code < 0x10 then
    match SMap.get? a.temps code with
    | some v => ⟨v, 0, 0, false, 0⟩
    | none => x.fill (fun _ _ => .raw (Config.unwritten code).toNat)
  else if code < 0x18 then
    match x.prog.stream code with
    | some st =>
      if st.kind = 3 then x.readAcc a.cl st ((x.prog.accs.filter (· < code - 0x10)).length) t else x.loadTile a.cl st t
    | none => x.fill (fun _ _ => .raw 0)
  else if code = 0x18 then x.fill (fun _ _ => .raw (x.prog.consts.getD (imm % 32) 0))
  else if code = 0x19 then x.fill (fun i _ => .int ((16 * tr + i) % 2 ^ 32))
  else if code = 0x1A then x.fill (fun _ j => .int ((x.prog.width * tc + j) % 2 ^ 32))
  else if code = 0x1B then x.fill (fun i j => .int (x.prog.logical x.prog.stream0 t i j % 2 ^ 32))
  else if code = 0x1C then x.fill (fun i j => .raw (x.drawAt x.prog.tensor (x.prog.logical x.prog.stream0 t i j)))
  else if code = 0x1D then
    ⟨⟨x.lanes.map (fun ij =>
        let (v, p) := SMap.getD (0, false) a.cl.nap.b (16 * (imm % 8) + ij.1)
        (.brim (fW40.decode v.toNat), p)), []⟩, 0, 0, false, 0⟩
  else if code = 0x1E then x.fill (fun _ _ => .raw 0)
  else if code = 0x1F then x.fill (fun _ _ => .raw (Config.unwritten 0x1F).toNat)
  else ⟨x.readT a.cl (code - 0x20), 0, 0, false, 0⟩

/-- What reading an operand adds to the RUN's record. -/
def NAcc.took (a : NAcc) (l : Loaded) : NAcc :=
  { a with flags := a.flags ||| l.flags, cv := a.cv ||| l.cv, late := a.late || l.late, hits := a.hits + l.hits }

/-! ## Stores (R134, R167, R182 to R185) -/

/-- The bytes that a code at a bit address touches: the first and their number. -/
def bitSpan (a w : Nat) : Nat × Nat := (a / 8, (a + w - 1) / 8 - a / 8 + 1)

/-- Codes placed at bit addresses; every byte that a poisoned code touches takes inverted parity, the others good parity. -/
def Cluster.putBits (cl : Cluster) (ws : List (Nat × Nat × Nat × Bool)) : Cluster :=
  let bytes := fun (w : Nat × Nat × Nat × Bool) => bitSpan w.1 w.2.1
  let cl := ws.foldl (fun (c : Cluster) w =>
    let (a, n) := bytes w
    let old := leNat (c.battBytes a n)
    let sh := w.1 % 8
    let m := (2 ^ w.2.1 - 1) <<< sh
    c.battStore a (leBytes n ((old - (old &&& m)) ||| ((w.2.2.1 % 2 ^ w.2.1) <<< sh)))) cl
  ws.foldl (fun (c : Cluster) w =>
    if w.2.2.2 then
      let (a, n) := bytes w
      c.battWrite a ((c.battBytes a n).map (·, true))
    else c) cl

/-- The flags a store raises: NAN for a stored NaN, POISON for poisoned data (R198). -/
def storeFlags (nan poison : Bool) : Nat := (if nan then 2 ^ zNan else 0) ||| (if poison then 2 ^ zPoison else 0)

/-- The rounding of a stored element (R136, R182). -/
def NapCtx.rndOf (x : NapCtx) (k : Nat) (st : NStream) (e : Nat) : Rnd :=
  if x.srStreams.contains k then .sr (x.drawAt (if st.res = 0xFFFFFFFF then x.prog.tensor else st.res) e) else .rne

/-- The code, status bits and flags of one element stored without block scale. A 32-bit pattern without a type is taken as
INT32 by an INT32 store and as FP32 by any other (log 37). -/
def storeElem (st : NStream) (r : Rnd) (scale : Nat) (scaleBad : Bool) (v : NVal) (p : Bool) : Nat × Nat × Bool × Bool :=
  let pz := p || scaleBad
  if pz then
    let (c, cv) := encodeUnscaled st.fmt st.satFinite r scale .nan
    (c, cv, true, true)
  else match st.fmt, v with
    | 0x12, .raw b => (b % 2 ^ 32, 0, false, false)
    | f, w =>
      let (c, cv) := encodeUnscaled f st.satFinite r scale w.exactOf
      (c, cv, w.exactOf.isNan || (fmtPlainFP8 f && !scaleUsable scale), false)

/-- The partner iteration that completes the block of iteration t, and t itself where the block ends with it (R183). -/
def NapCtx.blockLast (x : NapCtx) (st : NStream) (t : Nat) : Nat :=
  let (_, tc) := x.prog.pos t
  if st.column then (if t % 2 = 0 && t + 1 < x.iters then t + 1 else t)
  else if x.prog.bf then t
  else
    let d := if x.prog.pairDown then 2 else 1
    if tc % 2 = 0 && tc + 1 < x.prog.rowTiles && t + d < x.iters then t + d else t

/-- The captured wide values of elements that a store has placed, by bit address (R153, R185). -/
def NapCtx.captured (x : NapCtx) (cl : Cluster) (k : Nat) (st : NStream) (ws : List (Nat × Nat)) : Cluster :=
  if st.capture && (fmtIsMX st.fmt || fmtPlainFP8 st.fmt) then
    { cl with cap := ws.foldl (fun m w => SMap.ins m w.1 (BitVec.ofNat 32 w.2, x.kinds.getD k 0)) cl.cap }
  else cl

/-- The FP32 code that CAPTURE keeps of a value; one that FP32 does not hold exactly is rounded to nearest even (log 102). -/
def captureCode (v : XVal) (poison : Bool) : Nat := if poison then 0x7FC00000 else rneFP32 v

/-- A block flushed: quantized, written with its scale, padding as +0 (R124) and masked elements taking part as +0 unwritten. -/
def NapCtx.flush (x : NapCtx) (a : NAcc) (b : NBlock) : NAcc :=
  match x.prog.streams[b.stream]? with
  | none => a
  | some st =>
    let slot := fun l => SMap.get? b.slots l
    let hdr := streamHeader x.bases st
    let outer := if st.fmt = 0x10 then a.cl.bucketOuter hdr else some 0
    let pz := b.slots.any (fun kv => kv.2.2.1) || (st.fmt == 0x10 && a.cl.battBad hdr 64)
    let xs := (List.range 32).map (fun l => ((slot l).bind (·.1)).getD .zero)
    let rs := (List.range 32).map (fun l => match slot l with
      | some v => if x.srStreams.contains b.stream then Rnd.sr v.2.2.2 else .rne
      | none => .rne)
    let (sc, cs, cv) := match outer with
      | some e => if pz then (0xFF, List.replicate 32 0, cvNan) else quantizeBlock st.fmt e xs rs
      | none => (0xFF, List.replicate 32 0, cvNan)
    let w := fmtBits st.fmt
    let ws := b.slots.filterMap (fun kv => if kv.2.1.isSome then some (kv.2.2.2.1, w, cs.getD kv.1 0, pz) else none)
    { a with
      cl := x.captured ((a.cl.putBits ws).battWrite b.scale [(BitVec.ofNat 8 sc, pz)]) b.stream st
        (b.slots.filterMap (fun kv => kv.2.1.map (fun v => (kv.2.2.2.1, captureCode v kv.2.2.1))))
      spans := (b.scale, 1) :: (ws.map (fun w => bitSpan w.1 w.2.1) ++ a.spans)
      cv := a.cv ||| cv
      flags := a.flags ||| storeFlags (sc == 0xFF) pz
      late := a.late || pz || outer.isNone }

/-- One element entered into its block, with the padding element that its block has in the second half where it has none (R124, R183). -/
def NapCtx.intoBlock (x : NapCtx) (a : NAcc) (opk k : Nat) (st : NStream) (t i j : Nat) (v : Option XVal) (p : Bool) : NAcc :=
  let (tr, tc) := x.prog.pos t
  let w := x.prog.width
  let (line, q, lane) := if st.column then (w * tc + j, tr / 2, 16 * (tr % 2) + i)
    else (16 * tr + i, if x.prog.bf then tc else tc / 2, if x.prog.bf then j else 16 * (tc % 2) + j)
  let key := (opk * 2 ^ 40 + line) * 2 ^ 20 + q
  let b := SMap.getD ⟨k, x.prog.scaleAddrOf x.bases st t i j, x.blockLast st t, []⟩ a.blocks key
  let e := x.prog.logical st t i j
  let dr := x.drawAt (if st.res = 0xFFFFFFFF then x.prog.tensor else st.res) e
  let slots := SMap.ins b.slots lane (v, p, x.prog.elemBit x.bases st t i j, dr)
  let slots := match x.prog.padStep st x.iters t with
    | some d => SMap.ins slots (lane + 16) (some .zero, false, x.prog.elemBit x.bases st t i j + 8 * d, 0)
    | none => slots
  { a with blocks := SMap.ins a.blocks key { b with slots := slots } }

/-- STORE of one lane tile through store stream k. Lanes beyond the row of the tensor hold padding, written as +0 (R123, R124). -/
def NapCtx.store (x : NapCtx) (a : NAcc) (opk k t : Nat) (st : NStream) (v : LaneTile) (mask : List (Bool × Bool)) : NAcc :=
  let items := ((x.lanes.zip v.vals).zip mask).map (fun it =>
    if x.prog.padded st t it.1.1.2 then ((it.1.1, (.exact .zero, false)), (true, false)) else it)
  let a := if st.capture then
      let out := v.vals.flatMap (fun vp => (leBytes 4 (captureCode vp.1.exactOf vp.2)).map (·, vp.2))
      { a with cl := a.cl.battWrite (st.captureAddr + 64 * x.prog.width * t) out,
               spans := (st.captureAddr + 64 * x.prog.width * t, out.length) :: a.spans }
    else a
  if fmtBlockScaled st.fmt then
    items.foldl (fun (a : NAcc) it =>
      let ((ij, vp), m) := it
      x.intoBlock a opk k st t ij.1 ij.2 (if m.1 then some vp.1.exactOf else none) (m.1 && (vp.2 || m.2))) a
  else
    let sc := leNat (a.cl.battBytes (streamScale x.bases st) 4)
    let scBad := fmtPlainFP8 st.fmt && a.cl.battBad (streamScale x.bases st) 4
    let outs := items.filterMap (fun it =>
      let ((ij, vp), m) := it
      if !m.1 then none
      else
        let (c, cv, nan, pz) := storeElem st (x.rndOf k st (x.prog.logical st t ij.1 ij.2)) sc scBad vp.1 (vp.2 || m.2)
        let bitA := if st.fmt = 0x11 then 8 * (x.prog.tileAddr x.bases st t + 1344 * (ij.2 / 16) + 5 * (16 * ij.1 + ij.2 % 16))
          else x.prog.elemBit x.bases st t ij.1 ij.2
        some ((bitA, fmtBits st.fmt, c, pz), cv, nan, captureCode vp.1.exactOf vp.2))
    let pz := outs.any (fun o => o.1.2.2.2)
    let cl := x.captured (a.cl.putBits (outs.map (·.1))) k st (outs.map (fun o => (o.1.1, o.2.2.2)))
    let cl := if st.fmt = 0x11 then
        (List.range (x.prog.width / 16)).foldl (fun (c : Cluster) h =>
          let md := if v.metas.isEmpty then (if pz then 8 else 0) else v.metas.getD h 0
          c.battStore (x.prog.tileAddr x.bases st t + 1344 * h + 1280) (leBytes 64 md)) cl
      else cl
    { a with
      cl := cl
      spans := outs.map (fun o => bitSpan o.1.1 o.1.2.1) ++ ((List.range (if st.fmt = 0x11 then x.prog.width / 16 else 0)).map
        (fun h => (x.prog.tileAddr x.bases st t + 1344 * h + 1280, 64)) ++ a.spans)
      cv := a.cv ||| outs.foldl (fun n o => n ||| o.2.1) 0
      flags := a.flags ||| storeFlags (outs.any (·.2.2.1)) pz
      late := a.late || pz }

/-! ## Execution of a program (R193) -/

/-- A result written to a destination. -/
def NapCtx.dest (x : NapCtx) (a : NAcc) (dst : Nat) (v : LaneTile) : NAcc :=
  if dst < 0x10 then { a with temps := SMap.ins a.temps dst v }
  else if 0x20 ≤ dst then
    { a with cl := x.writeT a.cl (dst - 0x20) v.vals, cv := v.vals.foldl (fun n vp => n ||| vp.1.toT.2) a.cv }
  else a

/-- Values of one operation gathered for the walk row, by element row. -/
def NapCtx.gather (x : NapCtx) (a : NAcc) (k t : Nat) (v : LaneTile) (mask : List (Bool × Bool)) (posn : List (NVal × Bool)) : NAcc :=
  let (_, tc) := x.prog.pos t
  let w := x.prog.width
  { a with rows := (List.range 16).foldl (fun m i =>
      let row := (List.range w).map (fun j =>
        let vp := v.vals.getD (w * i + j) (.raw 0, false)
        let mk := mask.getD (w * i + j) (true, false)
        let (pos, pbad) := match posn[w * i + j]? with
          | some q => (q.1.asInt, q.2)
          | none => (w * tc + j, false)
        (if mk.1 then some vp.1.exactOf else none, (mk.1 && (vp.2 || pbad)) || mk.2, pos))
      SMap.ins m (16 * k + i) (SMap.getD [] m (16 * k + i) ++ row)) a.rows }

/-- One operation of iteration t. `stop`: in an earlier pass, the row operation whose input is gathered (R193). -/
def NapCtx.oper (x : NapCtx) (stop : Option Nat) (t : Nat) (a : NAcc) (ko : Nat × NOp) : NAcc :=
  let (k, o) := ko
  if (stop.any (· < k)) then a
  else
    let la := x.source a t o.a o.imm
    let useB := o.usesB
    let useC := o.usesC
    let lb := if useB then x.source a t o.b o.imm else x.fill (fun _ _ => .raw 0)
    let lc := if useC then x.source a t o.c o.imm else x.fill (fun _ _ => .raw 0)
    let acc := fun (a : NAcc) => if useC then ((if useB then (a.took la).took lb else a.took la).took lc)
      else if useB then (a.took la).took lb else a.took la
    let mask := lc.tile.vals.map (fun vp => if useC then (vp.1.isSet, vp.2) else (true, false))
    if stop == some k then x.gather (acc a) k t la.tile mask []
    else if opElem o.op then
      let n := la.tile.vals.length
      let rs := (List.range n).map (fun e =>
        let va := la.tile.vals.getD e (.raw 0, false)
        let vb := lb.tile.vals.getD e (.raw 0, false)
        let vc := lc.tile.vals.getD e (.raw 0, false)
        let (r, cv) := elemOp x.prog.bf o.op va.1 (if useB then vb.1 else .raw 0) (if useC then vc.1 else .raw 0) o.imm
        ((r, va.2 || (useB && vb.2) || (useC && vc.2)), cv))
      let a := acc a
      x.dest { a with cv := rs.foldl (fun m r => m ||| r.2) a.cv } o.dst
        ⟨rs.map (·.1), if o.op = 1 then la.tile.metas else []⟩
    else if o.op = 0x3F then
      let (_, tc) := x.prog.pos t
      let w := x.prog.width
      x.dest (acc a) o.dst ⟨x.lanes.map (fun ij =>
        let (ps, _, p) := SMap.getD ([], 0, false) a.soft (16 * k + ij.1)
        (.fp (ps.getD (w * tc + ij.2) 0), p)), []⟩
    else if stop.isSome then a
    else if o.op = 0x30 then
      match x.prog.stream o.dst with
      | some st => x.store (acc a) k (o.dst - 0x10) t st la.tile mask
      | none => a
    else if opRow o.op then x.gather (acc a) k t la.tile mask (if useB then lb.tile.vals else [])
    else if o.op = 0x4A then
      { acc a with count := a.count + (la.tile.vals.filter (fun vp => vp.1.isSet)).length }
    else { acc a with sums := a.sums ++ (la.tile.vals.zip mask).map (fun vm => if vm.2.1 then some vm.1.1.exactOf else none) }

/-- One iteration in the final pass or an earlier one: temporaries start unwritten, and blocks that end with it are flushed. -/
def NapCtx.iteration (x : NapCtx) (stop : Option Nat) (a : NAcc) (t : Nat) : NAcc :=
  let a := ((List.range x.prog.ops.length).zip x.prog.ops).foldl (x.oper stop t) { a with temps := [] }
  let (now, later) := a.blocks.partition (fun kv => kv.2.flushAt == t)
  now.foldl (fun (a : NAcc) kv => x.flush a kv.2) { a with blocks := later }

/-- The results of a TOPK for element row i stored through the streams it names (R161, R196). -/
def NapCtx.storeTopk (x : NapCtx) (a : NAcc) (k t0 i : Nat) (o : NOp) (row : List (Option XVal × Bool × Nat)) : NAcc :=
  let present := row.filterMap (fun v => v.1.map (fun y => (y, v.2.2)))
  let pz := row.any (·.2.1)
  let best := topk (o.imm % 128) present
  let put := fun (a : NAcc) (code : Nat) (vals : List NVal) =>
    match x.prog.stream code with
    | none => a
    | some st =>
      let n := code - 0x10
      let line := 16 * (x.prog.pos t0).1 + i
      let e0 := st.elemBase + line * st.rowLen
      let bit0 := 8 * (x.prog.tileAddr x.bases st t0 + i * st.rowStride)
      if fmtBlockScaled st.fmt then
        (List.range (ceilDiv vals.length 32)).foldl (fun (a : NAcc) q =>
          x.flush a ⟨n, x.bases.getD st.sel 0 + st.scaleOffset + line * st.scaleStride + q, t0,
            ((List.range 32).map (fun l =>
              let at_ := bit0 + (32 * q + l) * fmtBits st.fmt
              match vals[32 * q + l]? with
              | some v => (l, some v.exactOf, pz, at_,
                  x.drawAt (if st.res = 0xFFFFFFFF then x.prog.tensor else st.res) (e0 + 32 * q + l))
              | none => (l, some .zero, false, at_, 0)))⟩) a
      else
        let vals := if st.fmt = 0x13 then vals ++ List.replicate (alignUp vals.length 8 - vals.length) (.exact .zero) else vals
        let sc := leNat (a.cl.battBytes (streamScale x.bases st) 4)
        let scBad := fmtPlainFP8 st.fmt && a.cl.battBad (streamScale x.bases st) 4
        let outs := ((List.range vals.length).zip vals).map (fun lv =>
          let (c, cv, nan, p) := storeElem st (x.rndOf n st (e0 + lv.1)) sc scBad lv.2 pz
          ((bit0 + lv.1 * fmtBits st.fmt, fmtBits st.fmt, c, p), cv, nan))
        { a with
          cl := a.cl.putBits (outs.map (·.1))
          spans := outs.map (fun o => bitSpan o.1.1 o.1.2.1) ++ a.spans
          cv := a.cv ||| outs.foldl (fun m w => m ||| w.2.1) 0
          flags := a.flags ||| storeFlags (outs.any (·.2.2)) (outs.any (fun w => w.1.2.2.2))
          late := a.late || outs.any (fun w => w.1.2.2.2) }
  let a := put a o.dst (best.map (fun b => .exact b.1))
  let a := put a (0x10 + o.imm / 2 ^ 8 % 8) (best.map (fun b => .int (b.2 % 2 ^ 32)))
  let _ := k
  { a with flags := a.flags ||| reduceFlags present.isEmpty (present.any (fun v => v.1.isNan)) }

/-- The end of a walk row: brim results and TOPK results (R190 to R196). -/
def NapCtx.rowDone (x : NapCtx) (a : NAcc) (t : Nat) : NAcc :=
  let a := ((List.range x.prog.ops.length).zip x.prog.ops).foldl (fun (a : NAcc) ko =>
    let (k, o) := ko
    (List.range 16).foldl (fun (a : NAcc) i =>
      let row := SMap.getD [] a.rows (16 * k + i)
      if opBrim o.op then
        let (cs, fl) := rowOp o.op o.imm (row.map (·.1))
        let p := row.any (·.2.1)
        let b := ((List.range cs.length).zip cs).foldl (fun m nc =>
          SMap.ins m (16 * (o.b % 8 + nc.1) + i) (BitVec.ofNat 40 nc.2, p)) a.brim
        { a with brim := b, flags := a.flags ||| fl }
      else if o.op = 0x3F then
        let (_, lse, p) := SMap.getD ([], 0, false) a.soft (16 * k + i)
        { a with brim := SMap.ins a.brim (16 * (o.imm % 8) + i) (BitVec.ofNat 40 (w40Code (fFP32.decode lse)), p) }
      else if o.op = 0x40 then x.storeTopk a k (t + 1 - x.prog.rowTiles) i o row
      else a) a) a
  { a with rows := [] }

/-- The earlier passes of a walk row that starts with iteration t: SOFTMAX inputs gathered in order (R192, R193). -/
def NapCtx.softPasses (x : NapCtx) (a : NAcc) (t : Nat) : NAcc :=
  ((List.range x.prog.ops.length).zip x.prog.ops).foldl (fun (a : NAcc) ko =>
    if ko.2.op ≠ 0x3F then a
    else
      let g := ((List.range x.prog.rowTiles).map (t + ·)).foldl (x.iteration (some ko.1)) { a with rows := [] }
      (List.range 16).foldl (fun (a : NAcc) i =>
        let row := SMap.getD [] g.rows (16 * ko.1 + i)
        let (ps, lse, fl) := softmaxRow (row.map (·.1))
        { a with soft := SMap.ins a.soft (16 * ko.1 + i) (ps, lse, row.any (·.2.1)), flags := a.flags ||| fl }) a) a

/-- The first `n` iterations of a RUN, in order. -/
def NapCtx.runs (x : NapCtx) (n : Nat) (a : NAcc) : NAcc :=
  (List.range n).foldl (fun (a : NAcc) t =>
    let a := if t % x.prog.rowTiles = 0 && x.prog.has 0x3F then x.softPasses a t else a
    let a := x.iteration none a t
    if (t + 1) % x.prog.rowTiles = 0 && x.prog.ops.any (fun o => opRow o.op) then x.rowDone a t else a) a

/-- VALUE of a RUN with its type and flags (R195). -/
def NapCtx.value (x : NapCtx) (a : NAcc) : Nat × Bool × Nat :=
  if x.prog.has 0x4A then (Nat.min a.count 0x7FFFFFFF, true, 0)
  else if x.prog.has 0x49 then
    match sumTree a.sums with
    | some c => (rneFP32 (fW40.decode c), false, reduceFlags false (fW40.decode c).isNan)
    | none => (0, false, reduceFlags true false)
  else if x.prog.has 0x48 then
    match maxTree a.sums with
    | some v => (rneFP32 v, false, reduceFlags false v.isNan)
    | none => (0xFF800000, false, reduceFlags true false)
  else (0, false, 0)

/-! ## Starting and ending operations -/

def State.modNap (s : State) (c : Nat) (f : Nap → Nap) : State := s.modCl c (fun cl => { cl with nap := f cl.nap })

/-- The operation at the head of the queue may start: no other runs, its cluster runs a slice, and start(n) lies before the guard
(R169, R171). -/
def State.napMay (s : State) (c : Nat) : Bool :=
  match s.ownerOfCluster c, (s.cl c).nap.headStart with
  | some p, some st => (s.pt p).slice.isSome && (s.cl c).nap.run.isNone && !(s.cl c).resetting && st < (s.pt p).guardCycle
  | _, _ => false

/-- It is of an opcode; 0 for an illegal one. -/
def State.napStarts (s : State) (c op : Nat) : Bool :=
  s.napMay c && (match (s.cl c).nap.queue with
    | o :: _ => if s.napLegal c o then op == Nd.opcode.get o.desc else op == 0
    | [] => false)

/-- The head of the queue becomes the running operation, to end after `dur` cycles; a RUN goes by its image. Its cycles count at its
end or at the edge (R480). -/
def State.napBegin (s : State) (c dur : Nat) (illegal : Bool) (image : List Byte) (fetched : Bool) : State :=
  match s.ownerOfCluster c, (s.cl c).nap.queue, (s.cl c).nap.headStart with
  | some p, o :: rest, some st =>
    let r : NapRun := ⟨o, st, st + dur, illegal, image, fetched, [], [], []⟩
    let s := s.modNap c (fun n => { n with
      queue := rest, run := some (if fetched then r.judged else r), recent := (st :: n.recent).take 4 })
    s.at ((s.pt p).edgeNs + cycleNs st)
  | _, _, _ => s

/-- The busy cycles of the running operation up to a cycle (R480). -/
def State.napBusy (s : State) (p c until_ : Nat) : State :=
  match (s.cl c).nap.run with
  | some r => s.count p 1 c wBusy (Nat.min r.finish until_ - r.start)
  | none => s

/-- Conflicts of the read windows of a starting RUN with write ownerships of array operations in flight or queued (R112). -/
def State.windowConflicts (s : State) (c : Nat) : State :=
  match (s.cl c).nap.run with
  | none => s
  | some r =>
    (List.range 16).foldl (fun t a =>
      (((s.cl c).arr a).flight ++ ((s.cl c).arr a).queue).foldl (fun t o =>
        let n := 64 * a + Ad.tile.get o.desc
        match clashAt o.issue o.complete ((r.windows.filter (fun w => w.1 == n)).map (·.2)) with
        | some cy => t.tileConflict c n cy
        | none => t) t) s

/-- A parity error in a tile that the starting RUN reads (R108): POISON on the tile, the array's counter, and the slice late. -/
def State.tileParity (s : State) (c n : Nat) : State :=
  (s.modCl c (fun cl => cl.setTile n { cl.tile n with poison := true })).arrayParity c (n / 64)

/-- RUN (R170, R176): the image is fetched and the operation occupies the engine for its exact duration; its read ownerships are
held. `parity`: the accumulator tiles that it reads in which a bad byte is met (R108). -/
def execRun (c : ClusterId) (parity : List Nat) (s : State) : Out :=
  takes (s.napStarts c 0x10) s (fun s =>
    match (s.cl c).nap.queue with
    | o :: _ =>
      let img := (((s.cl c).fetchImage ((s.cl c).nap.headStart.getD 0) (Nd.target.get o.desc)).getD []).map (·.1)
      let s := (s.napBegin c 0 false img true).windowConflicts c
      let s := s.countC c 1 c (wEvent 4) 1
      let read := match (s.cl c).nap.run with
        | some r => parity.eraseDups.filter (fun n => r.windows.any (fun w => w.1 == n))
        | none => []
      read.foldl (fun t n => t.tileParity c n) s
    | [] => s)

/-- The resolved scaling mode of a kind (R144): 0 RECIPE, 1 HISTORY. -/
def State.scaleMode (s : State) (p k : Nat) : Nat :=
  let m := s.num p (Obj.SCALE_MODE k)
  if m = 2 then
    match s.running p with
    | some (b, _, _) => if s.blkJobModules b ≤ s.num p Obj.AUTO_LIMIT then 0 else 1
    | none => 0
  else m

/-! History entry, 272 B (04). -/
namespace Hi
def stepSettled : Fld := fb 0x000 8
def count : Fld := fb 0x008 1
def next : Fld := fb 0x009 1
def h : Fld := fb 0x00A 1
def flags : Fld := fb 0x00B 1
def stepAmax : Fld := fb 0x00C 4
def amax (k : Nat) : Fld := fb (0x010 + 4 * k) 4
end Hi

abbrev Hist := BitVec 2176
def State.histEntry (s : State) (i : Nat) : Hist := s.memRec (ResEntry.curAddr (s.resE i)) 272

/-- The recipe scale of a kind in a target format (R146). -/
def recipeScale (c fmt : Nat) : Nat := if fmt = 0x10 then (c / 2 ^ 23 % 256) * 2 ^ 23 else c

/-- The history scale from amax_h (R151). -/
def historyScale (amax m fmt : Nat) : Nat :=
  let x := fFP32.decode amax
  if fmt = 0x10 then
    match x with
    | .fin _ k e =>
      let lg := (⟨k, 1, e⟩ : Mag).floorLog2
      let up := if k = 2 ^ Nat.log2 k then lg else lg + 1
      let ex := up + m
      let ex := if ex < -126 then -126 else if ex > 127 then 127 else ex
      (ex + 127).toNat * 2 ^ 23
    | _ => 0x7F000000
  else
    let fmax : Nat := if fmt = 0x09 then 448 else 57344
    let q := fFP32.quot (x.scale m) (XVal.ofNat fmax)
    if q ≥ 0x7F800000 then 0x7F7FFFFF else if q < 0x00800000 then 0x00800000 else q

/-- The history entry of the tensor that SCALE names (R151, R202): a TARGET of class history is that entry; which entry a tensor owns
whose own entry is named, the spec does not say: a free value (log 102). -/
def State.historyOf (s : State) (i : Nat) : Nat := if Rs.class_.get (s.resE i) = classHistory then i else Config.historyOf i

/-- SCALE's result: the scale, and whether the kind's HIST_WARMUP bit is set (R146, R151, R202). A tensor without a history entry is
one whose history is short, and so is one whose entry reads poisoned (log 102). -/
def State.scaleOf (s : State) (p : Nat) (d : NDesc) : Nat × Bool :=
  let i := Nd.target.get d
  let e := s.resE i
  let k := Rs.kind.get e
  let fmt := (Nd.base 2).get d
  let recipe := recipeScale (s.num p (okey 0x2101 (1 + k))) fmt
  let mode := if (Nd.base 0).get d = 0 then s.scaleMode p k else (Nd.base 0).get d - 1
  let j := s.historyOf i
  if mode = 0 then (recipe, false)
  else if Rs.class_.get (s.resE j) ≠ classHistory then (recipe, true)
  else
    let h := s.histEntry j
    let n := Hi.h.get h
    if Hi.count.get h < n || (Hi.flags.get h).testBit 0 || s.memBad (ResEntry.curAddr (s.resE j)) 272 then (recipe, true)
    else
      let m := (List.range n).foldl (fun (a : XVal) j => a.max (fFP32.decode ((Hi.amax j).get h))) (.inf true)
      if m.isZero || m == .inf true then (recipe, false) else (historyScale (rneFP32 m) (s.num p Obj.SCALE_MARGIN) fmt, false)

/-- SCALE (R202): 40 cycles; the scale is formed now and written at end(n). -/
def execScale (c : ClusterId) (s : State) : Out :=
  takes (s.napStarts c 0x11) s (fun s =>
    match s.ownerOfCluster c, (s.cl c).nap.queue with
    | some p, o :: _ =>
      let (v, warm) := s.scaleOf p o.desc
      let s := s.napBegin c 40 false (leBytes 4 v) false
      if warm then s.modPt p (fun x => { x with warm := setBit x.warm (Rs.kind.get (s.resE (Nd.target.get o.desc))) }) else s
    | _, _ => s)

/-- AMAX_NOTE (R203): 8 cycles; the VALUE is read now and submitted at end(n). -/
def execAmaxNote (c : ClusterId) (s : State) : Out :=
  takes (s.napStarts c 0x12) s (fun s =>
    match (s.cl c).nap.queue with
    | o :: _ => s.napBegin c 8 false (leBytes 4 ((s.cl c).zRead ((Nd.base 1).get o.desc) / 2 ^ 32)) false
    | [] => s)

/-- SUMMARY_LOAD (R203): 8 cycles; the word is read now and the register written at end(n). -/
def execSummaryLoad (c : ClusterId) (s : State) : Out :=
  takes (s.napStarts c 0x13) s (fun s =>
    match (s.cl c).nap.queue with
    | o :: _ =>
      let a := Nd.target.get o.desc
      let cl := (s.cl c).before ((s.cl c).nap.headStart.getD 0)
      s.napBegin c 8 false (cl.battBytes a 8 ++ (if cl.battBad a 8 then [1] else [0])) false
    | [] => s)

/-- SUMMARY_STORE (R203): 8 cycles; the summary is read now and lies in batt memory at end(n). -/
def execSummaryStore (c : ClusterId) (s : State) : Out :=
  takes (s.napStarts c 0x14) s (fun s =>
    match (s.cl c).nap.queue with
    | o :: _ => s.napBegin c 8 false (leBytes 8 ((s.cl c).zRead (Nd.summary.get o.desc))) false
    | [] => s)

/-- Whether the head of the queue is illegal because a parity hit was met in its descriptor or image (R279). -/
def State.napHit (s : State) (c : Nat) (o : NapOp) : Bool :=
  o.bad || (Nd.opcode.get o.desc == 0x10 && napDescLegal s o.desc &&
    (match (s.cl c).fetchImage (Nat.max (o.issue + 4) (s.cl c).nap.lastEnd) (Nd.target.get o.desc) with
     | some img => img.any (·.2)
     | none => false))

/-- NAP_ILLEGAL (R173): 4 cycles; the illegal-operation counter and the late mark; the summary follows at end(n). `parity`: the
descriptor is found with bad parity in the issue queue (R279). -/
def execNapIllegal (c : NapHead) (s : State) : Out :=
  let ⟨c, parity⟩ := c
  takes (s.napStarts c 0 || (parity && s.napMay c)) s (fun s =>
    match s.ownerOfCluster c, (s.cl c).nap.queue with
    | some p, o :: _ =>
      let hit := parity || s.napHit c o
      let s := s.napBegin c 4 true [] false
      let s := (s.count p 1 c (wEvent 0) 1).lateCluster p c ((s.cl c).nap.run.elim 0 (·.start))
      if hit then (s.count p 1 c (wEvent 1) 1).fails p cfParity else s
    | _, _ => s)

/-- A summary register written; its status bits enter the tick's CONV_STATUS (R198, R199). -/
def State.setZ (s : State) (p c z w : Nat) : State :=
  if z = 15 then s
  else (s.modNap c (fun n => { n with z := SMap.put 0 n.z z (BitVec.ofNat 64 (clearBit w zGauge)) })).raiseConv p w

/-- The context of a RUN that ends. -/
def State.napCtx (s : State) (p : Nat) (r : NapRun) : NapCtx :=
  let x := parseProg r.image
  { prog := x
    size := r.image.length
    bases := napBases r.op.desc
    iters := Nd.iterations.get r.op.desc
    seed := match (s.pt p).slice with
      | some k => Job.jobSeed.get ((s.pt p).job k.job)
      | none => 0
    step := (s.pt p).step
    srStreams := (List.range x.streams.length).filter (fun k => (x.streams[k]?).any (fun st =>
      st.sr || (st.res != 0xFFFFFFFF && Rs.class_.get (s.resE st.res) == classGradient)))
    kinds := x.streams.map (fun st => Rs.kind.get (s.resE (if st.res = 0xFFFFFFFF then x.tensor else st.res)))
    run := r }

/-- Byte ranges of batt memory, with their captured values, taken from another image of the cluster. -/
def Cluster.takeSpans (cl new : Cluster) (spans : List (Nat × Nat)) : Cluster :=
  spans.foldl (fun (c : Cluster) r =>
    { c with batt := SMap.putList (0, false) c.batt r.1 (new.battRead r.1 r.2),
             cap := (new.cap.filter (fun kv => 8 * r.1 ≤ kv.1 && kv.1 < 8 * (r.1 + r.2))).foldl (fun m kv => SMap.ins m kv.1 kv.2)
               (c.cap.filter (fun kv => !(8 * r.1 ≤ kv.1 && kv.1 < 8 * (r.1 + r.2)))) }) cl

/-- The effects of the first `n` iterations of a RUN on its cluster, with lateness and parity hits, in cycle `cy`: its loads see batt
memory as before the writes of that cycle (R186). -/
def State.napEffect (s : State) (p c n cy : Nat) (r : NapRun) : State × NAcc :=
  let x := s.napCtx p r
  let cl := s.cl c
  let a := x.runs n ⟨cl.before cy, 0, 0, false, 0, [], [], [], 0, [], [], [], []⟩
  let new := if (cl.writes.at cy).isEmpty then a.cl else cl.takeSpans a.cl a.spans
  let s := s.battWrites p c cy .nap new a.spans
  let s := if a.late then s.lateCluster p c cy else s
  let s := if a.hits ≠ 0 then (s.count p 1 c (wEvent 1) a.hits).fails p cfParity else s
  (s, a)

/-- The end of a RUN: stores in batt memory, brim registers and the summary (R198). -/
def State.endRun (s : State) (p c : Nat) (r : NapRun) : State :=
  let x := s.napCtx p r
  let (s, a) := s.napEffect p c x.iters r.finish r
  let s := s.modNap c (fun n => { n with b := a.brim.foldl (fun m kv => SMap.put (0, false) m kv.1 kv.2) n.b })
  let (v, isInt, fl) := x.value a
  s.setZ p c (Nd.summary.get r.op.desc) (zWord (a.flags ||| fl ||| a.cv) (zSelect v isInt x.prog.ths) v isInt)

/-- NAP_OP_END (R170): the operation in progress ends. -/
def execNapOpEnd (c : ClusterId) (s : State) : Out :=
  match s.ownerOfCluster c, (s.cl c).nap.run with
  | some p, some r =>
    takes ((s.pt p).slice.isSome && r.finish < (s.pt p).edgeCycle) s (fun s =>
      let d := r.op.desc
      let z := Nd.summary.get d
      let s := (s.napBusy p c r.finish).at ((s.pt p).edgeNs + cycleNs r.finish)
      let s :=
        if r.illegal then
          let s := s.setZ p c z ((SMap.getD 0 (s.cl c).nap.z z).toNat ||| 2 ^ zPoison ||| 2 ^ zValid)
          if !r.fetched then s
          else
            let s := (s.count p 1 c (wEvent 0) 1).lateCluster p c r.finish
            if r.badAt.isEmpty then s else (s.count p 1 c (wEvent 1) 1).fails p cfParity
        else match Nd.opcode.get d with
          | 0x10 => s.endRun p c r
          | 0x11 =>
            let v := leNat r.image
            (s.battPut p c r.finish .nap ((Nd.base 1).get d) ((leBytes 4 v).map (·, false))).setZ p c z (zWord 0 0 v false)
          | 0x12 =>
            if (s.pt p).notes.length < 4096 then
              s.modPt p (fun x => { x with notes := x.notes ++ [⟨Nd.target.get d, (Nd.base 0).get d, leNat r.image⟩] })
            else (s.incRg (Obj.NOTE_OVERFLOW p) 1).lateCluster p c r.finish
          | 0x13 =>
            let w := leNat (r.image.take 8)
            let bad := imgField r.image 8 1 == 1
            let w := (w - (w &&& zReserved)) ||| 2 ^ zValid ||| (if bad then 2 ^ zPoison else 0)
            let s := s.setZ p c z w
            if bad then ((s.count p 1 c (wEvent 1) 1).fails p cfParity).lateCluster p c r.finish else s
          | _ => s.battPut p c r.finish .nap (Nd.target.get d) (r.image.map (·, false))
      s.modNap c (fun n => { n with run := none, lastEnd := r.finish }))
  | _, _ => .next s

/-- An operation abandoned at the edge: its cycles count, and the stores of the iterations of a RUN whose period had ended remain (R171;
log 39). -/
def State.napAbandon (s : State) (p c : Nat) : State :=
  let s := s.napBusy p c (s.pt p).edgeCycle
  match (s.cl c).nap.run with
  | some r =>
    if r.illegal || Nd.opcode.get r.op.desc != 0x10 then s
    else
      let x := s.napCtx p r
      let n := ((List.range x.iters).filter (fun t =>
        r.start + x.prog.iterStart x.size t (x.prog.passes - 1) + x.prog.period ≤ (s.pt p).edgeCycle)).length
      (s.napEffect p c n (s.pt p).edgeCycle r).1
  | none => s

end Sys2Proof.Machine
end

