-- ==== Sys2Proof/Machine/Crown.lean ====
section
/-!
DEFINITION. The crown cores (02_tick_and_schedule.md, Crown programs, R70 to R78): one definition per instruction.
An instruction command takes effect on a core that runs, whose present program word is that instruction (log 11).
-/

namespace Sys2Proof.Machine
open Sys2Proof

/-! ## The core -/

/-- A register read; x0 reads 0 (R74). -/
def Crown.reg (cr : Crown) (r : RegId) : Word := if r = 0 then 0 else (cr.regs[r.toNat]?).getD 0
/-- A register write; a write to x0 is ignored (R74). -/
def Crown.setReg (cr : Crown) (r : RegId) (v : Word) : Crown :=
  if r = 0 then cr else { cr with regs := cr.regs.setIfInBounds r.toNat v }

/-- The program bank in use (R73). -/
def Crown.bank (cr : Crown) : SMap (Word × Bool) := if cr.useB then cr.bankB else cr.bankA
/-- The word at a program address, with its parity mark. -/
def Crown.wordAt (cr : Crown) (a : Nat) : Word × Bool := SMap.getD (0, false) cr.bank (a / 8)
/-- The program's words: WORDS of its header. -/
def Crown.words (cr : Crown) : Nat := (cr.wordAt 0).1.toNat % 2 ^ 32

/-- The next program address and loop stack: a body that has ended repeats or is left (R75, LOOP). -/
def loopNext : List LoopFrame → Nat → Nat × List LoopFrame
  | [], pc => (pc, [])
  | f :: fs, pc =>
    if pc = f.last then (if 0 < f.left then (f.first, { f with left := f.left - 1 } :: fs) else loopNext fs pc)
    else (pc, f :: fs)

/-- An instruction of `k` cycles retires and the next begins at `next` in the cycle after (R74). -/
def Crown.retire (cr : Crown) (k next : Nat) : Crown :=
  { cr with pc := (loopNext cr.loops next).1, loops := (loopNext cr.loops next).2, cycle := cr.cycle + k, mode := .running }

/-- A core that can execute an instruction now: it runs a program of the slice, its cluster is not in reset, and the
instruction begins before the edge. -/
def State.coreLive (s : State) (p c : Nat) : Bool :=
  (s.pt p).slice.isSome && !(s.cl c).resetting && (s.cl c).crown.cycle < (s.pt p).edgeCycle

def State.coreRuns (s : State) (p c : Nat) : Bool :=
  s.coreLive p c && ((s.cl c).crown.mode == .running || (s.cl c).crown.mode == .waiting)

/-- Whether the word at the core's program address is the instruction `i`. -/
def State.coreAt (s : State) (c : ClusterId) (i : Instr) : Bool :=
  decodeCrown c ((s.cl c).crown.wordAt (s.cl c).crown.pc).1 == some i

/-- Whether the word at the core's program address holds bad parity. -/
def State.wordBad (s : State) (c : ClusterId) : Bool := ((s.cl c).crown.wordAt (s.cl c).crown.pc).2

/-- The core stops and its cluster's slice is late (R73, R75, R279). -/
def State.coreStop (s : State) (p c : Nat) (parity : Bool) : State :=
  let s := (s.modCl c (fun cl => { cl with crown := { cl.crown with mode := .stopped } })).lateCluster p c (s.cl c).crown.cycle
  if parity then (s.count p 2 c (wEvent 4) 1).fails p cfParity else s

/-- Updates of a core. -/
def State.modCrown (s : State) (c : Nat) (f : Crown → Crown) : State := s.modCl c (fun cl => { cl with crown := f cl.crown })

/-- The retirement of the present instruction after `k` cycles: its effect on the core, the counters, the watchdog's mark, the
trace and the instant (R74, R403, R480). -/
def State.coreRetire (s : State) (p c k next : Nat) (f : Crown → Crown) : State :=
  let cr := (s.cl c).crown
  let r := cr.cycle + k - 1
  let t := (s.pt p).edgeNs + cycleNs r
  let s := s.modCrown c (fun x => { (f x).retire k next with lastRetire := t })
  let s := (s.count p 2 c wBusy k).count p 2 c (wEvent 0) 1
  let s := (s.trace p c trInstr 0 r (cr.pc + ((cr.wordAt cr.pc).1.toNat % 2 ^ 32) * 2 ^ 32)).traceFire p c 1 r
    (cr.pc == s.rg (Obj.TRIGGER_ARG p) % 2 ^ 32)
  s.at t

/-- A stall of `n` cycles with a reason ends: it counts in the core, and in every array of the cluster for the cycles in which
the array does not stream (R480, R481). -/
def State.coreStall (s : State) (p c reason n : Nat) : State :=
  if n = 0 then s
  else
    let b := (s.cl c).crown.cycle
    let s := s.count p 2 c (wStall reason) n
    let s := (List.range 16).foldl (fun t a =>
      let busy := (((t.cl c).arr a).streams.map (fun se => Nat.min se.2 (b + n) - Nat.max se.1 b)).sum
      t.count p 0 (16 * c + a) (wStall reason) (n - busy)) s
    let s := s.trace p c trStall reason (b + n) n
    let s := s.traceFire p c 4 (b + n) (s.rg (Obj.TRIGGER_ARG p) ≤ n)
    s.modCrown c (fun x => { x with cycle := b + n, mode := .running })

/-- The frame of every crown instruction: the core must be at it; a parity error in the word that it fetches stops the core,
whatever the word holds (R73). -/
def crownExec (c : ClusterId) (i : Instr) (s : State) (eff : Nat → State → State) : Out :=
  match s.ownerOfCluster c with
  | none => .next s
  | some p =>
    takes (s.coreRuns p c && (s.coreAt c i || s.wordBad c)) s (fun s => if s.wordBad c then s.coreStop p c true else eff p s)

/-- A register instruction of `k` cycles. -/
def crownAlu (c : ClusterId) (i : Instr) (k : Nat) (rd : RegId) (v : Crown → Word) (s : State) : Out :=
  crownExec c i s (fun p s => s.coreRetire p c k ((s.cl c).crown.pc + 8) (fun cr => cr.setReg rd (v cr)))

/-! ## Register instructions (R75) -/

def execNop (c : ClusterId) (s : State) : Out :=
  crownExec c (.nop c) s (fun p s => s.coreRetire p c 1 ((s.cl c).crown.pc + 8) id)

def execLi (c : ClusterId) (rd : RegId) (imm : BitVec 32) (s : State) : Out :=
  crownAlu c (.li c rd imm) 1 rd (fun _ => imm.signExtend 64) s

/-- LIH: RD[63:32] ← IMM, RD[31:0] kept. -/
def execLih (c : ClusterId) (rd : RegId) (imm : BitVec 32) (s : State) : Out :=
  crownAlu c (.lih c rd imm) 1 rd (fun cr => imm ++ (cr.reg rd).extractLsb' 0 32) s

def execAdd (c : ClusterId) (rd rs1 rs2 : RegId) (s : State) : Out :=
  crownAlu c (.add c rd rs1 rs2) 1 rd (fun cr => cr.reg rs1 + cr.reg rs2) s

def execAddi (c : ClusterId) (rd rs1 : RegId) (imm : BitVec 32) (s : State) : Out :=
  crownAlu c (.addi c rd rs1 imm) 1 rd (fun cr => cr.reg rs1 + imm.signExtend 64) s

def execSub (c : ClusterId) (rd rs1 rs2 : RegId) (s : State) : Out :=
  crownAlu c (.sub c rd rs1 rs2) 1 rd (fun cr => cr.reg rs1 - cr.reg rs2) s

def execAnd (c : ClusterId) (rd rs1 rs2 : RegId) (s : State) : Out :=
  crownAlu c (.and_ c rd rs1 rs2) 1 rd (fun cr => cr.reg rs1 &&& cr.reg rs2) s

def execOr (c : ClusterId) (rd rs1 rs2 : RegId) (s : State) : Out :=
  crownAlu c (.or_ c rd rs1 rs2) 1 rd (fun cr => cr.reg rs1 ||| cr.reg rs2) s

def execXor (c : ClusterId) (rd rs1 rs2 : RegId) (s : State) : Out :=
  crownAlu c (.xor_ c rd rs1 rs2) 1 rd (fun cr => cr.reg rs1 ^^^ cr.reg rs2) s

def execShl (c : ClusterId) (rd rs1 : RegId) (sh : BitVec 6) (s : State) : Out :=
  crownAlu c (.shl c rd rs1 sh) 1 rd (fun cr => cr.reg rs1 <<< sh.toNat) s

def execShr (c : ClusterId) (rd rs1 : RegId) (sh : BitVec 6) (s : State) : Out :=
  crownAlu c (.shr c rd rs1 sh) 1 rd (fun cr => cr.reg rs1 >>> sh.toNat) s

def execMul (c : ClusterId) (rd rs1 rs2 : RegId) (s : State) : Out :=
  crownAlu c (.mul c rd rs1 rs2) 3 rd (fun cr => cr.reg rs1 * cr.reg rs2) s

def execSltu (c : ClusterId) (rd rs1 rs2 : RegId) (s : State) : Out :=
  crownAlu c (.sltu c rd rs1 rs2) 1 rd (fun cr => if (cr.reg rs1).toNat < (cr.reg rs2).toNat then 1 else 0) s

/-! ## Batt memory and summaries -/

/-- The address of LD, ST, ISSA and ISSN: RS1 + IMM sign-extended, modulo 2^64 (R75). -/
def Crown.ea (cr : Crown) (rs1 : RegId) (imm : BitVec 32) : Nat := (cr.reg rs1 + imm.signExtend 64).toNat

/-- LD: 8 B of batt memory in 4 cycles; a bad address or a parity hit stops the core (R75, R279). -/
def execLd (c : ClusterId) (rd rs1 : RegId) (imm : BitVec 32) (s : State) : Out :=
  crownExec c (.ld c rd rs1 imm) s (fun p s =>
    let a := (s.cl c).crown.ea rs1 imm
    if a % 8 ≠ 0 || battSize ≤ a then s.coreStop p c false
    else if ((s.cl c).before (s.cl c).crown.cycle).battBad a 8 then s.coreStop p c true
    else s.coreRetire p c 4 ((s.cl c).crown.pc + 8)
      (fun cr => cr.setReg rd (BitVec.ofNat 64 (leNat (((s.cl c).before (s.cl c).crown.cycle).battBytes a 8)))))

/-- ST: 8 B into batt memory; a bad address stops the core (R75). -/
def execSt (c : ClusterId) (rs1 rs2 : RegId) (imm : BitVec 32) (s : State) : Out :=
  crownExec c (.st c rs1 rs2 imm) s (fun p s =>
    let cr := (s.cl c).crown
    let a := cr.ea rs1 imm
    if a % 8 ≠ 0 || battSize ≤ a then s.coreStop p c false
    else (s.battPut p c cr.cycle .crown a ((leBytes 8 (cr.reg rs2).toNat).map (·, false))).coreRetire p c 1 (cr.pc + 8) id)

/-- Whether an operation that writes summary register `z` is issued and has not ended (R201). -/
def State.zPending (s : State) (c z : Nat) : Bool :=
  let n := (s.cl c).nap
  z != 15 && (n.queue.any (fun o => Nd.summary.get o.desc == z && napWritesZ s c o)
    || n.run.any (fun r => Nd.summary.get r.op.desc == z && (r.illegal || !napQuiet r.op)))

/-- A pending summary was named: the cluster's summary-order counter and the slice late (R201). -/
def State.summaryOrder (s : State) (p c : Nat) : State :=
  (s.count p 1 c (wEvent 3) 1).lateCluster p c (s.cl c).crown.cycle

/-- LDZ: RD ← a summary register; a pending one gives its former contents and is treated as R201 states (R75). -/
def execLdz (c : ClusterId) (rd : RegId) (z : BitVec 4) (s : State) : Out :=
  crownExec c (.ldz c rd z) s (fun p s =>
    let v := BitVec.ofNat 64 ((s.cl c).zRead z.toNat)
    let s := if s.zPending c z.toNat then s.summaryOrder p c else s
    s.coreRetire p c 1 ((s.cl c).crown.pc + 8) (fun cr => cr.setReg rd v))

/-! ## Issue -/

/-- Waits: the core stays at the instruction (R76, R92, R169). -/
def State.coreWait (s : State) (c : Nat) : State := s.modCrown c (fun cr => { cr with mode := .waiting })

/-- The cycle in which an issue to a queue of four retires: when the fourth operation before it has left the queue (R92, R169). -/
def issueCycle (b : Nat) (starts : List Nat) : Nat :=
  match starts.drop 3 with
  | st :: _ => Nat.max b st
  | [] => b

/-- From the closing guard on a core issues nothing: the item stays unissued and the slice is late (R48, R49). -/
def State.coreGuarded (s : State) (p c : Nat) : State := (s.lateCluster p c (s.cl c).crown.cycle).coreWait c

/-- The read windows of accumulator tiles by the RUN in progress: tile, first and last cycle (R187). Set by the Nap engine
when the RUN starts. -/
def NapRun.windowsOn (r : NapRun) (n : Nat) : List (Nat × Nat) :=
  (r.windows.filter (fun w => w.1 == n)).map (fun w => w.2)

/-- ISSA (R75, R92, R93): the descriptor enters the array's queue in the retiring cycle I(n), with its exact timing; a write
ownership that overlaps a read window of the running RUN is a conflict (R112). -/
def execIssa (c : ClusterId) (arr : BitVec 4) (discard : Bool) (tag : BitVec 7) (rs1 : RegId) (imm : BitVec 32) (s : State) : Out :=
  crownExec c (.issa c arr discard tag rs1 imm) s (fun p s =>
    let cl := s.cl c
    let a := arr.toNat
    let addr := cl.crown.ea rs1 imm
    let x := cl.arr a
    if addr % 8 ≠ 0 || battSize < addr + 32 then s.coreStop p c false
    else if x.queue.length ≥ 4 then s.coreWait c
    else
      let i := issueCycle cl.crown.cycle (x.streams.map (·.1))
      if i ≥ (s.pt p).guardCycle then s.coreGuarded p c
      else
        let s := s.coreStall p c 5 (i - cl.crown.cycle)
        let d : ADesc := BitVec.ofNat 256 (leNat ((cl.before i).battBytes addr 32))
        let bad := (cl.before i).battBad addr 32
        let (st, en, co) := arrayTiming i x.lastEnd d bad
        let o : ArrOp := ⟨d, bad, discard, tag.toNat, i, st, en, co, Tile.empty⟩
        let n := 64 * a + Ad.tile.get d
        let s := s.modCl c (fun cl => cl.modArr a (fun x =>
          { x with queue := x.queue ++ [o], lastEnd := en, streams := (st, en) :: x.streams }))
        let s := match cl.nap.run with
          | some r => (match clashAt i co (r.windowsOn n) with
            | some cy => s.tileConflict c n cy
            | none => s)
          | none => s
        let s := s.trace p c trIssue 0 i (a + Ad.opcode.get d * 2 ^ 8 + Ad.tile.get d * 2 ^ 16 + (x.queue.length + 1) * 2 ^ 24
          + (if discard then 2 ^ 32 else 0) + (if tag = 0 then 0xFF else tag.toNat - 1) * 2 ^ 33)
        s.coreRetire p c 1 ((s.cl c).crown.pc + 8) id)

/-- ISSN (R75, R169): the Nap descriptor enters the Nap queue. -/
def execIssn (c : ClusterId) (rs1 : RegId) (imm : BitVec 32) (s : State) : Out :=
  crownExec c (.issn c rs1 imm) s (fun p s =>
    let cl := s.cl c
    let addr := cl.crown.ea rs1 imm
    if addr % 8 ≠ 0 || battSize < addr + 32 then s.coreStop p c false
    else if cl.nap.queue.length ≥ 4 then s.coreWait c
    else
      let i := issueCycle cl.crown.cycle (List.replicate cl.nap.queue.length 0 ++ cl.nap.recent)
      if i ≥ (s.pt p).guardCycle then s.coreGuarded p c
      else
        let s := s.coreStall p c 5 (i - cl.crown.cycle)
        let d : BitVec 256 := BitVec.ofNat 256 (leNat ((cl.before i).battBytes addr 32))
        let o : NapOp := ⟨d, (cl.before i).battBad addr 32, i⟩
        let s := s.modCl c (fun cl => { cl with nap := { cl.nap with queue := cl.nap.queue ++ [o] } })
        let s := s.trace p c trIssue 1 i ((d.toNat % 256) * 2 ^ 8 + (d.toNat / 256 % 16) * 2 ^ 16
          + (cl.nap.queue.length + 1) * 2 ^ 24 + 0xFF * 2 ^ 33)
        s.coreRetire p c 1 ((s.cl c).crown.pc + 8) id)

/-! ## Waiting (R76) -/

/-- The stall reason that an item of a WAIT class gives (R481): ACCUMULATOR, BATT, MEMORY or CXL, and NETWORK; R481 gives none for
a Reblock item that is no MOVE from a port queue, and NETWORK is the model's choice there (log 103). -/
def State.waitReason (s : State) (p cls n : Nat) : Nat :=
  if cls = 0 then 4
  else if cls = 1 then 0
  else if cls = 2 then
    match s.running p with
    | some (b, k, _) => if s.burstOnCxl (s.burst b k n) then 2 else 1
    | none => 1
  else 3

/-- The completion cycle of one item of a class; none while it has not completed. A burst not taken completes at its START_NS. -/
def State.waitItem (s : State) (p c cls n : Nat) : Option Nat :=
  let cl := s.cl c
  if cls = 0 then
    let x := cl.arr (n / 64)
    if (x.queue ++ x.flight).any (fun o => Ad.tile.get o.desc == n % 64) then none else some (cl.tile n).doneAt
  else if cls = 1 then
    if cl.nap.queue.isEmpty && cl.nap.run.isNone then some cl.nap.lastEnd else none
  else
    match s.running p with
    | none => none
    | some (b, k, r) =>
      let it := if cls = 2 then SMap.getD ItemRun.none r.bursts n
        else if cls = 3 then SMap.getD ItemRun.none r.slots n
        else SMap.getD ItemRun.none r.reblock (65536 * (quarterOf12 c) + n)
      match it.state with
      | .finished => some (nsCycle it.finish)
      | .notTaken => some (nsCycle (if cls = 2 then Bu.startNs.get (s.burst b k n) else it.finish))
      | _ => none

/-- The last completion among the items of a WAIT, with its reason; none while one has not completed. -/
def State.waitDone (s : State) (p c cls : Nat) : List Nat → Option (Nat × Nat)
  | [] => some (0, 4)
  | n :: ns =>
    match s.waitItem p c cls n, s.waitDone p c cls ns with
    | some a, some b => some (if a < b.1 then b else (a, s.waitReason p cls n))
    | _, _ => none

/-- The items that a WAIT names; the field `count` holds COUNT − 1. -/
def waitItems (count : BitVec 16) (first : BitVec 32) : List Nat := (List.range (count.toNat + 1)).map (fun i => first.toNat + i)

/-- The reason of the stall that a WAIT is in: that of the last of its items that have not completed. -/
def State.waitsFor (s : State) (p c cls : Nat) (items : List Nat) : Nat :=
  match (items.filter (fun n => (s.waitItem p c cls n).isNone)).getLast? with
  | some n => s.waitReason p cls n
  | none => s.waitReason p cls (items.headD 0)

/-- A core that an edge finds waiting: its cycles up to the edge were stalled, for the item of a WAIT, and else for the issue
(R71, R75, R76, R480). -/
def State.edgeStall (s : State) (p : Nat) (c : ClusterId) : State :=
  let cr := (s.cl c).crown
  let n := (s.pt p).edgeCycle - cr.cycle
  match cr.mode with
  | .until_ _ => s.coreStall p c 5 n
  | .join _ _ => s.coreStall p c 5 n
  | .waiting =>
    match decodeCrown c (cr.wordAt cr.pc).1 with
    | some (.wait _ cls count first) => s.coreStall p c (s.waitsFor p c cls.toNat (waitItems count first)) n
    | _ => s.coreStall p c 5 n
  | _ => s

/-- The waiting cores of a partition at an edge. -/
def State.edgeStalls (s : State) (p : Nat) : State :=
  match (s.pt p).built with
  | some r => (maskList 48 r.clusters).foldl (fun t c => if h : c < 48 then t.edgeStall p ⟨c, h⟩ else t) s
  | none => s

/-- WAIT: retires when every item FIRST to FIRST + COUNT − 1 of its CLASS has completed; until then the core stalls. The field
`count` holds COUNT − 1. -/
def execWait (c : ClusterId) (cls : BitVec 3) (count : BitVec 16) (first : BitVec 32) (s : State) : Out :=
  crownExec c (.wait c cls count first) s (fun p s =>
    match s.waitDone p c cls.toNat (waitItems count first) with
    | none => s.coreWait c
    | some (done, reason) =>
      if (s.pt p).edgeCycle ≤ done then s.coreWait c
      else
        let s := s.coreStall p c reason (done - (s.cl c).crown.cycle)
        s.coreRetire p c 1 ((s.cl c).crown.pc + 8) id)

/-- UNTIL: no wait when the cycle has passed; else the core idles until it (R75). -/
def execUntil (c : ClusterId) (imm : BitVec 32) (s : State) : Out :=
  crownExec c (.until_ c imm) s (fun p s =>
    if imm.toNat ≤ (s.cl c).crown.cycle then s.coreRetire p c 1 ((s.cl c).crown.pc + 8) id
    else s.modCrown c (fun cr => { cr with mode := .until_ imm.toNat }))

/-- UNTIL_REACHED: the named cycle comes and the instruction retires in it; the idle cycles are issue stalls. -/
def execUntilReached (c : ClusterId) (s : State) : Out :=
  match s.ownerOfCluster c with
  | none => .next s
  | some p =>
    match (s.cl c).crown.mode with
    | .until_ n =>
      takes (s.coreLive p c && n < (s.pt p).edgeCycle) s (fun s =>
        (s.coreStall p c 5 (n - (s.cl c).crown.cycle)).coreRetire p c 1 ((s.cl c).crown.pc + 8) id)
    | _ => .next s

/-! ## Branch points (R70, R71, R77, R200, R201) -/

/-- The program's branch points: BRANCH words in program order below the address `e`, their table words passed over. -/
def Crown.pointsFrom (cr : Crown) (c : ClusterId) (e : Nat) : Nat → Nat → List Nat
  | 0, _ => []
  | n + 1, a =>
    if e ≤ a then []
    else match decodeCrown c (cr.wordAt a).1 with
      | some (.branch _ _ _ _ alts _) => a :: cr.pointsFrom c e n (a + 8 * (alts.toNat + 2))
      | _ => cr.pointsFrom c e n (a + 8)

/-- Program addresses of the branch points; the position in the list is the branch point's number. -/
def Crown.branchPoints (cr : Crown) (c : ClusterId) : List Nat := cr.pointsFrom c (16 + 8 * cr.words) cr.words 16

/-- The program address after the last ENDA that ends an alternative starting at `a`: nested branch points are passed over.
`depth` counts the alternatives still to end. -/
def Crown.skipAlts (cr : Crown) (c : ClusterId) : Nat → Nat → Nat → Nat
  | 0, _, a => a
  | _ + 1, 0, a => a
  | n + 1, depth + 1, a =>
    match decodeCrown c (cr.wordAt a).1 with
    | some (.branch _ _ _ _ alts _) => cr.skipAlts c n (depth + 1 + alts.toNat + 1) (a + 8 * (alts.toNat + 2))
    | some (.enda _) => cr.skipAlts c n depth (a + 8)
    | _ => cr.skipAlts c n (depth + 1) (a + 8)

/-- Table word `k` of a BRANCH at `a`: the address of alternative k. -/
def Crown.altAddr (cr : Crown) (a k : Nat) : Nat := (cr.wordAt (a + 8 + 8 * k)).1.toNat % 2 ^ 32
/-- The address at which execution resumes after the alternatives of a BRANCH at `a` with `n` of them. -/
def Crown.resumeAddr (cr : Crown) (c : ClusterId) (a n : Nat) : Nat := cr.skipAlts c cr.words n (a + 8 * (n + 1))
/-- The address after alternative `k`. -/
def Crown.altEnd (cr : Crown) (c : ClusterId) (a k : Nat) : Nat := cr.skipAlts c cr.words 1 (cr.altAddr a k)

/-- BRANCH: selects an alternative from the summary, alternative 0 on a pending one; branch points inside the other alternatives
are skipped (R40, R77). A parity error in the table word of the alternative stops the core (R73). -/
def execBranch (c : ClusterId) (z : BitVec 4) (flag : Bool) (b : BitVec 6) (alts : BitVec 2) (join : BitVec 32) (s : State) : Out :=
  crownExec c (.branch c z flag b alts join) s (fun p s =>
    let cl := s.cl c
    let cr := cl.crown
    let n := alts.toNat + 1
    let r := cr.cycle
    let pending := s.zPending c z.toNat
    let k := if pending then 0 else zAlternative (cl.zRead z.toNat) flag b.toNat n
    if (cr.wordAt (cr.pc + 8 + 8 * k)).2 then s.coreStop p c true
    else
    let pts := cr.branchPoints c
    let resume := cr.resumeAddr c cr.pc n
    let inAlts := fun a => cr.pc < a && a < resume
    let inTaken := fun a => cr.altAddr cr.pc k ≤ a && a < cr.altEnd c cr.pc k
    let marks := ((List.range pts.length).zip pts).foldl (fun m ia =>
      if ia.2 == cr.pc then SMap.ins m ia.1 (.taken k r)
      else if inAlts ia.2 && !inTaken ia.2 then SMap.ins m ia.1 (.skipped r) else m) cr.points
    let s := if pending then s.summaryOrder p c else s
    let s := s.modCrown c (fun x => { x with points := marks, branches := ⟨resume, r + join.toNat, false⟩ :: x.branches })
    let s := (s.count p 2 c (wEvent 1) 1).trace p c trBranch k r (cr.pc + z.toNat * 2 ^ 32)
    let s := s.traceFire p c 2 r (cr.pc == s.rg (Obj.TRIGGER_ARG p) % 2 ^ 32 && k == s.rg (Obj.TRIGGER_ARG p) / 2 ^ 32 % 4)
    s.coreRetire p c 1 (cr.altAddr cr.pc k) id)

/-- A JOIN is overrun: counted, traced, and the slice late (R71). -/
def State.joinOverrun (s : State) (p c : Nat) : State :=
  let cr := (s.cl c).crown
  ((s.count p 2 c (wEvent 2) 1).trace p c trBranch 0 cr.cycle (cr.pc + 2 ^ 36)).lateCluster p c cr.cycle

/-- ENDA: the core idles until JOIN; when it retires after JOIN, the JOIN is overrun and the core goes on after the
alternatives (R71). -/
def execEnda (c : ClusterId) (s : State) : Out :=
  crownExec c (.enda c) s (fun p s =>
    match (s.cl c).crown.branches with
    | [] => s.coreRetire p c 1 ((s.cl c).crown.pc + 8) id
    | f :: fs =>
      if (s.cl c).crown.cycle ≤ f.joinAt then
        let s := s.coreRetire p c 1 ((s.cl c).crown.pc + 8) (fun cr => { cr with branches := fs })
        s.modCrown c (fun cr => { cr with mode := .join f.joinAt f.resume })
      else
        let s := if f.overrun then s else s.joinOverrun p c
        s.coreRetire p c 1 f.resume (fun cr => { cr with branches := fs }))

/-- JOIN_RESUME: JOIN cycles after the branch point the core resumes after the alternatives, the idle cycles being issue stalls;
or the alternative has not ended and the JOIN is overrun (R70, R71). -/
def execJoinResume (c : ClusterId) (s : State) : Out :=
  match s.ownerOfCluster c with
  | none => .next s
  | some p =>
    match (s.cl c).crown.mode, (s.cl c).crown.branches with
    | .join n pc, _ =>
      takes (s.coreLive p c && n < (s.pt p).edgeCycle) s (fun s =>
        let s := s.coreStall p c 5 (n + 1 - (s.cl c).crown.cycle)
        s.modCrown c (fun cr => { cr with pc := (loopNext cr.loops pc).1, loops := (loopNext cr.loops pc).2, mode := .running }))
    | _, f :: fs =>
      takes (s.coreLive p c && !f.overrun && f.joinAt < (s.cl c).crown.cycle) s (fun s =>
        (s.joinOverrun p c).modCrown c (fun cr => { cr with branches := { f with overrun := true } :: fs }))
    | _, [] => .next s

/-! ## Loops, jumps and the end -/

/-- LOOP: the next BODY words run COUNT times; bodies nest at most 4 deep (R75, R78). -/
def execLoop (c : ClusterId) (body : BitVec 16) (count : BitVec 32) (s : State) : Out :=
  crownExec c (.loop c body count) s (fun p s =>
    let pc := (s.cl c).crown.pc
    s.coreRetire p c 1 (pc + 8) (fun cr =>
      { cr with loops := ⟨pc + 8, pc + 8 + 8 * body.toNat, count.toNat - 1⟩ :: cr.loops.take 3 }))

def execJmp (c : ClusterId) (imm : BitVec 32) (s : State) : Out :=
  crownExec c (.jmp c imm) s (fun p s => s.coreRetire p c 1 imm.toNat id)

/-- DONE: the end of the program; the core idles until the edge (R50). -/
def execDone (c : ClusterId) (s : State) : Out :=
  crownExec c (.done c) s (fun p s =>
    let cr := (s.cl c).crown
    let s := s.coreRetire p c 1 cr.pc id
    (s.modCrown c (fun x => { x with mode := .done, loops := [] })).trace p c trDone 0 cr.cycle cr.pc)

end Sys2Proof.Machine
end

