-- ==== Sys2Proof/Machine/Rights.lean ====
section
/-!
DEFINITION. Jenjo sessions as the commands see them (13_management.md): window objects, response status codes, and the rights
table of R459 and R460.
-/

namespace Sys2Proof.Machine
open Sys2Proof

/-! ## Response status (13) -/
abbrev stOk : Nat := 0x00
abbrev stNoObject : Nat := 0x01
abbrev stAccess : Nat := 0x02
abbrev stRights : Nat := 0x03
abbrev stRange : Nat := 0x04
abbrev stState : Nat := 0x05
abbrev stLength : Nat := 0x06
abbrev stReserved : Nat := 0x07
abbrev stRefused : Nat := 0x08
abbrev stSegment : Nat := 0x09
abbrev stSessionsFull : Nat := 0x0A

/-- The answer to a WRITE: its status, and the refusal code of DETAIL. -/
structure Answer where
  code : Nat
  detail : Nat
  deriving DecidableEq, Repr

abbrev Answer.ok : Answer := ⟨stOk, 0⟩
abbrev Answer.of (c : Nat) : Answer := ⟨c, 0⟩

/-! ## Roles -/
abbrev roleAdmin : Nat := 1
abbrev roleOwner : Nat := 2
abbrev roleUser : Nat := 3
abbrev roleClaim : Nat := 4

/-- The open session of an identifier. -/
def State.session (s : State) (id : Nat) : Option Session := s.sessions.find? (fun x => x.id == id && x.open_)

def State.modSession (s : State) (id : Nat) (f : Session → Session) : State :=
  { s with sessions := s.sessions.map (fun x => if x.id == id then f x else x) }

/-- A window object of a session (R453). -/
def Session.win (x : Session) (key : Nat) : Nat := (SMap.getD (objDefault key) x.regs key).toNat
def State.win (s : State) (id key : Nat) : Nat :=
  match s.session id with
  | some x => x.win key
  | none => (objDefault key).toNat
def State.setWin (s : State) (id key v : Nat) : State :=
  s.modSession id (fun x => { x with regs := SMap.put (objDefault key) x.regs key (BitVec.ofNat 64 (objMask key v)) })
def State.winDom (s : State) (id key : Nat) : List Byte :=
  match s.session id with
  | some x => SMap.getD [] x.doms key
  | none => []
def State.setWinDom (s : State) (id key : Nat) (v : List Byte) : State :=
  s.modSession id (fun x => { x with doms := SMap.put [] x.doms key v })

/-- Whether a session may act for a partition: an admin for every one, an owner or user for its own (R460). -/
def State.actsFor (s : State) (id p : Nat) : Bool :=
  match s.session id with
  | some x => x.role == roleAdmin || x.part == p
  | none => false

/-- USER_GRANTS of a partition (13). -/
def State.grant (s : State) (p b : Nat) : Bool := (s.rg (Obj.USER_GRANTS p)).testBit b

/-- The partition whose objects an index holds: 0x3000 + p × 0x100 and the ranges of one index per partition. -/
def indexPart (ix : Nat) : Option Nat :=
  if 0x3000 ≤ ix && ix < 0x3C00 then some ((ix - 0x3000) / 0x100)
  else ([0x6010, 0x6100, 0x6200, 0x7000, 0x7100, 0x7810, 0x7820, 0x7830].find? (fun b => b ≤ ix && ix < b + 12)).map (ix - ·)

/-- The windows of the table commands. -/
def isTableWindow (ix : Nat) : Bool := ix == 0x2241 || ix == 0x2300 || ix == 0x4410 || ix == 0x4411 || ix == 0x4800 || (0x5800 ≤ ix && ix ≤ 0x5803)

/-- Key registry and device-wide configuration. -/
def isDeviceWide (ix : Nat) : Bool :=
  ix == 0x1100 || ix == 0x1400 || (0x2000 ≤ ix && ix ≤ 0x23FF) || (0x4000 ≤ ix && ix ≤ 0x44FF) || (0x5000 ≤ ix && ix ≤ 0x50FF) || ix == 0x7800
    || (0x8000 ≤ ix && ix ≤ 0x80FF) || (0x9000 ≤ ix && ix ≤ 0x90FF)

/-- The partition on whose resource a resource command acts: ADAPT of a port, RETRAIN_DEVICE of a device, CXL_REMOVE of a port
inside its ranges. -/
def State.resourcePart (s : State) (key value : Nat) : List Nat :=
  let ix := key / 256
  (List.range 12).filter (fun p => match (s.pt p).built with
    | some r =>
      if key == Obj.RETRAIN_DEVICE then value < 48 && r.devices.testBit value
      else if 0x2210 ≤ ix && ix < 0x2218 && key % 256 == 3 then r.cxl.any (fun c => c.1 == ix - 0x2210)
      else if 0x4000 ≤ ix && ix < 0x4400 && ix % 16 == 0 && key % 256 == 8 then r.ports.testBit ((ix - 0x4000) / 16)
      else false
    | none => false)

/-- Whether a session may write an object (R459), here with the value written, which names the resource of RETRAIN_DEVICE. While the
milliner restarts, Jenjo service is suspended (R18). -/
def State.mayWrite (s : State) (id key value : Nat) : Bool :=
  s.boot.milliner && match s.session id with
  | none => false
  | some x =>
    let ix := key / 256
    if ix = 0x1101 then true
    else if x.role = roleAdmin then true
    else if isTableWindow ix then
      x.role == roleOwner || (x.role == roleUser && ((ix == 0x5800 && s.grant x.part 3) || (ix == 0x5803 && s.grant x.part 4)))
    else if (s.resourcePart key value).contains x.part then x.role == roleOwner
    else if isDeviceWide ix then false
    else match indexPart ix with
      | some p => x.role == roleOwner && x.part == p && key != Obj.OWNER_KEYS p
      | none => x.role == roleOwner && (ix == 0x6400 || ix == 0x7040)

/-- What a user session reads of partition p's objects by USER_GRANTS (log 12). -/
def State.userReads (s : State) (p ix : Nat) : Bool :=
  if 0x3000 ≤ ix && ix < 0x3C00 then
    let k := ix % 256
    if k = 5 || k = 6 then s.grant p 2 else if k = 7 || k = 8 || k = 9 || k = 0xB then s.grant p 0 else if k = 0xA then s.grant p 3 else false
  else if 0x6000 ≤ ix && ix < 0x7000 then s.grant p 0
  else if 0x7000 ≤ ix && ix < 0x7400 then s.grant p 1
  else false

/-- Whether a session may read an object (R459, R489). -/
def State.mayRead (s : State) (id key : Nat) : Bool :=
  match s.session id with
  | none => false
  | some x =>
    let ix := key / 256
    if ix = 0x1000 || ix = 0x1101 || x.role = roleAdmin then true
    else if isTableWindow ix then
      x.role == roleOwner || (x.role == roleUser && ((ix == 0x5800 && s.grant x.part 3) || (ix == 0x5803 && s.grant x.part 4)))
    else if isDeviceWide ix then x.role == roleOwner
    else match indexPart ix with
      | some p => x.part == p && (x.role == roleOwner || s.userReads p ix)
      | none => x.role == roleOwner || s.userReads x.part ix

/-- A command given by a session's write of an object: taken where the session is open and may write it (R459). -/
def State.command (s : State) (id key value : Nat) (op : State → State) : Out := takes (s.mayWrite id key value) s op

/-! ## The generic part of the enable-and-check (R464) -/

/-- The refusal code of a check: the first that applies. -/
def firstCode (cs : List (Bool × Nat)) : Nat := ((cs.find? (·.1)).map (·.2)).getD 0

/-- Whether base i of a table is set and accepted. -/
def State.tableSet (s : State) (i : Nat) : Bool := (s.rg Obj.TABLES_SET).testBit i
/-- Whether a device holds a device-wide table, and never enters self-refresh (R463). -/
def State.holdsTable (s : State) (d : Nat) : Bool := (List.range 6).any (fun i => s.tableSet i && s.rg (okey 0x5000 (i + 1)) / 2 ^ 32 == d)

/-- An entry image that is read with poison (0x04). -/
def State.imagePoison (s : State) (a n : Nat) : Bool := s.memBad a n

end Sys2Proof.Machine
end

