-- ==== Sys2Proof/Machine/ResTable.lean ====
section
/-!
DEFINITION. The Residency Table's enable-and-check (08_memory_and_residency.md R289 to R293; 13_management.md R462 to R464), and
the commands RES_ENABLE, RES_DISABLE and RES_LIST.
-/

namespace Sys2Proof.Machine
open Sys2Proof

/-- The bytes of every in-memory table that is in place: start and length (13, Table bases; 13, JOB_TABLE_BASE). -/
def State.tableRanges (s : State) : List (Nat × Nat) :=
  ((List.range 6).filter s.tableSet).map (fun i =>
    (s.rg (okey 0x5000 (i + 1)), [16777216, 524288, 1048576, 4194304, 2097152, 65536].getD i 0)) ++
  ((List.range 12).filter (fun p => (s.pt p).built.isSome)).map (fun p => (s.rg (Obj.JOB_TABLE_BASE p), 32768))

/-- Whether two byte ranges share a byte. -/
def overlaps (a n b m : Nat) : Bool := a < b + m && b < a + n

/-- Whether bytes of the reference store lie within the image of a VERIFIED slot. -/
def State.verifiedImage (s : State) (a n : Nat) : Bool :=
  (List.range 16).any (fun k => s.rg (Obj.SLOT_STATE k) == 2 && s.rg (Obj.SLOT_BASE_9042 k) ≤ a
    && a + n ≤ s.rg (Obj.SLOT_BASE_9042 k) + (SMap.getD RefSlot.empty s.refs k).bytes)

/-- RES_RANGE (R290, 0x34): BASE lies in the region of TIER, the slots stay on one device or port of the partition, or in the
reference store, and cover no in-memory table. -/
def State.resRange (s : State) (p : Nat) (e : ResEntry) : Bool :=
  let a := ResEntry.slotAddr e 0
  let n := ResEntry.bytes e
  let tier := Rs.tier.get e
  (match s.region a with
    | some (.gddr d) => tier == tierGddr && a + n ≤ gddrBase (d + 1)
        && (match (s.pt p).built with
          | some r => r.devices.testBit d
          | none => false)
    | some (.cxl x) => tier == tierCxl && a + n ≤ cxlBase x + s.cxlBytes x
        && (match (s.pt p).built with
          | some r => r.cxl.any (fun c => c.1 == x && cxlBase x + c.2.1 * 65536 ≤ a && a + n ≤ cxlBase x + (c.2.1 + c.2.2) * 65536)
          | none => false)
    | some .refstore => tier == tierRef && a + n ≤ refBase + Config.refstoreBytes
    | none => false)
  && (s.tableRanges.all (fun t => !overlaps a n t.1 t.2))

/-- RES_PAIR (R209; R290, 0x39). -/
def State.resPairBad (s : State) (i : Nat) (e : ResEntry) : Bool :=
  let j := Rs.linkIndex.get e
  let f := s.resE j
  Rs.bwdMode.get e == bwdPaired &&
    (!(s.resEnabled j && Rs.partition.get f == Rs.partition.get e && Rs.kind.get f == kindWeight && Rs.bwdMode.get f == 0
        && Rs.rows.get f == Rs.cols.get e && Rs.cols.get f == Rs.rows.get e)
      || s.resList.any (fun kv => kv.1 != i && Rs.bwdMode.get kv.2 == bwdPaired && Rs.linkIndex.get kv.2 == j)
      || Rs.role.get f != rolePaired || Rs.linkIndex.get f != i)

/-- RES_FORMAT (0x32): whether FORMAT is not allowed for CLASS. -/
def resFormatBad (e : ResEntry) : Bool :=
  let f := Rs.format.get e
  let c := Rs.class_.get e
  (c == classGradient && !(f ≤ 0x0A || f == 0x10 || f == 0x11)) || ((c == classHistory || c == classRecord) && f != 0x12)

/-- RES_SHAPE (0x33). -/
def resShapeBad (e : ResEntry) : Bool :=
  let r := Rs.rows.get e
  let c := Rs.cols.get e
  r == 0 || c == 0 || (Rs.format.get e == 0x11 && (r % 16 != 0 || c % 16 != 0))
    || (Rs.class_.get e == classHistory && (r != 1 || c != 68)) || ResEntry.stride e > 2 ^ 36

/-- The checks of an entry image in order (R290), after 0x03, 0x05 and 0x06; `pin`: at pinning, where 0x37 does not apply
(R293); `acts`: the session may act for the entry's partition. -/
def State.resCheck (s : State) (i : Nat) (e : ResEntry) (poison acts pin : Bool) : Nat :=
  let p := Rs.partition.get e
  let ck := Rs.ckpt.get e
  let tier := Rs.tier.get e
  let role := Rs.role.get e
  firstCode [
    (poison, 0x04),
    (Rs.rsv0.get e != 0 || Rs.rsv1.get e != 0 || Rs.rsv2.get e != 0, 0x01),
    (!fmtDefined (Rs.format.get e), 0x02),
    (p ≥ 12 || (s.pt p).built.isNone || !acts, 0x30),
    (Rs.kind.get e ≥ 5 || Rs.class_.get e ≥ 4 || role == 3 || tier == 3, 0x31),
    (resFormatBad e, 0x32),
    (resShapeBad e, 0x33),
    (!s.resRange p e, 0x34),
    (s.resList.any (fun kv => kv.1 != i && overlaps (ResEntry.slotAddr e 0) (ResEntry.bytes e) (ResEntry.slotAddr kv.2 0) (ResEntry.bytes kv.2)), 0x35),
    (Rs.cur.get e > Rs.buffers.get e || Rs.provSlot.get e > Rs.buffers.get e, 0x36),
    (!pin && (Rs.version.get e == noVersion || Rs.provTag.get e != noVersion || Rs.linkVersion.get e != noVersion), 0x37),
    (Rs.bwdMode.get e == 3 || (Rs.bwdMode.get e != 0 && (Rs.kind.get e != kindWeight || role != 0 || tier == tierRef)), 0x38),
    (s.resPairBad i e, 0x39),
    (ck == 3 || (ck == ckptPress && tier != tierGddr) || (ck == ckptMirror && tier == tierGddr && ResEntry.bytes e > s.rg Obj.MIRROR_LIMIT)
      || (ck != 0 && (tier == tierRef || role == rolePaired || role == roleGathered)), 0x3A),
    (tier == tierRef && (Rs.kind.get e != kindWeight || Rs.frozen.get e == 0 || Rs.buffers.get e != 0
      || !s.verifiedImage (ResEntry.slotAddr e 0) (ResEntry.stride e)), 0x3B),
    ((role != 0 && Rs.kind.get e != kindWeight) || (role == rolePaired && (Rs.frozen.get e == 1 || Rs.bwdMode.get e != 0)), 0x3C)]

def State.resImageAddr (s : State) (i : Nat) : Nat := s.rg Obj.RES_BASE + 32 * i
/-- The image of an entry in memory. -/
def State.resImage (s : State) (i : Nat) : ResEntry := s.memRec (s.resImageAddr i) 32
/-- An entry written to its memory image. -/
def State.resWriteBack (s : State) (i : Nat) (e : ResEntry) : State := s.memPut (s.resImageAddr i) (leBytes 32 e.toNat)

/-- One entry offered to the enable-and-check by a session: the state after it and its code (R289, R464). -/
def State.resOffer (s : State) (id i : Nat) : State × Nat :=
  let user := match s.session id with
    | some x => x.role == roleUser
    | none => true
  if !s.tableSet 0 || i ≥ 524288 then (s, 0x03)
  else if user then (s, 0x05)
  else if s.resEnabled i then (s, 0x06)
  else
    let e := s.resImage i
    let code := s.resCheck i e (s.imagePoison (s.resImageAddr i) 32) (s.actsFor id (Rs.partition.get e)) false
    let e := Rs.refusal.set e code
    if code = 0 then
      let e := Rs.enable.set e 1
      (({ s with resAt := SMap.ins s.resAt i s.now } : State).setRes i e |>.resWriteBack i e, 0)
    else (s.resWriteBack i (Rs.enable.set e 0), code)

/-- RES_COMMAND 0x01 of a session on its RES_INDEX. -/
def State.resEnable (s : State) (id : Nat) : State :=
  let (s, code) := s.resOffer id (s.win id Obj.RES_INDEX)
  s.setWin id Obj.RES_RESULT code

/-- Whether a job accepted or ticking pins an entry. -/
def State.resPinned (s : State) (p i : Nat) : Bool := (s.pt p).pins.any (fun kv => kv.2.contains i)

/-- Whether a disable of an enabled entry is rejected (R291). -/
def State.resHeldBack (s : State) (i : Nat) : Bool :=
  let e := s.resE i
  let p := Rs.partition.get e
  s.resPinned p i || s.resList.any (fun kv => Rs.bwdMode.get kv.2 == bwdPaired && Rs.linkIndex.get kv.2 == i)
    || Rs.provTag.get e != noVersion || s.inSweep p i

/-- RES_COMMAND 0x02: the state after it, and the answer to the WRITE. -/
def State.resDisable (s : State) (id : Nat) : State × Answer :=
  let i := s.win id Obj.RES_INDEX
  if !s.tableSet 0 then (s.setWin id Obj.RES_RESULT 0x03, .ok)
  else if !s.resEnabled i then (s.setWin id Obj.RES_RESULT 0, .ok)
  else if !s.actsFor id (Rs.partition.get (s.resE i)) then (s.setWin id Obj.RES_RESULT 0x30, .ok)
  else if s.resHeldBack i then (s, .of stState)
  else
    let e := Rs.refusal.set (Rs.enable.set (s.resE i) 0) 0
    (((({ s with resAt := SMap.del s.resAt i } : State).setRes i 0).resWriteBack i e).setWin id Obj.RES_RESULT 0, .ok)

/-- RES_LIST: the indices of a list offered one after another; RES_RESULT takes the first refusal code of the list, and
RES_LIST_REFUSED their number. -/
def State.resList_ (s : State) (id : Nat) (list_ : List Byte) : State :=
  let ix := (chunks4 list_)
  let (s, codes) := ix.foldl (fun (t : State × List Nat) i =>
    let (u, c) := t.1.resOffer id i
    (u, t.2 ++ [c])) (s, [])
  let bad := codes.filter (· != 0)
  (s.setWin id Obj.RES_RESULT (bad.headD 0)).setWin id Obj.RES_LIST_REFUSED bad.length
where
  /-- The 4 B words of a byte list. -/
  chunks4 : List Byte → List Nat
    | a :: b :: c :: d :: r => leNat [a, b, c, d] :: chunks4 r
    | _ => []

/-- Whether a RES_LIST value fits: whole 4 B indices, at most 4,096 of them. -/
def resListFits (l : List Byte) : Bool := l.length % 4 == 0 && l.length ≤ 4 * 4096

/-- RES_ENABLE (R289). -/
def execResEnable (sess : Nat) (s : State) : Out := s.command sess Obj.RES_COMMAND 1 (fun s => s.resEnable sess)

/-- RES_DISABLE (R291). -/
def execResDisable (sess : Nat) (s : State) : Out := s.command sess Obj.RES_COMMAND 2 (fun s => (s.resDisable sess).1)

/-- RES_LIST (R289). -/
def execResList (sess : Nat) (list_ : List Byte) (s : State) : Out :=
  takes (s.mayWrite sess Obj.RES_LIST 0 && resListFits list_) s (fun s => s.resList_ sess list_)

end Sys2Proof.Machine
end

