-- ==== Sys2Proof/Machine/Kettle.lean ====
section
/-!
DEFINITION. The Kettle parameter update (07_parameter_update.md): Coefficient Table rows, work list items, sweep slots, the
update recurrence, and the commands KETTLE_ITEM and KETTLE_ITEM_END.
-/

namespace Sys2Proof.Machine
open Sys2Proof

/-! ## Coefficient Table row, 64 B -/
namespace Cf
def enable : Fld := fm 0 31 31
def rsv0 : Fld := fm 0 30 28
def owner : Fld := fm 0 27 24
def refusal : Fld := fm 0 23 16
def rsv1 : Fld := fm 0 15 6
def srState : Fld := fm 0 5 5
def srWeight : Fld := fm 0 4 4
def numSign : Fld := fm 0 3 3
def phi : Fld := fm 0 2 2
def useS2 : Fld := fm 0 1 1
def useS1 : Fld := fm 0 0 0
def beta1 : Fld := fb 0x04 4
def c1 : Fld := fb 0x08 4
def beta2 : Fld := fb 0x0C 4
def c2 : Fld := fb 0x10 4
def k1 : Fld := fb 0x14 4
def k2 : Fld := fb 0x18 4
def k3 : Fld := fb 0x1C 4
def eps : Fld := fb 0x20 4
def lambda : Fld := fb 0x24 4
def rsv2 : Fld := fb 0x28 24
end Cf

abbrev CoefRow := BitVec 512

/-! ## Kettle work list entry, 64 B -/
namespace Kt
def startNs : Fld := fb 0x00 4
def op : Fld := fb 0x04 1
def first : Fld := fm 0x05 0 0
def last : Fld := fm 0x05 1 1
def reserve : Fld := fm 0x05 2 2
def flagsRsv : Fld := fm 0x05 7 3
def unit : Fld := fb 0x06 1
def slot : Fld := fb 0x07 1
def row : Fld := fb 0x08 2
def rsv0 : Fld := fb 0x0A 2
def blocks : Fld := fb 0x0C 4
def w : Fld := fb 0x10 4
def s1 : Fld := fb 0x14 4
def s2 : Fld := fb 0x18 4
def g : Fld := fb 0x1C 4
def scalar : Fld := fb 0x20 4
def group : Fld := fb 0x24 4
def rsv1 : Fld := fb 0x28 24
end Kt

/-- No moment entry. -/
abbrev noEntry : Nat := 0xFFFFFFFF

/-! ## The recurrence (R234 to R237) -/

/-- The values that an item uses for every block. -/
structure KettleCtx where
  row : CoefRow
  step : Nat
  eta : XVal
  gScale : XVal
  k1e : XVal
  k3e : XVal
  deriving DecidableEq, Repr

def f32 (c : Nat) : XVal := fFP32.decode c
/-- A fused multiply-add in binary32 with one rounding. -/
def fma32 (a b c : XVal) : XVal := toFP32 ((a.mul b).add c)
def isFin : XVal → Bool
  | .fin .. => true
  | _ => false

/-- A square root as an exact value to be rounded later: an irrational one stands with its first 200 bits and an odd last bit, which
rounds as the root does (R130). -/
def sqrtWide (x : XVal) : XVal :=
  match sqrtOf x with
  | .inl v => v
  | .inr m => .fin false m.num m.e

/-- One element (R234), each r() one rounding: wn, s1n and s2n; none where R237 finds an input or a computed value that is not
finite. -/
def KettleCtx.element (x : KettleCtx) (w s1 s2 gd : XVal) : Option (XVal × XVal × XVal) :=
  let c := fun (f : Fld) => f32 (f.get x.row)
  let w := toFP32 w
  let s1 := if Cf.useS1.get x.row = 1 then toFP32 s1 else .zero
  let s2 := if Cf.useS2.get x.row = 1 then toFP32 s2 else .zero
  let g := toFP32 (gd.mul x.gScale)
  let s1n := fma32 (c Cf.beta1) s1 (toFP32 ((c Cf.c1).mul g))
  let p := if Cf.phi.get x.row = 1 then g.abs else toFP32 (g.mul g)
  let s2n := fma32 (c Cf.beta2) s2 (toFP32 ((c Cf.c2).mul p))
  let n0 := fma32 x.k1e s1n (toFP32 ((c Cf.k2).mul g))
  let n := if Cf.numSign.get x.row = 1 then (if XVal.zero.lt n0 then .one else if n0.lt .zero then XVal.one.neg else .zero) else n0
  let d := toFP32 ((sqrtWide (toFP32 (x.k3e.mul s2n))).add (c Cf.eps))
  let u := f32 (fFP32.quot n d)
  let wn := fma32 x.eta.neg (fma32 (c Cf.lambda) w u) w
  if [w, s1, s2, gd, g, s1n, s2n, d, u, wn].all isFin then some (wn, s1n, s2n) else none

/-! ## Blocks in memory -/

/-- One entry of a sweep as its unit sees it: its index, the entry, and the bucket header of slot CUR. -/
structure SweepEntry where
  index : Nat
  entry : BitVec 256
  hdr : List (Byte × Bool)
  deriving DecidableEq, Repr

def State.sweepEntry (s : State) (i : Nat) : SweepEntry :=
  let e := s.resE i
  ⟨i, e, if Rs.format.get e = 0x10 then s.memRead (ResEntry.curAddr e) 64 else []⟩

/-- The values of block `b` of slot CUR of an entry, read for a Kettle unit. -/
def State.kettleRead (s : State) (ag : Agent) (er : AccessErrors) (x : SweepEntry) (b : Nat) : State × List (XVal × Bool) :=
  let s := s.cacheHit ag er x.index
  let base := ResEntry.curAddr x.entry
  let (o, n) := ResEntry.blockRange x.entry b
  let sc := ResEntry.blockScaleAt x.entry b
  let s := s.deviceErrors ag er ((base + o, n) :: sc.map (fun a => (base + a, 1)))
  let (s, bs) := s.deliver ag (base + o) n
  let (s, ss) := sc.foldl (fun (t : State × List (Byte × Bool)) a =>
    let (u, y) := t.1.deliver ag (base + a) 1
    (u, t.2 ++ y)) (s, [])
  (s, ResEntry.blockValues x.entry b bs ss x.hdr)

/-- The bytes that a store of 32 values into block `b` writes: offset and bytes each; and its status bits. -/
def State.kettleStore (s : State) (p step : Nat) (sr : Bool) (x : SweepEntry) (b : Nat) (vs : List XVal) :
    List (Nat × List Byte) × Nat :=
  let outer := if Rs.format.get x.entry = 0x10 then headerOuter (x.hdr.map (·.1)) else some 0
  let rnd := fun l => match sr, ResEntry.laneIndex x.entry b l with
    | true, some e => Rnd.sr (drawOf (s.jobSeed p) step x.index 0xFFFFFFFF e)
    | _, _ => Rnd.rne
  let (bs, sc, cv) := ResEntry.storeValues x.entry b outer false vs rnd
  (((ResEntry.blockRange x.entry b).1, bs.map (·.1)) :: (ResEntry.blockScaleAt x.entry b).map (fun a => (a, sc.map (·.1))), cv)

/-- The write of one entry in a write group, with what R257 and R473 make of its place, and what its device reports (R264, R265). -/
def State.kettlePut (s : State) (ag : Agent) (er : AccessErrors) (x : SweepEntry) (ws : List (Nat × List Byte)) : State :=
  (ws.foldl (fun t w => t.storeFor ag er (ResEntry.curAddr x.entry + w.1) (goodBytes w.2)) s).tear ag.part x.index (Rs.cur.get x.entry)

/-- A mirror item waits for the frames of the CONTROL stream that carry it (R254, R423). -/
def State.mirror (s : State) (p : Nat) (x : MirrorItem) : State := s.modPt p (fun t => { t with mirrorOut := t.mirrorOut ++ [x] })

/-- The write group of a block sent to the partner, where an entry that it updates has CKPT MIRROR and the job is no replay (R423):
what it writes to those entries, with the advance of PROGRESS. -/
def State.mirrorGroup (s : State) (p u slot b : Nat) (puts : List (SweepEntry × List (Nat × List Byte))) : State :=
  let mine := puts.filter (fun y => Rs.ckpt.get y.1.entry == ckptMirror)
  if mine.isEmpty || s.rg (Obj.REPLAY p) = 1 then s
  else (s.mirror p (.group u slot b (mine.flatMap (fun y => y.2.map (fun q => (y.1.index, q.1, q.2)))))).count p 3 u (wEvent 4) 1

/-- What one block does (R246): its write group, or only the advance of PROGRESS where it is not finite (R237). `er` is met by the
reads, `ew` by the writes. -/
def State.kettleBlock (s : State) (ag : Agent) (er ew : AccessErrors) (u slot : Nat) (x : KettleCtx) (w s1 s2 g : SweepEntry) (b : Nat) :
    State :=
  let p := ag.part
  let use1 := Cf.useS1.get x.row = 1
  let use2 := Cf.useS2.get x.row = 1
  let zeros : List (XVal × Bool) := List.replicate 32 (.zero, false)
  let (s, wv) := s.kettleRead ag er w b
  let (s, v1) := if use1 then s.kettleRead ag er s1 b else (s, zeros)
  let (s, v2) := if use2 then s.kettleRead ag er s2 b else (s, zeros)
  let (s, gv) := s.kettleRead ag er g b
  let headers := [s1, s2, g].filter (fun y => Rs.format.get y.entry == 0x10 && (y.index == g.index || (y.index == s1.index && use1) || (y.index == s2.index && use2)))
  let s := if headers.any (fun y => (headerOuter (y.hdr.map (·.1))).isNone) then s.late p ag.bit else s
  let bad := (wv ++ v1 ++ v2 ++ gv).any (·.2)
  let rs := (List.range 32).map (fun l => x.element (wv.getD l (.zero, false)).1 (v1.getD l (.zero, false)).1 (v2.getD l (.zero, false)).1 (gv.getD l (.zero, false)).1)
  let sw := Cf.srWeight.get x.row = 1
  let ss := Cf.srState.get x.row = 1
  let (ww, cw) := s.kettleStore p x.step sw w b (rs.map (fun r => (r.getD (.zero, .zero, .zero)).1))
  let (w1, c1) := if use1 then s.kettleStore p x.step ss s1 b (rs.map (fun r => (r.getD (.zero, .zero, .zero)).2.1)) else ([], 0)
  let (w2, c2) := if use2 then s.kettleStore p x.step ss s2 b (rs.map (fun r => (r.getD (.zero, .zero, .zero)).2.2)) else ([], 0)
  let cv := cw ||| c1 ||| c2
  let nonfinite := bad || rs.any (·.isNone) || cv &&& (cvInf + cvNan + cvClamp) != 0
  let key := 64 * u + slot
  let advance := fun (t : State) => t.modPt p (fun y =>
    let sl := SMap.getD Sweep.closed y.sweeps key
    { y with sweeps := SMap.put Sweep.closed y.sweeps key { sl with progress := sl.progress + 1 } })
  let s := (advance s).count p 3 u (wEvent 0) 1
  if nonfinite then
    let s := (s.incRg (Obj.KETTLE_NONFINITE_BLOCKS p) 1).count p 3 u (wEvent 1) 1
    let told := match (s.pt p).slice with
      | some r => r.nonfinite
      | none => true
    let s := if told then s
      else (s.notify 0x0041 p u 1).modPt p (·.modSlice (fun r => { r with nonfinite := true }))
    s.mirrorGroup p u slot b (([(w, true), (s1, use1), (s2, use2)].filter (·.2)).map (fun y => (y.1, [])))
  else
    let s := ((s.kettlePut ag ew w ww).raiseConv p cv).incRg (Obj.KETTLE_BLOCKS_UPDATED p) 1
    let s := if use1 then s.kettlePut ag ew s1 w1 else s
    let s := if use2 then s.kettlePut ag ew s2 w2 else s
    s.mirrorGroup p u slot b (([((w, ww), true), ((s1, w1), use1), ((s2, w2), use2)].filter (·.2)).map (·.1))

/-- Blocks `b`, `b` + 1, … of a sweep, `n` of them. -/
def State.kettleBlocks (s : State) (ag : Agent) (er ew : AccessErrors) (u slot : Nat) (x : KettleCtx) (w s1 s2 g : SweepEntry) : Nat → Nat → State
  | 0, _ => s
  | n + 1, b => (s.kettleBlock ag er ew u slot x w s1 s2 g b).kettleBlocks ag er ew u slot x w s1 s2 g n (b + 1)

/-! ## Items and sweep slots -/

def State.kettleQuarter (_s : State) (u : Nat) : Nat := if u < 48 then u / 12 else (u - 48) / 2
def State.kettleAgent (s : State) (p u pos : Nat) : Agent := ⟨p, pos, lateKettle (s.kettleQuarter u), some u⟩

def SliceRun.kettleItem (r : SliceRun) (n : Nat) : ItemRun := SMap.getD ItemRun.none r.kettle n
def SliceRun.setKettle (r : SliceRun) (n : Nat) (x : ItemRun) : SliceRun := { r with kettle := SMap.put ItemRun.none r.kettle n x }

def Part.sweep (x : Part) (u slot : Nat) : Sweep := SMap.getD Sweep.closed x.sweeps (64 * u + slot)
def Part.setSweep (x : Part) (u slot : Nat) (w : Sweep) : Part := { x with sweeps := SMap.put Sweep.closed x.sweeps (64 * u + slot) w }

/-- The items of one unit that precede item `n` in the work list of a slice. -/
def State.kettleBefore (s : State) (p b k u n : Nat) : List Nat :=
  (List.range n).filter (fun m => s.unitOf p (Kt.unit.get (s.kettleEntry b k m)) == some u)

/-- The start of an item (R244): START_NS, or the end of the unit's previous item. -/
def State.kettleStart (s : State) (p b k u n : Nat) (r : SliceRun) : Nat :=
  (s.kettleBefore p b k u n).foldl (fun t m => Nat.max t (r.kettleItem m).finish) (Kt.startNs.get (s.kettleEntry b k n))

def State.kettleReady (s : State) (u p n : Nat) : Bool :=
  match s.running p with
  | some (b, k, r) =>
    n < s.kettleCount b k && s.unitOf p (Kt.unit.get (s.kettleEntry b k n)) == some u
      && (r.kettleItem n).state == .waiting && !r.guard
      && (s.kettleBefore p b k u n).all (fun m => (r.kettleItem m).state == .finished)
      && s.kettleStart p b k u n r < (s.pt p).guardPos
  | none => false

/-- A FIRST item opens its slot (R242, R253), but at an UPDATE position one that holds the same sweep (R437). -/
def State.openSweep (s : State) (p u : Nat) (e : BitVec 512) : State :=
  let slot := Kt.slot.get e
  let w := Kt.w.get e
  let old := (s.pt p).sweep u slot
  let step := (s.pt p).step
  let s := s.modPt p (fun x => { x with updateStarted := true })
  if (s.pt p).atUpdate && old.step = step && old.w = w && old.blocks ≠ 0 then s
  else
    let we := s.resE w
    let st := if Rs.frozen.get we = 1 then 2 else if (s.pt p).missingMap.contains (Kt.group.get e) then 3 else 1
    let n := ResEntry.blocks we
    let sl : Sweep := ⟨st, step, 0, n, Kt.row.get e, w, Kt.s1.get e, Kt.s2.get e, Kt.g.get e, Kt.group.get e⟩
    let s := s.modPt p (·.setSweep u slot sl)
    if st = 2 then
      let s := s.incRg (Obj.KETTLE_FROZEN_BLOCKS p) n
      if s.rg (Obj.FROZEN_STRICT p) = 1 then
        match (s.pt p).slice with
        | some r => ((s.setJobF p r.job Job.refusal 0x57).notify 0x0013 p r.job 0x57).faultDue p stopOther
        | none => s
      else s
    else if st = 3 then s.incRg (Obj.KETTLE_MISSING_BLOCKS p) n
    else s

/-- The step scalar record that an item reads at its start, with what stops it (R241): another step, a value that is not
finite, a reserved byte that is not 0, or poison. -/
def State.scalarRecord (s : State) (ag : Agent) (er : AccessErrors) (i step : Nat) : State × Option (List Nat) :=
  let (s, g) := (s.cacheHit ag er i).readRes ag er false false 0 i [(0, 32)]
  let bs := g.bytes.map (·.1)
  let word := fun o => leNat ((bs.drop o).take 4)
  let vals := [word 8, word 12, word 16, word 20]
  if g.bytes.any (·.2) || leNat (bs.take 8) ≠ step || !(vals.all (fun v => isFin (f32 v))) || (bs.drop 24).any (· != 0) then (s, none)
  else (s, some vals)

/-- Bytes of one block of an entry: elements and scale. -/
def ResEntry.blockBytes (e : ResEntry) : Nat := 4 * fmtBits (Rs.format.get e) + (if fmtBlockScaled (Rs.format.get e) then 1 else 0)

/-- The bound of an item of `n` blocks on a unit, in ns from its start (R252). -/
def State.kettleBound (s : State) (p u : Nat) (e : BitVec 512) (n : Nat) : Nat :=
  let by_ := fun i => if i = noEntry then 0 else ResEntry.blockBytes (s.resE i)
  let rd := by_ (Kt.w.get e) + by_ (Kt.s1.get e) + by_ (Kt.s2.get e) + by_ (Kt.g.get e)
  let wr := by_ (Kt.w.get e) + by_ (Kt.s1.get e) + by_ (Kt.s2.get e)
  let share := if u < 48 then 64 else s.cxlShare p (u - 48)
  let (rb, wb, bus, rate) := if u < 48 then (260, 200, rd + wr, 180) else (900, 700, Nat.max rd wr, 60)
  2 * rb + Nat.max (ceilDiv (20 * n) 19) (streamNs (n * bus) (rate * share)) + wb

/-- The most blocks that a unit can start before the closing guard (R48, R248): one block takes at least 2 cycles. -/
def blocksBefore (guard start : Nat) : Nat := ceilDiv (19 * (guard - start)) 20

/-- KETTLE_ITEM (R243): item `n` starts on unit `u`. `blocks` is how many of its blocks have their write groups accepted before
the item is cut off; an item that ends finishes all that R243 assigns to it. No more are accepted than the unit can start before the
closing guard. The item's record in the slice holds the end that R252 allows it for the blocks that it is to process. -/
def execKettleItem (u : UnitId) (p : PartId) (n blocks : Nat) (errs : KettleErrors) (s : State) : Out :=
  let ⟨errs, stores⟩ := errs
  takes (s.kettleReady u p n) s (fun s =>
    match s.running p with
    | none => s
    | some (b, k, r) =>
      let e := s.kettleEntry b k n
      let start := s.kettleStart p b k u n r
      let slot := Kt.slot.get e
      let s := s.at ((s.pt p).edgeNs + start)
      let ag := s.kettleAgent p u start
      let s := s.ctrlConds p u
      let s := if Kt.first.get e = 1 then s.openSweep p u e else s
      let sl := (s.pt p).sweep u slot
      let mirrored := s.rg (Obj.REPLAY p) != 1 && sl.state == 1
        && [sl.w, sl.s1, sl.s2].any (fun i => Rs.ckpt.get (s.resE i) == ckptMirror)
      let s := if mirrored then s.mirror p (.header u slot sl.state sl.step sl.progress) else s
      let want := if sl.state = 1 then Nat.min (Kt.blocks.get e) (sl.blocks - sl.progress) else 0
      let by_ := fun n => start + s.kettleBound p u e n
      if sl.state ≠ 1 then s.modPt p (·.modSlice (·.setKettle n ⟨.running, start, by_ 0, [], 0, 0, []⟩))
      else
        let (s, rec) := s.scalarRecord ag errs (Kt.scalar.get e) sl.step
        match rec with
        | none => (s.incRg (Obj.SCALAR_STALE p) 1).modPt p (·.modSlice (·.setKettle n ⟨.running, start, by_ 0, [], 1, want, []⟩))
        | some v =>
          let row := SMap.getD 0 (s.pt p).rows (1024 * r.job + sl.row)
          let x : KettleCtx := ⟨row, sl.step, f32 (v.getD 0 0), f32 (v.getD 1 0),
            toFP32 ((f32 (Cf.k1.get row)).mul (f32 (v.getD 2 0))), toFP32 ((f32 (Cf.k3.get row)).mul (f32 (v.getD 3 0)))⟩
          let done := Nat.min (Nat.min blocks want) (blocksBefore (s.pt p).guardPos start)
          let s := s.kettleBlocks ag errs stores u slot x (s.sweepEntry sl.w) (s.sweepEntry sl.s1) (s.sweepEntry sl.s2) (s.sweepEntry sl.g)
            done sl.progress
          s.modPt p (·.modSlice (·.setKettle n ⟨.running, start, by_ want, [], 0, want - done, []⟩)))

/-! ## The end of an item (R252) -/

/-- The item that unit `u` runs. -/
def State.kettleRunning (s : State) (p u : Nat) : Option Nat :=
  match s.running p with
  | some (b, k, r) => (List.range (s.kettleCount b k)).find? (fun n =>
      (r.kettleItem n).state == .running && s.unitOf p (Kt.unit.get (s.kettleEntry b k n)) == some u)
  | none => none

/-- Whether the unit's item may end at a position: its blocks are finished, or a stale record stopped it; by its bound while
every condition holds and no burst shares its device. -/
def State.kettleEnds (s : State) (u p at_ : Nat) : Bool :=
  match s.running p, s.kettleRunning p u with
  | some (b, k, r), some n =>
    let x := r.kettleItem n
    let shared := r.bursts.any (fun kv => kv.2.during x.start at_ && (s.burstCtrls p (s.burst b k kv.1)).contains u)
    (x.aux == 0 || x.version == 1) && x.start ≤ at_ && at_ < (s.pt p).tickNs && (r.cond != 0 || shared || at_ ≤ x.finish)
  | _, _ => false

/-- KETTLE_ITEM_END (R252): the item of unit `u` ends at a position and frees its unit. -/
def execKettleItemEnd (u : UnitId) (p : PartId) (at_ : Nat) (s : State) : Out :=
  takes (s.kettleEnds u p at_) s (fun s =>
    match s.running p, s.kettleRunning p u with
    | some (_, _, r), some n =>
      let x := r.kettleItem n
      let s := (s.at ((s.pt p).edgeNs + at_)).count p 3 u wBusy (nsCycle at_ - nsCycle x.start)
      s.modPt p (·.modSlice (·.setKettle n { x with state := .finished, finish := at_ }))
    | _, _ => s)

end Sys2Proof.Machine
end

