-- ==== Sys2Proof/Machine/Reblock.lean ====
section
/-!
DEFINITION. The Reblock engines (09_mapping_and_reblock.md R313 to R324): plan items, REDUCE and MOVE, and the commands REDUCE,
REBLOCK_MOVE and REBLOCK_ITEM_END.
-/

namespace Sys2Proof.Machine
open Sys2Proof

/-! ## Reblock item, 128 B -/
namespace Rb
def slice : Fld := fb 0x00 4
def startNs : Fld := fb 0x04 4
def op : Fld := fb 0x08 1
def critical : Fld := fm 0x09 0 0
def endBuild : Fld := fm 0x09 1 1
def flagsRsv : Fld := fm 0x09 7 2
def inputs : Fld := fb 0x0A 1
def rsv0 : Fld := fb 0x0B 1
def node : Fld := fb 0x0C 2
def build : Fld := fb 0x0E 2
def count : Fld := fb 0x10 4
def span : Fld := fb 0x14 4
def dest : Fld := fb 0x18 8
def alt : Fld := fb 0x20 2
def rsv1 : Fld := fb 0x22 6
def input (k : Nat) : Fld := fb (0x28 + 8 * k) 8
def source : Fld := fb 0x28 8
def srcRow : Fld := fb 0x30 4
def srcCol : Fld := fb 0x34 4
def dstRow : Fld := fb 0x38 4
def dstCol : Fld := fb 0x3C 4
def moveRsv : Fld := fb 0x40 48
def rsv2 : Fld := fb 0x70 16
end Rb

abbrev RbItem := BitVec 1024

/-- The symbol of the plan of a quarter. -/
def planName (q : Nat) : String := ["$reblock.q0", "$reblock.q1", "$reblock.q2", "$reblock.q3"].getD q ""

/-- The plan entry of a quarter in a Block. -/
def State.plan (s : State) (b q : Nat) : Option Nat := s.symbol b (planName q)
def State.planRow (s : State) (i n : Nat) : RbItem := s.memRec (ResEntry.curAddr (s.resE i) + 128 * n) 128
def State.planRows (s : State) (i : Nat) : Nat := Rs.rows.get (s.resE i)

/-- Plan row `n` of a quarter, where the Block has a plan for it. -/
def State.planItem (s : State) (b q n : Nat) : RbItem :=
  match s.plan b q with
  | some i => s.planRow i n
  | none => 0

/-- The rows of a quarter's plan that belong to a slice. -/
def State.planOf (s : State) (b q k : Nat) : List Nat :=
  match s.plan b q with
  | some i => (List.range (s.planRows i)).filter (fun n => Rb.slice.get (s.planRow i n) == k)
  | none => []

/-! ## Ranges of blocks and rectangles -/

/-- Offset and bytes of the pieces of block `b` of an entry: for a tile image, one piece in each tile it crosses. -/
def ResEntry.blockPieces (e : ResEntry) (b : Nat) : List (Nat × Nat) :=
  if Rs.format.get e = 0x11 then
    let nb := ceilDiv (Rs.cols.get e) 32
    let r := b / nb
    let t := Rs.cols.get e / 16
    (List.range (ResEntry.blockLanes e b / 16)).map (fun h => ((r / 16 * t + 2 * (b % nb) + h) * 1344 + 80 * (r % 16), 80))
  else [ResEntry.blockRange e b]

/-- The metadata bytes of the tiles that block `b` of a W40 entry crosses. -/
def ResEntry.blockMeta (e : ResEntry) (b : Nat) : List (Nat × Nat) :=
  if Rs.format.get e = 0x11 then
    let nb := ceilDiv (Rs.cols.get e) 32
    (List.range (ResEntry.blockLanes e b / 16)).map (fun h => ((b / nb / 16 * (Rs.cols.get e / 16) + 2 * (b % nb) + h) * 1344 + 1280, 1))
  else []

/-- Offset and bytes of the elements of `n` column blocks of row `r` from column block `c` on, and of their scales. -/
def ResEntry.rowPieces (e : ResEntry) (r c n : Nat) : List (Nat × Nat) :=
  let f := Rs.format.get e
  let nb := ceilDiv (Rs.cols.get e) 32
  if fmtIsMX f then [((r * nb + c) * 4 * fmtBits f, n * 4 * fmtBits f), (ResEntry.scaleOffset e + r * nb + c, n)]
  else [((r * Rs.cols.get e + 32 * c) * (fmtBits f / 8), Nat.min (32 * n) (Rs.cols.get e - 32 * c) * (fmtBits f / 8))]

/-- A list cut into pieces of given lengths. -/
def cutBy {α : Type} : List Nat → List α → List (List α)
  | [], _ => []
  | n :: ns, l => l.take n :: cutBy ns (l.drop n)

/-! ## Engine order -/

abbrev rbKey (q n : Nat) : Nat := 65536 * q + n
def SliceRun.rb (r : SliceRun) (q n : Nat) : ItemRun := SMap.getD ItemRun.none r.reblock (rbKey q n)
def SliceRun.setRb (r : SliceRun) (q n : Nat) (x : ItemRun) : SliceRun := { r with reblock := SMap.put ItemRun.none r.reblock (rbKey q n) x }

/-- The items of the engine before row `n` in the slice. -/
def State.rbBefore (s : State) (b k q n : Nat) : List Nat := (s.planOf b q k).filter (· < n)

/-- The start of an item (R315): START_NS, or the end of the engine's previous item of the slice. -/
def State.rbStart (s : State) (b k q n : Nat) (r : SliceRun) : Nat :=
  (s.rbBefore b k q n).foldl (fun t m => Nat.max t (r.rb q m).finish) (Rb.startNs.get (s.planItem b q n))

/-- Whether row `n` is an item of operation `op` that may start. -/
def State.rbReady (s : State) (q p n op : Nat) : Bool :=
  match s.running p with
  | some (b, k, r) =>
    (s.planOf b q k).contains n && Rb.op.get (s.planItem b q n) == op && (r.rb q n).state == .waiting && !r.guard
      && (s.rbBefore b k q n).all (fun m => (r.rb q m).state == .finished || (r.rb q m).state == .notTaken)
      && s.rbStart b k q n r < (s.pt p).guardPos
  | none => false

/-! ## The bound of R322 -/

/-- Input blocks of a REDUCE item, or bytes of a MOVE. -/
def State.rbWork (s : State) (e : RbItem) : Nat :=
  if Rb.op.get e = 1 then Rb.inputs.get e * Rb.count.get e
  else
    let of := fun (i r c : Nat) => ((ResEntry.rowPieces (s.resE i) r c (Rb.span.get e)).map (·.2)).sum * Rb.count.get e
    match endpointOf (Rb.source.get e), endpointOf (Rb.dest.get e) with
    | .res _ _ i _, _ => of i (Rb.srcRow.get e) (Rb.srcCol.get e)
    | _, .res _ _ i _ => of i (Rb.dstRow.get e) (Rb.dstCol.get e)
    | _, _ => 0

/-- The device addresses that an item reads, with the bytes read from each, and the one it writes. -/
def State.rbPaths (s : State) (p pos : Nat) (e : RbItem) : List (Nat × Nat) × List (Nat × Nat) :=
  let at_ := fun (w n : Nat) => ((s.endAddr p pos (endpointOf w)).map (·, n)).toList
  let blk := fun (w : Nat) => match endpointOf w with
    | .res _ _ i _ => 4 * fmtBits (Rs.format.get (s.resE i)) + (if fmtBlockScaled (Rs.format.get (s.resE i)) then 1 else 0)
    | _ => 0
  if Rb.op.get e = 1 then
    ((List.range (Rb.inputs.get e)).flatMap (fun k => let w := (Rb.input k).get e
      at_ w (blk w * Rb.count.get e)), at_ (Rb.dest.get e) (blk (Rb.dest.get e) * Rb.count.get e))
  else (at_ (Rb.source.get e) (s.rbWork e), at_ (Rb.dest.get e) (s.rbWork e))

/-- The partition's share of the Reblock engine of a quarter, in units of 1/64. -/
def State.rbShare (s : State) (p q : Nat) : Nat :=
  match (s.pt p).built with
  | some r => r.shares.getD q 0
  | none => 0

/-- Cycles that an item's work takes at the partition's share s: c × 64 / s; at a share of 0, for which the spec gives no bound,
they never pass (log 101). -/
def State.rbCycles (s : State) (p q : Nat) (e : RbItem) : Nat :=
  let c := if Rb.op.get e = 1 then s.rbWork e else ceilDiv (s.rbWork e) 2048
  if c = 0 then 0 else if s.rbShare p q = 0 then 10 ^ 15 else ceilDiv (64 * c) (s.rbShare p q)

/-- The quarter in which an endpoint of an item lies, where its data cross to or from the engine's quarter `q`: none where they do
not; the hub link stands for the reference store. -/
def State.rbLink (s : State) (p pos q w : Nat) : Option Nat :=
  let ep := endpointOf w
  match s.endAddr p pos ep with
  | some a => if isRef a then some (6 + q) else linkBetween (s.endQuarter p pos ep) q
  | none => linkBetween (s.endQuarter p pos ep) q

/-- What an item moves over die-to-die links: link, whether towards the engine, and bytes. -/
def State.rbCrossings (s : State) (p pos q : Nat) (e : RbItem) : List (Nat × Bool × Nat) :=
  let bytes := fun (w : Nat) => if Rb.op.get e = 1 then
      (match endpointOf w with
        | .res _ _ i _ => (4 * fmtBits (Rs.format.get (s.resE i)) + 1) * Rb.count.get e
        | _ => 0)
    else s.rbWork e
  let ins := if Rb.op.get e = 1 then (List.range (Rb.inputs.get e)).map (fun k => (Rb.input k).get e) else [Rb.source.get e]
  (ins.filterMap (fun w => (s.rbLink p pos q w).map (fun l => (l, true, bytes w))))
    ++ ((s.rbLink p pos q (Rb.dest.get e)).map (fun l => (l, false, bytes (Rb.dest.get e)))).toList

/-- The time on the busiest device, port direction or link direction (R322, R29): a GDDR7 device carries reads and writes on one bus. -/
def State.rbBusiest (s : State) (p pos q : Nat) (e : RbItem) : Nat :=
  let (rd, wr) := s.rbPaths p pos e
  let on := fun (l : List (Nat × Nat)) (a : Nat) => ((l.filter (fun x => ctrlOf x.1 == ctrlOf a)).map (·.2)).sum
  let mem := (rd ++ wr).foldl (fun t a =>
    let n := if isCxl a.1 then Nat.max (on rd a.1) (on wr a.1) else on (rd ++ wr) a.1
    Nat.max t (streamNs n (s.shareRate p a.1))) 0
  let xs := s.rbCrossings p pos q e
  xs.foldl (fun t x => Nat.max t (streamNs ((xs.filter (fun y => y.1 == x.1 && y.2.1 == x.2.1)).map (·.2.2)).sum (s.linkRate p x.1))) mem

/-- The ns by which an item ends after its start under the contract (R322). -/
def State.rbBound (s : State) (p q : Nat) (e : RbItem) : Nat :=
  let pos := Rb.startNs.get e
  let (rd, wr) := s.rbPaths p pos e
  let cross := fun (a : Nat) => match ctrlOf a with
    | some m => ctrlQuarter m != q
    | none => false
  let lr := rd.foldl (fun t a => Nat.max t (readBound a.1 (cross a.1))) 0
  let lw := wr.foldl (fun t a => Nat.max t (writeBound a.1 (cross a.1))) 0
  lr + Nat.max (cycleNs (s.rbCycles p q e)) (s.rbBusiest p pos q e) + lw

/-! ## REDUCE (R316 to R318, R323) -/

def State.rbAgent (s : State) (p q pos : Nat) (e : RbItem) : Agent :=
  let (rd, wr) := s.rbPaths p pos e
  ⟨p, pos, lateReblock q, ((rd ++ wr).filterMap (fun a => ctrlOf a.1)).head?⟩

/-- What REDUCE reads of one input: its entry, the header of its slot, and the bytes of every block with their scales. -/
structure RbInput where
  entry : BitVec 256
  hdr : List (Byte × Bool)
  blocks : List (List (Byte × Bool) × List (Byte × Bool))
  deriving DecidableEq, Repr

/-- One input read: blocks `b0` to `b0` + `n` − 1. The metadata byte of a tile image poisons its block by its POISON flag. -/
def State.rbRead (s : State) (ag : Agent) (er : AccessErrors) (w b0 n : Nat) : State × RbInput :=
  match endpointOf w with
  | .res sel slot i _ =>
    let e := s.resSeen ag.part ag.pos i
    let h := if Rs.format.get e = 0x10 then [(0, 64)] else []
    let bl := (List.range n).map (fun j => (ResEntry.blockPieces e (b0 + j), ResEntry.blockMeta e (b0 + j), (ResEntry.blockScaleAt e (b0 + j)).map (·, 1)))
    let parts := h ++ bl.flatMap (fun x => x.1 ++ x.2.1 ++ x.2.2)
    let (s, g) := (s.cacheHit ag er i).readRes ag er false sel slot i parts
    let hn := if h.isEmpty then 0 else 64
    let len := fun (l : List (Nat × Nat)) => (l.map (·.2)).sum
    let cut := cutBy (bl.map (fun x => len x.1 + len x.2.1 + len x.2.2)) (g.bytes.drop hn)
    (s, ⟨e, g.bytes.take hn, (bl.zip cut).map (fun xb =>
      let ne := len xb.1.1
      let nm := len xb.1.2.1
      let flag := ((xb.2.drop ne).take nm).any (fun m => m.2 || m.1.toNat.testBit 3)
      ((xb.2.take ne).map (fun y => (y.1, y.2 || flag)), xb.2.drop (ne + nm)))⟩)
  | _ => (s.late ag.part ag.bit, ⟨0, [], List.replicate n ([], [(0, true)])⟩)

/-- The exact sum of some values (R163, R316); one value alone keeps its sign, a zero's too (R128, R314). -/
def exactSum : List XVal → XVal
  | [] => .zero
  | v :: vs => vs.foldl XVal.add v

/-- What the bucket headers of a REDUCE item's inputs do to it. -/
structure RbHeaders where
  mismatch : Bool                 -- two BS16 inputs differ in OUTER, TENSOR, FIRST_BLOCK or BLOCKS (R318)
  invalid : Bool                  -- the header of a BS16 input, or that which the destination goes by, is not valid (R126)
  deriving DecidableEq, Repr

/-- What REDUCE writes: offset and bytes each, in the order of the slot, the conversion status, whether any block is poisoned, and
what its headers do. A BS16 destination takes the header of a BS16 INPUT0 as it stands, valid or not (log 101). -/
def State.rbReduce (s : State) (p : Nat) (e : RbItem) (dst : Nat) (ins : List RbInput) (dhdr : List (Byte × Bool)) :
    List (Nat × List (Byte × Bool)) × Nat × Bool × RbHeaders :=
  let d := s.resE dst
  let f := Rs.format.get d
  let bs16 := ins.filter (fun x => Rs.format.get x.entry == 0x10)
  let hdrOf := fun (x : RbInput) => x.hdr.map (·.1)
  let mismatch := bs16.any (fun x => (hdrOf x).take 16 != ((bs16.head?.map hdrOf).getD []).take 16)
  let first16 := match ins.head? with
    | some x => Rs.format.get x.entry == 0x10
    | none => false
  let hdr := if first16 then ((ins.head?.map (·.hdr)).getD []) else dhdr
  let outer := if f = 0x10 then headerOuter (hdr.map (·.1)) else some 0
  let sr := Rs.class_.get d == classGradient
  let tag := 0x80000000 + Rb.node.get e
  let b0 := Rb.span.get e
  let one : Nat → List (Nat × List (Byte × Bool)) × Nat × Bool := fun j =>
    let vals := ins.map (fun x => match x.blocks[j]? with
      | some (bs, sc) => ResEntry.blockValues x.entry (b0 + j) bs sc x.hdr
      | none => [])
    let sum := (List.range 32).map (fun l => exactSum (vals.map (fun v => (v.getD l (.zero, false)).1)))
    let bad := vals.any (fun v => v.any (·.2)) || ins.any (fun x => ((x.blocks[j]?).getD ([], [])).1.any (·.2)) || (f == 0x10 && hdr.any (·.2))
    let rnd := fun l => match sr, ResEntry.laneIndex d (b0 + j) l with
      | true, some ix => Rnd.sr (s.drawFor p dst tag ix)
      | _, _ => Rnd.rne
    let sum := if mismatch then List.replicate 32 XVal.nan else sum
    let (bs, sc, cv) := ResEntry.storeValues d (b0 + j) (if mismatch then some 0 else outer) bad sum rnd
    let pieces : List (Nat × Nat) := ResEntry.blockPieces d (b0 + j)
    let main : List (Nat × List (Byte × Bool)) := (pieces.map (·.1)).zip (cutBy (pieces.map (·.2)) bs)
    (main
      ++ (ResEntry.blockMeta d (b0 + j)).map (fun (m : Nat × Nat) => (m.1, [((if bad then 8 else 0 : Byte), bad)]))
      ++ ((ResEntry.blockScaleAt d (b0 + j)).map (·, sc)), cv, bad)
  let out := (List.range (Rb.count.get e)).map one
  let head := if f = 0x10 && first16 then [(0, hdr)] else []
  (head ++ out.flatMap (·.1), out.foldl (fun c o => c ||| o.2.1) 0, out.any (·.2.2),
    ⟨mismatch, bs16.any (fun x => (headerOuter (hdrOf x)).isNone) || (f == 0x10 && outer.isNone)⟩)

/-- The writes of an item in flight, flattened: each byte as it will be written, in the order of `rbRanges`. -/
def flatten (ws : List (Nat × List (Byte × Bool))) : List (Byte × Bool) := ws.flatMap (·.2)

/-- The ranges that REDUCE writes, by offset and length; the header first where it comes from INPUT0. -/
def State.rbRanges (s : State) (e : RbItem) (dst : Nat) (hdr : Bool) : List (Nat × Nat) :=
  let d := s.resE dst
  (if hdr then [(0, 64)] else []) ++ (List.range (Rb.count.get e)).flatMap (fun j =>
    let b := Rb.span.get e + j
    ResEntry.blockPieces d b ++ ResEntry.blockMeta d b ++ (ResEntry.blockScaleAt d b).map (·, 1))

/-- The item kept as not taken: its start and end stand, and it moves nothing (R72). -/
def State.rbSkip (s : State) (p q n start : Nat) (e : RbItem) : State :=
  s.modPt p (·.modSlice (·.setRb q n ⟨.notTaken, start, start + s.rbBound p q e, [], noVersion, 0, []⟩))

/-- An undecided branch point makes the slice late (R40). -/
def State.altLate (s : State) (a : AltRead) : State :=
  match a with
  | .undecided c => (s.countC c 1 c (wEvent 3) 1).lateC c
  | _ => s

/-- Conditions of the contract that an item finds failed at its devices (R44). -/
def State.rbConds (s : State) (p pos : Nat) (e : RbItem) : State :=
  let (rd, wr) := s.rbPaths p pos e
  (((rd ++ wr).filterMap (fun a => ctrlOf a.1)).eraseDups).foldl (fun t m => t.ctrlConds p m) s

/-- REDUCE (R316): item `n` of quarter `q`'s plan starts: its inputs are read and summed, and the sums converted. -/
def execReduce (q : QuarterId) (p : PartId) (n : Nat) (errs : AccessErrors) (s : State) : Out :=
  takes (s.rbReady q p n 1) s (fun s =>
    match s.running p with
    | none => s
    | some (b, k, r) =>
      let e := s.planItem b q n
      let start := s.rbStart b k q n r
      let s := s.at ((s.pt p).edgeNs + start)
      match s.altRead p (Rb.alt.get e) (Rb.startNs.get e), endpointOf (Rb.dest.get e) with
      | .taken, .res _ slot dst _ =>
        let s := s.rbConds p start e
        let ag := s.rbAgent p q start e
        let (s, ins) := (List.range (Rb.inputs.get e)).foldl (fun (t : State × List RbInput) j =>
          let (u, x) := t.1.rbRead ag errs ((Rb.input j).get e) (Rb.span.get e) (Rb.count.get e)
          (u, t.2 ++ [x])) (s, [])
        let (s, hit) := s.pathErrors ag errs
        let s := if errs.datapath then s.count p 4 q (wEvent 4) 1 else s
        let d := s.resE dst
        let dhdr := if Rs.format.get d = 0x10 then s.memRead (ResEntry.slotAddr d slot) 64 else []
        let (ws, cv, bad, hd) := s.rbReduce p e dst ins dhdr
        let s := if hd.mismatch then s.incRg (Obj.REBLOCK_HEADER p) 1 else s
        let s := if hd.mismatch || hd.invalid then s.late p ag.bit else s
        let s := if bad || hit then (s.late p ag.bit).count p 4 q (wEvent 3) 1 else s
        let s := s.raiseConv p cv
        let s := s.count p 4 q (wEvent 1) (s.rbWork e)
        let data := (flatten ws).map (fun x => (x.1, x.2 || hit))
        let hdr := match ws.head? with
          | some w => if w.1 = 0 && w.2.length = 64 && Rs.format.get d = 0x10 then 1 else 0
          | none => 0
        s.modPt p (·.modSlice (·.setRb q n ⟨.running, start, 0, data, noVersion, hdr, []⟩))
      | a, _ => (s.altLate a).rbSkip p q n start e)

/-! ## MOVE (R319 to R321) -/

/-- The rectangle of one side of a MOVE in its entry, as ranges in row order. -/
def State.moveParts (s : State) (i row col count span : Nat) : List (Nat × Nat) :=
  (List.range count).flatMap (fun j => ResEntry.rowPieces (s.resE i) (row + j) col span)

/-- The bytes of a MOVE read at its source, with the version they carry. -/
def State.moveRead (s : State) (ag : Agent) (q : Nat) (er : AccessErrors) (e : RbItem) : State × Got :=
  match endpointOf (Rb.source.get e) with
  | .res sel slot i _ =>
    let (s, g) := (s.cacheHit ag er i).readRes ag er false sel slot i
      (s.moveParts i (Rb.srcRow.get e) (Rb.srcCol.get e) (Rb.count.get e) (Rb.span.get e))
    let (s, stale) := if sel then (s, false) else s.buildRead ag q (Rb.build.get e) i g.version
    (s, { g with bytes := g.bytes.map (fun b => (b.1, b.2 || stale)) })
  | ep => s.readEnd ag er false ep (s.rbWork e)

/-- The bytes of a MOVE written at its destination, each run of them with its version (R221, R222). -/
def State.moveWrite (s : State) (ag : Agent) (er : AccessErrors) (e : RbItem) (g : Got) : State :=
  match endpointOf (Rb.dest.get e) with
  | .res sel slot i _ =>
    let parts := s.moveParts i (Rb.dstRow.get e) (Rb.dstCol.get e) (Rb.count.get e) (Rb.span.get e)
    let s := s.cacheHit ag er i
    if g.runs.isEmpty then s.writeRes ag er sel slot i ((parts.map (·.1)).zip (cutBy (parts.map (·.2)) g.bytes)) g.version
    else (parts.foldl (fun (t : State × Nat) r =>
      (t.1.writeRuns ag er (.res sel slot i r.1) 0 ((g.bytes.drop t.2).take r.2) (versionAt g.version g.runs t.2) (runsIn g.runs t.2 r.2),
        t.2 + r.2)) (s, 0)).1
  | ep => s.writeRuns ag er ep 0 g.bytes g.version g.runs

def isQueue : Endpoint → Bool
  | .queue .. => true
  | _ => false

/-- Data of an item under way, with the hits of its path. -/
def State.moveData (s : State) (ag : Agent) (p q : Nat) (er : AccessErrors) (e : RbItem) : State × Got :=
  let (s, g) := s.moveRead ag q er e
  let (s, hit) := s.pathErrors ag er
  let s := if er.datapath then s.count p 4 q (wEvent 4) 1 else s
  let bs := g.bytes.map (fun b => (b.1, b.2 || hit))
  let s := if bs.any (·.2) then (s.late p ag.bit).count p 4 q (wEvent 3) 1 else s
  (s.count p 4 q (wEvent 2) bs.length, { g with bytes := bs })

/-- REBLOCK_MOVE (R319): item `n` of quarter `q`'s plan starts. A MOVE into a port queue places its bytes there at once, for the
port slots that carry them; a MOVE from one takes them when it ends; any other reads now and writes when it ends. -/
def execReblockMove (q : QuarterId) (p : PartId) (n : Nat) (errs : AccessErrors) (s : State) : Out :=
  takes (s.rbReady q p n 2) s (fun s =>
    match s.running p with
    | none => s
    | some (b, k, r) =>
      let e := s.planItem b q n
      let start := s.rbStart b k q n r
      let s := s.at ((s.pt p).edgeNs + start)
      match s.altRead p (Rb.alt.get e) (Rb.startNs.get e) with
      | .taken =>
        let s := s.rbConds p start e
        let ag := s.rbAgent p q start e
        let src := endpointOf (Rb.source.get e)
        let dst := endpointOf (Rb.dest.get e)
        if isQueue src then s.modPt p (·.modSlice (·.setRb q n ⟨.running, start, 0, [], noVersion, 0, []⟩))
        else
          let (s, g) := s.moveData ag p q errs e
          if isQueue dst then
            (s.moveWrite ag errs e g).modPt p (·.modSlice (·.setRb q n ⟨.running, start, 0, [], g.version, 0, []⟩))
          else s.modPt p (·.modSlice (·.setRb q n ⟨.running, start, 0, g.bytes, g.version, 0, g.runs⟩))
      | a => (s.altLate a).rbSkip p q n start e)

/-! ## The end of an item (R322) -/

/-- The port slots of the slice that carry or fill bytes of a queue range of an item. -/
def State.queueSlots (s : State) (b k : Nat) (r : SliceRun) (ep : Endpoint) (n : Nat) : List ItemRun :=
  match ep with
  | .queue q l dir off => ((List.range (s.slotCount b k)).filter (fun m =>
      let e := s.slotEntry b k m
      match endpointOf (Ps.buffer.get e) with
      | .queue q' l' dir' off' => q == q' && l == l' && dir == dir' && off < off' + Ps.length.get e && off' < off + n
      | _ => false)).map (SMap.getD ItemRun.none r.slots)
  | _ => []

/-- Whether item `n` may end at a position: before the edge, not before the last port slot of its queue has ended, and by its bound,
or by the end of that slot where it is later, while every condition of the contract holds (R322). -/
def State.rbEnds (s : State) (q p n at_ : Nat) : Bool :=
  match s.running p with
  | some (b, k, r) =>
    let x := r.rb q n
    let e := s.planItem b q n
    let src := endpointOf (Rb.source.get e)
    let dst := endpointOf (Rb.dest.get e)
    let slots := if Rb.op.get e = 2 then s.queueSlots b k r src (s.rbWork e) ++ s.queueSlots b k r dst (s.rbWork e) else []
    let last := slots.foldl (fun t y => Nat.max t y.finish) 0
    x.state == .running && x.start ≤ at_ && at_ < (s.pt p).tickNs
      && slots.all (fun y => y.state == .finished || y.state == .notTaken) && last ≤ at_
      && (r.cond != 0 || at_ ≤ Nat.max (x.start + s.rbBound p q e) last)
  | none => false

/-- REBLOCK_ITEM_END (R322): item `n` ends: its writes are in place, and END_BUILD drops the keys of its build. -/
def execReblockItemEnd (q : QuarterId) (p : PartId) (n at_ : Nat) (errs : AccessErrors) (s : State) : Out :=
  takes (s.rbEnds q p n at_) s (fun s =>
    match s.running p with
    | none => s
    | some (b, _, r) =>
      let e := s.planItem b q n
      let x := r.rb q n
      let s := s.at ((s.pt p).edgeNs + at_)
      let ag := s.rbAgent p q at_ e
      let src := endpointOf (Rb.source.get e)
      let dst := endpointOf (Rb.dest.get e)
      let s := if Rb.op.get e = 1 then
          (match dst with
            | .res sel slot i _ =>
              let parts := s.rbRanges e i (x.aux == 1)
              (s.cacheHit ag errs i).writeRes ag errs sel slot i ((parts.map (·.1)).zip (cutBy (parts.map (·.2)) x.data)) noVersion
            | _ => s)
        else if isQueue src then
          let (s, g) := s.moveData ag p q errs e
          s.moveWrite ag errs e g
        else if isQueue dst then s
        else s.moveWrite ag errs e ⟨x.data, x.version, true, x.runs⟩
      let s := if Rb.endBuild.get e = 1 then s.buildEnd p q (Rb.build.get e) else s
      let total := nsCycle at_ - nsCycle x.start
      let busy := Nat.min total (s.rbCycles p q e)
      let (rd, wr) := s.rbPaths p at_ e
      let reason := if isQueue src || isQueue dst then 3 else if (rd ++ wr).any (fun a => isCxl a.1) then 2 else 1
      let s := (((s.incRg (Obj.REBLOCK_ITEMS p) 1).count p 4 q (wEvent 0) 1).count p 4 q wBusy busy).count p 4 q (wStall reason) (total - busy)
      s.modPt p (·.modSlice (·.setRb q n { x with state := .finished, finish := at_, data := [] })))

end Sys2Proof.Machine
end

