-- ==== Sys2Proof/Machine/Memory.lean ====
section
/-!
DEFINITION. What happens to the memory devices themselves (08_memory_and_residency.md R263 to R276): refresh rates, retraining
and the CXL ports.
-/

namespace Sys2Proof.Machine
open Sys2Proof

/-! ## Shared operations -/

abbrev msService : Nat := 1
abbrev msDegraded : Nat := 2

/-- MODULE_STATE while the module serves (R461): DEGRADED while a device or an expander is FAILED, else SERVICE. -/
def State.updateModuleState (s : State) : State :=
  let m := s.rg Obj.MODULE_STATE
  if m = msService || m = msDegraded then
    let bad := (List.range 48).any (fun d => s.rg (Obj.DEV_STATE d) == devFailed)
      || (List.range 8).any (fun x => s.rg (Obj.CXL_STATE x) == cxlFailed)
    s.setRg Obj.MODULE_STATE (if bad then msDegraded else msService)
  else s

/-- PART_STATE values (13). -/
abbrev psFree : Nat := 0
abbrev psIdle : Nat := 1
abbrev psActive : Nat := 2
abbrev psHalted : Nat := 3
/-- RECOVERY_STATE values (12). -/
abbrev rsNone : Nat := 0
abbrev rsStopped : Nat := 1
abbrev rsRecovering : Nat := 2
abbrev rsReady : Nat := 3
abbrev rsFailed : Nat := 4

/-- Whether the slice in progress uses memory controller `m` (R44): one of its bursts, Kettle items, Reblock items or port slots, of
an alternative that may be taken, is on it. -/
def State.sliceUses (s : State) (p m : Nat) : Bool :=
  match s.running p with
  | some (b, k, r) =>
    (List.range (s.burstCount b k)).any (fun n => (r.burst n).state != .notTaken && (s.burstCtrls p (s.burst b k n)).contains m)
      || (List.range (s.kettleCount b k)).any (fun n => s.unitOf p (Kt.unit.get (s.kettleEntry b k n)) == some m)
      || (List.range (s.slotCount b k)).any (fun n =>
          let e := s.slotEntry b k n
          ((s.endAddr p (Ps.startNs.get e) (endpointOf (Ps.buffer.get e))).bind ctrlOf) == some m)
      || (List.range 4).any (fun q => (s.planOf b q k).any (fun n =>
          let e := s.planItem b q n
          let (rd, wr) := s.rbPaths p (Rb.startNs.get e) e
          (r.rb q n).state != .notTaken && (rd ++ wr).any (fun a => ctrlOf a.1 == some m)))
  | none => false

/-- A condition fails for every slice that uses a memory controller (R44). -/
def State.failsUsing (s : State) (m b : Nat) : State :=
  (List.range 12).foldl (fun t p => if t.sliceUses p m then t.fails p b else t) s

/-- A device becomes FAILED: its event, MODULE_STATE, and the stop of its partition's job (R266, R402). -/
def State.deviceFailed (s : State) (d : Nat) : State :=
  let s := (s.setRg (Obj.DEV_STATE d) devFailed).updateModuleState
  let s := s.notify 0x0030 ((s.ownerOfDevice d).getD 0xFF) d (s.rg (Obj.DEV_TEMP d))
  match s.ownerOfDevice d with
  | some p => s.faultDue p stopOther
  | none => s

/-! ## Refresh (R263) -/

/-- HIGH_TEMP_REFRESH (R263): the controller refreshes at the high-temperature rate, and REFRESH fails for the slices that use
the device. `cycles` are the refresh cycles that it has now spent at that rate. -/
def execHighTempRefresh (d : DeviceId) (cycles : Nat) (s : State) : Out :=
  takes (s.rg (Obj.DEV_STATE d) == devReady || s.rg (Obj.DEV_STATE d) == devHot) s (fun s =>
    let s := (s.setRg (Obj.DEV_STATE d) devHot).failsUsing d cfRefresh
    match s.ownerOfDevice d with
    | some p => (s.count p 6 d (wEvent 4) cycles).count p 6 d (wStall 1) cycles
    | none => s)

/-- NORMAL_TEMPERATURE_REFRESH (R263): the device goes back to the normal rate. A slice that used it in the same tick keeps its
failed condition, which holds for a whole tick or not at all (R44). -/
def execNormalTemperatureRefresh (d : DeviceId) (s : State) : Out :=
  takes (s.rg (Obj.DEV_STATE d) == devHot) s (fun s => (s.failsUsing d cfRefresh).setRg (Obj.DEV_STATE d) devReady)

/-! ## Retraining (R268, R269) -/

/-- Whether RETRAIN_DEVICE of device `d` is rejected. -/
def State.retrainBarred (s : State) (d : Nat) : Bool :=
  s.rg (Obj.DEV_STATE d) == devFailed ||
    (match s.ownerOfDevice d with
      | some p => s.rg (Obj.PART_STATE p) == psActive
          || (s.rg (Obj.PART_STATE p) == psHalted && s.rg (Obj.RECOVERY_STATE p) != rsStopped)
      | none => false)

/-- The write of RETRAIN_DEVICE: the state after it and its answer. -/
def State.retrain (s : State) (d : Nat) : State × Answer :=
  if d ≥ 48 then (s, .of stRange)
  else if s.retrainBarred d then (s, .of stState)
  else ((s.setRg (Obj.DEV_STATE d) devTraining).setRg Obj.RETRAIN_STATUS 1, .ok)

/-- RETRAIN_DEVICE (R268). -/
def execRetrainDevice (sess d : Nat) (s : State) : Out := s.command sess Obj.RETRAIN_DEVICE d (fun s => (s.retrain d).1)

/-- A device has been trained at a temperature (R269). -/
def State.trained (s : State) (d : Nat) (temp : Int) : State :=
  { s.setRg (Obj.DEV_TEMP d) (unsigned 32 temp) with trainTemp := SMap.put 0 s.trainTemp d (BitVec.ofInt 64 temp),
                                                     advised := clearBit s.advised d }

/-- RETRAIN_STATUS after a retrain that ended with `st`: running while another device retrains (log 52). -/
def State.retrainEnds (s : State) (st : Nat) : State :=
  s.setRg Obj.RETRAIN_STATUS (if (List.range 48).any (fun e => s.rg (Obj.DEV_STATE e) == devTraining) then 1 else st)

/-- RETRAIN_DONE (R268, R269): the training of a device ends at a temperature, or fails; its contents and its poison log stay. -/
def execRetrainDone (d : DeviceId) (temp : Option Int) (s : State) : Out :=
  takes (s.rg (Obj.DEV_STATE d) == devTraining) s (fun s => match temp with
    | some temp =>
      ((s.setRg (Obj.DEV_STATE d) (if (s.ownerOfDevice d).isSome || s.holdsTable d then devReady else devSelfRefresh)).trained d temp).retrainEnds 2
    | none => (s.deviceFailed d).retrainEnds 3)

/-- GDDR7_RETRAIN_ADVISED (R269): the temperature has moved by more than 20 °C since the last training; raised once. -/
def execGddr7RetrainAdvised (d : DeviceId) (temp : Int) (s : State) : Out :=
  let last := signed 32 (SMap.getD 0 s.trainTemp d).toNat
  takes (!s.advised.testBit d && (20 < temp - last || 20 < last - temp)) s (fun s =>
    let s := s.setRg (Obj.DEV_TEMP d) (unsigned 32 temp)
    let s := { s with advised := setBit s.advised d }
    s.notify 0x0031 ((s.ownerOfDevice d).getD 0xFF) d (unsigned 32 temp))

/-! ## CXL ports (R271 to R276) -/

/-- The partitions whose ranges include bytes of a port window. -/
def State.ownersOfCxl (s : State) (x : Nat) : List Nat :=
  (List.range 12).filter (fun p => match (s.pt p).built with
    | some r => r.cxl.any (fun c => c.1 == x)
    | none => false)

/-- An event of a CXL port, to each partition that has ranges in it, or for the module. -/
def State.notifyCxl (s : State) (code x arg1 : Nat) : State :=
  match s.ownersOfCxl x with
  | [] => s.notify code 0xFF x arg1
  | ps => ps.foldl (fun t p => t.notify code p x arg1) s

/-- The window of a port emptied: its new contents are undefined and read as unwritten memory (log 7). -/
def State.emptyWindow (s : State) (x : Nat) : State :=
  let inside := fun (a : Nat) => cxlBase x ≤ a && a < cxlBase x + 0x0200_0000_0000
  { s with mem := s.mem.filter (fun c => !inside c.1), cxlPoison := s.cxlPoison.filter (fun a => !inside a) }

/-- CXL_ENUMERATE (R271, R272, R276, R523): the link to an expander comes up and its port is TRAINING (no `capacity`), or the milliner has
enumerated it: at power-up, or inserted in service (`hotAdd`), it is checked and its port comes UP with its usable capacity, in
common-clock mode where CXL_REFCLK is present and within tolerance, else in SRIS mode; one that is no Type 3 device leaves the port FAILED. -/
def execCxlEnumerate (x : CxlId) (capacity : Option Nat) (type3 hotAdd refclk : Bool) (s : State) : Out :=
  let st := s.rg (Obj.CXL_STATE x)
  match capacity with
  | none =>
    takes (s.power.up && (st == cxlEmpty || st == cxlFailed)) s (fun s => ((s.setRg (Obj.CXL_STATE x) cxlTraining).emptyWindow x).updateModuleState)
  | some capacity => takes (s.boot.milliner && st == cxlTraining) s (fun s =>
    let cap := Nat.min capacity (2 ^ 41) / 65536 * 65536
    let s := { s with cxlSris := if refclk then clearBit s.cxlSris x else setBit s.cxlSris x }
    let s := if type3 then (s.setRg (Obj.CXL_STATE x) cxlUp).setRg (Obj.CXL_BYTES x) cap
      else (s.setRg (Obj.CXL_STATE x) cxlFailed).setRg (Obj.CXL_BYTES x) 0
    let s := s.updateModuleState
    if hotAdd then s.notifyCxl 0x0033 x (s.cxlBytes x) else s)

/-- The write of CXL_REMOVE: rejected while an enabled Residency entry lies in the window; else the port is REMOVING until its link
has stopped (R274). -/
def State.cxlRemove (s : State) (x v : Nat) : State × Answer :=
  if v ≠ 1 then (s, .of stRange)
  else if s.resList.any (fun kv => s.region (ResEntry.slotAddr kv.2 0) == some (.cxl x)) then (s, .of stState)
  else (((s.failsUsing (48 + x) cfMaint).setRg (Obj.CXL_STATE x) cxlRemoving).updateModuleState, .ok)

/-- CXL_REMOVE (R274). -/
def execCxlRemove (sess : Nat) (x : CxlId) (s : State) : Out :=
  s.command sess (Obj.CXL_REMOVE x) 1 (fun s => (s.cxlRemove x 1).1)

/-- CXL_LOST (R274, R275, R402): an UP port loses its link or its expander fails, and the jobs of the partitions with ranges there
stop; a port in removal stops its link and is EMPTY. -/
def execCxlLost (x : CxlId) (s : State) : Out :=
  if s.rg (Obj.CXL_STATE x) = cxlRemoving then
    .next ((((s.setRg (Obj.CXL_STATE x) cxlEmpty).setRg (Obj.CXL_BYTES x) 0).emptyWindow x).updateModuleState)
  else takes (s.rg (Obj.CXL_STATE x) == cxlUp) s (fun s =>
    let s := (s.setRg (Obj.CXL_STATE x) cxlFailed).updateModuleState
    let s := s.notifyCxl 0x0032 x (s.cxlBytes x)
    (s.ownersOfCxl x).foldl (fun t p => t.faultDue p stopCxl) s)

end Sys2Proof.Machine
end

