-- ==== Sys2Proof/Machine/Streams.lean ====
section
/-!
DEFINITION. Stream Table entries and ports as the schedule sees them (10_fabric_and_ethernet.md R351 to R370): fields, the port
in use, slot ordinals, and the ports that carry tick-status frames.
-/

namespace Sys2Proof.Machine
open Sys2Proof

/-! ## Stream Table entry, 128 B -/
namespace Sm
def enable : Fld := fm 0 31 31
def rsv0 : Fld := fm 0 30 28
def partition : Fld := fm 0 27 24
def refusal : Fld := fm 0 23 16
def rsv1 : Fld := fm 0 15 8
def class_ : Fld := fm 0 7 5
def vlanEn : Fld := fm 0 4 4
def encap : Fld := fm 0 3 2
def rsv2 : Fld := fm 0 1 0
def job : Fld := fb 0x04 2
def peerStream : Fld := fb 0x06 2
def peerModule : Fld := fb 0x08 1
def primary : Fld := fm 0x09 5 0
def primaryRsv : Fld := fm 0x09 7 6
def alternate (k : Nat) : Fld := fb (0x0A + (k - 1)) 1
def active : Fld := fb 0x0D 1
def framePayload : Fld := fb 0x0E 2
def peerMac : Fld := fb 0x10 8
def vlanTci : Fld := fb 0x18 2
def udpSrc : Fld := fb 0x1A 2
def rsv3 : Fld := fb 0x1C 4
def peerIp : Fld := fb 0x20 16
def localIp : Fld := fb 0x30 16
def txFrames : Fld := fb 0x40 8
def rxFrames : Fld := fb 0x48 8
def retxFrames : Fld := fb 0x50 4
def naks : Fld := fb 0x54 4
def failovers : Fld := fb 0x58 4
def nullFrames : Fld := fb 0x5C 4
def dropped : Fld := fb 0x60 4
def rsv4 : Fld := fb 0x64 28
end Sm

abbrev Stream := BitVec 1024

abbrev classControl : Nat := 3

def State.streamE (s : State) (i : Nat) : Stream := SMap.getD 0 s.streams i
def State.setStream (s : State) (i : Nat) (e : Stream) : State := { s with streams := SMap.put 0 s.streams i e }
def State.setStreamFld (s : State) (i : Nat) (f : Fld) (v : Nat) : State := s.setStream i (f.set (s.streamE i) v)
def State.incStream (s : State) (i : Nat) (f : Fld) (n : Nat) : State := s.setStreamFld i f (f.get (s.streamE i) + n)
/-- Enabled streams of a partition. -/
def State.streamsOf (s : State) (p : Nat) : List (Nat × Stream) :=
  s.streams.filter (fun kv => Sm.enable.get kv.2 == 1 && Sm.partition.get kv.2 == p)

/-- An entry with the counters of another (R364). -/
def Stream.carry (old new : Stream) : Stream :=
  [Sm.txFrames, Sm.rxFrames, Sm.retxFrames, Sm.naks, Sm.failovers, Sm.nullFrames, Sm.dropped].foldl (fun x f => f.set x (f.get old)) new

/-- STREAMS_ENABLED: the entries with ENABLE set, those accepted and not yet taken up among them. -/
def State.countStreams (s : State) : State :=
  s.setRg Obj.STREAMS_ENABLED ((s.streams.filter (fun kv => Sm.enable.get kv.2 == 1)).length
    + (s.streamPending.filter (fun kv => kv.2 != 0 && Sm.enable.get (s.streamE kv.1) == 0)).length)

/-! ## Ports -/

abbrev linkDown : Nat := 0
abbrev linkTraining : Nat := 1
abbrev linkUp : Nat := 2
abbrev linkAdapting : Nat := 3
abbrev linkDisabled : Nat := 4
/-- Whether a fabric port is up (R334). -/
def State.portUp (s : State) (port : Nat) : Bool := s.rg (Obj.LINK_STATE port) == linkUp

/-- The ports of a stream in order: primary, then its valid alternates; each with whether it relays. -/
def Stream.ports (e : Stream) : List (Nat × Nat × Bool) :=
  (0, Sm.primary.get e, false) :: ([1, 2, 3].filter (fun k => ((Sm.alternate k).get e).testBit 7)).map (fun k =>
    (k, (Sm.alternate k).get e % 64, ((Sm.alternate k).get e).testBit 6))

/-- ACTIVE chosen afresh: the first port of the stream that is up, 0xFF for none (R361, R364). -/
def State.chooseActive (s : State) (e : Stream) : Nat :=
  match (Stream.ports e).find? (fun k => s.portUp k.2.1) with
  | some k => k.1
  | none => 0xFF

/-- The port that a stream uses now, and whether it relays. -/
def Stream.current (e : Stream) : Option (Nat × Bool) :=
  match (Stream.ports e).find? (fun k => k.1 == Sm.active.get e) with
  | some k => some k.2
  | none => none

/-! ## Port slots -/

/-- Direction of a port slot: 0 transmit, 1 receive-expected (02). -/
abbrev dirTx : Nat := 0
abbrev dirRx : Nat := 1

/-- The ordinal of port slot `n`: its number among the slots of the slice that name the same stream in the same direction. -/
def State.slotOrd (s : State) (b k n : Nat) : Nat :=
  let e := s.slotEntry b k n
  ((List.range n).filter (fun m =>
    let f := s.slotEntry b k m
    Ps.stream.get f == Ps.stream.get e && Ps.direction.get f == Ps.direction.get e)).length

/-- The slot of a direction with an ordinal of a stream. -/
def State.slotByOrd (s : State) (b k dir stream ord : Nat) : Option Nat :=
  (((List.range (s.slotCount b k)).filter (fun m =>
    let f := s.slotEntry b k m
    Ps.stream.get f == stream && Ps.direction.get f == dir)).drop ord).head?

def SliceRun.slot (r : SliceRun) (n : Nat) : ItemRun := SMap.getD ItemRun.none r.slots n
def SliceRun.setSlot (r : SliceRun) (n : Nat) (x : ItemRun) : SliceRun := { r with slots := SMap.put ItemRun.none r.slots n x }
def SliceRun.slotIO (r : SliceRun) (n : Nat) : SlotIO := SMap.getD SlotIO.none r.io n
def SliceRun.setSlotIO (r : SliceRun) (n : Nat) (x : SlotIO) : SliceRun := { r with io := SMap.put SlotIO.none r.io n x }

/-- The physical port of a port slot's PORT byte: logical ports are counted through the quarters in ascending order, as the
clusters of the crown program section are (R38). DEDUCED (log 45). -/
def State.slotPort (s : State) (p : Nat) (e : BitVec 256) : Option Nat :=
  match (s.pt p).built with
  | some r => ((maskList 64 r.ports).drop (Ps.port.get e)).head?
  | none => none

/-- The quarter of a port slot's port. -/
def State.slotQuarter (s : State) (p : Nat) (e : BitVec 256) : Nat :=
  match s.slotPort p e with
  | some q => quarterOfPort q
  | none => 0

/-! ## Settlement ports (R57, R370) -/

/-- The ports on which a partition sends tick-status frames for a job. -/
def State.settlePorts (s : State) (p job : Nat) : List Nat :=
  match (s.pt p).built with
  | none => []
  | some r =>
    let all := if s.rg Obj.MESH_SIZE = 0 then (bitsOf 64 r.ports).filter (fun q => s.rg (Obj.SETTLE_PORT q) == 1)
      else (bitsOf 64 r.ports).filter (fun q =>
        (s.streamsOf p).any (fun kv => Sm.job.get kv.2 == job && (Stream.ports kv.2).any (fun k => k.2.1 == q)))
    all.filter s.portUp

/-- A frame of `wire` bytes on the wire sent by a port: TX_FRAMES, and for the partition that owns it the event and the busy
cycles (14; a byte takes 0.01 ns at 800 Gb/s). -/
def State.sentOn (s : State) (port wire : Nat) : State :=
  let s := s.incRg (Obj.TX_FRAMES port) 1
  match s.ownerOfPort port with
  | some p => (s.count p 5 port (wEvent 0) 1).count p 5 port wBusy (ceilDiv (wire * 19) 1000)
  | none => s

/-- Wire bytes of a 64 B frame: with preamble and inter-frame gap. -/
abbrev smallWire : Nat := 84

abbrev hostPort : Nat := 64

/-- The object that shows the link state of a port, fabric or host. -/
def linkKey (port : Nat) : Nat := if port < 64 then Obj.LINK_STATE port else Obj.HOST_LINK_STATE
def State.linkState (s : State) (port : Nat) : Nat := s.rg (linkKey port)
def State.linkIsUp (s : State) (port : Nat) : Bool := s.linkState port == linkUp

/-! ## The transmitter of a port (R340, R343, R345) -/

/-- The instant, in hundredths of a ns, from which a port may start a frame of a priority: once the frame in progress has ended, the
port is up, and no pause holds the priority. -/
def State.txGate (s : State) (port prio : Nat) : Nat :=
  Nat.max (Nat.max (SMap.getD 0 s.txFree port) (100 * SMap.getD 0 s.upSince port)) (100 * SMap.getD 0 s.pauseEnd (8 * port + prio))

/-- Whether a port may start frames at all: it is up, and its transmitter is not in low-power idle. -/
def State.txAwake (s : State) (port : Nat) : Bool := s.linkIsUp port && s.rg (Obj.LPI_STATE port) == 0

/-- A frame of `wire` bytes starts on a port at an instant: 800 Gb/s are 100 B in a ns. -/
def State.txStart (s : State) (port wire t : Nat) : State := { s with txFree := SMap.ins s.txFree port (t + wire) }.sentOn port wire

/-- A frame joins those that wait for a port. -/
def State.queueTx (s : State) (port cls prio wire : Nat) (x : Sent) : State :=
  { s with txq := SMap.ins s.txq port (SMap.getD [] s.txq port ++ [⟨cls, prio, wire, 100 * s.now, x⟩]) }

end Sys2Proof.Machine
end

