-- ==== Sys2Proof/Machine/Watchdog.lean ====
section
/-!
DEFINITION. The crown-core watchdog (12_resilience.md R403): the reset of a cluster whose core retires no instruction.
-/

namespace Sys2Proof.Machine
open Sys2Proof

/-- Whether a core's standstill counts: not before a JOIN, at a full issue queue, at a WAIT for tiles, at an UNTIL, nor where no
program runs: after DONE, or where the core has stopped, since R402 lets the job go on after an on-chip parity hit (R403; the last
DEDUCED, log 41). -/
def State.coreWatched (s : State) (c : ClusterId) : Bool :=
  let cr := (s.cl c).crown
  match cr.mode with
  | .running => true
  | .waiting =>
    match decodeCrown c (cr.wordAt cr.pc).1 with
    | some (.issa ..) => false
    | some (.issn ..) => false
    | some (.wait _ cls _ _) => cls != 0
    | _ => true
  | _ => false

/-- The instant at which the watchdog of a core would fire. -/
def State.watchdogAt (s : State) (c : Nat) : Nat := (s.cl c).crown.lastRetire + 1000 * s.rg Obj.WATCHDOG_US

/-- Whether the watchdog of a cluster fires in the tick in progress: a core that still runs must have stood for the whole time. -/
def State.watchdogFires (s : State) (p : Nat) (c : ClusterId) : Bool :=
  (s.pt p).slice.isSome && !(s.cl c).resetting && s.coreWatched c
    && s.watchdogAt c < (s.pt p).edgeNs + (s.pt p).tickNs
    && ((s.cl c).crown.mode != .running || s.watchdogAt c ≤ s.now)

/-- The engines of a cluster stopped: no operation issues, streams or completes any more. -/
def Cluster.halt (cl : Cluster) : Cluster :=
  { cl with crown := { Crown.empty with bankA := cl.crown.bankA, bankB := cl.crown.bankB, useB := cl.crown.useB, points := cl.crown.points,
                                        lastRetire := cl.crown.lastRetire },
            arrays := Vector.replicate 16 ⟨[], [], 0, []⟩,
            nap := { cl.nap with queue := [], run := none, lastEnd := 0, recent := [] } }

/-- Tiles, Nap registers and batt memory at their cleared values (R53, R277). -/
def Cluster.wipe (cl : Cluster) : Cluster :=
  { cl.halt with tiles := [], nap := ⟨[], none, 0, [], [], [], []⟩, batt := [],
                 writes := CycleWrites.none, cap := [] }

/-- WATCHDOG_FIRE (R403): the cluster stops at once, the slice is late, a settle fault is due, and the reset begins. -/
def execWatchdogFire (c : ClusterId) (s : State) : Out :=
  match s.ownerOfCluster c with
  | none => .next s
  | some p =>
    takes (s.watchdogFires p c) s (fun s =>
      let s := s.at (s.watchdogAt c)
      let s := (s.lateC c).faultDue p stopWatchdog
      let s := (s.incRg (Obj.WATCHDOG_RESETS p) 1).count p 2 c (wEvent 3) 1
      s.modCl c (fun cl => { cl.halt with resetting := true }))

/-- CLUSTER_RESET_DONE (R403): the reset has completed, and the cluster may run work from the next slice on. -/
def execClusterResetDone (c : ClusterId) (s : State) : Out :=
  takes (s.cl c).resetting s (fun s => s.modCl c (fun cl => { cl.wipe with resetting := false }))

end Sys2Proof.Machine
end

