-- ==== Sys2Proof/Machine/Jobs.lean ====
section
/-!
DEFINITION. Jobs of a partition (02_tick_and_schedule.md R79 to R82; 12_resilience.md R406; 13_management.md R470 to R475): their
states, pins, start, end, cancel and stop. The commands stand in Tick.lean, Settle.lean and JobCheck.lean.
-/

namespace Sys2Proof.Machine
open Sys2Proof

/-! ## Partition state -/

/-- PART_STATE and JOBS_ACCEPTED follow from what the partition holds: HALTED while a job is STOPPED, ACTIVE while one is
accepted or ticks (log 47). -/
def State.updatePart (s : State) (p : Nat) : State :=
  let x := s.pt p
  let live := (x.jobs.filter (fun kv => Job.state.get kv.2 == jsAccepted || Job.state.get kv.2 == jsTicking)).length
  let st := if x.built.isNone then psFree else if x.stopped.isSome then psHalted else if live > 0 then psActive else psIdle
  (s.setRg (Obj.PART_STATE p) st).setRg (Obj.JOBS_ACCEPTED p) live

/-- FILTER_MODE of the partition's ports: 0 SERVICE, 1 HASH. -/
def State.setFilter (s : State) (p v : Nat) : State :=
  match (s.pt p).built with
  | some r => (bitsOf 64 r.ports).foldl (fun t q => t.setRg (Obj.FILTER_MODE q) v) s
  | none => s

/-! ## Pins (R293, R365) -/

/-- STREAMS_PINNED: the number of pinned streams of each quarter. -/
def State.countPins (s : State) : State :=
  let n := fun (q : Nat) => ((List.range 12).flatMap (fun p => ((s.pt p).streamPins.filter (fun kv => kv.1 % 4 == q)).flatMap (·.2))).eraseDups.length
  s.setRg Obj.STREAMS_PINNED (n 0 + n 1 * 2 ^ 16 + n 2 * 2 ^ 32 + n 3 * 2 ^ 48)

/-- What a job pinned is released (R295, R365). -/
def State.unpin (s : State) (p j : Nat) : State :=
  (s.modPt p (fun x => { x with pins := x.pins.filter (fun kv => kv.1 / 4 != j),
                                streamPins := x.streamPins.filter (fun kv => kv.1 / 4 != j) })).countPins

/-- Whether a stream is pinned in the partition. -/
def State.streamPinned (s : State) (p i : Nat) : Bool := (s.pt p).streamPins.any (fun kv => kv.2.contains i)

/-! ## Generation slots of a job that ends (R400, R408) -/

def State.slotAddr (s : State) (i : Nat) : Nat := s.rg Obj.SLOT_BASE + 128 * i
/-- A slot entry written to its memory image. -/
def State.slotWriteBack (s : State) (i : Nat) : State := s.memPut (s.slotAddr i) (leBytes 128 (s.slotE i).toNat)

/-- Every active slot of the partition takes JOB_STOPPED. -/
def State.stopSlots (s : State) (p : Nat) : State :=
  let act := (s.pt p).slotRuns.map (·.1)
  let s := act.foldl (fun t i => (t.setSlotFld i Sl.status slJobStopped).slotWriteBack i) s
  let s := s.modPt p (fun x => { x with slotRuns := [], lanes := [], laneInputs := [], batches := [], slotCancels := [], copySet := [],
                                        genDue := none })
  match act with
  | [] => s
  | i :: _ => (s.incRg (Obj.SLOTS_STOPPED p) act.length).notify 0x0050 p act.length i

/-- A generation job that has ended, once its last step has settled: its slots stop, and its descriptor goes. The copies of a
generation job that has started meanwhile stay. -/
def State.endGen (s : State) (p : Nat) : State :=
  match (s.pt p).genEnd with
  | none => s
  | some j =>
    let copies := if (s.pt p).cursor.any (fun c => c.1 != j) then (s.pt p).copySet else []
    (s.stopSlots p).modPt p (fun x => { x with genEnd := none, copySet := copies, descs := SMap.del x.descs j })

/-- Whether the step settlement of a generation job is still to come: a slice of it with STEP_END settles (R82). -/
def Part.genSettles (x : Part) (j : Nat) : Bool :=
  (SMap.get? x.descs j).isSome && match x.settling with
    | some z => z.mode == 1 && z.job == j && z.stepEnd && !z.fault && (!z.recorded || x.genDue.isSome)
    | none => false

/-- The entries that the COPY_SET record of a job's generation descriptor lists. -/
def State.copyEntries (s : State) (p j : Nat) : List Nat :=
  match SMap.get? (s.pt p).descs j with
  | some d =>
    let i := Gd.copySet.get d
    if i = noEntry then []
    else ((List.range (Rs.rows.get (s.resE i) * Rs.cols.get (s.resE i))).map (s.word32 i)).filter s.resEnabled
  | none => []

/-! ## Ends (R80, R474) -/

/-- A job ends as COMPLETE, CANCELLED or ABANDONED: its pins and its row snapshots (R240) go, and JOB_DONE is sent. A generation job
keeps its slots until the step that its last slice ended has settled (R82). -/
def State.endJob (s : State) (p j st : Nat) : State :=
  let s := s.setJobF p j Job.state st
  let s := if (s.pt p).genSettles j then s.modPt p (fun x => { x with genEnd := some j })
    else if (SMap.get? (s.pt p).descs j).isSome then (s.modPt p (fun x => { x with genEnd := some j })).endGen p
    else s
  let s := s.modPt p (fun x => { x with order := x.order.filter (· != j), cancels := x.cancels.filter (fun c => c.index != j),
                                        numerics := SMap.del x.numerics j, rows := x.rows.filter (fun kv => kv.1 / 1024 != j) })
  let s := if s.rg (Obj.JOB_CURRENT p) = j then s.setRg (Obj.JOB_CURRENT p) 0xFF else s
  ((s.unpin p j).updatePart p).notify 0x0012 p j st

/-! ## Cancel (R474) -/

abbrev ackCancelled : Nat := 1
abbrev ackComplete : Nat := 2
abbrev ackBefore : Nat := 3

/-- A job that has not been accepted is cancelled: its check is dropped, and its entry, as it stands in memory where the module
holds none, shows CANCELLED. -/
def State.cancelUnstarted (s : State) (p j : Nat) : State :=
  let e := (SMap.get? (s.pt p).jobs j).getD (s.memRec (s.jobAddr p j) 128)
  let s : State := { s with checks := s.checks.filter (fun c => !(c.1 == p && c.2.1 == j)) }
  ((s.putJob p j (Job.enable.set e 0)).setRg (Obj.CANCEL_ACK p) ackBefore).endJob p j jsCancelled

/-- A cancel of a job takes effect at an edge; `final` is the job whose last slice that edge ends. -/
def State.cancelJob (s : State) (p j : Nat) (final : Option Nat) : State :=
  let s := s.modPt p (fun x => { x with cancels := x.cancels.filter (fun c => c.index != j) })
  let st := s.jobState p j
  if st = jsAccepted then (s.setRg (Obj.CANCEL_ACK p) ackBefore).endJob p j jsCancelled
  else if st = jsIdle || st = jsChecking then s.cancelUnstarted p j
  else if st = jsTicking && final != some j then
    let s := s.modPt p (fun x => { x with cursor := none, suspend := 0 })
    (s.setRg (Obj.CANCEL_ACK p) ackCancelled).endJob p j jsCancelled
  else if st = jsStopped then s
  else s.setRg (Obj.CANCEL_ACK p) ackComplete

/-! ## Abandon (R408) -/

/-- An ABANDON takes effect at an edge: the stopped job ends, and RECOVERY_STATE returns to NONE. -/
def State.applyAbandon (s : State) (p : Nat) : State :=
  match (s.pt p).stopped with
  | some j =>
    if (s.pt p).abandonAtEdge then
      let s := s.modPt p (fun x => { x with stopped := none, recover := none, abandonAtEdge := false })
      let s := ((s.setRg (Obj.RECOVERY_STATE p) rsNone).setRg (Obj.HELD_UPDATE_STARTED p) 0).setRg (Obj.LOST_MODULES p) 0
      s.endJob p j jsAbandoned
    else s
  | none => s

/-! ## Start (R472) -/

/-- The sets and totals of a step at their start. -/
def Part.freshStep (x : Part) : Part :=
  { x with stepDropped := [], stepMissing := [], missingMap := [], updateStarted := false, atUpdate := false, tagSlots := [], stepSlots := [], lateTicks := 0,
           silentTicks := 0, stepSwitches := 0 }

/-- A job starts at the edge that begins tick `n`. -/
def State.startJob (s : State) (p j n : Nat) : State :=
  let s := (s.setJobF p j Job.state jsTicking).setJobF p j Job.firstTick n
  let quiet := match (s.pt p).settling with
    | some x => x.mode != 1
    | none => true
  let s := s.modPt p (fun x => { x with
    order := x.order.filter (· != j), cursor := some (j, 0), step := 0, gaugeCount := [], genStart := n, posRec := 0,
    loaded := if x.loaded = some (j, 0) then x.loaded else none })
  let s := if quiet then s.modPt p Part.freshStep else s
  let s := s.modPt p (fun x => { x with copySet := s.copyEntries p j })
  let s := if quiet then s.setRg (Obj.STEP_COUNTER p) 0 else s
  (((s.setRg (Obj.JOB_CURRENT p) j).setFilter p 0).updatePart p).notify 0x0011 p j n

/-- START_TICK came while another job ticked or the partition was HALTED (R471). -/
def State.blockStart (s : State) (p j : Nat) : State :=
  let s := ((s.setJobF p j Job.refusal 0x1F).setJobF p j Job.enable 0).setJobF p j Job.state jsIdle
  let s := s.modPt p (fun x => { x with order := x.order.filter (· != j), cancels := x.cancels.filter (fun c => c.index != j) })
  ((s.unpin p j).updatePart p).notify 0x0013 p j 0x1F

/-! ## Stop under a settle fault (R61, R406) -/

/-- The cores and engines of the partition's clusters stop. -/
def State.haltClusters (s : State) (p : Nat) : State :=
  match (s.pt p).built with
  | some r => (maskList 48 r.clusters).foldl (fun t c => t.modCl c Cluster.halt) s
  | none => s

/-- The job of a settlement stops: it shows STOPPED, with STOP_CAUSE in the recovery objects (R475). -/
def State.stopJob (s : State) (p j cause : Nat) (critical : Bool) : State :=
  if s.jobState p j ≠ jsTicking then s
  else
    let s := s.incRg (Obj.SETTLE_FAULTS p) 1
    let s := if critical then s.incRg (Obj.CRITICAL_FAULTS p) 1 else s
    let own := match (s.pt p).cursor with
      | some c => c.1 == j
      | none => (s.pt p).slice.isNone
    let s := if own then (s.modPt p (fun x => { x with slice := none, cursor := none, suspend := 0, loaded := none })).haltClusters p else s
    let s := s.setJobF p j Job.state jsStopped
    let s := if (s.pt p).cancels.any (fun c => c.index == j) then s.setRg (Obj.CANCEL_ACK p) 0 else s
    let s := s.modPt p (fun x => { x with stopped := some j, cancels := x.cancels.filter (fun c => c.index != j), stopAtEdge := false })
    let s := (((s.setRg (Obj.RECOVERY_STATE p) rsStopped).setRg (Obj.STOP_TICK p) (s.pt p).gen.tick).setRg (Obj.STOP_CAUSE p) cause).setRg
      (Obj.UPDATE_STARTED p) (if (s.pt p).updateStarted then 1 else 0)
    let s := if s.rg (Obj.PRESS_STATE p) = 1 || s.rg (Obj.PRESS_STATE p) = 2 then s.setRg (Obj.PRESS_STATE p) 0 else s
    let s := if (SMap.get? (s.pt p).descs j).isSome then s.stopSlots p else s
    let s := if s.rg (Obj.JOB_CURRENT p) = j then s.setRg (Obj.JOB_CURRENT p) 0xFF else s
    (((s.unpin p j).setFilter p 1).updatePart p).notify 0x0014 p j cause

end Sys2Proof.Machine
end

