-- ==== Sys2Proof/Machine/Counters.lean ====
section
/-!
DEFINITION. Counter banks and top-down slots (14_observability.md R478 to R490): the bank switch, running totals, the classes of
array slots, and counter images.
-/

namespace Sys2Proof.Machine
open Sys2Proof

/-- Reference cycles of a span of grains (R479). -/
abbrev grainCycles (n : Nat) : Nat := 19000 * n

/-- The partition and the engine of a counter key. -/
def ctrPart (k : Nat) : Nat := k / 131072
def ctrKind (k : Nat) : Nat := k / 16384 % 8
def ctrWord (k : Nat) : Nat := k % 16

/-- Two banks added. -/
def addBank (a b : SMap Nat) : SMap Nat := b.foldl (fun m kv => SMap.put 0 m kv.1 (SMap.getD 0 m kv.1 + kv.2)) a

/-- The engines of a partition, by KIND and NUMBER rising (R487). -/
def Resources.engines (r : Resources) : List (Nat × Nat) :=
  let cs := maskList 48 r.clusters
  let ds := maskList 48 r.devices
  cs.flatMap (fun c => (List.range 16).map (fun a => (0, 16 * c + a))) ++ cs.map (1, ·) ++ cs.map (2, ·)
    ++ (ds ++ (List.range 8).map (48 + ·)).map (3, ·) ++ (List.range 4).map (4, ·) ++ (maskList 64 r.ports).map (5, ·)
    ++ (ds ++ (List.range 8).map (48 + ·)).map (6, ·)

/-- Engines whose record is of a shared block (R482): Reblock engines, and the CXL controllers with their Kettle units. -/
def sharedEngine (kind num : Nat) : Bool := kind == 4 || ((kind == 3 || kind == 6) && num ≥ 48)

/-- A count of one engine in a bank. -/
def bankAt (b : SMap Nat) (p kind num w : Nat) : Nat := SMap.getD 0 b (ctrKey p kind num w)
def bankStalls (b : SMap Nat) (p kind num : Nat) : Nat := ((List.range 7).map (fun k => bankAt b p kind num (wStall k))).sum

/-- IDLE over a span of cycles: every cycle that is neither BUSY nor a stall (R479). -/
def bankIdle (b : SMap Nat) (p kind num span : Nat) : Nat := span - bankAt b p kind num wBusy - bankStalls b p kind num

/-- The sums of BUSY, IDLE and stalls over the arrays of a partition. -/
def State.arraySlots (s : State) (p : Nat) (b : SMap Nat) (span : Nat) : Nat × Nat × Nat :=
  match (s.pt p).built with
  | some r => (maskList 48 r.clusters).foldl (fun t c => (List.range 16).foldl (fun (u : Nat × Nat × Nat) a =>
      (u.1 + bankAt b p 0 (16 * c + a) wBusy, u.2.1 + bankIdle b p 0 (16 * c + a) span, u.2.2 + bankStalls b p 0 (16 * c + a))) t) (0, 0, 0)
  | none => (0, 0, 0)

/-- n of a quarter: the larger of the power and the thermal throttle. -/
def Throttle.n (t : Throttle) (q : Nat) : Nat := Nat.max t.powerN (SMap.getD 0 t.thermalN q)

/-- The quarter of an engine (01). -/
def engineQuarter (kind num : Nat) : Nat :=
  match kind with
  | 0 => num / 192
  | 1 => num / 12
  | 2 => num / 12
  | 4 => num
  | 5 => num / 16
  | _ => if num < 48 then num / 12 else (num - 48) / 2

/-- The cycles that a throttle has withheld from a quarter since they were last counted: n of every 8 (R533). -/
def State.withheld (s : State) (q : Nat) : Nat := (s.now - s.withheldFrom) * 19 / 10 * s.throttle.n q / 8

/-- Withheld cycles counted as STALL[6] in every engine of the throttled quarters, up to the present instant (R479, R533). -/
def State.countWithheld (s : State) : State :=
  let add := fun (p : Nat) (o : SMap Nat) (e : Nat × Nat) =>
    SMap.put 0 o (ctrKey p e.1 e.2 (wStall 6)) (SMap.getD 0 o (ctrKey p e.1 e.2 (wStall 6)) + s.withheld (engineQuarter e.1 e.2))
  let o := if (List.range 4).all (fun q => s.withheld q == 0) then s.open_
    else (List.range 12).foldl (fun o p => match (s.pt p).built with
      | some r => r.engines.foldl (add p) o
      | none => o) s.open_
  { s with open_ := o, withheldFrom := s.now }

/-- The banks of a partition switch at the start of a grain (R485): the open bank closes, enters the running totals, the next
counter image and the totals of the step, and an empty bank opens. -/
def State.switchBanks (s : State) (p g : Nat) : State :=
  let s := s.countWithheld
  let mine := s.open_.filter (fun kv => ctrPart kv.1 == p)
  let rest := s.open_.filter (fun kv => ctrPart kv.1 != p)
  let span := grainCycles (g - (s.pt p).switchGrain)
  let (busy, idle, back) := s.arraySlots p mine span
  let add := fun (m : SMap Nat) k n => SMap.put 0 m k (SMap.getD 0 m k + n)
  let s : State := { s with open_ := rest, closed := addBank (s.closed.filter (fun kv => ctrPart kv.1 != p)) mine, totals := addBank s.totals mine }
  s.modPt p (fun x => { x with switchGrain := g, lastSwitch := x.switchGrain, imgBank := addBank x.imgBank mine,
                               stepSlots := add (add (add x.stepSlots 0 busy) 2 idle) 3 back })

/-- A snapshot's switch has come (R485, R488): the closed banks are its image. -/
def State.takeSnapshot (s : State) (p g : Nat) : State :=
  let from_ := (s.pt p).switchGrain
  let s := s.switchBanks p g
  let s := s.modPt p (fun x => { x with snapAt := none, snapTick := x.gen.tick, imgSnap := true, snapSpan := grainCycles (g - from_),
                                        snapBank := s.closed.filter (fun kv => ctrPart kv.1 == p) })
  (s.setRg (Obj.SNAPSHOT_STATE p) 2).notify 0x00A1 p (s.pt p).gen.tick g

/-- Wasted slots found at a settlement enter the records of the interval that they were run in (R483). -/
def State.countWasted (s : State) (p arr n : Nat) : State :=
  if n = 0 then s
  else
    let k := ctrKey p 0 arr (wEvent 0)
    let add := fun (m : SMap Nat) => SMap.put 0 m k (SMap.getD 0 m k + n)
    ({ s with closed := add s.closed, totals := add s.totals } : State).modPt p (fun x =>
      if x.imgDue.isSome then { x with imgHold := add x.imgHold } else { x with imgBank := add x.imgBank })

/-- An image falls due at the edge that ends the last of IMAGE_EVERY ticks; one that is still being written is abandoned
(R487). `t` is the tick that the edge ends, `g` the edge's grain. -/
def State.imageEdge (s : State) (p t g : Nat) : State :=
  if s.rg (Obj.IMAGE_MODE p) ≠ 1 || (t + 1) % s.rg (Obj.IMAGE_EVERY p) ≠ 0 then s
  else
    let s := if (s.pt p).imgDue.isSome then (s.incRg (Obj.IMAGES_SKIPPED p) 1).notify 0x00A0 p ((s.pt p).imgDue.getD 0) (s.rg (Obj.IMAGES_SKIPPED p) + 1) else s
    let job := match (s.pt p).settling with
      | some x => if x.mode = 1 then 2 else 0
      | none => 0
    s.modPt p (fun x => { x with imgDue := some t, imgHold := x.imgBank, imgSpan := grainCycles (g - x.imgFrom),
                                 imgFlags := job + (if x.imgSnap then 1 else 0), imgBank := [], imgFrom := g, imgSnap := false })

/-- The 128 B record of an engine in a bank. -/
def ctrRecord (b : SMap Nat) (p kind num span : Nat) (switched : Bool) : List Byte :=
  let flags := (if switched then 1 else 0) + (if sharedEngine kind num then 2 else 0)
  leBytes 1 kind ++ leBytes 1 flags ++ leBytes 2 num ++ leBytes 4 0 ++ leBytes 8 (bankAt b p kind num wBusy)
    ++ leBytes 8 (bankIdle b p kind num span) ++ (List.range 7).flatMap (fun k => leBytes 8 (bankAt b p kind num (wStall k)))
    ++ (List.range 5).flatMap (fun k => leBytes 8 (bankAt b p kind num (wEvent k))) ++ leBytes 8 0

/-- A counter image of a partition (R487). -/
def State.counterImage (s : State) (p : Nat) (b : SMap Nat) (span tick flags job : Nat) : List Byte :=
  match (s.pt p).built with
  | none => []
  | some r =>
    let es := r.engines
    let (busy, idle, back) := s.arraySlots p b span
    let wasted := ((maskList 48 r.clusters).flatMap (fun c => (List.range 16).map (fun a => bankAt b p 0 (16 * c + a) (wEvent 0)))).sum
    leBytes 4 0x4E434C42 ++ leBytes 1 p ++ leBytes 1 flags ++ leBytes 2 es.length ++ leBytes 8 tick ++ leBytes 8 span
      ++ leBytes 8 (busy - wasted) ++ leBytes 8 wasted ++ leBytes 8 idle ++ leBytes 8 back ++ leBytes 2 job ++ leBytes 6 0
      ++ es.flatMap (fun e => ctrRecord b p e.1 e.2 span false)

/-- IMAGE_BYTES of a partition. -/
def State.imageBytesOf (s : State) (p : Nat) : Nat :=
  match (s.pt p).built with
  | some r => 64 + 128 * r.engines.length
  | none => 64

end Sys2Proof.Machine
end

