-- ==== Sys2Proof/Machine/Dump.lean ====
section
/-!
DEFINITION. Tensor dump requests (14_observability.md R495 to R498): their layout, and when a capture falls due.
-/

namespace Sys2Proof.Machine
open Sys2Proof

/-! ## Dump request, 64 B -/
namespace Du
def tensor : Fld := fb 0x00 4
def point : Fld := fb 0x04 1
def target : Fld := fb 0x05 1
def qp : Fld := fb 0x06 1
def rsv0 : Fld := fb 0x07 1
def step : Fld := fb 0x08 8
def mb : Fld := fb 0x10 4
def destIndex : Fld := fb 0x14 4
def remoteAddr : Fld := fb 0x18 8
def remoteKey : Fld := fb 0x20 4
def maxDumps : Fld := fb 0x24 2
def rsv1 : Fld := fb 0x26 26
end Du

/-! DUMP_STATE and DUMP_RESULT values. -/
abbrev duIdle : Nat := 0
abbrev duArmed : Nat := 1
abbrev duCopying : Nat := 2
abbrev duDone : Nat := 3

def Dump.live (d : Dump) : Bool := d.state == duArmed || d.state == duCopying
/-- Captures of a request so far, taken or due. -/
def Dump.captures (d : Dump) : Nat := d.count + d.copies.length + d.due.length
/-- Captures that a request allows: MAX_DUMPS for POINT 2, else one. -/
def Dump.allowed (d : Dump) : Nat := if Du.point.get d.req = 2 then Du.maxDumps.get d.req else 1

/-- A capture falls due at a grain, where the request still allows one. -/
def Dump.fall (d : Dump) (g : Nat) : Dump := if d.live && d.captures < d.allowed then { d with due := d.due ++ [g] } else d

def State.modDumps (s : State) (p : Nat) (f : Dump → Dump) : State :=
  s.modPt p (fun x => { x with dumps := x.dumps.map (fun kv => (kv.1, f kv.2)) })

/-- POINT 2: a commit of an entry in a step is applied; `tag` is its micro-batch identifier, 0xFFFF_FFFF without a tag, none for
another kind of tag. The capture falls due at position 10,000 ns of the tick in progress. -/
def State.dumpCommit (s : State) (p i step : Nat) (tag : Option Nat) : State :=
  s.modDumps p (fun d => if Du.point.get d.req == 2 && Du.tensor.get d.req == i && Du.step.get d.req == step && tag == some (Du.mb.get d.req)
    then d.fall ((s.pt p).gen.start + 1) else d)

/-- POINT 0: the first tick of a step has begun. -/
def State.dumpStepStart (s : State) (p step : Nat) : State :=
  s.modDumps p (fun d => if Du.point.get d.req == 0 && Du.step.get d.req == step then d.fall ((s.pt p).gen.start + 1) else d)

/-- POINT 1: the STEP_END slice of a step has settled; the capture belongs to the next tick (log 48). -/
def State.dumpStepEnd (s : State) (p step : Nat) : State :=
  s.modDumps p (fun d => if Du.point.get d.req == 1 && Du.step.get d.req == step
    then d.fall ((s.pt p).gen.start + (s.pt p).gen.len + 1) else d)

end Sys2Proof.Machine
end

