-- ==== Sys2Proof/Machine/Commits.lean ====
section
/-!
DEFINITION. Commits (02_tick_and_schedule.md R51, R52, R63 to R66; 06_backward_pass.md R211, R217 to R219; 07_parameter_update.md
R249 to R251): which are refused, and what an applied commit changes.
-/

namespace Sys2Proof.Machine
open Sys2Proof

/-- The micro-batch identifier of a tagged commit. -/
def Commit.mb (c : Commit) (base : Nat) : Nat := (base + c.bit) % 2 ^ 32
/-- The bucket group of a commit. -/
def Commit.group (c : Commit) (base : Nat) : Nat := (base + c.bit) % 2 ^ 32

/-- The tag as POINT 2 of a dump sees it (R495). -/
def Commit.dumpTag (c : Commit) (base : Nat) : Option Nat :=
  if c.kind = 0 then some noVersion else if c.kind = 1 then some (c.mb base) else none

/-- Why a commit is not applied. -/
inductive CommitBar
  | free
  | sweep       -- the entry is in sweep (R251)
  | chain       -- the entry holds another provisional tag (R219)
  deriving DecidableEq, Repr

def State.commitBar (s : State) (p base : Nat) (c : Commit) : CommitBar :=
  let e := s.resE c.index
  if s.inSweep p c.index then .sweep
  else if Rs.provTag.get e != noVersion && !(c.kind == 1 && c.mb base == Rs.provTag.get e) then .chain
  else .free

/-- A refused commit counts, and is a settle fault. -/
def State.commitRefused (s : State) (p : Nat) (b : CommitBar) : State :=
  match b with
  | .free => s
  | .sweep => s.incRg (Obj.SWEEP_ACCESS p) 1
  | .chain => s.incRg (Obj.CHAIN_FAULT p) 1

/-- Reads see an entry as it stands until position 10,000 ns (R64). -/
def State.keepFormer (s : State) (p i pos : Nat) : State :=
  s.modPt p (fun x => match SMap.get? x.former i with
    | some _ => x
    | none => { x with former := SMap.ins x.former i ⟨s.resE i, pos⟩ })

/-- The position, at most 1,500 ns, at which the EDGE commit of an entry is applied; reads before it wait for it (R52). The spec
leaves it to the module, so it is a free value (log 14). -/
def State.holdReads (s : State) (p i : Nat) : State :=
  let (d, s) := s.draw
  s.modPt p (fun x => { x with applied := SMap.ins x.applied i ((Config.freeWord d).toNat % 1501) })

/-- A slot becomes current and VERSION advances (R52, R298, R329). -/
def State.makeCurrent (s : State) (p i slot : Nat) : State :=
  let old := Rs.cur.get (s.resE i)
  let s := (s.setResFld i Rs.cur slot).advance i
  if slot = old then s.tear p i slot
  else (s.incRg (Obj.COPY_SWITCHES p) 1).modPt p (fun x => { x with stepSwitches := x.stepSwitches + 1 })

/-- The first poisoned 64 B unit of a slot, by the poison logs and the lines that an expander holds. -/
def State.slotPoison (s : State) (i slot : Nat) : Option Nat :=
  let e := s.resE i
  let a := ResEntry.slotAddr e slot
  let inside := fun (u : Nat) => a ≤ u && u < a + ResEntry.stride e
  if isGddr a then (SMap.getD [] s.poisonLog (a / 2 ^ 32)).find? inside else s.cxlPoison.find? inside

/-- Poison that a commit makes current in a saved entry (R404). -/
def State.commitPoison (s : State) (i : Nat) : State :=
  match s.slotPoison i (Rs.cur.get (s.resE i)) with
  | some u => s.committedPoison u
  | none => s

/-- A commit of a paired copy records the version of its forward entry at the start of the tick (R211). -/
def State.recordPair (s : State) (i : Nat) (versions : SMap Nat) : State :=
  let e := s.resE i
  if Rs.role.get e = rolePaired
  then s.setResFld i Rs.linkVersion ((SMap.get? versions (Rs.linkIndex.get e)).getD (Rs.version.get (s.resE (Rs.linkIndex.get e)))) else s

/-- A commit applied (R52, R211, R217). `versions`: VERSION of the forward entries at the start of the slice's tick; `settle`:
with MODE settle, whose reads wait (R64). -/
def State.applyCommit (s : State) (p base step : Nat) (versions : SMap Nat) (settle : Bool) (c : Commit) : State :=
  let i := c.index
  let e := s.resE i
  let slot := (ResEntry.slotOfAddr e c.buffer).getD (Rs.cur.get e)
  let s := if settle then s.keepFormer p i 10000 else s.holdReads p i
  let s := if settle && c.kind == 1 && Rs.provTag.get e == noVersion
    then (s.setResFld i Rs.provTag (c.mb base)).setResFld i Rs.provSlot (Rs.cur.get e) else s
  let s := s.makeCurrent p i slot
  let s := s.recordPair i versions
  (s.commitPoison i).dumpCommit p i step (c.dumpTag base)

/-- The EDGE commits of an on-time slice in list order; a refused one is a settle fault of its settlement. -/
def State.edgeCommits (s : State) (p base step : Nat) (versions : SMap Nat) (cs : List Commit) : State :=
  (cs.filter (fun c => !c.settle)).foldl (fun t c =>
    match t.commitBar p base c with
    | .free => t.applyCommit p base step versions false c
    | b => (t.commitRefused p b).faultDue p stopChain) s

/-- The entries of a sweep. -/
def Sweep.entries (w : Sweep) : List Nat := [w.w, w.s1, w.s2].filter (· != noEntry)

/-- The sweep commit of one entry: VERSION advances in place, and a provisional tag refuses it (R211, R219, R249). -/
def State.sweepCommit (s : State) (p step : Nat) (versions : SMap Nat) (i : Nat) : State :=
  if Rs.provTag.get (s.resE i) != noVersion then (s.commitRefused p .chain).faultDue p stopChain
  else (((s.advance i).recordPair i versions).tear p i (Rs.cur.get (s.resE i))).dumpCommit p i step (some noVersion)

/-- Sweep slot `key` at an edge (R249, R250); `last`: the edge ends the tick of its LAST item. -/
def State.closeSweep (s : State) (p step key : Nat) (last : Bool) (w : Sweep) : State :=
  if w.state = 0 || !(w.progress == w.blocks || last) then s
  else
    let s := s.modPt p (fun x => { x with sweeps := SMap.put Sweep.closed x.sweeps key { w with state := 0 } })
    if w.state ≠ 1 then s
    else
      let left := w.blocks - w.progress
      let s := if left = 0 then s
        else ((s.incRg (Obj.KETTLE_UNFINISHED_BLOCKS p) left).incRg (Obj.SWEEPS_PARTIAL p) 1).notify 0x0042 p (key / 64) left
      let versions := match (s.pt p).slice with
        | some r => r.versions
        | none => []
      w.entries.foldl (fun t i => t.sweepCommit p step versions i) s

/-- Every sweep slot whose sweep is complete, or whose LAST item is one of the slice that ends, whether or not it started: `lasts`
holds their slots. -/
def State.closeSweeps (s : State) (p step : Nat) (lasts : List Nat) : State :=
  (s.pt p).sweeps.foldl (fun t kw => t.closeSweep p step kw.1 (lasts.contains kw.1) kw.2) s

/-! ## Resolution at 6,000 ns (R63) -/

/-- What a settlement has decided, as the commits see it. -/
structure Decided where
  drops : List Nat          -- identifiers dropped in this tick or earlier in the step (R65)
  groups : List Nat         -- missing bucket groups (R66)
  out : Nat                 -- modules late or silent
  self : Nat
  deriving DecidableEq, Repr

/-- Whether a held SETTLE commit is applied. -/
def Commit.stands (c : Commit) (d : Decided) (mbBase bktBase : Nat) : Bool :=
  if c.kind = 1 then !d.drops.contains (c.mb mbBase)
  else if c.kind = 2 then !d.groups.contains (c.group bktBase)
  else if c.kind = 3 then !d.out.testBit c.bit && !d.out.testBit d.self
  else true

/-- An entry whose provisional tag names a dropped micro-batch reverts (R218). -/
def State.revert (s : State) (p i : Nat) : State :=
  let e := s.resE i
  let s := s.keepFormer p i 10000
  (((s.setResFld i Rs.cur (Rs.provSlot.get e)).advance i).setResFld i Rs.provTag noVersion).commitPoison i

/-- Entries of a partition that hold a provisional tag. -/
def State.provisional (s : State) (p : Nat) : List (Nat × BitVec 256) :=
  s.resList.filter (fun kv => Rs.partition.get kv.2 == p && Rs.provTag.get kv.2 != noVersion)

end Sys2Proof.Machine
end

