-- ==== Sys2Proof/Machine/Frames.lean ====
section
/-!
DEFINITION. Frames as they stand on the wire (10_fabric_and_ethernet.md R347 to R353, R369, R370, R544): the headers that the module
forms, and how received frames are steered.
-/

namespace Sys2Proof.Machine
open Sys2Proof

/-! ## Headers (R351, R352, R544) -/

/-- The bytes of a 48-bit MAC address in transmission order. -/
def macBytes (m : BitVec 48) : List Byte := beBytes 6 m.toNat

/-- The Ethernet header up to the type: addresses, and the VLAN tag where there is one. -/
def etherHead (dst : Nat) (port : Nat) (vlan : Option Nat) (etype : Nat) : List Byte :=
  beBytes 6 dst ++ macBytes (Config.portMac port) ++ (match vlan with
    | some t => [0x81, 0x00] ++ beBytes 2 t
    | none => []) ++ beBytes 2 etype

/-- The 16-bit words of a byte list in network order; an odd last byte is padded with 0. -/
def netWords : List Byte → List Nat
  | a :: b :: l => (a.toNat * 256 + b.toNat) :: netWords l
  | [a] => [a.toNat * 256]
  | [] => []

/-- The Internet checksum: the complement of the ones' complement sum. -/
def netChecksum (bs : List Byte) : Nat :=
  let sum := (netWords bs).foldl (fun c w => (c + w) % 0x10000 + (c + w) / 0x10000) 0
  0xFFFF - sum

/-- The 4 bytes of an IPv4-mapped address. -/
def ip4 (a : List Byte) : List Byte := a.drop 12

/-- An IPv4 header without options, with DF set and TTL 64, before a UDP datagram of `n` bytes (R351). -/
def ipv4Header (src dst : List Byte) (n : Nat) : List Byte :=
  let h := fun (sum : Nat) => [0x45, Config.ipService] ++ beBytes 2 (20 + n) ++ beBytes 2 Config.ipIdent.toNat ++ [0x40, 0x00, 64, 17]
    ++ beBytes 2 sum ++ ip4 src ++ ip4 dst
  h (netChecksum (h 0))

/-- An IPv6 header with hop limit 64 before a UDP datagram of `n` bytes. -/
def ipv6Header (src dst : List Byte) (n : Nat) : List Byte :=
  beBytes 4 (6 * 2 ^ 28 + Config.ipService.toNat * 2 ^ 20 + Config.ipFlow.toNat) ++ beBytes 2 n ++ [17, 64] ++ src ++ dst

/-- A UDP header; its checksum is 0 over IPv4 and computed over IPv6 (R351). -/
def udpHeader (ip : Nat) (src dst : List Byte) (sport dport : Nat) (body : List Byte) : List Byte :=
  let n := 8 + body.length
  let h := fun (sum : Nat) => beBytes 2 sport ++ beBytes 2 dport ++ beBytes 2 n ++ beBytes 2 sum
  if ip = 4 then h 0
  else
    let sum := netChecksum (src ++ dst ++ beBytes 4 n ++ [0, 0, 0, 17] ++ h 0 ++ body)
    h (if sum = 0 then 0xFFFF else sum)

/-- Everything before the body of a frame: plain Ethernet of a type, or Ethernet, IP and UDP. -/
def frameHead (dst port : Nat) (vlan : Option Nat) (etype ip : Nat) (local_ peer : List Byte) (sport dport : Nat) (body : List Byte) : List Byte :=
  let udp := udpHeader ip local_ peer sport dport body
  if ip = 4 then etherHead dst port vlan 0x0800 ++ ipv4Header local_ peer (8 + body.length) ++ udp
  else if ip = 6 then etherHead dst port vlan 0x86DD ++ ipv6Header local_ peer (8 + body.length) ++ udp
  else etherHead dst port vlan etype

/-- The transport header, 40 B (R352). -/
def headerBytes (h : FabricHeader) : List Byte :=
  leBytes 1 h.kind ++ leBytes 1 h.flags ++ leBytes 2 h.job ++ leBytes 2 h.stream ++ leBytes 1 h.src ++ leBytes 1 h.final ++ leBytes 8 h.tick
    ++ leBytes 2 h.ord ++ leBytes 2 h.len ++ leBytes 4 h.seq ++ leBytes 4 h.version ++ leBytes 4 h.slotLength ++ leBytes 8 h.reserved

/-- The 16 bytes of an address field of a stream. -/
def Stream.ip (e : Stream) (f : Fld) : List Byte := leBytes 16 (f.get e)
/-- The tag of a stream's frames. -/
def Stream.tag (e : Stream) : Option Nat := if Sm.vlanEn.get e = 1 then some (Sm.vlanTci.get e) else none
/-- The IP version that ENCAP selects; 0 for plain Ethernet. -/
def Stream.ipVersion (e : Stream) : Nat := if Sm.encap.get e = 0 then 0 else if Sm.encap.get e = 2 then 4 else 6

/-- What stands before the transport header of a frame of a stream on a port (R351, R544). -/
def State.streamHead (s : State) (port : Nat) (e : Stream) (h : FabricHeader) (payload : List Byte) : List Byte :=
  frameHead (Sm.peerMac.get e) port (Stream.tag e) (s.rg Obj.FABRIC_ETHERTYPE) (Stream.ipVersion e) (Stream.ip e Sm.localIp) (Stream.ip e Sm.peerIp)
    (Sm.udpSrc.get e) (s.rg Obj.FABRIC_UDP_PORT) (headerBytes h ++ payload)

/-- What stands before the transport header of a relayed frame: as it arrived, with the addresses of the relay's stream (R363). -/
def State.relayHead (s : State) (port : Nat) (e : Stream) (x : FrameInfo) (h : FabricHeader) (payload : List Byte) : List Byte :=
  frameHead (Sm.peerMac.get e) port x.vlan (s.rg Obj.FABRIC_ETHERTYPE) x.ip (Stream.ip e Sm.localIp) (Stream.ip e Sm.peerIp) x.udpSrc
    (x.udp.getD 0) (headerBytes h ++ payload)

/-- The Ethernet header of a tick-status frame: to SETTLE_GROUP + p (R370). -/
def State.statusHead (s : State) (p port : Nat) : List Byte := etherHead (s.rg Obj.SETTLE_GROUP + p) port none (s.rg Obj.FABRIC_ETHERTYPE)

/-- The 46 B payload of a HELLO (0x13) or SLEEP (0x14) frame of a port (R369). -/
def helloPayload (kind caps size position port sleepNs : Nat) : List Byte :=
  leBytes 1 kind ++ leBytes 1 caps ++ leBytes 1 size ++ leBytes 1 position ++ leBytes 1 port ++ [0] ++ macBytes (Config.portMac 0)
    ++ leBytes 4 sleepNs ++ List.replicate 30 0

/-! ## Steering (R347 to R349) -/

namespace Fi
def enable : Fld := fm 0x00 7 7
def rsv0 : Fld := fm 0x00 6 3
def queue : Fld := fm 0x00 2 0
def rsv1 : Fld := fb 0x01 1
def portMask : Fld := fb 0x02 2
def matchVlan : Fld := fm 0x04 15 15
def untagged : Fld := fm 0x04 14 14
def vlanRsv : Fld := fm 0x04 13 12
def vlanId : Fld := fm 0x04 11 0
def etype : Fld := fb 0x06 2
def ip : Fld := fb 0x08 1
def rsv2 : Fld := fb 0x09 1
def udp : Fld := fb 0x0A 2
def rsv3 : Fld := fb 0x0C 4
end Fi

/-- A filter entry as it stands on first power-up. -/
def filterDefault (i : Nat) : BitVec 128 :=
  let on := fun (q : Nat) => Fi.portMask.set (Fi.queue.set (Fi.enable.set (0 : BitVec 128) 1) q) 0xFFFF
  if i = 0 then Fi.etype.set (on 0) 0x88B5 else if i = 1 then Fi.udp.set (on 0) 48622 else if i = 2 then Fi.udp.set (on 1) 48620 else 0

def State.filterE (s : State) (q i : Nat) : BitVec 128 := (SMap.get? s.filters (256 * q + i)).getD (filterDefault i)

/-- Whether a filter entry takes a frame on a port. -/
def filterMatches (e : BitVec 128) (port : Nat) (x : FrameInfo) : Bool :=
  Fi.enable.get e == 1 && (Fi.portMask.get e).testBit (port % 16)
    && (Fi.matchVlan.get e == 0 || (match x.vlan with
      | some t => t % 4096 == Fi.vlanId.get e
      | none => false))
    && (Fi.untagged.get e == 0 || x.vlan.isNone)
    && (Fi.etype.get e == 0 || Fi.etype.get e == x.etype)
    && (Fi.ip.get e == 0 || Fi.ip.get e == x.ip)
    && (Fi.udp.get e == 0 || (x.ip != 0 && x.udp == some (Fi.udp.get e)))

/-- One byte of the CRC-32 of IEEE 802.3, least significant bit first. -/
def crcByte (c : Nat) (b : Byte) : Nat :=
  (List.range 8).foldl (fun v _ => if v % 2 = 1 then (v / 2) ^^^ 0xEDB88320 else v / 2) (c ^^^ b.toNat)
/-- The CRC-32 of IEEE 802.3 of a byte list. -/
def crc32 (bs : List Byte) : Nat := (bs.foldl crcByte 0xFFFFFFFF) ^^^ 0xFFFFFFFF

/-- Group-addressed: the lowest bit of the first address byte. -/
def groupAddress (dst : List Byte) : Bool := ((dst.headD 0).toNat) % 2 == 1

/-- The queue of a received frame, 7 for DROP; none for MAC control frames, which the MAC consumes. -/
def State.steer (s : State) (port : Nat) (x : FrameInfo) : Option Nat :=
  let ft := s.rg Obj.FABRIC_ETHERTYPE
  let q := port / 16
  if x.etype = 0x8808 then none
  else if x.etype = 0x88CC && x.dst = [0x01, 0x80, 0xC2, 0x00, 0x00, 0x0E] then some 3
  else if x.etype = 0x88F7 then some 2
  else if x.etype = ft && (x.first = 0x01 || x.first = 0x02 || x.first = 0x82) then some 0
  else if x.etype = ft && (x.first = 0x13 || x.first = 0x14) then some 3
  else if port ≥ 64 then some (if x.udp = some 4791 then 5 else if x.udp = some 48620 then 1 else 7)
  else
    let own := x.dst = macBytes (Config.portMac port)
    if s.rg (Obj.FILTER_MODE port) = 0 then
      if !own then some 7
      else match (List.range 256).find? (fun i => filterMatches (s.filterE q i) port x) with
        | some i => some (Fi.queue.get (s.filterE q i))
        | none => some 7
    else if groupAddress x.dst then
      let i := crc32 x.dst % 4096
      some (if ((s.dom (Obj.GROUP_HASH q)).getD (i / 8) 0).toNat.testBit (i % 8) then 4 else 7)
    else if !own then some 7
    else if x.etype = ft || (x.ip ≠ 0 && x.udp = some (s.rg Obj.FABRIC_UDP_PORT)) then some 0
    else if x.udp = some 48620 && s.rg (Obj.JENJO_EN port) = 1 then some 1
    else some 7

/-- The kinds of fabric frames (R353). -/
def fabricKind (k : Nat) : Bool := [0x01, 0x02, 0x82, 0x10, 0x11, 0x12, 0x13, 0x14].contains k

/-- The largest frame of a port (R338). -/
def State.maxFrame (s : State) (port : Nat) : Nat := s.rg (if port < 64 then Obj.MAX_FRAME port else Obj.HOST_MAX_FRAME)

/-- Whether a frame of FABRIC_ETHERTYPE is of no kind that R353 names. -/
def State.oddKind (s : State) (x : FrameInfo) : Bool := x.etype == s.rg Obj.FABRIC_ETHERTYPE && !fabricKind x.first

end Sys2Proof.Machine
end

