-- ==== Sys2Proof/Machine/Fabric.lean ====
section
/-!
DEFINITION. The fabric transport (10_fabric_and_ethernet.md R351 to R363; 12_resilience.md R423): how the frames of transmit slots
leave, how frames are accepted, acknowledged and relayed, and how a stream changes its port. The commands stand in Ports.lean and
Transport.lean.
-/

namespace Sys2Proof.Machine
open Sys2Proof

/-! ## Frames of a slot (R351, R354) -/

/-- Bytes on the wire of a frame of a stream with a payload: headers by ENCAP, FCS, padding to 64 B, tag, preamble and gap. -/
def Stream.wireBytes (e : Stream) (payload : Nat) : Nat :=
  let hdr := if Sm.encap.get e = 0 then 54 else if Sm.encap.get e = 2 then 82 else 102
  Nat.max (hdr + payload + 4) 64 + 4 * Sm.vlanEn.get e + 20

/-- The number of frames of a slot, and the payload of frame `i`. -/
def Stream.frames (e : Stream) (length : Nat) : Nat := Nat.max 1 (ceilDiv length (Sm.framePayload.get e))
def Stream.payloadOf (e : Stream) (length i : Nat) : Nat :=
  if i + 1 < Stream.frames e length then Sm.framePayload.get e else length - (Stream.frames e length - 1) * Sm.framePayload.get e

/-- The priority of a stream's frames: the PCP of its tag, 0 untagged (R340). -/
def Stream.priority (e : Stream) : Nat := if Sm.vlanEn.get e = 1 then Sm.vlanTci.get e / 2 ^ 13 else 0

/-- FLAGS bits of the transport header. -/
abbrev fgLast : Nat := 0
abbrev fgRetx : Nat := 1
abbrev fgRelay : Nat := 2
abbrev fgRelayed : Nat := 3
abbrev fgNak : Nat := 4
/-- KIND values. -/
abbrev kdData : Nat := 0x10
abbrev kdNull : Nat := 0x11
abbrev kdAck : Nat := 0x12

/-- The job module index of this module in a job of a partition: JOB_MODULE of its entry, or SELF_MODULE. -/
def State.selfModule (s : State) (p job : Nat) : Nat :=
  match (s.pt p).jobs.find? (fun kv => Job.job.get kv.2 == job
      && (Job.state.get kv.2 == jsAccepted || Job.state.get kv.2 == jsTicking || Job.state.get kv.2 == jsStopped)) with
  | some kv => Job.jobModule.get kv.2
  | none => s.rg (Obj.SELF_MODULE p)

/-! ## Sending (R343, R354, R357) -/

/-- A transmit slot that has a frame to send: its number, START_NS, its stream, and the port that the stream uses. -/
structure TxReady where
  n : Nat
  start : Nat
  stream : Nat
  port : Nat
  relay : Bool
  deriving DecidableEq, Repr

/-- Whether a slot of the slice has started and still has something to send. -/
def State.txReady (s : State) (p b k : Nat) (r : SliceRun) (n : Nat) : Option TxReady :=
  let e := s.slotEntry b k n
  let i := Ps.stream.get e
  let st := s.streamE i
  let io := r.slotIO n
  let x := r.slot n
  let total := if x.aux = 1 then 1 else Stream.frames st (Ps.length.get e)
  if Ps.direction.get e = dirTx && x.state == .running && Sm.enable.get st = 1 && Sm.partition.get st = p && io.sent < total
      && io.sent - io.acked < 128 then
    match Stream.current st with
    | some (q, rl) => if s.portUp q then some ⟨n, Ps.startNs.get e, i, q, rl⟩ else none
    | none => none
  else none

/-- The start of the next frame of a slot, not before START_NS: once the transmitter of its port lets it start. -/
def State.frameStart (s : State) (p : Nat) (x : TxReady) (lo : Nat) : Nat :=
  Nat.max (Nat.max lo (100 * ((s.pt p).edgeNs + x.start))) (s.txGate x.port (Stream.priority (s.streamE x.stream)))

/-- Whether a frame of a slot may start at an instant: not after START_NS + DURATION_NS, and before the closing guard (R357). -/
def State.frameAllowed (s : State) (p b k : Nat) (x : TxReady) (t : Nat) : Bool :=
  let e := s.slotEntry b k x.n
  t ≤ 100 * ((s.pt p).edgeNs + x.start + Ps.durationNs.get e) && t < 100 * ((s.pt p).edgeNs + (s.pt p).guardPos)

/-- The mirror traffic that waits for the CONTROL stream leaves with its frames (R254, R423, log 95). -/
def State.sendMirrors (s : State) (p : Nat) : State :=
  ((s.pt p).mirrorOut.foldl (fun (t : State) x => t.emit (.mirror p x)) s).modPt p (fun x => { x with mirrorOut := [] })

/-- One frame of a transmit slot leaves at an instant. -/
def State.sendFrame (s : State) (p b k : Nat) (r : SliceRun) (x : TxReady) (t : Nat) : State :=
  let e := s.slotEntry b k x.n
  let st := s.streamE x.stream
  let io := r.slotIO x.n
  let run := r.slot x.n
  let null := run.aux == 1
  let total := if null then 1 else Stream.frames st (Ps.length.get e)
  let len := if null then 0 else Stream.payloadOf st (Ps.length.get e) io.sent
  let again := io.sent < io.got
  let fl := (if io.sent + 1 = total then 1 else 0) + (if again then 2 else 0) + (if x.relay then 4 else 0)
  let h : FabricHeader := ⟨if null then kdNull else kdData, fl, Sm.job.get st, Sm.peerStream.get st, Job.jobModule.get ((s.pt p).job r.job),
    Sm.peerModule.get st, (s.pt p).gen.tick, s.slotOrd b k x.n, len, io.sent, versionAt run.version run.runs (io.sent * Sm.framePayload.get st), Ps.length.get e, 0⟩
  let data := ((run.data.drop (io.sent * Sm.framePayload.get st)).take len).map (·.1)
  let s := (s.emit (.frame x.port (s.streamHead x.port st h data) h data)).txStart x.port (Stream.wireBytes st len) t
  let s := if Sm.class_.get st = classControl && !null && !again then s.sendMirrors p else s
  let s := s.incStream x.stream Sm.txFrames 1
  let s := if null then s.incStream x.stream Sm.nullFrames 1 else s
  let s := if again then ((s.incRg (Obj.RETX_FRAMES x.port) 1).incStream x.stream Sm.retxFrames 1).count p 5 x.port (wEvent 2) 1 else s
  s.modPt p (·.modSlice (fun r => r.setSlotIO x.n { io with sent := io.sent + 1, last := t, got := Nat.max io.got (io.sent + 1) }))

/-- The one of two candidates that comes first: the earlier, and of two at one instant the one with the lower rank. -/
def firstOf {α : Type} (m : Option (Nat × Nat × α)) (x : Nat × Nat × α) : Option (Nat × Nat × α) :=
  match m with
  | none => some x
  | some y => if x.1 < y.1 || (x.1 == y.1 && x.2.1 < y.2.1) then some x else some y

/-- The slot frame that a port would start next: its instant, its START_NS and its slot; the earlier START_NS goes first (R343). -/
def State.nextSlotFrame (s : State) (port lo : Nat) : Option (Nat × Nat × TxReady) :=
  match s.ownerOfPort port with
  | none => none
  | some p => match s.running p with
    | none => none
    | some (b, k, r) => (((List.range (s.slotCount b k)).filterMap (s.txReady p b k r)).filter (fun x => x.port == port
        && s.frameAllowed p b k x (s.frameStart p x lo))).foldl (fun m x => firstOf m (s.frameStart p x lo, x.start, x)) none

/-- The waiting frame that a port would start next: its instant, its class and its place among those that wait (R343). -/
def State.nextWaiting (s : State) (port lo : Nat) : Option (Nat × Nat × Nat × TxItem) :=
  let q := SMap.getD [] s.txq port
  ((List.range q.length).zip q).foldl (fun m x =>
    firstOf m (Nat.max (Nat.max lo x.2.ready) (s.txGate port x.2.prio), x.2.cls, x)) none

/-- A waiting frame starts. -/
def State.sendWaiting (s : State) (port t i : Nat) (w : TxItem) : State :=
  let q := SMap.getD [] s.txq port
  let s := { s with txq := if q.length ≤ 1 then SMap.del s.txq port else SMap.ins s.txq port (q.eraseIdx i) }
  (s.emit w.sent).txStart port w.wire t

/-- A slot frame starts. -/
def State.sendSlot (s : State) (port t : Nat) (x : TxReady) : State :=
  match s.ownerOfPort port with
  | none => s
  | some p => match s.running p with
    | none => s
    | some (b, k, r) => s.sendFrame p b k r x t

/-- Frames sent on one port one after another, each as soon as it may start, until `hi`: at each frame boundary the first ready one in
the order of R343, in which slot frames are class 4. `n` bounds their number. -/
def State.pumpPort (port lo hi : Nat) : Nat → State → State
  | 0, s => s
  | n + 1, s =>
    if !s.txAwake port then s
    else match s.nextWaiting port lo, s.nextSlotFrame port lo with
    | none, none => s
    | some w, none => if w.1 ≤ hi then State.pumpPort port lo hi n (s.sendWaiting port w.1 w.2.2.1 w.2.2.2) else s
    | none, some x => if x.1 ≤ hi then State.pumpPort port lo hi n (s.sendSlot port x.1 x.2.2) else s
    | some w, some x =>
      if x.1 < w.1 || (x.1 == w.1 && 4 < w.2.1) then
        if x.1 ≤ hi then State.pumpPort port lo hi n (s.sendSlot port x.1 x.2.2) else s
      else if w.1 ≤ hi then State.pumpPort port lo hi n (s.sendWaiting port w.1 w.2.2.1 w.2.2.2) else s

/-- The frames of a port that start up to the present instant, from `lo` (in hundredths of a ns) on: those that wait, and at most 128
of each of its partition's transmit slots before one is acknowledged. -/
def State.pumpOne (s : State) (port lo : Nat) : State :=
  let slots := match s.ownerOfPort port with
    | some p => match s.running p with
      | some (b, k, _) => s.slotCount b k
      | none => 0
    | none => 0
  State.pumpPort port lo (100 * s.now) (128 * slots + (SMap.getD [] s.txq port).length) s

/-- The same for every port of a partition that has something to send. -/
def State.pump (s : State) (p lo : Nat) : State :=
  let slots := match s.running p with
    | some (b, k, r) => ((List.range (s.slotCount b k)).filterMap (s.txReady p b k r)).map (·.port)
    | none => []
  let waits := (s.txq.map (·.1)).filter (fun q => s.ownerOfPort q == some p)
  (slots ++ waits).eraseDups.foldl (fun t q => t.pumpOne q lo) s

/-- An event at an instant: what its partition and the host port have sent until then has left. -/
def State.advanceTo (s : State) (p t : Nat) : State := ((s.at t).pumpOne hostPort 0).pump p 0

/-- After an event: what may start at this very instant starts. -/
def State.resumeSending (s : State) (p : Nat) : State := s.pump p (100 * s.now)

/-- The time as an event of a port sees it: what the port, and its partition, have sent until then has left. -/
def State.portTime (s : State) (port at_ : Nat) : State :=
  match s.ownerOfPort port with
  | some p => s.advanceTo p at_
  | none => (s.at at_).pumpOne port 0

/-- After an event of a port: what may start at this very instant starts. -/
def State.resumePort (s : State) (port : Nat) : State :=
  match s.ownerOfPort port with
  | some p => s.resumeSending p
  | none => s.pumpOne port (100 * s.now)

/-- A frame of a class and priority is ready for a port: it starts at once, or waits (R343). -/
def State.send (s : State) (port cls prio wire : Nat) (x : Sent) : State := (s.queueTx port cls prio wire x).pumpOne port (100 * s.now)

/-- A tick-status frame sent on every settlement port, to the partition's group address (R57, R370). -/
def State.sendStatus (s : State) (p job : Nat) (f : StatusFrame) : State :=
  (s.settlePorts p job).foldl (fun t q => t.send q 1 0 smallWire (.status q (t.statusHead p q) f)) s

/-! ## Failover (R361) -/

/-- The port that a stream moves to when its current one is down: the first valid alternate that is up, else its primary where
that is up, else none. -/
def State.failoverTo (s : State) (e : Stream) : Nat :=
  match ((Stream.ports e).filter (fun k => k.1 != 0)).find? (fun k => s.portUp k.2.1) with
  | some k => k.1
  | none => s.chooseActive e

/-- The unfinished transmit slots of a stream go back to their oldest unacknowledged frame. -/
def State.rewindStream (s : State) (p i : Nat) : State :=
  match s.running p with
  | none => s
  | some (b, k, _) => s.modPt p (·.modSlice (fun r => { r with io := r.io.map (fun kv =>
      let e := s.slotEntry b k kv.1
      if Ps.direction.get e = dirTx && Ps.stream.get e = i then (kv.1, { kv.2 with sent := kv.2.acked }) else kv) }))

/-- A stream moves to another of its ports; each move counts. -/
def State.moveStream (s : State) (i active : Nat) : State :=
  let e := s.streamE i
  let s := s.setStreamFld i Sm.active active
  let s := if active = 0xFF then s else s.incStream i Sm.failovers 1
  s.rewindStream (Sm.partition.get e) i

/-- Streams whose current port has gone down move. -/
def State.failover (s : State) (port : Nat) : State :=
  (s.streams.filter (fun kv => Sm.enable.get kv.2 == 1 && (match Stream.current kv.2 with
    | some c => c.1 == port
    | none => false))).foldl (fun t kv => t.moveStream kv.1 (t.failoverTo (t.streamE kv.1))) s

/-- Streams without a port move to one that has come up. -/
def State.rejoin (s : State) : State :=
  (s.streams.filter (fun kv => Sm.enable.get kv.2 == 1 && Sm.active.get kv.2 == 0xFF)).foldl (fun t kv =>
    let a := t.failoverTo (t.streamE kv.1)
    if a = 0xFF then t else t.moveStream kv.1 a) s

/-! ## Acceptance (R355, R356) -/

/-- A frame received without error. -/
def State.received (s : State) (port : Nat) : State :=
  let s := s.incRg (Obj.RX_FRAMES port) 1
  match s.ownerOfPort port with
  | some p => s.count p 5 port (wEvent 1) 1
  | none => s

/-- A frame discarded, for whatever cause. -/
def State.discarded (s : State) (port : Nat) : State :=
  match s.ownerOfPort port with
  | some p => s.count p 5 port (wEvent 3) 1
  | none => s

/-- A transport frame discarded under R355: as stale or as unexpected, and for its stream where that exists. -/
def State.dropFrame (s : State) (port : Nat) (h : FabricHeader) (stale : Bool) : State :=
  let s := s.discarded port
  let s := if stale then
      let s := s.incRg (Obj.STALE_FRAMES port) 1
      match s.ownerOfPort port with
      | some p => s.incRg (Obj.STALE_FRAMES_6100 p) 1
      | none => s
    else s.incRg (Obj.UNEXPECTED_FRAMES port) 1
  if Sm.enable.get (s.streamE h.stream) = 1 then s.incStream h.stream Sm.dropped 1 else s

/-- The queue in which steering ends a frame: queue 7, or queue 1 of a port without JENJO_EN; none where a queue takes it. -/
def State.steersAway (s : State) (port : Nat) (x : FrameInfo) : Option Nat :=
  let q := (s.steer port x).getD 8
  if q = 7 || (q == 1 && port < 64 && s.rg (Obj.JENJO_EN port) == 0) then some q else none

/-- What the MAC, the steering and the receive queue make of a frame (R338, R342, R347 to R349, R353): the second part says that the
transport takes it from queue 0. -/
def State.arrive (s : State) (port at_ : Nat) (x : FrameInfo) (fate : FrameFate) : State × Bool :=
  let s := s.portTime port at_
  let q := (s.steer port x).getD 8
  if s.maxFrame port < x.bytes then ((s.incRg (Obj.RX_OVERSIZE port) 1).discarded port, false)
  else match fate with
  | .badFcs => ((s.incRg (Obj.RX_FCS_ERRORS port) 1).discarded port, false)
  | .noRoom => (((s.received port).incRg (Obj.RX_DROP port (Nat.min q 7)) 1).discarded port, false)
  | .intact =>
    let s := s.received port
    let away := s.steersAway port x
    if s.oddKind x || away.isSome then
      let s := match away with
        | some q => s.incRg (Obj.RX_DROP port q) 1
        | none => s
      ((if s.oddKind x then s.incRg (Obj.UNEXPECTED_FRAMES port) 1 else s).discarded port, false)
    else (s, q == 0)

/-- Whether JOB and DEST_STREAM of a frame name a stream that may take it on a port (R355). -/
def State.streamTakes (s : State) (p port : Nat) (h : FabricHeader) : Bool :=
  let e := s.streamE h.stream
  Sm.enable.get e == 1 && Sm.partition.get e == p && Sm.job.get e == h.job
    && (Sm.peerModule.get e == h.src || (h.flags.testBit fgRelayed && Sm.peerModule.get e == h.final))
    && (s.pt p).streamPins.any (fun kv => kv.1 % 4 == quarterOfPort port && kv.2.contains h.stream)

/-- An ACK or NAK for a frame, on the port on which it arrived; one that arrived relayed is answered through the relay (R363). -/
def State.sendAck (s : State) (p port : Nat) (h : FabricHeader) (expect : Nat) (nak : Bool) : State :=
  if !s.portUp port then s
  else
    let st := s.streamE h.stream
    let back := h.flags.testBit fgRelayed
    let a : FabricHeader := ⟨kdAck, (if nak then 16 else 0) + (if back then 4 else 0), h.job, Sm.peerStream.get st, s.selfModule p h.job,
      if back then h.src else Sm.peerModule.get st, h.tick, h.ord, 0, expect, noVersion, h.slotLength, 0⟩
    let s := s.send port 2 (Stream.priority st) (Stream.wireBytes st 0) (.frame port (s.streamHead port st a []) a [])
    if nak then s.incStream h.stream Sm.naks 1 else s


/-! ### Mirror traffic at the holder (R421, R423, R424) -/

/-- The local mirror entry of a sender's entry under "$mirror.held" of the Block of a job. -/
def State.mirrorEntry (s : State) (p j i : Nat) : Option Nat :=
  match s.symbol (s.blockOf p j) "$mirror.held" with
  | some x => ((List.range (Rs.rows.get (s.resE x))).find? (fun n => s.word32 x (4 * n) == i)).map (fun n => s.word32 x (4 * n + 1))
  | none => none

/-- HELD_UPDATE_STARTED (R424): the module whose mirrors are held is lost, and a record of it has the step in progress. -/
def State.judgeHeld (s : State) (p : Nat) : State :=
  let m := s.rg (Obj.MIRROR_OF p)
  if m < 64 && (s.rg (Obj.LOST_MODULES p)).testBit m && (s.pt p).mirrorSweeps.any (fun kv => kv.2.step == (s.pt p).step && kv.2.w != 0)
  then s.setRg (Obj.HELD_UPDATE_STARTED p) 1 else s

/-- One item of mirror traffic: a sweep header starts or renews its record (W marks it as present), a write group is written in
place and advances PROGRESS_M over contiguous blocks. -/
def State.applyMirror (s : State) (ag : Agent) (er : AccessErrors) (j : Nat) (x : MirrorItem) : State :=
  let p := ag.part
  match x with
  | .header u slot state step progress =>
    let r := { Sweep.closed with state := state, step := step, progress := progress, w := 1 }
    (s.modPt p (fun t => { t with mirrorSweeps := SMap.ins t.mirrorSweeps (64 * u + slot) r })).judgeHeld p
  | .group u slot block ws =>
    let s := ws.foldl (fun t w =>
      match t.mirrorEntry p j w.1 with
      | some i => (t.storeFor ag er (ResEntry.slotAddr (t.resE i) (Rs.cur.get (t.resE i)) + w.2.1) (goodBytes w.2.2)).tear p i (Rs.cur.get (t.resE i))
      | none => t.late p ag.bit) s
    s.modPt p (fun t => { t with mirrorSweeps := t.mirrorSweeps.map (fun kv =>
      if kv.1 = 64 * u + slot && kv.2.progress = block then (kv.1, { kv.2 with progress := block + 1 }) else kv) })

/-! ### A receive-expected slot -/

/-- The not-taken record of R359. -/
def notTakenRecord (tick ord : Nat) : List Byte := leBytes 8 0x11 ++ leBytes 8 tick ++ leBytes 2 ord ++ List.replicate 46 0

/-- A receive-expected slot meets its first frame: its own ALT decides whether it writes (R359); an undecided branch point makes
the cluster late (R40). AUX 1 stands for a slot that writes nothing. -/
def State.openSlot (s : State) (p : Nat) (e : BitVec 256) (x : ItemRun) : State × ItemRun :=
  if x.state != .waiting then (s, x)
  else
    let pos := s.now - (s.pt p).edgeNs
    match s.altRead p (Ps.alt.get e) (Ps.startNs.get e) with
    | .taken => (s, { x with state := .running, start := pos, aux := 0 })
    | .notTaken => (s, { x with state := .running, start := pos, aux := 1 })
    | .undecided c => ((s.countC c 1 c (wEvent 3) 1).lateC c, { x with state := .running, start := pos, aux := 1 })

/-- A frame that passed R355 reaches its slot `n` (R356). -/
def State.slotFrame (s : State) (p port b k n : Nat) (h : FabricHeader) (data : List Byte) (mirror : List MirrorItem) (er : AccessErrors) : State :=
  match (s.pt p).slice with
  | none => s
  | some r =>
    let e := s.slotEntry b k n
    let st := s.streamE h.stream
    let (s, x) := s.openSlot p e (r.slot n)
    let io := r.slotIO n
    let put := fun (t : State) (x : ItemRun) (io : SlotIO) => t.modPt p (·.modSlice (fun r => (r.setSlot n x).setSlotIO n io))
    if h.seq > io.expect then
      let s := (s.discarded port).incStream h.stream Sm.dropped 1
      if io.nak = io.expect + 1 then put s x io else put (s.sendAck p port h io.expect true) x { io with nak := io.expect + 1 }
    else if h.seq < io.expect then
      put (((s.discarded port).incStream h.stream Sm.dropped 1).sendAck p port h io.expect false) x io
    else
      let pos := Nat.max 600 (s.now - (s.pt p).edgeNs)
      let ag : Agent := ⟨p, pos, lateNetwork (s.slotQuarter p e), none⟩
      let null := h.kind == kdNull
      let s := s.incStream h.stream Sm.rxFrames 1
      let s := if null then s.incStream h.stream Sm.nullFrames 1 else s
      let ep := endpointOf (Ps.buffer.get e)
      let (s, bad) := s.pathErrors ag er
      let put8 := fun (bs : List Byte) => bs.map (fun b => (b, bad))
      let s := if x.aux = 1 then s
        else if null then s.writeEnd ag er ep (put8 (notTakenRecord h.tick h.ord)) h.version
        else s.writeEnd ag er (Endpoint.plus ep io.got) (put8 data) h.version
      let s := if x.aux = 0 && Sm.class_.get st = classControl then mirror.foldl (fun t m => t.applyMirror ag er r.job m) s else s
      let last := h.flags.testBit fgLast
      let io := { io with expect := io.expect + 1, got := io.got + data.length }
      let x := if last then { x with state := .finished, finish := pos } else x
      let s := put s x io
      if last || io.expect % 16 = 0 then s.sendAck p port h io.expect false else s

/-- Whether a received DATA or NULL frame fits its receive-expected slot (R355). -/
def State.frameFits (s : State) (b k n : Nat) (h : FabricHeader) (data : List Byte) : Bool :=
  let e := s.slotEntry b k n
  let st := s.streamE h.stream
  let len := Ps.length.get e
  h.slotLength == len && data.length == h.len
    && (if h.kind = kdNull then h.len == 0 && h.seq == 0 && h.flags.testBit fgLast
        else if h.flags.testBit fgLast then h.len == len - (Stream.frames st len - 1) * Sm.framePayload.get st
        else h.len == Sm.framePayload.get st)

/-- A DATA or NULL frame for this module. -/
def State.takeFrame (s : State) (p port : Nat) (h : FabricHeader) (data : List Byte) (mirror : List MirrorItem) (er : AccessErrors) : State :=
  if h.tick ≠ (s.pt p).gen.tick then s.dropFrame port h true
  else if !s.streamTakes p port h then s.dropFrame port h false
  else match s.running p with
    | none => s.dropFrame port h false
    | some (b, k, _) =>
      match s.slotByOrd b k dirRx h.stream h.ord with
      | none => s.dropFrame port h false
      | some n => if s.frameFits b k n h data then s.slotFrame p port b k n h data mirror er else s.dropFrame port h false

/-! ### Acknowledgements at the sender (R357) -/

/-- An ACK or NAK for this module: frames below SEQ are acknowledged; a NAK rewinds the slot to SEQ. -/
def State.takeAck (s : State) (p port : Nat) (h : FabricHeader) (nak : Bool) : State :=
  if h.tick ≠ (s.pt p).gen.tick then s.dropFrame port h true
  else if !s.streamTakes p port h then s.dropFrame port h false
  else match s.running p with
    | none => s.dropFrame port h false
    | some (b, k, r) =>
      match s.slotByOrd b k dirTx h.stream h.ord with
      | none => s.dropFrame port h false
      | some n =>
        let e := s.slotEntry b k n
        let x := r.slot n
        let io := r.slotIO n
        let total := if x.aux = 1 then 1 else Stream.frames (s.streamE h.stream) (Ps.length.get e)
        let seq := Nat.min h.seq io.got
        if h.slotLength ≠ Ps.length.get e || x.state == .waiting then s.dropFrame port h false
        else
          let acked := Nat.max io.acked seq
          let sent := if nak && io.acked ≤ h.seq then seq else Nat.max io.sent acked
          let io := { io with acked := acked, sent := sent, nak := if acked > io.acked then s.now else io.nak }
          let x := if acked ≥ total then { x with state := .finished, finish := s.now - (s.pt p).edgeNs } else x
          (s.modPt p (·.modSlice (fun r => (r.setSlot n x).setSlotIO n io))).resumeSending p

/-! ## Relay (R363) -/

/-- Bytes of frames that a port may hold for relay. -/
abbrev relayBytes : Nat := 256 * 1024

/-- The bytes of a frame on a stream, from destination address to FCS. -/
def Stream.frameBytes (e : Stream) (payload : Nat) : Nat := Stream.wireBytes e payload - 20

/-- The stream on which a frame for another module goes on: the lowest-indexed pinned stream of its job in the arrival quarter
whose peer is the final module. -/
def State.relayStream (s : State) (p port : Nat) (h : FabricHeader) : Option Nat :=
  (s.streams.find? (fun kv => Sm.enable.get kv.2 == 1 && Sm.partition.get kv.2 == p && Sm.job.get kv.2 == h.job
    && Sm.peerModule.get kv.2 == h.final
    && (s.pt p).streamPins.any (fun x => x.1 % 4 == quarterOfPort port && x.2.contains kv.1))).map (·.1)

/-- A frame with RELAY set for another module: it waits on the port of its stream, or is discarded whole. -/
def State.relayIn (s : State) (p port : Nat) (x : FrameInfo) (h : FabricHeader) (data : List Byte) : State :=
  let drop := (s.incRg (Obj.RELAY_DROPS port) 1).discarded port
  if h.flags.testBit fgRelayed then drop
  else match s.relayStream p port h with
    | none => drop
    | some i =>
      let st := s.streamE i
      match Stream.current st with
      | none => drop
      | some (q, _) =>
        let held := SMap.getD [] s.relays q
        if (held.map (fun f => f.1.bytes)).sum + x.bytes > relayBytes then drop
        else { s with relays := SMap.ins s.relays q (held ++ [(x, { h with flags := setBit h.flags fgRelayed }, data)]) }

/-- A transport frame from queue 0: of no partition, reserved bits set, stale (R56), for another module, or for this one. -/
def State.frameIn (s : State) (port : Nat) (x : FrameInfo) (h : FabricHeader) (data : List Byte) (own : State → Nat → State) : State :=
  match s.ownerOfPort port with
  | none => s.dropFrame port h false
  | some p =>
    if h.reserved ≠ 0 then s.dropFrame port h false
    else if h.tick ≠ (s.pt p).gen.tick then s.dropFrame port h true
    else if h.flags.testBit fgRelay && h.final ≠ s.selfModule p h.job then s.relayIn p port x h data
    else own s p

end Sys2Proof.Machine
end

