-- ==== Sys2Proof/Machine/Tick.lean ====
section
/-!
DEFINITION. The tick edge (02_tick_and_schedule.md R33 to R35, R48 to R57, R73, R79 to R82; 12_resilience.md R416, R418, R436;
13_management.md R471 to R474): the commands TICK_EDGE, TICK_GENERATOR_RESTART, CLOSING_GUARD and CROWN_PROGRAM_LOAD.
-/

namespace Sys2Proof.Machine
open Sys2Proof

/-! ## Judging the slice (R50) -/

/-- Clusters whose program has not ended, that are in reset, or whose tiles hold CONFLICT or POISON. -/
def State.judgeClusters (s : State) (p : Nat) : State :=
  match (s.pt p).built with
  | none => s
  | some r => (maskList 48 r.clusters).foldl (fun t c =>
      let cl := t.cl c
      if cl.crown.mode != .done || cl.resetting || cl.tiles.any (fun kv => kv.2.conflict || kv.2.poison)
      then t.lateCluster p c (t.pt p).edgeCycle else t) s

/-- Whether an item has run its course. -/
def ItemRun.over (x : ItemRun) : Bool := x.state == .finished || x.state == .notTaken

def State.judgeBursts (s : State) (p b k : Nat) (r : SliceRun) : State :=
  (List.range (s.burstCount b k)).foldl (fun t n =>
    if (r.burst n).over then t else t.late p (lateMemory (t.burstQuarter p (t.burst b k n)))) s

/-- Port slots without all their frames; one of a CONTROL stream is a settle fault (R420). -/
def State.judgeSlots (s : State) (p b k : Nat) (r : SliceRun) : State :=
  (List.range (s.slotCount b k)).foldl (fun t n =>
    if (r.slot n).over then t
    else
      let e := t.slotEntry b k n
      let t := t.late p (lateNetwork (t.slotQuarter p e))
      if Sm.class_.get (t.streamE (Ps.stream.get e)) = classControl then t.faultDue p stopControl else t) s

def State.judgeReblock (s : State) (p b k : Nat) (r : SliceRun) : State :=
  (List.range 4).foldl (fun t q => (t.planOf b q k).foldl (fun u n =>
    if (r.rb q n).over then u else u.late p (lateReblock q)) t) s

/-- A Kettle item short at the edge (R244): its blocks count, and its unit's quarter is late. -/
def State.shortItem (s : State) (p u n : Nat) : State :=
  ((s.incRg (Obj.KETTLE_SHORT_BLOCKS p) n).count p 3 u (wEvent 2) 1).late p (lateKettle (s.kettleQuarter u))

/-- Kettle items that have not finished every block assigned to them. The second part of the fold counts, by sweep slot, the
blocks that fall to items before. -/
def State.judgeKettle (s : State) (p b k : Nat) (r : SliceRun) : State :=
  ((List.range (s.kettleCount b k)).foldl (fun (t : State × SMap Nat) n =>
    let e := t.1.kettleEntry b k n
    match t.1.unitOf p (Kt.unit.get e) with
    | none => t
    | some u =>
      let x := r.kettleItem n
      let key := 64 * u + Kt.slot.get e
      let ahead := SMap.getD 0 t.2 key
      let w := (t.1.pt p).sweep u (Kt.slot.get e)
      let left := if Kt.first.get e = 1 then Kt.blocks.get e else if w.state = 1 then w.blocks - w.progress - ahead else 0
      match x.state with
      | .waiting =>
        let n := Nat.min (Kt.blocks.get e) left
        (t.1.shortItem p u n, SMap.put 0 t.2 key (ahead + n))
      | .notTaken => t
      | _ => if x.aux = 0 && x.version ≠ 1 then t else (t.1.shortItem p u x.aux, SMap.put 0 t.2 key (ahead + x.aux))) (s, [])).1

/-- The slice judged: every cause of R50 that shows at the edge. -/
def State.judge (s : State) (p : Nat) : State :=
  match s.running p with
  | none => s
  | some (b, k, r) => ((((s.judgeClusters p).judgeBursts p b k r).judgeSlots p b k r).judgeReblock p b k r).judgeKettle p b k r

/-- Whether the slice holds a CRITICAL burst or Reblock item (R324). -/
def State.sliceCritical (s : State) (b k : Nat) : Bool :=
  (List.range (s.burstCount b k)).any (fun n => Bu.critical.get (s.burst b k n) == 1)
    || (List.range 4).any (fun q => (s.planOf b q k).any (fun n => Rb.critical.get (s.planItem b q n) == 1))

/-! ## Clearing (R53) -/

/-- A crown core at an edge: it stops, and its registers and loop stack are cleared; the program store stays (R51, R74). -/
def Crown.edgeClear (cr : Crown) : Crown :=
  { Crown.empty with bankA := cr.bankA, bankB := cr.bankB, useB := cr.useB, lastRetire := cr.lastRetire }

/-- A cluster at an edge: the core's registers, accumulators, Nap registers and issue queues cleared; batt memory stays (R54). -/
def Cluster.edgeClear (cl : Cluster) : Cluster :=
  { cl with crown := cl.crown.edgeClear, tiles := [], arrays := Vector.replicate 16 ⟨[], [], 0, []⟩,
            nap := ⟨[], none, 0, [], [], [], []⟩, writes := CycleWrites.none, cap := [] }

/-- The state of a partition cleared at every edge. The slice's own record, with engines and slots, goes with the slice. -/
def State.edgeClear (s : State) (p : Nat) : State :=
  match (s.pt p).built with
  | none => s
  | some r =>
    let s := (maskList 48 r.clusters).foldl (fun t c => t.modCl c Cluster.edgeClear) s
    { s with queues := s.queues.filter (fun kv => !r.ports.testBit (kv.1 / 2)) }

/-- The Nap operations in progress in a partition abandoned at the edge (R171). -/
def State.napAbandons (s : State) (p : Nat) : State :=
  match (s.pt p).built with
  | some r => (maskList 48 r.clusters).foldl (fun t c => t.napAbandon p c) s
  | none => s

/-! ## The slice that ends -/

/-- The slice after slice `k` of a Block (R80). -/
def State.nextSlice (s : State) (b k : Nat) : Nat := if k + 1 < s.blkSliceCount b then k + 1 else s.blkLoopFirst b

/-- A settlement with no slice of its own: of no job, of a stopped one or of one suspended. -/
def Settling.plain (mode job jobId modules self tick step : Nat) : Settling :=
  ⟨mode, job, jobId, modules, self, 0, tick, 0, 0, 0, 0, 0, 0, false, 0, 0, [], false, [(self, ⟨0, 0, 0, 0⟩)], [], false, false, 0, 0, 0, 0,
   false, 0, false, false, false, [], [], 0, [], 0, 0, step⟩

/-- The settlement of a tick without a slice. -/
def State.plainSettling (s : State) (p tick : Nat) : Settling :=
  let x := s.pt p
  let of := fun (mode j : Nat) =>
    Settling.plain mode j (Job.job.get (x.job j)) (s.blkJobModules (s.blockOf p j)) (Job.jobModule.get (x.job j)) tick x.step
  match x.stopped, x.cursor with
  | some j, _ => of 2 j
  | none, some c => of 3 c.1
  | none, none => Settling.plain 0 0 0 0 0 tick x.step

/-- The entries whose acceptance lies before an edge are taken up at it (R31). -/
def State.takeUp (s : State) (p : Nat) : State :=
  { s with resAt := s.resAt.filter (fun kv => !(Rs.partition.get (s.resE kv.1) == p && kv.2 < (s.pt p).edgeNs)) }

/-- The settlement of the slice that an edge ends, once judged; its MB and BUCKETS are 0 on time (R57). -/
def State.sliceSettling (s : State) (p b k : Nat) (r : SliceRun) (crit final : Bool) : Settling :=
  let x := s.pt p
  let h := s.sliceHdr b k
  let self := Job.jobModule.get (x.job r.job)
  let late := r.late ≠ 0
  let held := if late then [] else (s.commits b k).filter (·.settle)
  { mode := 1, job := r.job, jobId := Job.job.get (x.job r.job), modules := s.blkJobModules b, self := self, slice := k,
    tick := x.gen.tick, mbBase := h.mbBase, bktBase := h.bktBase, jobMb := h.jobMb, jobBkt := h.jobBkt, localMb := h.localMb,
    localBkt := h.localBkt, stepEnd := h.stepEnd, late := r.late, cond := r.cond, held := held, final := final,
    r1 := [(self, ⟨r.late, if late then h.localMb else 0, if late then h.localBkt else 0, 0⟩)], r2 := [], sentR2 := false,
    decided := false, dropped := 0, missing := 0, lateM := 0, silent := 0, fault := x.fault ≠ 0, cause := x.fault, haltHeard := false,
    recorded := false, critical := crit, versions := r.versions, work := r.work, counted := grainCycles x.gen.len, note := x.notes,
    conv := x.conv, warm := x.warm, step := x.step }

/-- A press copy that is armed for the step that has just ended suspends the job for PRESS_TICKS ticks (R416). It goes into the
generation that does not hold the newest copy. -/
def State.pressSuspend (s : State) (p : Nat) : State :=
  let x := s.pt p
  let n := s.rg (Obj.PRESS_TICKS p)
  if s.rg (Obj.PRESS_STATE p) = 1 && s.rg (Obj.PRESS_STEP p) = x.step && s.rg (Obj.REPLAY p) = 0 && x.cursor.isSome && n > 0 then
    let newest := if (SMap.get? x.gens 0).isSome && SMap.get? x.gens 0 == some (s.rg (Obj.STAGED_STEP p)) then 0 else 1
    (s.modPt p (fun x => { x with suspend := n, pressGen := 1 - newest, pressDone := false })).setRg (Obj.PRESS_STATE p) 2
  else s

/-- A suspended tick ends; at the last one, an incomplete copy has failed (R418). What the copy overwrites is a generation no more
from the end of the first of them on: a settle fault at the settlement in it leaves both generations valid (R418). -/
def State.pressTick (s : State) (p : Nat) : State :=
  let x := s.pt p
  if x.suspend = 0 then s
  else if x.suspend > 1 then
    s.modPt p (fun x => { x with suspend := x.suspend - 1, gens := if x.pressDone then x.gens else SMap.del x.gens x.pressGen })
  else if x.pressDone then s.modPt p (fun x => { x with suspend := 0 })
  else ((((s.modPt p (fun x => { x with gens := SMap.del x.gens x.pressGen })).setRg (Obj.PRESS_STATE p) 0).incRg
    (Obj.PRESS_FAILED p) 1)).faultDue p stopPress

/-- The sweep slots, as 64 u + slot, whose LAST item stands in the work list of a slice (R249). -/
def State.lastItems (s : State) (p b k : Nat) : List Nat :=
  (List.range (s.kettleCount b k)).filterMap (fun n =>
    let e := s.kettleEntry b k n
    if Kt.last.get e = 1 then (s.unitOf p (Kt.unit.get e)).map (fun u => 64 * u + Kt.slot.get e) else none)

/-- The tick in progress ends (R51): its slice is judged, its commits are applied, held or discarded, sweeps close, and the
partition's state is cleared. The settlement of the tick stands ready. -/
def State.endTick (s : State) (p : Nat) : State :=
  let s := ((((s.pump p 0).edgeStalls p).napAbandons p).judge p).modPt p (fun x => { x with former := [], applied := [] })
  let s := (s.incRg (Obj.GAUGE_SKIPPED p) (s.pt p).gauge.length).modPt p (fun x => { x with gauge := [] })
  let s := match s.running p with
    | some (b, k, r) =>
      let h := s.sliceHdr b k
      let step := (s.pt p).step
      let s := if r.late = 0 then s.edgeCommits p h.mbBase step r.versions (s.commits b k) else s
      let s := s.closeSweeps p step (s.lastItems p b k)
      let crit := r.late ≠ 0 && s.sliceCritical b k
      let s := if crit then s.faultDue p stopCritical else s
      let n := Job.slicesRun.get ((s.pt p).job r.job) + 1
      let s := (s.setJobF p r.job Job.slicesRun n).setJobF p r.job Job.finalTick (s.pt p).gen.tick
      let final := n ≥ Job.sliceLimit.get ((s.pt p).job r.job)
      let z := s.sliceSettling p b k r crit final
      let s := s.modPt p (fun x => { x with settling := some z, slice := none, cursor := if final then none else x.cursor })
      let s := if h.stepEnd then s.pressSuspend p else s
      if h.stepEnd then s.modPt p (fun x => { x with step := x.step + 1, atUpdate := false }) else s
    | none =>
      let z := s.plainSettling p (s.pt p).gen.tick
      let s := s.pressTick p
      s.modPt p (fun x => { x with settling := some { z with fault := x.fault ≠ 0 && z.mode == 3, cause := x.fault } })
  (s.modPt p (fun x => { x with fault := 0, conv := 0, warm := 0, notes := [] })).edgeClear p

/-! ## Crown programs (R73) -/

/-- The program of logical cluster `l` of a slice as it stands in memory, word by word; words read with poison, and the words
that `bad` lists, hold bad parity. -/
def State.programWords (s : State) (b k l : Nat) (bad : List Nat) : SMap (Word × Bool) :=
  let a := s.progAddr b k l
  (List.range (2 + s.progWords a)).foldl (fun m i =>
    SMap.put (0, false) m i (BitVec.ofNat 64 (s.memLE (a + 8 * i) 8), s.memBad (a + 8 * i) 8 || bad.contains (8192 * l + i))) []

/-- The bank that a core does not use takes a program. -/
def Crown.load (cr : Crown) (ws : SMap (Word × Bool)) : Crown := if cr.useB then { cr with bankA := ws } else { cr with bankB := ws }

/-- The programs of a slice loaded into the unused banks of the partition's cores. -/
def State.loadPrograms (s : State) (p j k : Nat) (bad : List Nat) : State :=
  let b := s.blockOf p j
  let s := (List.range (s.blkPrograms b)).foldl (fun t l =>
    match t.clusterOfProgram p l with
    | some c => t.modCl c (fun cl => { cl with crown := cl.crown.load (t.programWords b k l bad) })
    | none => t) s
  s.modPt p (fun x => { x with loaded := some (j, k) })

/-- The accepted job that would start at the edge which begins tick `n`: one with that START_TICK, or the oldest that waits
without one (R471). -/
def Part.candidate (x : Part) (n : Nat) : Option Nat :=
  match x.order.find? (fun j => Job.startTick.get (x.job j) == n && n != 0) with
  | some j => some j
  | none => x.order.find? (fun j => Job.startTick.get (x.job j) == 0)

/-- The job and slice that the next tick runs as things stand: the ticking job's next slice, or, where its final slice runs or none
ticks, the first slice of the job that would start. -/
def Part.nextRun (x : Part) : Option (Nat × Nat) :=
  let first := (x.candidate (x.gen.tick + 1)).map (fun j => (j, 0))
  match x.cursor with
  | some (j, k) =>
    if x.slice.isSome && Job.slicesRun.get (x.job j) + 1 ≥ Job.sliceLimit.get (x.job j) then first else some (j, k)
  | none => if x.stopped.isSome then none else first

/-- CROWN_PROGRAM_LOAD (R73): the programs of the slice that the next tick runs are loaded, from position 10,000 ns; those of a job's
first slice before the edge at which the job starts. `bad` lists words that the store holds with bad parity, 8,192 per logical
cluster. -/
def execCrownProgramLoad (p : PartId) (bad : List Nat) (s : State) : Out :=
  let x := s.pt p
  match x.nextRun with
  | some (j, k) => takes (x.gen.on && x.loaded != some (j, k)) s (fun s =>
      let s := s.loadPrograms p j k bad
      if x.gen.begun then s.at (x.edgeNs + 10000) else s)
  | none => .next s

/-! ## The slice that starts -/

/-- TIME fails: the time unit is neither locked nor within holdover (R37, R44). -/
def State.timeBad (s : State) : Bool :=
  let t := s.rg Obj.TIME_STATE
  t = 0 || t = 1 || t = 5

/-- Conditions of the contract that fail from the start of a slice (R44): TIME, THERMAL, REFRESH or MAINT of the memory that its
items use, and LINK or MAINT of the ports that its slots use. -/
def State.startConds (s : State) (p b k : Nat) : State :=
  let s := if s.timeBad then s.fails p cfTime else s
  let s := if s.rg Obj.THROTTLE_STATE % 16 ≠ 0 then s.fails p cfThermal else s
  let s := (List.range 56).foldl (fun t m => if t.sliceUses p m then t.ctrlConds p m else t) s
  (List.range (s.slotCount b k)).foldl (fun t n =>
    match t.slotPort p (t.slotEntry b k n) with
    | some q =>
      let t := if t.portUp q then t else t.fails p cfLink
      if t.rg (Obj.LINK_STATE q) = linkAdapting then t.fails p cfMaint else t
    | none => t) s

/-- VERSION of the forward entry of every paired entry of a partition (R211). -/
def State.pairVersions (s : State) (p : Nat) : SMap Nat :=
  (s.resList.filter (fun kv => Rs.partition.get kv.2 == p && Rs.role.get kv.2 == rolePaired)).foldl
    (fun m kv => SMap.ins m (Rs.linkIndex.get kv.2) (Rs.version.get (s.resE (Rs.linkIndex.get kv.2)))) []

/-- A core starts the program just swapped in, at its first word (R73, R74). -/
def Crown.begin (cr : Crown) (t : Nat) (runs : Bool) : Crown :=
  { Crown.empty with bankA := cr.bankA, bankB := cr.bankB, useB := !cr.useB, mode := if runs then .running else .idle, lastRetire := t }

/-- Slice `k` of a job starts at the edge (R51): banks swap, cores begin, and the cursor moves on. -/
def State.startSlice (s : State) (p j k : Nat) : State :=
  let s := if (s.pt p).loaded = some (j, k) then s else s.loadPrograms p j k []
  let b := s.blockOf p j
  let t := (s.pt p).edgeNs
  let n := s.blkPrograms b
  let s := match (s.pt p).built with
    | some r => (maskList 48 r.clusters).foldl (fun (u : State) c =>
        let l := (u.programOfCluster p c).getD 48
        u.modCl c (fun cl => { cl with crown := cl.crown.begin t (l < n) })) s
    | none => s
  let vs := s.pairVersions p
  let s := s.modPt p (fun x => { x with
    slice := some ⟨j, k, 0, 0, false, false, [], [], [], [], [], vs, []⟩, cursor := some (j, s.nextSlice b k), loaded := none })
  s.startConds p b k

/-! ## What else an edge applies -/

/-- Accepted stream changes of a partition are taken up (R364); 0 stands for a disable. -/
def State.applyStreams (s : State) (p : Nat) : State :=
  let mine := s.streamPending.filter (fun kv => Sm.partition.get (if kv.2 = 0 then s.streamE kv.1 else kv.2) == p
    && SMap.getD 0 s.streamAt kv.1 < (s.pt p).edgeNs)
  let s := mine.foldl (fun t kv =>
    if kv.2 = 0 then
      let e := Sm.enable.set (t.streamE kv.1) 0
      (t.setStream kv.1 0).memPut (t.rg Obj.STREAM_BASE + 128 * kv.1) (leBytes 128 e.toNat)
    else
      let e := Sm.active.set (Sm.enable.set kv.2 1) (t.chooseActive kv.2)
      let e := if Sm.enable.get (t.streamE kv.1) = 1 then Stream.carry (t.streamE kv.1) e else e
      (t.setStream kv.1 e).memPut (t.rg Obj.STREAM_BASE + 128 * kv.1) (leBytes 128 e.toNat)) s
  let s : State := { s with streamPending := s.streamPending.filter (fun kv => !mine.any (fun m => m.1 == kv.1)) }
  s.countStreams

/-- A commit refused at an edge is a settle fault of the settlement that the edge has just made ready, or, where no slice settles, of
the next (R61, R219). -/
def State.faultHere (s : State) (p cause : Nat) : State :=
  match (s.pt p).settling with
  | some z => if z.mode = 1 || z.mode = 3 then s.modPt p (fun x => { x with settling := some { z with fault := true, cause := if z.fault then z.cause else cause } })
      else s.faultDue p cause
  | none => s.faultDue p cause

/-- A due copy switch: an untagged switch commit to every COPY_SET entry (R298, R400); each goes to its other slot. -/
def State.applyCopySwitch (s : State) (p n : Nat) : State :=
  match (s.pt p).copySwitch with
  | some t =>
    if t ≤ n then
      let s := (s.pt p).copySet.foldl (fun u i =>
        let e := u.resE i
        let c : Commit := ⟨i, false, 0, 0, ResEntry.slotAddr e (1 - Rs.cur.get e)⟩
        match u.commitBar p 0 c with
        | .free => u.applyCommit p 0 (u.pt p).step [] false c
        | b => (u.commitRefused p b).faultHere p stopChain) s
      s.modPt p (fun x => { x with copySwitch := none, copyPrepared := false })
    else s
  | none => s

/-- Every SOURCE_VERSION of a partition is cleared (R224). -/
def State.clearSources (s : State) (p : Nat) : State :=
  (s.resList.filter (fun kv => Rs.partition.get kv.2 == p && Rs.role.get kv.2 == roleGathered)).foldl
    (fun t kv => t.setResFld kv.1 Rs.linkVersion noVersion) s

/-- The row of the resume plan whose FIRST_SLICE is given (R410): UPDATE_SLICE. -/
def State.resumeUpdate (s : State) (b first : Nat) : Option Nat :=
  match s.symbol b "$resume" with
  | some i =>
    ((List.range (Rs.rows.get (s.resE i))).find? (fun n => s.word32 i (4 * n) == first)).map (fun n => s.word32 i (4 * n + 1))
  | none => none

/-! ## Job position record, 64 B (R414) -/
namespace Po
def step : Fld := fb 0x00 8
def nextSlice : Fld := fb 0x08 4
def slicesRun : Fld := fb 0x10 8
def tick : Fld := fb 0x18 8
def cursorStep : Fld := fb 0x20 8
end Po

abbrev pointStep : Nat := 0
abbrev pointUpdate : Nat := 1
abbrev pointPress : Nat := 2

/-- The edge of RESUME_TICK (R436): the stopped job ticks again from the chosen position. -/
def State.applyResume (s : State) (p n : Nat) : State :=
  match (s.pt p).recover, (s.pt p).stopped with
  | some rc, some j =>
    match rc.resume with
    | some t =>
      if t ≤ n then
        let po := (s.pt p).posRec
        let first := Po.nextSlice.get po
        let upd := (s.resumeUpdate (s.blockOf p j) first).getD first
        let k := if rc.kind = pointUpdate then upd else first
        let run := Po.slicesRun.get po + (if rc.kind = pointUpdate then upd - first else 0)
        let s := s.clearSources p
        let s := s.modPt p (fun x => { x with
          recover := none, stopped := none, cursor := some (j, k), step := Po.step.get po, missingMap := [], notes := [], loaded := none,
          settling := x.settling.map (fun z => { z with held := [], note := [] }), updateStarted := rc.kind == pointUpdate,
          atUpdate := rc.kind == pointUpdate,
          stepDropped := if rc.kind = pointPress then [] else x.stepDropped,
          stepMissing := if rc.kind = pointPress then [] else x.stepMissing, silentRun := [] })
        let s := (s.setJobF p j Job.state jsTicking).setJobF p j Job.slicesRun run
        let s := ((((s.setRg (Obj.RECOVERY_STATE p) rsNone).incRg (Obj.RECOVERIES p) 1).setRg (Obj.STEP_COUNTER p) (Po.step.get po)).setRg
          (Obj.HELD_UPDATE_STARTED p) 0).setRg (Obj.LOST_MODULES p) 0
        ((s.setRg (Obj.JOB_CURRENT p) j).setFilter p 0).updatePart p
      else s
    | none => s
  | _, _ => s

/-- Jobs whose START_TICK is this tick, or the oldest that waits without one and was accepted before the edge (R31), start; the rest
of the former are turned away (R471). A job that waits without a START_TICK does not start while the partition is HALTED, of which
R471 does not speak (log 103). -/
def State.startJobs (s : State) (p n : Nat) : State :=
  let x := s.pt p
  let due := x.order.filter (fun j => Job.startTick.get (x.job j) == n && n != 0)
  let busy := x.cursor.isSome || x.stopped.isSome
  match due with
  | j :: js => if busy then due.foldl (fun t i => t.blockStart p i) s else js.foldl (fun t i => t.blockStart p i) (s.startJob p j n)
  | [] =>
    match x.order.find? (fun j => Job.startTick.get (x.job j) == 0 && SMap.getD 0 x.accepted j < x.edgeNs) with
    | some j => if busy then s else s.startJob p j n
    | none => s

/-- Cancels whose edge has come, after a PART_STOP that waits for it has cancelled every ticking and accepted job (R468, R474). -/
def State.applyCancels (s : State) (p n : Nat) : State :=
  let x := s.pt p
  let final := match x.settling with
    | some z => if z.mode = 1 && z.final then some z.job else none
    | none => none
  let due := (x.cancels.filter (fun c => c.tick ≤ n)).map (·.index)
  let all := if x.stopAtEdge then (x.jobs.filter (fun kv =>
      Job.state.get kv.2 == jsTicking || Job.state.get kv.2 == jsAccepted)).map (·.1) else []
  let s := (due ++ all.filter (fun j => !due.contains j)).foldl (fun t j => t.cancelJob p j final) s
  s.modPt p (fun x => { x with stopAtEdge := false })

/-- The round-1 frame of the settlement that stands ready (R57); a job of one module sends none. -/
def State.sendRound1 (s : State) (p : Nat) : State :=
  match (s.pt p).settling with
  | some z =>
    if z.mode = 0 || z.modules ≤ 1 then s
    else
      let v := SMap.getD ⟨0, 0, 0, 0⟩ z.r1 z.self
      s.sendStatus p z.jobId ⟨1, z.self, z.jobId, z.tick, v.units, v.mb, v.buckets, 0⟩
  | none => s

/-- TICK records of the traced clusters, and the trigger of kind 0x05 (R491, R493). -/
def State.traceTick (s : State) (p n : Nat) : State :=
  match (s.pt p).built with
  | some r => (maskList 48 r.clusters).foldl (fun t c =>
      (t.trace p c trTick 0 0 n).traceFire p c 5 0 (n == t.rg (Obj.TRIGGER_ARG p))) s
  | none => s

/-- The gauge fallback of each quarter for the tick that begins (R157). -/
def State.applyGauge (s : State) (p : Nat) : State :=
  match (s.pt p).built with
  | some r =>
    let g := (s.pt p).gaugeNext
    ((maskList 48 r.clusters).foldl (fun t c => t.modCl c (fun cl => { cl with gaugeBit := g.testBit (quarterOf12 c) })) s).modPt p
      (fun x => { x with gaugeNext := 0 })
  | none => s

/-- Whether the slice that starts is the first of its step. -/
def Part.stepBegins (x : Part) (j : Nat) : Bool :=
  match x.settling with
  | some z => z.mode != 1 || z.job != j || z.stepEnd
  | none => true

/-- Tick `n` begins at grain `g` (R33, R51): the time and the counters move on, what waits for an edge is applied, and the next
slice starts. -/
def State.beginTick (s : State) (p g n len : Nat) : State :=
  let s := s.at (g * 10000)
  let s := match (s.pt p).snapAt with
    | some a => if a ≤ g then s.takeSnapshot p g else s.switchBanks p g
    | none => s.switchBanks p g
  let s := if (s.pt p).gen.begun then s.imageEdge p (s.pt p).gen.tick g else s
  let s := s.modPt p (fun x => { x with gen := { x.gen with
    begun := true, start := g, len := len, guard := s.rg (Obj.CLOSE_GUARD_NS p), tick := n, stopping := false } })
  let s := s.setRg (Obj.TICK_NUMBER p) n
  let s := (((((s.takeUp p).applyStreams p).applyCancels p n).applyAbandon p).applyResume p n).applyCopySwitch p n
  let s := (s.sendRound1 p).startJobs p n
  let s := (s.applyGauge p).traceTick p n
  match (s.pt p).cursor with
  | some (j, k) =>
    if (s.pt p).suspend > 0 || (s.pt p).stopped.isSome then s
    else
      let first := (s.pt p).stepBegins j
      let s := s.startSlice p j k
      if first then s.dumpStepStart p (s.pt p).step else s
  | none => s

/-! ## The commands -/

/-- The grain at which a tick generator begins its first tick, or restarts (R35): at or after the edge that ends the tick in
progress, the epoch, and the grain after the last accepted write, on the grid of TICK_GRAINS. -/
def State.nextStart (s : State) (p : Nat) : Nat :=
  let g := (s.pt p).gen
  let ep := s.rg (Obj.TICK_EPOCH_GRAIN p)
  let lo := Nat.max (Nat.max (g.start + g.len) ep) (g.writeGrain + 1)
  ep + alignUp (lo - ep) (s.rg (Obj.TICK_GRAINS p))

/-- Whether the settlement of the tick before has run its course, as every settlement does within its tick (R51 to R80). -/
def Part.settled (x : Part) : Bool :=
  x.genDue.isNone && match x.settling with
  | some z => z.mode == 0 || (z.recorded && !(z.final && !z.fault && Job.state.get (x.job z.job) == jsTicking))
  | none => true

/-- The first tick of a generator that begins no tick yet. -/
def State.firstTick (s : State) (p : Nat) : State :=
  let g := s.nextStart p
  let len := s.rg (Obj.TICK_GRAINS p)
  s.beginTick p g ((g - s.rg (Obj.TICK_EPOCH_GRAIN p)) / len) len

/-- TICK_EDGE (R51): the edge that ends the tick in progress and begins the next, or the first edge after a build; an edge that
a write of the epoch or length has announced ends its tick and begins none (R35). -/
def execTickEdge (p : PartId) (s : State) : Out :=
  let g := (s.pt p).gen
  if !g.begun then takes (g.on && !g.stopping) s (fun s => s.firstTick p)
  else takes (g.on && (s.pt p).settled) s (fun s =>
    let e := g.start + g.len
    let s := (s.at (e * 10000)).endTick p
    if g.stopping then (s.switchBanks p e).modPt p (fun x => { x with gen := { x.gen with begun := false } })
    else s.beginTick p e (g.tick + 1) g.len)

/-- TICK_GENERATOR_RESTART (R35): the generator begins ticks again on its new grid. -/
def execTickGeneratorRestart (p : PartId) (s : State) : Out :=
  let g := (s.pt p).gen
  takes (g.on && !g.begun && g.stopping && (s.pt p).settled) s (fun s => s.firstTick p)

/-! ## The closing guard (R48, R49) -/

/-- Clusters with an operation in an issue queue that has not started; a core that would issue later finds the guard itself. -/
def State.guardClusters (s : State) (p : Nat) : State :=
  match (s.pt p).built with
  | none => s
  | some r => (maskList 48 r.clusters).foldl (fun t c =>
      let cl := t.cl c
      if !cl.nap.queue.isEmpty || (List.range 16).any (fun a => !(cl.arr a).queue.isEmpty) then t.lateCluster p c (t.pt p).guardCycle else t) s

/-- CLOSING_GUARD (R48, R49): from its position on no new item starts, and a slice with unissued items is late. -/
def execClosingGuard (p : PartId) (s : State) : Out :=
  takes (match (s.pt p).slice with
    | some r => !r.guard
    | none => false) s (fun s =>
    match s.running p with
    | none => s
    | some (b, k, r) =>
      let s := (s.at ((s.pt p).edgeNs + (s.pt p).guardPos)).pump p 0
      let waits := fun (x : ItemRun) => x.state == .waiting
      let s := s.guardClusters p
      let s := (List.range (s.burstCount b k)).foldl (fun t n =>
        if waits (r.burst n) then t.late p (lateMemory (t.burstQuarter p (t.burst b k n))) else t) s
      let s := (List.range (s.slotCount b k)).foldl (fun t n =>
        if waits (r.slot n) && Ps.direction.get (t.slotEntry b k n) = dirTx then t.late p (lateNetwork (t.slotQuarter p (t.slotEntry b k n))) else t) s
      let s := (List.range 4).foldl (fun t q => (t.planOf b q k).foldl (fun u n =>
        if waits (r.rb q n) then u.late p (lateReblock q) else u) t) s
      let s := (List.range (s.kettleCount b k)).foldl (fun t n =>
        match t.unitOf p (Kt.unit.get (t.kettleEntry b k n)) with
        | some u => if waits (r.kettleItem n) then t.late p (lateKettle (t.kettleQuarter u)) else t
        | none => t) s
      s.modPt p (·.modSlice (fun r => { r with guard := true })))

end Sys2Proof.Machine
end

