-- ==== Sys2Proof/Machine/Settle.lean ====
section
/-!
DEFINITION. Settlement (02_tick_and_schedule.md R57 to R69, R83; 04_numerics.md R148, R149; 06_backward_pass.md R216 to R218;
07_parameter_update.md R245; 09_mapping_and_reblock.md R330; 12_resilience.md R407, R414, R438, R440; 14_observability.md R483,
R484, R490): the commands ROUND2_SEND, TICK_STATUS_RX, SETTLE_DECIDE, STATUS_RECORD_WRITE and JOB_COMPLETE.
-/

namespace Sys2Proof.Machine
open Sys2Proof

/-! ## Sets kept as rising lists -/

def insertRising (n : Nat) : List Nat → List Nat
  | [] => [n]
  | a :: l => if n < a then n :: a :: l else if n = a then a :: l else a :: insertRising n l

def unionRising (a b : List Nat) : List Nat := b.foldl (fun l n => insertRising n l) a

/-- The identifiers that a 64-bit map names from a base on. -/
def mapIds (base m : Nat) : List Nat := (bitsOf 64 m).map (fun b => (base + b) % 2 ^ 32)

/-! ## Views (R57, R59) -/

/-- What a module knows of a settlement: HEARD, late modules, MB and BUCKETS. -/
structure View where
  heard : Nat
  late : Nat
  mb : Nat
  bk : Nat
  deriving DecidableEq, Repr

/-- The round-1 view: every module heard, with own bit set. -/
def Settling.view1 (z : Settling) : View :=
  z.r1.foldl (fun v kv => ⟨setBit v.heard kv.1, if kv.2.units ≠ 0 then setBit v.late kv.1 else v.late, v.mb ||| kv.2.mb, v.bk ||| kv.2.buckets⟩)
    ⟨setBit 0 z.self, 0, 0, 0⟩

/-- The view of R59: the own one with every round-2 frame received. -/
def Settling.view2 (z : Settling) : View :=
  z.r2.foldl (fun v kv => ⟨v.heard ||| kv.2.heard, v.late ||| kv.2.units, v.mb ||| kv.2.mb, v.bk ||| kv.2.buckets⟩) z.view1

def State.setSettling (s : State) (p : Nat) (f : Settling → Settling) : State := s.modPt p (fun x => { x with settling := x.settling.map f })

/-- A round-2 frame (R57); UNITS, MB and BUCKETS are 0 without a slice (R407). -/
def Settling.frame2 (z : Settling) (halt : Bool) : StatusFrame :=
  let v := z.view1
  let own := z.mode == 1
  ⟨if halt then 0x82 else 0x02, z.self, z.jobId, z.tick, if own then v.late else 0, if own then v.mb else 0, if own then v.bk else 0, v.heard⟩

/-- ROUND2_SEND (R58): between 3,000 and 3,200 ns the round-2 frame leaves on every settlement port. HALT is set while the job is
STOPPED or recovering (R407), and after a press copy has failed (R418). -/
def execRound2Send (p : PartId) (s : State) : Out :=
  match (s.pt p).settling with
  | none => .next s
  | some z => takes (z.mode != 0 && z.modules > 1 && !z.sentR2 && !z.decided) s (fun s =>
      let s := s.at ((s.pt p).edgeNs + 3000)
      (s.sendStatus p z.jobId (z.frame2 (z.mode == 2 || (z.mode == 3 && z.fault)))).setSettling p (fun z => { z with sentR2 := true }))

/-! ## Received frames -/

/-- A HALT frame stops the job in the same way as a settle fault (R61). -/
def State.haltRx (s : State) (p : Nat) (z : Settling) : State :=
  if z.mode = 1 || z.mode = 3 then
    (s.setSettling p (fun z => { z with haltHeard := true, fault := true, cause := if z.cause = 0 then stopHalt else z.cause })).stopJob p z.job
      (if z.cause = 0 then stopHalt else z.cause) z.critical
  else s.setSettling p (fun z => { z with haltHeard := true })

/-- TICK_STATUS_RX (R57): the first intact copy of each frame of a module counts; a frame with another tick number counts as not
heard (R36). -/
def execTickStatusRx (port : PortId) (at_ : Nat) (f : StatusFrame) (s : State) : Out :=
  takes (s.portUp port) s (fun s =>
    let s := (s.at at_).incRg (Obj.RX_FRAMES port) 1
    match s.ownerOfPort port with
    | none => s
    | some p =>
      let s := s.count p 5 port (wEvent 1) 1
      if f.tick + 1 ≠ s.rg (Obj.TICK_NUMBER p) then s.incRg (Obj.TICK_MISMATCH p) 1
      else match (s.pt p).settling with
        | none => s
        | some z =>
          if z.mode = 0 || z.jobId ≠ f.job || f.module = z.self || f.module ≥ z.modules then s
          else
            let v : Heard := ⟨f.units, f.mb, f.buckets, f.heard⟩
            let keep := fun (m : SMap Heard) => if (SMap.get? m f.module).isSome || z.decided then m else SMap.ins m f.module v
            if f.kind % 128 = 1 then s.setSettling p (fun z => { z with r1 := keep z.r1 })
            else if f.kind % 128 = 2 then
              let s := s.setSettling p (fun z => { z with r2 := keep z.r2 })
              if f.kind ≥ 128 then s.haltRx p z else s
            else s)

/-! ## Silence (R59, R62, R407, R424) -/

/-- The job modules that nobody heard. -/
def Settling.silentSet (z : Settling) : Nat := ((List.range z.modules).filter (fun m => !z.view2.heard.testBit m)).foldl setBit 0

/-- Module `m` is declared lost; the holder of its mirrors judges their sweep records. -/
def State.moduleLost (s : State) (p m : Nat) : State :=
  let s := s.setRg (Obj.LOST_MODULES p) (setBit (s.rg (Obj.LOST_MODULES p)) m)
  let started := m == s.rg (Obj.MIRROR_OF p) && (s.pt p).mirrorSweeps.any (fun kv => kv.2.step == (s.pt p).step && kv.2.w != 0)
  let s := if started then s.setRg (Obj.HELD_UPDATE_STARTED p) 1 else s
  let s := if s.rg (Obj.RECOVERY_STATE p) = rsRecovering || s.rg (Obj.RECOVERY_STATE p) = rsReady
    then (s.setRg (Obj.RECOVERY_STATE p) rsStopped).modPt p (fun x => { x with recover := none }) else s
  s.notify 0x0015 p m 0

/-- Consecutive silent ticks counted; SILENT_LIMIT of them make a module lost. -/
def State.countSilence (s : State) (p modules silent : Nat) : State :=
  let s := if silent ≠ 0 then s.incRg (Obj.SILENT_TICKS p) 1 else s
  (List.range modules).foldl (fun t m =>
    let n := if silent.testBit m then SMap.getD 0 (t.pt p).silentRun m + 1 else 0
    let t := t.modPt p (fun x => { x with silentRun := SMap.put 0 x.silentRun m n })
    if n = t.rg (Obj.SILENT_LIMIT p) && n ≠ 0 then t.moduleLost p m else t) s

/-! ## Micro-batches that retire (R216) -/

/-- The identifiers that slices after slice `k` tag in the same step. -/
def State.laterMb (s : State) (b : Nat) : Nat → Nat → List Nat
  | 0, _ => []
  | n + 1, k =>
    if (s.sliceHdr b k).stepEnd then []
    else
      let k' := s.nextSlice b k
      let h := s.sliceHdr b k'
      mapIds h.mbBase h.jobMb ++ s.laterMb b n k'

/-- Provisional tags at a settlement (R217, R218): those of dropped micro-batches revert their entries, those that retire go. A dropped
micro-batch takes out its own fold and nothing else (R214). -/
def State.settleTags (s : State) (p b : Nat) (z : Settling) (drops : List Nat) : State :=
  let s := (s.provisional p).foldl (fun t kv => if drops.contains (Rs.provTag.get kv.2) then t.revert p kv.1 else t) s
  let later := s.laterMb b (s.blkSliceCount b) z.slice
  let gone := (mapIds z.mbBase z.jobMb).filter (fun u => !later.contains u)
  (s.provisional p).foldl (fun t kv => if gone.contains (Rs.provTag.get kv.2) then t.setResFld kv.1 Rs.provTag noVersion else t) s

/-! ## Scale histories (R148, R149) -/

/-- The held notes merged into STEP_AMAX. A note's micro-batch is dropped when any tick of the step so far dropped it, which R148 does
not say (log 102). -/
def State.mergeNotes (s : State) (p : Nat) (z : Settling) (drops : List Nat) : State :=
  z.note.foldl (fun t n =>
    let v := fFP32.decode n.value
    if v.isNan then t.incRg (Obj.HIST_NONFINITE p) 1
    else if z.late ≠ 0 || (n.mb != noVersion && drops.contains n.mb) || !t.resEnabled n.entry || Rs.class_.get (t.resE n.entry) != classHistory then t
    else
      let a := ResEntry.curAddr (t.resE n.entry)
      let m := (fFP32.decode (Hi.stepAmax.get (t.histEntry n.entry))).max v
      (t.memPut (a + 0xC) (leBytes 4 (rneFP32 m))).tear p n.entry (Rs.cur.get (t.resE n.entry))) s

/-- A history entry after the step `step` (R149, R152: LOST clears when COUNT reaches H); the second part says that the step's maximum was infinite. -/
def histAfter (h : Hist) (step : Nat) : Hist × Bool :=
  let m := fFP32.decode (Hi.stepAmax.get h)
  let n := Hi.next.get h
  let len := Hi.h.get h
  let fin := match m with
    | .fin .. => true
    | _ => false
  let g := if fin && len ≠ 0
    then Hi.count.set (Hi.next.set ((Hi.amax n).set h (Hi.stepAmax.get h)) ((n + 1) % len)) (Nat.min (Hi.count.get h + 1) len) else h
  let g := if len ≠ 0 && Hi.count.get g = len then Hi.flags.set g (clearBit (Hi.flags.get g) 0) else g
  (Hi.stepSettled.set (Hi.stepAmax.set g 0xFF800000) step, m == .inf false)

/-- The history entries of a job: those that its Block's symbol table names (04, History scaling). -/
def State.histories (s : State) (p b : Nat) : List Nat :=
  (((s.symbols b).map (·.index)).filter (fun i => s.resEnabled i && Rs.partition.get (s.resE i) == p
    && Rs.class_.get (s.resE i) == classHistory)).eraseDups

/-- Every history entry of the job updated into a fresh buffer, with its version advanced (R149). The fresh buffer is the lowest
slot that is not current; an entry of one slot is updated in place (log 49). -/
def State.historyUpdate (s : State) (p b step : Nat) : State :=
  (s.histories p b).foldl (fun t i =>
    let e := t.resE i
    let cur := Rs.cur.get e
    let k := if Rs.buffers.get e = 0 then cur else if cur = 0 then 1 else 0
    let (h, inf) := histAfter (t.histEntry i) step
    let t := t.keepFormer p i 10000
    let t := t.memPut (ResEntry.slotAddr e k) (leBytes 272 h.toNat)
    let t := ((t.setResFld i Rs.cur k).advance i).tear p i k
    if inf then t.incRg (Obj.HIST_NONFINITE p) 1 else t) s

/-! ## Slots of the step (R483, R484) -/

/-- The stream cycles of a settled slice classified: those with DISCARD, and those whose tag names an identifier dropped in the
step, are wasted; slots by identifier are kept, up to 4,096 identifiers. -/
def State.classifyWork (s : State) (p : Nat) (z : Settling) (drops : List Nat) : State :=
  z.work.foldl (fun t w =>
    let (arr, tag, discard, n) := w
    let u := (z.mbBase + (tag - 1)) % 2 ^ 32
    let t := if discard || (tag ≠ 0 && drops.contains u) then t.countWasted p arr n else t
    if discard then t.modPt p (fun x => { x with stepSlots := SMap.put 0 x.stepSlots 1 (SMap.getD 0 x.stepSlots 1 + n) })
    else if tag = 0 then t
    else if (SMap.get? (t.pt p).tagSlots u).isSome || (t.pt p).tagSlots.length < 4096 then
      t.modPt p (fun x => { x with tagSlots := SMap.put 0 x.tagSlots u (SMap.getD 0 x.tagSlots u + n) })
    else t.incRg (Obj.TAG_OVERFLOW p) n) s

/-! ## The decision (R59 to R66) -/

/-- A replay's decision joined with the recorded one; what the record lacks is a divergence (R440). -/
def State.replayJoin (s : State) (p : Nat) (z : Settling) (own recd base kind : Nat) : State × Nat :=
  if s.rg (Obj.REPLAY p) = 1 then
    let _ := z
    let s := ((bitsOf 64 own).filter (fun b => !recd.testBit b)).foldl (fun t b =>
      (t.incRg (Obj.REPLAY_DIVERGED p) 1).notify 0x0062 p ((base + b) % 2 ^ 32) kind) s
    (s, own ||| (recd % 2 ^ 64))
  else (s, own)

/-- The held SETTLE commits that stand are applied in list order, those of dropped micro-batches left out (R214); where one of them is
refused, the module is in settle fault and applies none (R61). The second part says so. -/
def State.resolve (s : State) (p : Nat) (z : Settling) (d : Decided) : State × Bool :=
  let todo := z.held.filter (fun c => c.stands d z.mbBase z.bktBase)
  let bars := (todo.map (s.commitBar p z.mbBase)).filter (· != .free)
  if bars.isEmpty then (todo.foldl (fun t c => t.applyCommit p z.mbBase z.step z.versions true c) s, false)
  else (bars.foldl (fun t b => t.commitRefused p b) s, true)

/-- What a settlement without fault changes between 6,000 and 9,000 ns. -/
def State.settleSlice (s : State) (p b : Nat) (z : Settling) (drops : List Nat) : State :=
  let s := s.settleTags p b z drops
  let s := s.mergeNotes p z drops
  if z.stepEnd then (s.historyUpdate p b z.step).clearSources p else s

/-- The decision of a slice's settlement. -/
def State.decideSlice (s : State) (p : Nat) (z : Settling) (recMb recBuckets : Nat) : State :=
  let b := s.blockOf p z.job
  let v := z.view2
  let silent := z.silentSet
  let (s, dropped) := s.replayJoin p z (if silent ≠ 0 then v.mb ||| z.jobMb else v.mb) recMb z.mbBase 0
  let (s, missing) := s.replayJoin p z (if silent ≠ 0 then v.bk ||| z.jobBkt else v.bk) recBuckets z.bktBase 1
  let s := s.countSilence p z.modules silent
  let lost := (List.range z.modules).any (fun m => m != z.self && (SMap.get? z.r2 m).isNone)
  let cause := if z.cause ≠ 0 then z.cause else if lost then (if silent ≠ 0 then stopSilent else stopOther) else 0
  let fault := z.fault || lost
  let ids := mapIds z.mbBase dropped
  let groups := mapIds z.bktBase missing
  let x := s.pt p
  let s := s.incRg (Obj.MB_DROPPED_6100 p) (ids.filter (fun u => !x.stepDropped.contains u)).length
  let s := s.incRg (Obj.BUCKETS_MISSING_6100 p) (groups.filter (fun u => !x.stepMissing.contains u)).length
  let s := s.modPt p (fun x => { x with
    stepDropped := unionRising x.stepDropped ids, stepMissing := unionRising x.stepMissing groups,
    missingMap := unionRising x.missingMap (groups.filter (· ≤ 65535)),
    lateTicks := x.lateTicks + (if v.late ≠ 0 then 1 else 0), silentTicks := x.silentTicks + (if silent ≠ 0 then 1 else 0) })
  let drops := (s.pt p).stepDropped
  let s := s.classifyWork p z drops
  let (s, refused) := if fault then (s, false) else s.resolve p z ⟨drops, groups, v.late ||| silent, z.self⟩
  let s := if fault || refused then s else s.settleSlice p b z drops
  let cause := if refused then stopChain else cause
  let s := s.setSettling p (fun z => { z with decided := true, dropped := dropped, missing := missing, lateM := v.late, silent := silent,
                                              fault := fault || refused, cause := cause })
  if fault || refused then s.stopJob p z.job cause z.critical else s

/-- The decision of a tick without a slice: silence counts; a suspended job stops where a round-2 frame is missing or its press copy
failed; a fault met in recovery returns it to STOPPED (R407, R416, R418, R438). -/
def State.decidePlain (s : State) (p : Nat) (z : Settling) : State :=
  let silent := z.silentSet
  let s := s.countSilence p z.modules silent
  let lost := (List.range z.modules).any (fun m => m != z.self && (SMap.get? z.r2 m).isNone)
  let cause := if z.cause ≠ 0 then z.cause else if lost then (if silent ≠ 0 then stopSilent else stopOther) else 0
  let s := s.setSettling p (fun z => { z with decided := true, silent := silent, fault := z.mode == 3 && cause ≠ 0, cause := cause })
  if z.mode = 3 then (if cause ≠ 0 then s.stopJob p z.job cause false else s)
  else if z.cause ≠ 0 && (s.rg (Obj.RECOVERY_STATE p) = rsRecovering || s.rg (Obj.RECOVERY_STATE p) = rsReady) then
    (s.setRg (Obj.RECOVERY_STATE p) rsStopped).modPt p (fun x => { x with recover := none })
  else s

/-- SETTLE_DECIDE (R59): at position 6,000 ns. `recMb` and `recBuckets` are the sets of the status records, for a replay (R440). -/
def execSettleDecide (p : PartId) (recMb recBuckets : Nat) (s : State) : Out :=
  match (s.pt p).settling with
  | none => .next s
  | some z => takes (z.mode != 0 && !z.decided && (z.modules ≤ 1 || z.sentR2)) s (fun s =>
      let s := s.at ((s.pt p).edgeNs + 6000)
      if z.mode = 1 then s.decideSlice p z recMb recBuckets else s.decidePlain p z)

/-! ## The status record (R69) -/

/-- CONTRACT_FLAGS of a settlement; a late slice under failed conditions is no contract miss (R46). -/
def Settling.flags (z : Settling) : Nat :=
  let late := z.late ≠ 0
  (if late then 1 else 0) ||| (z.cond &&& 0xFE) ||| (if late && z.cond &&& 0xFE = 0 then 2 ^ cfContractMiss else 0)
    ||| (if z.fault then 2 ^ cfSettleFault else 0)

/-- OUTCOME: no job, all on time, drops caused by others, local slice late, settle fault. -/
def Settling.outcome (z : Settling) : Nat :=
  if z.mode ≠ 1 then 0
  else if z.fault then 4
  else if z.late ≠ 0 then 3
  else if z.lateM ||| z.dropped ||| z.missing ||| z.silent ≠ 0 then 2
  else 1

/-- The objects of the status record. -/
def State.writeRecord (s : State) (p : Nat) (z : Settling) : State :=
  let own := z.mode == 1
  let put := fun (t : State) (k v : Nat) => t.setRg k (if own then v else 0)
  let s := s.setRg (Obj.SETTLED_TICK p) z.tick
  let s := s.setRg (Obj.OUTCOME p) z.outcome
  let s := put s (Obj.MB_BASE p) z.mbBase
  let s := put s (Obj.MB_DROPPED p) z.dropped
  let s := put s (Obj.BUCKET_BASE p) z.bktBase
  let s := put s (Obj.BUCKETS_MISSING p) z.missing
  let s := put s (Obj.LATE_MODULES p) z.lateM
  let s := s.setRg (Obj.SILENT_MODULES p) z.silent
  let s := put s (Obj.LATE_UNITS p) z.late
  let s := put s (Obj.CONTRACT_FLAGS p) z.flags
  let s := put s (Obj.HIST_WARMUP p) z.warm
  let s := put s (Obj.CONV_STATUS p) z.conv
  if own then s.setRg (Obj.STEP_COUNTER p) (z.step + (if z.stepEnd then 1 else 0)) else s

/-- The event counters that a slice's record decides (R490). -/
def State.countRecord (s : State) (p : Nat) (z : Settling) : State :=
  let f := z.flags
  let s := if z.late ≠ 0 then s.incRg (Obj.LATE_SLICES p) 1 else s
  let s := if z.dropped ≠ 0 then s.incRg (Obj.DROP_TICKS p) 1 else s
  let s := if f.testBit cfContractMiss then s.incRg (Obj.CONTRACT_MISSES p) 1 else s
  let s := if f.testBit cfThermal then s.incRg (Obj.THROTTLE_TICKS p) 1 else s
  (List.range 7).foldl (fun t k => if f.testBit (k + 1) then t.incRg (Obj.COND_FAIL p k) 1 else t) s

/-- The ledger record of a step, 64 B (R330). -/
def ledgerRecord (step mbPerStep late silent switches : Nat) (drops missing : List Nat) : List Byte :=
  leBytes 8 step ++ leBytes 4 mbPerStep ++ leBytes 4 (mbPerStep - drops.length) ++ leBytes 4 missing.length ++ leBytes 4 late
    ++ leBytes 4 silent ++ leBytes 4 drops.length ++ (List.range 6).flatMap (fun k => leBytes 4 (drops.getD k 0xFFFFFFFF))
    ++ leBytes 4 switches ++ leBytes 4 0

/-- The ledger entry of a partition, where LEDGER_INDEX names a fit one. -/
def State.ledgerFits (s : State) (p : Nat) : Bool :=
  let e := s.resE (s.rg (Obj.LEDGER_INDEX p))
  Rs.enable.get e == 1 && Rs.partition.get e == p && Rs.class_.get e == classRecord && Rs.format.get e == 0x12 && Rs.cols.get e == 16

def State.writeLedger (s : State) (p b : Nat) (z : Settling) : State :=
  if s.ledgerFits p then
    let i := s.rg (Obj.LEDGER_INDEX p)
    let e := s.resE i
    let x := s.pt p
    let row := ledgerRecord z.step (s.blkMbPerStep b) x.lateTicks x.silentTicks x.stepSwitches x.stepDropped x.stepMissing
    ((s.memPut (ResEntry.curAddr e + 64 * (z.step % Rs.rows.get e)) row).tear p i (Rs.cur.get e)).incRg (Obj.LEDGER_RECORDS p) 1
  else s

/-- The job position record (R414). -/
def State.writePosition (s : State) (p b : Nat) (z : Settling) : State :=
  let cur := match s.symbol b "$cursor" with
    | some i => s.memLE (ResEntry.curAddr (s.resE i)) 8
    | none => 0
  let r : BitVec 512 := Po.cursorStep.set (Po.tick.set (Po.slicesRun.set (Po.nextSlice.set (Po.step.set 0 (z.step + 1)) (s.nextSlice b z.slice))
    (Job.slicesRun.get ((s.pt p).job z.job))) (s.pt p).gen.tick) cur
  s.modPt p (fun x => { x with posRec := r })

/-- The slot totals of the step latched (R484): retired, wasted, front, back. -/
def State.latchSlots (s : State) (p : Nat) : State :=
  let x := s.pt p
  let at_ := fun k => SMap.getD 0 x.stepSlots k
  let wasted := at_ 1 + ((x.tagSlots.filter (fun kv => x.stepDropped.contains kv.1)).map (·.2)).sum
  let vals := [at_ 0 - wasted, wasted, at_ 2, at_ 3]
  (List.range 4).foldl (fun t k =>
    (t.setRg (Obj.STEP_SLOTS p k) (vals.getD k 0)).incRg (Obj.TOTAL_SLOTS p k) (vals.getD k 0)) s

/-- What the settlement of a STEP_END slice latches and writes; whether the job goes on after it decides about the position
record. -/
def State.recordStep (s : State) (p : Nat) (z : Settling) (goes : Bool) : State :=
  let b := s.blockOf p z.job
  let x := s.pt p
  let s := s.setRg (Obj.STEP_GRADIENT_COUNT p) (s.blkMbPerStep b - x.stepDropped.length)
  let s := s.setRg (Obj.STEP_BUCKETS_MISSING p) x.stepMissing.length
  let s := s.writeLedger p b z
  let s := if goes then s.writePosition p b z else s
  let s := (s.latchSlots p).dumpStepEnd p z.step
  let gen := if (SMap.get? x.descs z.job).isSome && !z.fault then some (x.stepDropped, x.tagSlots) else none
  s.modPt p (fun x => { Part.freshStep x with genDue := gen })

/-- The pinned entries of a partition that have changed, and its streams, written through to their memory images (R295, R364). -/
def State.writeThrough (s : State) (p : Nat) : State :=
  let (now, later) := s.resChanged.partition (fun i => Rs.partition.get (s.resE i) == p)
  let s := now.foldl (fun t i => t.resWriteBack i (t.resE i)) { s with resChanged := later }
  (s.streamsOf p).foldl (fun t kv => t.memPut (t.rg Obj.STREAM_BASE + 128 * kv.1) (leBytes 128 kv.2.toNat)) s

/-- STATUS_RECORD_WRITE (R69): at position 9,000 ns. -/
def execStatusRecordWrite (p : PartId) (s : State) : Out :=
  match (s.pt p).settling with
  | none => .next s
  | some z => takes (!z.recorded && (z.mode == 0 || z.decided)) s (fun s =>
      let s := (s.at ((s.pt p).edgeNs + 9000)).writeRecord p z
      let s := if z.mode = 1 then
          let s := s.countRecord p z
          let st := s.jobState p z.job
          let goes := !z.final && (st == jsTicking || st == jsStopped)
          let s := if z.stepEnd then s.recordStep p z goes else s
          if goes then s else s.modPt p Part.freshStep
        else s
      let s := if (s.pt p).genDue.isNone then s.endGen p else s
      let s := if z.fault && z.modules > 1 then s.sendStatus p z.jobId (z.frame2 true) else s
      (s.writeThrough p).setSettling p (fun z => { z with recorded := true }))

/-- JOB_COMPLETE (R80): at the end of the settling grain of its final slice the job is COMPLETE. -/
def execJobComplete (p : PartId) (s : State) : Out :=
  match (s.pt p).settling with
  | none => .next s
  | some z => takes (z.mode == 1 && z.recorded && z.final && !z.fault && s.jobState p z.job == jsTicking) s (fun s =>
      (s.at ((s.pt p).edgeNs + 10000)).endJob p z.job jsComplete)

end Sys2Proof.Machine
end

