-- ==== Sys2Proof/Machine/Ports.lean ====
section
/-!
DEFINITION. The Ethernet ports (10_fabric_and_ethernet.md R333 to R350, R369): up and down, re-adaptation, pause, low-power idle,
LLDP and HELLO, and the steering of received frames.
-/

namespace Sys2Proof.Machine
open Sys2Proof

/-! ## Up and down (R334, R335) -/

/-- ADMIN of a port, fabric or host. -/
def State.adminOn (s : State) (port : Nat) : Bool := s.rg (if port < 64 then Obj.ADMIN port else Obj.HOST_ADMIN) == 1

/-- Whether the slice in progress of a partition uses a port: a port slot, or the stream of one, is on it. -/
def State.sliceUsesPort (s : State) (p port : Nat) : Bool :=
  match s.running p with
  | some (b, k, _) => (List.range (s.slotCount b k)).any (fun n =>
      let e := s.slotEntry b k n
      s.slotPort p e == some port || (match Stream.current (s.streamE (Ps.stream.get e)) with
        | some c => c.1 == port
        | none => false))
  | none => false

/-- A condition fails for the slice that uses a port (R44). -/
def State.failsOnPort (s : State) (port b : Nat) : State :=
  (List.range 12).foldl (fun t p => if t.sliceUsesPort p port then t.fails p b else t) s

/-- A port takes a link state other than UP: going down counts, is reported, and moves its streams. -/
def State.portLeaves (s : State) (port st : Nat) : State :=
  if s.linkIsUp port then
    let s := s.failsOnPort port cfLink
    let s := ((s.setRg (linkKey port) st).incRg (Obj.LINK_DOWNS port) 1).notify 0x0020 ((s.ownerOfPort port).getD 0xFF) port 0
    let s := { s with txq := SMap.del s.txq port }
    if port < 64 then
      let s := s.failover port
      match s.ownerOfPort port with
      | some p => s.resumeSending p
      | none => s
    else s
  else s.setRg (linkKey port) st


/-- PORT_UP (R334): ADMIN is set, training has finished and all lanes are locked. -/
def execPortUp (port : PortId) (at_ : Nat) (s : State) : Out :=
  takes (s.adminOn port && !s.linkIsUp port) s (fun s =>
    let s := (s.portTime port at_).setRg (linkKey port) linkUp
    let s := { s with upSince := SMap.ins s.upSince port s.now }
    let s := s.notify 0x0021 ((s.ownerOfPort port).getD 0xFF) port 0
    if port.val < 64 then
      let s := s.rejoin
      match s.ownerOfPort port with
      | some p => s.resumeSending p
      | none => s
    else s)

/-- PORT_DOWN (R334, R361). -/
def execPortDown (port : PortId) (at_ : Nat) (s : State) : Out :=
  takes (s.linkState port != linkDown && s.linkState port != linkDisabled) s (fun s => (s.portTime port at_).portLeaves port linkDown)

/-- A write of ADMIN: 0 disables the port, 1 begins link training. -/
def State.adminWritten (s : State) (port v : Nat) : State :=
  if v = 0 then s.portLeaves port linkDisabled
  else if s.linkState port = linkDisabled then s.setRg (linkKey port) linkTraining else s

/-- A write to ADAPT (R335). -/
def State.adapt (s : State) (port v : Nat) : State × Answer :=
  if v ≠ 1 then (s, .of stRange)
  else ((s.failsOnPort port cfMaint).portLeaves port linkAdapting, .ok)

/-- ADAPT (R335): the four lanes are re-adapted; the port is down until PORT_UP or PORT_DOWN, at most 200 ms later. -/
def execAdapt (sess : Nat) (port : PortId) (s : State) : Out :=
  takes (port.val < 64 && s.mayWrite sess (Obj.ADAPT port) 1) s (fun s => (s.adapt port 1).1)

/-- FAILBACK (R362): at a tick edge, a stream returns to its primary that has been up for FAILBACK_MS. -/
def execFailback (stream : Nat) (s : State) : Out :=
  let e := s.streamE stream
  let p := Sm.partition.get e
  takes (Sm.enable.get e == 1 && Sm.active.get e != 0 && s.portUp (Sm.primary.get e) && (s.pt p).gen.begun && s.now == (s.pt p).edgeNs
      && SMap.getD 0 s.upSince (Sm.primary.get e) + 1000000 * s.rg Obj.FAILBACK_MS ≤ s.now) s (fun s => s.setStreamFld stream Sm.active 0)

/-! ## FEC and pause (R339, R340, R341) -/

/-- LINK fails for the slice of the partition that owns a port. -/
def State.ownerLinkFails (s : State) (port : Nat) : State :=
  match s.ownerOfPort port with
  | some p => s.fails p cfLink
  | none => s

/-- FEC_UNCORRECTABLE (R339): what the decoder finds in received codewords: a frame with uncorrectable ones is discarded whole; corrected
ones are counted and fail nothing (log 93). -/
def execFecUncorrectable (port : PortId) (codewords corrected : Nat) (s : State) : Out :=
  takes (s.linkIsUp port) s (fun s =>
    let s := s.incRg (Obj.FEC_CORRECTED port) corrected
    if codewords = 0 then s else
    let s := ((s.incRg (Obj.FEC_UNCORRECTABLE port) codewords).discarded port).ownerLinkFails port
    match s.ownerOfPort port with
    | some p => s.count p 5 port (wEvent 4) codewords
    | none => s)

/-- The instant at which the last hold of a port ends. -/
def State.pauseLast (s : State) (port : Nat) : Nat := ((List.range 8).map (fun i => SMap.getD 0 s.pauseEnd (8 * port + i))).foldl Nat.max 0

/-- The time that pauses have held a transmitter, up to the present, enters PAUSE_NS and its stall cycles; what still holds is
counted from now on. -/
def State.countPause (s : State) (port : Nat) : State :=
  match SMap.get? s.pauseFrom port with
  | none => s
  | some f =>
    let ns := Nat.min s.now (s.pauseLast port) - f
    let s := s.incRg (Obj.PAUSE_NS port) ns
    let s := match s.ownerOfPort port with
      | some p => s.count p 5 port (wStall 3) (ns * 19 / 10)
      | none => s
    { s with pauseFrom := SMap.del s.pauseFrom port }

/-- PAUSE_FRAME (R340): a quantum is 0.64 ns; `all_` is a pause of Annex 31B, which holds every priority for its one time; a
priority-based pause holds each priority that it enables for its own. A time of 0 releases. -/
def execPauseFrame (port : PortId) (at_ : Nat) (all_ : Bool) (times : List (Nat × Nat)) (s : State) : Out :=
  takes (s.linkIsUp port) s (fun s =>
    let s := ((s.portTime port at_).incRg (Obj.PAUSE_RX port) 1).countPause port
    let holds := if all_ then (List.range 8).map (fun i => (i, (times.headD (0, 0)).2)) else times.filter (fun x => x.1 < 8)
    let s := holds.foldl (fun t x =>
      { t with pauseEnd := SMap.put 0 t.pauseEnd (8 * port + x.1) (if x.2 = 0 then 0 else t.now + ceilDiv (x.2 % 65536 * 64) 100) }) s
    let s := if s.pauseLast port > s.now then { s with pauseFrom := SMap.ins s.pauseFrom port s.now } else s
    (s.ownerLinkFails port).resumePort port)

/-- PAUSE_EXPIRE (R340): the pause time has ended, and the transmitter goes on. -/
def execPauseExpire (port : PortId) (at_ : Nat) (s : State) : Out :=
  takes ((SMap.get? s.pauseFrom port).isSome && s.pauseLast port ≤ at_) s (fun s =>
    ((s.portTime port at_).countPause port).resumePort port)

/-- HOST_PAUSE_TX (R341): the host receive queues stand at `level` percent of their capacity. -/
def execHostPauseTx (level : Nat) (s : State) : Out :=
  let mode := s.rg Obj.PAUSE_TX
  let on := level > 75
  takes (mode != 0 && s.linkIsUp hostPort && ((on && !s.hostPause) || (level < 25 && s.hostPause))) s (fun s =>
    let prio := if mode = 2 then some (s.rg Obj.PFC_PRIORITY) else none
    ({ s with hostPause := on }.emit (.pause hostPort prio on)).sentOn hostPort smallWire)

/-! ## Low-power idle (R344 to R346) -/

def State.lpiEnabled (s : State) (port : Nat) : Bool := s.rg (if port < 64 then Obj.LPI_EN port else Obj.HOST_LPI_EN) == 1
def State.phyType (s : State) (port : Nat) : Nat := s.rg (if port < 64 then Obj.PHY_TYPE port else Obj.HOST_PHY_TYPE)
/-- CAPS of the HELLO frames of a port: EXT_LPI where its low-power idle is allowed. -/
def State.helloCaps (s : State) (port : Nat) : Nat := if s.lpiEnabled port then 1 else 0
/-- Whether the port uses the extension of R346: IEEE 802.3 defines no LPI for its PHY type. -/
def State.lpiExtension (s : State) (port : Nat) : Bool := !Config.lpiStandard (s.phyType port)

/-- WAKE_US as negotiated (R344): the larger of the two wake times, 0 where low-power idle does not apply. -/
def State.negotiateLpi (s : State) (port : Nat) : State :=
  let peer := SMap.getD 0 s.peerWake port
  let ext := (SMap.getD 0 s.peerCaps port - 1).testBit 0 && SMap.getD 0 s.peerCaps port > 0 && (s.helloCaps port).testBit 0
  let ok := s.lpiEnabled port && peer > 0 && (!s.lpiExtension port || ext)
  s.setRg (Obj.WAKE_US port) (if ok then Nat.max (if port < 64 then s.rg (Obj.WAKE_REQ_US port) else 1) (peer - 1) else 0)

/-- The LLDP frame of a port: its chassis address, and the wake time that it offers where its low-power idle is allowed. -/
def State.sendLldp (s : State) (port : Nat) : State :=
  s.send port 5 0 smallWire (.lldp port (Config.portMac 0).toNat (if s.lpiEnabled port
    then some (if port < 64 then s.rg (Obj.WAKE_REQ_US port) else 1) else none))

/-- LLDP (R27, R344): the peer's chassis address, and its wake time where it carries the EEE TLV; the port answers with a frame of its
own (log 105). -/
def execLldp (port : PortId) (mac : Nat) (wake : Option Nat) (s : State) : Out :=
  takes (s.linkIsUp port) s (fun s =>
    let s := (s.received port).setRg (Obj.PEER_MAC port) mac
    let s := { s with peerWake := SMap.put 0 s.peerWake port (match wake with
      | some w => w + 1
      | none => 0) }
    (s.negotiateLpi port).sendLldp port)

/-- Whether a slice that starts at `edge` gives a port a slot that meets an interval. -/
def State.slotsMeet (s : State) (p port j k edge lo hi : Nat) : Bool :=
  let b := s.blockOf p j
  (List.range (s.slotCount b k)).any (fun n =>
    let e := s.slotEntry b k n
    s.slotPort p e == some port && edge + Ps.startNs.get e < hi && lo < edge + Ps.startNs.get e + Ps.durationNs.get e)

/-- Whether an interval is free of slots and of settlement windows of the partition that owns a port (R345), in the tick in progress
and in the next, beyond which it may not reach. -/
def State.idleInterval (s : State) (port lo hi : Nat) : Bool :=
  match s.ownerOfPort port with
  | none => true
  | some p =>
    let x := s.pt p
    let meets := fun (a b : Nat) => a < hi && lo < b
    let next := x.edgeNs + x.tickNs
    let slots := (match x.slice with
        | some r => s.slotsMeet p port r.job r.number x.edgeNs lo hi
        | none => false)
      || (match x.nextRun with
        | some (j, k) => s.slotsMeet p port j k next lo hi
        | none => false)
    let settles := match x.cursor with
      | some (j, _) => (s.settlePorts p (Job.job.get (x.job j))).contains port
      | none => false
    let window := fun (e : Nat) => meets e (e + 400) || meets (e + 3000) (e + 3400)
    hi ≤ next + x.tickNs && !slots && !(settles && (window x.edgeNs || window next))

/-- A HELLO (0x13) or SLEEP (0x14) frame of a port (R369), to DISCOVERY_GROUP. -/
def State.sendHello (s : State) (port kind sleepNs : Nat) : State :=
  s.send port 5 0 smallWire (.hello port (etherHead (s.rg Obj.DISCOVERY_GROUP) port none (s.rg Obj.FABRIC_ETHERTYPE))
    (helloPayload kind (s.helloCaps port) (s.rg Obj.MESH_SIZE) (s.rg Obj.MESH_POSITION) port sleepNs))

/-- LPI_ENTER (R345, R346): the transmitter enters low-power idle for an interval. -/
def execLpiEnter (port : PortId) (from_ until_ : Nat) (s : State) : Out :=
  let w := s.rg (Obj.WAKE_US port)
  takes (s.linkIsUp port && s.lpiEnabled port && w > 0 && s.rg (Obj.LPI_STATE port) == 0 && s.now ≤ from_ && from_ + 2000 * w + 1000 ≤ until_
      && s.idleInterval port from_ until_) s (fun s =>
    let ext := s.lpiExtension port
    let s := s.portTime port from_
    let s := if ext then s.sendHello port 0x14 (until_ - from_) else s
    { s with lpiEnd := SMap.ins s.lpiEnd port until_ }.setRg (Obj.LPI_STATE port) (if ext then 2 else 1))

/-- The transmitter of a port leaves low-power idle and may send WAKE_US from now on. -/
def State.wakeTx (s : State) (port : Nat) : State :=
  { s with lpiEnd := SMap.del s.lpiEnd port,
           txFree := SMap.ins s.txFree port (100 * (s.now + 1000 * s.rg (Obj.WAKE_US port))) }.setRg (Obj.LPI_STATE port) 0

/-- LPI_WAKE (R345): the transmitter leaves low-power idle WAKE_US before the interval ends. -/
def execLpiWake (port : PortId) (s : State) : Out :=
  takes (s.rg (Obj.LPI_STATE port) != 0) s (fun s =>
    (s.portTime port (SMap.getD 0 s.lpiEnd port - 1000 * s.rg (Obj.WAKE_US port))).wakeTx port)

/-- LPI_EARLY_WAKE (R345): an unscheduled frame became ready; it leaves after WAKE_US. -/
def execLpiEarlyWake (port : PortId) (at_ : Nat) (s : State) : Out :=
  takes (s.rg (Obj.LPI_STATE port) != 0) s (fun s =>
    ((s.portTime port at_).incRg (Obj.LPI_EARLY_WAKES port) 1).wakeTx port)

/-- SLEEP (R346): the peer's transmitter sleeps; the receive direction here is never gated. -/
def execSleep (port : PortId) (_sleepNs : Nat) (s : State) : Out := takes (s.linkIsUp port) s (fun s => s.received port)

/-! ## HELLO and wiring (R368, R369) -/

/-- HELLO_SEND (R369): every up fabric port sends one every 100 ms. -/
def execHelloSend (port : PortId) (s : State) : Out :=
  takes (port.val < 64 && s.linkIsUp port) s (fun s => s.sendHello port 0x13 0)

/-- Where port `q` of position `k` in a mesh of size `n` is cabled to: position and port (R368). -/
def meshPeer (n k q : Nat) : Nat × Nat :=
  let w := 64 / (n - 1)
  let b := q / w
  ((k + b + 1) % n, w * (n - 2 - b) + q % w)

/-- HELLO (R369): the peer as it names itself, checked against the cabling rule in a mesh. -/
def execHello (port : PortId) (caps size position number : Nat) (s : State) : Out :=
  takes (port.val < 64 && s.linkIsUp port) s (fun s =>
    let s := ((s.received port).setRg (Obj.PEER_POSITION port) position).setRg (Obj.PEER_PORT port) number
    let s := ({ s with peerCaps := SMap.ins s.peerCaps port (caps + 1) }).negotiateLpi port
    let n := s.rg Obj.MESH_SIZE
    if n = 0 then s
    else if size = n && (position, number) = meshPeer n (s.rg Obj.MESH_POSITION) port then s.setRg (Obj.WIRING port) 1
    else
      let s := s.setRg (Obj.WIRING port) 2
      if s.helloTold.testBit port then s
      else { s with helloTold := setBit s.helloTold port }.notify 0x0022 ((s.ownerOfPort port).getD 0xFF) port position)

/-! ## Discarded frames (R338, R342, R348, R353) -/

/-- DROP_QUEUE_FRAME (R338, R342, R348, R353): a frame that is discarded whole and counted. A frame that some queue takes is no such
event. -/
def execDropQueueFrame (port : PortId) (at_ : Nat) (x : FrameInfo) (fate : FrameFate) (s : State) : Out :=
  takes (s.linkIsUp port && (s.maxFrame port < x.bytes || fate != .intact || s.oddKind x || (s.steersAway port x).isSome)) s (fun s =>
    (s.arrive port at_ x fate).1)

end Sys2Proof.Machine
end

