-- ==== Sys2Proof/Machine/Transport.lean ====
section
/-!
DEFINITION. The commands of the fabric transport and of the Stream Table (10_fabric_and_ethernet.md R354 to R367): TRANSMIT_SLOT,
DATA_FRAME, NULL_FRAME, ACK, NAK, ACK_TIMEOUT, RELAY_FORWARD, STREAM_ENABLE, STREAM_DISABLE and STREAM_REPLACE.
-/

namespace Sys2Proof.Machine
open Sys2Proof

/-! ## Sending -/

/-- Whether transmit slot `n` may start: it waits, and its START_NS lies before the closing guard (R48). -/
def State.slotStarts (s : State) (p n : Nat) : Bool :=
  match s.running p with
  | some (b, k, r) => n < s.slotCount b k && Ps.direction.get (s.slotEntry b k n) == dirTx && (r.slot n).state == .waiting && !r.guard
      && Ps.startNs.get (s.slotEntry b k n) < (s.pt p).guardPos
  | none => false

/-- TRANSMIT_SLOT (R354, R359): the slot starts at START_NS; its source is read, and its frames follow one another from then on.
A slot whose alternative was not taken sends one NULL frame; an undecided branch point makes the cluster late (R40). -/
def execTransmitSlot (p : PartId) (n : Nat) (errs : AccessErrors) (s : State) : Out :=
  takes (s.slotStarts p n) s (fun s =>
    match s.running p with
    | none => s
    | some (b, k, _) =>
      let e := s.slotEntry b k n
      let start := Ps.startNs.get e
      let s := s.advanceTo p ((s.pt p).edgeNs + start)
      let null : ItemRun := ⟨.running, start, 0, [], noVersion, 1, []⟩
      let (s, x) : State × ItemRun := match s.altRead p (Ps.alt.get e) start with
        | .taken =>
          let ag : Agent := ⟨p, start, lateNetwork (s.slotQuarter p e), none⟩
          let (s, g) := s.readEnd ag errs false (endpointOf (Ps.buffer.get e)) (Ps.length.get e)
          let (s, _) := s.pathErrors ag errs
          (s, if g.moved then ⟨.running, start, 0, g.bytes, g.version, 0, g.runs⟩ else null)
        | .notTaken => (s, null)
        | .undecided c => ((s.countC c 1 c (wEvent 3) 1).lateC c, null)
      (s.modPt p (·.modSlice (·.setSlot n x))).resumeSending p)

/-- Whether the acknowledgement of a slot is overdue at the present instant (R357). -/
def State.ackOverdue (s : State) (p n : Nat) : Bool :=
  match s.running p with
  | some (b, k, r) =>
    let io := r.slotIO n
    Ps.direction.get (s.slotEntry b k n) == dirTx && (r.slot n).state == .running && io.acked < io.sent
      && Nat.max io.last (100 * io.nak) + 100 * s.rg Obj.ACK_TIMEOUT_NS ≤ 100 * s.now
  | none => false

/-- ACK_TIMEOUT (R357): the slot is sent again from its oldest unacknowledged frame. -/
def execAckTimeout (p : PartId) (n at_ : Nat) (s : State) : Out :=
  let t := s.advanceTo p at_
  takes (t.ackOverdue p n) s (fun _ =>
    (t.modPt p (·.modSlice (fun r => r.setSlotIO n { r.slotIO n with sent := (r.slotIO n).acked }))).resumeSending p)

/-! ## Receiving -/

/-- DATA_FRAME (R338, R355, R356, R363). -/
def execDataFrame (port : PortId) (at_ : Nat) (x : Arrival) (data : List Byte) (mirror : List MirrorItem) (fate : FrameFate)
    (errs : AccessErrors) (s : State) : Out :=
  let ⟨x, h⟩ := x
  takes (port.val < 64 && s.portUp port && h.kind == kdData) s (fun s =>
    let (s, ok) := s.arrive port at_ x fate
    if ok then s.frameIn port x h data (fun s p => s.takeFrame p port h data mirror errs) else s)

/-- NULL_FRAME (R359). -/
def execNullFrame (port : PortId) (at_ : Nat) (x : Arrival) (fate : FrameFate) (s : State) : Out :=
  let ⟨x, h⟩ := x
  takes (port.val < 64 && s.portUp port && h.kind == kdNull) s (fun s =>
    let (s, ok) := s.arrive port at_ x fate
    if ok then s.frameIn port x h [] (fun s p => s.takeFrame p port h [] [] AccessErrors.none) else s)

/-- ACK (R357). -/
def execAck (port : PortId) (at_ : Nat) (x : Arrival) (fate : FrameFate) (s : State) : Out :=
  let ⟨x, h⟩ := x
  takes (port.val < 64 && s.portUp port && h.kind == kdAck && !h.flags.testBit fgNak) s (fun s =>
    let (s, ok) := s.arrive port at_ x fate
    if ok then s.frameIn port x h [] (fun s p => s.takeAck p port h false) else s)

/-- NAK (R357). -/
def execNak (port : PortId) (at_ : Nat) (x : Arrival) (fate : FrameFate) (s : State) : Out :=
  let ⟨x, h⟩ := x
  takes (port.val < 64 && s.portUp port && h.kind == kdAck && h.flags.testBit fgNak) s (fun s =>
    let (s, ok) := s.arrive port at_ x fate
    if ok then s.frameIn port x h [] (fun s p => s.takeAck p port h true) else s)

/-! ## Relay (R363) -/

/-- Whether a relayed frame may start on a port at an instant: it ends before the port's next transmit slot, while none is sending,
and outside the settlement windows of R58. -/
def State.relayFits (s : State) (p port t wire : Nat) : Bool :=
  let x := s.pt p
  let lo := t - x.edgeNs
  let hi := lo + ceilDiv wire 100
  let clear := (hi ≤ 3000 && 400 ≤ lo) || (3400 ≤ lo && hi ≤ x.tickNs)
  let slots := match s.running p with
    | some (b, k, r) => (List.range (s.slotCount b k)).all (fun n =>
        let e := s.slotEntry b k n
        !(Ps.direction.get e == dirTx && s.slotPort p e == some port)
          || (match (r.slot n).state with
            | .waiting => hi ≤ Ps.startNs.get e || Ps.startNs.get e + Ps.durationNs.get e < lo
            | .running => false
            | _ => true))
    | none => true
  clear && slots

/-- RELAY_FORWARD (R363): the oldest frame that waits on a port leaves in idle time, as it arrived but for its addresses, after every
frame of another class (R343) and outside a pause. -/
def execRelayForward (port : PortId) (at_ : Nat) (s : State) : Out :=
  match SMap.getD [] s.relays port, s.ownerOfPort port with
  | (x, h, data) :: rest, some p =>
    match s.relayStream p port h with
    | none => .next ({ s with relays := SMap.put [] s.relays port rest }.incRg (Obj.RELAY_DROPS port) 1)
    | some i =>
      let wire := x.bytes + 20
      let prio := match x.vlan with
        | some t => t / 2 ^ 13
        | none => 0
      let t := s.advanceTo p at_
      takes (t.txAwake port && s.now ≤ at_ && s.relayFits p port at_ wire && t.txGate port prio ≤ 100 * at_ && (SMap.getD [] t.txq port).isEmpty) s
        (fun _ =>
          let t := { t with relays := SMap.put [] t.relays port rest }
          ((t.emit (.frame port (t.relayHead port (t.streamE i) x h data) h data)).txStart port wire (100 * at_)).incRg (Obj.RELAY_FORWARDED port) 1)
  | _, _ => .next s

/-! ## The Stream Table (R364, R367) -/

def State.streamAddr (s : State) (i : Nat) : Nat := s.rg Obj.STREAM_BASE + 128 * i
def State.streamImage (s : State) (i : Nat) : Stream := s.memRec (s.streamAddr i) 128
def State.streamStore (s : State) (i : Nat) (e : Stream) : State := s.memPut (s.streamAddr i) (leBytes 128 e.toNat)

/-- Whether a partition owns a port. -/
def State.ownsPort (s : State) (p port : Nat) : Bool :=
  match (s.pt p).built with
  | some r => r.ports.testBit port
  | none => false

/-! Addresses in network order (R544). -/
def ipMapped (a : List Byte) : Bool := a.take 12 == List.replicate 10 0 ++ [0xFF, 0xFF]
def ipUnspecified (a : List Byte) : Bool := a.all (· == 0) || (ipMapped a && (a.drop 12).all (· == 0))
def ipMulticast (a : List Byte) : Bool := a.headD 0 == 0xFF || (ipMapped a && 0xE0 ≤ (a.getD 12 0).toNat && (a.getD 12 0).toNat ≤ 0xEF)
def ipLoopback (a : List Byte) : Bool := a == List.replicate 15 0 ++ [1] || (ipMapped a && a.getD 12 0 == 0x7F)
def ipBad (a : List Byte) : Bool := ipUnspecified a || ipMulticast a || ipLoopback a

/-- Reserved bits of a Stream Table entry. -/
def streamReserved (e : Stream) : Bool :=
  Sm.rsv0.get e != 0 || Sm.rsv1.get e != 0 || Sm.rsv2.get e != 0 || Sm.primaryRsv.get e != 0 || Sm.rsv3.get e != 0 || Sm.rsv4.get e != 0
    || Sm.peerMac.get e ≥ 2 ^ 48

/-- The checks of R367 in order; `repl`: a replace of the enabled entry `i`. -/
def State.streamCheck (s : State) (id i : Nat) (e : Stream) (poison repl : Bool) : Nat :=
  let p := Sm.partition.get e
  let prim := Sm.primary.get e
  let alts := ((Stream.ports e).filter (fun k => k.1 != 0)).map (·.2.1)
  let mac := Sm.peerMac.get e
  let fp := Sm.framePayload.get e
  let old := s.streamE i
  firstCode [
    (poison, 0x04),
    (streamReserved e, 0x01),
    (p ≥ 12 || (s.pt p).built.isNone || !s.actsFor id p, 0x20),
    (Sm.encap.get e == 3 || Sm.class_.get e ≥ 4 || fp < 256 || fp > 4096 || fp % 64 != 0
      || (prim :: alts).any (fun q => Stream.frameBytes e fp > s.rg (Obj.MAX_FRAME q)), 0x21),
    (!s.ownsPort p prim || s.rg (Obj.ADMIN prim) == 0 || s.rg (Obj.WIRING prim) == 2, 0x22),
    (alts.any (fun q => !s.ownsPort p q || quarterOfPort q != quarterOfPort prim || q == prim) || alts.eraseDups.length != alts.length, 0x23),
    (mac == 0 || mac / 2 ^ 40 % 2 == 1
      || (Sm.encap.get e != 0 && (ipBad (Stream.ip e Sm.peerIp) || ipBad (Stream.ip e Sm.localIp)))
      || (Sm.encap.get e == 2 && (!ipMapped (Stream.ip e Sm.peerIp) || !ipMapped (Stream.ip e Sm.localIp))), 0x24),
    (Sm.peerModule.get e > 63 || Sm.peerStream.get e > 4095, 0x25),
    (Sm.vlanEn.get e == 1 && (Sm.vlanTci.get e % 4096 == 0 || Sm.vlanTci.get e % 4096 == 4095), 0x26),
    ((s.streams ++ s.streamPending.filter (fun kv => kv.2 != 0)).any (fun kv => kv.1 != i && Sm.enable.get kv.2 == 1
      && Sm.partition.get kv.2 == p && Sm.job.get kv.2 == Sm.job.get e && Sm.peerModule.get kv.2 == Sm.peerModule.get e
      && Sm.class_.get kv.2 == Sm.class_.get e && Sm.peerStream.get kv.2 == Sm.peerStream.get e), 0x27),
    (repl && (Sm.enable.get old == 0 || Sm.partition.get old != p || Sm.job.get old != Sm.job.get e
      || ((List.range 12).any (fun q => s.streamPinned q i) && quarterOfPort (Sm.primary.get old) != quarterOfPort prim)), 0x28)]

/-- Whether an entry is enabled, or accepted and waiting for its edge. -/
def State.streamOn (s : State) (i : Nat) : Bool :=
  Sm.enable.get (s.streamE i) == 1 || (match SMap.get? s.streamPending i with
    | some e => e != 0
    | none => false)

/-- Whether a session's role bars it from the table (0x05). -/
def State.roleBarred (s : State) (id : Nat) : Bool :=
  match s.session id with
  | some x => x.role == roleUser
  | none => true

/-- A change of stream `i` that waits for the next tick edge of its partition: the entry, or 0 for a disable. -/
def State.pendStream (s : State) (i : Nat) (e : Stream) : State :=
  { s with streamPending := SMap.ins s.streamPending i e, streamAt := SMap.ins s.streamAt i s.now }

/-- STREAM_COMMAND 0x01: the check; an accepted entry waits for the next tick edge of its partition. -/
def State.streamEnable (s : State) (id : Nat) : State :=
  let i := s.win id Obj.STREAM_INDEX
  let res := fun (t : State) (c : Nat) => t.setWin id Obj.STREAM_RESULT c
  if !s.tableSet 1 || i ≥ 4096 then res s 0x03
  else if s.roleBarred id then res s 0x05
  else if s.streamOn i then res s 0x06
  else
    let e := s.streamImage i
    let code := s.streamCheck id i e (s.imagePoison (s.streamAddr i) 128) false
    let e := Sm.enable.set (Sm.refusal.set e code) (if code = 0 then 1 else 0)
    let s := s.streamStore i e
    let s := if code = 0 then (s.pendStream i e).countStreams else s
    res s code

/-- STREAM_COMMAND 0x02: ENABLE clears at the next tick edge; an acceptance that still waits for its edge is withdrawn. -/
def State.streamDisable (s : State) (id : Nat) : State :=
  let i := s.win id Obj.STREAM_INDEX
  let res := fun (t : State) (c : Nat) => t.setWin id Obj.STREAM_RESULT c
  if !s.tableSet 1 || i ≥ 4096 then res s 0x03
  else if s.roleBarred id then res s 0x05
  else if Sm.enable.get (s.streamE i) = 1 then
    if s.actsFor id (Sm.partition.get (s.streamE i)) then res (s.pendStream i 0) 0 else res s 0x20
  else match SMap.get? s.streamPending i with
    | some e =>
      if s.actsFor id (Sm.partition.get e) then
        let s := s.streamStore i (Sm.enable.set e 0)
        res ({ s with streamPending := SMap.del s.streamPending i }).countStreams 0
      else res s 0x20
    | none => res s 0

/-- STREAM_COMMAND 0x03: the session's STREAM_IMAGE, checked, replaces the entry at the next tick edge; its counters carry over. -/
def State.streamReplace (s : State) (id : Nat) : State × Answer :=
  let i := s.win id Obj.STREAM_INDEX
  let img := s.winDom id Obj.STREAM_IMAGE
  let res := fun (t : State) (c : Nat) => (t.setWin id Obj.STREAM_RESULT c, Answer.ok)
  if img.isEmpty then (s, .of stState)
  else if !s.tableSet 1 || i ≥ 4096 then res s 0x03
  else if s.roleBarred id then res s 0x05
  else
    let e : Stream := BitVec.ofNat 1024 (leNat img)
    let code := s.streamCheck id i e false true
    if code = 0 then
      let e := Stream.carry (s.streamE i) (Sm.refusal.set (Sm.enable.set e 1) 0)
      res (s.pendStream i e) 0
    else res s code

/-- STREAM_ENABLE (R364). -/
def execStreamEnable (sess : Nat) (s : State) : Out := s.command sess Obj.STREAM_COMMAND 1 (fun s => s.streamEnable sess)

/-- STREAM_DISABLE (R364). -/
def execStreamDisable (sess : Nat) (s : State) : Out := s.command sess Obj.STREAM_COMMAND 2 (fun s => s.streamDisable sess)

/-- STREAM_REPLACE (R364). -/
def execStreamReplace (sess : Nat) (s : State) : Out := s.command sess Obj.STREAM_COMMAND 3 (fun s => (s.streamReplace sess).1)

end Sys2Proof.Machine
end

