-- ==== Sys2Proof/Machine/SlotTable.lean ====
section
/-!
DEFINITION. The tables of generation (11_generation.md R379 to R384, R395, R398, R400, R401): enable, disable and cancel of slots, pages
and prefix handles, and the replacement of weight copies.
-/

namespace Sys2Proof.Machine
open Sys2Proof

/-! ## The partition's generation objects (R379) -/

/-- KIND of KV data (R143). -/
abbrev kindKV : Nat := 4
def fmtInt32 : Nat := 0x12
def fmtBitmask : Nat := 0x13

/-- Whether an index names an enabled entry of a partition with a format, and COLS where one is asked for. -/
def State.genEntry (s : State) (p i fmt : Nat) (cols : Option Nat) : Bool :=
  s.resEnabled i && Rs.partition.get (s.resE i) == p && Rs.format.get (s.resE i) == fmt
    && (match cols with
      | some c => Rs.cols.get (s.resE i) == c
      | none => true)

/-- Every named entry is as the object table states, and every KV pool has room for its pages. -/
def State.genObjects (s : State) (p : Nat) : Bool :=
  let l := s.kvLayers p
  let list_ := s.rg (Obj.KV_POOL_LIST p)
  let named := fun (key fmt : Nat) (cols : Option Nat) => s.rg key == 0xFFFFFFFF || s.genEntry p (s.rg key) fmt cols
  l ≥ 1 && s.rg (Obj.PAGE_COUNT p) % l == 0 && s.genEntry p list_ fmtInt32 none
    && Rs.rows.get (s.resE list_) * Rs.cols.get (s.resE list_) ≥ l
    && (s.kvPools p).all (fun i =>
      let e := s.resE i
      s.resEnabled i && Rs.partition.get e == p && Rs.kind.get e == kindKV && Rs.class_.get e == 0 && Rs.buffers.get e == 0
        && s.rg (Obj.PAGE_COUNT p) / l * s.rg (Obj.PAGE_BYTES p) ≤ ResEntry.stride e)
    && s.genEntry p (s.rg (Obj.PROMPT_POOL p)) fmtInt32 none
    && s.genEntry p (s.rg (Obj.OUTPUT_POOL p)) fmtInt32 (some 8)
    && named (Obj.MASK_POOL p) fmtBitmask (some (s.rg (Obj.VOCAB p)))
    && named (Obj.AUTOMATON_POOL p) fmtInt32 (some 4)

/-- Whether a slot, page or prefix handle of a partition is enabled. -/
def State.genBusy (s : State) (p : Nat) : Bool :=
  s.slots.any (fun kv => Sl.enable.get kv.2 == 1 && Sl.partition.get kv.2 == p)
    || s.pages.any (fun kv => Pg.enable.get kv.2 == 1 && Pg.partition.get kv.2 == p)
    || s.prefixes.any (fun kv => Px.enable.get kv.2 == 1 && Px.partition.get kv.2 == p)

/-- Elements of an entry; none where no entry is named. -/
def State.elemsOf (s : State) (i : Nat) : Nat := if s.resEnabled i then Rs.rows.get (s.resE i) * Rs.cols.get (s.resE i) else 0
def State.rowsOf (s : State) (i : Nat) : Nat := if s.resEnabled i then Rs.rows.get (s.resE i) else 0

/-! ## Slots (R380, R401) -/

def slStopped (st : Nat) : Bool := st ≥ 0x10
def State.slotOn (s : State) (i : Nat) : Bool := Sl.enable.get (s.slotE i) == 1
def State.prefixOn (s : State) (i : Nat) : Bool := Px.enable.get (s.prefixE i) == 1
def State.pageOn (s : State) (i : Nat) : Bool := Pg.enable.get (s.pageE i) == 1

/-- A positive normal FP32 pattern. -/
def positiveNormal (v : Nat) : Bool := 2 ^ 23 ≤ v && v < 255 * 2 ^ 23

/-- Whether the own run of a slot keeps R380. -/
def State.ownRunOk (s : State) (p i : Nat) (e : BitVec 1024) : Bool :=
  let l := s.kvLayers p
  let f := Sl.ownFirst.get e
  let n := Sl.ownPages.get e
  let pf := s.rg (Obj.PAGE_FIRST p)
  pf ≤ f && (f - pf) % l == 0 && n % l == 0 && f + n ≤ pf + s.rg (Obj.PAGE_COUNT p) && (List.range n).all (fun k =>
    let g := s.pageE (f + k)
    Pg.enable.get g == 1 && Pg.partition.get g == p && Pg.ownerKind.get g == 1 && Pg.owner.get g == i && Pg.runPos.get g == k)

/-- Output rows that a slot needs. -/
def slotRows (e : BitVec 1024) : Nat := if Sl.mode.get e = 1 then Sl.promptTokens.get e - 1 else Sl.maxNew.get e

/-- The checks of a slot image in order. -/
def State.slotCheck (s : State) (id i : Nat) (e : BitVec 1024) (poison : Bool) : Nat :=
  let p := Sl.partition.get e
  let vocab := s.rg (Obj.VOCAB p)
  let score := Sl.mode.get e == 1
  let mm := Sl.maskMode.get e
  let pre := Sl.prefix_.get e
  let off := Sl.promptOffset.get e
  let n := Sl.promptTokens.get e
  let act := Sl.activateTick.get e
  firstCode [
    (poison, 0x04),
    (Sl.rsv0.get e != 0 || Sl.rsv7.get e != 0 || Sl.flags.get e ≥ 2, 0x01),
    (Sl.batch.get e ≥ 8, 0x02),
    (p ≥ 12 || (s.pt p).built.isNone || !s.actsFor id p || !s.genObjects p, 0x40),
    (Sl.mode.get e ≥ 2 || mm == 3 || Sl.specDepth.get e > 4 || Sl.topK.get e > 64
      || (Sl.flags.get e % 2 == 0 && !positiveNormal (Sl.invTemp.get e))
      || (List.range 4).any (fun k => (Sl.stop k).get e != 0xFFFFFFFF && (Sl.stop k).get e ≥ vocab), 0x41),
    (n == 0 || off + n > s.elemsOf (s.rg (Obj.PROMPT_POOL p))
      || (List.range n).any (fun k => s.word32 (s.rg (Obj.PROMPT_POOL p)) (off + k) ≥ vocab), 0x42),
    (Sl.outputRow.get e + slotRows e > s.rowsOf (s.rg (Obj.OUTPUT_POOL p)) || (!score && Sl.maxNew.get e == 0), 0x43),
    (!s.ownRunOk p i e || s.capacity p e < 64 * s.prefixPages e + n + 1, 0x44),
    (pre != 0xFFFFFFFF && !(s.prefixOn pre && Px.partition.get (s.prefixE pre) == p), 0x45),
    ((mm == 1 && (Sl.maskRows.get e == 0 || Sl.maskFirst.get e + Sl.maskRows.get e > s.rowsOf (s.rg (Obj.MASK_POOL p))))
      || (mm == 2 && (Sl.maskRows.get e != 0 || Sl.maskFirst.get e ≥ s.rowsOf (s.rg (Obj.AUTOMATON_POOL p))))
      || (score && mm != 0), 0x46),
    (act != 0 && act < s.rg (Obj.TICK_NUMBER p), 0x47),
    (s.slots.any (fun kv => kv.1 != i && Sl.enable.get kv.2 == 1 && Sl.partition.get kv.2 == p
      && overlaps (Sl.outputRow.get e) (slotRows e) (Sl.outputRow.get kv.2) (slotRows kv.2)), 0x48)]

def State.slotImage (s : State) (i : Nat) : BitVec 1024 := s.memRec (s.slotAddr i) 128

/-- An accepted slot with its RO fields at the start: positions begin after the prefix (R395). -/
def State.freshSlot (s : State) (e : BitVec 1024) : BitVec 1024 :=
  let z := fun (x : BitVec 1024) (f : Fld) => f.set x 0
  let e := [Sl.status, Sl.generated, Sl.tbtBreaches, Sl.cancelAck, Sl.latFlags, Sl.proposed, Sl.accepted, Sl.weightVersion, Sl.autoState,
    Sl.lastGrain].foldl z e
  Sl.enable.set (Sl.refusal.set (Sl.ttft.set (Sl.length.set e (64 * s.prefixPages e)) 0xFFFFFFFF) 0) 1

/-- REFS of a handle moved. -/
def State.refPrefix (s : State) (i : Nat) (up : Bool) : State :=
  if i = 0xFFFFFFFF || !s.prefixOn i then s
  else
    let n := Px.refs.get (s.prefixE i)
    let e := Px.refs.set (s.prefixE i) (if up then n + 1 else n - 1)
    (s.setPrefix i e).memPut (s.rg Obj.PREFIX_BASE + 32 * i) (leBytes 32 e.toNat)

/-- SLOT_COMMAND 0x01. -/
def State.slotEnable (s : State) (id : Nat) : State :=
  let i := s.win id Obj.SLOT_INDEX
  let res := fun (t : State) (c : Nat) => t.setWin id Obj.SLOT_RESULT c
  if !s.tableSet 2 || i ≥ 8192 then res s 0x03
  else if s.slotOn i then res s 0x06
  else
    let e := s.slotImage i
    let code := s.slotCheck id i e (s.imagePoison (s.slotAddr i) 128)
    if code = 0 then res (((s.setSlot i (s.freshSlot e)).slotWriteBack i).refPrefix (Sl.prefix_.get e) true) 0
    else res (s.memPut (s.slotAddr i) (leBytes 128 (Sl.enable.set (Sl.refusal.set e code) 0).toNat)) code

/-- SLOT_COMMAND 0x02: only in a stopped status (R384). -/
def State.slotDisable (s : State) (id : Nat) : State :=
  let i := s.win id Obj.SLOT_INDEX
  let res := fun (t : State) (c : Nat) => t.setWin id Obj.SLOT_RESULT c
  let e := s.slotE i
  if !s.tableSet 2 || i ≥ 8192 then res s 0x03
  else if !s.slotOn i then res s 0
  else if !s.actsFor id (Sl.partition.get e) then res s 0x40
  else if !slStopped (Sl.status.get e) then res s 0x4C
  else
    let s := s.refPrefix (Sl.prefix_.get e) false
    let s := s.memPut (s.slotAddr i) (leBytes 128 (Sl.enable.set e 0).toNat)
    let s := s.modPt (Sl.partition.get e) (fun x => { x with slotCancels := SMap.del x.slotCancels i })
    res (s.setSlot i 0) 0

/-- SLOT_COMMAND 0x03: the cancel waits for the step settlement in tick CANCEL_TICK or later (R398). -/
def State.slotCancel (s : State) (id : Nat) : State :=
  let i := s.win id Obj.SLOT_INDEX
  let t := s.win id Obj.CANCEL_TICK
  let e := s.slotE i
  let p := Sl.partition.get e
  let code := firstCode [
    (!s.tableSet 2 || i ≥ 8192, 0x03),
    (s.slotOn i && !s.actsFor id p, 0x40),
    (!s.slotOn i || (SMap.get? (s.pt p).slotCancels i).isSome || (t != 0 && t < s.rg (Obj.TICK_NUMBER p)), 0x4C)]
  let s := if code = 0 then s.modPt p (fun x => { x with slotCancels := SMap.ins x.slotCancels i t }) else s
  s.setWin id Obj.SLOT_RESULT code

/-- SLOT_ENABLE (R383, R401). -/
def execSlotEnable (sess : Nat) (s : State) : Out := s.command sess Obj.SLOT_COMMAND 1 (fun s => s.slotEnable sess)
/-- SLOT_DISABLE (R384). -/
def execSlotDisable (sess : Nat) (s : State) : Out := s.command sess Obj.SLOT_COMMAND 2 (fun s => s.slotDisable sess)
/-- SLOT_CANCEL (R398). -/
def execSlotCancel (sess : Nat) (s : State) : Out := s.command sess Obj.SLOT_COMMAND 3 (fun s => s.slotCancel sess)

/-! ## Pages (R380, R401) -/

def State.pageAddr (s : State) (i : Nat) : Nat := s.rg Obj.PAGE_BASE + 16 * i
def State.pageStore (s : State) (i : Nat) (e : BitVec 128) : State := s.memPut (s.pageAddr i) (leBytes 16 e.toNat)

/-- Whether the owner of a page is enabled. -/
def State.pageOwned (s : State) (e : BitVec 128) : Bool :=
  if Pg.ownerKind.get e = 2 then s.prefixOn (Pg.owner.get e) else s.slotOn (Pg.owner.get e)

/-- The checks of a page image in order (R380, R401); another partition's page is refused with 0x4A (R460). -/
def State.pageCheck (s : State) (id i : Nat) (e : BitVec 128) (poison : Bool) : Nat :=
  let p := Pg.partition.get e
  firstCode [
    (poison, 0x04),
    (Pg.rsv0.get e != 0 || Pg.rsv1.get e != 0 || Pg.rsv2.get e != 0, 0x01),
    (p ≥ 12 || (s.pt p).built.isNone, 0x40),
    (!s.actsFor id p, 0x4A),
    (i < s.rg (Obj.PAGE_FIRST p) || s.rg (Obj.PAGE_FIRST p) + s.rg (Obj.PAGE_COUNT p) ≤ i || Pg.ownerKind.get e != 1 || Pg.owner.get e > 8191, 0x4A),
    (s.pages.any (fun kv => kv.1 != i && Pg.enable.get kv.2 == 1 && Pg.partition.get kv.2 == p && Pg.ownerKind.get kv.2 == 1
      && Pg.owner.get kv.2 == Pg.owner.get e && Pg.runPos.get kv.2 == Pg.runPos.get e), 0x4B)]

/-- One page offered for enable. -/
def State.pageOffer (s : State) (id i : Nat) : State × Nat :=
  if !s.tableSet 3 || i ≥ 262144 then (s, 0x03)
  else if s.pageOn i then (s, 0x06)
  else
    let e : BitVec 128 := s.memRec (s.pageAddr i) 16
    let code := s.pageCheck id i e (s.imagePoison (s.pageAddr i) 16)
    let e := Pg.enable.set (Pg.refusal.set e code) (if code = 0 then 1 else 0)
    (if code = 0 then (s.setPage i e).pageStore i e else s.pageStore i e, code)

/-- One page offered for disable (R401); another partition's page is refused with 0x4A (R460). -/
def State.pageDrop (s : State) (id i : Nat) : State × Nat :=
  let e := s.pageE i
  if !s.tableSet 3 || i ≥ 262144 then (s, 0x03)
  else if !s.pageOn i then (s, 0)
  else if !s.actsFor id (Pg.partition.get e) then (s, 0x4A)
  else if s.pageOwned e then (s, 0x4A)
  else ((s.setPage i 0).pageStore i (Pg.enable.set e 0), 0)

/-- A command over the span of a session's page window, in index order. -/
def State.pageSpan (s : State) (id : Nat) (op : State → Nat → State × Nat) : State :=
  let first := s.win id Obj.PAGE_INDEX
  let (s, codes) := (List.range (s.win id Obj.PAGE_SPAN)).foldl (fun (t : State × List Nat) k =>
    let (u, c) := op t.1 (first + k)
    (u, if c = 0 then t.2 else t.2 ++ [c])) (s, [])
  (s.setWin id Obj.PAGE_RESULT (codes.headD 0)).setWin id Obj.PAGE_REFUSED codes.length

/-- PAGE_ENABLE (R380). -/
def execPageEnable (sess : Nat) (s : State) : Out :=
  s.command sess Obj.PAGE_COMMAND 1 (fun s => s.pageSpan sess (fun t i => t.pageOffer sess i))
/-- PAGE_DISABLE (R401). -/
def execPageDisable (sess : Nat) (s : State) : Out :=
  s.command sess Obj.PAGE_COMMAND 2 (fun s => s.pageSpan sess (fun t i => t.pageDrop sess i))

/-! ## Prefix handles (R395) -/

def State.prefixAddr (s : State) (i : Nat) : Nat := s.rg Obj.PREFIX_BASE + 32 * i
def State.prefixStore (s : State) (i : Nat) (e : BitVec 256) : State := s.memPut (s.prefixAddr i) (leBytes 32 e.toNat)

def State.prefixCheck (s : State) (id : Nat) (e : BitVec 256) (poison : Bool) : Nat :=
  let p := Px.partition.get e
  let i := Px.sourceSlot.get e
  let x := s.slotE i
  let n := Px.tokenPages.get e
  firstCode [
    (poison, 0x04),
    (Px.rsv0.get e != 0 || Px.rsv1.get e != 0 || Px.rsv2.get e != 0, 0x01),
    (p ≥ 12 || (s.pt p).built.isNone || !s.actsFor id p, 0x40),
    (!s.slotOn i || !slStopped (Sl.status.get x) || Sl.partition.get x != p || Sl.prefix_.get x != 0xFFFFFFFF || n == 0
      || n > Sl.length.get x / 64 || n > Sl.ownPages.get x / Nat.max 1 (s.kvLayers p), 0x49)]

/-- The pages, the source slot and the handle of an accepted prefix (R395). -/
def State.takePrefix (s : State) (i : Nat) (e : BitVec 256) : State :=
  let p := Px.partition.get e
  let k := Px.sourceSlot.get e
  let x := s.slotE k
  let n := Px.tokenPages.get e * s.kvLayers p
  let first := Sl.ownFirst.get x
  let s := (List.range n).foldl (fun t j =>
    let g := Pg.owner.set (Pg.ownerKind.set (t.pageE (first + j)) 2) i
    (t.setPage (first + j) g).pageStore (first + j) g) s
  let s := (s.setSlot k (Sl.ownPages.set (Sl.ownFirst.set x (first + n)) (Sl.ownPages.get x - n))).slotWriteBack k
  let e := Px.refs.set (Px.weightVersion.set (Px.pageFirst.set (Px.enable.set (Px.refusal.set e 0) 1) first) (Sl.weightVersion.get x)) 0
  (s.setPrefix i e).prefixStore i e

/-- PREFIX_COMMAND 0x01. -/
def State.prefixEnable (s : State) (id : Nat) : State :=
  let i := s.win id Obj.PREFIX_INDEX
  let res := fun (t : State) (c : Nat) => t.setWin id Obj.PREFIX_RESULT c
  if !s.tableSet 4 || i ≥ 65536 then res s 0x03
  else if s.prefixOn i then res s 0x06
  else
    let e : BitVec 256 := s.memRec (s.prefixAddr i) 32
    let code := s.prefixCheck id e (s.imagePoison (s.prefixAddr i) 32)
    if code = 0 then res (s.takePrefix i e) 0
    else res (s.prefixStore i (Px.enable.set (Px.refusal.set e code) 0)) code

/-- PREFIX_COMMAND 0x02. -/
def State.prefixDisable (s : State) (id : Nat) : State :=
  let i := s.win id Obj.PREFIX_INDEX
  let res := fun (t : State) (c : Nat) => t.setWin id Obj.PREFIX_RESULT c
  let e := s.prefixE i
  if !s.tableSet 4 || i ≥ 65536 then res s 0x03
  else if !s.prefixOn i then res s 0
  else if !s.actsFor id (Px.partition.get e) then res s 0x40
  else if Px.refs.get e ≠ 0 then res s 0x4C
  else res ((s.setPrefix i 0).prefixStore i (Px.enable.set e 0)) 0

/-- PREFIX_ENABLE (R395). -/
def execPrefixEnable (sess : Nat) (s : State) : Out := s.command sess Obj.PREFIX_COMMAND 1 (fun s => s.prefixEnable sess)
/-- PREFIX_DISABLE (R395). -/
def execPrefixDisable (sess : Nat) (s : State) : Out := s.command sess Obj.PREFIX_COMMAND 2 (fun s => s.prefixDisable sess)

/-! ## Copy replacement (R400) -/

/-- Whether a generation job ticks in a partition. -/
def State.generating (s : State) (p : Nat) : Bool :=
  (s.pt p).jobs.any (fun kv => Job.state.get kv.2 == jsTicking && (SMap.get? (s.pt p).descs kv.1).isSome)

/-- Whether a batch is bound to the slot that is not current. -/
def State.otherBound (s : State) (p : Nat) : Bool :=
  let x := s.pt p
  match x.copySet with
  | i :: _ => x.batches.any (fun kv => kv.2.slot != Rs.cur.get (s.resE i))
  | [] => false

/-- COPY_COMMAND 0x01 and 0x02. -/
def State.copyCommand (s : State) (id v : Nat) : State :=
  let p := s.win id Obj.COPY_PARTITION
  let t := s.win id Obj.COPY_TICK
  let code := firstCode [
    (!s.actsFor id p || !s.generating p, 2),
    (s.otherBound p, 1),
    (v == 2 && t ≤ s.rg (Obj.TICK_NUMBER p), 3),
    (v == 2 && !(s.pt p).copyPrepared, 4)]
  let s := if code ≠ 0 then s
    else s.modPt p (fun x => if v = 1 then { x with copyPrepared := true } else { x with copySwitch := some t })
  s.setWin id Obj.COPY_RESULT code

/-- COPY_PREPARE (R400). -/
def execCopyPrepare (sess : Nat) (s : State) : Out := s.command sess Obj.COPY_COMMAND 1 (fun s => s.copyCommand sess 1)
/-- COPY_SWITCH (R400). -/
def execCopySwitch (sess : Nat) (s : State) : Out := s.command sess Obj.COPY_COMMAND 2 (fun s => s.copyCommand sess 2)

end Sys2Proof.Machine
end

