-- ==== Sys2Proof/Machine/Generation.lean ====
section
/-!
DEFINITION. The step settlement of a generation job (11_generation.md R382 to R400; 14_observability.md R484): GEN_STEP_SETTLE.
-/

namespace Sys2Proof.Machine
open Sys2Proof

/-! ## EMIT row, 128 B -/
namespace Em
def choice (v : Nat) : Fld := fb (4 * v) 4
def logprob (v : Nat) : Fld := fb (0x14 + 4 * v) 4
def guess (v h : Nat) : Fld := fb (0x28 + 16 * v + 4 * (h - 1)) 4
def flags (v : Nat) : Fld := fb (0x78 + v) 1
end Em

/-! ## Shape of the lanes -/

abbrev Gdesc := BitVec 1024

/-- Lanes of a batch, and of the descriptor. -/
def Gdesc.perBatch (d : Gdesc) : Nat := Gd.decodeLanes.get d + Gd.prefillLanes.get d
def Gdesc.lanes (d : Gdesc) : Nat := Gd.batches.get d * Gdesc.perBatch d
def Gdesc.batchOf (d : Gdesc) (l : Nat) : Nat := l / Gdesc.perBatch d
/-- The micro-batch identifier of a batch. -/
def Gdesc.mb (d : Gdesc) (b : Nat) : Nat := (Gd.mbFirst.get d + b) % 2 ^ 32
/-- The decode lanes, or the prefill lanes, of a batch. -/
def Gdesc.lanesOf (d : Gdesc) (b : Nat) (decode : Bool) : List Nat :=
  if decode then (List.range (Gd.decodeLanes.get d)).map (b * Gdesc.perBatch d + ·)
  else (List.range (Gd.prefillLanes.get d)).map (b * Gdesc.perBatch d + Gd.decodeLanes.get d + ·)

/-! ## The automaton (R392, R393) -/

/-- Word `w` of row `r` of AUTOMATON_POOL; none outside the pool. -/
def State.autoWord (s : State) (p r w : Nat) : Option Nat :=
  let i := s.rg (Obj.AUTOMATON_POOL p)
  if r < s.rowsOf i then some (s.word32 i (4 * r + w)) else none

/-- The next state of an automaton after a token: none where it has none, or where a row lies outside the pool. -/
def State.autoNext (s : State) (p st t : Nat) : Option Nat :=
  match s.autoWord p st 1, s.autoWord p st 2, s.autoWord p st 3 with
  | some first, some fl, some dflt =>
    let n := fl % 2 ^ 24
    let pairs := (List.range n).map (fun k => (s.autoWord p (first + k / 2) (k % 2 * 2), s.autoWord p (first + k / 2) (k % 2 * 2 + 1)))
    if pairs.any (fun x => x.1.isNone) then none
    else
      let nx := ((pairs.find? (fun x => x.1 == some t)).bind (·.2)).getD dflt
      if (s.autoWord p nx 0).isSome then some nx else none
  | _, _, _ => none

def State.autoFinal (s : State) (p st : Nat) : Bool := ((s.autoWord p st 2).getD 0).testBit 24
def State.autoMask (s : State) (p st : Nat) : Nat := (s.autoWord p st 0).getD 0

/-- Whether row `r` of MASK_POOL allows a token; a row outside the pool allows none. -/
def State.maskAllows (s : State) (p r t : Nat) : Bool :=
  let i := s.rg (Obj.MASK_POOL p)
  let b := r * Rs.cols.get (s.resE i) + t
  r < s.rowsOf i && t < Rs.cols.get (s.resE i) && (s.memByte (ResEntry.slotAddr (s.resE i) 0 + b / 8)).getLsbD (b % 8)

/-- The walk of R393 from a state through drafts: the state before each choice, as many as there are inputs. -/
def State.autoWalk (s : State) (p st : Nat) : List Nat → List Nat
  | [] => [st]
  | t :: ts =>
    if !s.maskAllows p (s.autoMask p st) t then [st]
    else match s.autoNext p st t with
      | none => [st]
      | some nx => if s.autoFinal p nx then [st, nx] else st :: s.autoWalk p nx ts

/-! ## Emission (R387, R388, R394) -/

/-- An output record. -/
def outputRecord (token pos logprob version tick flags status : Nat) : List Byte :=
  leBytes 4 token ++ leBytes 4 pos ++ leBytes 4 logprob ++ leBytes 4 version ++ leBytes 8 tick ++ leBytes 1 flags ++ leBytes 1 status
    ++ leBytes 6 0

/-- What one lane's step has given so far. -/
structure Emission where
  e : BitVec 1024                 -- the slot's entry
  recs : List (List Byte)         -- its records, newest first
  last : Nat                      -- the input at which emission stands
  ended : Bool
  deriving DecidableEq, Repr

/-- The state of the automaton and the stop status after a token is emitted at position `pos`; 0: the slot goes on. -/
def State.afterToken (s : State) (p : Nat) (e : BitVec 1024) (tok pos : Nat) : BitVec 1024 × Nat :=
  let e := Sl.generated.set e (Sl.generated.get e + 1)
  let auto := Sl.maskMode.get e == 2
  let nx := s.autoNext p (Sl.autoState.get e) tok
  let e := match auto, nx with
    | true, some n => Sl.autoState.set e n
    | _, _ => e
  let st := if tok ≠ 0xFFFFFFFF && (List.range 4).any (fun k => (Sl.stop k).get e == tok) then slDoneStop
    else if auto && nx.isNone then slAutomatonFault
    else if auto && s.autoFinal p (nx.getD 0) then slDoneAutomaton
    else if Sl.generated.get e ≥ Sl.maxNew.get e then slDoneLimit
    else if pos + 1 ≥ s.capacity p e then slDoneContext
    else 0
  (e, st)

/-- The choice at input `v` of a lane (R387). `x`: the inputs; `row`: the EMIT row; `pos`: the position of input 0. -/
def State.emitAt (s : State) (p n version pos d : Nat) (x : List Nat) (row : BitVec 1024) (m : Emission) (v : Nat) : Emission :=
  if m.ended || (v > 0 && x.getD v 0 ≠ (Em.choice (v - 1)).get row) then { m with ended := true }
  else
    let fl := (Em.flags v).get row
    let tok := (Em.choice v).get row
    if fl.testBit 1 then { m with e := Sl.status.set m.e slNonfinite, ended := true }
    else if fl.testBit 0 then { m with e := Sl.status.set m.e slNoToken, ended := true }
    else
      let (e, st) := s.afterToken p m.e tok (pos + v + 1)
      let e := Sl.status.set e (if st = 0 then slDecode else st)
      let drafted := st == 0 && v < d && x.getD (v + 1) 0 == tok
      let fin := slDoneStop ≤ st && st ≤ slDoneScored
      ⟨e, outputRecord tok (pos + v + 1) ((Em.logprob v).get row) version n ((if fin then 1 else 0) + (if drafted then 2 else 0)) (Sl.status.get e)
        :: m.recs, v, st ≠ 0⟩

/-- The records of a slot stored from row `first` on. -/
def State.storeRecords (s : State) (p first : Nat) (recs : List (List Byte)) : State :=
  let i := s.rg (Obj.OUTPUT_POOL p)
  let a := ResEntry.curAddr (s.resE i) + 32 * first
  let s := ((List.range recs.length).zip recs).foldl (fun (t : State) r => t.memWrite (a + 32 * r.1) (goodBytes r.2)) s
  if recs.isEmpty then s else (s.tear p i (Rs.cur.get (s.resE i))).incRg (Obj.RECORDS_WRITTEN p) recs.length

/-- TTFT and LAST_GRAIN of a slot whose step wrote records (R397). -/
def wroteAt (e : BitVec 1024) (g edge : Nat) : BitVec 1024 :=
  let e := if Sl.ttft.get e = 0xFFFFFFFF then Sl.ttft.set e (g - edge) else e
  Sl.lastGrain.set e g

/-- The inputs of the next step: the last emitted token and the guesses that follow it (R389). -/
def nextInputs (row : BitVec 1024) (v : Nat) : List Nat := (Em.choice v).get row :: (List.range 4).map (fun h => (Em.guess v (h + 1)).get row)

/-- A decode lane, or a prefill lane with LAST_CHUNK: the slot emits. `pos` is the position of input 0 and `d` the drafts. -/
def State.applyEmit (s : State) (p n g l i version pos d : Nat) (dg : Gdesc) (run : SlotRun) : State :=
  let x := SMap.getD [] (s.pt p).laneInputs l
  let a := ResEntry.curAddr (s.resE (Gd.emit.get dg)) + 128 * l
  let row : BitVec 1024 := s.memRec a 128
  let e := Sl.weightVersion.set (s.slotE i) version
  let m := (List.range (d + 1)).foldl (s.emitAt p n version pos d x row) ⟨e, [], 0, false⟩
  let k := m.recs.length
  let e := Sl.proposed.set m.e (Sl.proposed.get m.e + d)
  let e := Sl.accepted.set e (Sl.accepted.get e + (k - 1))
  let e := if k > 0 then wroteAt (Sl.length.set e (pos + k + 1)) g run.edge else e
  let s := (s.storeRecords p (Sl.outputRow.get e + Sl.generated.get (s.slotE i)) m.recs.reverse).setSlot i e
  let s := (s.incRg (Obj.DRAFTS_PROPOSED p) d).incRg (Obj.DRAFTS_ACCEPTED p) (k - 1)
  let s := if Sl.status.get e = slAutomatonFault then s.incRg (Obj.AUTOMATON_FAULTS p) 1 else s
  if k > 0 then s.modPt p (fun y => { y with slotRuns := SMap.ins y.slotRuns i { run with inputs := nextInputs row m.last } }) else s

/-- A prefill lane of a SCORE slot: a record for every prompt token after the first (R387). -/
def State.applyScore (s : State) (p n g l i version : Nat) (dg : Gdesc) (r : BitVec 512) (run : SlotRun) : State :=
  let x := SMap.getD [] (s.pt p).laneInputs l
  let e := Sl.weightVersion.set (s.slotE i) version
  let start := 64 * s.prefixPages e
  let pos := Ln.position.get r
  let cnt := Ln.inputs.get r
  let last := Ln.lastChunk.get r == 1
  let a := ResEntry.curAddr (s.resE (Gd.scoreEmit.get dg)) + 4 * Rs.cols.get (s.resE (Gd.scoreEmit.get dg)) * l
  let ks := (List.range cnt).filter (fun k => pos + k > start)
  let recs := ks.map (fun k =>
    let fin := last && k + 1 == cnt
    outputRecord (x.getD k 0) (pos + k) (s.memLE (a + 4 * k) 4) version n (if fin then 5 else 4) (if fin then slDoneScored else slPrefill))
  let row := Sl.outputRow.get e + Sl.generated.get e
  let e := Sl.length.set (Sl.generated.set e (Sl.generated.get e + recs.length)) (pos + cnt)
  let e := if last then Sl.status.set e slDoneScored else e
  let e := if recs.isEmpty then e else wroteAt e g run.edge
  (s.storeRecords p row recs).setSlot i e

/-- A lane applied (R387). `drops`: the identifiers dropped in the step; `n`, `g`: the settling tick and its edge grain. -/
def State.applyLane (s : State) (p n g : Nat) (dg : Gdesc) (drops : List Nat) (l : Nat) : State :=
  let r := (s.pt p).lane l
  let b := Gdesc.batchOf dg l
  let i := Ln.slot.get r
  match Ln.kind.get r, SMap.get? (s.pt p).slotRuns i with
  | 0, _ => s
  | _, none => s
  | k, some run =>
    if drops.contains (Gdesc.mb dg b) then s.incRg (Obj.STEPS_DROPPED p) 1
    else
      let version := (SMap.getD (⟨0, 0⟩ : Binding) (s.pt p).batches b).version
      if k = 2 then s.applyEmit p n g l i version (Ln.position.get r) (Ln.drafts.get r) dg run
      else if (Ln.flags.get r).testBit 1 then s.applyScore p n g l i version dg r run
      else if Ln.lastChunk.get r = 1 then
        let s := s.applyEmit p n g l i version (Ln.position.get r + Ln.inputs.get r - 1) 0 dg run
        s.modPt p (fun y => { y with slotRuns := y.slotRuns.map (fun kv => if kv.1 == i then (kv.1, { kv.2 with lane := none }) else kv) })
      else s.setSlot i (Sl.weightVersion.set (Sl.length.set (s.slotE i) (Ln.position.get r + Ln.inputs.get r)) version)

/-! ## Speculation that did not pay (R484) -/

/-- Slots moved from retired to wasted for batch `b`: `before` are the slots' entries before the step, `tags` the step's slots. -/
def State.specWaste (s : State) (p : Nat) (dg : Gdesc) (drops : List Nat) (tags : SMap Nat) (before : State) (b : Nat) : State :=
  if drops.contains (Gdesc.mb dg b) then s
  else
    let ls := (List.range (Gdesc.perBatch dg)).map (fun k => (before.pt p).lane (b * Gdesc.perBatch dg + k))
    let ls := ls.filter (fun r => Ln.kind.get r != 0)
    let used := (ls.map Ln.inputs.get).sum
    let moved := fun (f : Fld) (i : Nat) => f.get (s.slotE i) - f.get (before.slotE i)
    let wasted := ((ls.filter (fun r => Ln.kind.get r == 2)).map (fun r => moved Sl.proposed (Ln.slot.get r) - moved Sl.accepted (Ln.slot.get r))).sum
    let n := if used = 0 then 0 else SMap.getD 0 tags (Gdesc.mb dg b) * wasted / used
    let shift := fun (t : State) (src dst : Nat) => (t.setRg src (t.rg src - n)).incRg dst n
    if n = 0 then s
    else (shift (shift s (Obj.STEP_SLOTS p 0) (Obj.STEP_SLOTS p 1)) (Obj.TOTAL_SLOTS p 0) (Obj.TOTAL_SLOTS p 1)).incRg (Obj.WASTED_SPEC p) n

/-! ## Latency (R397) -/

/-- The breaches of an active slot at a settlement, judged on what it had written before. -/
def State.latency (s : State) (p g i : Nat) (run : SlotRun) : State × Nat :=
  let e := s.slotE i
  let last := Sl.lastGrain.get e
  if Sl.generated.get e = 0 then
    if Sl.ttftBudget.get e ≠ 0 && g - run.edge > Sl.ttftBudget.get e && !(Sl.latFlags.get e).testBit 0
    then ((s.setSlotFld i Sl.latFlags (setBit (Sl.latFlags.get e) 0)).incRg (Obj.TTFT_BREACHES p) 1, 1) else (s, 0)
  else if Sl.tbtBudget.get e ≠ 0 && g - last > Sl.tbtBudget.get e && run.told ≠ last + 1 then
    let s := (s.setSlotFld i Sl.tbtBreaches (Sl.tbtBreaches.get e + 1)).incRg (Obj.TBT_BREACHES p) 1
    (s.modPt p (fun y => { y with slotRuns := SMap.ins y.slotRuns i { run with told := last + 1 } }), 1)
  else (s, 0)

/-- Every active slot measured; one notice a tick (R397). -/
def State.measureLatency (s : State) (p g : Nat) : State :=
  let (s, hit) := (s.pt p).slotRuns.foldl (fun (t : State × List Nat) kv =>
    let (u, n) := t.1.latency p g kv.1 kv.2
    (u, if n > 0 then t.2 ++ [kv.1] else t.2)) (s, [])
  match hit with
  | [] => s
  | i :: _ => s.notify 0x0051 p hit.length i

/-! ## Cancels and activations (R383, R396, R398) -/

/-- A cancel takes effect. `gone`: the slots that this settlement's own tokens stopped. -/
def State.applySlotCancel (s : State) (p i : Nat) : State :=
  let st := Sl.status.get (s.slotE i)
  let s := s.modPt p (fun y => { y with slotCancels := SMap.del y.slotCancels i })
  let put := fun (t : State) (st ack : Nat) => (t.setSlotFld i Sl.status st).setSlotFld i Sl.cancelAck ack
  if st = slIdle then put s slCancelled 3
  else if slStopped st then s.setSlotFld i Sl.cancelAck 2
  else put s slCancelled 1

/-- Pending cancels whose tick has come, in index order. -/
def State.applySlotCancels (s : State) (p n : Nat) : State :=
  ((s.pt p).slotCancels.filter (fun kv => kv.2 ≤ n)).foldl (fun t kv => t.applySlotCancel p kv.1) s

/-- Stopped slots leave their lanes. -/
def State.freeStopped (s : State) (p : Nat) : State :=
  s.modPt p (fun y => { y with slotRuns := y.slotRuns.filter (fun kv => !slStopped (Sl.status.get (s.slotE kv.1))) })

/-- The version of the batch that a slot would join. -/
def State.joinVersion (s : State) (p : Nat) (dg : Gdesc) (b : Nat) : Nat :=
  match SMap.get? (s.pt p).batches b with
  | some x => x.version
  | none => Rs.version.get (s.resE (Gd.versionEntry.get dg))

/-- A slot becomes active (R383, R396). -/
def State.activateSlot (s : State) (p n g : Nat) (dg : Gdesc) (i : Nat) : State :=
  let e := s.slotE i
  let pre := Sl.prefix_.get e
  let s := s.incRg (Obj.SLOTS_ACTIVATED p) 1
  if pre ≠ 0xFFFFFFFF && Px.weightVersion.get (s.prefixE pre) ≠ s.joinVersion p dg (Sl.batch.get e) then s.setSlotFld i Sl.status slPrefixStale
  else
    let s := if Sl.maskMode.get e = 2 then s.setSlotFld i Sl.autoState (Sl.maskFirst.get e) else s
    (s.setSlotFld i Sl.status slPrefill).modPt p (fun y => { y with slotRuns := SMap.ins y.slotRuns i ⟨n, g, none, [], 0⟩ })

/-- Slots that become active at a step settlement, in index order. -/
def State.activateSlots (s : State) (p n g : Nat) (dg : Gdesc) : State :=
  let first := Gd.slotFirst.get dg
  (s.slots.filter (fun kv => Sl.enable.get kv.2 == 1 && Sl.partition.get kv.2 == p && Sl.status.get kv.2 == slIdle && first ≤ kv.1
    && kv.1 < first + Gd.slotCount.get dg && Sl.batch.get kv.2 < Gd.batches.get dg && Sl.activateTick.get kv.2 ≤ n)).foldl
    (fun t kv => t.activateSlot p n g dg kv.1) s

/-! ## Lanes and bindings (R389, R399) -/

/-- A waiting slot placed by activation and then by index. -/
def insertWait (x : Nat × SlotRun) : List (Nat × SlotRun) → List (Nat × SlotRun)
  | [] => [x]
  | y :: ys => if x.2.since < y.2.since || (x.2.since == y.2.since && x.1 < y.1) then x :: y :: ys else y :: insertWait x ys

/-- A waiting slot takes the lowest free lane of its kind and batch. -/
def State.assignLane (s : State) (p : Nat) (dg : Gdesc) (i : Nat) : State :=
  let e := s.slotE i
  let used := (s.pt p).slotRuns.filterMap (·.2.lane)
  match (Gdesc.lanesOf dg (Sl.batch.get e) (Sl.status.get e == slDecode)).find? (fun l => !used.contains l) with
  | some l => s.modPt p (fun y => { y with slotRuns := y.slotRuns.map (fun kv => if kv.1 == i then (kv.1, { kv.2 with lane := some l }) else kv) })
  | none => s

def State.assignLanes (s : State) (p : Nat) (dg : Gdesc) : State :=
  let wait := ((s.pt p).slotRuns.filter (fun kv => kv.2.lane.isNone)).foldl (fun l x => insertWait x l) []
  wait.foldl (fun t x => t.assignLane p dg x.1) s

/-- A batch binds when a lane of it first holds a slot, and unbinds when none does. -/
def State.bindBatch (s : State) (p : Nat) (dg : Gdesc) (b : Nat) : State :=
  let holds := (s.pt p).slotRuns.any (fun kv => match kv.2.lane with
    | some l => Gdesc.batchOf dg l == b
    | none => false)
  match holds, SMap.get? (s.pt p).batches b with
  | true, none =>
    let slot := match (s.pt p).copySet with
      | c :: _ => Rs.cur.get (s.resE c)
      | [] => 0
    s.modPt p (fun y => { y with batches := SMap.ins y.batches b ⟨slot, Rs.version.get (s.resE (Gd.versionEntry.get dg))⟩ })
  | false, some _ => s.modPt p (fun y => { y with batches := SMap.del y.batches b })
  | _, _ => s

/-! ## The records of the next step (R385, R389, R393) -/

/-- The mask rows of a lane's choices, as many as it has: the row of each input. -/
def State.maskRows (s : State) (e : BitVec 1024) (p : Nat) (states : List Nat) (n : Nat) : List Nat :=
  match Sl.maskMode.get e with
  | 1 => (List.range n).map (fun v => Sl.maskFirst.get e + Nat.min (Sl.generated.get e + v) (Sl.maskRows.get e - 1))
  | 2 => (states.take n).map (s.autoMask p)
  | _ => []

/-- The lane record of a slot in a lane, and its inputs. -/
def State.buildLane (s : State) (p i : Nat) (dg : Gdesc) (run : SlotRun) : BitVec 512 × List Nat :=
  let e := s.slotE i
  let cap := s.capacity p e
  let len := Sl.length.get e
  let put := fun (r : BitVec 512) (f : Fld) (v : Nat) => f.set r v
  let base := put (put (put (put (put (put 0 Ln.slot i) Ln.length len) Ln.topK (Sl.topK.get e)) Ln.invTemp (Sl.invTemp.get e))
    Ln.sampleSeed (Sl.sampleSeed.get e)) Ln.capacity cap
  let base := put base Ln.flags (Sl.flags.get e % 2 + (if Sl.mode.get e = 1 then 2 else 0))
  let masks := fun (r : BitVec 512) (rows : List Nat) =>
    ((List.range rows.length).zip rows).foldl (fun r x => put r (Ln.maskRow x.1) x.2) (put r Ln.masked (2 ^ rows.length - 1))
  if Sl.status.get e = slDecode then
    let room := Nat.min (Nat.min (Sl.specDepth.get e) (Gd.specMax.get dg)) (Nat.min (Sl.maxNew.get e - Sl.generated.get e - 1) (cap - len - 1))
    let drafts := (run.inputs.drop 1).take room
    let states := s.autoWalk p (Sl.autoState.get e) drafts
    let d := if Sl.maskMode.get e = 2 then states.length - 1 else drafts.length
    let r := put (put (put (put base Ln.kind 2) Ln.drafts d) Ln.inputs (d + 1)) Ln.position (len - 1)
    (masks r (s.maskRows e p states (d + 1)), run.inputs.take (d + 1))
  else
    let start := 64 * s.prefixPages e
    let left := start + Sl.promptTokens.get e - len
    let n := Nat.min (Gd.prefillChunk.get dg) left
    let last := n == left
    let r := put (put (put (put base Ln.kind 1) Ln.inputs n) Ln.position len) Ln.lastChunk (if last then 1 else 0)
    let rows := if last && Sl.mode.get e == 0 then s.maskRows e p [Sl.autoState.get e] 1 else []
    (masks r rows, (List.range n).map (fun k => s.word32 (s.rg (Obj.PROMPT_POOL p)) (Sl.promptOffset.get e + (len - start) + k)))

/-- The row of a batch. -/
def batchRow (x : Option Binding) : List Byte :=
  match x with
  | some b => leBytes 1 1 ++ leBytes 1 b.slot ++ leBytes 2 0 ++ leBytes 4 b.version ++ leBytes 8 0
  | none => leBytes 16 0

/-- Rows written to an entry by the module at a step settlement: they stand in its other slot, where it has one, which becomes
current; reads see the former state until 20,000 ns (R385). -/
def State.writeRows (s : State) (p i : Nat) (rows : List (Nat × List Byte)) : State :=
  let e := s.resE i
  let cur := Rs.cur.get e
  let k := if Rs.buffers.get e = 0 then cur else if cur = 0 then 1 else 0
  let s := s.keepFormer p i 20000
  let s := rows.foldl (fun (t : State) r => t.memWrite (ResEntry.slotAddr e k + r.1) (goodBytes r.2)) s
  ((s.setResFld i Rs.cur k).advance i).tear p i k

/-- LANE_RECORD, LANE_INPUTS and BATCH_RECORD of the next step. -/
def State.writeLanes (s : State) (p : Nat) (dg : Gdesc) : State :=
  let s := s.modPt p (fun y => { y with lanes := [], laneInputs := [] })
  let s := (s.pt p).slotRuns.foldl (fun t kv => match kv.2.lane with
    | some l =>
      let (r, x) := t.buildLane p kv.1 dg kv.2
      t.modPt p (fun y => { y with lanes := SMap.put laneEmpty y.lanes l r, laneInputs := SMap.put [] y.laneInputs l x })
    | none => t) s
  let x := s.pt p
  let ls := List.range (Gdesc.lanes dg)
  let cols := Rs.cols.get (s.resE (Gd.laneInputs.get dg))
  let s := s.writeRows p (Gd.laneRecord.get dg) (ls.map (fun l => (64 * l, leBytes 64 (x.lane l).toNat)))
  let s := s.writeRows p (Gd.laneInputs.get dg) (ls.map (fun l => (4 * cols * l, (SMap.getD [] x.laneInputs l).flatMap (leBytes 4))))
  s.writeRows p (Gd.batchRecord.get dg) ((List.range (Gd.batches.get dg)).map (fun b => (16 * b, batchRow (SMap.get? x.batches b))))

/-! ## The settlement -/

/-- The slots of a partition that are enabled and have not stopped. -/
def State.liveSlots (s : State) (p : Nat) : List Nat :=
  (s.slots.filter (fun kv => Sl.enable.get kv.2 == 1 && Sl.partition.get kv.2 == p && !slStopped (Sl.status.get kv.2))).map (·.1)

/-- SLOTS_STOPPED and the notice of the slots that stopped (R394). -/
def State.tellStopped (s : State) (p : Nat) (live : List Nat) : State :=
  let gone := live.filter (fun i => slStopped (Sl.status.get (s.slotE i)))
  match gone with
  | [] => s
  | i :: _ => (s.incRg (Obj.SLOTS_STOPPED p) gone.length).notify 0x0050 p gone.length i

/-- The step settlement of a generation job with descriptor `dg` (R387): latency, lanes, cancels, activations, lane assignment,
bindings and records. -/
def State.genStep (s : State) (p : Nat) (dg : Gdesc) (drops : List Nat) (tags : SMap Nat) : State :=
  let n := (s.pt p).gen.tick
  let g := (s.pt p).gen.start
  let live := s.liveSlots p
  let before := s
  let s := s.measureLatency p g
  let s := (List.range (Gdesc.lanes dg)).foldl (fun t l => t.applyLane p n g dg drops l) s
  let s := (List.range (Gd.batches.get dg)).foldl (fun t b => t.specWaste p dg drops tags before b) s
  let s := (s.applySlotCancels p n).freeStopped p
  let s := (s.activateSlots p n g dg).assignLanes p dg
  let s := (List.range (Gd.batches.get dg)).foldl (fun t b => t.bindBatch p dg b) s
  let s := (s.writeLanes p dg).tellStopped p live
  let s := ((s.slots.filter (fun kv => Sl.partition.get kv.2 == p)).map (·.1)).foldl (fun t i => t.slotWriteBack i) s
  s.modPt p (fun y => { y with genStart := n })

/-- GEN_STEP_SETTLE (R387): between positions 9,000 and 20,000 ns of the tick in which a step of a generation job settles. -/
def execGenStepSettle (p : PartId) (s : State) : Out :=
  let x := s.pt p
  match x.genDue, x.settling with
  | some due, some z => takes z.recorded s (fun s =>
      let s := s.at (x.edgeNs + 20000)
      let s := match SMap.get? x.descs z.job with
        | some dg => if s.jobState p z.job == jsTicking || x.genEnd == some z.job then s.genStep p dg due.1 due.2 else s
        | none => s
      (s.modPt p (fun y => { y with genDue := none })).endGen p)
  | _, _ => .next s

end Sys2Proof.Machine
end

