-- ==== Sys2Proof/Machine/Sha.lean ====
section
/-!
DEFINITION. The cryptographic functions that the spec names (13_management.md R445, R446; 15_security_and_images.md R499;
12_resilience.md R433): SHA-512, HMAC-SHA-512, RSA-PSS verification and the tree hash. Their definitions are those of FIPS 180-4,
RFC 2104 and RFC 8017, which the spec names and does not repeat (PRESUMED, log 8).
-/

namespace Sys2Proof.Machine
open Sys2Proof

/-! ## SHA-512 -/

/-- The round constants. -/
def shaK : List Word :=
  [0x428A2F98D728AE22, 0x7137449123EF65CD, 0xB5C0FBCFEC4D3B2F, 0xE9B5DBA58189DBBC, 0x3956C25BF348B538, 0x59F111F1B605D019, 0x923F82A4AF194F9B, 0xAB1C5ED5DA6D8118]
    ++ [0xD807AA98A3030242, 0x12835B0145706FBE, 0x243185BE4EE4B28C, 0x550C7DC3D5FFB4E2, 0x72BE5D74F27B896F, 0x80DEB1FE3B1696B1, 0x9BDC06A725C71235, 0xC19BF174CF692694]
    ++ [0xE49B69C19EF14AD2, 0xEFBE4786384F25E3, 0x0FC19DC68B8CD5B5, 0x240CA1CC77AC9C65, 0x2DE92C6F592B0275, 0x4A7484AA6EA6E483, 0x5CB0A9DCBD41FBD4, 0x76F988DA831153B5]
    ++ [0x983E5152EE66DFAB, 0xA831C66D2DB43210, 0xB00327C898FB213F, 0xBF597FC7BEEF0EE4, 0xC6E00BF33DA88FC2, 0xD5A79147930AA725, 0x06CA6351E003826F, 0x142929670A0E6E70]
    ++ [0x27B70A8546D22FFC, 0x2E1B21385C26C926, 0x4D2C6DFC5AC42AED, 0x53380D139D95B3DF, 0x650A73548BAF63DE, 0x766A0ABB3C77B2A8, 0x81C2C92E47EDAEE6, 0x92722C851482353B]
    ++ [0xA2BFE8A14CF10364, 0xA81A664BBC423001, 0xC24B8B70D0F89791, 0xC76C51A30654BE30, 0xD192E819D6EF5218, 0xD69906245565A910, 0xF40E35855771202A, 0x106AA07032BBD1B8]
    ++ [0x19A4C116B8D2D0C8, 0x1E376C085141AB53, 0x2748774CDF8EEB99, 0x34B0BCB5E19B48A8, 0x391C0CB3C5C95A63, 0x4ED8AA4AE3418ACB, 0x5B9CCA4F7763E373, 0x682E6FF3D6B2B8A3]
    ++ [0x748F82EE5DEFB2FC, 0x78A5636F43172F60, 0x84C87814A1F0AB72, 0x8CC702081A6439EC, 0x90BEFFFA23631E28, 0xA4506CEBDE82BDE9, 0xBEF9A3F7B2C67915, 0xC67178F2E372532B]
    ++ [0xCA273ECEEA26619C, 0xD186B8C721C0C207, 0xEADA7DD6CDE0EB1E, 0xF57D4F7FEE6ED178, 0x06F067AA72176FBA, 0x0A637DC5A2C898A6, 0x113F9804BEF90DAE, 0x1B710B35131C471B]
    ++ [0x28DB77F523047D84, 0x32CAAB7B40C72493, 0x3C9EBE0A15C9BEBC, 0x431D67C49C100D4C, 0x4CC5D4BECB3E42B6, 0x597F299CFC657E2A, 0x5FCB6FAB3AD6FAEC, 0x6C44198C4A475817]
/-- The initial hash value. -/
def shaInit : List Word :=
  [0x6A09E667F3BCC908, 0xBB67AE8584CAA73B, 0x3C6EF372FE94F82B, 0xA54FF53A5F1D36F1]
    ++ [0x510E527FADE682D1, 0x9B05688C2B3E6C1F, 0x1F83D9ABFB41BD6B, 0x5BE0CD19137E2179]

def rotr (x : Word) (n : Nat) : Word := x.rotateRight n
def shaBig0 (x : Word) : Word := rotr x 28 ^^^ rotr x 34 ^^^ rotr x 39
def shaBig1 (x : Word) : Word := rotr x 14 ^^^ rotr x 18 ^^^ rotr x 41
def shaSmall0 (x : Word) : Word := rotr x 1 ^^^ rotr x 8 ^^^ (x >>> 7)
def shaSmall1 (x : Word) : Word := rotr x 19 ^^^ rotr x 61 ^^^ (x >>> 6)

/-- The message schedule: `n` more words onto the words so far, newest first. -/
def shaExpand : Nat → List Word → List Word
  | 0, ws => ws
  | n + 1, ws => shaExpand n ((shaSmall1 (ws.getD 1 0) + ws.getD 6 0 + shaSmall0 (ws.getD 14 0) + ws.getD 15 0) :: ws)

/-- The eight working variables. -/
structure ShaVars where
  a : Word
  b : Word
  c : Word
  d : Word
  e : Word
  f : Word
  g : Word
  h : Word
  deriving DecidableEq, Repr

def ShaVars.round (v : ShaVars) (kw : Word × Word) : ShaVars :=
  let t1 := v.h + shaBig1 v.e + ((v.e &&& v.f) ^^^ (~~~v.e &&& v.g)) + kw.1 + kw.2
  let t2 := shaBig0 v.a + ((v.a &&& v.b) ^^^ (v.a &&& v.c) ^^^ (v.b &&& v.c))
  ⟨t1 + t2, v.a, v.b, v.c, v.d + t1, v.e, v.f, v.g⟩

def ShaVars.ofList (l : List Word) : ShaVars :=
  ⟨l.getD 0 0, l.getD 1 0, l.getD 2 0, l.getD 3 0, l.getD 4 0, l.getD 5 0, l.getD 6 0, l.getD 7 0⟩
def ShaVars.toList (v : ShaVars) : List Word := [v.a, v.b, v.c, v.d, v.e, v.f, v.g, v.h]

/-- A message cut into pieces of `k` bytes; the last may be shorter. -/
def cutBytes (k : Nat) : Nat → List Byte → List (List Byte)
  | 0, _ => []
  | n + 1, l => if l.isEmpty then [] else l.take k :: cutBytes k n (l.drop k)

/-- One block of 128 bytes. -/
def shaBlock (h : List Word) (blk : List Byte) : List Word :=
  let ws := (cutBytes 8 16 blk).map (fun b => BitVec.ofNat 64 (beNat b))
  let all := (shaExpand 64 ws.reverse).reverse
  let v := (shaK.zip all).foldl ShaVars.round (ShaVars.ofList h)
  (h.zip v.toList).map (fun x => x.1 + x.2)

/-- The padded message. -/
def shaPad (m : List Byte) : List Byte :=
  m ++ [0x80] ++ List.replicate ((128 - (m.length + 17) % 128) % 128) 0 ++ beBytes 16 (8 * m.length)

/-- SHA-512. -/
def sha512 (m : List Byte) : List Byte :=
  let p := shaPad m
  ((cutBytes 128 (p.length / 128) p).foldl shaBlock shaInit).flatMap (fun w => beBytes 8 w.toNat)

/-- HMAC-SHA-512. -/
def hmac512 (key m : List Byte) : List Byte :=
  let k := if key.length > 128 then sha512 key else key
  let k := k ++ List.replicate (128 - k.length) 0
  sha512 (k.map (· ^^^ 0x5C) ++ sha512 (k.map (· ^^^ 0x36) ++ m))

/-! ## RSA-PSS under SHA-512, with MGF1 under SHA-512 and a salt of 64 bytes -/

/-- `b ^ e mod n`, over the low `k` bits of the exponent from the top. -/
def modExp (b n e : Nat) : Nat → Nat
  | 0 => 1 % n
  | k + 1 =>
    let r := modExp b n (e / 2) k
    let q := r * r % n
    if e % 2 = 1 then q * b % n else q

/-- MGF1: `len` bytes from a seed. -/
def mgf1 (seed : List Byte) (len : Nat) : List Byte :=
  ((List.range (ceilDiv len 64)).flatMap (fun i => sha512 (seed ++ beBytes 4 i))).take len

/-- EMSA-PSS verification of an encoded message of 512 bytes whose first bit is not used. -/
def pssOk (mHash em : List Byte) : Bool :=
  let db := em.take 447
  let h := (em.drop 447).take 64
  let mask := mgf1 h 447
  let d := (db.zip mask).map (fun x => x.1 ^^^ x.2)
  let d := (d.head?.getD 0 &&& 0x7F) :: d.drop 1
  em.getLastD 0 == 0xBC && !(em.head?.getD 0).getLsbD 7 && (d.take 382).all (· == 0) && d.getD 382 0 == 1
    && h == sha512 (List.replicate 8 0 ++ mHash ++ d.drop 383)

/-- Verification of a signature of 512 bytes over a message, by a 4,096-bit modulus and a public exponent. -/
def rsaPssVerify (modulus exponent sig m : List Byte) : Bool :=
  let n := beNat modulus
  let x := beNat sig
  n ≥ 2 ^ 4095 && sig.length == 512 && x < n && pssOk (sha512 m) (beBytes 512 (modExp x n (beNat exponent) 32))

/-- The hash of a public key (R445). -/
def keyHash (modulus exponent : List Byte) : List Byte := sha512 (modulus ++ exponent)

/-! ## The tree hash (R433) -/

/-- One level of nodes, pairwise from the left; an unpaired node is carried up. -/
def treeLevel : List (List Byte) → List (List Byte)
  | a :: b :: l => sha512 (0x01 :: (a ++ b)) :: treeLevel l
  | l => l

/-- The root over a list of nodes; `k` bounds the levels. -/
def treeRoot : Nat → List (List Byte) → List Byte
  | 0, l => l.headD []
  | k + 1, l => if l.length ≤ 1 then l.headD [] else treeRoot k (treeLevel l)

/-- The tree hash over leaves of 1 MiB. -/
def treeHash (bs : List Byte) : List Byte :=
  let leaves := (cutBytes (2 ^ 20) (ceilDiv bs.length (2 ^ 20)) bs).map (fun l => sha512 (0x00 :: l))
  treeRoot leaves.length leaves

end Sys2Proof.Machine
end

