-- ==== Sys2Proof/Machine/Pyleora.lean ====
section
/-!
DEFINITION. Pyleora images (15_security_and_images.md, R499): the header by its layout, and the checks in their order.
-/

namespace Sys2Proof.Machine
open Sys2Proof

/-- An image as its bytes are read: from an offset, so many. -/
abbrev ImageBytes := Nat → Nat → List Byte

/-! ## The header, 4,096 B -/

def pyNum (rd : ImageBytes) (off n : Nat) : Nat := leNat (rd off n)
def pyType (rd : ImageBytes) : Nat := pyNum rd 0x006 2
def pySecurity (rd : ImageBytes) : Nat := pyNum rd 0x008 4
def pySegBytes (rd : ImageBytes) : Nat := pyNum rd 0x00C 4
def pySegments (rd : ImageBytes) : Nat := pyNum rd 0x010 4
def pyPayloadOffset (rd : ImageBytes) : Nat := pyNum rd 0x014 4
def pyPayloadBytes (rd : ImageBytes) : Nat := pyNum rd 0x018 8
def pyTableHash (rd : ImageBytes) : List Byte := rd 0x040 64
def pySigner (rd : ImageBytes) : List Byte := keyHash (rd 0x0C0 512) (rd 0x2C0 4)
/-- Bytes of the whole image. -/
def pyBytes (rd : ImageBytes) : Nat := pyPayloadOffset rd + pyPayloadBytes rd
/-- The measurement: SHA-512 over the header. -/
def pyMeasure (rd : ImageBytes) : List Byte := sha512 (rd 0 4096)
/-- Segment `i` of the payload, the last one shorter. -/
def pySegment (rd : ImageBytes) (i : Nat) : List Byte :=
  let o := i * pySegBytes rd
  rd (pyPayloadOffset rd + o) (Nat.min (pySegBytes rd) (pyPayloadBytes rd - o))

/-! ## The checks (R499) -/

abbrev typeBlock : Nat := 0x10
abbrev typeReference : Nat := 0x20

/-- Check 1, but for the length of the image. -/
def pyFormatOk (rd : ImageBytes) : Bool :=
  let seg := pySegBytes rd
  pyNum rd 0x000 4 == 0x4F454C50 && pyNum rd 0x004 2 == 1
    && rd 0x020 16 == [0x42, 0x4C, 0x34, 0x38] ++ List.replicate 12 0
    && (List.range 11).any (fun k => seg == 2 ^ (20 + k))
    && pySegments rd == ceilDiv (pyPayloadBytes rd) seg && 1 ≤ pySegments rd && pySegments rd ≤ 16320
    && pyPayloadOffset rd % 65536 == 0 && 4096 + 64 * pySegments rd ≤ pyPayloadOffset rd
    && ((pyType rd != typeBlock && pyType rd != typeReference) || pySecurity rd == 0)
    && (rd 0x030 16).all (· == 0) && (rd 0x2C4 2876).all (· == 0)

/-- The checks before the segments: format, type, signer, signature and TABLE_HASH. -/
def pyHeaderCheck (rd : ImageBytes) (len : Nat) (types : List Nat) (keys : List (List Byte)) : Nat :=
  firstCode [
    (!(pyFormatOk rd && pyBytes rd ≤ len), 0x80),
    (!types.contains (pyType rd), 0x81),
    (!keys.contains (pySigner rd), 0x82),
    (!rsaPssVerify (rd 0x0C0 512) (rd 0x2C0 4) (rd 0xE00 512) (rd 0 0xE00), 0x83),
    (sha512 (rd 4096 (64 * pySegments rd)) != pyTableHash rd, 0x84)]

/-- Every check of R499: 0 when the image verifies. -/
def pyCheck (rd : ImageBytes) (len : Nat) (types : List Nat) (keys : List (List Byte)) (minimum : Nat) : Nat :=
  firstCode [
    (pyHeaderCheck rd len types keys != 0, pyHeaderCheck rd len types keys),
    ((List.range (pySegments rd)).any (fun i => sha512 (pySegment rd i) != rd (4096 + 64 * i) 64), 0x84),
    (pySecurity rd < minimum, 0x85)]

/-- The 64 B hashes of a key list. -/
def keyList (bs : List Byte) : List (List Byte) := cutBytes 64 (bs.length / 64) bs

/-- An image in device memory. -/
def State.imageAt (s : State) (a : Nat) : ImageBytes := fun o n => s.memBytes (a + o) n

end Sys2Proof.Machine
end

