-- ==== Sys2Proof/Machine/Images.lean ====
section
/-!
DEFINITION. Firmware copies, activation, the reference store, attestation and publisher keys (15_security_and_images.md R503 to R517;
13_management.md R456, R465, R476, R477; 01_architecture.md R18).
-/

namespace Sys2Proof.Machine
open Sys2Proof

/-! ## Firmware copies -/

/-- The bit of ACTIVE_COPIES of a type (1 to 4) in a quarter. -/
def activeBit (t q : Nat) : Nat := if t = 1 then 0 else 1 + 4 * (t - 2) + q
/-- The copy of a type that is active in a quarter: 2 (type - 1) + B. -/
def State.activeCopy (s : State) (t q : Nat) : Nat := 2 * (t - 1) + (if (s.rg Obj.ACTIVE_COPIES).testBit (activeBit t q) then 1 else 0)
/-- The other copy of the same type. -/
def otherCopy (k : Nat) : Nat := if k % 2 = 0 then k + 1 else k - 1
/-- The quarters in which a type has a unit: the milliner counts as one. -/
def typeUnits (t : Nat) : List Nat := if t = 1 then [0] else [0, 1, 2, 3]

/-- The measurement of a copy: all zero while it is not verified (R500). -/
def State.copyMeasure (s : State) (k : Nat) : List Byte :=
  if !s.boot.copyOk.testBit k then List.replicate 64 0
  else match SMap.get? s.boot.nor k with
    | some img => sha512 (img.take 4096)
    | none => Config.factoryMeasure k

/-- The bytes of an image held as a list. -/
def listImage (l : List Byte) : ImageBytes := fun o n => (l.drop o).take n

/-- The SECURITY_VERSION of a copy. -/
def State.copySv (s : State) (k : Nat) : Nat :=
  match SMap.get? s.boot.nor k with
  | some img => pySecurity (listImage img)
  | none => Config.factorySv k

def State.setCopyOk (s : State) (k : Nat) (ok : Bool) : State :=
  { s with boot := { s.boot with copyOk := if ok then setBit s.boot.copyOk k else clearBit s.boot.copyOk k } }

/-- MIN_SECURITY_VERSION of a type, 1 to 4. -/
def State.minSv (s : State) (t : Nat) : Nat := s.rg (Obj.MIN_SECURITY_VERSION (t - 1))

/-- MIN_SECURITY_VERSION of a type advances to that of a copy; it never decreases (R503). -/
def State.advanceSv (s : State) (t k : Nat) : State := s.setRg (Obj.MIN_SECURITY_VERSION (t - 1)) (Nat.max (s.minSv t) (s.copySv k))

/-- The copy of a type that no unit runs and no activation is using. -/
def State.freeCopy (s : State) (t : Nat) : Option Nat :=
  let busy := match s.actRun with
    | some (g, _) => if (if g = 0 then 1 else g / 16 + 1) = t then some (otherCopy (s.activeCopy t (g % 16))) else none
    | none => none
  [2 * (t - 1), 2 * (t - 1) + 1].find? (fun k => (typeUnits t).all (fun q => s.activeCopy t q != k) && busy != some k)

abbrev fwLimit : Nat := 33554432

/-- FW_COMMAND 0x01 of a session: the image is checked and its programming begins (R504). -/
def State.fwProgram (s : State) (id : Nat) : State × Answer :=
  if s.fwRun.isSome then (s, .of stState)
  else
    let t := s.win id Obj.FW_TARGET
    let img := s.winDom id Obj.FW_IMAGE
    let free := s.freeCopy t
    let k := free.getD (2 * (t - 1))
    let code := firstCode [
      (img.length > fwLimit, 0x86),
      (free.isNone, 0x88),
      (pyCheck (listImage img) img.length [t] [Config.romKeyHash] (s.minSv t) != 0, pyCheck (listImage img) img.length [t] [Config.romKeyHash] (s.minSv t))]
    let s := if code = 0 then s.setCopyOk k false else s
    (({ s with fwRun := some ⟨k, code, img⟩ } : State).setRg Obj.FW_RESULT 0xFF, .ok)

/-- FW_PROGRAM (R504). -/
def execFwProgram (sess : Nat) (s : State) : Out := s.command sess Obj.FW_COMMAND 1 (fun s => (s.fwProgram sess).1)

/-- FW_PROGRAMMED (R504): the command ends; `ok` says that the copy, read back, verified again. -/
def execFwProgrammed (at_ : Nat) (ok : Bool) (s : State) : Out :=
  match s.fwRun with
  | none => .next s
  | some r => takes s.boot.milliner s (fun s =>
      let s := { s.at at_ with fwRun := none }
      let code := if r.code ≠ 0 then r.code else if ok then 0 else 0x84
      let s := if code = 0 then ({ s with boot := { s.boot with nor := SMap.ins s.boot.nor r.copy r.image } } : State).setCopyOk r.copy true else s
      (s.setRg Obj.FW_RESULT code).notify 0x0081 0xFF r.copy code)

/-! ## Restart of the milliner (R18, R456, R465, R504, R516) -/

/-- A job check that a restart interrupts (R465): 0x07 in the entry, with ENABLE clear. -/
def State.abandonCheck (s : State) (p j : Nat) : State :=
  ((s.setJobF p j Job.refusal 0x07).setJobF p j Job.enable 0).setJobF p j Job.state jsIdle

/-- A recovery that a restart or a lost module ends returns the partition to STOPPED (R438). -/
def State.dropRecovery (s : State) (p : Nat) : State :=
  if s.rg (Obj.RECOVERY_STATE p) = rsRecovering || s.rg (Obj.RECOVERY_STATE p) = rsReady then
    (s.setRg (Obj.RECOVERY_STATE p) rsStopped).modPt p (fun x => { x with recover := none })
  else s

/-- A LOAD ends early: the slot is FAILED with a code, and its range is erased (R511). -/
def State.loadFail (s : State) (code : Nat) : State :=
  match s.refLoad with
  | none => s
  | some l =>
    let s := { s with refLoad := none, refErase := some l.slot }
    (((s.setRg (Obj.SLOT_STATE l.slot) 3).setRg (Obj.SLOT_RESULT_9045 l.slot) code).setWin l.session Obj.REF_RESULT code).notify 0x0080 0xFF l.slot code

/-- Everything that a milliner restart ends (R18, R456, R465): sessions with their queues, checks, a LOAD, a firmware program command
and the recoveries in progress. The quarters go on. -/
def State.restartMilliner (s : State) : State :=
  let lost := (s.sessions.map (fun x => x.queue.length + x.lost)).sum
  let s := { s with sessions := [], boot := { s.boot with milliner := true, restarted := some lost, svDue := none } }
  let s := s.setRg Obj.SESSIONS_OPEN 0
  let s := s.checks.foldl (fun t c => t.abandonCheck c.1 c.2.1) { s with checks := [] }
  let s := s.loadFail 0x8A
  let s := match s.fwRun with
    | some _ => ({ s with fwRun := none } : State).setRg Obj.FW_RESULT 0x07
    | none => s
  (List.range 12).foldl (fun t p => t.dropRecovery p) s

/-- MILLINER_RESTART (R18): the milliner restarts and, at the instant given, serves again. -/
def execMillinerRestart (at_ : Nat) (s : State) : Out := takes s.boot.milliner s (fun s => s.restartMilliner.at at_)

/-! ## Activation (R476, R477, R503) -/

/-- Type and quarter of an activation target. -/
def targetOf (g : Nat) : Option (Nat × Nat) :=
  if g = 0 then some (1, 0) else if (g / 16 = 1 || g / 16 = 2 || g / 16 = 3) && g % 16 < 4 then some (g / 16 + 1, g % 16) else none

/-- Whether a partition holds a resource or a nonzero share in a quarter: shares stand in the order of the Block header, and
a link's share lies in both quarters that it joins. -/
def Resources.inQuarter (r : Resources) (q : Nat) : Bool :=
  (bitsOf 48 r.clusters).any (fun c => c / 12 == q) || (bitsOf 48 r.devices).any (fun d => d / 12 == q)
    || (bitsOf 64 r.ports).any (fun n => n / 16 == q) || r.cxl.any (fun c => c.1 / 2 == q)
    || ([q, 4 + 2 * q, 5 + 2 * q, 18 + q] ++ [[12, 13, 14], [12, 15, 16], [13, 15, 17], [14, 16, 17]].getD q []).any (fun i => r.shares.getD i 0 != 0)

/-- The partitions that hold a resource or share of a quarter. -/
def State.partsIn (s : State) (q : Nat) : List Nat :=
  (List.range 12).filter (fun p => match (s.pt p).built with
    | some r => r.inQuarter q
    | none => false)

/-- ACTIVATE_COMMAND 0x01 of a session on its ACTIVATE_TARGET. -/
def State.activate (s : State) (id : Nat) : State × Answer :=
  let g := s.win id Obj.ACTIVATE_TARGET
  if s.actRun.isSome then (s, .of stState)
  else match targetOf g with
    | none => (s.setRg Obj.ACTIVATE_RESULT 1, .ok)
    | some (t, q) =>
      let busy := t ≠ 1 && (s.partsIn q).any (fun p => s.rg (Obj.PART_STATE p) == psActive || s.rg (Obj.PART_STATE p) == psHalted)
      if busy then (s.setRg Obj.ACTIVATE_RESULT 1, .ok)
      else if !s.boot.copyOk.testBit (otherCopy (s.activeCopy t q)) then (s.setRg Obj.ACTIVATE_RESULT 2, .ok)
      else
        let s := { s with actRun := some (g, 0), boot := { s.boot with milliner := s.boot.milliner && t != 1 } }
        (s.setRg Obj.ACTIVATE_RESULT 3, .ok)

/-- ACTIVATE (R476). -/
def execActivate (sess : Nat) (s : State) : Out := s.command sess Obj.ACTIVATE_COMMAND 1 (fun s => (s.activate sess).1)

/-- ACTIVATION_DONE (R476, R477): the activation ends; `ok` says that the other copy started. The ROM starts the former milliner
copy again where the other fails, or no longer meets the minimum. -/
def execActivationDone (at_ : Nat) (ok : Bool) (s : State) : Out :=
  match s.actRun with
  | none => .next s
  | some (g, _) => match targetOf g with
    | none => .next { s with actRun := none }
    | some (t, q) => .next (
        let s := { s.at at_ with actRun := none }
        let k := otherCopy (s.activeCopy t q)
        let ok := ok && s.minSv t ≤ s.copySv k
        let b := activeBit t q
        let act := s.rg Obj.ACTIVE_COPIES
        let s := if ok then s.setRg Obj.ACTIVE_COPIES (if act.testBit b then clearBit act b else setBit act b) else s
        let s := s.setRg Obj.ACTIVATE_RESULT (if ok then 0 else 2)
        let s := if t = 1 then
            let s := if ok then s.setRg Obj.BOOT_COPY (k % 2) else s
            let s := s.restartMilliner
            { s with boot := { s.boot with svDue := if ok then some (s.now + 60 * 10 ^ 9) else none } }
          else if ok then s.advanceSv t k else s
        s.notify 0x0070 0xFF g (if ok then 0 else 2))

/-- MIN_SECURITY_VERSION_ADVANCE (R503): the activated milliner copy has run for 60 s. -/
def execMinSecurityVersionAdvance (at_ : Nat) (s : State) : Out :=
  match s.boot.svDue with
  | some t => takes (t ≤ at_ && s.boot.milliner) s (fun s =>
      let s := s.at at_
      let s := { s with boot := { s.boot with svDue := none } }
      s.advanceSv 1 (s.activeCopy 1 0))
  | none => .next s

/-! ## The reference store (R508 to R516) -/

abbrev gib : Nat := 2 ^ 30
abbrev rowData : Nat := 1048512

def State.refSlot (s : State) (k : Nat) : RefSlot := SMap.getD RefSlot.empty s.refs k
/-- The ranges in use: start and bytes. -/
def State.refRanges (s : State) : List (Nat × Nat) :=
  ((List.range 16).filter (fun k => s.rg (Obj.SLOT_STATE k) != 0)).map (fun k => (s.rg (Obj.SLOT_BASE_9042 k), (s.refSlot k).range))

/-- The lowest free range of so many bytes. -/
def State.refFind (s : State) (n : Nat) : Option Nat :=
  let us := s.refRanges
  let starts := refBase :: us.map (fun r => r.1 + r.2)
  let fits := starts.filter (fun a => a + n ≤ refBase + Config.refstoreBytes && us.all (fun r => !overlaps a n r.1 r.2))
  fits.min?
where
  overlaps (a n b m : Nat) : Bool := a < b + m && b < a + n

/-- The largest free range: REF_FREE_BYTES. -/
def State.refFree (s : State) : Nat :=
  let us := s.refRanges
  let ends := (refBase + Config.refstoreBytes) :: us.map (·.1)
  let gaps := (refBase :: us.map (fun r => r.1 + r.2)).map (fun a => ((ends.filter (a ≤ ·)).min?.getD a) - a)
  gaps.foldl Nat.max 0

/-- The layout of a feed entry. -/
def feedLayout (e : ResEntry) : Bool :=
  Rs.enable.get e == 1 && Rs.class_.get e == classRecord && Rs.format.get e == 0x12 && Rs.cols.get e == 262144 && Rs.buffers.get e == 1
    && Rs.tier.get e == tierGddr

/-- REF_COMMAND 0x01 of a session. -/
def State.refLoadCmd (s : State) (id : Nat) : State × Answer :=
  let k := s.win id Obj.REF_SLOT
  let i := s.win id Obj.REF_FEED
  let n := s.win id Obj.REF_BYTES
  let range := ceilDiv n gib * gib
  let code := firstCode [
    (n > Config.refstoreBytes, 0x86),
    ((s.refFind range).isNone, 0x87),
    (s.rg (Obj.SLOT_STATE k) != 0 || s.refLoad.isSome || s.refErase.isSome, 0x88),
    (!(feedLayout (s.resE i) && s.actsFor id (Rs.partition.get (s.resE i))), 0x8B)]
  let s := s.setWin id Obj.REF_RESULT code
  if code ≠ 0 then (s, .ok)
  else
    let s := (s.setRg (Obj.SLOT_STATE k) 1).setRg (Obj.SLOT_BASE_9042 k) ((s.refFind range).getD refBase)
    ({ s with refs := SMap.put RefSlot.empty s.refs k ⟨range, n, false, []⟩, refLoad := some ⟨k, i, n, 0, s.now, [], false, 0, id⟩ }, .ok)

/-- REF_LOAD (R508). -/
def execRefLoad (sess : Nat) (s : State) : Out := s.command sess Obj.REF_COMMAND 1 (fun s => (s.refLoadCmd sess).1)

/-- REF_COMMAND 0x02: the LOAD in progress is aborted. -/
def State.refAbort (s : State) (id : Nat) : State × Answer := ((s.setWin id Obj.REF_RESULT 0).loadFail 0x8A, .ok)

/-- REF_ABORT (R511). -/
def execRefAbort (sess : Nat) (s : State) : Out := s.command sess Obj.REF_COMMAND 2 (fun s => (s.refAbort sess).1)

/-- Whether an enabled Residency entry lies in a range of the reference store. -/
def State.refUsed (s : State) (a n : Nat) : Bool :=
  s.resList.any (fun kv => a ≤ ResEntry.slotAddr kv.2 0 && ResEntry.slotAddr kv.2 0 < a + n)

/-- REF_COMMAND 0x03 of a session on its REF_SLOT. -/
def State.refEraseCmd (s : State) (id : Nat) : State × Answer :=
  let k := s.win id Obj.REF_SLOT
  let st := s.rg (Obj.SLOT_STATE k)
  if st = 0 then (s.setWin id Obj.REF_RESULT 0, .ok)
  else if s.refLoad.isSome || s.refErase.isSome || s.refUsed (s.rg (Obj.SLOT_BASE_9042 k)) (s.refSlot k).range then
    (s.setWin id Obj.REF_RESULT 0x88, .ok)
  else (({ s with refErase := some k } : State).setRg (Obj.SLOT_STATE k) 4 |>.setWin id Obj.REF_RESULT 0, .ok)

/-- REF_ERASE (R514). -/
def execRefErase (sess : Nat) (s : State) : Out := s.command sess Obj.REF_COMMAND 3 (fun s => (s.refEraseCmd sess).1)

/-- ERASE_DONE (R511, R514): the range is erased, and the slot is EMPTY. -/
def execEraseDone (at_ : Nat) (s : State) : Out :=
  match s.refErase with
  | none => .next s
  | some k => .next (
      let a := s.rg (Obj.SLOT_BASE_9042 k)
      let n := (s.refSlot k).range
      let s := { s.at at_ with mem := s.mem.filter (fun c => !(a ≤ c.1 && c.1 < a + n)), badPages := s.badPages.filter (fun r => !(a ≤ r.1 && r.1 < a + n)),
                               refs := SMap.del s.refs k, refErase := none }
      (((s.setRg (Obj.SLOT_STATE k) 0).setRg (Obj.SLOT_BASE_9042 k) 0).setRg (Obj.SLOT_SERIAL k) 0).setDom (Obj.SLOT_MEASURE k) [])

/-- The address and the trailer of the row that holds chunk `n` of a feed. -/
def State.feedRow (s : State) (i n : Nat) : Nat := ResEntry.slotAddr (s.resE i) 1 + 1048576 * (n % Rs.rows.get (s.resE i))
def State.feedChunk (s : State) (i n : Nat) : Nat := s.memLE (s.feedRow i n + rowData) 8

/-- Bytes of the reference store programmed; a page programmed anew is readable. -/
def State.programRef (s : State) (a : Nat) (bs : List Byte) : State :=
  { s.memPut a bs with badPages := s.badPages.filter (fun r => !(a ≤ r.1 && r.1 < a + bs.length)) }

/-- The segments of an image that end within `lo` to `hi` bytes and differ from their entries. -/
def segmentsBad (rd : ImageBytes) (lo hi : Nat) : Bool :=
  (List.range (pySegments rd)).any (fun i =>
    let e := pyPayloadOffset rd + Nat.min ((i + 1) * pySegBytes rd) (pyPayloadBytes rd)
    lo < e && e ≤ hi && sha512 (pySegment rd i) != rd (4096 + 64 * i) 64)

/-- The check of the header and the table of a reference image (R510): checks 1 to 3 and TABLE_HASH, then its length. -/
def State.refHeader (s : State) (l : RefLoad) (head : List Byte) : Nat :=
  let rd := listImage head
  firstCode [
    (pyHeaderCheck rd (2 ^ 64) [typeReference] (keyList (s.dom Obj.PUBLISHER_KEYS)) != 0,
      pyHeaderCheck rd (2 ^ 64) [typeReference] (keyList (s.dom Obj.PUBLISHER_KEYS))),
    (pyBytes rd != l.bytes, 0x86)]

/-- A chunk taken by the controller (R509, R510). A chunk whose BYTES is less than the image bytes that it must carry ends the load with
IMG_SEGMENT, as the bytes that it lacks cannot match their segment; R509 and R510 do not speak of it (log 104). -/
def State.takeChunk (s : State) (l : RefLoad) : State :=
  let n := l.next
  let c := s.feedChunk l.feed n
  if c > n then s.loadFail 0x89
  else
    let row := s.feedRow l.feed n
    let from_ := n * rowData
    let len := Nat.min rowData (l.bytes - from_)
    let bs := s.memBytes row len
    let upto := from_ + len
    let base := s.rg (Obj.SLOT_BASE_9042 l.slot)
    let l' := { l with next := n + 1, since := s.now }
    if s.memLE (row + rowData + 8) 4 < len then s.loadFail 0x84
    else if l.ready then
      let s := s.programRef (base + from_) bs
      if segmentsBad (s.imageAt base) from_ upto then s.loadFail 0x84 else { s with refLoad := some l' }
    else
      let head := l.head ++ bs
      let rd := listImage head
      if head.length ≥ 4096 && (!pyFormatOk rd || head.length ≥ 4096 + 64 * pySegments rd) then
        let code := s.refHeader l head
        if code ≠ 0 then s.loadFail code
        else
          let s := s.programRef base head
          let s := { s with refs := SMap.put RefSlot.empty s.refs l.slot { s.refSlot l.slot with signer := pySigner rd } }
          if segmentsBad (s.imageAt base) 0 upto then s.loadFail 0x84 else { s with refLoad := some { l' with head := [], ready := true } }
      else if upto ≥ l.bytes then s.loadFail 0x80
      else { s with refLoad := some { l' with head := head } }

/-- REF_CHUNK (R509, R510): the trailer of the row of the chunk due holds its number, or one that shows an overrun. -/
def execRefChunk (at_ : Nat) (s : State) : Out :=
  match s.refLoad with
  | none => .next s
  | some l =>
    let c := s.feedChunk l.feed l.next
    takes (s.boot.milliner && feedLayout (s.resE l.feed) && l.next * rowData < l.bytes && (c == l.next || c ≥ l.next + Rs.rows.get (s.resE l.feed))) s
      (fun s => (s.at at_).takeChunk l)

/-- REF_LOAD_TIMEOUT (R509): no progress for 60 s. -/
def execRefLoadTimeout (at_ : Nat) (s : State) : Out :=
  match s.refLoad with
  | none => .next s
  | some l => takes (s.boot.milliner && l.since + 60 * 10 ^ 9 ≤ at_) s (fun s => (s.at at_).loadFail 0x8A)

/-- IMAGE_LOADED (R510): after the last chunk the slot is VERIFIED; the controller's IMAGE_SERIAL is free. -/
def execImageLoaded (at_ : Nat) (s : State) : Out :=
  match s.refLoad with
  | none => .next s
  | some l => takes (s.boot.milliner && l.ready && l.bytes ≤ l.next * rowData) s (fun s =>
      let (k, s) := (s.at at_).draw
      let base := s.rg (Obj.SLOT_BASE_9042 l.slot)
      let s := { s with refLoad := none }
      let s := (s.setRg (Obj.SLOT_STATE l.slot) 2).setRg (Obj.SLOT_SERIAL l.slot) ((Config.freeWord k).toNat % 2 ^ 32)
      let s := (s.setRg (Obj.SLOT_RESULT_9045 l.slot) 0).setDom (Obj.SLOT_MEASURE l.slot) (pyMeasure (s.imageAt base))
      (s.setWin l.session Obj.REF_RESULT 0).notify 0x0080 0xFF l.slot 0)

/-! ## Publisher keys (R507) -/

/-- A WRITE of PUBLISHER_KEYS. -/
def State.writePublisherKeys (s : State) (keys : List Byte) : State × Answer :=
  let ks := keyList keys
  if keys.length % 64 ≠ 0 || ks.length > 16 || ks.eraseDups.length ≠ ks.length then (s.setRg Obj.KEYS_RESULT 0x8D, ⟨stRefused, 0x8D⟩)
  else
    let gone := (keyList (s.dom Obj.PUBLISHER_KEYS)).filter (fun k => !ks.contains k)
    let s := (s.setDom Obj.PUBLISHER_KEYS keys).setRg Obj.KEYS_RESULT 0
    if gone.isEmpty then (s, .ok)
    else
      let hit := (List.range 16).filter (fun k => s.rg (Obj.SLOT_STATE k) == 2 && gone.contains (s.refSlot k).signer)
      let s := hit.foldl (fun t k => t.setRg (Obj.SLOT_STATE k) 5) s
      (s.notify 0x0083 0xFF hit.length 0, .ok)

/-- PUBLISHER_KEYS (R507). -/
def execPublisherKeys (sess : Nat) (keys : List Byte) (s : State) : Out :=
  s.command sess Obj.PUBLISHER_KEYS 0 (fun s => (s.writePublisherKeys keys).1)

/-! ## Attestation (R506) -/

/-- A byte list padded with zeros, or cut, to a length. -/
def padTo (n : Nat) (l : List Byte) : List Byte := (l ++ List.replicate n 0).take n

/-- One 96 B entry of a report. -/
def attestEntry (kind index state sv serial : Nat) (m : List Byte) : List Byte :=
  leBytes 1 kind ++ leBytes 1 index ++ leBytes 1 state ++ leBytes 1 0 ++ leBytes 4 sv ++ leBytes 8 serial ++ leBytes 16 0 ++ padTo 64 m

/-- The entries of a report, in ascending KIND, then INDEX. -/
def State.attestEntries (s : State) : List (List Byte) :=
  let fw := (List.range 8).map (fun k =>
    let active := (typeUnits (k / 2 + 1)).any (fun q => s.activeCopy (k / 2 + 1) q == k)
    attestEntry 1 k (if active then 1 else 0) (s.copySv k) 0 (s.copyMeasure k))
  let im := ((List.range 16).filter (fun k => s.rg (Obj.SLOT_STATE k) != 0)).map (fun k =>
    attestEntry 2 k (s.rg (Obj.SLOT_STATE k)) 0 (s.rg (Obj.SLOT_SERIAL k)) (s.dom (Obj.SLOT_MEASURE k)))
  let jb := (List.range 12).flatMap (fun p =>
    let x := s.pt p
    let one := fun j => attestEntry 3 p j 0 (Job.job.get (x.job j)) (pyMeasure (s.imageAt (Job.blockAddr.get (x.job j))))
    match x.jobs.find? (fun kv => Job.state.get kv.2 == jsTicking), x.order with
    | some kv, _ => [one kv.1]
    | none, j :: _ => [one j]
    | none, [] => [])
  let ks := keyList (s.dom Obj.PUBLISHER_KEYS)
  let pk := ((List.range ks.length).zip ks).map (fun ik => attestEntry 4 ik.1 0 0 0 ik.2)
  fw ++ im ++ jb ++ pk

/-- A WRITE of ATTEST_NONCE: the report is built and signed; the signature's bytes are free (log 8). -/
def State.attest (s : State) (id : Nat) (nonce : List Byte) : State × Answer :=
  if nonce.length ≠ 64 then (s, .of stLength)
  else
    let es := s.attestEntries
    let (k, s) := s.draw
    let body := leBytes 4 0x54414C42 ++ leBytes 2 1 ++ leBytes 2 es.length ++ nonce ++ leBytes 8 s.grain ++ padTo 32 Config.serial
      ++ leBytes 8 Config.baseMac.toNat ++ leBytes 8 0 ++ es.flatten
    ((s.setWinDom id Obj.ATTEST_NONCE nonce).setWinDom id Obj.ATTEST_REPORT (body ++ Config.freeBytes k 512), .ok)

/-- ATTEST_NONCE (R506). -/
def execAttestNonce (sess : Nat) (nonce : List Byte) (s : State) : Out :=
  s.command sess Obj.ATTEST_NONCE 0 (fun s => (s.attest sess nonce).1)

end Sys2Proof.Machine
end

