-- ==== Sys2Proof/Machine/ProgramCheck.lean ====
section
/-!
DEFINITION. The checks of a crown program at job enable (02_tick_and_schedule.md R77, R78): its words read in order with the loop
bodies and alternatives that hold each one, the places that jumps may reach, and the paths through it.
-/

namespace Sys2Proof.Machine
open Sys2Proof

/-- A loop body or an alternative that is open at a place of the scan. -/
inductive ScanFrame
  /-- The body of the LOOP at word `first`; `last` is the word after it. -/
  | body (first last : Nat)
  /-- Alternative `k` of the BRANCH at word `branch`, with its table words. -/
  | alt (branch k : Nat) (table : List Word)
  deriving DecidableEq, Repr

/-- One word of a program: its instruction (none for a branch-table word), the loop bodies and alternatives that hold it, the
table of a BRANCH, and the BRANCH that an ENDA belongs to. -/
structure ScanWord where
  instr : Option Instr
  path : List Nat
  table : List Word
  owner : Nat
  deriving DecidableEq, Repr

def ScanFrame.isBody : ScanFrame → Bool
  | .body .. => true
  | .alt .. => false

/-- The number of a frame in a path. -/
def ScanFrame.id : ScanFrame → Nat
  | .body f _ => 8 * f
  | .alt b k _ => 8 * b + 1 + k

/-- Bodies that end before word `i` are closed. -/
def closeBodies (i : Nat) : List ScanFrame → List ScanFrame
  | .body f l :: fs => if l = i then closeBodies i fs else .body f l :: fs
  | fs => fs

/-- Program address of a word, and of a table word's alternative. -/
abbrev wordAddr (i : Nat) : Nat := 16 + 8 * i
def tableAddr (w : Word) : Nat := (w.extractLsb' 0 32).toNat
def tableLength (w : Word) : Nat := (w.extractLsb' 32 32).toNat

/-- What the frames become after instruction `x` at word `i` of a program of `n` words, with the words that follow, and how many of
those are table words; none where R78 refuses it. -/
def scanStep (n i : Nat) (x : Instr) (ws : List Word) (fs : List ScanFrame) : Option (List ScanFrame × Nat) :=
  match x with
  | .branch _ _ _ _ alts _ =>
    let m := alts.toNat + 1
    let table := ws.take m
    if fs.any ScanFrame.isBody || table.length ≠ m || (table.map tableAddr).head? ≠ some (wordAddr (i + 1 + m)) then none
    else some (.alt i 0 table :: fs, m)
  | .enda _ =>
    match fs with
    | .alt b k table :: fs =>
      match table[k + 1]? with
      | some w => if tableAddr w = wordAddr (i + 1) then some (.alt b (k + 1) table :: fs, 0) else none
      | none => some (fs, 0)
    | _ => none
  | .loop _ body _ =>
    let last := i + 1 + body.toNat
    if last ≤ n && (fs.filter ScanFrame.isBody).length < 4
        && fs.all (fun f => match f with
          | .body _ l => last ≤ l
          | .alt .. => true)
    then some (.body i last :: fs, 0) else none
  | _ => some (fs, 0)

/-- The words of a program of `n` words from word `i` on; `skip` of them are table words. -/
def scanFrom (n : Nat) : List Word → Nat → Nat → List ScanFrame → Option (List ScanWord)
  | [], i, skip, fs => if skip = 0 && (closeBodies i fs).isEmpty then some [] else none
  | _ :: ws, i, skip + 1, fs => (scanFrom n ws (i + 1) skip fs).map (⟨none, fs.map ScanFrame.id, [], 0⟩ :: ·)
  | w :: ws, i, 0, fs =>
    let fs := closeBodies i fs
    match decodeCrown 0 w with
    | none => none
    | some x =>
      match scanStep n i x ws fs with
      | none => none
      | some (gs, m) =>
        let owner := match fs with
          | .alt b _ _ :: _ => b
          | _ => 0
        (scanFrom n ws (i + 1) m gs).map (⟨some x, fs.map ScanFrame.id, ws.take m, owner⟩ :: ·)

abbrev Scan := List ScanWord

def Scan.word (c : Scan) (i : Nat) : ScanWord := c.getD i ⟨none, [], [], 0⟩

/-- The word numbers of the BRANCHes, in program order: branch point n is the n-th. -/
def Scan.branches (c : Scan) : List Nat := (List.range c.length).filter (fun i => match (Scan.word c i).instr with
  | some (.branch ..) => true
  | _ => false)

/-- The word after the last alternative's ENDA of the BRANCH at word `b`. -/
def Scan.resume (c : Scan) (b : Nat) : Nat :=
  (((List.range c.length).filter (fun i => match (Scan.word c i).instr with
    | some (.enda _) => (Scan.word c i).owner == b
    | _ => false)).foldl Nat.max 0) + 1

/-- The word that a program address names. -/
def jumpTarget (c : Scan) (a : Nat) : Option Nat :=
  if a ≥ 16 && a % 8 = 0 && (a - 16) / 8 < c.length then some ((a - 16) / 8) else none

/-- Whether a JMP stays in the loop bodies and alternatives that hold it, and reaches an instruction. -/
def Scan.jumpOk (c : Scan) (i : Nat) : Bool :=
  match (Scan.word c i).instr with
  | some (.jmp _ imm) =>
    match jumpTarget c imm.toNat with
    | some t => (Scan.word c t).instr.isSome && (Scan.word c t).path == (Scan.word c i).path
    | none => false
  | _ => true

/-- Whether every path from word `i` reaches a DONE, as far as that is known of other words. -/
def Scan.ends (c : Scan) (known : Nat → Bool) (i : Nat) : Bool :=
  match (Scan.word c i).instr with
  | none => false
  | some x =>
    match x with
    | .done _ => true
    | .jmp _ imm => match jumpTarget c imm.toNat with
      | some t => known t
      | none => false
    | .branch .. => (Scan.word c i).table.all (fun w => match jumpTarget c (tableAddr w) with
      | some t => known t
      | none => false)
    | .enda _ => known (Scan.resume c (Scan.word c i).owner)
    | _ => known (i + 1)

/-- One pass over the words from last to first; a pass settles every word but those that wait for a jump backwards. -/
def Scan.pass (c : Scan) (g : Array Bool) : Array Bool :=
  (List.range c.length).reverse.foldl (fun g i => g.setIfInBounds i (Scan.ends c (fun t => g.getD t false) i)) g

def Scan.jumps (c : Scan) : Nat := (c.filter (fun w => match w.instr with
  | some (.jmp ..) => true
  | _ => false)).length

/-- Whether every path through the program ends at a DONE and executes no table word. -/
def Scan.pathsEnd (c : Scan) : Bool :=
  ((List.range (Scan.jumps c + 1)).foldl (fun g _ => Scan.pass c g) (Array.replicate c.length false)).getD 0 false

/-! ## Programs of a Block -/

/-- The quarter of logical cluster `l`: clusters count across the quarters (R38). -/
def State.programQuarter (s : State) (b l : Nat) : Nat :=
  ((List.range 4).find? (fun q => l < ((List.range (q + 1)).map (s.blkClusters b)).sum)).getD 3

/-- The words of a program as they stand in memory. -/
def State.progList (s : State) (a : Nat) : List Word := (List.range (s.progWords a)).map (fun i => BitVec.ofNat 64 (s.memLE (a + 16 + 8 * i) 8))

/-- The scanned program of logical cluster `l` of a slice. -/
def State.scan (s : State) (b k l : Nat) : Option Scan :=
  let ws := s.progList (s.progAddr b k l)
  scanFrom ws.length ws 0 0 []

/-- Whether the items of a WAIT exist (R78). -/
def State.waitOk (s : State) (b k q cls count first : Nat) : Bool :=
  let last := first + count - 1
  if cls = 0 then last ≤ 1023
  else if cls = 1 then first = 0 && count = 1
  else if cls = 2 then last < s.burstCount b k
  else if cls = 3 then last < s.slotCount b k
  else match s.plan b q with
    | some i => (List.range count).all (fun n => first + n < s.planRows i && Rb.slice.get (s.planRow i (first + n)) == k)
    | none => false

/-- Whether the program of logical cluster `l` meets R78. -/
def State.programOk (s : State) (b k l : Nat) : Bool :=
  let a := s.progAddr b k l
  let n := s.progWords a
  1 ≤ n && n ≤ 8190 && (s.memBytes (a + 6) 10).all (· == 0)
    && match s.scan b k l with
      | none => false
      | some c =>
        s.memLE (a + 4) 2 == (Scan.branches c).length && (Scan.branches c).length ≤ 128
          && (List.range c.length).all (Scan.jumpOk c)
          && c.all (fun w => match w.instr with
            | some (.wait _ cls count first) => s.waitOk b k (s.programQuarter b l) cls.toNat (count.toNat + 1) first.toNat
            | _ => true)
          && Scan.pathsEnd c

/-- The branch points of a program: JOIN and the table of each. -/
def State.branchPoints (s : State) (b k l : Nat) : List (Nat × List Word) :=
  match s.scan b k l with
  | none => []
  | some c => (Scan.branches c).filterMap (fun i => match (Scan.word c i).instr with
    | some (.branch _ _ _ _ _ join) => some (join.toNat, (Scan.word c i).table)
    | _ => none)

/-- Whether the alternatives of every branch point of a program declare one length, no greater than its JOIN (R77). -/
def State.lengthsOk (s : State) (b k l : Nat) : Bool :=
  (s.branchPoints b k l).all (fun bp => (bp.2.map tableLength).all (fun n => n == (bp.2.map tableLength).headD 0 && n ≤ bp.1))

/-- Whether an ALT is unconditional with no other bit set, or names a branch point and an alternative of the slice (R40). -/
def State.altNamed (s : State) (b k alt : Nat) : Bool :=
  if !altConditional alt then alt == 0
  else altCluster alt < s.blkPrograms b && match (s.branchPoints b k (altCluster alt))[altPoint alt]? with
    | some bp => altAlternative alt < bp.2.length
    | none => false

end Sys2Proof.Machine
end

