-- ==== Sys2Proof/Machine/BlockCheck.lean ====
section
/-!
DEFINITION. The Block checks at job enable (02_tick_and_schedule.md R38 to R42; 13_management.md R470): JOB_FIELD, and the checks
0x11 to 0x1A of R42, each over the whole image.
-/

namespace Sys2Proof.Machine
open Sys2Proof

/-- A Job Table entry offered for enable, with what its checks look at: the partition, the entry's index, the entry, the
payload of its Block with the bytes that belong to it, and the entries that the streams of its stitch programs name, each with a
quarter (R293, log 106). -/
structure JobOffer where
  part : Nat
  index : Nat
  entry : BitVec 1024
  block : Nat
  bytes : Nat
  stitch : List (Nat × Nat)
  deriving DecidableEq, Repr

def JobOffer.addr (x : JobOffer) : Nat := Job.blockAddr.get x.entry
def JobOffer.length (x : JobOffer) : Nat := Job.blockBytes.get x.entry

/-- The offer of entry `j` of a partition, as its image stands in memory. -/
def State.jobOffer (s : State) (p j : Nat) (stitch : List (Nat × Nat)) : JobOffer :=
  let e : BitVec 1024 := s.memRec (s.jobAddr p j) 128
  let rd := s.imageAt (Job.blockAddr.get e)
  ⟨p, j, e, s.payloadOf (Job.blockAddr.get e), Nat.min (pyPayloadBytes rd) (Job.blockBytes.get e - pyPayloadOffset rd), stitch⟩

/-- Whether another enabled Job Table entry of any partition names a job (0x10). -/
def State.jobTaken (s : State) (p j job : Nat) : Bool :=
  (List.range 12).any (fun q => (s.pt q).jobs.any (fun kv => !(q == p && kv.1 == j) && Job.enable.get kv.2 == 1 && Job.job.get kv.2 == job))

/-- JOB_FIELD (0x10). -/
def State.jobFieldBad (s : State) (x : JobOffer) : Bool :=
  let job := Job.job.get x.entry
  let a := x.addr
  let n := x.length
  job == 0 || job == 0xFFFF || s.jobTaken x.part x.index job || Job.sliceLimit.get x.entry == 0 || a % 64 != 0
    || !(a < 48 * 2 ^ 32 && a + n ≤ gddrBase (a / 2 ^ 32 + 1) && (match (s.pt x.part).built with
      | some r => r.devices.testBit (a / 2 ^ 32)
      | none => false))
    || s.tableRanges.any (fun t => overlaps a n t.1 t.2)
    || s.resList.any (fun kv => overlaps a n (ResEntry.slotAddr kv.2 0) (ResEntry.bytes kv.2))
    || (s.pt x.part).stopped.isSome

/-! ## Signature and header (0x11 to 0x15) -/

/-- The place in OWNER_KEYS of the key that verifies the Block; 0xFF where none does. -/
def State.jobSigner (s : State) (x : JobOffer) : Nat :=
  let keys := keyList (s.dom (Obj.OWNER_KEYS x.part))
  let rd := s.imageAt x.addr
  if pyCheck rd x.length [typeBlock] keys 0 = 0 then keys.idxOf (pySigner rd) else 0xFF

def State.signatureBad (s : State) (x : JobOffer) : Bool := s.rg (Obj.ALLOW_UNSIGNED x.part) != 1 && s.jobSigner x == 0xFF

def State.formatBad (s : State) (x : JobOffer) : Bool :=
  let b := x.block
  s.memLE b 4 != 0x4B434C42 || s.memLE (b + 4) 2 != 1 || s.memLE (b + 6) 2 != 1
    || (s.memBytes (b + 0x01D) 3 ++ s.memBytes (b + 0x042) 14 ++ s.memBytes (b + 0x064) 156).any (· != 0)
    || Job.jobModule.get x.entry ≥ s.blkJobModules b || s.blkJobModules b > 64

def State.tickBad (s : State) (x : JobOffer) : Bool :=
  s.blkTickGrains x.block != s.rg (Obj.TICK_GRAINS x.part) || s.blkCloseGuard x.block != s.rg (Obj.CLOSE_GUARD_NS x.part)

/-- Whether the per-quarter counts of the Block header differ from the partition's. -/
def State.resourcesDiffer (s : State) (p b : Nat) : Bool :=
  match (s.pt p).built with
  | none => true
  | some r => (List.range 4).any (fun q =>
      s.blkClusters b q != popCount 12 (r.clusters >>> (12 * q)) || s.blkDevices b q != popCount 12 (r.devices >>> (12 * q))
        || s.blkPorts b q != popCount 16 (r.ports >>> (16 * q)))

def State.sharesBad (s : State) (x : JobOffer) : Bool :=
  match (s.pt x.part).built with
  | none => true
  | some r => (List.range 22).any (fun i => s.blkShare x.block i > r.shares.getD i 0)

/-! ## Slices (0x16) -/

/-- Whether bytes at an offset lie inside the payload. -/
def JobOffer.inside (x : JobOffer) (off n : Nat) : Bool := off + n ≤ x.bytes

/-- A symbol table of `n` entries lies inside the payload. -/
def State.symbolsInside (s : State) (x : JobOffer) : Nat → Nat → Bool
  | 0, _ => true
  | n + 1, off =>
    let len := s.memLE (x.block + off + 4) 4
    x.inside off 8 && x.inside off (alignUp (8 + len) 8) && s.symbolsInside x n (off + alignUp (8 + len) 8)

/-- The slice index, the descriptor of slice `k` and its sections lie inside the payload, and the sections hold no more than R41
allows. -/
def State.sliceInside (s : State) (x : JobOffer) (k : Nat) : Bool :=
  let b := x.block
  let off := s.memLE (b + s.blkSliceIndex b + 16 * k) 8
  x.inside off (Nat.max 128 (s.sliceLength b k))
    && (List.range 5).all (fun i => x.inside (s.memLE (s.sliceAddr b k + 0x30 + 16 * i) 8) (s.secLength b k i))
    && s.burstCount b k ≤ 65536 && s.slotCount b k ≤ 16384 && s.commitCount b k ≤ 8192

/-- Whether the programs of a slice lie in their section. -/
def State.programsInside (s : State) (b k : Nat) : Bool :=
  (List.range (s.blkPrograms b)).all (fun l => s.progAddr b k l + 16 + 8 * s.progWords (s.progAddr b k l) ≤ s.secAddr b k 0 + s.secLength b k 0)

/-- Formats that a converting burst takes (R39). -/
def burstFormat (f : Nat) : Bool := f ≤ 0x0A || f == 0x10

/-- Whether a burst entry of a slice with the given LOCAL_MB_TAGS meets R39 and R286. -/
def burstOk (e : Burst) (localMb : Nat) : Bool :=
  let n := Bu.length.get e
  let sf := Bu.srcFormat.get e
  let df := Bu.dstFormat.get e
  let mb := Bu.mbTag.get e
  let blk := if fmtBlockScaled sf || fmtBlockScaled df then 32 * fmtBits sf else fmtBits sf
  Bu.flagsRsv.get e == 0
    && (if Bu.convert.get e = 0 then sf == 0 && df == 0 && n % 64 == 0 else burstFormat sf && burstFormat df && (8 * n) % blk == 0)
    && (Bu.endBuild.get e == 0 || Bu.build.get e != 0)
    && mb ≤ 64 && (mb == 0 || localMb.testBit (mb - 1))
    && endpointOf (Bu.source.get e) != .illegal
    && (match endpointOf (Bu.dest.get e) with
      | .illegal => false
      | .res sel _ _ _ => sel
      | _ => Bu.sr.get e == 0)

/-- Whether the reserved fields of a slice are 0 and its bursts and programs are well formed. -/
def State.sliceOk (s : State) (x : JobOffer) (k : Nat) : Bool :=
  let b := x.block
  let a := s.sliceAddr b k
  s.sliceInside x k && s.memLE (a + 4) 2 ≤ 1 && s.memLE (a + 6) 2 == 0
    && (List.range (s.slotCount b k)).all (fun n => Ps.rsv.get (s.slotEntry b k n) == 0)
    && (List.range (s.commitCount b k)).all (fun n => Cm.rsv.get (s.commitEntry b k n) == 0)
    && (List.range (s.burstCount b k)).all (fun n => burstOk (s.burst b k n) (s.sliceHdr b k).localMb)
    && s.programsInside b k && (List.range (s.blkPrograms b)).all (s.programOk b k)

def State.slicesBad (s : State) (x : JobOffer) : Bool :=
  let b := x.block
  let n := s.blkSliceCount b
  !(1 ≤ n && n ≤ 16777216 && s.blkLoopFirst b < n && x.inside (s.blkSliceIndex b) (16 * n)
    && s.symbolsInside x (s.blkSymbolCount b) (s.blkSymbolOffset b)
    && (List.range n).all (s.sliceOk x))

/-- The slices of a Block. -/
def State.sliceNumbers (s : State) (b : Nat) : List Nat := List.range (s.blkSliceCount b)

/-! ## Positions (0x17) -/

/-- The position at which the closing guard of the Block's ticks begins. -/
def State.blkGuard (s : State) (b : Nat) : Nat := s.blkTickGrains b * 10000 - s.blkCloseGuard b

/-- The end of the program loads in the tick of slice `k` (R73): one read of the next slice's programs from the Block's device,
with the latency of the farthest quarter that uses them. -/
def State.loadEnd (s : State) (x : JobOffer) (k : Nat) : Nat :=
  let b := x.block
  let next := if k + 1 < s.blkSliceCount b then k + 1 else s.blkLoopFirst b
  let n := ((List.range (s.blkPrograms b)).map (fun l => 16 + 8 * s.progWords (s.progAddr b next l))).sum
  let cross := (List.range 4).any (fun q => s.blkClusters b q != 0 && q != x.addr / 2 ^ 32 / 12)
  10000 + readBound 0 cross + ceilDiv (n - 64) 180

/-- Whether a transmit slot overlaps a reserved settling window (R58). -/
def inSettlingWindow (start dur : Nat) : Bool := (start < 400 && 0 < start + dur) || (start < 3400 && 3000 < start + dur)

def State.slicePositionsBad (s : State) (x : JobOffer) (k : Nat) : Bool :=
  let b := x.block
  let p := x.part
  let g := s.blkGuard b
  (List.range (s.burstCount b k)).any (fun n => let e := s.burst b k n
      Bu.startNs.get e + s.burstBound p e > g)
    || (List.range (s.slotCount b k)).any (fun n => let e := s.slotEntry b k n
      Ps.startNs.get e + Ps.durationNs.get e > g
        || (Ps.direction.get e == dirTx && inSettlingWindow (Ps.startNs.get e) (Ps.durationNs.get e)))
    || (List.range (s.kettleCount b k)).any (fun n => let e := s.kettleEntry b k n
      match s.unitOf p (Kt.unit.get e) with
      | some u => Kt.startNs.get e + s.kettleBound p u e (Kt.blocks.get e) > g
      | none => false)
    || s.loadEnd x k > g

/-! ## Commits, tags and alternatives (0x18 to 0x1A) -/

def State.commitBad (s : State) (x : JobOffer) (k n : Nat) : Bool :=
  let b := x.block
  let e := s.commitEntry b k n
  let h := s.sliceHdr b k
  let i := Cm.index.get e
  let bit := Cm.tagBit.get e
  let kind := Cm.tagKind.get e
  !(s.resEnabled i && Rs.partition.get (s.resE i) == x.part) || Cm.mode.get e > 1 || kind > 3
    || (List.range n).any (fun m => Cm.index.get (s.commitEntry b k m) == i)
    || (kind == 1 && !(bit < 64 && h.localMb.testBit bit)) || (kind == 2 && !(bit < 64 && h.localBkt.testBit bit))
    || (kind == 3 && (bit ≥ s.blkJobModules b || bit == Job.jobModule.get x.entry))
    || (ResEntry.slotOfAddr (s.resE i) (Cm.buffer.get e)).isNone

def State.sliceTagsBad (s : State) (b k : Nat) : Bool :=
  let h := s.sliceHdr b k
  h.localMb &&& h.jobMb != h.localMb || h.localBkt &&& h.jobBkt != h.localBkt

def State.sliceAltsBad (s : State) (b k : Nat) : Bool :=
  !((List.range (s.blkPrograms b)).all (s.lengthsOk b k)
    && (List.range (s.burstCount b k)).all (fun n => s.altNamed b k (Bu.alt.get (s.burst b k n)))
    && (List.range (s.slotCount b k)).all (fun n => s.altNamed b k (Ps.alt.get (s.slotEntry b k n)))
    && (List.range 4).all (fun q => (s.planOf b q k).all (fun n => s.altNamed b k (Rb.alt.get (s.planItem b q n)))))

/-- The Block checks of R42 in the order of their table; a check is not run when one before it has failed. -/
def State.blockCode (s : State) (x : JobOffer) : Nat :=
  let b := x.block
  let ks := s.sliceNumbers b
  if s.signatureBad x then 0x11
  else if s.formatBad x then 0x12
  else if s.tickBad x then 0x13
  else if s.resourcesDiffer x.part b then 0x14
  else if s.sharesBad x then 0x15
  else if s.slicesBad x then 0x16
  else if ks.any (s.slicePositionsBad x) then 0x17
  else if ks.any (fun k => (List.range (s.commitCount b k)).any (s.commitBad x k)) then 0x18
  else if ks.any (s.sliceTagsBad b) then 0x19
  else if ks.any (s.sliceAltsBad b) then 0x1A
  else 0

end Sys2Proof.Machine
end

