-- ==== Sys2Proof/Machine/WorkCheck.lean ====
section
/-!
DEFINITION. The checks of a Block's work lists, plans and port slots at job enable (07_parameter_update.md R254, R255;
09_mapping_and_reblock.md R317, R319, R325, R330; 10_fabric_and_ethernet.md R366; 11_generation.md, Generation descriptor).
-/

namespace Sys2Proof.Machine
open Sys2Proof

/-! ## Coefficient Table rows as they stand in memory -/

def State.coefAddr (s : State) (r : Nat) : Nat := s.rg Obj.COEF_BASE + 64 * r
def State.coefRow (s : State) (r : Nat) : CoefRow := s.memRec (s.coefAddr r) 64
/-- Whether a row of the table is enabled: ENABLE set and REFUSAL 0x00 (0x2300:03). -/
def State.coefEnabled (s : State) (r : Nat) : Bool :=
  s.tableSet 5 && r < 1024 && Cf.enable.get (s.coefRow r) == 1 && Cf.refusal.get (s.coefRow r) == 0

/-! ## The Kettle work list (R255) -/

/-- Every item of a Block's Kettle work lists, slice by slice, with its slice. -/
def State.kettleItems (s : State) (b : Nat) : List (Nat × BitVec 512) :=
  (s.sliceNumbers b).flatMap (fun k => (List.range (s.kettleCount b k)).map (fun n => (k, s.kettleEntry b k n)))

/-- The moment entries that an item names. -/
def kettleMoments (e : BitVec 512) : List Nat := [Kt.s1.get e, Kt.s2.get e].filter (· != noEntry)
/-- The entries that an item names. -/
def kettleEntries (e : BitVec 512) : List Nat := Kt.w.get e :: Kt.g.get e :: Kt.scalar.get e :: kettleMoments e

/-- The rows that some items of a partition's Block name on a Kettle unit. -/
def State.rowsOn (s : State) (p u : Nat) (items : List (BitVec 512)) : List Nat :=
  ((items.filter (fun e => s.unitOf p (Kt.unit.get e) == some u)).map Kt.row.get).eraseDups

/-- The rows that a unit's row store holds for jobs other than job `j` of partition `p` (R240): each job has its own snapshots. -/
def State.rowsHeld (s : State) (p j u : Nat) : Nat :=
  ((List.range 12).flatMap (fun p' => ((s.pt p').jobs.filter (fun kv => !(p' == p && kv.1 == j)
      && (Job.state.get kv.2 == jsAccepted || Job.state.get kv.2 == jsTicking || Job.state.get kv.2 == jsStopped))).map (fun kv =>
    (s.rowsOn p' u ((s.kettleItems (s.blockOf p' kv.1)).map (·.2))).length))).sum

/-- ITEM_ROW (0x58): a row that is not enabled or not the partition's, or a unit that would hold more than 64 rows. -/
def State.itemRowBad (s : State) (p j : Nat) (items : List (BitVec 512)) : Bool :=
  items.any (fun e => let o := Cf.owner.get (s.coefRow (Kt.row.get e))
      !s.coefEnabled (Kt.row.get e) || !(o == p || o == 0xF))
    || ((items.map Kt.unit.get).eraseDups.filterMap (s.unitOf p)).any (fun u => (s.rowsOn p u items).length + s.rowsHeld p j u > 64)

/-- Whether an enabled entry belongs to a partition. -/
def State.resOf (s : State) (p i : Nat) : Bool := s.resEnabled i && Rs.partition.get (s.resE i) == p

/-- KIND optimizer state (R143). -/
abbrev kindOptimizer : Nat := 3

/-- ITEM_KIND (0x5A). -/
def State.itemKindBad (s : State) (e : BitVec 512) : Bool :=
  Rs.kind.get (s.resE (Kt.w.get e)) != kindWeight || (kettleMoments e).any (fun i => Rs.kind.get (s.resE i) != kindOptimizer)
    || Rs.class_.get (s.resE (Kt.g.get e)) != classGradient || Rs.kind.get (s.resE (Kt.scalar.get e)) != kindOptimizer

/-- ITEM_FORMAT (0x5B). -/
def State.itemFormatBad (s : State) (e : BitVec 512) : Bool :=
  let f := fun i => Rs.format.get (s.resE i)
  f (Kt.w.get e) > 0x08 || (kettleMoments e).any (fun i => !([0x06, 0x08, 0x10].contains (f i))) || f (Kt.g.get e) != 0x10

/-- Whether an entry lies wholly behind a Kettle unit. -/
def State.behindUnit (s : State) (u i : Nat) : Bool :=
  let e := s.resE i
  ctrlOf (ResEntry.slotAddr e 0) == some u && ctrlOf (ResEntry.slotAddr e 0 + ResEntry.bytes e - 1) == some u

/-- ITEM_PLACE (0x5C). -/
def State.itemPlaceBad (s : State) (p : Nat) (e : BitVec 512) : Bool :=
  match s.unitOf p (Kt.unit.get e) with
  | some u => (kettleEntries e).any (fun i => !s.behindUnit u i)
  | none => true

/-- ITEM_SHAPE (0x5D). -/
def State.itemShapeBad (s : State) (e : BitVec 512) : Bool :=
  let w := s.resE (Kt.w.get e)
  let row := s.coefRow (Kt.row.get e)
  (Kt.g.get e :: kettleMoments e).any (fun i => Rs.rows.get (s.resE i) != Rs.rows.get w || Rs.cols.get (s.resE i) != Rs.cols.get w)
    || (Cf.useS1.get row == 1) != (Kt.s1.get e != noEntry) || (Cf.useS2.get row == 1) != (Kt.s2.get e != noEntry)

/-- What the items of one sweep share. -/
def sweepKey (e : BitVec 512) : Nat := 64 * Kt.unit.get e + Kt.slot.get e
def sweepNames (e : BitVec 512) : List Nat := [Kt.w.get e, Kt.s1.get e, Kt.s2.get e, Kt.g.get e, Kt.row.get e, Kt.group.get e]

/-- One item added to the sweeps that are open in a step: the sweeps, the weight entries swept in the step, and whether all is
well (0x5E). -/
def sweepItem (t : SMap (List Nat) × List Nat × Bool) (e : BitVec 512) : SMap (List Nat) × List Nat × Bool :=
  let (open_, ws, ok) := t
  let k := sweepKey e
  let here := SMap.get? open_ k
  let ok := ok && Kt.group.get e ≤ 65535
    && (if Kt.first.get e = 1 then here.isNone && !ws.contains (Kt.w.get e) else here == some (sweepNames e))
  let ws := if Kt.first.get e = 1 then Kt.w.get e :: ws else ws
  (if Kt.last.get e = 1 then SMap.del open_ k else SMap.ins open_ k (sweepNames e), ws, ok)

/-- ITEM_SWEEP (0x5E): the sweeps followed in slice order. -/
def State.itemSweepBad (s : State) (b : Nat) : Bool :=
  let (open_, _, ok) := (s.sliceNumbers b).foldl (fun t k =>
    let (open_, ws, ok) := ((List.range (s.kettleCount b k)).map (s.kettleEntry b k)).foldl sweepItem t
    if (s.sliceHdr b k).stepEnd then (open_, [], ok && open_.isEmpty) else (open_, ws, ok)) ([], [], true)
  !(ok && open_.isEmpty)

/-- The Kettle work list codes in order, each over every item; a reserved bit and a reserved value give the generic codes. -/
def State.kettleCode (s : State) (p j b : Nat) : Nat :=
  let es := (s.kettleItems b).map (·.2)
  firstCode [
    (es.any (fun e => Kt.flagsRsv.get e != 0 || Kt.rsv0.get e != 0 || Kt.rsv1.get e != 0), 0x01),
    (es.any (fun e => Kt.op.get e != 1 || Kt.slot.get e > 63 || Kt.blocks.get e == 0 || Kt.blocks.get e > 1048576), 0x02),
    (s.itemRowBad p j es, 0x58),
    (es.any (fun e => (kettleEntries e).any (fun i => !s.resOf p i)), 0x59),
    (es.any s.itemKindBad, 0x5A),
    (es.any s.itemFormatBad, 0x5B),
    (es.any (s.itemPlaceBad p), 0x5C),
    (es.any s.itemShapeBad, 0x5D),
    (s.itemSweepBad b, 0x5E),
    (es.any (fun e => (ResEntry.sizes (s.resE (Kt.scalar.get e))).1 < 32), 0x5F)]

/-! ## Reblock plans (R325) -/

/-- Whether an entry is an enabled record entry of the partition with format 0x12 and so many COLS. -/
def State.recordOf (s : State) (p i cols : Nat) : Bool :=
  s.resOf p i && Rs.class_.get (s.resE i) == classRecord && Rs.format.get (s.resE i) == 0x12 && Rs.cols.get (s.resE i) == cols

/-- A Residency endpoint of a REDUCE item: OFFSET 0, and its entry. -/
def State.reduceEntry (s : State) (p w : Nat) (dest : Bool) : Option ResEntry :=
  match endpointOf w with
  | .res sel _ i off => if off = 0 && s.resOf p i && (!dest || sel) then some (s.resE i) else none
  | _ => none

/-- Whether a REDUCE item meets R317 and its ranges. -/
def State.reduceOk (s : State) (p : Nat) (e : RbItem) : Bool :=
  let n := Rb.inputs.get e
  let f := fun (x : ResEntry) => Rs.format.get x
  match s.reduceEntry p (Rb.dest.get e) true with
  | none => false
  | some d =>
    1 ≤ n && n ≤ 9 && Rb.build.get e == 0 && Rb.node.get e ≤ 447 && 1 ≤ Rb.count.get e && Rb.count.get e ≤ 1048576
      && (f d ≤ 0x08 || f d == 0x10 || f d == 0x11) && Rb.span.get e + Rb.count.get e ≤ ResEntry.blocks d
      && (List.range n).all (fun k => match s.reduceEntry p ((Rb.input k).get e) false with
        | some x => (f x == 0x10 || f x == 0x11 || f x == 0x08) && Rs.rows.get x == Rs.rows.get d && Rs.cols.get x == Rs.cols.get d
        | none => false)

/-- Whether an endpoint of a MOVE with a rectangle at a row and column block is legal; the format of its entry. -/
def State.moveEnd (s : State) (p w row col : Nat) (e : RbItem) (dest : Bool) : Option (Option Nat) :=
  match endpointOf w with
  | .queue .. => some none
  | .res sel _ i _ =>
    let x := s.resE i
    let f := Rs.format.get x
    if s.resOf p i && (!dest || sel) && (f ≤ 0x08 || f == 0x12) && row + Rb.count.get e ≤ Rs.rows.get x
        && col + Rb.span.get e ≤ ceilDiv (Rs.cols.get x) 32 then some (some f) else none
  | _ => none

/-- Whether a MOVE item meets R319 and its rectangles lie in their entries. -/
def State.moveOk (s : State) (p : Nat) (e : RbItem) : Bool :=
  Rb.inputs.get e == 1 && Rb.node.get e == 0 && Rb.moveRsv.get e == 0
    && match s.moveEnd p (Rb.source.get e) (Rb.srcRow.get e) (Rb.srcCol.get e) e false,
        s.moveEnd p (Rb.dest.get e) (Rb.dstRow.get e) (Rb.dstCol.get e) e true with
      | some (some a), some (some c) => a == c
      | some (some _), some none => true
      | some none, some (some _) => true
      | _, _ => false

/-- Whether every item of a plan ends before the closing guard, each starting at its START_NS or at the bound of the engine's item
before it in the slice (R315, R325); `prev` is the slice and end of that item. -/
def State.planEnds (s : State) (p b q : Nat) : Nat × Nat → List RbItem → Bool
  | _, [] => true
  | prev, e :: es =>
    let start := if prev.1 = Rb.slice.get e then Nat.max (Rb.startNs.get e) prev.2 else Rb.startNs.get e
    let end_ := start + s.rbBound p q e
    end_ ≤ s.blkGuard b && s.planEnds p b q (Rb.slice.get e, end_) es

/-- Whether an item's fields, slice and operands meet R325. -/
def State.planItemOk (s : State) (p b : Nat) (e : RbItem) : Bool :=
  Rb.flagsRsv.get e == 0 && Rb.rsv0.get e == 0 && Rb.rsv1.get e == 0 && Rb.rsv2.get e == 0
    && Rb.slice.get e < s.blkSliceCount b
    && (if Rb.op.get e = 1 then s.reduceOk p e else Rb.op.get e == 2 && s.moveOk p e)

/-- The rows of a list of items in ascending order of SLICE and then START_NS. -/
def planAscends : List RbItem → Bool
  | a :: b :: l => (Rb.slice.get a < Rb.slice.get b || (Rb.slice.get a == Rb.slice.get b && Rb.startNs.get a ≤ Rb.startNs.get b)) && planAscends (b :: l)
  | _ => true

def State.planItems (s : State) (b q : Nat) : List RbItem :=
  match s.plan b q with
  | some i => (List.range (s.planRows i)).map (s.planRow i)
  | none => []

/-- The build keys that the bursts and Reblock items of a quarter use (R321). -/
def State.buildKeys (s : State) (p b q : Nat) : List (Nat × Nat) :=
  let of := fun (w build : Nat) => match endpointOf w with
    | .res false _ i _ => if build = 0 then [] else [(build, i)]
    | _ => []
  (((s.planItems b q).filter (fun e => Rb.op.get e == 2)).flatMap (fun e => of (Rb.source.get e) (Rb.build.get e))
    ++ (s.sliceNumbers b).flatMap (fun k => (List.range (s.burstCount b k)).flatMap (fun n =>
        let e := s.burst b k n
        if s.burstQuarter p e = q then of (Bu.source.get e) (Bu.build.get e) else []))).eraseDups

/-- Whether a plan fails R325. -/
def State.planBad (s : State) (p b q : Nat) : Bool :=
  match s.plan b q with
  | none => (s.buildKeys p b q).length > 1024
  | some i =>
    !s.recordOf p i 32 || !planAscends (s.planItems b q) || (s.planItems b q).any (fun e => !s.planItemOk p b e)
      || !s.planEnds p b q (0, 0) (s.planItems b q)
      || (s.buildKeys p b q).length > 1024 || (s.blkShare b q == 0 && !(s.planItems b q).isEmpty)

/-! ## The generation descriptor (11) -/

/-- The descriptor that a Block names, in row 0 of its entry. -/
def State.blockDesc (s : State) (b : Nat) : Option (BitVec 1024) :=
  (s.symbol b "$generation").map (fun i => s.memRec (ResEntry.curAddr (s.resE i)) 128)

/-- Whether a named entry of the partition has a format, COLS and, where stated, rows. -/
def State.shaped (s : State) (p i fmt cols : Nat) (rows : Option Nat) : Bool :=
  s.resOf p i && Rs.format.get (s.resE i) == fmt && Rs.cols.get (s.resE i) == cols && rows.all (· == Rs.rows.get (s.resE i))

def State.descBad (s : State) (p b : Nat) : Bool :=
  match s.symbol b "$generation", s.blockDesc b with
  | some i, some d =>
    let n := Gd.batches.get d
    let lanes := n * (Gd.decodeLanes.get d + Gd.prefillLanes.get d)
    let t := Gd.stepTicks.get d
    let copy := Gd.copySet.get d
    let score := Gd.scoreEmit.get d
    !(s.recordOf p i 32 && [1, 2, 4, 8].contains (Gd.groupSize.get d) && 1 ≤ n && n ≤ 8
      && 16 ≤ Gd.prefillChunk.get d && Gd.prefillChunk.get d ≤ 8192 && 1 ≤ t && t ≤ 64 && Gd.specMax.get d ≤ 4 && lanes ≤ 8192
      && Gd.mode.get d ≤ 1 && (fb 0x4C 52).get d == 0
      && (copy == noEntry || (s.resOf p copy && Rs.class_.get (s.resE copy) == classRecord))
      && s.resOf p (Gd.versionEntry.get d)
      && s.shaped p (Gd.laneRecord.get d) 0x12 16 (some lanes)
      && s.shaped p (Gd.laneInputs.get d) 0x12 (Nat.max (Gd.specMax.get d + 1) (Gd.prefillChunk.get d)) (some lanes)
      && s.shaped p (Gd.emit.get d) 0x12 32 (some lanes)
      && (if score = noEntry then Gd.mode.get d == 0 else s.shaped p score 0x08 (Gd.prefillChunk.get d) none)
      && s.shaped p (Gd.batchRecord.get d) 0x12 4 (some n)
      && (s.sliceNumbers b).all (fun k => (s.sliceHdr b k).stepEnd == ((k + 1) % t == 0)))
  | _, _ => false

/-! ## What a Block names -/

def resIndex (w : Nat) : List Nat :=
  match endpointOf w with
  | .res _ _ i _ => [i]
  | _ => []

/-- The Residency entries that a Block's items and symbols name. -/
def State.blockNames (s : State) (b : Nat) : List Nat :=
  ((s.symbols b).map (·.index)
    ++ (s.sliceNumbers b).flatMap (fun k =>
      (List.range (s.burstCount b k)).flatMap (fun n => resIndex (Bu.source.get (s.burst b k n)) ++ resIndex (Bu.dest.get (s.burst b k n)))
        ++ (List.range (s.slotCount b k)).flatMap (fun n => resIndex (Ps.buffer.get (s.slotEntry b k n)))
        ++ (s.commits b k).map (·.index))
    ++ (s.kettleItems b).flatMap (fun x => kettleEntries x.2)
    ++ (List.range 4).flatMap (fun q => (s.planItems b q).flatMap (fun e =>
        resIndex (Rb.dest.get e) ++ (if Rb.op.get e = 1 then (List.range (Rb.inputs.get e)).flatMap (fun k => resIndex ((Rb.input k).get e))
          else resIndex (Rb.source.get e))))).eraseDups

/-- PLAN (0x1E). -/
def State.planCodeBad (s : State) (p b : Nat) : Bool :=
  (List.range 4).any (s.planBad p b) || s.descBad p b
    || (s.rg (Obj.LEDGER_INDEX p) != noEntry && (s.blockNames b).contains (s.rg (Obj.LEDGER_INDEX p)))

/-! ## Port slots (R366) -/

/-- A stream as the check sees it: enabled, or accepted and taken up at the next edge. -/
def State.streamSoon (s : State) (i : Nat) : Stream :=
  if Sm.enable.get (s.streamE i) = 1 then s.streamE i else SMap.getD 0 s.streamPending i

/-- The ns by which the last frame of a transmit slot is acknowledged after its START_NS (R358); the peer's SWITCH_BOUND_NS is
taken to equal the sending port's. -/
def State.slotBound (s : State) (port : Nat) (e : Stream) (length : Nat) : Nat :=
  ceilDiv ((Stream.frames e length - 1) * Stream.wireBytes e (Sm.framePayload.get e)) 100 + 2500 + 2 * s.rg (Obj.SWITCH_BOUND_NS port)

def State.portSlotBad (s : State) (x : JobOffer) (k n : Nat) : Bool :=
  let p := x.part
  let e := s.slotEntry x.block k n
  let st := s.streamSoon (Ps.stream.get e)
  let dir := Ps.direction.get e
  match s.slotPort p e with
  | none => true
  | some port =>
    !(Sm.enable.get st == 1 && Sm.partition.get st == p && Sm.job.get st == Job.job.get x.entry) || Sm.primary.get st != port
      || dir > 1 || Ps.length.get e == 0 || Ps.length.get e > 67108864
      || (dir == dirTx && Ps.durationNs.get e < s.slotBound port st (Ps.length.get e))
      || (match endpointOf (Ps.buffer.get e) with
        | .res sel _ _ _ => dir == dirRx && !sel
        | .queue q l d _ => !(s.logicalPort p q l == some port && d == dir)
        | .batt .. => false
        | .illegal => true)

def State.portSlotsBad (s : State) (x : JobOffer) : Bool :=
  (s.sliceNumbers x.block).any (fun k => (List.range (s.slotCount x.block k)).any (s.portSlotBad x k))

end Sys2Proof.Machine
end

