-- ==== Sys2Proof/Machine/ResilienceCheck.lean ====
section
/-!
DEFINITION. The resilience checks at job enable (12_resilience.md R410, R412, R413, R419, R421, R425) and the pins of a job
(08_memory_and_residency.md R293; 10_fabric_and_ethernet.md R365).
-/

namespace Sys2Proof.Machine
open Sys2Proof

/-! ## Pins (R293, R365) -/

/-- The quarter of the memory of an entry; the first for the reference store. -/
def State.entryQuarter (s : State) (i : Nat) : Nat :=
  match ctrlOf (ResEntry.slotAddr (s.resE i) 0) with
  | some m => ctrlQuarter m
  | none => 0

/-- The quarters in which an endpoint is used. -/
def State.endQuarters (s : State) (w : Nat) : List Nat :=
  match endpointOf w with
  | .res _ _ i _ => [s.entryQuarter i]
  | .batt q _ _ => [q]
  | .queue q _ _ _ => [q]
  | .illegal => []

/-- The entries that a Block uses, each with a quarter that uses it: those of bursts in the quarters of both endpoints, of port
slots in the port's and the entry's quarter, of commits in the entry's quarter, of Kettle items in the unit's. -/
def State.blockUses (s : State) (b : Nat) : List (Nat × Nat) :=
  ((s.sliceNumbers b).flatMap (fun k =>
      (List.range (s.burstCount b k)).flatMap (fun n =>
          let e := s.burst b k n
          let qs := (s.endQuarters (Bu.source.get e) ++ s.endQuarters (Bu.dest.get e)).eraseDups
          (resIndex (Bu.source.get e) ++ resIndex (Bu.dest.get e)).flatMap (fun i => qs.map (i, ·)))
        ++ (List.range (s.slotCount b k)).flatMap (fun n =>
          let e := s.slotEntry b k n
          (resIndex (Ps.buffer.get e)).flatMap (fun i => [(i, s.blkPortQuarter b (Ps.port.get e)), (i, s.entryQuarter i)]))
        ++ (s.commits b k).map (fun c => (c.index, s.entryQuarter c.index)))
    ++ (s.kettleItems b).flatMap (fun x => (kettleEntries x.2).map (·, Kt.unit.get x.2 / 32 % 4))).eraseDups

/-- The entries that a Block uses in a quarter, those of its stitch programs among them. -/
def State.pinsIn (s : State) (b : Nat) (stitch : List (Nat × Nat)) (q : Nat) : List Nat :=
  (((s.blockUses b ++ stitch).filter (fun x => x.2 == q)).map (·.1)).eraseDups

/-- The streams that a Block's port slots name on the ports of a quarter. -/
def State.streamPinsIn (s : State) (b q : Nat) : List Nat :=
  ((s.sliceNumbers b).flatMap (fun k => ((List.range (s.slotCount b k)).filter (fun n => s.blkPortQuarter b (Ps.port.get (s.slotEntry b k n)) == q)).map
    (fun n => Ps.stream.get (s.slotEntry b k n)))).eraseDups

/-- What all accepted jobs pin in a quarter. -/
def State.pinnedIn (s : State) (f : Part → SMap (List Nat)) (q : Nat) : List Nat :=
  ((List.range 12).flatMap (fun p => ((f (s.pt p)).filter (fun kv => kv.1 % 4 == q)).flatMap (·.2))).eraseDups

/-- Whether an entry passes the checks of R290 on its memory image as it is pinned. -/
def State.pinOk (s : State) (i : Nat) : Bool :=
  s.resEnabled i && s.resCheck i (s.resImage i) (s.imagePoison (s.resImageAddr i) 32) true true == 0

/-- PIN_LIMIT (0x1C). -/
def State.pinsBad (s : State) (b : Nat) (stitch : List (Nat × Nat)) : Bool :=
  ((s.blockUses b ++ stitch).map (·.1)).eraseDups.any (fun i => !s.pinOk i)
    || (List.range 4).any (fun q => (s.pinnedIn (·.pins) q ++ s.pinsIn b stitch q).eraseDups.length > 8192
        || (s.pinnedIn (·.streamPins) q ++ s.streamPinsIn b q).eraseDups.length > 256)

/-- The pins of an accepted job taken. -/
def State.pinJob (s : State) (p j b : Nat) (stitch : List (Nat × Nat)) : State :=
  (s.modPt p (fun x => { x with
    stitch := SMap.put [] x.stitch j stitch,
    pins := (List.range 4).foldl (fun m q => SMap.put [] m (4 * j + q) (s.pinsIn b stitch q)) x.pins,
    streamPins := (List.range 4).foldl (fun m q => SMap.put [] m (4 * j + q) (s.streamPinsIn b q)) x.streamPins })).countPins

/-- Whether a Block makes its job a PRESS job: an entry that it pins has CKPT PRESS. -/
def State.pressBlock (s : State) (b : Nat) : Bool := (s.blockUses b).any (fun x => Rs.ckpt.get (s.resE x.1) == ckptPress)

/-! ## Staging (R413, R414) -/

/-- The entries that a press copy saves: slot CUR of those with CKPT PRESS, and of those in GDDR7 with CKPT MIRROR. -/
def State.savedEntries (s : State) (p : Nat) : List Nat :=
  (s.resList.filter (fun kv => Rs.partition.get kv.2 == p && (Rs.ckpt.get kv.2 == ckptPress
    || (Rs.ckpt.get kv.2 == ckptMirror && Rs.tier.get kv.2 == tierGddr)))).map (·.1)

/-- Bytes of a saved entry: its element region followed by its scale region. -/
def ResEntry.savedBytes (e : ResEntry) : Nat := (ResEntry.sizes e).1 + (ResEntry.sizes e).2

/-- Bytes of one generation: directory, entries and position record. -/
def State.generationBytes (s : State) (p : Nat) : Nat :=
  128 * (s.savedEntries p).length + ((s.savedEntries p).map (fun i => ResEntry.savedBytes (s.resE i))).sum + 64

/-- The CXL port behind which an entry is staged: X(d div 6) for device Gd. -/
def State.stagePort (s : State) (i : Nat) : Nat := ResEntry.slotAddr (s.resE i) 0 / 2 ^ 32 / 6

/-- Where a byte of a generation lies behind a port: at STAGING_BASE's offset in the port's window, plus the generation's place. -/
def State.stageAddr (s : State) (p gen port off : Nat) : Nat :=
  cxlBase port + s.rg (Obj.STAGING_BASE p) % 2 ^ 41 + gen * (s.rg (Obj.STAGING_BYTES p) / 2) + off

/-- The port of STAGING_BASE itself, which takes the directory and the position record. -/
def State.stageHome (s : State) (p : Nat) : Nat := (s.rg (Obj.STAGING_BASE p) - 0x1000_0000_0000) / 2 ^ 41

/-- STAGING_RANGE (0x63): the staging lies outside the partition's CXL ranges at a port that it uses, or cannot hold two
generations. -/
def State.stagingBad (s : State) (p : Nat) : Bool :=
  let a := s.rg (Obj.STAGING_BASE p)
  let n := s.rg (Obj.STAGING_BYTES p)
  !isCxl a || a % 65536 != 0 || s.generationBytes p > n / 2
    || (s.stageHome p :: (s.savedEntries p).map s.stagePort).any (fun x => match (s.pt p).built with
      | some r => !r.cxl.any (fun c => c.1 == x && c.2.1 * 65536 ≤ a % 2 ^ 41 && a % 2 ^ 41 + n ≤ (c.2.1 + c.2.2) * 65536)
      | none => true)

/-! ## Destinations (R412, R421) -/

/-- The entries that commits, Reblock items, Kettle items and receive-expected slots of a Block change. -/
def State.blockChanges (s : State) (b : Nat) : List Nat :=
  ((s.sliceNumbers b).flatMap (fun k => (s.commits b k).map (·.index)
      ++ ((List.range (s.slotCount b k)).filter (fun n => Ps.direction.get (s.slotEntry b k n) == dirRx)).flatMap
        (fun n => resIndex (Ps.buffer.get (s.slotEntry b k n))))
    ++ (s.kettleItems b).flatMap (fun x => Kt.w.get x.2 :: kettleMoments x.2)
    ++ (List.range 4).flatMap (fun q => (s.planItems b q).flatMap (fun e => resIndex (Rb.dest.get e)))).eraseDups

/-- MIXED_POINT (0x64). -/
def State.mixedPoint (s : State) (b : Nat) : Bool :=
  s.pressBlock b && (s.blockChanges b).any (fun i => Rs.ckpt.get (s.resE i) == ckptMirror && Rs.tier.get (s.resE i) != tierGddr)

/-- The rows of a map of 4 B words: `cols` words each. -/
def State.wordRows (s : State) (i cols : Nat) : List (List Nat) :=
  (List.range (Rs.rows.get (s.resE i))).map (fun n => (List.range cols).map (fun c => s.word32 i (cols * n + c)))

/-- MIRROR_MAP (0x66). -/
def State.mirrorMapBad (s : State) (p b : Nat) : Bool :=
  let rows := fun (n : String) => match s.symbol b n with
    | some i => if s.recordOf p i 4 then some (s.wordRows i 4) else none
    | none => some []
  match rows "$mirror", rows "$mirror.held" with
  | some out, some held =>
    (s.blockChanges b).any (fun i => Rs.ckpt.get (s.resE i) == ckptMirror && !out.any (fun r => r.headD noEntry == i))
      || out.any (fun r => !s.resEnabled (r.headD noEntry)) || held.any (fun r => !s.resEnabled (r.getD 1 noEntry))
  | _, _ => true

/-! ## The resume plan (R410) -/

/-- Whether a slice holds a Kettle FIRST item. -/
def State.hasFirst (s : State) (b k : Nat) : Bool := (List.range (s.kettleCount b k)).any (fun n => Kt.first.get (s.kettleEntry b k n) == 1)

/-- Whether a slice writes an entry of CLASS gradient by a commit, Reblock item or receive-expected slot, or holds a commit tagged
with a micro-batch. -/
def State.writesGradient (s : State) (b k : Nat) : Bool :=
  let g := fun (i : Nat) => Rs.class_.get (s.resE i) == classGradient
  (s.commits b k).any (fun c => c.kind == 1 || g c.index)
    || (List.range (s.slotCount b k)).any (fun n => let e := s.slotEntry b k n
        Ps.direction.get e == dirRx && (resIndex (Ps.buffer.get e)).any g)
    || (List.range 4).any (fun q => (s.planItems b q).any (fun e => Rb.slice.get e == k && (resIndex (Rb.dest.get e)).any g))

/-- RESUME_PLAN (0x65). -/
def State.resumePlanBad (s : State) (p b : Nat) : Bool :=
  let ends := (s.sliceNumbers b).filter (fun k => (s.sliceHdr b k).stepEnd)
  match s.symbol b "$resume" with
  | none => !ends.isEmpty
  | some i =>
    if !s.recordOf p i 4 then true
    else
      let rows := s.wordRows i 4
      ends.any (fun k => !rows.any (fun r => r.getD 2 0 == k))
        || rows.any (fun r =>
          let u := r.getD 1 0
          (s.sliceNumbers b).any (fun k => r.getD 0 0 ≤ k && k ≤ r.getD 2 0
            && (if u == noEntry || k < u then s.hasFirst b k else s.writesGradient b k)))

/-! ## Drain windows (R419) -/

structure DrainRow where
  slice : Nat
  port : Nat
  start : Nat
  dur : Nat
  dir : Nat
  stream : Nat
  deriving DecidableEq, Repr

/-- The rows of a Block's plan "$press.drain"; none where the plan is no record entry of the right shape. -/
def State.drainPlan (s : State) (p b : Nat) : Option (List DrainRow) :=
  match s.symbol b "$press.drain" with
  | none => some []
  | some i => if s.recordOf p i 8 then some ((s.wordRows i 8).map (fun r =>
      ⟨r.getD 0 0, r.getD 1 0, r.getD 2 0, r.getD 3 0, r.getD 4 0, r.getD 5 0⟩)) else none

/-- PRESS_WINDOW (0x6C). -/
def State.pressWindowBad (s : State) (p b : Nat) : Bool :=
  match s.drainPlan p b with
  | none => true
  | some rows => rows.any (fun r =>
      Sm.class_.get (s.streamSoon r.stream) != classControl
        || (List.range (s.slotCount b r.slice)).any (fun n => let e := s.slotEntry b r.slice n
            r.slice < s.blkSliceCount b && Ps.port.get e == r.port && overlaps (Ps.startNs.get e) (Ps.durationNs.get e) r.start r.dur))

/-- The resilience codes in their order. -/
def State.resilienceCode (s : State) (x : JobOffer) : Nat :=
  let p := x.part
  let b := x.block
  firstCode [
    (Job.jobModule.get x.entry != s.rg (Obj.SELF_MODULE p) && (s.rg (Obj.HOLDER_MODULE p) != 0xFF || s.rg (Obj.MIRROR_OF p) != 0xFF), 0x60),
    (s.pressBlock b && s.stagingBad p, 0x63),
    (s.mixedPoint b, 0x64),
    (s.resumePlanBad p b, 0x65),
    (s.mirrorMapBad p b, 0x66),
    (s.pressWindowBad p b, 0x6C)]

end Sys2Proof.Machine
end

