-- ==== Sys2Proof/Machine/JobCheck.lean ====
section
/-!
DEFINITION. Enabling, disabling and cancelling jobs (13_management.md R470 to R476; 02_tick_and_schedule.md R79, R82): the commands
JOB_ENABLE, JOB_CHECK_DONE, JOB_DISABLE and JOB_CANCEL.
-/

namespace Sys2Proof.Machine
open Sys2Proof

/-- Whether the edge that begins tick `t` of a partition falls at or before the present instant (R33, R79, R474). -/
def State.edgePassed (s : State) (p t : Nat) : Bool :=
  (s.rg (Obj.TICK_EPOCH_GRAIN p) + t * s.rg (Obj.TICK_GRAINS p)) * 10000 ≤ s.now

/-- Reserved bits of a Job Table entry. -/
def jobReserved (e : BitVec 1024) : Bool :=
  (fm 0 30 24).get e != 0 || (fm 0 15 11).get e != 0 || (fm 0 7 0).get e != 0 || (fb 0x07 1).get e != 0 || (fb 0x49 55).get e != 0

/-- The checks of an offer in the order of R470, after 0x03, 0x05 and 0x06. -/
def State.jobCode (s : State) (x : JobOffer) : Nat :=
  let p := x.part
  let b := x.block
  let start := Job.startTick.get x.entry
  if s.imagePoison (s.jobAddr p x.index) 128 then 0x04
  else if jobReserved x.entry then 0x01
  else if s.jobFieldBad x then 0x10
  else if s.imagePoison x.addr x.length then 0x04
  else if s.blockCode x != 0 then s.blockCode x
  else if start != 0 && s.edgePassed p start then 0x1B
  else if s.kettleCode p x.index b != 0 then s.kettleCode p x.index b
  else if s.planCodeBad p b then 0x1E
  else if s.portSlotsBad x then 0x1D
  else if s.resilienceCode x != 0 then s.resilienceCode x
  else if s.pinsBad b x.stitch then 0x1C
  else 0

/-- The codes that a RESUME runs again (R436): the Block checks, and those of pins and streams. -/
def State.resumeCode (s : State) (x : JobOffer) : Nat :=
  let p := x.part
  let b := x.block
  if s.imagePoison x.addr x.length then 0x04
  else if s.blockCode x != 0 then s.blockCode x
  else if s.kettleCode p x.index b != 0 then s.kettleCode p x.index b
  else if s.planCodeBad p b then 0x1E
  else if s.portSlotsBad x then 0x1D
  else if s.resilienceCode x != 0 then s.resilienceCode x
  else if s.pinsBad b x.stitch then 0x1C
  else 0

/-! ## Acceptance -/

/-- The objects of R144 as the module takes them for a job. -/
def State.takeNumerics (s : State) : SMap Word :=
  ((List.range 4).flatMap (fun i => (List.range 16).map (fun k => okey (0x2100 + i) k))).foldl (fun m key =>
    SMap.put (objDefault key) m key (BitVec.ofNat 64 (s.rg key))) []

/-- The rows that a Block's Kettle work lists name, copied for a job (R240). -/
def State.takeRows (s : State) (p j b : Nat) : State :=
  ((s.kettleItems b).map (fun x => Kt.row.get x.2)).eraseDups.foldl (fun t r =>
    t.modPt p (fun x => { x with rows := SMap.put 0 x.rows (1024 * j + r) (s.coefRow r) })) s

/-- The counters that start again when a job is accepted: scale histories and gauge log (04), Kettle (R256), mapping (R332). -/
def State.resetJobCounters (s : State) (p : Nat) : State :=
  ([okey (0x3006 + 0x100 * p) 2, okey (0x3006 + 0x100 * p) 3, okey (0x3006 + 0x100 * p) 4]
    ++ (List.range 0x16).map (fun i => okey (0x3007 + 0x100 * p) (i + 1))
    ++ (List.range 9).map (fun i => okey (0x3008 + 0x100 * p) (i + 2))
    ++ (List.range 6).map (fun i => okey (0x3009 + 0x100 * p) (i + 2))).foldl (fun t k => t.setRg k 0) s


/-- A lost history entry (R152): COUNT 0, NEXT 0, LOST 1, H of the job, and the kind's bit in HIST_LOST. -/
def State.loseHistory (s : State) (p i : Nat) : State :=
  let h := [(Hi.count, 0), (Hi.next, 0), (Hi.flags, Hi.flags.get (s.histEntry i) ||| 1), (Hi.h, s.rg Obj.HISTORY_LENGTH)].foldl
    (fun h f => f.1.set h f.2) (s.histEntry i)
  (s.memPut (ResEntry.curAddr (s.resE i)) (leBytes 272 h.toNat)).setRg (Obj.HIST_LOST p)
    (s.rg (Obj.HIST_LOST p) ||| 2 ^ Rs.kind.get (s.resE i))

/-- The history entries of a job as it finds them (R152): lost where they were not used since power-up, where their H
differs from HISTORY_LENGTH, or where `also` says so. -/
def State.checkHistories (s : State) (p b : Nat) (also : State → Nat → Bool) : State :=
  (s.histories p b).foldl (fun t i =>
    let t' := if !t.histUsed.contains i || Hi.h.get (t.histEntry i) != t.rg Obj.HISTORY_LENGTH || also t i then t.loseHistory p i else t
    { t' with histUsed := (t'.histUsed ++ [i]).eraseDups }) s

/-- A job is accepted: ENABLE, STATE ACCEPTED, pins, snapshots, and the counters of the partition started again. -/
def State.acceptJob (s : State) (x : JobOffer) : State :=
  let p := x.part
  let j := x.index
  let b := x.block
  let e := [(Job.enable, 1), (Job.refusal, 0), (Job.state, jsAccepted), (Job.slicesRun, 0), (Job.firstTick, 0), (Job.finalTick, 0),
    (Job.signer, s.jobSigner x)].foldl (fun e f => f.1.set e f.2) x.entry
  let nums := s.takeNumerics
  let s := s.putJob p j e
  let s := (((s.pinJob p j b x.stitch).takeRows p j b).resetJobCounters p).checkHistories p b (fun _ _ => false)
  let s := (s.clearSources p).modPt p (fun t => { t with
    numerics := SMap.ins t.numerics j nums, builds := [], order := t.order ++ [j], accepted := SMap.put 0 t.accepted j s.now,
    descs := match s.blockDesc b with
      | some d => SMap.ins t.descs j d
      | none => SMap.del t.descs j })
  let s := if s.rg (Obj.CO_FED p) = 1 then s.notify 0x0061 p (s.rg (Obj.HOLDER_MODULE p)) (s.rg Obj.FEED_TAG) else s
  s.updatePart p

/-- The outcome of a check: the code in the entry and in the session's JOB_RESULT, and JOB_CHECKED. -/
def State.jobChecked (s : State) (id : Nat) (x : JobOffer) (code : Nat) : State :=
  let p := x.part
  let s := if code = 0 then s.acceptJob x
    else if code = 0x06 then s
    else s.putJob p x.index (Job.state.set (Job.refusal.set (Job.enable.set x.entry 0) code) jsIdle)
  (s.setWin id (Obj.JOB_RESULT p) code).notify 0x0010 p x.index code

/-! ## The commands -/

/-- JOB_COMMAND 0x01 on JOB_INDEX: the check of the entry begins. -/
def State.jobEnable (s : State) (id p : Nat) : State × Answer :=
  let j := s.win id (Obj.JOB_INDEX p)
  if (s.pt p).built.isNone then (s.setWin id (Obj.JOB_RESULT p) 0x03, .ok)
  else if Job.enable.get ((s.pt p).job j) = 1 then ((s.setWin id (Obj.JOB_RESULT p) 0x06).notify 0x0010 p j 0x06, .ok)
  else
    let e : BitVec 1024 := s.memRec (s.jobAddr p j) 128
    let s := (s.putJob p j (Job.state.set (Job.enable.set e 0) jsChecking)).setWin id (Obj.JOB_RESULT p) 0xFF
    ({ s with checks := s.checks ++ [(p, j, id)] }, .ok)

/-- JOB_ENABLE (R470). -/
def execJobEnable (sess : Nat) (p : PartId) (s : State) : Out := s.command sess (Obj.JOB_COMMAND p) 1 (fun s => (s.jobEnable sess p).1)

/-- Whether a partition defers the acceptance of jobs: one of its devices retrains (R268), or a helper activation runs in a
quarter of which it holds a part (R476). -/
def State.defersJobs (s : State) (p : Nat) : Bool :=
  (match (s.pt p).built with
    | some r => (bitsOf 48 r.devices).any (fun d => s.rg (Obj.DEV_STATE d) == devTraining)
    | none => false)
  || (match s.actRun with
    | some (g, _) => match targetOf g with
      | some (t, q) => t != 1 && (s.partsIn q).contains p
      | none => false
    | none => false)

/-- JOB_CHECK_DONE (R470): the oldest check of the partition ends. -/
def execJobCheckDone (p : PartId) (x : JobChecked) (s : State) : Out :=
  let ⟨at_, stitch⟩ := x
  match s.checks.find? (fun c => c.1 == p.val) with
  | none => .next s
  | some c =>
    let j := c.2.1
    let t := s.at at_
    let x := t.jobOffer p j stitch
    let code := if Job.enable.get ((t.pt p).job j) = 1 then 0x06 else t.jobCode x
    takes (!(code == 0 && t.defersJobs p) && s.boot.milliner) s (fun _ =>
      ({ t with checks := t.checks.erase c } : State).jobChecked c.2.2 x code)

/-- JOB_COMMAND 0x02 on JOB_INDEX (R475); JOB_RESULT keeps the code of the last enable. -/
def State.jobDisable (s : State) (id p : Nat) : State × Answer :=
  let j := s.win id (Obj.JOB_INDEX p)
  if (s.pt p).built.isNone || Job.enable.get ((s.pt p).job j) = 0 then (s, .ok)
  else if [jsIdle, jsComplete, jsCancelled, jsAbandoned].contains (s.jobState p j) then ((s.setJobF p j Job.enable 0).unpin p j, .ok)
  else (s, .of stState)

/-- JOB_DISABLE (R475). -/
def execJobDisable (sess : Nat) (p : PartId) (s : State) : Out := s.command sess (Obj.JOB_COMMAND p) 2 (fun s => (s.jobDisable sess p).1)

/-- JOB_COMMAND 0x03 on JOB_INDEX and JOB_CANCEL_TICK. -/
def State.jobCancel (s : State) (id p : Nat) : State × Answer :=
  let j := s.win id (Obj.JOB_INDEX p)
  let t := s.win id (Obj.JOB_CANCEL_TICK p)
  let st := s.jobState p j
  if (s.pt p).built.isNone then (s, .ok)
  else if (t != 0 && s.edgePassed p t) || st = jsStopped then (s, .of stState)
  else if [jsComplete, jsCancelled, jsAbandoned].contains st then (s.setRg (Obj.CANCEL_ACK p) ackComplete, .ok)
  else (s.modPt p (fun x => { x with cancels := x.cancels.filter (fun c => c.index != j) ++ [⟨j, t⟩] }), .ok)

/-- JOB_CANCEL (R474). -/
def execJobCancel (sess : Nat) (p : PartId) (s : State) : Out := s.command sess (Obj.JOB_COMMAND p) 3 (fun s => (s.jobCancel sess p).1)

end Sys2Proof.Machine
end

