-- ==== Sys2Proof/Machine/Roce.lean ====
section
/-!
DEFINITION. RoCEv2 on the host port (10_fabric_and_ethernet.md R372 to R374; 13_management.md R473): queue pairs, regions, RDMA WRITE
and READ as responder, and the requester's acknowledgements and repetitions.
-/

namespace Sys2Proof.Machine
open Sys2Proof

/-! ## QP entry, 64 B, and region entry, 32 B -/
namespace Qe
def partition : Fld := fb 0x00 1
def access : Fld := fb 0x01 1
def mtu : Fld := fb 0x02 2
def remoteQpn : Fld := fb 0x04 4
def sqPsn : Fld := fb 0x08 4
def rqPsn : Fld := fb 0x0C 4
def gid : Fld := fb 0x10 16
def mac : Fld := fb 0x20 6
def retry : Fld := fb 0x26 1
def timeout : Fld := fb 0x27 1
def vlan : Fld := fb 0x28 2
def dscp : Fld := fb 0x2A 1
def maxReads : Fld := fb 0x2B 1
def rate : Fld := fb 0x2C 4
def rsv : Fld := fb 0x30 16
end Qe

namespace Re
def base : Fld := fb 0x00 8
def length : Fld := fb 0x08 8
def partition : Fld := fb 0x10 1
def access : Fld := fb 0x11 1
def rsv : Fld := fb 0x12 14
end Re

abbrev qpReset : Nat := 0
abbrev qpReady : Nat := 1
abbrev qpError : Nat := 2
/-- PSNs count in 24 bits. -/
abbrev psnMod : Nat := 2 ^ 24
/-- The local QPN of entry 0. -/
abbrev qpBase : Nat := 0x100

def State.qp (s : State) (i : Nat) : Qp := SMap.getD Qp.reset s.qps i
def State.setQp (s : State) (i : Nat) (q : Qp) : State := { s with qps := SMap.put Qp.reset s.qps i q }

/-! ## Connect and reset -/

/-- Whether a field of a QP entry is out of its range. -/
def qpFieldBad (e : BitVec 512) : Bool :=
  Qe.partition.get e > 11 || Qe.access.get e > 7 || !([1024, 2048, 4096].contains (Qe.mtu.get e)) || Qe.remoteQpn.get e ≥ psnMod
    || Qe.sqPsn.get e ≥ psnMod || Qe.rqPsn.get e ≥ psnMod || Qe.retry.get e > 7 || Qe.timeout.get e == 0 || Qe.timeout.get e > 31
    || Qe.dscp.get e > 63 || Qe.maxReads.get e == 0 || Qe.maxReads.get e > 16 || Qe.rate.get e < 1000 || Qe.rate.get e > 800000
    || Qe.rsv.get e != 0

/-- Whether the QP entry that a session's window names stands connected for a partition that the session may not act for (R460). -/
def State.qpForeign (s : State) (id : Nat) : Bool :=
  let q := s.qp (s.win id Obj.QP_INDEX)
  q.state != Machine.qpReset && !s.actsFor id (Qe.partition.get q.entry)

/-- QP_COMMAND 0x01 (R372, R460). -/
def State.qpConnect (s : State) (id : Nat) : State :=
  let i := s.win id Obj.QP_INDEX
  let e : BitVec 512 := BitVec.ofNat 512 (leNat (s.winDom id Obj.QP_DATA))
  let code := firstCode [
    (qpFieldBad e, 1),
    (!s.actsFor id (Qe.partition.get e) || (s.pt (Qe.partition.get e)).built.isNone || s.qpForeign id, 2),
    ((s.qp i).state != qpReset, 3)]
  let s := if code = 0 then s.setQp i { Qp.reset with entry := e, state := qpReady, sq := Qe.sqPsn.get e, rq := Qe.rqPsn.get e } else s
  s.setWin id Obj.QP_RESULT code

/-- QP_COMMAND 0x02 (R372, R460). -/
def State.qpReset (s : State) (id : Nat) : State :=
  if s.qpForeign id then s.setWin id Obj.QP_RESULT 2
  else (s.setQp (s.win id Obj.QP_INDEX) Qp.reset).setWin id Obj.QP_RESULT 0

/-- QP_CONNECT (R372). -/
def execQpConnect (sess : Nat) (s : State) : Out := s.command sess Obj.QP_COMMAND 1 (fun s => s.qpConnect sess)

/-- QP_RESET (R372). -/
def execQpReset (sess : Nat) (s : State) : Out := s.command sess Obj.QP_COMMAND 2 (fun s => s.qpReset sess)

/-! ## Regions (R373) -/

/-- Whether a range lies within the GDDR7 devices or CXL ranges of a partition. -/
def State.inPartition (s : State) (p a n : Nat) : Bool :=
  match (s.pt p).built, s.region a with
  | some r, some (.gddr d) =>
    (List.range ((a + n - 1) / 2 ^ 32 + 1 - d)).all (fun i => d + i < 48 && r.devices.testBit (d + i))
  | some r, some (.cxl x) => r.cxl.any (fun c => c.1 == x && cxlBase x + c.2.1 * 65536 ≤ a && a + n ≤ cxlBase x + (c.2.1 + c.2.2) * 65536)
  | _, _ => false

/-- Whether a region stands enabled for a partition that the session may not act for (R460). -/
def State.regionForeign (s : State) (id i : Nat) : Bool :=
  match SMap.get? s.regions i with
  | some r => !s.actsFor id (Re.partition.get r.entry)
  | none => false

/-- REGION_COMMAND 0x01 (R373, R460). -/
def State.regionEnable (s : State) (id : Nat) : State :=
  let i := s.win id Obj.REGION_INDEX
  let e : BitVec 256 := BitVec.ofNat 256 (leNat (s.winDom id Obj.REGION_DATA))
  let p := Re.partition.get e
  let a := Re.base.get e
  let n := Re.length.get e
  let admin := match s.session id with
    | some x => x.role == roleAdmin
    | none => false
  let code := firstCode [
    (s.regionForeign id i, 1),
    (a % 64 != 0 || n % 64 != 0 || n < 64 || p > 11 || Re.access.get e > 7 || Re.rsv.get e != 0, 3),
    (s.region a == some .refstore || (!admin && s.tableRanges.any (fun t => overlaps a n t.1 t.2)), 2),
    (!s.actsFor id p || !s.inPartition p a n, 1)]
  let s := if code = 0 then
      let c := (s.rkeys + 1) % 2 ^ 24
      { s with rkeys := c, regions := SMap.ins s.regions i ⟨e, i * 2 ^ 24 + c⟩ }
    else s
  s.setWin id Obj.REGION_RESULT code

/-- REGION_COMMAND 0x02 (R373, R460). -/
def State.regionDisable (s : State) (id : Nat) : State :=
  let i := s.win id Obj.REGION_INDEX
  if s.regionForeign id i then s.setWin id Obj.REGION_RESULT 1
  else ({ s with regions := SMap.del s.regions i } : State).setWin id Obj.REGION_RESULT 0

/-- REGION_ENABLE (R373). -/
def execRegionEnable (sess : Nat) (s : State) : Out := s.command sess Obj.REGION_COMMAND 1 (fun s => s.regionEnable sess)

/-- REGION_DISABLE (R373). -/
def execRegionDisable (sess : Nat) (s : State) : Out := s.command sess Obj.REGION_COMMAND 2 (fun s => s.regionDisable sess)

/-! ## The responder -/

abbrev opWrite : Nat := 0
abbrev opRead : Nat := 1

/-- Whether a remote access is allowed (R373, R473): `op` numbers the ACCESS bit of the region and of the QP. -/
def State.remoteAllowed (s : State) (q : Qp) (op rkey a n : Nat) : Bool :=
  match SMap.get? s.regions (rkey / 2 ^ 24) with
  | some r => r.rkey == rkey && Re.partition.get r.entry == Qe.partition.get q.entry
      && Re.base.get r.entry ≤ a && a + n ≤ Re.base.get r.entry + Re.length.get r.entry
      && (Re.access.get r.entry).testBit op && (Qe.access.get q.entry).testBit op && !(op == opWrite && s.imageBytes a n)
  | none => false

/-- A RoCEv2 packet from HOST_IP to the peer's REMOTE_GID (R372, R544), at PFC_PRIORITY. R343 gives it no rank: it goes last
(log 105). -/
def State.roceSend (s : State) (i : Nat) (x : RoceOut) (bytes : Nat) : State :=
  let local_ := s.dom Obj.HOST_IP
  s.send hostPort 6 (s.rg Obj.PFC_PRIORITY) (bytes + smallWire)
    (.roce i (if local_.isEmpty then List.replicate 16 0 else local_) (leBytes 16 (Qe.gid.get (s.qp i).entry)) x)

/-- A refused access: a NAK, the QP in ERROR, and the count. -/
def State.accessError (s : State) (i psn : Nat) : State :=
  ((s.setQp i { s.qp i with state := qpError, left := 0 }).roceSend i (.nakAccess psn) 0).incRg Obj.ROCE_ACCESS_ERRORS 1

/-- The agent of a host access to device memory (R251, R374): no slice issued it, and the controller of its device serves it. -/
def hostAgent (p a : Nat) : Agent :=
  if isCxl a then let x := (a - 0x1000_0000_0000) / 0x0200_0000_0000; ⟨p, 0, lateMemory (x / 2), some (48 + x)⟩
  else ⟨p, 0, lateMemory (a / 2 ^ 32 / 12), some (a / 2 ^ 32)⟩

/-- The hub link that host-port traffic of a device address crosses (R22). -/
def hubLink (a : Nat) : Nat := 6 + (if isCxl a then (a - 0x1000_0000_0000) / 0x0200_0000_0000 / 2 else a / 2 ^ 32 / 12)

/-- A parity hit on that link is counted and poisons what the flit carries (R22). -/
def State.hubParity (s : State) (er : AccessErrors) (a : Nat) : State × Bool :=
  if er.links.testBit (hubLink a) then (s.incRg (Obj.LINK_PARITY (hubLink a)) 1, true) else (s, false)

/-- Whether a device address lies in an entry of a partition that is in sweep (R251). -/
def State.sweptAt (s : State) (p : Nat) : Nat → Bool :=
  let rs := (s.resList.filter (fun kv => s.inSweep p kv.1)).map (fun kv => (ResEntry.slotAddr kv.2 0, ResEntry.bytes kv.2))
  fun a => rs.any (fun r => r.1 ≤ a && a < r.1 + r.2)

/-- The runs of a byte list from an address on whose addresses pass a test. -/
def runsWhere (ok : Nat → Bool) : Nat → List Byte → List (Nat × List Byte)
  | _, [] => []
  | a, b :: bs =>
    let rest := runsWhere ok (a + 1) bs
    if !ok a then rest
    else match rest with
      | (a', r) :: more => if a' = a + 1 then (a, b :: r) :: more else (a, [b]) :: rest
      | [] => [(a, [b])]

/-- A dump that copies a slot which a write touches is torn (R497). -/
def State.tearAt (s : State) (p a n : Nat) : State := (((unitsOf a n).filterMap s.entryAt).eraseDups).foldl (fun t x => t.tear p x.1 x.2) s

/-- The bytes of an RDMA WRITE reach device memory: poisoned after a parity hit of the hub link (R22), nothing of an entry in
sweep (R251), with what the devices report (R264, R265, R273). -/
def State.rdmaStore (s : State) (p a : Nat) (data : List Byte) (er : AccessErrors) : State :=
  let ag := hostAgent p a
  let (s, hit) := s.hubParity er a
  let swept := s.sweptAt p
  let s := if (List.range data.length).any (fun k => swept (a + k)) then s.sweepAccess ag else s
  (runsWhere (fun x => !swept x) a data).foldl (fun t r =>
    ((t.store r.1 (r.2.map (·, hit))).deviceReports ag er [(r.1, r.2.length)]).tearAt p r.1 r.2.length) s

/-- A WRITE packet with the expected PSN. -/
def State.rdmaWriteIn (s : State) (i : Nat) (x : RocePacket) : State :=
  let q := s.qp i
  let q := if x.first then { q with addr := x.addr, left := x.length, rkey := x.rkey } else q
  let n := x.data.length
  if n > q.left || (x.last && n != q.left) || (n > 0 && !s.remoteAllowed q opWrite q.rkey q.addr (if x.first then x.length else n)) then
    (s.setQp i q).accessError i x.psn
  else
    let s := if n = 0 then s else s.rdmaStore (Qe.partition.get q.entry) q.addr x.data x.errs
    let s := s.setQp i { q with addr := q.addr + n, left := q.left - n, rq := (q.rq + 1) % psnMod }
    if x.last || x.ackReq then s.roceSend i (.ack x.psn) 0 else s

/-- Bytes that leave the module on a path that carries no poison: poisoned ones are free values (log 62). -/
def State.unmark (s : State) (bs : List (Byte × Bool)) : State × List Byte :=
  if bs.any (·.2) then
    let (k, s) := s.draw
    (s, ((List.range bs.length).zip bs).map (fun ib => if ib.2.2 then Config.freeByte k ib.1 else ib.2.1))
  else (s, bs.map (·.1))

/-- What a host read of device memory delivers: poisoned data where the devices, the hub link or a sweep say so (R22, R251, R264,
R265, R273). -/
def State.rdmaFetch (s : State) (p a n : Nat) (er : AccessErrors) : State × List Byte :=
  if n = 0 then (s, [])
  else
    let ag := hostAgent p a
    let (s, hit) := s.hubParity er a
    let swept := s.sweptAt p
    let s := if (List.range n).any (fun k => swept (a + k)) then s.sweepAccess ag else s
    let s := s.deviceReports ag er [(a, n)]
    let bs := ((List.range n).zip (s.memRead a n)).map (fun ib => (ib.2.1, ib.2.2 || hit || swept (a + ib.1)))
    (s.cxlDelivered ag a n).unmark bs

/-- The response packets of an RDMA READ, one PSN each. -/
def State.readResponses (s : State) (i mtu psn : Nat) : Nat → List Byte → State
  | 0, _ => s
  | k + 1, bs => (s.roceSend i (.readData (psn % psnMod) (bs.take mtu)) (bs.take mtu).length).readResponses i mtu (psn + 1) k (bs.drop mtu)

/-- The packets that answer a READ of so many bytes. -/
def Qp.readPackets (q : Qp) (n : Nat) : Nat := Nat.max 1 (ceilDiv n (Qe.mtu.get q.entry))

/-- A READ request served: its data as packets of the QP's MTU. -/
def State.serveRead (s : State) (i : Nat) (x : RocePacket) : State :=
  let q := s.qp i
  let (s, bs) := s.rdmaFetch (Qe.partition.get q.entry) x.addr x.length x.errs
  s.readResponses i (Qe.mtu.get q.entry) x.psn (q.readPackets x.length) bs

/-- A READ request with the expected PSN. -/
def State.rdmaReadIn (s : State) (i : Nat) (x : RocePacket) : State :=
  let q := s.qp i
  if x.length > 0 && !s.remoteAllowed q opRead x.rkey x.addr x.length then s.accessError i x.psn
  else (s.serveRead i x).setQp i { q with rq := (q.rq + q.readPackets x.length) % psnMod }

/-- Bytes of a request packet from destination address to FCS: Ethernet, the tag and the IP version that the QP uses, UDP, BTH, the
RETH of a first packet, data, ICRC and FCS. -/
def Qp.frameBytes (q : Qp) (x : RocePacket) : Nat :=
  14 + (if Qe.vlan.get q.entry = 0 then 0 else 4) + (if ipMapped (leBytes 16 (Qe.gid.get q.entry)) then 20 else 40) + 8 + 12
    + (if x.first then 16 else 0) + x.data.length + 4 + 4

/-- A request packet: discarded where it is longer than HOST_MAX_FRAME (R338), dropped with a bad ICRC or for a QP that is not READY; a
CE mark is answered with a CNP; a PSN ahead of the expected one is NAKed, and one behind it acknowledged again, a READ also served
again (R372). -/
def State.roceRequest (s : State) (x : RocePacket) (own again : State → Nat → State) : State :=
  let i := x.qp - qpBase
  if s.maxFrame hostPort < (s.qp i).frameBytes x then s.incRg (Obj.RX_OVERSIZE hostPort) 1
  else
  let s := s.received hostPort
  let q := s.qp i
  if !x.icrc || x.qp < qpBase || x.qp ≥ qpBase + 256 || q.state ≠ qpReady then s
  else
    let s := if x.ce then (s.roceSend i .cnp 0).incRg Obj.ROCE_CNP_SENT 1 else s
    let d := (x.psn + psnMod - q.rq) % psnMod
    if d = 0 then own s i
    else if d < 2 ^ 23 then s.roceSend i (.nakSequence q.rq) 0
    else again s i

/-- RDMA_WRITE (R372, R373, R473). -/
def execRdmaWrite (x : RocePacket) (s : State) : Out :=
  takes (s.linkIsUp hostPort && x.psn < psnMod) s (fun s =>
    s.roceRequest x (fun s i => s.rdmaWriteIn i x) (fun s i => s.roceSend i (.ack (((s.qp i).rq + psnMod - 1) % psnMod)) 0))

/-- RDMA_READ (R372, R373). -/
def execRdmaRead (x : RocePacket) (s : State) : Out :=
  takes (s.linkIsUp hostPort && x.psn < psnMod) s (fun s =>
    s.roceRequest x (fun s i => s.rdmaReadIn i x) (fun s i =>
      if x.length == 0 || s.remoteAllowed (s.qp i) opRead x.rkey x.addr x.length then s.serveRead i x
      else s.accessError i x.psn))

/-! ## The requester -/

/-- The requester's pace (R372): bytes that RATE_MBPS carries in some ns, and the ns that some bytes take. -/
def Qp.paceBytes (q : Qp) (ns : Nat) : Nat := ns * Qe.rate.get q.entry / 8000
def Qp.paceNs (q : Qp) (bytes : Nat) : Nat := ceilDiv (bytes * 8000) (Nat.max 1 (Qe.rate.get q.entry))

/-- One RDMA WRITE packet sent as requester; RATE_MBPS says from when the next may follow. -/
def State.roceWrite (s : State) (i : Nat) (x : Nat × Nat × Nat × List Byte) : State :=
  let q := s.qp i
  (s.setQp i { q with freeAt := Nat.max s.now q.freeAt + q.paceNs x.2.2.2.length }).roceSend i
    (.write x.1 x.2.1 x.2.2.1 x.2.2.2) x.2.2.2.length

/-- Every unacknowledged packet sent again, from `now` on. -/
def State.repeatUnacked (s : State) (i : Nat) : State :=
  let q := s.qp i
  (q.unacked.foldl (fun t x => t.roceWrite i x) (s.setQp i { q with since := s.now })).incRg Obj.ROCE_RETRIES 1

/-- CNP (R372): counted and ignored, with a good ICRC. -/
def execCnp (x : RoceHead) (s : State) : Out :=
  takes (s.linkIsUp hostPort) s (fun s => if x.icrc then (s.received hostPort).incRg Obj.ROCE_CNP_IGNORED 1 else s.received hostPort)

/-- ROCE_TIMEOUT (R372): 4.096 µs × 2^TIMEOUT have passed without an acknowledgement; up to RETRY_COUNT repetitions, and after them
the QP is in ERROR. -/
def execRoceTimeout (qp at_ : Nat) (s : State) : Out :=
  let i := qp - qpBase
  let q := s.qp i
  takes (qpBase ≤ qp && q.state == qpReady && !q.unacked.isEmpty && q.since + 4096 * 2 ^ Qe.timeout.get q.entry ≤ at_) s (fun s =>
    let s := s.at at_
    if q.tries < Qe.retry.get q.entry then (s.setQp i { q with tries := q.tries + 1 }).repeatUnacked i
    else s.setQp i { q with state := qpError })

/-- Whether a PSN lies at or before another, in 24-bit order. -/
def psnUpTo (a b : Nat) : Bool := (b + psnMod - a) % psnMod < 2 ^ 23

/-- The unacknowledged packets that remain: an advance starts the repetitions and the timeout afresh. -/
def Qp.advance (q : Qp) (left : List (Nat × Nat × Nat × List Byte)) (now : Nat) : Qp :=
  if left.length < q.unacked.length then { q with unacked := left, tries := 0, since := now } else q

/-- ROCE_ACK (R372): an ACK, a NAK for a sequence error (`some false`), or any other NAK, which puts the QP into ERROR; with a bad
ICRC it is dropped. -/
def execRoceAck (x : RoceHead) (psn : Nat) (nak : Option Bool) (s : State) : Out :=
  let ⟨qp, icrc⟩ := x
  let i := qp - qpBase
  let q := s.qp i
  takes (s.linkIsUp hostPort) s (fun s =>
    let s := s.received hostPort
    if !icrc || qp < qpBase || q.state ≠ qpReady then s
    else match nak with
    | none => s.setQp i (q.advance (q.unacked.filter (fun x => !psnUpTo x.1 psn)) s.now)
    | some false =>
      let left := q.unacked.filter (fun x => psnUpTo psn x.1)
      let s := s.setQp i (q.advance left s.now)
      if left.isEmpty then s else s.repeatUnacked i
    | some true => s.setQp i { q with state := qpError })

end Sys2Proof.Machine
end

