-- ==== Sys2Proof/Machine/Observe.lean ====
section
/-!
DEFINITION. The commands of observability (14_observability.md R485 to R498): snapshots, counter images, the crown-core trace and
tensor dumps.
-/

namespace Sys2Proof.Machine
open Sys2Proof

/-! ## Snapshots and counter images (R485 to R488) -/

/-- A SNAPSHOT command: the banks switch at the grain boundary that follows; STATE while one is pending. -/
def State.snapshot (s : State) (p : Nat) : State × Answer :=
  if s.rg (Obj.SNAPSHOT_STATE p) = 1 || (s.pt p).built.isNone then (s, .of stState)
  else ((s.modPt p (fun x => { x with snapAt := some (s.grain + 1) })).setRg (Obj.SNAPSHOT_STATE p) 1, .ok)

/-- SNAPSHOT (R485). -/
def execSnapshot (sess : Nat) (p : PartId) (s : State) : Out :=
  s.command sess (Obj.COUNTER_COMMAND p) 1 (fun s => (s.snapshot p).1)

/-- SNAPSHOT_SWITCH (R485): at its grain boundary, unless a tick edge falls there, whose switch serves it (R486). -/
def execSnapshotSwitch (p : PartId) (s : State) : Out :=
  match (s.pt p).snapAt with
  | some g => takes (!(s.pt p).gen.begun || g < (s.pt p).gen.start + (s.pt p).gen.len) s (fun s => (s.at (g * 10000)).takeSnapshot p g)
  | none => .next s

/-- COUNTER_ENTRY names an entry that holds images of the partition (R488). -/
def State.counterFits (s : State) (p i : Nat) : Bool :=
  let e := s.resE i
  Rs.enable.get e == 1 && Rs.partition.get e == p && Rs.class_.get e == classRecord && Rs.format.get e == 0x12
    && 4 * Rs.cols.get e ≥ s.imageBytesOf p

/-- The image that is due, written into its row. -/
def State.writeImage (s : State) (p t : Nat) : State :=
  let x := s.pt p
  let i := s.rg (Obj.COUNTER_ENTRY p)
  let e := s.resE i
  let job := match x.settling with
    | some z => if x.imgFlags ≥ 2 && z.mode = 1 then z.jobId else 0
    | none => 0
  let row := t / s.rg (Obj.IMAGE_EVERY p) % Rs.rows.get e
  let img := s.counterImage p x.imgHold x.imgSpan t x.imgFlags job
  let s := (s.store (ResEntry.curAddr e + row * 4 * Rs.cols.get e) (goodBytes img)).tear p i (Rs.cur.get e)
  (s.modPt p (fun x => { x with imgDue := none, imgHold := [] })).incRg (Obj.IMAGES_WRITTEN p) 1

/-- COUNTER_IMAGE_WRITE (R487): the image of the last IMAGE_EVERY ticks is written into the ring; one that is not written by the
time the next falls due is skipped by the edge (`State.imageEdge`). -/
def execCounterImageWrite (p : PartId) (s : State) : Out :=
  match (s.pt p).imgDue with
  | some t => takes (s.counterFits p (s.rg (Obj.COUNTER_ENTRY p))) s (fun s => s.writeImage p t)
  | none => .next s

/-! ## Plans of windows ("$trace.spill" and "$dump", R494, R496) -/

/-- A window: its unit, and its start and length in ns. -/
structure Window where
  unit : Nat
  startNs : Nat
  durationNs : Nat
  deriving DecidableEq, Repr

/-- The Block by which a partition's windows stand: of the job that ticks, or else of the oldest accepted one. -/
def State.windowBlock (s : State) (p : Nat) : Option Nat :=
  match (s.pt p).cursor, (s.pt p).order with
  | some c, _ => some (s.blockOf p c.1)
  | none, j :: _ => some (s.blockOf p j)
  | none, [] => none

/-- The windows of a plan, where the Block names it and it is an enabled record entry of the partition. -/
def State.windows (s : State) (p : Nat) (name : String) : List Window :=
  match (s.windowBlock p).bind (fun b => s.symbol b name) with
  | none => []
  | some i =>
    let e := s.resE i
    if Rs.enable.get e = 1 && Rs.partition.get e == p && Rs.class_.get e == classRecord && Rs.format.get e == 0x12 && Rs.cols.get e == 4 then
      (List.range (Rs.rows.get e)).map (fun n => ⟨s.word32 i (4 * n), s.word32 i (4 * n + 1), s.word32 i (4 * n + 2)⟩)
    else []

/-! ## The trace (R491 to R494) -/

/-- SPILL_ENTRY names a ring of trace records. -/
def State.spillFits (s : State) (p i : Nat) : Bool :=
  let e := s.resE i
  Rs.enable.get e == 1 && Rs.partition.get e == p && Rs.class_.get e == classRecord && Rs.format.get e == 0x12 && Rs.cols.get e == 4

/-- The traced clusters of a partition. -/
def State.traced (s : State) (p : Nat) : List Nat :=
  match (s.pt p).built with
  | some r => (maskList 48 r.clusters).filter (fun c => (s.rg (Obj.TRACE_CLUSTERS p)).testBit c)
  | none => []

def State.modTrace (s : State) (c : Nat) (f : TraceBuf → TraceBuf) : State := s.modCl c (fun cl => { cl with trace := f cl.trace })

/-- TRACE_COMMAND 0x01: the buffers of the traced clusters are cleared, and recording begins. -/
def State.traceArm (s : State) (p : Nat) : State × Answer :=
  if s.rg (Obj.TRACE_MODE p) = tmSpill && ((s.windows p "$trace.spill").isEmpty || !s.spillFits p (s.rg (Obj.SPILL_ENTRY p))) then (s, .of stState)
  else
    let s := (s.traced p).foldl (fun t c => t.modTrace c (fun _ => TraceBuf.empty)) s
    ((s.modPt p (fun x => { x with trigger := none, triggerDone := false })).setRg (Obj.TRACE_STATE p) tsRecording, .ok)

/-- TRACE_ARM (R492). -/
def execTraceArm (sess : Nat) (p : PartId) (s : State) : Out := s.command sess (Obj.TRACE_COMMAND p) 1 (fun s => (s.traceArm p).1)

/-- TRACE_COMMAND 0x02: recording stops. -/
def State.traceStop (s : State) (p : Nat) : State × Answer :=
  (if s.rg (Obj.TRACE_STATE p) = tsRecording then s.setRg (Obj.TRACE_STATE p) tsStopped else s, .ok)

/-- TRACE_STOP (R492). -/
def execTraceStop (sess : Nat) (p : PartId) (s : State) : Out := s.command sess (Obj.TRACE_COMMAND p) 2 (fun s => (s.traceStop p).1)

/-- The TRIGGER record of a buffer, after which so many further records are written. -/
def TraceBuf.trigger (b : TraceBuf) (r : BitVec 128) (post : Nat) : TraceBuf :=
  if b.halted then b else { b.place r with trig := some b.wp, post := some post, halted := post == 0 }

/-- TRACE_TRIGGER (R493): the TRIGGER records of a trigger that has fired, in the originating cluster alone or, 256 cycles later,
in every traced cluster. -/
def execTraceTrigger (p : PartId) (s : State) : Out :=
  match (s.pt p).trigger with
  | some (c, cyc) => takes (!(s.pt p).triggerDone && s.rg (Obj.TRACE_STATE p) == tsRecording) s (fun s =>
      let whole := s.rg (Obj.TRIGGER_SCOPE p) = 1
      let post := traceDepth * (100 - s.rg (Obj.PRE_PERCENT p)) / 100
      let kind := s.rg (Obj.TRIGGER_KIND p)
      let cycle := if whole then cyc + 256 else cyc
      let s := (if whole then s.traced p else [c]).foldl (fun t d =>
        t.modTrace d (fun b => b.trigger (traceRecord trTrigger kind d cycle c) post)) s
      s.modPt p (fun x => { x with triggerDone := true }))
  | none => .next s

/-- Whether every traced buffer that the trigger reached has frozen. -/
def State.allFrozen (s : State) (p : Nat) : Bool := (s.traced p).all (fun c => (s.cl c).trace.trig.isNone || (s.cl c).trace.halted)

/-- TRACE_FROZEN (R492): a buffer in TRIGGER mode holds its last record; the state follows with the last such buffer. -/
def execTraceFrozen (c : ClusterId) (s : State) : Out :=
  match s.ownerOfCluster c with
  | none => .next s
  | some p =>
    let b := (s.cl c).trace
    takes (s.rg (Obj.TRACE_MODE p) == tmTrigger && s.rg (Obj.TRACE_STATE p) == tsRecording && b.trig.isSome && b.halted && !b.told) s (fun s =>
      let s := (s.modTrace c (fun b => { b with told := true })).notify 0x00A2 p c (s.rg (Obj.TRIGGER_TICK p))
      if s.allFrozen p then s.setRg (Obj.TRACE_STATE p) tsFrozen else s)

/-- TRACE_STOPPED_FULL (R492): a buffer in STOP mode is full; the state follows when every traced buffer is. -/
def execTraceStoppedFull (c : ClusterId) (s : State) : Out :=
  match s.ownerOfCluster c with
  | none => .next s
  | some p =>
    let b := (s.cl c).trace
    takes (s.rg (Obj.TRACE_MODE p) == tmStop && s.rg (Obj.TRACE_STATE p) == tsRecording && b.halted && !b.told) s (fun s =>
      let s := (s.modTrace c (fun b => { b with told := true })).notify 0x00A3 p c (s.pt p).gen.tick
      if (s.traced p).all (fun d => (s.cl d).trace.halted) then s.setRg (Obj.TRACE_STATE p) tsStopped else s)

/-- The oldest records of a buffer, up to `n`, and the buffer without them. -/
def TraceBuf.take (b : TraceBuf) (n : Nat) : List (BitVec 128) × TraceBuf :=
  let k := Nat.min n b.filled
  let first := (b.wp + traceDepth - b.filled) % traceDepth
  ((List.range k).map (fun i => SMap.getD 0 b.recs ((first + i) % traceDepth)), { b with filled := b.filled - k })

/-- The quarter of a Kettle unit. -/
def unitQuarter (u : Nat) : Nat := if u < 48 then u / 12 else (u - 48) / 2

/-- One record placed in the spill ring. -/
def State.spillOne (s : State) (p i : Nat) (r : BitVec 128) : State :=
  let e := s.resE i
  let n := s.rg (Obj.SPILL_WRITTEN p)
  (s.store (ResEntry.curAddr e + 16 * (n % Rs.rows.get e)) (goodBytes (leBytes 16 r.toNat))).incRg (Obj.SPILL_WRITTEN p) 1

/-- TRACE_SPILL (R494): in window `w` the quarter's traced clusters drain, one after another, at 64 B per reference cycle. -/
def execTraceSpill (p : PartId) (w : Nat) (s : State) : Out :=
  match (s.windows p "$trace.spill")[w]? with
  | none => .next s
  | some win => takes (s.rg (Obj.TRACE_MODE p) == tmSpill && s.rg (Obj.TRACE_STATE p) == tsRecording && (s.pt p).gen.begun
      && s.spillFits p (s.rg (Obj.SPILL_ENTRY p))) s (fun s =>
      match s.unitOf p win.unit with
      | none => s
      | some u =>
        let s := s.at ((s.pt p).edgeNs + win.startNs)
        let i := s.rg (Obj.SPILL_ENTRY p)
        ((s.traced p).filter (fun c => quarterOf12 c == unitQuarter u)).foldl (fun (t : State × Nat) c =>
          let (rs, b) := (t.1.cl c).trace.take t.2
          (rs.foldl (fun u r => u.spillOne p i r) (t.1.modTrace c (fun _ => b)), t.2 - rs.length))
          (s, 4 * (win.durationNs * 19 / 10)) |>.1)

/-! ## Tensor dumps (R495 to R498) -/

def State.dump (s : State) (p n : Nat) : Dump := SMap.getD Dump.idle (s.pt p).dumps n
def State.setDump (s : State) (p n : Nat) (d : Dump) : State :=
  s.modPt p (fun x => { x with dumps := SMap.put Dump.idle x.dumps n d })

/-- A request ends: in DONE, or in IDLE where it was never armed. -/
def State.dumpEnd (s : State) (p n state result : Nat) : State :=
  (s.setDump p n { s.dump p n with state := state, result := result, due := [], copies := [] }).notify 0x00A4 p n result

/-- Bytes of one capture of an entry, header included. -/
def captureBytes (e : ResEntry) : Nat := 64 + (ResEntry.sizes e).1 + (ResEntry.sizes e).2

/-- Captures that a request allows. -/
def dumpAllowed (r : BitVec 512) : Nat := if Du.point.get r = 2 then Du.maxDumps.get r else 1

/-- Whether a window of "$dump" serves the device or port that holds an address. -/
def State.dumpServed (s : State) (p a : Nat) : Bool :=
  (s.windows p "$dump").any (fun w => match s.unitOf p w.unit, s.region a with
    | some u, some (.gddr d) => u == d
    | some u, some (.cxl x) => u == 48 + x
    | _, _ => false)

/-- Whether the point of a request has passed: its step is over or, for the start of a step, has begun. -/
def State.pointPassed (s : State) (p : Nat) (r : BitVec 512) : Bool :=
  let x := s.pt p
  let step := Du.step.get r
  let begun := match x.cursor with
    | some c => x.slice.isSome || !x.stepBegins c.1
    | none => false
  step < x.step || (Du.point.get r == 0 && step == x.step && begun)

/-- The check of an ARM (R498): 0, or the code of DUMP_RESULT. -/
def State.dumpCheck (s : State) (p : Nat) (r : BitVec 512) : Nat :=
  let i := Du.tensor.get r
  let e := s.resE i
  let d := s.resE (Du.destIndex.get r)
  let q := s.qp (Du.qp.get r)
  firstCode [
    (!(s.resEnabled i && Rs.partition.get e == p), 6),
    (Du.point.get r > 2 || Du.target.get r > 1 || Du.rsv0.get r != 0 || Du.rsv1.get r != 0
      || (Du.point.get r == 2 && (Du.maxDumps.get r == 0 || Du.maxDumps.get r > 1024)), 6),
    (Du.target.get r == 0 && !(q.state == qpReady && Qe.partition.get q.entry == p && (Qe.access.get q.entry).testBit 2), 3),
    (Du.target.get r == 1 && !(Rs.enable.get d == 1 && Rs.partition.get d == p && Rs.tier.get d == tierCxl
      && dumpAllowed r * captureBytes e ≤ ResEntry.stride d), 3),
    (s.pointPassed p r, 5),
    (!s.dumpServed p (ResEntry.curAddr e) || (Du.target.get r == 1 && !s.dumpServed p (ResEntry.curAddr d)), 2)]

/-- DUMP_COMMAND 0x01 of a session on its DUMP_INDEX and DUMP_DATA. -/
def State.dumpArm (s : State) (id p : Nat) : State × Answer :=
  let n := s.win id (Obj.DUMP_INDEX p)
  if (s.dump p n).live then (s, .of stState)
  else
    let r : BitVec 512 := BitVec.ofNat 512 (leNat (s.winDom id (Obj.DUMP_DATA p)))
    let code := s.dumpCheck p r
    if code = 0 then (s.setDump p n { Dump.idle with req := r, state := duArmed }, .ok)
    else ((s.setDump p n { Dump.idle with req := r }).dumpEnd p n duIdle code, .ok)

/-- DUMP_ARM (R498). -/
def execDumpArm (sess : Nat) (p : PartId) (s : State) : Out := s.command sess (Obj.DUMP_COMMAND p) 1 (fun s => (s.dumpArm sess p).1)

/-- DUMP_COMMAND 0x02: a request that is armed or copying ends cancelled. -/
def State.dumpCancel (s : State) (id p : Nat) : State × Answer :=
  let n := s.win id (Obj.DUMP_INDEX p)
  (if (s.dump p n).live then s.dumpEnd p n duDone 4 else s, .ok)

/-- DUMP_CANCEL (R498). -/
def execDumpCancel (sess : Nat) (p : PartId) (s : State) : Out := s.command sess (Obj.DUMP_COMMAND p) 2 (fun s => (s.dumpCancel sess p).1)

/-- A capture of slot CUR at a grain. -/
def State.capture (s : State) (p n g : Nat) (rest : List Nat) : State :=
  let d := s.dump p n
  let i := Du.tensor.get d.req
  let e := s.resE i
  let c : DumpCopy := ⟨i, Rs.cur.get e, Rs.version.get e, Rs.format.get e, Du.step.get d.req, (s.pt p).gen.tick,
    (fb 0x10 8).get (Rs.linkIndex.set e 0), (ResEntry.sizes e).1 + (ResEntry.sizes e).2, ResEntry.curAddr e, 0, false⟩
  (s.at (g * 10000)).setDump p n { d with due := rest, copies := d.copies ++ [c], state := duCopying }

/-- DUMP_CAPTURE (R495): the oldest capture of request `n` that is due; while TENSOR is in sweep it waits (R497). -/
def execDumpCapture (p : PartId) (n : Nat) (s : State) : Out :=
  match (s.dump p n).due with
  | g :: rest => takes ((s.dump p n).live && !s.inSweep p (Du.tensor.get (s.dump p n).req)) s (fun s => s.capture p n g rest)
  | [] => .next s

/-- The header of a capture, 64 B. -/
def dumpHeader (c : DumpCopy) (mb : Nat) : List Byte :=
  leBytes 4 0x504D4444 ++ leBytes 4 c.index ++ leBytes 4 c.version ++ leBytes 1 c.slot ++ leBytes 1 c.format
    ++ leBytes 1 (if c.torn then 1 else 0) ++ leBytes 1 0 ++ leBytes 8 c.step ++ leBytes 8 c.tick ++ leBytes 8 c.shape ++ leBytes 8 c.bytes
    ++ leBytes 4 mb ++ leBytes 12 0

/-- Bytes `o` onward of a capture: its element region, then its scale region. A dump poisons nothing (R496): bytes that the device
delivers poisoned leave as free values (log 62). -/
def State.captureRead (s : State) (c : DumpCopy) (o n : Nat) : State × List Byte :=
  let e := s.resE c.index
  s.unmark ((List.range (Nat.min n (c.bytes - o))).map (fun k =>
    let j := o + k
    let a := c.from_ + (if j < (ResEntry.sizes e).1 then j else ResEntry.scaleOffset e + (j - (ResEntry.sizes e).1))
    (s.memByte a, s.poisonAt a)))

/-- RDMA WRITE packets of a dump, as large as the QP's MTU allows. -/
def State.dumpPackets (s : State) (i mtu rkey : Nat) : Nat → Nat → List Byte → State
  | 0, _, _ => s
  | k + 1, a, bs =>
    if bs.isEmpty then s
    else
      let q := s.qp i
      let x := (q.sq, a, rkey, bs.take mtu)
      let s := (s.setQp i { q with sq := (q.sq + 1) % psnMod, unacked := q.unacked ++ [x],
                                   since := if q.unacked.isEmpty then s.now else q.since }).roceWrite i x
      s.dumpPackets i mtu rkey k (a + mtu) (bs.drop mtu)

/-- Bytes of a dump placed at an offset of its target. -/
def State.dumpPut (s : State) (p : Nat) (r : BitVec 512) (off : Nat) (bs : List Byte) : State :=
  if Du.target.get r = 0 then
    s.dumpPackets (Du.qp.get r) (Qe.mtu.get (s.qp (Du.qp.get r)).entry) (Du.remoteKey.get r) (bs.length + 1) (Du.remoteAddr.get r + off) bs
  else
    let i := Du.destIndex.get r
    (s.store (ResEntry.curAddr (s.resE i) + off) (goodBytes bs)).tear p i (Rs.cur.get (s.resE i))

/-- Whether the target of a request can still be written. -/
def State.dumpTargetOk (s : State) (p : Nat) (r : BitVec 512) : Bool :=
  if Du.target.get r = 0 then (s.qp (Du.qp.get r)).state == qpReady
  else let d := s.resE (Du.destIndex.get r); Rs.enable.get d == 1 && Rs.partition.get d == p && s.writable (ResEntry.curAddr d)

/-- The oldest capture of a request goes on by up to `room` bytes; its header is written last, when the copy is known to be torn
or whole. -/
def State.dumpMove (s : State) (p n room : Nat) : State :=
  let d := s.dump p n
  match d.copies with
  | [] => s
  | c :: rest =>
    if !s.dumpTargetOk p d.req then s.dumpEnd p n duDone 3
    else
      let (s, bs) := s.captureRead c c.done room
      let s := s.dumpPut p d.req (d.next + 64 + c.done) bs
      let c := { c with done := c.done + bs.length }
      if c.done < c.bytes then s.setDump p n { d with copies := c :: rest }
      else
        let s := s.dumpPut p d.req d.next (dumpHeader c (Du.mb.get d.req))
        s.setDump p n { d with copies := rest, count := d.count + 1, next := d.next + 64 + c.bytes, anyTorn := d.anyTorn || c.torn,
                               state := if rest.isEmpty then duArmed else duCopying }

/-- Bytes that the target of a request takes between two instants: what RATE_MBPS of its QP lets out (R372, R496), or as many as
the window moves. -/
def State.dumpRate (s : State) (r : BitVec 512) (from_ until_ room : Nat) : Nat :=
  if Du.target.get r = 0 then
    let q := s.qp (Du.qp.get r)
    Nat.min room (q.paceBytes (until_ - Nat.max from_ q.freeAt))
  else room

/-- DUMP_WINDOW (R496): window `w` of "$dump" serves the captures whose tensor lies on its device or port; `room` bytes is what
the window and the target take, at most what RATE_MBPS allows. -/
def execDumpWindow (p : PartId) (w room : Nat) (s : State) : Out :=
  match (s.windows p "$dump")[w]? with
  | none => .next s
  | some win => takes (s.pt p).gen.begun s (fun s =>
      let s := s.at ((s.pt p).edgeNs + win.startNs)
      let mine := fun (c : DumpCopy) => match s.unitOf p win.unit, s.region c.from_ with
        | some u, some (.gddr d) => u == d
        | some u, some (.cxl x) => u == 48 + x
        | _, _ => false
      match (List.range 16).find? (fun n => ((s.dump p n).copies.take 1).any mine) with
      | some n => s.dumpMove p n (s.dumpRate (s.dump p n).req ((s.pt p).edgeNs + win.startNs) ((s.pt p).edgeNs + win.startNs + win.durationNs) room)
      | none => s)

/-- Whether nothing more is to come of a request. -/
def State.dumpOver (s : State) (p n : Nat) : Bool :=
  let d := s.dump p n
  d.live && d.copies.isEmpty && d.due.isEmpty && (d.count == d.allowed || (Du.point.get d.req == 2 && Du.step.get d.req < (s.pt p).step))

/-- DUMP_DONE (R497, R498): the request is complete. -/
def execDumpDone (p : PartId) (n : Nat) (s : State) : Out :=
  takes (s.dumpOver p n) s (fun s => s.dumpEnd p n duDone (if (s.dump p n).anyTorn then 1 else 0))

end Sys2Proof.Machine
end

