-- ==== Sys2Proof/Machine/PartCmd.lean ====
section
/-!
DEFINITION. Building, rebuilding, dissolving and stopping partitions (13_management.md R466 to R469; 01_architecture.md R26 to R28;
08_memory_and_residency.md R267, R277; 13_management.md R463).
-/

namespace Sys2Proof.Machine
open Sys2Proof

/-! ## The construction objects -/

/-- The 16 B records of CXL_RANGES: port, FIRST and COUNT. -/
def cxlRecords (bs : List Byte) : List (Nat × Nat × Nat) :=
  (cutBytes16 (bs.length / 16) bs).map (fun r => (leNat (r.take 1), leNat ((r.drop 8).take 4), leNat ((r.drop 12).take 4)))
where
  cutBytes16 : Nat → List Byte → List (List Byte)
    | 0, _ => []
    | n + 1, l => l.take 16 :: cutBytes16 n (l.drop 16)

/-- The resources that the construction objects of a partition name. -/
def State.asked (s : State) (p : Nat) : Resources :=
  let sh := s.dom (Obj.SHARES p)
  ⟨s.rg (Obj.CLUSTERS p) % 2 ^ 48, s.rg (Obj.DEVICES p) % 2 ^ 48, s.rg (Obj.PORTS p), cxlRecords (s.dom (Obj.CXL_RANGES p)),
   (List.range 22).map (fun i => (sh.getD i 0).toNat), s.rg (Obj.JOB_TABLE_BASE p)⟩

/-- The resources of the other partitions. -/
def State.othersBuilt (s : State) (p : Nat) : List Resources :=
  ((List.range 12).filter (· != p)).filterMap (fun i => (s.pt i).built)

/-- Bytes of the window of a CXL port. -/
abbrev cxlWindow : Nat := 2 ^ 41

/-- PART_CXL (0x75). -/
def State.cxlAskedBad (s : State) (p : Nat) (r : Resources) : Bool :=
  let others := (s.othersBuilt p).flatMap (·.cxl)
  let clash := fun (a b : Nat × Nat × Nat) => a.1 == b.1 && overlaps a.2.1 a.2.2 b.2.1 b.2.2
  r.cxl.any (fun c => c.1 > 7 || c.2.2 == 0 || (c.2.1 + c.2.2) * 65536 > cxlWindow || others.any (clash c))
    || !(r.cxl.Pairwise (fun a b => clash a b = false))

/-- PART_JOB_TABLE (0x77). The job table that the partition has so far is no obstacle. -/
def State.jobTableBad (s : State) (p : Nat) (r : Resources) : Bool :=
  let a := r.jobBase
  let tables := ((List.range 6).filter s.tableSet).map (fun i =>
      (s.rg (okey 0x5000 (i + 1)), [16777216, 524288, 1048576, 4194304, 2097152, 65536].getD i 0))
    ++ (((List.range 12).filter (· != p)).filterMap (fun i => (s.pt i).built.map (fun o => (o.jobBase, 32768))))
  a % 65536 != 0 || !(a < 48 * 2 ^ 32 && (a + 32767) / 2 ^ 32 == a / 2 ^ 32 && r.devices.testBit (a / 2 ^ 32))
    || tables.any (fun t => overlaps a 32768 t.1 t.2)
    || s.resList.any (fun kv => overlaps a 32768 (ResEntry.slotAddr kv.2 0) (ResEntry.bytes kv.2))

/-- Whether bytes of device memory lie within resources. -/
def Resources.covers (r : Resources) (a n : Nat) : Bool :=
  (a < 48 * 2 ^ 32 && r.devices.testBit (a / 2 ^ 32) && (n == 0 || r.devices.testBit ((a + n - 1) / 2 ^ 32)))
    || (isCxl a && r.cxl.any (fun c => cxlBase c.1 + c.2.1 * 65536 ≤ a && a + n ≤ cxlBase c.1 + (c.2.1 + c.2.2) * 65536))

/-- Whether an enabled entry of a partition would lie outside resources (0x78): Residency entries, streams and regions lie
somewhere; the reference store belongs to no partition. -/
def State.entryOutside (s : State) (p : Nat) (r : Resources) : Bool :=
  s.resList.any (fun kv => Rs.partition.get kv.2 == p && Rs.tier.get kv.2 != tierRef
      && !r.covers (ResEntry.slotAddr kv.2 0) (ResEntry.bytes kv.2))
    || (s.streams ++ s.streamPending).any (fun kv => Sm.enable.get kv.2 == 1 && Sm.partition.get kv.2 == p
      && (Sm.primary.get kv.2 :: ((Stream.ports kv.2).filter (fun k => k.1 != 0)).map (·.2.1)).any (fun q => !r.ports.testBit q))
    || s.regions.any (fun kv => Re.partition.get kv.2.entry == p && !r.covers (Re.base.get kv.2.entry) (Re.length.get kv.2.entry))

/-- Whether any entry of a partition is enabled (0x78 of a dissolve). -/
def State.anyEntry (s : State) (p : Nat) : Bool :=
  s.resList.any (fun kv => Rs.partition.get kv.2 == p)
    || (s.streams ++ s.streamPending).any (fun kv => Sm.enable.get kv.2 == 1 && Sm.partition.get kv.2 == p)
    || s.slots.any (fun kv => Sl.enable.get kv.2 == 1 && Sl.partition.get kv.2 == p)
    || s.pages.any (fun kv => Pg.enable.get kv.2 == 1 && Pg.partition.get kv.2 == p)
    || s.prefixes.any (fun kv => Px.enable.get kv.2 == 1 && Px.partition.get kv.2 == p)
    || s.qps.any (fun kv => kv.2.state != Machine.qpReset && Qe.partition.get kv.2.entry == p)
    || s.regions.any (fun kv => Re.partition.get kv.2.entry == p)

/-- The codes 0x71 to 0x79 in order (R466, R468). -/
def State.partCheck (s : State) (p : Nat) (r : Resources) : Nat :=
  let os := s.othersBuilt p
  firstCode [
    (r.clusters == 0 || r.devices == 0, 0x71),
    (os.any (fun o => o.clusters &&& r.clusters != 0), 0x72),
    (os.any (fun o => o.devices &&& r.devices != 0) || (bitsOf 48 r.devices).any (fun d => s.rg (Obj.DEV_STATE d) == devFailed), 0x73),
    (os.any (fun o => o.ports &&& r.ports != 0), 0x74),
    (s.cxlAskedBad p r, 0x75),
    ((List.range 22).any (fun i => r.shares.getD i 0 + (os.map (fun o => o.shares.getD i 0)).sum > 64), 0x76),
    (s.jobTableBad p r, 0x77),
    (s.entryOutside p r, 0x78),
    (!((List.range 6).all s.tableSet), 0x79)]

/-! ## Joining and leaving -/


/-- Clusters cleared under R277. -/
def State.clearClusters (s : State) (m : Nat) : State := (bitsOf 48 m).foldl (fun t c => t.modCl c (fun _ => Cluster.empty)) s
/-- Devices leave self-refresh. -/
def State.wakeDevices (s : State) (m : Nat) : State :=
  (bitsOf 48 m).foldl (fun t d => if t.rg (Obj.DEV_STATE d) = devSelfRefresh then t.setRg (Obj.DEV_STATE d) devReady else t) s
/-- Devices enter self-refresh, but for those that hold a table or have failed; one that retrains does so when it has (R268). -/
def State.sleepDevices (s : State) (m : Nat) : State :=
  (bitsOf 48 m).foldl (fun t d =>
    if t.holdsTable d || t.rg (Obj.DEV_STATE d) = devFailed || t.rg (Obj.DEV_STATE d) = devTraining then t else t.setRg (Obj.DEV_STATE d) devSelfRefresh) s
/-- PARTITION of ports set. -/
def State.ownPorts (s : State) (m v : Nat) : State := (bitsOf 64 m).foldl (fun t q => t.setRg (Obj.PARTITION q) v) s
/-- The queues of ports emptied. -/
def State.dropQueues (s : State) (m : Nat) : State :=
  { s with queues := s.queues.filter (fun kv => !m.testBit (kv.1 / 2)), relays := s.relays.filter (fun kv => !m.testBit kv.1) }

/-- Bits of one mask that another lacks. -/
def maskMinus (a b : Nat) : Nat := ((bitsOf 64 a).filter (fun i => !b.testBit i)).foldl setBit 0

/-- The event counters that a build resets (R490), with the running totals (0x6400:05). -/
def State.resetCounters (s : State) (p : Nat) : State :=
  let s := (List.range 0x13).foldl (fun t i => t.setRg (okey (0x6100 + p) (i + 1)) 0) s
  let s := (List.range 0x0A).foldl (fun t i => t.setRg (okey (0x6200 + p) (i + 1)) 0) s
  let drop := fun (m : SMap Nat) => m.filter (fun kv => ctrPart kv.1 != p)
  { s with open_ := drop s.open_, closed := drop s.closed, totals := drop s.totals }

/-! ## The commands -/

/-- PART_COMMAND 0x01 (R466): the partition is built, and its tick generator starts. -/
def State.partBuild (s : State) (p : Nat) : State × Answer :=
  let r := s.asked p
  let code := if (s.pt p).built.isSome then 0x70 else s.partCheck p r
  let s := s.setRg (Obj.PART_RESULT p) code
  if code ≠ 0 then (s, .ok)
  else
    let s := ((s.clearClusters r.clusters).wakeDevices r.devices).ownPorts r.ports p
    let s := (s.resetCounters p).setRg (Obj.TICK_NUMBER p) 0
    let g := s.grain
    let s := s.modPt p (fun _ => { Part.empty with
      built := some r, gen := ⟨true, false, 0, 0, s.rg (Obj.CLOSE_GUARD_NS p), 0, false, g⟩, buildGrain := g, switchGrain := g, lastSwitch := g, imgFrom := g })
    ((s.setRg (Obj.SNAPSHOT_STATE p) 0).updatePart p, .ok)

/-- PART_BUILD (R466). -/
def execPartBuild (sess : Nat) (p : PartId) (s : State) : Out := s.command sess (Obj.PART_COMMAND p) 1 (fun s => (s.partBuild p).1)

/-- PART_COMMAND 0x02 (R467): the changed construction objects take effect in one step. -/
def State.partRebuild (s : State) (p : Nat) : State × Answer :=
  let r := s.asked p
  match (s.pt p).built with
  | none => (s.setRg (Obj.PART_RESULT p) 0x70, .ok)
  | some o =>
    let code := if s.rg (Obj.PART_STATE p) ≠ psIdle then 0x70 else s.partCheck p r
    let s := s.setRg (Obj.PART_RESULT p) code
    if code ≠ 0 then (s, .ok)
    else
      let s := (s.clearClusters (maskMinus r.clusters o.clusters)).clearClusters (maskMinus o.clusters r.clusters)
      let s := (s.wakeDevices (maskMinus r.devices o.devices)).sleepDevices (maskMinus o.devices r.devices)
      let s := ((s.ownPorts (maskMinus o.ports r.ports) 0xFF).dropQueues (maskMinus o.ports r.ports)).ownPorts r.ports p
      (s.modPt p (fun x => { x with built := some r, jobs := if o.jobBase = r.jobBase then x.jobs else [] }), .ok)

/-- PART_REBUILD (R467). -/
def execPartRebuild (sess : Nat) (p : PartId) (s : State) : Out := s.command sess (Obj.PART_COMMAND p) 2 (fun s => (s.partRebuild p).1)

/-- PART_COMMAND 0x03: the partition returns to FREE; its counters keep their values. -/
def State.partDissolve (s : State) (p : Nat) : State × Answer :=
  match (s.pt p).built with
  | none => (s.setRg (Obj.PART_RESULT p) 0x70, .ok)
  | some o =>
    let code := if s.rg (Obj.PART_STATE p) ≠ psIdle then 0x70 else if s.anyEntry p then 0x78 else 0
    let s := s.setRg (Obj.PART_RESULT p) code
    if code ≠ 0 then (s, .ok)
    else
      let s := ((s.clearClusters o.clusters).sleepDevices o.devices).ownPorts o.ports 0xFF
      let s := (s.dropQueues o.ports).modPt p (fun _ => Part.empty)
      let s := if s.rg (Obj.SNAPSHOT_STATE p) = 1 then s.setRg (Obj.SNAPSHOT_STATE p) 0 else s
      ((s.setRg (Obj.TRACE_STATE p) tsIdle).updatePart p, .ok)

/-- PART_DISSOLVE (R468). -/
def execPartDissolve (sess : Nat) (p : PartId) (s : State) : Out := s.command sess (Obj.PART_COMMAND p) 3 (fun s => (s.partDissolve p).1)

/-- PART_COMMAND 0x04: at the next edge the ticking job and every accepted one are cancelled. -/
def State.partStop (s : State) (p : Nat) : State × Answer :=
  if (s.pt p).built.isNone then (s.setRg (Obj.PART_RESULT p) 0x70, .ok)
  else
    let live := (s.pt p).jobs.any (fun kv => Job.state.get kv.2 == jsAccepted || Job.state.get kv.2 == jsTicking)
    ((s.modPt p (fun x => { x with stopAtEdge := x.stopAtEdge || live })).setRg (Obj.PART_RESULT p) 0, .ok)

/-- PART_STOP (R468). -/
def execPartStop (sess : Nat) (p : PartId) (s : State) : Out := s.command sess (Obj.PART_COMMAND p) 4 (fun s => (s.partStop p).1)

end Sys2Proof.Machine
end

