-- ==== Sys2Proof/Machine/PowerOn.lean ====
section
/-!
DEFINITION. Supply, boot and throttles (16_electrical_mechanical.md R527 to R538; 15_security_and_images.md R500 to R502, R505, R516;
01_architecture.md R10; 13_management.md R461).
-/

namespace Sys2Proof.Machine
open Sys2Proof

/-! ## Power on (R527, R528) -/

/-- VIN_APPLIED (R527): VIN reaches 48 V, and VSTBY comes up; `rst` is the level of RST_N. -/
def execVinApplied (at_ mv : Nat) (rst : Bool) (s : State) : Out :=
  takes (!s.power.vin && 48000 ≤ mv && mv ≤ 58000) s (fun s =>
    (({ s.at at_ with power := { Power.off with vin := true, rst := rst, armed := true } } : State).setRg Obj.VIN_MV mv))

/-- The latest instants of the milestones of the power-on table, in ns from its start: sensors, VBUS, VDD_SRAM, VDD_Q0 to VDD_Q3,
VDDH_SERDES, VDD_G7, VCC_FLASH and PWR_GOOD. -/
def railLimits : List Nat := [2000000, 20000000, 30000000, 40000000, 50000000, 60000000, 65000000, 75000000]

/-- The number of milestones that are met in order and in time. -/
def railsMet : List Nat → List Nat → Nat → Nat
  | t :: ts, m :: ms, last => if last ≤ t && t ≤ m then 1 + railsMet ts ms t else 0
  | _, _, _ => 0

/-- POWER_ON_SEQUENCE (R527): with RST_N high and VIN held for 1 ms, after VIN was applied or RST_N stayed low for `lowNs` of at least
10 ms, the rails come up at the `times` given. When every milestone is met, PWR_GOOD rises; otherwise the sequence stands at the rail
that has missed its time. -/
def execPowerOnSequence (at_ lowNs : Nat) (times : List Nat) (s : State) : Out :=
  takes (s.power.vin && !s.power.good && s.power.seq.isNone && (s.power.armed || lowNs ≥ 10000000)) s (fun s =>
    let s := s.at at_
    let n := railsMet times railLimits 0
    if n = railLimits.length then
      let t := s.now + (times.getLastD 0)
      { s.at t with power := { s.power with rst := true, armed := false, good := true, goodAt := t } }
    else { s with power := { s.power with rst := true, armed := false, seq := some (s.now, n) } })

/-- RAIL_TIMEOUT (R528): the sequence stops, and every rail but VSTBY goes off again. -/
def execRailTimeout (at_ : Nat) (s : State) : Out :=
  match s.power.seq with
  | some (t, n) => takes (t + railLimits.getD n 0 ≤ at_) s (fun s =>
      let s := { s.at at_ with power := { s.power with seq := none, good := false, up := false }, boot := { s.boot with shutdownDue := true } }
      s.setRg Obj.LAST_SHUTDOWN 6)
  | none => .next s

/-! ## Shutdown (R529 to R531) -/

/-- Objects that MRAM keeps (R10): RWP, and no session's window. -/
def mramReg (key : Nat) : Bool :=
  match objRow key with
  | some r => r.acc == .rwp && !r.window
  | none => false

/-- Registers that survive without power beside the RWP objects: LAST_SHUTDOWN, and what the boot and the reference store need. -/
def keptReg (key : Nat) : Bool :=
  key == Obj.LAST_SHUTDOWN || key == Obj.BOOT_COPY || key == Obj.ACTIVE_COPIES || key == Obj.TABLES_SET
  || key / 256 == 0x8003 && 1 ≤ key % 256 && key % 256 ≤ 4
  || key / 256 == 0x9041 || key / 256 == 0x9042 || key / 256 == 0x9043 || key / 256 == 0x9044 || key / 256 == 0x9045

/-- MRAM without power: the RWP objects, or, where the milliner has not started since the last loss, what MRAM held then. -/
def State.mramLeft (s : State) : Mram :=
  let regs := s.regs.filter (fun kv => mramReg kv.1 && !keptReg kv.1)
  let doms := s.doms.filter (fun kv => mramReg kv.1 && !keptReg kv.1)
  ⟨s.mram.regs.foldl (fun m kv => SMap.ins m kv.1 kv.2) regs, s.mram.doms.foldl (fun m kv => SMap.ins m kv.1 kv.2) doms,
   s.mram.filters.foldl (fun m kv => SMap.ins m kv.1 kv.2) s.filters⟩

/-- The values of MRAM come into force as the milliner starts (R10). -/
def State.loadMram (s : State) : State :=
  { s with regs := s.mram.regs.foldl (fun m kv => SMap.ins m kv.1 kv.2) s.regs,
           doms := s.mram.doms.foldl (fun m kv => SMap.ins m kv.1 kv.2) s.doms,
           filters := s.mram.filters.foldl (fun m kv => SMap.ins m kv.1 kv.2) s.filters, mram := Mram.empty }

/-- The module without power: MRAM, NOR and the reference store remain (R530). A LOAD in progress leaves its slot FAILED, and its
range is erased after the restart, as is a range that was being erased (R516). -/
def State.powerLoss (s : State) : State :=
  let erase := match s.refLoad, s.refErase with
    | some l, _ => some l.slot
    | none, e => e
  let r := { State.reset with
    now := s.now, regs := s.regs.filter (fun kv => keptReg kv.1), doms := s.doms.filter (fun kv => keptReg kv.1),
    mem := s.mem.filter (fun c => refBase ≤ c.1), badPages := s.badPages, refs := s.refs, draws := s.draws, out := s.out,
    power := s.power, mram := s.mramLeft, boot := { Boot.factory with nor := s.boot.nor, copyOk := s.boot.copyOk, shutdownDue := s.boot.shutdownDue },
    refErase := erase, pending := s.pending }
  let r := match s.refLoad with
    | some l => (r.setRg (Obj.SLOT_STATE l.slot) 3).setRg (Obj.SLOT_RESULT_9045 l.slot) 0x8A
    | none => r
  match s.fwRun with
  | some f => if f.code = 0 then r.setCopyOk f.copy false else r
  | none => r

/-- SHUTDOWN (R529, R531): `causes` has bit k set for each cause k of LAST_SHUTDOWN detected within the same 1 µs; the lowest is
recorded, and RST_N alone only while PWR_GOOD is high. -/
def execShutdown (at_ causes : Nat) (s : State) : Out :=
  match (bitsOf 6 causes).filter (· ≠ 0) with
  | [] => .next s
  | c :: _ => takes s.power.vin s (fun s =>
      let was := s.power.good
      let s := (s.at at_).powerLoss
      let supply := causes.testBit 1 || causes.testBit 2
      let s := { s with power := { Power.off with vin := !supply, rst := s.power.rst && !causes.testBit 5 } }
      if c = 5 && !was then s
      else ({ s with boot := { s.boot with shutdownDue := true } } : State).setRg Obj.LAST_SHUTDOWN c)

/-! ## Boot (R500 to R502) -/

/-- Whether a firmware copy passes R499 at boot: `bad` marks copies that read back wrong. -/
def State.copyPasses (s : State) (bad k : Nat) : Bool :=
  let t := k / 2 + 1
  !bad.testBit k && s.boot.copyOk.testBit k && s.minSv t ≤ s.copySv k &&
    (match SMap.get? s.boot.nor k with
      | some img => pyCheck (listImage img) img.length [t] [Config.romKeyHash] (s.minSv t) == 0
      | none => true)

/-- The milliner starts from a copy. -/
def State.startMilliner (s : State) (k : Nat) : State :=
  let s := s.loadMram
  let act := s.rg Obj.ACTIVE_COPIES
  ({ s with boot := { s.boot with milliner := true, romRecovery := false, romBytes := [] } } : State).setRg Obj.ACTIVE_COPIES
    (if k % 2 = 1 then setBit act 0 else clearBit act 0)

/-- A copy that failed at boot: its measurement reads as all zero. -/
def State.copyFailed (s : State) (k : Nat) : State := (s.setCopyOk k false).incRg Obj.BOOT_FAILURES 1

/-- RESET_RELEASE (R500, R527): 10 ms after PWR_GOOD the ROM starts the first milliner copy that passes, from BOOT_COPY on; with none,
it enters ROM recovery (R501). `keyOk`: the identity key could be unwrapped (R505). -/
def execResetRelease (at_ bad : Nat) (keyOk : Bool) (s : State) : Out :=
  takes (s.power.good && s.power.rst && !s.power.up && s.power.goodAt + 10000000 ≤ at_) s (fun s =>
    let s := s.at at_
    let s := { s with power := { s.power with up := true }, boot := { s.boot with keyOk := keyOk } }
    let s := s.setRg Obj.MODULE_STATE (if keyOk then 0 else 3)
    let k := s.rg Obj.BOOT_COPY % 2
    if s.copyPasses bad k then s.startMilliner k
    else
      let s := s.copyFailed k
      if s.copyPasses bad (1 - k) then s.startMilliner (1 - k)
      else
        let s := s.copyFailed (1 - k)
        { s with boot := { s.boot with romRecovery := true } })

/-- ROM_RECOVERY_DATAGRAM (R501): the image bytes that follow those taken so far are added; a datagram at offset 0 begins anew. A
complete image that passes is written into copy A, from which the ROM starts. -/
def execRomRecoveryDatagram (data : List Byte) (s : State) : Out :=
  takes (s.power.up && s.boot.romRecovery) s (fun s =>
    let off := leNat (data.take 8)
    let bs := data.drop 8
    if data.length < 8 || bs.length > 8192 || !(off == s.boot.romBytes.length || off == 0) || off + bs.length > fwLimit then s
    else
      let img := (if off = 0 then [] else s.boot.romBytes) ++ bs
      let rd := listImage img
      if img.length < 4096 || !pyFormatOk rd || img.length < pyBytes rd then { s with boot := { s.boot with romBytes := img } }
      else if img.length = pyBytes rd && pyCheck rd img.length [1] [Config.romKeyHash] (s.minSv 1) = 0 then
        let s := ({ s with boot := { s.boot with nor := SMap.ins s.boot.nor 0 img } } : State).setCopyOk 0 true
        (s.setRg Obj.BOOT_COPY 0).startMilliner 0
      else s)

/-- A helper type in a quarter: the active copy, or else the other, is loaded. The second part says that both fail. -/
def State.loadHelper (s : State) (bad t q : Nat) : State × Bool :=
  let k := s.activeCopy t q
  if s.copyPasses bad k then (s, false)
  else if s.copyPasses bad (otherCopy k) then
    let b := activeBit t q
    let act := s.rg Obj.ACTIVE_COPIES
    (s.setRg Obj.ACTIVE_COPIES (if act.testBit b then clearBit act b else setBit act b), false)
  else (s, true)

/-- MODULE_STATE once Jenjo is open (R461). -/
def State.serviceState (s : State) : Nat :=
  if (List.range 48).any (fun d => s.rg (Obj.DEV_STATE d) == devFailed) || (List.range 8).any (fun x => s.rg (Obj.CXL_STATE x) == cxlFailed) then 2 else 1

/-- HELPER_BOOT (R461, R502): the helper images are loaded, and the devices that have trained wait in self-refresh, but for those that
hold a device-wide table (R267, R463). `trained` lists the devices that trained, each with its temperature then (R269). -/
def execHelperBoot (at_ bad : Nat) (trained : List (Nat × Int)) (s : State) : Out :=
  takes (s.power.up && s.boot.milliner && s.rg Obj.GDDR7_PRESENT == 0) s (fun s =>
    let s := s.at at_
    let failed := (List.range 8).filter (fun k => k ≥ 2 && !s.copyPasses bad k)
    let (s, dead) := [2, 3, 4].foldl (fun (u : State × Bool) t => (List.range 4).foldl (fun (v : State × Bool) q =>
      let (w, d) := v.1.loadHelper bad t q
      (w, v.2 || d)) u) (s, false)
    let s := failed.foldl (fun t k => (t.copyFailed k).notify 0x0082 0xFF k (if t.copySv k < t.minSv (k / 2 + 1) then 0x85 else 0x84)) s
    let s := (List.range 48).foldl (fun t d =>
      match (trained.find? (fun x => x.1 == d)).map (·.2) with
      | some c =>
        { (t.setRg (Obj.DEV_STATE d) (if t.holdsTable d then devReady else devSelfRefresh)).setRg (Obj.DEV_TEMP d) (unsigned 32 c) with
          trainTemp := SMap.put 0 t.trainTemp d (BitVec.ofInt 64 c) }
      | none => t.setRg (Obj.DEV_STATE d) devFailed) s
    let s := s.setRg Obj.GDDR7_PRESENT (((List.range 48).filter (fun d => trained.any (fun x => x.1 == d))).foldl setBit 0)
    s.setRg Obj.MODULE_STATE (if dead || !s.boot.keyOk then 3 else s.serviceState))

/-! ## Throttles (R532 to R535) -/

/-- THROTTLE_STATE. -/
def State.showThrottle (s : State) : State :=
  let ns := (List.range 4).map s.throttle.n
  s.setRg Obj.THROTTLE_STATE (((List.range 4).filter (fun q => ns.getD q 0 ≠ 0)).foldl setBit 0 + ns.foldl Nat.max 0 * 2 ^ 12)

/-- The hottest quarter junction as the module reports it, as a 64-bit pattern. -/
def State.hottest (s : State) : Nat :=
  unsigned 64 ((List.range 4).foldl (fun m q => max m (signed 32 (s.rg (Obj.QUARTER_TEMP q)))) (-273))

/-- A throttle engages: every slice in progress fails THERMAL, and THERMAL_THROTTLE is raised at most once per second (R535). -/
def State.throttleOn (s : State) : State :=
  let s := s.showThrottle
  let s := (List.range 12).foldl (fun t p => if (t.pt p).slice.isSome then t.fails p cfThermal else t) s
  if s.throttle.thermalTold.all (fun t => t + 10 ^ 9 ≤ s.now) then
    ({ s with throttle := { s.throttle with thermalTold := some s.now } } : State).notify 0x00B0 0xFF (s.rg Obj.THROTTLE_STATE % 16) s.hottest
  else s

/-- Whether the average input power stands above POWER_LIMIT_W: the cause of the power throttle (R532, R533). -/
def State.powerOver (s : State) : Bool := s.rg Obj.POWER_LIMIT_W * s.throttle.samples.length < s.throttle.samples.sum

/-- POWER_SAMPLE (R532): one grain's input power; the average is over the last 100 grains, or over those since power-on. -/
def execPowerSample (at_ watts : Nat) (s : State) : Out :=
  takes s.power.up s (fun s =>
    let s := (s.at at_).countWithheld
    let xs := (watts :: s.throttle.samples).take 100
    let sum := xs.sum
    let lim := s.rg Obj.POWER_LIMIT_W
    let low := sum < (lim - 50) * xs.length
    let s := { s with throttle := { s.throttle with samples := xs,
                                                    lowFrom := if low then some (s.throttle.lowFrom.getD s.now) else none } }
    let s := s.setRg Obj.PIN_W (sum / xs.length)
    if sum > lim * xs.length && s.throttle.powerN = 0 then
      let s := { s with throttle := { s.throttle with powerN := 1, powerStep := s.now } }
      let s := if s.throttle.powerTold.all (fun t => t + 10 ^ 9 ≤ s.now) then
          ({ s with throttle := { s.throttle with powerTold := some s.now } } : State).notify 0x00B1 0xFF (s.rg Obj.PIN_W) lim
        else s
      s.throttleOn
    else if s.throttle.powerN ≠ 0 && s.throttle.lowFrom.any (fun t => t + 10 ^ 8 ≤ s.now) then
      ({ s with throttle := { s.throttle with powerN := 0 } } : State).showThrottle
    else s)

/-- THERMAL_THROTTLE (R534): a junction sensor of a quarter reaches THROTTLE_C, or one of its GDDR7 devices 95 °C. -/
def execThermalThrottle (at_ : Nat) (q : QuarterId) (device : Bool) (temp : Int) (s : State) : Out :=
  takes (s.power.up && SMap.getD 0 s.throttle.thermalN q == 0 && (if device then 95 ≤ temp else (s.rg Obj.THROTTLE_C : Int) ≤ temp)) s (fun s =>
    let s := (s.at at_).countWithheld
    let s := if device then s else s.setRg (Obj.QUARTER_TEMP q) (unsigned 32 temp)
    ({ s with throttle := { s.throttle with thermalN := SMap.ins s.throttle.thermalN q 1,
                                            thermalStep := SMap.ins s.throttle.thermalStep q s.now } } : State).throttleOn)

/-- THROTTLE_STEP (R533): a cause has persisted for 10 ms, and n rises by 1, up to 4. -/
def execThrottleStep (at_ : Nat) (q : QuarterId) (power : Bool) (s : State) : Out :=
  let t := s.throttle
  if power then
    takes (0 < t.powerN && t.powerN < 4 && t.powerStep + 10000000 ≤ at_ && s.powerOver) s (fun s =>
      let s := (s.at at_).countWithheld
      ({ s with throttle := { s.throttle with powerN := t.powerN + 1, powerStep := s.now } } : State).showThrottle)
  else
    let n := SMap.getD 0 t.thermalN q
    takes (0 < n && n < 4 && SMap.getD 0 t.thermalStep q + 10000000 ≤ at_) s (fun s =>
      let s := (s.at at_).countWithheld
      ({ s with throttle := { s.throttle with thermalN := SMap.ins s.throttle.thermalN q (n + 1),
                                              thermalStep := SMap.ins s.throttle.thermalStep q s.now } } : State).showThrottle)

/-- THROTTLE_RELEASE (R534): every sensor of a quarter has stayed 5 °C below its threshold since `cool`, for 100 ms. -/
def execThrottleRelease (at_ : Nat) (q : QuarterId) (cool : Nat) (s : State) : Out :=
  takes (SMap.getD 0 s.throttle.thermalN q != 0 && cool + 10 ^ 8 ≤ at_) s (fun s =>
    ({ (s.at at_).countWithheld with throttle := { s.throttle with thermalN := SMap.del s.throttle.thermalN q } } : State).showThrottle)

/-- The inlet limit of R536 at an altitude in m. -/
def inletLimit (altitude : Nat) : Int := 35 - ((altitude - 900) / 300 : Nat)

/-- INLET_HIGH (R537): the inlet has exceeded its limit for 10 s; raised once. -/
def execInletHigh (at_ : Nat) (temp : Int) (altitude : Nat) (s : State) : Out :=
  takes (s.power.up && !s.throttle.inletTold && inletLimit altitude < temp) s (fun s =>
    let s := { s.at at_ with throttle := { s.throttle with inletTold := true } }
    (s.setRg Obj.INLET_TEMP (unsigned 32 temp)).notify 0x00B2 0xFF (unsigned 64 temp) 0)

end Sys2Proof.Machine
end

