-- ==== Sys2Proof/Machine/Press.lean ====
section
/-!
DEFINITION. Press copies and drains (12_resilience.md R413 to R419): PRESS_BOUND_US, and the commands PRESS_ARM, PRESS_COPY_DONE and
DRAIN_WINDOW.
-/

namespace Sys2Proof.Machine
open Sys2Proof

/-! ## The bound (R417) -/

/-- Bytes of one generation staged behind a CXL port. -/
def State.stagedBehind (s : State) (p x : Nat) : Nat :=
  (((s.savedEntries p).filter (fun i => s.stagePort i == x)).map (fun i => ResEntry.savedBytes (s.resE i))).sum
    + (if s.stageHome p = x then 128 * (s.savedEntries p).length + 64 else 0)

/-- PRESS_BOUND_US: 4 ms and the time of the slowest port at 62 GB/s of its share, for the partition's saved state; 0 with none. -/
def State.pressBound (s : State) (p : Nat) : Nat :=
  match (s.pt p).built with
  | none => 0
  | some r =>
    if (s.savedEntries p).isEmpty then 0
    else Nat.min 0xFFFFFFFF (4000 + ((List.range 8).map (fun x =>
      let n := s.stagedBehind p x
      let share := r.shares.getD (4 + x) 0
      if n = 0 then 0 else if share = 0 then 0xFFFFFFFF else ceilDiv (n * 64) (62000 * share))).foldl Nat.max 0)

/-! ## A generation in the staging (R413) -/

/-! Directory row, 128 B. -/
namespace Dr
def index : Fld := fb 0x00 4
def version : Fld := fb 0x04 4
def bytes : Fld := fb 0x08 8
def offset : Fld := fb 0x10 8
def root : Fld := fb 0x40 64
end Dr

/-- A byte address of the parts of a generation behind STAGING_BASE's own port: the directory and the position record. -/
def State.homeAddr (s : State) (p gen off : Nat) : Nat := s.stageAddr p gen (s.stageHome p) off

/-- A directory row of a staged generation. -/
def State.dirRow (s : State) (p gen n : Nat) : BitVec 1024 := s.memRec (s.homeAddr p gen (128 * n)) 128
def State.dirRows (s : State) (p gen : Nat) : List (BitVec 1024) :=
  (List.range (SMap.getD 0 (s.pt p).genRows gen)).map (s.dirRow p gen)

/-- Where the bytes of a generation end: after its last entry and the position record. -/
def State.genEnd (s : State) (p gen : Nat) : Nat :=
  ((s.dirRows p gen).foldl (fun _ r => Dr.offset.get r + Dr.bytes.get r) 0) + 64

/-- Where byte `off` of a staged generation lies: the bytes of an entry behind the port of its device. -/
def State.genByteAddr (s : State) (p gen off : Nat) : Nat :=
  match (s.dirRows p gen).find? (fun r => Dr.offset.get r ≤ off && off < Dr.offset.get r + Dr.bytes.get r) with
  | some r => s.stageAddr p gen (s.stagePort (Dr.index.get r)) off
  | none => s.homeAddr p gen off

/-- The element region and the scale region of slot CUR of an entry, without the gap, with their poison. -/
def State.savedContent (s : State) (i : Nat) : List (Byte × Bool) :=
  let e := s.resE i
  let z := ResEntry.sizes e
  s.memRead (ResEntry.curAddr e) z.1 ++ s.memRead (ResEntry.curAddr e + ResEntry.scaleOffset e) z.2

/-- The saved entries written to a generation one after another: their bytes, and their directory rows. -/
def State.stageEntries (s : State) (p gen : Nat) : Nat → Nat → List Nat → State
  | _, _, [] => s
  | n, off, i :: is =>
    let e := s.resE i
    let bs := s.savedContent i
    let row : BitVec 1024 := [(Dr.index, i), (Dr.version, Rs.version.get e), (Dr.bytes, bs.length), (Dr.offset, off),
      (Dr.root, leNat (treeHash (bs.map (·.1))))].foldl (fun r f => f.1.set r f.2) 0
    let s := s.store (s.stageAddr p gen (s.stagePort i) off) bs
    let s := s.store (s.homeAddr p gen (128 * n)) (goodBytes (leBytes 128 row.toNat))
    s.stageEntries p gen (n + 1) (off + bs.length) is

/-- A generation written: directory, entries and position record. -/
def State.stageAll (s : State) (p gen : Nat) : State :=
  let l := s.savedEntries p
  let s := s.stageEntries p gen 0 (128 * l.length) l
  let s := s.modPt p (fun x => { x with genRows := SMap.put 0 x.genRows gen l.length })
  s.store (s.homeAddr p gen (s.genEnd p gen - 64)) (goodBytes (leBytes 64 (s.pt p).posRec.toNat))

/-! ## The commands -/

/-- A write of PRESS_STEP (R415). -/
def State.pressArm (s : State) (p step : Nat) : State × Answer :=
  let undrained := s.rg (Obj.STAGED_STEP p) != 2 ^ 64 - 1 && s.rg (Obj.STAGED_STEP p) != s.rg (Obj.DRAINED_STEP p)
  if s.rg (Obj.RECOVERY_STATE p) != rsNone || s.rg (Obj.PRESS_TICKS p) * s.rg (Obj.TICK_GRAINS p) * 10 < s.pressBound p
      || undrained || s.rg (Obj.PRESS_STATE p) = 2 then (s, .of stState)
  else ((s.setRg (Obj.PRESS_STEP p) step).setRg (Obj.PRESS_STATE p) 1, .ok)

/-- PRESS_ARM (R415). -/
def execPressArm (sess : Nat) (p : PartId) (val : Nat) (s : State) : Out :=
  s.command sess (Obj.PRESS_STEP p) val (fun s => (s.pressArm p val).1)

/-- PRESS_COPY_DONE (R416): the press copy of the suspension is complete. -/
def execPressCopyDone (p : PartId) (at_ : Nat) (s : State) : Out :=
  takes ((s.pt p).suspend > 0 && !(s.pt p).pressDone && s.rg (Obj.PRESS_STATE p) == 2) s (fun s =>
    let s := s.at at_
    let gen := (s.pt p).pressGen
    let step := s.rg (Obj.PRESS_STEP p)
    let s := (s.stageAll p gen).modPt p (fun x => { x with
      gens := SMap.ins x.gens gen step, pressDone := true, drain := some ⟨gen, step, 0⟩ })
    (((s.setRg (Obj.STAGED_STEP p) step).setRg (Obj.PRESS_STATE p) 3)).incRg (Obj.PRESS_COPIES p) 1)

/-- DRAIN_BYTES_LEFT: the bytes of the newest generation not yet drained. -/
def State.drainLeft (s : State) (p : Nat) : Nat :=
  match (s.pt p).drain with
  | some d => s.genEnd p d.gen - d.cursor
  | none => 0

/-- A drain window of the sender: it sends the bytes at the drain cursor, which moves by the bytes acknowledged. -/
def State.drainSend (s : State) (p acked : Nat) : State :=
  match (s.pt p).drain with
  | none => s
  | some d =>
    let total := s.genEnd p d.gen
    let n := Nat.min acked (total - d.cursor)
    let data := (List.range n).map (fun i => s.memByte (s.genByteAddr p d.gen (d.cursor + i)))
    let last := d.cursor + n = total
    let s := if n = 0 then s else s.emit (.drain p ⟨d.gen, d.step, d.cursor, data, last⟩)
    if last then ((s.modPt p (fun x => { x with drain := none })).setRg (Obj.DRAINED_STEP p) d.step).setRg (Obj.PRESS_STATE p) 4
    else s.modPt p (fun x => { x with drain := some { d with cursor := d.cursor + n } })

/-- A drain window of the holder: the bytes are kept in the drain area, which holds two generations. -/
def State.drainTake (s : State) (p : Nat) (x : DrainPiece) : State :=
  s.modPt p (fun t => { t with
    held := SMap.putList 0 t.held (x.gen % 2 * 2 ^ 48 + x.offset) x.data,
    heldSteps := let m := if x.offset = 0 then SMap.del t.heldSteps (x.gen % 2) else t.heldSteps
      if x.last then SMap.ins m (x.gen % 2) x.step else m })

/-- Bytes that a window of "$press.drain" carries at most: 800 Gb/s for its DURATION_NS (R333, R419). -/
def DrainRow.room (w : DrainRow) : Nat := 100 * w.dur

/-- DRAIN_WINDOW (R419): a window of the running slice's row of "$press.drain". `acked` is how many bytes the holder acknowledges. -/
def execDrainWindow (p : PartId) (row acked : Nat) (piece : Option DrainPiece) (s : State) : Out :=
  match (s.pt p).slice with
  | none => .next s
  | some r =>
    match ((s.drainPlan p (s.blockOf p r.job)).getD [])[row]? with
    | none => .next s
    | some w =>
      takes (w.slice == r.number) s (fun s =>
        let s := s.at ((s.pt p).edgeNs + w.start)
        if w.dir = 0 then s.drainSend p (Nat.min acked w.room)
        else match piece with
          | some x => s.drainTake p x
          | none => s)

end Sys2Proof.Machine
end

