-- ==== Sys2Proof/Machine/Recovery.lean ====
section
/-!
DEFINITION. Recovery (12_resilience.md R405, R408 to R411, R427 to R438): the commands RECOVER, RECOVERY_START, RESTORE_TRANSFER,
RECOVERY_READY, RESUME and ABANDON.
-/

namespace Sys2Proof.Machine
open Sys2Proof

/-! ## RECOVER (R411, R428, R429, R438) -/

/-- The job that a recovery is about: the stopped one, or the oldest accepted one of a spare. -/
def Part.recoverJob (x : Part) : Option Nat :=
  match x.stopped with
  | some j => some j
  | none => x.order.head?

/-- Whether this module takes over a lost module's place in the partition's job. -/
def State.isSpare (s : State) (p : Nat) : Bool := (s.pt p).stopped.isNone && s.rg (Obj.TAKEOVER_INDEX p) != 0xFF

/-- The entries of a partition with a CKPT whose slot CUR, or provisional slot while it has one, holds poison. -/
def State.poisonedEntries (s : State) (p ckpt : Nat) : List Nat :=
  (s.resList.filter (fun kv => let e := kv.2
    Rs.partition.get e == p && Rs.ckpt.get e == ckpt
      && (s.memBad (ResEntry.curAddr e) (ResEntry.stride e)
        || (Rs.provTag.get e != noVersion && s.memBad (ResEntry.slotAddr e (Rs.provSlot.get e)) (ResEntry.stride e))))).map (·.1)

/-- What bars this module from its job (R405): a FAILED device of the partition, or an expander that the job uses and that is not
there. -/
def State.unrestorable (s : State) (p j : Nat) : Bool :=
  match (s.pt p).built with
  | none => true
  | some r => (bitsOf 48 r.devices).any (fun d => s.rg (Obj.DEV_STATE d) == devFailed)
      || (s.blockUses (s.blockOf p j)).any (fun u => let a := ResEntry.slotAddr (s.resE u.1) 0
          isCxl a && s.rg (Obj.CXL_STATE ((a - 0x1000_0000_0000) / 2 ^ 41)) != cxlUp)

/-- Whether the stop cause allows the position (R411). -/
def State.causeAllows (s : State) (p j kind : Nat) : Bool :=
  let cause := s.rg (Obj.STOP_CAUSE p)
  let lost := s.rg (Obj.LOST_MODULES p) != 0 || s.isSpare p
  if s.pressBlock (s.blockOf p j) then
    kind == pointPress || (kind ≤ 1 && !lost && cause != stopWatchdog
      && !(cause == stopPoison && !(s.poisonedEntries p ckptPress).isEmpty))
  else kind ≤ 1

/-- Whether the position's own conditions hold (R411, R428). -/
def State.pointHolds (s : State) (p j : Nat) (f : RecoverFacts) : Bool :=
  let kind := s.rg (Obj.POINT_KIND p)
  let step := s.rg (Obj.POINT_STEP p)
  let started := f.updateStarted || s.rg (Obj.UPDATE_STARTED p) == 1
  let held := f.heldStarted || s.rg (Obj.HELD_UPDATE_STARTED p) == 1
  let spare := s.isSpare p
  if kind = pointPress then
    f.steps.contains step || (!spare && s.rg (Obj.LOST_MODULES p) == 0 && (s.pt p).gens.any (fun kv => kv.2 == step))
  else (spare || step == s.rg (Obj.STEP_COUNTER p))
    && (if kind = pointStep then !started && !held
      else (started || held) && (spare || match s.resumeUpdate (s.blockOf p j) (Po.nextSlice.get (s.pt p).posRec) with
        | some k => k != noEntry
        | none => false))

/-- TAKEOVER (0x6B). -/
def State.takeoverBad (s : State) (p j : Nat) (f : RecoverFacts) : Bool :=
  s.isSpare p && (s.resourcesDiffer p (s.blockOf p j) || s.blkJobModules (s.blockOf p j) != f.modules
    || s.rg (Obj.SELF_MODULE p) != s.rg (Obj.TAKEOVER_INDEX p) || s.rg (Obj.HOLDER_MODULE p) != f.holder
    || s.rg (Obj.MIRROR_OF p) != f.mirrorOf)

/-- The edge that begins a tick of a partition, in ns. -/
def State.edgeOf (s : State) (p t : Nat) : Nat := (s.rg (Obj.TICK_EPOCH_GRAIN p) + t * s.rg (Obj.TICK_GRAINS p)) * 10000

/-- The refusal code of a RECOVER. -/
def State.recoverCode (s : State) (p j : Nat) (f : RecoverFacts) : Nat :=
  let kind := s.rg (Obj.POINT_KIND p)
  if f.orphan || s.unrestorable p j || !s.causeAllows p j kind || !s.pointHolds p j f
      || s.edgeOf p (s.rg (Obj.RECOVER_TICK p)) < s.now + 1000000000 then 0x67
  else if s.takeoverBad p j f then 0x6B
  else 0

/-- RECOVER_COMMAND 0x01. -/
def State.recoverCmd (s : State) (p : Nat) (f : RecoverFacts) : State × Answer :=
  let st := s.rg (Obj.RECOVERY_STATE p)
  let training := match (s.pt p).built with
    | some r => (bitsOf 48 r.devices).any (fun d => s.rg (Obj.DEV_STATE d) == devTraining)
    | none => true
  match (s.pt p).recoverJob with
  | none => (s, .of stState)
  | some j =>
    if training || !(((s.pt p).stopped.isSome && (st == rsStopped || st == rsFailed)) || (s.isSpare p && st == rsNone)) then (s, .of stState)
    else
      let code := s.recoverCode p j f
      let s := s.setRg (Obj.RECOVER_RESULT p) code
      if code ≠ 0 then (s, .ok)
      else
        let rc : Recover := ⟨s.rg (Obj.POINT_KIND p), s.rg (Obj.POINT_STEP p), s.rg (Obj.RECOVER_TICK p),
          if s.isSpare p then s.rg (Obj.TAKEOVER_INDEX p) else 0xFF, false, false, [], [], [], [], none⟩
        (s.modPt p (fun x => { x with recover := some rc }), .ok)

/-- RECOVER (R428). -/
def execRecover (sess : Nat) (p : PartId) (facts : RecoverFacts) (s : State) : Out :=
  s.command sess (Obj.RECOVER_COMMAND p) 1 (fun s => (s.recoverCmd p facts).1)

/-! ## Restored entries (R430, R432, R433) -/

/-- Bytes of slot CUR of an entry written at an offset of its element region followed by its scale region. -/
def State.placeSaved (s : State) (i off : Nat) (bs : List (Byte × Bool)) : State :=
  let e := s.resE i
  let z := ResEntry.sizes e
  let low := bs.take (z.1 - off)
  let s := if low.isEmpty then s else s.store (ResEntry.curAddr e + off) low
  let high := bs.drop (z.1 - off)
  if high.isEmpty then s else s.store (ResEntry.curAddr e + ResEntry.scaleOffset e + (Nat.max off z.1 - z.1)) high

/-- Every slot of an entry other than CUR becomes undefined (R432): free bytes. -/
def State.freeOtherSlots (s : State) (i : Nat) : State :=
  let e := s.resE i
  ((List.range (ResEntry.slots e)).filter (· != Rs.cur.get e)).foldl (fun t k =>
    let (n, t) := t.draw
    t.store (ResEntry.slotAddr e k) (goodBytes (Config.freeBytes n (ResEntry.stride e)))) s

/-- An entry is restored: its VERSION, and a history counts as supplied (R152). -/
def State.restoredEntry (s : State) (p i version : Nat) : State :=
  let s := s.setResFld i Rs.version version
  let s := if Rs.class_.get (s.resE i) = classHistory then { s with histUsed := (s.histUsed ++ [i]).eraseDups } else s
  s.modPt p (fun x => { x with recover := x.recover.map (fun rc => { rc with
    wanted := rc.wanted.filter (· != i), resync := rc.resync.filter (· != i), restored := rc.restored ++ [i] }) })

def State.modRecover (s : State) (p : Nat) (f : Recover → Recover) : State := s.modPt p (fun x => { x with recover := x.recover.map f })

/-- A recovery fails. -/
def State.recoverFail (s : State) (p code : Nat) : State :=
  (s.setRg (Obj.RECOVERY_STATE p) rsFailed).setRg (Obj.RECOVER_RESULT p) code

/-! ## RECOVERY_START (R430) -/

/-- Whether a staged generation is intact: its rows and bytes can be read, and every ROOT is the hash of the staged bytes (R434). -/
def State.stagedIntact (s : State) (p gen : Nat) : Bool :=
  (s.dirRows p gen).all (fun r =>
    let a := s.stageAddr p gen (s.stagePort (Dr.index.get r)) (Dr.offset.get r)
    s.resEnabled (Dr.index.get r) && !s.memBad a (Dr.bytes.get r)
      && leNat (treeHash (s.memBytes a (Dr.bytes.get r))) == Dr.root.get r)
  && !s.memBad (s.homeAddr p gen 0) (128 * SMap.getD 0 (s.pt p).genRows gen) && !s.memBad (s.homeAddr p gen (s.genEnd p gen - 64)) 64

/-- Slot CUR and VERSION of every saved entry written from a staged generation, and its position record. -/
def State.restoreStaged (s : State) (p gen : Nat) : State :=
  let po : BitVec 512 := s.memRec (s.homeAddr p gen (s.genEnd p gen - 64)) 64
  let s := (s.dirRows p gen).foldl (fun t r =>
    let i := Dr.index.get r
    let n := Dr.bytes.get r
    let t := t.placeSaved i 0 (goodBytes (t.memBytes (t.stageAddr p gen (t.stagePort i) (Dr.offset.get r)) n))
    ((t.freeOtherSlots i).restoredEntry p i (Dr.version.get r)).incRg (Obj.RESTORE_BYTES p) n) s
  s.modPt p (fun x => { x with posRec := po })

/-- The entries of a partition with CKPT MIRROR. -/
def State.mirrorEntries (s : State) (p : Nat) : List Nat :=
  (s.resList.filter (fun kv => Rs.partition.get kv.2 == p && Rs.ckpt.get kv.2 == ckptMirror)).map (·.1)

/-- The local mirror entries under "$mirror.held". -/
def State.heldEntries (s : State) (p j : Nat) : List Nat :=
  match s.symbol (s.blockOf p j) "$mirror.held" with
  | some x => (s.wordRows x 4).map (fun r => r.getD 1 noEntry)
  | none => []

/-- What a recovery to a STEP or UPDATE position asks of the partner: a spare everything, and any other module what the stop has
cost it. noEntry stands for the position record. -/
def State.askMirrors (s : State) (p j : Nat) (spare : Bool) : State :=
  let cxl := s.rg (Obj.STOP_CAUSE p) == stopCxl
  let gone := fun (i : Nat) => cxl && Rs.tier.get (s.resE i) == tierCxl
  let bad := s.poisonedEntries p ckptMirror
  let w := if spare then noEntry :: s.mirrorEntries p else (s.mirrorEntries p).filter (fun i => bad.contains i || gone i)
  let r := (s.heldEntries p j).filter (fun i => spare || gone i)
  s.modRecover p (fun rc => { rc with wanted := w, resync := r })

/-- RECOVERY_START (R430): from the edge of RECOVER_TICK the module reverts, resets sweeps for a PRESS position, and restores what
its own staging holds; the rest is asked of the partner. -/
def execRecoveryStart (p : PartId) (s : State) : Out :=
  match (s.pt p).recover, (s.pt p).recoverJob with
  | some rc, some j =>
    takes (!rc.active && rc.tick ≤ (s.pt p).gen.tick && (s.pt p).gen.begun) s (fun s =>
      let spare := rc.takeover != 0xFF
      let s := s.modPt p (fun x => { x with stopped := some j, order := x.order.filter (· != j), recover := some { rc with active := true } })
      let s := if spare then (s.setJobF p j Job.state jsStopped).setJobF p j Job.jobModule rc.takeover else s
      let s := (((s.setRg (Obj.RECOVERY_STATE p) rsRecovering).setRg (Obj.RESTORE_BYTES p) 0).setRg (Obj.RESTORE_REPORT p) 0).setFilter p 1
      let s := ((s.provisional p).foldl (fun t kv => t.revert p kv.1) s).updatePart p
      if rc.kind = pointPress then
        let s := s.modPt p (fun x => { x with sweeps := [] })
        match (s.pt p).gens.find? (fun kv => kv.2 == rc.step && !spare && s.stagedIntact p kv.1) with
        | some g => s.restoreStaged p g.1
        | none => s.modRecover p (fun r => { r with wanted := noEntry :: s.savedEntries p })
      else s.askMirrors p j spare)
  | _, _ => .next s

/-! ## RESTORE_TRANSFER (R427, R431) -/

/-- Bytes of an entry that arrive in order; the last of them completes it. -/
def State.takeBytes (s : State) (p i version off : Nat) (data : List Byte) : State :=
  match (s.pt p).recover with
  | none => s
  | some rc =>
    let total := ResEntry.savedBytes (s.resE i)
    if SMap.getD 0 rc.got i ≠ off || total < off + data.length then s
    else
      let s := if off = 0 then s.freeOtherSlots i else s
      let s := ((s.placeSaved i off (goodBytes data)).incRg (Obj.RESTORE_BYTES p) data.length).modRecover p (fun rc => { rc with
        got := SMap.put 0 rc.got i (off + data.length) })
      if off + data.length = total then s.restoredEntry p i version else s

/-- The sweep slot of a restored sweep: STATE, STEP and PROGRESS of the record, the rest from the Block's FIRST item of the slot. -/
def State.restoreSweep (s : State) (p j u slot state step progress : Nat) : State :=
  match (s.kettleItems (s.blockOf p j)).find? (fun x => Kt.first.get x.2 == 1 && Kt.slot.get x.2 == slot && s.unitOf p (Kt.unit.get x.2) == some u) with
  | some (_, e) =>
    s.modPt p (·.setSweep u slot ⟨state, step, progress, ResEntry.blocks (s.resE (Kt.w.get e)), Kt.row.get e, Kt.w.get e, Kt.s1.get e,
      Kt.s2.get e, Kt.g.get e, Kt.group.get e⟩)
  | none => s

/-- Whether a partner's pairing record agrees (R427). -/
def State.pairingOk (s : State) (p j feed job module : Nat) : Bool :=
  job == Job.job.get ((s.pt p).job j)
    && ((module == s.rg (Obj.HOLDER_MODULE p) && feed == s.rg (Obj.HOLDER_FEED p)) || module == s.rg (Obj.MIRROR_OF p))
    && module != 0xFF

/-- An item received from the partner. -/
def State.restoreTake (s : State) (p j : Nat) (rc : Recover) (x : RestoreItem) : State :=
  match x with
  | .pairing feed _ job module =>
    if s.pairingOk p j feed job module then s.modRecover p (fun r => { r with paired := true }) else s.recoverFail p 0x62
  | .entry i v off data => if rc.paired && rc.wanted.contains i then s.takeBytes p i v off data else s
  | .resync i v off data =>
    match s.mirrorEntry p j i with
    | some m => if rc.paired && rc.resync.contains m then s.takeBytes p m v off data else s
    | none => s
  | .sweep u slot st step progress => if rc.paired then s.restoreSweep p j u slot st step progress else s
  | .resyncSweep u slot st step progress =>
    if rc.paired then s.modPt p (fun t => { t with
      mirrorSweeps := SMap.ins t.mirrorSweeps (64 * u + slot) { Sweep.closed with state := st, step := step, progress := progress, w := 1 } })
    else s
  | .position r =>
    if rc.paired && rc.wanted.contains noEntry then
      (s.modPt p (fun t => { t with posRec := r })).modRecover p (fun r => { r with wanted := r.wanted.filter (· != noEntry) })
    else s
  | .sets dropped missing => if rc.paired then s.modPt p (fun t => { t with stepDropped := dropped, stepMissing := missing }) else s

/-- The directory row of an entry in a generation held for the partner. -/
def Part.heldRow (x : Part) (gen i : Nat) : Option (BitVec 1024) :=
  let row := fun (n : Nat) => BitVec.ofNat 1024 (leNat (SMap.range 0 x.held (gen * 2 ^ 48 + 128 * n) 128))
  ((List.range (Dr.offset.get (row 0) / 128)).map row).find? (fun r => Dr.index.get r == i)

/-- Bytes of slot CUR of an entry at an offset of its element region followed by its scale region. -/
def State.savedBytesAt (s : State) (i off n : Nat) : List Byte := (((s.savedContent i).map (·.1)).drop off).take n

/-- What the holder sends of an entry of the module that it holds: from the held generation for a PRESS position, else from the
mirror entry, or its own copy of what is identical on every module (R423). -/
def State.heldPiece (s : State) (p j : Nat) (rc : Recover) (i off n : Nat) : Option RestoreItem :=
  let x := s.pt p
  if rc.kind = pointPress then
    match x.heldSteps.find? (fun kv => kv.2 == rc.step) with
    | some (gen, _) => match x.heldRow gen i with
      | some r => some (.entry i (Dr.version.get r) off (SMap.range 0 x.held (gen * 2 ^ 48 + Dr.offset.get r + off) (Nat.min n (Dr.bytes.get r - off))))
      | none => none
    | none => none
  else
    let m := (s.mirrorEntry p j i).getD i
    if s.resEnabled m then some (.entry i (Rs.version.get (s.resE m)) off (s.savedBytesAt m off n)) else none

/-- The position record that the holder sends: that of the held generation for a PRESS position, else its own (R423). -/
def State.heldPosition (s : State) (p : Nat) (rc : Recover) : BitVec 512 :=
  let x := s.pt p
  if rc.kind = pointPress then
    match x.heldSteps.find? (fun kv => kv.2 == rc.step) with
    | some (gen, _) =>
      let row := fun (n : Nat) => BitVec.ofNat 1024 (leNat (SMap.range 0 x.held (gen * 2 ^ 48 + 128 * n) 128))
      let rows := (List.range (Dr.offset.get (row 0) / 128)).map row
      let at_ := rows.foldl (fun _ r => Dr.offset.get r + Dr.bytes.get r) 0
      BitVec.ofNat 512 (leNat (SMap.range 0 x.held (gen * 2 ^ 48 + at_) 64))
    | none => x.posRec
  else x.posRec

/-- One transfer of a recovery. Each side sends only after the pairing record of the other, with which every transfer opens (R427). -/
def State.restoreMove (s : State) (p j : Nat) (rc : Recover) (x : Transfer) : State :=
  match x with
  | .receive y => if s.rg (Obj.RECOVERY_STATE p) = rsRecovering then s.restoreTake p j rc y else s
  | .sendPairing =>
    s.emit (.restore p (.pairing (s.rg Obj.FEED_TAG) Config.baseMac.toNat (Job.job.get ((s.pt p).job j)) (Job.jobModule.get ((s.pt p).job j))))
  | .sendHeld i off n => match rc.paired, s.heldPiece p j rc i off n with
    | true, some y => s.emit (.restore p y)
    | _, _ => s
  | .sendHeldSweep u slot => match rc.paired, SMap.get? (s.pt p).mirrorSweeps (64 * u + slot) with
    | true, some w => s.emit (.restore p (.sweep u slot w.state w.step w.progress))
    | _, _ => s
  | .sendPosition =>
    if rc.paired then
      (s.emit (.restore p (.position (s.heldPosition p rc)))).emit (.restore p (.sets (s.pt p).stepDropped (s.pt p).stepMissing))
    else s
  | .sendEntry i off n =>
    if rc.paired && (s.mirrorEntries p).contains i then
      s.emit (.restore p (.resync i (Rs.version.get (s.resE i)) off (s.savedBytesAt i off n)))
    else s
  | .sendSweep u slot =>
    let w := (s.pt p).sweep u slot
    if rc.paired && w.state = 1 then s.emit (.restore p (.resyncSweep u slot w.state w.step w.progress)) else s

/-- RESTORE_TRANSFER (R431). -/
def execRestoreTransfer (p : PartId) (x : Transfer) (s : State) : Out :=
  match (s.pt p).recover, (s.pt p).stopped with
  | some rc, some j =>
    takes (rc.active && (s.rg (Obj.RECOVERY_STATE p) == rsRecovering || s.rg (Obj.RECOVERY_STATE p) == rsReady)) s (fun s => s.restoreMove p j rc x)
  | _, _ => .next s

/-! ## RECOVERY_READY (R434, R435) -/

/-- The tree hash of slot CUR of an entry (R433). -/
def State.entryRoot (s : State) (i : Nat) : List Byte := treeHash ((s.savedContent i).map (·.1))

/-- The bytes of `rows` rows from row `first` of slot CUR of an entry: elements, then scales. -/
def State.rowsContent (s : State) (i first rows : Nat) : List Byte :=
  let e := s.resE i
  let a := ResEntry.curAddr e
  let f := Rs.format.get e
  let lo := ResEntry.sizes (Rs.rows.set e first)
  let n := ResEntry.sizes (Rs.rows.set e rows)
  let elems := if f = 0x10 then s.memBytes a 64 ++ s.memBytes (a + lo.1) (n.1 - 64) else s.memBytes (a + lo.1) n.1
  let sc := a + ResEntry.scaleOffset e
  elems ++ (if fmtPlainFP8 f then s.memBytes sc n.2 else s.memBytes (sc + lo.2) n.2)

/-- A live replica of the same format and version that holds an entry's rows from row `first` on (R434). -/
def State.isReplica (s : State) (p i r first : Nat) : Bool :=
  let e := s.resE i
  let f := s.resE r
  s.resEnabled r && r != i && Rs.partition.get f == p && Rs.format.get f == Rs.format.get e && Rs.cols.get f == Rs.cols.get e
    && first + Rs.rows.get e ≤ Rs.rows.get f
    && (if Rs.role.get f = roleGathered then Rs.linkVersion.get f else Rs.version.get f) == Rs.version.get e

/-- The code with which the verification ends, and RESTORE_REPORT. -/
def State.verify (s : State) (p j : Nat) (rc : Recover) (roots : List (Nat × List Byte)) (replicas : List (Nat × Nat × Nat)) : Nat × Nat :=
  let weights := rc.restored.filter (fun i => Rs.kind.get (s.resE i) == kindWeight && Rs.class_.get (s.resE i) == 0)
  let live := fun (i : Nat) => replicas.filter (fun t => t.1 == i && s.isReplica p i t.2.1 t.2.2)
  let moved := rc.restored.filter (fun i => (SMap.get? rc.got i).isSome)
  let partner := moved.all (fun i => roots.any (fun r => r.1 == i && r.2 == s.entryRoot i))
  let replica := weights.all (fun i => (live i).all (fun t => treeHash (s.rowsContent t.2.1 t.2.2 (Rs.rows.get (s.resE i))) == s.entryRoot i))
  let po := (s.pt p).posRec
  let cursor := match s.symbol (s.blockOf p j) "$cursor" with
    | some i => if rc.kind = pointPress then Po.cursorStep.get po == Po.step.get po else s.memLE (ResEntry.curAddr (s.resE i)) 8 == Po.step.get po
    | none => true
  let report := (if partner then 1 else 0) + (if weights.any (fun i => !(live i).isEmpty) then 2 else 0)
    + (if weights.any (fun i => (live i).isEmpty) then 4 else 0)
  (firstCode [(!partner, 0x69), (!replica, 0x6A), (!cursor, 0x68)], report)

/-- RECOVERY_READY (R434, R435): every entry asked for has come; `roots` are the partner's roots of what it sent, `replicas` the
live replicas of restored entries: entry, replica and first row. -/
def execRecoveryReady (p : PartId) (at_ : Nat) (roots : List (Nat × List Byte)) (replicas : List (Nat × Nat × Nat)) (s : State) : Out :=
  match (s.pt p).recover, (s.pt p).stopped with
  | some rc, some j =>
    takes (s.boot.milliner && rc.active && s.rg (Obj.RECOVERY_STATE p) == rsRecovering && rc.wanted.isEmpty && rc.resync.isEmpty) s (fun s =>
      let s := s.at at_
      let (code, report) := s.verify p j rc roots replicas
      let s := s.setRg (Obj.RESTORE_REPORT p) report
      let s := if code = 0x69 || code = 0x6A then s.incRg (Obj.HASH_MISMATCHES p) 1 else s
      if code ≠ 0 then s.recoverFail p code
      else
        let step := Po.step.get (s.pt p).posRec
        let s := s.checkHistories p (s.blockOf p j) (fun t i => Hi.stepSettled.get (t.histEntry i) + 1 != step)
        s.setRg (Obj.RECOVERY_STATE p) rsReady)
  | _, _ => .next s

/-! ## RESUME and ABANDON -/

/-- RECOVER_COMMAND 0x02. -/
def State.resumeCmd (s : State) (p : Nat) : State × Answer :=
  match (s.pt p).recover, (s.pt p).stopped with
  | some rc, some j =>
    if s.rg (Obj.RECOVERY_STATE p) ≠ rsReady || s.edgeOf p (s.rg (Obj.RESUME_TICK p)) < s.now + 1000000000 then (s, .of stState)
    else
      let stitch := SMap.getD [] (s.pt p).stitch j
      let code := s.resumeCode (s.jobOffer p j stitch)
      let s := (s.setRg (Obj.RECOVER_RESULT p) code).setJobF p j Job.refusal code
      if code ≠ 0 then (s, .ok)
      else ((s.modPt p (fun x => { x with recover := some { rc with resume := some (s.rg (Obj.RESUME_TICK p)) } })).pinJob p j (s.blockOf p j) stitch, .ok)
  | _, _ => (s, .of stState)

/-- RESUME (R436). -/
def execResume (sess : Nat) (p : PartId) (s : State) : Out := s.command sess (Obj.RECOVER_COMMAND p) 2 (fun s => (s.resumeCmd p).1)

/-- RECOVER_COMMAND 0x03: the stopped job ends at the next edge, as a stop does (R82). -/
def State.abandonCmd (s : State) (p : Nat) : State × Answer :=
  match (s.pt p).stopped with
  | none => (s, .of stState)
  | some _ => (s.modPt p (fun x => { x with abandonAtEdge := true }), .ok)

/-- ABANDON (R408). -/
def execAbandon (sess : Nat) (p : PartId) (s : State) : Out := s.command sess (Obj.RECOVER_COMMAND p) 3 (fun s => (s.abandonCmd p).1)

end Sys2Proof.Machine
end

