-- ==== Sys2Proof/Machine/Time.lean ====
section
/-!
DEFINITION. The time unit (10_fabric_and_ethernet.md R375 to R378; 02_tick_and_schedule.md R37; 16_electrical_mechanical.md R522):
the boundary clock, SyncE, TIME_STATE, and the PPS pins.
-/

namespace Sys2Proof.Machine
open Sys2Proof

/-! TIME_STATE and SYNCE_STATE values. -/
abbrev tsFree : Nat := 0
abbrev tsAcquiring : Nat := 1
abbrev tsLocked : Nat := 2
abbrev tsHoldoverSynce : Nat := 3
abbrev tsHoldover : Nat := 4
abbrev tsExpired : Nat := 5
abbrev syFree : Nat := 0
abbrev syLocked : Nat := 1
abbrev syHoldover : Nat := 2

/-- TIME_STATE set; TIME fails for every slice in progress where it becomes a state in which the condition fails (R44, R377). -/
def State.setTime (s : State) (v : Nat) : State :=
  let s := s.setRg Obj.TIME_STATE v
  if s.timeBad then (List.range 12).foldl (fun t p => t.fails p cfTime) s else s

/-- The present holdover begins: HOLDOVER_SYNCE while SyncE is locked, else HOLDOVER (R377). -/
def State.enterHoldover (s : State) : State :=
  { s with holdFrom := s.now, goodSyncs := 0, badSyncs := 0 }.setTime (if s.rg Obj.SYNCE_STATE = syLocked then tsHoldoverSynce else tsHoldover)

/-- Whether a port runs PTP (R375). -/
def State.runsPtp (s : State) (port : Nat) : Bool := if port < 64 then (s.rg Obj.PTP_PORTS).testBit port else s.rg Obj.PTP_HOST == 1

/-- A Sync interval with its offset (R377). -/
def State.syncOffset (s : State) (off : Int) : State :=
  let s := s.setRg Obj.OFFSET_NS (unsigned 32 off)
  let good := if off.natAbs ≤ 8 && s.rg Obj.SYNCE_STATE = syLocked then s.goodSyncs + 1 else 0
  let bad := if off.natAbs > 20 then s.badSyncs + 1 else 0
  let s := { s with goodSyncs := good, badSyncs := bad }
  if s.rg Obj.TIME_STATE = tsLocked then (if bad ≥ 8 then s.enterHoldover else s)
  else if good ≥ 64 then { s with badSyncs := 0 }.setTime tsLocked else s

/-- PTP_MESSAGE (R375, R377). -/
def execPtpMessage (port : PortId) (at_ : Nat) (m : PtpMsg) (s : State) : Out :=
  takes (s.linkIsUp port && s.runsPtp port) s (fun s =>
    let s := (s.portTime port at_).received port
    match m with
    | .announce slave =>
      let s := s.setRg Obj.SLAVE_PORT slave
      let s := if slave = port.val then { s with announceAt := s.now } else s
      if slave ≠ 0xFF && s.rg Obj.TIME_STATE = tsFree then s.setTime tsAcquiring else s
    | .sync off => if s.rg Obj.SLAVE_PORT = port.val then s.syncOffset off else s
    | .peerDelay ns => if port.val < 64 then s.setRg (Obj.PATH_DELAY_NS port) ns else s
    | .delayRequest => s.send port 3 0 smallWire (.ptp port 3)
    | .general => s)

/-- ANNOUNCE_TIMEOUT (R375, R377): the slave port has received no Announce for 3 intervals of 1 s. TIME_STATE leaves LOCKED; the
selection then gives slave port `slave` (0xFF none). -/
def execAnnounceTimeout (at_ slave : Nat) (s : State) : Out :=
  takes (s.rg Obj.SLAVE_PORT != 0xFF && s.announceAt + 3 * 10 ^ 9 ≤ at_) s (fun s =>
    let s := (s.at at_).setRg Obj.SLAVE_PORT slave
    let s := { s with announceAt := s.now }
    if s.rg Obj.TIME_STATE = tsLocked then s.enterHoldover else s)

/-- The time for which a holdover state keeps the bound of R37, in ns. -/
def holdoverLimit (st : Nat) : Nat := if st = tsHoldoverSynce then 60 * 10 ^ 9 else 10 ^ 9

/-- HOLDOVER_EXPIRE (R37, R377). -/
def execHoldoverExpire (at_ : Nat) (s : State) : Out :=
  let st := s.rg Obj.TIME_STATE
  takes ((st == tsHoldoverSynce || st == tsHoldover) && s.holdFrom + holdoverLimit st ≤ at_) s (fun s => (s.at at_).setTime tsExpired)

/-- SYNCE_LOSS (R376): the oscillator holds its last frequency; with PTP lost already, the limit of R37 is now that of both lost. -/
def execSynceLoss (at_ : Nat) (s : State) : Out :=
  takes (s.rg Obj.SYNCE_STATE == syLocked) s (fun s =>
    let s := { s.at at_ with goodSyncs := 0 }.setRg Obj.SYNCE_STATE syHoldover
    if s.rg Obj.TIME_STATE = tsHoldoverSynce then { s with holdFrom := s.now }.setTime tsHoldover else s)

/-- SYNCE_LOCKED (R376): SyncE locks to the frequency of the slave port; a holdover goes on as HOLDOVER_SYNCE. -/
def execSynceLocked (at_ : Nat) (s : State) : Out :=
  takes (s.rg Obj.SYNCE_STATE != syLocked && s.rg Obj.SLAVE_PORT != 0xFF) s (fun s =>
    let s := (s.at at_).setRg Obj.SYNCE_STATE syLocked
    if s.rg Obj.TIME_STATE = tsHoldover then s.setTime tsHoldoverSynce else s)

/-- SYNC_INTERVAL (R375): the messages due at an interval: 0 Sync and 1 Announce on the master ports, 2 a peer delay request on every
port that runs PTP. -/
def execSyncInterval (kind : Nat) (s : State) : Out :=
  takes (kind < 3) s (fun s =>
    ((List.range 65).filter (fun q => s.runsPtp q && s.linkIsUp q && (kind == 2 || q != s.rg Obj.SLAVE_PORT))).foldl
      (fun t q => t.send q (if kind = 1 then 5 else 3) 0 smallWire (.ptp q kind)) s)

/-- PPS_OUT (R378, R522): at a PTP second while LOCKED, the pin is high for 100 ms. -/
def execPpsOut (second : Nat) (s : State) : Out :=
  takes (s.rg Obj.TIME_STATE == tsLocked && s.now ≤ second * 10 ^ 9) s (fun s =>
    let s := s.at (second * 10 ^ 9)
    { s.emit .pps with ppsHigh := s.now + 10 ^ 8 })

/-- PPS_IN (R378, R522): a rising edge whose pulse lasts `width` ns; its offset from the nearest PTP second is reported. -/
def execPpsIn (at_ width : Nat) (s : State) : Out :=
  takes (width ≥ 1000) s (fun s =>
    let r : Nat := at_ % (10 ^ 9 : Nat)
    let off : Int := if r ≤ 5 * 10 ^ 8 then (r : Int) else (r : Int) - 10 ^ 9
    (s.at at_).setRg Obj.PPS_IN_OFFSET_NS (unsigned 32 off))

/-! ## Configuration -/

/-- Whether a partition has a job of more than one module accepted or ticking. -/
def State.multiModule (s : State) (p : Nat) : Bool :=
  (s.pt p).jobs.any (fun kv => (Job.state.get kv.2 == jsAccepted || Job.state.get kv.2 == jsTicking) && s.blkJobModules (s.blockOf p kv.1) > 1)

/-- A write of 0x1400:01 to 05: a change restarts the best master clock selection. -/
def State.timeConfig (s : State) (sub v : Nat) : State × Answer :=
  let key := okey 0x1400 sub
  if sub = 0 || sub > 5 then (s, .of stAccess)
  else if (sub = 1 && v > 127) || (sub = 5 && v > 1) then (s, .of stRange)
  else if s.rg key = v then (s, .ok)
  else if (List.range 12).any s.multiModule then (s, .of stState)
  else ({ (s.setRg key v).setRg Obj.SLAVE_PORT 0xFF with goodSyncs := 0, badSyncs := 0 }.setTime tsAcquiring, .ok)

/-- TIME_CONFIG_WRITE (R375). -/
def execTimeConfigWrite (sess sub val : Nat) (s : State) : Out := s.command sess (okey 0x1400 sub) val (fun s => (s.timeConfig sub val).1)

end Sys2Proof.Machine
end

