-- ==== Sys2Proof/Machine/Dictionary.lean ====
section
/-!
DEFINITION. Reading the object dictionary (13_management.md R454; the object tables of every chapter): the value of every object,
and what a WRITE's value must meet by its own type and range.
-/

namespace Sys2Proof.Machine
open Sys2Proof

/-! ## Families of objects -/

/-- The object of a family's first copy at the same subindex, as index × 256 + subindex. -/
def objBase (key : Nat) : Nat :=
  match objRow key with
  | some r => r.index * 256 + key % 256
  | none => key

/-- Which copy of its family an object belongs to. -/
def objCopy (key : Nat) : Nat :=
  match objRow key with
  | some r => if r.step = 0 then 0 else (key / 256 - r.index) / r.step
  | none => 0

/-! ## Derived values -/

/-- The partition whose view a session's counter window reads (R489). -/
def State.winPart (s : State) (id : Nat) : Nat :=
  match s.session id with
  | some x => if x.role == roleAdmin then x.win Obj.WIN_PARTITION else x.part
  | none => 0

/-- Whether the counter window names an engine of its partition, or a shared block seen from it. -/
def State.winEngine (s : State) (id : Nat) : Bool :=
  match (s.pt (s.winPart id)).built with
  | some r => r.engines.contains (s.win id Obj.WIN_KIND, s.win id Obj.WIN_NUMBER)
  | none => false

/-- The 128 B record of the window: of the open bank up to now, or of the running totals up to the last switch. A live read in the
cycle of a switch returns the bank that closes, with BANK_SWITCHED (R486). -/
def State.winRecord (s : State) (id : Nat) (live : Bool) : List Byte :=
  let p := s.winPart id
  let x := s.pt p
  if live then
    if s.now = x.switchGrain * 10000 && x.switchGrain ≠ x.buildGrain then
      ctrRecord s.closed p (s.win id Obj.WIN_KIND) (s.win id Obj.WIN_NUMBER) (grainCycles (x.switchGrain - x.lastSwitch)) true
    else ctrRecord s.countWithheld.open_ p (s.win id Obj.WIN_KIND) (s.win id Obj.WIN_NUMBER) ((s.now - x.switchGrain * 10000) * 19 / 10) false
  else ctrRecord s.totals p (s.win id Obj.WIN_KIND) (s.win id Obj.WIN_NUMBER) (grainCycles (x.switchGrain - x.buildGrain)) false

/-- The cluster of a session's trace window. -/
def State.traceWin (s : State) (id : Nat) : Nat := s.win id Obj.TRACE_CLUSTER

/-- Whether a session may read the trace buffer of its TRACE_CLUSTER: one of its partition's, or any for an admin. -/
def State.traceMine (s : State) (id : Nat) : Bool :=
  match s.session id with
  | some x => s.traceWin id < 48 && (x.role == roleAdmin || s.ownerOfCluster (s.traceWin id) == some x.part)
  | none => false

/-- The 262,144 B of a trace buffer. -/
def traceBytes (b : TraceBuf) : List Byte := (List.range 16384).flatMap (fun i => leBytes 16 (SMap.getD 0 b.recs i).toNat)

/-- The image of the last snapshot (R485, R488); empty while there is none. -/
def State.snapshotImage (s : State) (p : Nat) : List Byte :=
  let x := s.pt p
  if s.rg (Obj.SNAPSHOT_STATE p) ≠ 2 then []
  else
    let job := match x.cursor with
      | some c => Job.job.get (x.job c.1)
      | none => 0
    s.counterImage p x.snapBank x.snapSpan x.snapTick (if x.cursor.isSome then 3 else 1) job

/-- BATCH_BOUND: bit 8 b + k while batch b is bound to copy slot k. -/
def State.batchBound (s : State) (p : Nat) : Nat := (s.pt p).batches.foldl (fun m kv => setBit m (8 * kv.1 + kv.2.slot)) 0

/-- The dump request that a session's DUMP_INDEX names. -/
def State.dumpWin (s : State) (id p : Nat) : Dump := SMap.getD Dump.idle (s.pt p).dumps (s.win id (Obj.DUMP_INDEX p))

/-- MY_ROLE: the role and, in [7:4], the partition. -/
def State.myRole (s : State) (id : Nat) : Nat :=
  match s.session id with
  | some x => x.role + 16 * x.part
  | none => 0

/-! ## Numbers -/

/-- The value of a number object as a session reads it: derived where the object reports what the state holds elsewhere, else the
register or the session's window. -/
def State.readNum (s : State) (id key : Nat) : Nat :=
  let n := objCopy key
  let sub := key % 256
  match objBase key with
  | 0x100002 => Config.refstoreBytes
  | 0x100005 => Config.baseMac.toNat
  | 0x110002 => (s.sessions.filter (·.open_)).length
  | 0x110101 => id
  | 0x110102 => s.myRole id
  | 0x14000A => if s.rg Obj.TIME_STATE = tsHoldover || s.rg Obj.TIME_STATE = tsHoldoverSynce || s.rg Obj.TIME_STATE = tsExpired
      then (s.now - s.holdFrom) / 1000000 else 0
  | 0x14000B => s.grain
  | 0x230003 => ((List.range 1024).filter s.coefEnabled).length
  | 0x400009 => (Config.portMac n).toNat
  | 0x440004 => Config.hostMac.toNat
  | 0x441004 => (s.qp (s.win id Obj.QP_INDEX)).state
  | 0x441104 => match SMap.get? s.regions (s.win id Obj.REGION_INDEX) with
      | some r => r.rkey
      | none => 0
  | 0x580305 => s.batchBound (s.win id Obj.COPY_PARTITION)
  | 0x601009 => s.imageBytesOf n
  | 0x704003 => (s.cl (s.traceWin id)).trace.wp
  | 0x704004 => (s.cl (s.traceWin id)).trace.trig.getD 0xFFFF
  | 0x704005 => (s.cl (s.traceWin id)).trace.overflow
  | 0x710004 => (s.dumpWin id n).state
  | 0x710005 => (s.dumpWin id n).result
  | 0x710006 => (s.dumpWin id n).count
  | 0x78100D => s.pressBound n
  | 0x78100E => s.drainLeft n
  | 0x904006 => match s.refLoad with
      | some l => l.next
      | none => 0
  | 0x904007 => s.refFree
  | _ =>
    if key / 256 = 0x9001 && 9 ≤ sub && sub ≤ 0x10 then s.copySv (sub - 9)
    else match objRow key with
      | some r => if r.window then s.win id key else s.rg key
      | none => 0

/-! ## Byte objects -/

/-- The stated length of a DOMAIN object that always has the same length. -/
def fixedLength (key : Nat) : Option Nat :=
  match objBase key with
  | 0x230002 => some 64
  | 0x202002 => some 16
  | 0x202401 => some 512
  | 0x40000A => some 16
  | 0x440005 => some 16
  | 0x480004 => some 128
  | 0x441002 => some 64
  | 0x441102 => some 32
  | 0x300006 => some 22
  | 0x710002 => some 64
  | 0x800201 => some 64
  | _ => none

/-- The value of a STR or DOMAIN object as a session reads it. -/
def State.readBytes (s : State) (id key : Nat) : List Byte :=
  let n := objCopy key
  let sub := key % 256
  let own := fun (k : Nat) (d : List Byte) => let w := s.winDom id k; if w.isEmpty then d else w
  match objBase key with
  | 0x100001 => Config.orderingCode
  | 0x100003 => Config.serial
  | 0x230002 => s.memBytes (s.coefAddr (s.win id Obj.WINDOW_ROW)) 64
  | 0x202002 => leBytes 16 (s.filterE n (s.win id (Obj.FILTER_INDEX n))).toNat
  | 0x441002 => own key (leBytes 64 (s.qp (s.win id Obj.QP_INDEX)).entry.toNat)
  | 0x441102 => own key (match SMap.get? s.regions (s.win id Obj.REGION_INDEX) with
      | some r => leBytes 32 r.entry.toNat
      | none => List.replicate 32 0)
  | 0x601006 => s.snapshotImage n
  | 0x640004 => s.winRecord id true
  | 0x640005 => s.winRecord id false
  | 0x704002 => traceBytes (s.cl (s.traceWin id)).trace
  | 0x710002 => own key (leBytes 64 (s.dumpWin id n).req.toNat)
  | 0x800001 => Config.identityPublic
  | 0x800002 => Config.identityCert
  | 0x800003 => sha512 Config.identityPublic
  | 0x800004 => Config.romKeyHash
  | _ =>
    if key / 256 = 0x9001 then s.copyMeasure (sub - 1)
    else
      let v := match objRow key with
        | some r => if r.window then s.winDom id key else s.dom key
        | none => []
      match fixedLength key with
      | some len => padTo len v
      | none => v

/-! ## The rights of a window read (R489) -/

/-- Whether the window of an object names something that the session may see. -/
def State.windowOpen (s : State) (id key : Nat) : Bool :=
  match objBase key with
  | 0x640004 => s.winEngine id
  | 0x640005 => s.winEngine id
  | 0x704002 => s.traceMine id
  | 0x704003 => s.traceMine id
  | 0x704004 => s.traceMine id
  | 0x704005 => s.traceMine id
  | 0x580305 => s.actsFor id (s.win id Obj.COPY_PARTITION)
  | _ => true

/-- An object as bytes, or the status that refuses the read (R454, R459): subindex 0 reads the highest subindex of its index. -/
def State.readObj (s : State) (id key : Nat) : Nat × List Byte :=
  match objRow key with
  | none =>
    match objHighest (key / 256) with
    | some n => if key % 256 ≠ 0 then (stNoObject, []) else if s.mayRead id key then (stOk, leBytes 1 n) else (stRights, [])
    | none => (stNoObject, [])
  | some r =>
    if r.acc = .wo then (stAccess, [])
    else if !s.mayRead id key || !s.windowOpen id key then (stRights, [])
    else match r.ty.size with
      | some n => (stOk, leBytes n (s.readNum id key))
      | none => (stOk, s.readBytes id key)

/-! ## What a number must meet (R9, R34, R47, R145, R337, R352, R379) -/

/-- The bits of a number object that are reserved. -/
def reservedBits (key : Nat) : Nat :=
  match objRow key with
  | none => 0
  | some r =>
    if r.ty = .addr then 0xFFFF_0000_0000_0000
    else match objBase key with
      | 0x300002 => 0xFFFF_0000_0000_0000
      | 0x300003 => 0xFFFF_0000_0000_0000
      | 0x300103 => 0xE0
      | 0x700003 => 0xE0
      | k => if k / 256 = 0x2103 && 7 ≤ k % 256 then 0xFC else 0

/-- Whether a group address is none: bit 40 clear, or a bit of [63:48] set. -/
def groupBad (v : Nat) : Bool := !v.testBit 40 || v ≥ 2 ^ 48

/-- Whether a value lies outside what the text of its object states. -/
def State.textRange (s : State) (key v : Nat) : Bool :=
  match objBase key with
  | 0x200001 => v != 0xA5A5
  | 0x201001 => v < 0x0600 || [0x0800, 0x0806, 0x86DD, 0x8100, 0x8808, 0x8809, 0x88A8, 0x88CC, 0x88F7].contains v
  | 0x201002 => [0, 319, 320, 4791, 48620].contains v
  | 0x201005 => !([0, 2, 3, 5, 9, 17, 33, 65].contains v)
  | 0x201006 => v ≥ s.rg Obj.MESH_SIZE
  | 0x201007 => groupBad v
  | 0x201008 => groupBad v
  | 0x300A02 => v < 1 || v > 256
  | 0x300A05 => v < 1024 || v > 16777216 || v % 1024 != 0
  | 0x300A0A => v < 2 || v > 1048575
  | 0x300008 => v < 1 || v > 4
  | 0x300202 => v < 1 || v > 3
  | 0x300402 => s.rg (Obj.CLOSE_GUARD_NS (objCopy key)) + 20000 > v * 10000
  | 0x300403 => v + 20000 > s.rg (Obj.TICK_GRAINS (objCopy key)) * 10000
  | 0x400001 => v > 1
  | 0x400002 => v > 2
  | 0x400007 => v > 1
  | 0x400008 => v != 1
  | 0x440001 => v > 1
  | 0x440002 => v > 2
  | 0x440006 => v > 2
  | 0x441003 => v < 1 || v > 2
  | 0x441103 => v < 1 || v > 2
  | 0x224102 => v < 1 || v > 2
  | 0x480002 => v < 1 || v > 3
  | 0x580002 => v < 1 || v > 3
  | 0x580103 => v < 1 || v > 2
  | 0x580202 => v < 1 || v > 2
  | 0x580302 => v < 1 || v > 2
  | 0x601002 => v > 1
  | 0x601004 => v != 1
  | 0x700002 => v > 4
  | 0x700005 => v > 5
  | 0x700007 => v > 1
  | 0x700009 => v < 1 || v > 2
  | 0x710003 => v < 1 || v > 2
  | 0x781006 => v % 65536 != 0
  | 0x782006 => v > 2
  | 0x78200B => v < 1 || v > 3
  | 0x900001 => v < 1 || v > 4
  | 0x900003 => v != 1
  | 0x902002 => v != 1
  | 0x904004 => v < 1 || v > 3
  | k => k / 256 == 0x2101 && !positiveNormal v

/-- The status that refuses a number by its type and range; stOk where none does. -/
def State.numberBad (s : State) (r : ObjRow) (key v : Nat) : Nat :=
  match r.ty.size with
  | none => stLength
  | some n =>
    if v ≥ 2 ^ (8 * n) then stLength
    else if (r.ty = .bool && v > 1) || v < r.rlo || (match r.rhi with
        | some h => decide (v > h)
        | none => false) || s.textRange key v then stRange
    else if v &&& reservedBits key ≠ 0 then stReserved
    else stOk

end Sys2Proof.Machine
end

