-- ==== Sys2Proof/Machine/Writes.lean ====
section
/-!
DEFINITION. Writing the object dictionary (13_management.md R452, R457 to R462; R9, R34, R35, R47, R145, R337, R352, R375, R379, R415,
R425, R426, R488, R507, R543), and the commands REGISTER_WRITE, TICK_GRAINS_WRITE, CLOSE_GUARD_NS_WRITE, FACTORY_RESET and
WINDOW_DATA_WRITE.
-/

namespace Sys2Proof.Machine
open Sys2Proof

/-! ## When an object refuses writes -/

/-- Whether a partition has a job in one of the states given. -/
def State.jobIn (s : State) (p : Nat) (states : List Nat) : Bool := (s.pt p).jobs.any (fun kv => states.contains (Job.state.get kv.2))

/-- Whether a job of a partition is accepted or ticking. -/
def State.jobLive (s : State) (p : Nat) : Bool := s.jobIn p [jsAccepted, jsTicking]
/-- Whether a job of a partition is accepted, ticking or stopped. -/
def State.jobHeld (s : State) (p : Nat) : Bool := s.jobIn p [jsAccepted, jsTicking, jsStopped]

/-- Whether every partition is FREE. -/
def State.allFree (s : State) : Bool := (List.range 12).all (fun p => (s.pt p).built.isNone)

/-- Whether an object refuses a write in the present state of the module or partition. -/
def State.stateBad (s : State) (key v : Nat) : Bool :=
  let n := objCopy key
  let b := objBase key
  let ix := b / 256
  (match objRow key, indexPart (key / 256) with
    | some r, some p => r.acc == .rws && (s.rg (Obj.PART_STATE p) == psActive || s.rg (Obj.PART_STATE p) == psHalted)
    | _, _ => false)
  || (ix == 0x300A && s.genBusy n)
  || (ix == 0x2010 && (List.range 12).any s.jobLive)
  || ((b == 0x400001 || b == 0x400002) && (match s.ownerOfPort n with
    | some p => s.jobLive p
    | none => false))
  || (0x700001 ≤ b && b ≤ 0x700008 && s.rg (Obj.TRACE_STATE n) == 1)
  || (b == 0x601002 && v == 1 && s.rg (Obj.COUNTER_ENTRY n) == noEntry)
  || (((ix == 0x5000 && b % 256 ≤ 6) || b == 0x200001) && !s.allFree)
  || ([0x781001, 0x781002, 0x781003, 0x781004, 0x781010].contains b && s.jobHeld n)
  || (b == 0x780001 && (List.range 12).any s.jobHeld)

/-- Whether a session may not write this value: a partition that is not its own (R460, R489). -/
def State.valueRights (s : State) (id key v : Nat) : Bool :=
  match objBase key with
  | 0x580301 => !s.actsFor id v
  | 0x640003 => !s.actsFor id v
  | _ => false

/-! ## Table bases (R462) -/

/-- Bytes of the in-memory table of base `i`. -/
def tableBytes (i : Nat) : Nat := [16777216, 524288, 1048576, 4194304, 2097152, 65536].getD i 0

/-- Whether base `i` may be written with an address. -/
def State.baseFits (s : State) (i a : Nat) : Bool :=
  a % 65536 == 0 && a / 2 ^ 32 < 48 && a + tableBytes i ≤ gddrBase (a / 2 ^ 32 + 1)
    && ((List.range 6).filter (fun j => j != i && s.tableSet j)).all (fun j => !overlaps a (tableBytes i) (s.rg (okey 0x5000 (j + 1))) (tableBytes j))
    && ((List.range 12).filter (fun p => (s.pt p).built.isSome)).all (fun p => !overlaps a (tableBytes i) (s.rg (Obj.JOB_TABLE_BASE p)) 32768)

/-- A base written (R462): the device that holds the table leaves self-refresh (R463), and the device of the table's former place goes back
to it where it belongs to no partition (R267). -/
def State.writeBase (s : State) (i a : Nat) : State × Answer :=
  if s.baseFits i a then
    let old := s.rg (okey 0x5000 (i + 1)) / 2 ^ 32
    let moved := s.tableSet i && (s.ownerOfDevice old).isNone
    let s := (s.setRg (okey 0x5000 (i + 1)) a).setRg Obj.TABLES_SET (setBit (s.rg Obj.TABLES_SET) i)
    let s := if moved then s.sleepDevices (setBit 0 old) else s
    (s.wakeDevices (setBit 0 (a / 2 ^ 32)), .ok)
  else (s, .of stRange)

/-! ## The tick generator (R34, R35) -/

/-- An accepted write of TICK_EPOCH_GRAIN or TICK_GRAINS. -/
def State.writeTick (s : State) (p key v : Nat) : State :=
  (s.setRg key v).modPt p (fun x => if x.gen.on then { x with gen := { x.gen with
    stopping := x.gen.stopping || x.gen.begun, writeGrain := s.grain } } else x)

/-! ## Partners (R425, R426) -/

/-- Whether SELF_MODULE, HOLDER_MODULE and MIRROR_OF may stand together. -/
def partnersBad (self holder mirror : Nat) : Bool :=
  [self, holder, mirror].any (fun m => m > 63 && m != 0xFF)
    || (self != 0xFF && (holder == self || mirror == self)) || (self == 0xFF && (holder != 0xFF || mirror != 0xFF))

/-- CO_FED follows the pairing: it stands on the module's own feed and is overridden. -/
def State.updateCoFed (s : State) (p : Nat) : State :=
  s.setRg (Obj.CO_FED p) (if s.rg (Obj.FEED_OVERRIDE p) = 1 && s.rg (Obj.HOLDER_FEED p) = s.rg Obj.FEED_TAG
    && s.rg (Obj.HOLDER_MODULE p) ≠ 0xFF then 1 else 0)

def State.writePartner (s : State) (p key v : Nat) : State × Answer :=
  let t := s.setRg key v
  if partnersBad (t.rg (Obj.SELF_MODULE p)) (t.rg (Obj.HOLDER_MODULE p)) (t.rg (Obj.MIRROR_OF p)) then (s, ⟨stRefused, 0x60⟩)
  else (t.updateCoFed p, .ok)

def State.writeHolderFeed (s : State) (p v : Nat) : State × Answer :=
  if v = s.rg Obj.FEED_TAG && s.rg (Obj.FEED_OVERRIDE p) = 0 then (s, ⟨stRefused, 0x61⟩)
  else ((s.setRg (Obj.HOLDER_FEED p) v).updateCoFed p, .ok)

/-! ## Factory reset (R458) -/

/-- RWP objects at their defaults, the key lists and the pairing of filters among them; ports that were disabled train again, and
every port renegotiates its wake time (R344); the devices that held the tables belong to no partition, and go to self-refresh (R267). -/
def State.factoryDefaults (s : State) : State :=
  let rwp := fun (k : Nat) => match objRow k with
    | some r => r.acc == .rwp
    | none => false
  let off := (List.range 64).filter (fun q => s.rg (Obj.ADMIN q) == 0)
  let host := s.rg Obj.HOST_ADMIN == 0
  let tables := ((List.range 48).filter s.holdsTable).foldl setBit 0
  let s := (s.writePublisherKeys []).1
  let s := { s with regs := s.regs.filter (fun kv => !rwp kv.1), doms := s.doms.filter (fun kv => !rwp kv.1), filters := [] }
  let s := (s.setRg Obj.TABLES_SET 0).sleepDevices tables
  let s := off.foldl (fun t q => t.adminWritten q 1) s
  let s := if host then s.adminWritten hostPort 1 else s
  let s := (List.range 65).foldl State.negotiateLpi s
  (List.range 12).foldl State.updateCoFed s

/-- FACTORY_RESET (R458); the identity key is kept. -/
def State.factoryReset (s : State) : State := s.factoryDefaults.restartMilliner

/-! ## The Coefficient Table window (R239, R543) -/

/-- The refusal code of a row offered for enable: reserved bits, then the table's codes. -/
def coefCode (e : CoefRow) : Nat :=
  let f := fun (x : Fld) => x.get e
  let nums := [Cf.beta1, Cf.c1, Cf.beta2, Cf.c2, Cf.k1, Cf.k2, Cf.k3, Cf.eps, Cf.lambda].map f
  let nonzero := fun (v : Nat) => v % 2 ^ 31 != 0
  firstCode [
    (f Cf.rsv0 != 0 || f Cf.rsv1 != 0 || f Cf.rsv2 != 0, 0x01),
    (nums.any (fun v => v / 2 ^ 23 % 256 == 255), 0x50),
    (!positiveNormal (f Cf.eps), 0x51),
    ([f Cf.beta2, f Cf.c2, f Cf.k3].any (fun v => v ≥ 2 ^ 31 && nonzero v), 0x52),
    ((f Cf.useS1 == 0 && [f Cf.beta1, f Cf.c1, f Cf.k1].any nonzero) || (f Cf.useS2 == 0 && [f Cf.beta2, f Cf.c2, f Cf.k3].any nonzero), 0x53),
    (12 ≤ f Cf.owner && f Cf.owner ≤ 14, 0x54)]

/-- A WRITE of WINDOW_DATA on the session's WINDOW_ROW. -/
def State.writeCoef (s : State) (id : Nat) (data : List Byte) : State × Answer :=
  let r := s.win id Obj.WINDOW_ROW
  let e : CoefRow := BitVec.ofNat 512 (leNat data)
  let old := s.coefRow r
  let put := fun (x : CoefRow) => s.store (s.coefAddr r) (goodBytes (leBytes 64 x.toNat))
  let owned := match s.session id with
    | some x => x.role == roleAdmin || Cf.owner.get e == x.part
    | none => false
  if data.length ≠ 64 then (s, .of stLength)
  else if !owned then (s, .of stRights)
  else if !s.tableSet 5 then (s, .ok)
  else if Cf.enable.get old = 0 then
    if Cf.enable.get e = 0 then (put (Cf.refusal.set e 0), .ok)
    else
      let code := coefCode e
      (put (Cf.enable.set (Cf.refusal.set e code) (if code = 0 then 1 else 0)), .ok)
  else if Cf.enable.get e = 0 && Cf.refusal.set (Cf.enable.set e 0) 0 = Cf.refusal.set (Cf.enable.set old 0) 0 then (put (Cf.enable.set old 0), .ok)
  else (s, .of stState)

/-- WINDOW_DATA_WRITE (R543). -/
def execWindowDataWrite (sess : Nat) (data : List Byte) (s : State) : Out :=
  s.command sess Obj.WINDOW_DATA 0 (fun s => (s.writeCoef sess data).1)

/-! ## Numbers -/

/-- A register or window object that holds what is written. -/
def State.keepNum (s : State) (id key v : Nat) : State :=
  match objRow key with
  | some r => if r.window then s.setWin id key v else s.setRg key v
  | none => s

/-- RECOVER_COMMAND. -/
def State.recoverWrite (s : State) (p v : Nat) (f : RecoverFacts) : State × Answer :=
  if v = 1 then s.recoverCmd p f else if v = 2 then s.resumeCmd p else s.abandonCmd p

/-- What an accepted number does: a command runs, an object with behaviour of its own takes it, and any other object holds it. -/
def State.applyNum (s : State) (id key v : Nat) (f : RecoverFacts) : State × Answer :=
  let n := objCopy key
  let held := s.keepNum id key v
  let pick := fun (l : List (State × Answer)) => (l[v - 1]?).getD (s, .of stRange)
  match objBase key with
  | 0x200001 => (s.factoryReset, .ok)
  | 0x220301 => s.retrain v
  | 0x221003 => s.cxlRemove n v
  | 0x224102 => pick [(s.resEnable id, .ok), s.resDisable id]
  | 0x300401 => (s.writeTick n key v, .ok)
  | 0x300402 => (s.writeTick n key v, .ok)
  | 0x400001 => (held.adminWritten n v, .ok)
  | 0x400008 => s.adapt n v
  | 0x400002 => (held.negotiateLpi n, .ok)
  | 0x40000B => (held.negotiateLpi n, .ok)
  | 0x40000C => (held.negotiateLpi n, .ok)
  | 0x440001 => (held.adminWritten hostPort v, .ok)
  | 0x440002 => (held.negotiateLpi hostPort, .ok)
  | 0x440009 => (held.negotiateLpi hostPort, .ok)
  | 0x480002 => pick [(s.streamEnable id, .ok), (s.streamDisable id, .ok), s.streamReplace id]
  | 0x441003 => pick [(s.qpConnect id, .ok), (s.qpReset id, .ok)]
  | 0x441103 => pick [(s.regionEnable id, .ok), (s.regionDisable id, .ok)]
  | 0x580002 => pick [(s.slotEnable id, .ok), (s.slotDisable id, .ok), (s.slotCancel id, .ok)]
  | 0x580103 => pick [(s.pageSpan id (fun t i => t.pageOffer id i), .ok), (s.pageSpan id (fun t i => t.pageDrop id i), .ok)]
  | 0x580202 => pick [(s.prefixEnable id, .ok), (s.prefixDisable id, .ok)]
  | 0x580302 => (s.copyCommand id v, .ok)
  | 0x780001 => ((List.range 12).foldl State.updateCoFed held, .ok)
  | 0x781001 => s.writePartner n key v
  | 0x781002 => s.writePartner n key v
  | 0x781003 => s.writeHolderFeed n v
  | 0x781004 => (held.updateCoFed n, .ok)
  | 0x781008 => s.pressArm n v
  | 0x781010 => s.writePartner n key v
  | 0x78200B => s.recoverWrite n v f
  | 0x300008 => pick [s.partBuild n, s.partRebuild n, s.partDissolve n, s.partStop n]
  | 0x300202 => pick [s.jobEnable id n, s.jobDisable id n, s.jobCancel id n]
  | 0x601001 => if v = noEntry || s.counterFits n v then (held, .ok) else (s, .of stRange)
  | 0x601004 => s.snapshot n
  | 0x700009 => pick [s.traceArm n, s.traceStop n]
  | 0x710003 => pick [s.dumpArm id n, s.dumpCancel id n]
  | 0x900003 => s.fwProgram id
  | 0x902002 => s.activate id
  | 0x904004 => pick [s.refLoadCmd id, s.refAbort id, s.refEraseCmd id]
  | b =>
    if b / 256 = 0x1400 && b % 256 ≤ 5 then s.timeConfig (b % 256) v
    else if b / 256 = 0x5000 then s.writeBase (b % 256 - 1) v
    else (held, .ok)

/-- A WRITE of a number, with the first status that applies: NO_OBJECT, ACCESS, RIGHTS, LENGTH, RANGE, RESERVED_BIT, STATE, then
what the object's own rules say. -/
def State.writeNum (s : State) (id key v : Nat) (f : RecoverFacts) : State × Answer :=
  match objRow key with
  | none => (s, .of (if (objHighest (key / 256)).isSome && key % 256 = 0 then stAccess else stNoObject))
  | some r =>
    if r.acc = .ro then (s, .of stAccess)
    else if !s.mayWrite id key v || s.valueRights id key v then (s, .of stRights)
    else if s.numberBad r key v ≠ stOk then (s, .of (s.numberBad r key v))
    else if s.stateBad key v then (s, .of stState)
    else s.applyNum id key v f

/-! ## Byte objects -/

/-- The sessions opened with a key that has left its list close at once (R450). -/
def State.closeKeys (s : State) (role part : Nat) (gone : List (List Byte)) : State :=
  { s with sessions := s.sessions.filter (fun x => !(x.role == role && (role == roleAdmin || x.part == part) && gone.contains x.keyHash)) }

/-- A WRITE of a list of at most `limit` key hashes. -/
def State.writeKeys (s : State) (key role part limit : Nat) (data : List Byte) : State × Answer :=
  if data.length % 64 ≠ 0 || data.length > 64 * limit then (s, .of stLength)
  else
    let ks := keyList data
    let gone := (keyList (s.dom key)).filter (fun k => !ks.contains k)
    ((s.setDom key data).closeKeys role part gone, .ok)

/-- A WRITE of FILTER_DATA on the session's FILTER_INDEX of quarter `q` (R348). -/
def State.writeFilter (s : State) (id q : Nat) (data : List Byte) : State × Answer :=
  let e : BitVec 128 := BitVec.ofNat 128 (leNat data)
  let i := s.win id (Obj.FILTER_INDEX q)
  if data.length ≠ 16 then (s, .of stLength)
  else if Fi.queue.get e = 6 || !([0, 4, 6].contains (Fi.ip.get e)) then (s, .of stRange)
  else if [Fi.rsv0, Fi.rsv1, Fi.rsv2, Fi.rsv3, Fi.vlanRsv].any (fun f => f.get e != 0) then (s, .of stReserved)
  else ({ s with filters := if e = filterDefault i then SMap.del s.filters (256 * q + i) else SMap.ins s.filters (256 * q + i) e }, .ok)

/-- What an accepted byte object does. -/
def State.applyBytes (s : State) (id key : Nat) (data : List Byte) : State × Answer :=
  let n := objCopy key
  let zero := data.all (· == 0)
  match objBase key with
  | 0x110001 => s.writeKeys key roleAdmin 0 4 data
  | 0x300101 => s.writeKeys key roleOwner n 4 data
  | 0x300102 => s.writeKeys key roleUser n 8 data
  | 0x800101 => s.writePublisherKeys data
  | 0x800201 => s.attest id data
  | 0x202002 => s.writeFilter id n data
  | 0x230002 => s.writeCoef id data
  | 0x224104 => if data.length % 4 ≠ 0 || data.length > 16384 then (s, .of stLength) else (s.resList_ id data, .ok)
  | 0x300005 => (s.setDom key data, .ok)
  | 0x710002 => if (s.dumpWin id n).state = 1 || (s.dumpWin id n).state = 2 then (s, .of stState) else (s.setWinDom id key data, .ok)
  | _ =>
    match objRow key with
    | some r => (if r.window then s.setWinDom id key data else s.setDom key (if zero then [] else data), .ok)
    | none => (s, .of stNoObject)

/-- Whether bytes written to an object set a reserved bit of its layout (R9): the reserved bytes of a QP or region entry, of a dump
request, and of each 16 B CXL range record. -/
def reservedBytes (key : Nat) (data : List Byte) : Bool :=
  let nz := fun (o n : Nat) => ((data.drop o).take n).any (· != 0)
  match objBase key with
  | 0x441002 => nz 0x30 16
  | 0x441102 => nz 0x12 14
  | 0x710002 => nz 0x07 1 || nz 0x26 26
  | 0x300005 => (List.range (data.length / 16)).any (fun k => nz (16 * k + 1) 7)
  | _ => false

/-- Whether a byte object has the length its object states. -/
def lengthBad (key : Nat) (data : List Byte) : Bool :=
  (match fixedLength key with
    | some n => data.length != n
    | none => false) || (objBase key == 0x900002 && data.length > 33554432)
    || (objBase key == 0x300005 && (data.length % 16 != 0 || data.length > 256))

/-- A WRITE of a DOMAIN object. -/
def State.writeBytes (s : State) (id key : Nat) (data : List Byte) : State × Answer :=
  match objRow key with
  | none => (s, .of stNoObject)
  | some r =>
    if r.acc = .ro then (s, .of stAccess)
    else if !s.mayWrite id key 0 then (s, .of stRights)
    else if lengthBad key data then (s, .of stLength)
    else if reservedBytes key data then (s, .of stReserved)
    else if s.stateBad key 0 then (s, .of stState)
    else s.applyBytes id key data

/-- A WRITE of an object with its value as bytes (R452). -/
def State.writeObj (s : State) (id key : Nat) (data : List Byte) (f : RecoverFacts) : State × Answer :=
  match objRow key with
  | none => s.writeNum id key 0 f
  | some r =>
    match r.ty.size with
    | some n => if r.acc ≠ .ro && s.mayWrite id key (leNat data) && data.length ≠ n then (s, .of stLength) else s.writeNum id key (leNat data) f
    | none => s.writeBytes id key data

/-! ## The commands -/

/-- REGISTER_WRITE (R452): a session writes a number object. -/
def execRegisterWrite (sess key val : Nat) (facts : RecoverFacts) (s : State) : Out :=
  s.command sess key val (fun s => (s.writeNum sess key val facts).1)

/-- TICK_GRAINS_WRITE (R34, R35): a session writes TICK_EPOCH_GRAIN or TICK_GRAINS. -/
def execTickGrainsWrite (sess : Nat) (p : PartId) (epoch : Bool) (val : Nat) (s : State) : Out :=
  let key := if epoch then Obj.TICK_EPOCH_GRAIN p else Obj.TICK_GRAINS p
  s.command sess key val (fun s => (s.writeNum sess key val ⟨false, false, false, [], 0, 0, 0⟩).1)

/-- CLOSE_GUARD_NS_WRITE (R47): in force from the next tick edge. -/
def execCloseGuardNsWrite (sess : Nat) (p : PartId) (val : Nat) (s : State) : Out :=
  s.command sess (Obj.CLOSE_GUARD_NS p) val (fun s => (s.writeNum sess (Obj.CLOSE_GUARD_NS p) val ⟨false, false, false, [], 0, 0, 0⟩).1)

/-- FACTORY_RESET (R458). -/
def execFactoryReset (sess val : Nat) (s : State) : Out :=
  s.command sess Obj.FACTORY_RESET val (fun s => (s.writeNum sess Obj.FACTORY_RESET val ⟨false, false, false, [], 0, 0, 0⟩).1)

end Sys2Proof.Machine
end

