-- ==== Sys2Proof/Machine/Sessions.lean ====
section
/-!
DEFINITION. Jenjo (13_management.md R443 to R456): sessions, their messages and their events, and the commands OPEN, OPEN_CONFIRM,
OPEN_TIMEOUT, CLOSE, SESSION_IDLE_TIMEOUT, JENJO_MALFORMED, READ, WRITE, READ_BLOCK, WRITE_BLOCK, NOTIFY_ACK and NOTIFY_RESEND.
-/

namespace Sys2Proof.Machine
open Sys2Proof

/-! ## Messages (R443, R444) -/

abbrev msgOpen : Nat := 0x01
abbrev msgConfirm : Nat := 0x02
abbrev msgClose : Nat := 0x03
abbrev msgRead : Nat := 0x10
abbrev msgWrite : Nat := 0x11
abbrev msgReadBlock : Nat := 0x12
abbrev msgWriteBlock : Nat := 0x13
abbrev msgAck : Nat := 0x21

/-- Whether the milliner serves Jenjo on a port: the host port, or a fabric port with JENJO_EN. -/
def State.jenjoOn (s : State) (port : Nat) : Bool :=
  s.boot.milliner && (port == 64 || (port < 64 && s.rg (Obj.JENJO_EN port) == 1))

/-- The 32 B header of a request as it arrived. -/
def reqHeader (r : Request) (op : Nat) : List Byte :=
  leBytes 2 0x4A4A ++ leBytes 1 1 ++ leBytes 1 op ++ leBytes 4 r.session ++ leBytes 8 r.seq ++ leBytes 2 r.index ++ leBytes 1 r.sub
    ++ leBytes 1 ((if r.last then 1 else 0) + 2 * (r.reserved % 128)) ++ leBytes 4 r.offset ++ leBytes 4 r.payload.length
    ++ leBytes 4 (r.reserved / 128)

/-- The object that a request names. -/
def reqKey (r : Request) : Nat := okey r.index r.sub

/-- The response to a request. -/
def reqReply (r : Request) (op session : Nat) (a : Answer) (payload : List Byte) : Response :=
  ⟨op + 0x80, session, r.seq, r.index, r.sub, a.code, r.offset, payload, a.detail⟩

/-- The session that a message belongs to: the one it names, from the port and source of its OPEN (R446). -/
def State.senderOf (s : State) (r : Request) : Option Session :=
  s.sessions.find? (fun x => x.id == r.session && x.port == r.port && x.source == r.source)

def State.dropSession (s : State) (id : Nat) : State := { s with sessions := s.sessions.filter (fun x => x.id != id) }

/-- A message whose TAG fails (R448): counted; the eighth in a row closes the session. -/
def State.authFail (s : State) (id : Nat) : State :=
  let s := (s.incRg Obj.JENJO_AUTH_FAIL 1).modSession id (fun x => { x with failures := x.failures + 1 })
  match s.sessions.find? (fun x => x.id == id) with
  | some x => if x.failures ≥ 8 then s.dropSession id else s
  | none => s

/-- Whether the TAG of a request verifies under a session's key. -/
def Session.verifies (x : Session) (r : Request) (op : Nat) : Bool := r.tag == hmac512 x.key (reqHeader r op ++ r.payload)

/-- A request in an open session (R448, R449): discarded where it comes from elsewhere or its TAG fails; executed once, in the order
of SEQ, and answered. `act` gives the state, the status and the payload of the response; `fin` follows an OK response. -/
def State.request (s : State) (r : Request) (op : Nat) (act : State → State × Answer × List Byte)
    (fin : Nat → State → State := fun _ s => s) : Out :=
  takes (s.jenjoOn r.port) s (fun s =>
    if r.payload.length > 8192 then s.incRg Obj.JENJO_MALFORMED 1
    else match s.senderOf r with
      | none => s
      | some x =>
        if !x.verifies r op then s.authFail x.id
        else
          let s := s.modSession x.id (fun x => { x with failures := 0, lastMsg := s.now })
          if !x.open_ || r.seq < x.lastSeq then s
          else if r.seq = x.lastSeq then
            match x.lastResp with
            | some y => s.emit (.response y)
            | none => s
          else
            let (t, a, data) := if r.reserved ≠ 0 then (s, Answer.of stReserved, []) else act s
            let y := reqReply r op x.id a data
            let t := (t.modSession x.id (fun x => { x with lastSeq := r.seq, lastResp := some y })).emit (.response y)
            if a.code = stOk then fin x.id t else t)

/-! ## Opening a session (R445 to R447, R450) -/

/-- The key lists against which an OPEN is checked (R445). -/
def State.keyRegistered (s : State) (role part : Nat) (h : List Byte) : Bool :=
  if role = roleAdmin then (keyList (s.dom Obj.ADMIN_KEYS)).contains h
  else if role = roleOwner then part < 12 && (keyList (s.dom (Obj.OWNER_KEYS part))).contains h
  else if role = roleUser then part < 12 && (keyList (s.dom (Obj.USER_KEYS part))).contains h
  else false

/-- A session identifier: a free number that no session has and that is not 0. -/
def State.freshId (s : State) (k : Nat) : Nat :=
  let used := 0 :: s.sessions.map (·.id)
  let v := (Config.freeWord k).toNat % 2 ^ 32
  if used.contains v then (((List.range (used.length + 1)).filter (fun n => !used.contains n)).head?).getD 0 else v

/-- The status that refuses an OPEN. -/
def State.openBad (s : State) (r : Request) (role part : Nat) (h : List Byte) : Nat :=
  if r.payload.length ≠ 552 then stLength
  else if r.reserved ≠ 0 || ((r.payload.drop 2).take 2).any (· != 0) then stReserved
  else if role < 1 || role > 4 then stRange
  else if !s.boot.keyOk then stState
  else if role = roleClaim then
    if r.port = 64 && (s.dom Obj.ADMIN_KEYS).isEmpty then (if (s.sessions.filter (·.open_)).length ≥ 16 then stSessionsFull else stOk) else stRights
  else if !s.keyRegistered role part h then stRights
  else if (s.sessions.filter (·.open_)).length ≥ 16 then stSessionsFull
  else stOk

/-- OPEN (R446): the module answers with its nonce, the session key under the client's key, and its signature: free bytes (log 8). -/
def execOpen (r : Request) (s : State) : Out :=
  takes (s.jenjoOn r.port) s (fun s =>
    if r.payload.length > 8192 then s.incRg Obj.JENJO_MALFORMED 1
    else
      let role := leNat (r.payload.take 1)
      let part := leNat ((r.payload.drop 1).take 1)
      let nonce := (r.payload.drop 4).take 32
      let h := keyHash ((r.payload.drop 36).take 512) ((r.payload.drop 548).take 4)
      let bad := s.openBad r role part h
      if bad ≠ stOk then s.emit (.response (reqReply r msgOpen 0 (Answer.of bad) []))
      else
        let (k1, s) := s.draw
        let (k2, s) := s.draw
        let (k3, s) := s.draw
        let (k4, s) := s.draw
        let id := s.freshId k1
        let mine := Config.freeBytes k2 32
        let x : Session := ⟨id, role, if part < 12 then part else 0, r.port, r.source, h, Config.freeBytes k3 64, nonce ++ mine, false, s.now,
          s.now, 0, none, 0, [], [], none, [], 1, 0⟩
        ({ s with sessions := s.sessions ++ [x] } : State).emit
          (.response (reqReply r msgOpen id Answer.ok (leBytes 4 id ++ mine ++ Config.freeBytes k4 1024))))

/-- One event queued and sent on one session, whatever others receive. -/
def State.notifyOne (s : State) (id : Nat) (e : Event) : State :=
  match s.sessions.find? (fun x => x.id == id) with
  | some x =>
    let (y, o) := x.push s.now e
    ({ s with out := o ++ s.out } : State).modSession id (fun _ => y)
  | none => s

/-- What a session that has just opened is told first: the milliner restart (R456), and to an admin the cause of the last shutdown
(R538). -/
def State.greet (s : State) (id role : Nat) : State :=
  let s := match s.boot.restarted with
    | some n => s.notifyOne id ⟨0x0001, 0xFF, s.grain, n, s.rg Obj.ACTIVE_COPIES % 2⟩
    | none => s
  if s.boot.shutdownDue && role = roleAdmin then
    { s.notifyOne id ⟨0x00B3, 0xFF, s.grain, s.rg Obj.LAST_SHUTDOWN, 0⟩ with boot := { s.boot with shutdownDue := false } }
  else s

/-- A session opens: the response, and its first events. -/
def State.openSession (s : State) (r : Request) (x : Session) : State :=
  let y := reqReply r msgConfirm x.id Answer.ok []
  let role := if x.role = roleClaim then roleAdmin else x.role
  let s := s.modSession x.id (fun x => { x with open_ := true, role := role, lastMsg := s.now, lastSeq := 1, lastResp := some y, failures := 0 })
  (s.emit (.response y)).greet x.id role

/-- OPEN_CONFIRM (R446, R447). -/
def execOpenConfirm (r : Request) (s : State) : Out :=
  takes (s.jenjoOn r.port) s (fun s =>
    if r.payload.length > 8192 then s.incRg Obj.JENJO_MALFORMED 1
    else match s.senderOf r with
    | none => s
    | some x =>
      if !x.verifies r msgConfirm then s.authFail x.id
      else if x.open_ then
        match x.lastResp with
        | some y => if r.seq = x.lastSeq then s.emit (.response y) else s
        | none => s
      else if r.seq ≠ 1 || r.reserved ≠ 0 then s
      else if (s.sessions.filter (·.open_)).length ≥ 16 then (s.dropSession x.id).emit (.response (reqReply r msgConfirm x.id (Answer.of stSessionsFull) []))
      else if x.role = roleClaim then
        if r.payload = hmac512 Config.claimCode x.nonces && (s.dom Obj.ADMIN_KEYS).isEmpty then (s.setDom Obj.ADMIN_KEYS x.keyHash).openSession r x
        else (s.dropSession x.id).incRg Obj.JENJO_AUTH_FAIL 1
      else if r.payload.isEmpty then s.openSession r x
      else s)

/-- OPEN_TIMEOUT (R446): 5 s without a valid OPEN_CONFIRM. -/
def execOpenTimeout (sess at_ : Nat) (s : State) : Out :=
  match s.sessions.find? (fun x => x.id == sess) with
  | some x => takes (!x.open_ && x.openedAt + 5000000000 ≤ at_) s (fun s => (s.at at_).dropSession sess)
  | none => .next s

/-- CLOSE (R450). -/
def execClose (r : Request) (s : State) : Out :=
  s.request r msgClose (fun s => (s, if r.payload.isEmpty then Answer.ok else Answer.of stLength, [])) (fun id t => t.dropSession id)

/-- SESSION_IDLE_TIMEOUT (R450). -/
def execSessionIdleTimeout (sess at_ : Nat) (s : State) : Out :=
  match s.session sess with
  | some x => takes (x.lastMsg + 1000000000 * s.rg Obj.SESSION_IDLE_S ≤ at_) s (fun s => (s.at at_).dropSession sess)
  | none => .next s

/-- JENJO_MALFORMED (R444). -/
def execJenjoMalformed (port : PortId) (s : State) : Out := takes (s.jenjoOn port) s (fun s => s.incRg Obj.JENJO_MALFORMED 1)

/-! ## Objects (R452, R454) -/

/-- READ (R454): the value, where it has at most 8,192 B. -/
def execRead (r : Request) (s : State) : Out :=
  s.request r msgRead (fun s =>
    let (code, v) := s.readObj r.session (reqKey r)
    if code = stOk && (!r.payload.isEmpty || v.length > 8192) then (s, Answer.of stLength, []) else (s, Answer.of code, v))

/-- WRITE (R452). -/
def execWrite (r : Request) (facts : RecoverFacts) (s : State) : Out :=
  s.request r msgWrite (fun s =>
    let (t, a) := s.writeObj r.session (reqKey r) r.payload facts
    (t, a, []))

/-- Whether an object is a DOMAIN object. -/
def isDomain (key : Nat) : Bool :=
  match objRow key with
  | some r => r.ty == .domain
  | none => false

/-- READ_BLOCK (R454): so many bytes of a DOMAIN object from OFFSET. -/
def execReadBlock (r : Request) (s : State) : Out :=
  s.request r msgReadBlock (fun s =>
    let (code, v) := s.readObj r.session (reqKey r)
    if code ≠ stOk then (s, Answer.of code, [])
    else if r.payload.length ≠ 4 || !isDomain (reqKey r) then (s, Answer.of stLength, [])
    else (s, Answer.ok, (v.drop r.offset).take (Nat.min 8192 (leNat r.payload))))

/-- A segment of a block write (R454): in ascending OFFSET without gaps from 0, else the partial value goes. -/
def State.writeSegment (s : State) (r : Request) : State × Answer :=
  let id := r.session
  let key := reqKey r
  let part := match s.session id with
    | some x => match x.upload with
      | some (k, bs) => if k = key && r.offset ≠ 0 then bs else []
      | none => []
    | none => []
  match objRow key with
  | none => (s, .of (if (objHighest r.index).isSome && r.sub = 0 then stAccess else stNoObject))
  | some row =>
    if row.acc = .ro then (s, .of stAccess)
    else if !s.mayWrite id key 0 then (s, .of stRights)
    else if row.ty ≠ .domain then (s, .of stLength)
    else if r.offset ≠ part.length then (s.modSession id (fun x => { x with upload := none }), .of stSegment)
    else if !r.last then (s.modSession id (fun x => { x with upload := some (key, part ++ r.payload) }), .ok)
    else (s.modSession id (fun x => { x with upload := none })).writeBytes id key (part ++ r.payload)

/-- WRITE_BLOCK (R454). -/
def execWriteBlock (r : Request) (s : State) : Out :=
  s.request r msgWriteBlock (fun s =>
    let (t, a) := s.writeSegment r
    (t, a, []))

/-! ## Events (R455) -/

/-- NOTIFY_ACK (R455): SEQ is that of the NOTIFY. -/
def execNotifyAck (r : Request) (s : State) : Out :=
  takes (s.jenjoOn r.port) s (fun s =>
    if r.payload.length > 8192 then s.incRg Obj.JENJO_MALFORMED 1
    else match s.senderOf r with
    | none => s
    | some x =>
      if !x.verifies r msgAck then s.authFail x.id
      else s.modSession x.id (fun x => { x with failures := 0, lastMsg := s.now, queue := x.queue.filter (fun u => u.seq != r.seq) }))

/-- NOTIFY_RESEND (R455): every 200 ms without an acknowledgement, at most 5 times. -/
def execNotifyResend (sess seq at_ : Nat) (s : State) : Out :=
  match s.session sess with
  | none => .next s
  | some x => match x.queue.find? (fun u => u.seq == seq) with
    | none => .next s
    | some u => takes (s.boot.milliner && u.sends ≤ 5 && u.lastSent + 200000000 ≤ at_) s (fun s =>
        let s := s.at at_
        (s.modSession sess (fun x => { x with queue := x.queue.map (fun v => if v.seq == seq then { v with sends := v.sends + 1, lastSent := s.now } else v) })).emit
          (.notify sess seq u.event))

end Sys2Proof.Machine
end

