-- ==== Sys2Proof/Machine/Dispatch.lean ====
section
/-!
DEFINITION. One arm per command: a direct call of its meaning.
-/

namespace Sys2Proof.Machine
open Sys2Proof

def exec (i : Instr) (s : State) : Host.Outcome State Fault Refusal :=
  match i with
  | .tickEdge p => Sys2Proof.Machine.execTickEdge p s
  | .closingGuard p => Sys2Proof.Machine.execClosingGuard p s
  | .round2Send p => Sys2Proof.Machine.execRound2Send p s
  | .tickStatusRx port at_ f => Sys2Proof.Machine.execTickStatusRx port at_ f s
  | .settleDecide p recMb recBuckets => Sys2Proof.Machine.execSettleDecide p recMb recBuckets s
  | .statusRecordWrite p => Sys2Proof.Machine.execStatusRecordWrite p s
  | .jobComplete p => Sys2Proof.Machine.execJobComplete p s
  | .crownProgramLoad p bad => Sys2Proof.Machine.execCrownProgramLoad p bad s
  | .tickGeneratorRestart p => Sys2Proof.Machine.execTickGeneratorRestart p s
  | .watchdogFire c => Sys2Proof.Machine.execWatchdogFire c s
  | .clusterResetDone c => Sys2Proof.Machine.execClusterResetDone c s
  | .nop c => Sys2Proof.Machine.execNop c s
  | .li c rd imm => Sys2Proof.Machine.execLi c rd imm s
  | .lih c rd imm => Sys2Proof.Machine.execLih c rd imm s
  | .add c rd rs1 rs2 => Sys2Proof.Machine.execAdd c rd rs1 rs2 s
  | .addi c rd rs1 imm => Sys2Proof.Machine.execAddi c rd rs1 imm s
  | .sub c rd rs1 rs2 => Sys2Proof.Machine.execSub c rd rs1 rs2 s
  | .and_ c rd rs1 rs2 => Sys2Proof.Machine.execAnd c rd rs1 rs2 s
  | .or_ c rd rs1 rs2 => Sys2Proof.Machine.execOr c rd rs1 rs2 s
  | .xor_ c rd rs1 rs2 => Sys2Proof.Machine.execXor c rd rs1 rs2 s
  | .shl c rd rs1 sh => Sys2Proof.Machine.execShl c rd rs1 sh s
  | .shr c rd rs1 sh => Sys2Proof.Machine.execShr c rd rs1 sh s
  | .mul c rd rs1 rs2 => Sys2Proof.Machine.execMul c rd rs1 rs2 s
  | .sltu c rd rs1 rs2 => Sys2Proof.Machine.execSltu c rd rs1 rs2 s
  | .ld c rd rs1 imm => Sys2Proof.Machine.execLd c rd rs1 imm s
  | .st c rs1 rs2 imm => Sys2Proof.Machine.execSt c rs1 rs2 imm s
  | .ldz c rd z => Sys2Proof.Machine.execLdz c rd z s
  | .issa c arr discard tag rs1 imm => Sys2Proof.Machine.execIssa c arr discard tag rs1 imm s
  | .issn c rs1 imm => Sys2Proof.Machine.execIssn c rs1 imm s
  | .wait c cls count first => Sys2Proof.Machine.execWait c cls count first s
  | .until_ c imm => Sys2Proof.Machine.execUntil c imm s
  | .untilReached c => Sys2Proof.Machine.execUntilReached c s
  | .branch c z flag b alts join => Sys2Proof.Machine.execBranch c z flag b alts join s
  | .enda c => Sys2Proof.Machine.execEnda c s
  | .joinResume c => Sys2Proof.Machine.execJoinResume c s
  | .loop c body count => Sys2Proof.Machine.execLoop c body count s
  | .jmp c imm => Sys2Proof.Machine.execJmp c imm s
  | .done c => Sys2Proof.Machine.execDone c s
  | .product c a parity => Sys2Proof.Machine.execProduct c a parity s
  | .preload c a parity => Sys2Proof.Machine.execPreload c a parity s
  | .illegalDescriptor c a => Sys2Proof.Machine.execIllegalDescriptor c a s
  | .arrayComplete c a => Sys2Proof.Machine.execArrayComplete c a s
  | .gaugeEvalDone q p => Sys2Proof.Machine.execGaugeEvalDone q p s
  | .run c parity => Sys2Proof.Machine.execRun c parity s
  | .scale c => Sys2Proof.Machine.execScale c s
  | .amaxNote c => Sys2Proof.Machine.execAmaxNote c s
  | .summaryLoad c => Sys2Proof.Machine.execSummaryLoad c s
  | .summaryStore c => Sys2Proof.Machine.execSummaryStore c s
  | .napIllegal c => Sys2Proof.Machine.execNapIllegal c s
  | .napOpEnd c => Sys2Proof.Machine.execNapOpEnd c s
  | .burst p n errs => Sys2Proof.Machine.execBurst p n errs s
  | .burstComplete p n at_ errs => Sys2Proof.Machine.execBurstComplete p n at_ errs s
  | .highTempRefresh d cycles => Sys2Proof.Machine.execHighTempRefresh d cycles s
  | .retrainDevice sess d => Sys2Proof.Machine.execRetrainDevice sess d s
  | .retrainDone d temp => Sys2Proof.Machine.execRetrainDone d temp s
  | .gddr7RetrainAdvised d temp => Sys2Proof.Machine.execGddr7RetrainAdvised d temp s
  | .cxlEnumerate x capacity type3 hotAdd refclk => Sys2Proof.Machine.execCxlEnumerate x capacity type3 hotAdd refclk s
  | .cxlRemove sess x => Sys2Proof.Machine.execCxlRemove sess x s
  | .cxlLost x => Sys2Proof.Machine.execCxlLost x s
  | .kettleItem u p n blocks errs => Sys2Proof.Machine.execKettleItem u p n blocks errs s
  | .kettleItemEnd u p at_ => Sys2Proof.Machine.execKettleItemEnd u p at_ s
  | .reduce q p n errs => Sys2Proof.Machine.execReduce q p n errs s
  | .reblockMove q p n errs => Sys2Proof.Machine.execReblockMove q p n errs s
  | .reblockItemEnd q p n at_ errs => Sys2Proof.Machine.execReblockItemEnd q p n at_ errs s
  | .portUp port at_ => Sys2Proof.Machine.execPortUp port at_ s
  | .portDown port at_ => Sys2Proof.Machine.execPortDown port at_ s
  | .failback stream => Sys2Proof.Machine.execFailback stream s
  | .adapt sess port => Sys2Proof.Machine.execAdapt sess port s
  | .fecUncorrectable port codewords corrected => Sys2Proof.Machine.execFecUncorrectable port codewords corrected s
  | .pauseFrame port at_ all_ times => Sys2Proof.Machine.execPauseFrame port at_ all_ times s
  | .pauseExpire port at_ => Sys2Proof.Machine.execPauseExpire port at_ s
  | .hostPauseTx level => Sys2Proof.Machine.execHostPauseTx level s
  | .transmitSlot p n errs => Sys2Proof.Machine.execTransmitSlot p n errs s
  | .dataFrame port at_ x data mirror fate errs => Sys2Proof.Machine.execDataFrame port at_ x data mirror fate errs s
  | .nullFrame port at_ x fate => Sys2Proof.Machine.execNullFrame port at_ x fate s
  | .ack port at_ x fate => Sys2Proof.Machine.execAck port at_ x fate s
  | .nak port at_ x fate => Sys2Proof.Machine.execNak port at_ x fate s
  | .ackTimeout p n at_ => Sys2Proof.Machine.execAckTimeout p n at_ s
  | .relayForward port at_ => Sys2Proof.Machine.execRelayForward port at_ s
  | .helloSend port => Sys2Proof.Machine.execHelloSend port s
  | .hello port caps size position number => Sys2Proof.Machine.execHello port caps size position number s
  | .sleep port sleepNs => Sys2Proof.Machine.execSleep port sleepNs s
  | .lldp port mac wake => Sys2Proof.Machine.execLldp port mac wake s
  | .lpiEnter port from_ until_ => Sys2Proof.Machine.execLpiEnter port from_ until_ s
  | .lpiWake port => Sys2Proof.Machine.execLpiWake port s
  | .lpiEarlyWake port at_ => Sys2Proof.Machine.execLpiEarlyWake port at_ s
  | .ptpMessage port at_ m => Sys2Proof.Machine.execPtpMessage port at_ m s
  | .announceTimeout at_ slave => Sys2Proof.Machine.execAnnounceTimeout at_ slave s
  | .holdoverExpire at_ => Sys2Proof.Machine.execHoldoverExpire at_ s
  | .synceLoss at_ => Sys2Proof.Machine.execSynceLoss at_ s
  | .ppsOut second => Sys2Proof.Machine.execPpsOut second s
  | .ppsIn at_ width => Sys2Proof.Machine.execPpsIn at_ width s
  | .rdmaWrite x => Sys2Proof.Machine.execRdmaWrite x s
  | .rdmaRead x => Sys2Proof.Machine.execRdmaRead x s
  | .cnp x => Sys2Proof.Machine.execCnp x s
  | .roceTimeout qp at_ => Sys2Proof.Machine.execRoceTimeout qp at_ s
  | .qpConnect sess => Sys2Proof.Machine.execQpConnect sess s
  | .qpReset sess => Sys2Proof.Machine.execQpReset sess s
  | .regionEnable sess => Sys2Proof.Machine.execRegionEnable sess s
  | .regionDisable sess => Sys2Proof.Machine.execRegionDisable sess s
  | .open_ r => Sys2Proof.Machine.execOpen r s
  | .openConfirm r => Sys2Proof.Machine.execOpenConfirm r s
  | .openTimeout sess at_ => Sys2Proof.Machine.execOpenTimeout sess at_ s
  | .close r => Sys2Proof.Machine.execClose r s
  | .sessionIdleTimeout sess at_ => Sys2Proof.Machine.execSessionIdleTimeout sess at_ s
  | .jenjoMalformed port => Sys2Proof.Machine.execJenjoMalformed port s
  | .read r => Sys2Proof.Machine.execRead r s
  | .write r facts => Sys2Proof.Machine.execWrite r facts s
  | .readBlock r => Sys2Proof.Machine.execReadBlock r s
  | .writeBlock r => Sys2Proof.Machine.execWriteBlock r s
  | .notifyAck r => Sys2Proof.Machine.execNotifyAck r s
  | .notifyResend sess seq at_ => Sys2Proof.Machine.execNotifyResend sess seq at_ s
  | .registerWrite sess key val facts => Sys2Proof.Machine.execRegisterWrite sess key val facts s
  | .tickGrainsWrite sess p epoch val => Sys2Proof.Machine.execTickGrainsWrite sess p epoch val s
  | .closeGuardNsWrite sess p val => Sys2Proof.Machine.execCloseGuardNsWrite sess p val s
  | .timeConfigWrite sess sub val => Sys2Proof.Machine.execTimeConfigWrite sess sub val s
  | .factoryReset sess val => Sys2Proof.Machine.execFactoryReset sess val s
  | .resEnable sess => Sys2Proof.Machine.execResEnable sess s
  | .resDisable sess => Sys2Proof.Machine.execResDisable sess s
  | .resList sess list_ => Sys2Proof.Machine.execResList sess list_ s
  | .streamEnable sess => Sys2Proof.Machine.execStreamEnable sess s
  | .streamDisable sess => Sys2Proof.Machine.execStreamDisable sess s
  | .streamReplace sess => Sys2Proof.Machine.execStreamReplace sess s
  | .windowDataWrite sess data => Sys2Proof.Machine.execWindowDataWrite sess data s
  | .partBuild sess p => Sys2Proof.Machine.execPartBuild sess p s
  | .partRebuild sess p => Sys2Proof.Machine.execPartRebuild sess p s
  | .partDissolve sess p => Sys2Proof.Machine.execPartDissolve sess p s
  | .partStop sess p => Sys2Proof.Machine.execPartStop sess p s
  | .jobEnable sess p => Sys2Proof.Machine.execJobEnable sess p s
  | .jobCheckDone p x => Sys2Proof.Machine.execJobCheckDone p x s
  | .jobDisable sess p => Sys2Proof.Machine.execJobDisable sess p s
  | .jobCancel sess p => Sys2Proof.Machine.execJobCancel sess p s
  | .slotEnable sess => Sys2Proof.Machine.execSlotEnable sess s
  | .slotDisable sess => Sys2Proof.Machine.execSlotDisable sess s
  | .slotCancel sess => Sys2Proof.Machine.execSlotCancel sess s
  | .pageEnable sess => Sys2Proof.Machine.execPageEnable sess s
  | .pageDisable sess => Sys2Proof.Machine.execPageDisable sess s
  | .prefixEnable sess => Sys2Proof.Machine.execPrefixEnable sess s
  | .prefixDisable sess => Sys2Proof.Machine.execPrefixDisable sess s
  | .copyPrepare sess => Sys2Proof.Machine.execCopyPrepare sess s
  | .copySwitch sess => Sys2Proof.Machine.execCopySwitch sess s
  | .genStepSettle p => Sys2Proof.Machine.execGenStepSettle p s
  | .recover sess p facts => Sys2Proof.Machine.execRecover sess p facts s
  | .recoveryStart p => Sys2Proof.Machine.execRecoveryStart p s
  | .restoreTransfer p x => Sys2Proof.Machine.execRestoreTransfer p x s
  | .recoveryReady p at_ roots replicas => Sys2Proof.Machine.execRecoveryReady p at_ roots replicas s
  | .resume sess p => Sys2Proof.Machine.execResume sess p s
  | .abandon sess p => Sys2Proof.Machine.execAbandon sess p s
  | .pressArm sess p val => Sys2Proof.Machine.execPressArm sess p val s
  | .pressCopyDone p at_ => Sys2Proof.Machine.execPressCopyDone p at_ s
  | .drainWindow p row acked piece => Sys2Proof.Machine.execDrainWindow p row acked piece s
  | .snapshot sess p => Sys2Proof.Machine.execSnapshot sess p s
  | .snapshotSwitch p => Sys2Proof.Machine.execSnapshotSwitch p s
  | .counterImageWrite p => Sys2Proof.Machine.execCounterImageWrite p s
  | .traceArm sess p => Sys2Proof.Machine.execTraceArm sess p s
  | .traceStop sess p => Sys2Proof.Machine.execTraceStop sess p s
  | .traceTrigger p => Sys2Proof.Machine.execTraceTrigger p s
  | .traceFrozen c => Sys2Proof.Machine.execTraceFrozen c s
  | .traceStoppedFull c => Sys2Proof.Machine.execTraceStoppedFull c s
  | .traceSpill p w => Sys2Proof.Machine.execTraceSpill p w s
  | .dumpArm sess p => Sys2Proof.Machine.execDumpArm sess p s
  | .dumpCancel sess p => Sys2Proof.Machine.execDumpCancel sess p s
  | .dumpCapture p n => Sys2Proof.Machine.execDumpCapture p n s
  | .dumpDone p n => Sys2Proof.Machine.execDumpDone p n s
  | .fwProgram sess => Sys2Proof.Machine.execFwProgram sess s
  | .fwProgrammed at_ ok => Sys2Proof.Machine.execFwProgrammed at_ ok s
  | .activate sess => Sys2Proof.Machine.execActivate sess s
  | .activationDone at_ ok => Sys2Proof.Machine.execActivationDone at_ ok s
  | .minSecurityVersionAdvance at_ => Sys2Proof.Machine.execMinSecurityVersionAdvance at_ s
  | .millinerRestart at_ => Sys2Proof.Machine.execMillinerRestart at_ s
  | .refLoad sess => Sys2Proof.Machine.execRefLoad sess s
  | .refAbort sess => Sys2Proof.Machine.execRefAbort sess s
  | .refErase sess => Sys2Proof.Machine.execRefErase sess s
  | .refChunk at_ => Sys2Proof.Machine.execRefChunk at_ s
  | .refLoadTimeout at_ => Sys2Proof.Machine.execRefLoadTimeout at_ s
  | .imageLoaded at_ => Sys2Proof.Machine.execImageLoaded at_ s
  | .eraseDone at_ => Sys2Proof.Machine.execEraseDone at_ s
  | .attestNonce sess nonce => Sys2Proof.Machine.execAttestNonce sess nonce s
  | .publisherKeys sess keys => Sys2Proof.Machine.execPublisherKeys sess keys s
  | .vinApplied at_ mv rst => Sys2Proof.Machine.execVinApplied at_ mv rst s
  | .powerOnSequence at_ lowNs times => Sys2Proof.Machine.execPowerOnSequence at_ lowNs times s
  | .railTimeout at_ => Sys2Proof.Machine.execRailTimeout at_ s
  | .resetRelease at_ bad keyOk => Sys2Proof.Machine.execResetRelease at_ bad keyOk s
  | .romRecoveryDatagram data => Sys2Proof.Machine.execRomRecoveryDatagram data s
  | .helperBoot at_ bad trained => Sys2Proof.Machine.execHelperBoot at_ bad trained s
  | .shutdown at_ causes => Sys2Proof.Machine.execShutdown at_ causes s
  | .powerSample at_ watts => Sys2Proof.Machine.execPowerSample at_ watts s
  | .thermalThrottle at_ q device temp => Sys2Proof.Machine.execThermalThrottle at_ q device temp s
  | .throttleStep at_ q power => Sys2Proof.Machine.execThrottleStep at_ q power s
  | .throttleRelease at_ q cool => Sys2Proof.Machine.execThrottleRelease at_ q cool s
  | .inletHigh at_ temp altitude => Sys2Proof.Machine.execInletHigh at_ temp altitude s
  | .normalTemperatureRefresh d => Sys2Proof.Machine.execNormalTemperatureRefresh d s
  | .synceLocked at_ => Sys2Proof.Machine.execSynceLocked at_ s
  | .syncInterval kind => Sys2Proof.Machine.execSyncInterval kind s
  | .roceAck x psn nak => Sys2Proof.Machine.execRoceAck x psn nak s
  | .dropQueueFrame port at_ x fate => Sys2Proof.Machine.execDropQueueFrame port at_ x fate s
  | .dumpWindow p w room => Sys2Proof.Machine.execDumpWindow p w room s

end Sys2Proof.Machine
end

