-- ==== Sys2Proof/Safety.lean ====
section
/-!
DEFINITION. What holds of a sound state: device memory in its canonical form, and what one command may not touch.
-/

namespace Sys2Proof.Machine
open Sys2Proof

/-- The canonical form of device memory (log 7): addresses strictly rising, no entry equal to what an unlisted address reads as. -/
abbrev Memory.wf (m : List Host.Cell) : Prop := SMap.Wf (0 : BitVec 8) m

/-- The state whose device memory is canonical. -/
abbrev State.Canonical (s : State) : Prop := Memory.wf s.mem

/-- The partitions other than `p` are as before. -/
def SameOtherParts (p : PartId) (s t : State) : Prop := ∀ q : PartId, q ≠ p → t.pt q = s.pt q

/-- The clusters other than `c` are as before. -/
def SameOtherClusters (c : ClusterId) (s t : State) : Prop := ∀ d : ClusterId, d ≠ c → t.cl d = s.cl d

/-- Every byte of device memory outside the `n` bytes from `a` reads as before. -/
def SameMemoryOutside (a n : Nat) (s t : State) : Prop := ∀ b, (b < a ∨ a + n ≤ b) → t.memByte b = s.memByte b

/-- Every byte of device memory reads as before. -/
def SameMemory (s t : State) : Prop := ∀ b, t.memByte b = s.memByte b

/-- Every register object reads as before, but those of a list. -/
def SameRegsBut (keys : List Nat) (s t : State) : Prop := ∀ k, k ∉ keys → t.rg k = s.rg k

/-- The supply, boot, and firmware state is as before. -/
def SamePlant (s t : State) : Prop :=
  t.power = s.power ∧ t.boot = s.boot ∧ t.fwRun = s.fwRun ∧ t.actRun = s.actRun ∧ t.refLoad = s.refLoad ∧ t.refErase = s.refErase ∧
  t.throttle = s.throttle

/-- The tables of the module (Residency, Stream, Slot, KV Page and Prefix Handle Table entries, queue pairs, RDMA regions, filters) are
as before. -/
def SameTables (s t : State) : Prop :=
  t.res = s.res ∧ t.streams = s.streams ∧ t.streamPending = s.streamPending ∧ t.slots = s.slots ∧ t.pages = s.pages ∧
  t.prefixes = s.prefixes ∧ t.qps = s.qps ∧ t.regions = s.regions ∧ t.filters = s.filters

/-! ## What statements say -/

/-- A command is answered with a next state of which a property holds. -/
def Gives (i : Instr) (s : State) (post : State → Prop) : Prop := ∃ t, exec i s = .next t ∧ post t

/-- The core of cluster `c` of partition `p` can execute the crown instruction `i` now: its program word is `i`, without a parity
error. -/
def AtCore (s : State) (p : PartId) (c : ClusterId) (i : Instr) : Prop :=
  s.ownerOfCluster c = some p.val ∧ s.coreRuns p c = true ∧ s.coreAt c i = true ∧ ((s.cl c).crown.wordAt (s.cl c).crown.pc).2 = false

/-- A port may start a frame of a priority now, and none waits for it nor any frame of a transmit slot (R343). -/
def State.PortIdle (s : State) (port prio : Nat) : Prop :=
  s.txAwake port = true ∧ SMap.getD [] s.txq port = [] ∧ s.txGate port prio ≤ 100 * s.now ∧ s.nextSlotFrame port (100 * s.now) = none

/-- A frame has left a port, or waits for it. -/
def State.SentOrWaiting (s : State) (port : Nat) (x : Sent) : Prop := x ∈ s.out ∨ ∃ w ∈ SMap.getD [] s.txq port, w.sent = x

/-- A core after an instruction of `k` cycles that goes on at `next` (R74): the loop stack is followed, no other register than `rd`
has changed, and the cycle counter has advanced. -/
def Retired (k next : Nat) (rd : RegId) (v : Word) (cr cr' : Crown) : Prop :=
  cr'.reg rd = (if rd = 0 then 0 else v) ∧ (∀ r, r ≠ rd → cr'.reg r = cr.reg r) ∧ cr'.cycle = cr.cycle + k ∧
  cr'.pc = (loopNext cr.loops next).1 ∧ cr'.mode = .running

end Sys2Proof.Machine
end

