-- ==== Sys2Proof/Certificates/Slice0/Obligations.lean ====
section
/-!
DEFINITION. The statements for the provers.
-/

open Sys2Proof Sys2Proof.Machine

/-! ## The block as a whole -/

/-- A step runs the command at the front of the queue on the state with the queue's rest. The model's choice: log 1. -/
def Obligations.StepRunsFrontCommand : Prop :=
  ∀ (c : Instr) (rest : List Instr) (s : State),
    step { s with pending := c :: rest } = exec c { s with pending := rest }

/-- A command has its effect on everything but the queue of the commands that wait (the model's form of a block, log 1). -/
def Obligations.CommandsLeaveTheQueue : Prop :=
  ∀ (c : Instr) (s t : State), exec c s = .next t → t.pending = s.pending

/-- Device memory stays in its canonical form: addresses strictly rising, no entry equal to what an unlisted address reads as (log 7). -/
def Obligations.StepKeepsMemoryCanonical : Prop :=
  ∀ (s t : State), s.Canonical → step s = .next t → t.Canonical

/-- What reset leaves: no supply, so PWR_GOOD is low and the module is not up (R527); device memory lists nothing, nothing waits, no
partition is built, no session is open, every object reads its default. The model's choices: log 3, 4, 5 and 7. -/
def Obligations.ResetIsUnpowered : Prop :=
  State.reset.Canonical ∧ State.reset.power.good = false ∧ State.reset.power.up = false ∧ State.reset.pending = [] ∧
  State.reset.sessions = [] ∧ (∀ p : PartId, (State.reset.pt p).built = none ∧ (State.reset.pt p).gen.on = false) ∧
  (∀ k, State.reset.rg k = (objDefault k).toNat) ∧ (∀ a, State.reset.memByte a = 0)

/-- The words of crown instructions decode to what was encoded, for every instruction at every operand value that its fields admit (R74 to
R76). -/
def Obligations.CrownDecodeOfEncode : Prop :=
  ∀ (i : Instr) (c : ClusterId) (w : Word), crownCluster i = some c → encodeCrown i = some w → crownFieldsOk i = true →
    decodeCrown c w = some i

/-- Words written out from the encoding tables: ADD x1, x2, x3; LI x5, −1; ADDI x4, x4, 3; SHL x4, x4 by 3; ISSA array 2 with DISCARD, tag
5, from x1 + 64; WAIT class 1 for one item; BRANCH on Z3, FLAG mode, bit 6, two alternatives, JOIN 100; LOOP of 4 words, 10 times; DONE;
an undefined opcode; a set bit that ADD does not use (R74, R75). -/
def Obligations.CrownWordsDecode : Prop :=
  ∀ c : ClusterId,
    decodeCrown c 0x03_0886_00_0000_0000 = some (.add c 1 2 3) ∧
    decodeCrown c 0x01_2800_00_FFFF_FFFF = some (.li c 5 0xFFFFFFFF) ∧
    decodeCrown c 0x04_2100_00_0000_0003 = some (.addi c 4 4 3) ∧
    decodeCrown c 0x09_2100_00_0000_0003 = some (.shl c 4 4 3) ∧
    decodeCrown c 0x20_2842_80_0000_0040 = some (.issa c 2 true 5 1 0x40) ∧
    decodeCrown c 0x28_2000_00_0000_0000 = some (.wait c 1 0 0) ∧
    decodeCrown c 0x30_38C8_00_0000_0064 = some (.branch c 3 true 6 1 100) ∧
    decodeCrown c 0x32_0000_04_0000_000A = some (.loop c 4 10) ∧
    decodeCrown c 0x3F_0000_00_0000_0000 = some (.done c) ∧
    decodeCrown c 0x34_0000_00_0000_0000 = none ∧
    decodeCrown c 0x03_0886_00_0000_0001 = none


/-! ## Ticks (02_tick_and_schedule.md R33 to R56, R73) -/

/-- TICK_EDGE and TICK_GENERATOR_RESTART (R33, R35, R51): a generator that begins no tick yet begins one at the first grain of its grid;
the edge that ends a tick begins the next, numbered one higher, at the grain at which the last ended, with its settlement ready; the edge
of a tick that an accepted write has announced begins none and ends the slice, and the restart begins one on the new grid. An edge that
ends a tick clears the accumulator tiles, the Nap registers and the issue queues of the partition (R53). The model's choice: log 14. -/
def Obligations.TickEdges : Prop :=
  (∀ (p : PartId) (s : State),
     let g := (s.pt p).gen
     let begins := fun (t : State) (start tick len : Nat) =>
       (t.pt p).gen.begun = true ∧ (t.pt p).gen.start = start ∧ (t.pt p).gen.tick = tick ∧ (t.pt p).gen.len = len ∧
       (t.pt p).gen.stopping = false
     (g.on = true → g.begun = false → g.stopping = false →
       Gives (.tickEdge p) s (fun t =>
         begins t (s.nextStart p) ((s.nextStart p - s.rg (Obj.TICK_EPOCH_GRAIN p)) / s.rg (Obj.TICK_GRAINS p)) (s.rg (Obj.TICK_GRAINS p)))) ∧
     (g.on = true → g.begun = true → g.stopping = false → (s.pt p).settled = true →
       Gives (.tickEdge p) s (fun t => begins t (g.start + g.len) (g.tick + 1) g.len ∧ (t.pt p).settling.isSome = true)) ∧
     (g.on = true → g.begun = true → g.stopping = true → (s.pt p).settled = true →
       Gives (.tickEdge p) s (fun t => (t.pt p).gen.begun = false ∧ (t.pt p).gen.tick = g.tick ∧ (t.pt p).slice = none)) ∧
     (g.on = true → g.begun = false → g.stopping = true → (s.pt p).settled = true →
       Gives (.tickGeneratorRestart p) s (fun t =>
         begins t (s.nextStart p) ((s.nextStart p - s.rg (Obj.TICK_EPOCH_GRAIN p)) / s.rg (Obj.TICK_GRAINS p)) (s.rg (Obj.TICK_GRAINS p))))) ∧
  (∀ (p : PartId) (c : ClusterId) (r : Resources) (s : State),
     (s.pt p).built = some r → r.clusters.testBit c.val = true → (s.pt p).gen.on = true → (s.pt p).gen.begun = true →
     (s.pt p).settled = true →
     Gives (.tickEdge p) s (fun t =>
       (t.cl c).tiles = [] ∧ (t.cl c).nap.t = [] ∧ (t.cl c).nap.b = [] ∧ (t.cl c).nap.z = [] ∧ (t.cl c).nap.queue = [] ∧
       (t.cl c).nap.run = none ∧ ∀ a : ArrayId, ((t.cl c).arr a).queue = [] ∧ ((t.cl c).arr a).flight = []))

/-- CLOSING_GUARD (R48, R49) marks the guard of the slice, and a cluster with an operation in an issue queue makes the slice late under
its bit. CROWN_PROGRAM_LOAD (R73) puts the programs of the slice that the next tick runs, as they stand in memory, into the banks that the
cores do not use; each core's own bank and program address stay. The crown-core watchdog (R403): WATCHDOG_FIRE empties the issue queues
of the cluster, stops its core and its Nap engine and begins its reset, the slice is late under its bit, a settle fault is due, the reset
is counted, and batt memory stays; CLUSTER_RESET_DONE ends the reset with the tiles, the Nap registers and batt memory cleared. The model's
choices: log 15 and 41. -/
def Obligations.GuardLoadAndWatchdog : Prop :=
  (∀ (p : PartId) (r : SliceRun) (s : State), (s.pt p).slice = some r → r.guard = false →
     Gives (.closingGuard p) s (fun t => ∃ r', (t.pt p).slice = some r' ∧ r'.guard = true ∧ r'.job = r.job ∧ r'.number = r.number ∧
       ∀ (o : Resources) (c : ClusterId), (s.pt p).built = some o → o.clusters.testBit c.val = true →
         ((s.cl c).nap.queue ≠ [] ∨ ∃ a : ArrayId, ((s.cl c).arr a).queue ≠ []) → r'.late.testBit c.val = true)) ∧
  (∀ (p : PartId) (bad : List Nat) (j k : Nat) (s : State),
     (s.pt p).gen.on = true → (s.pt p).nextRun = some (j, k) → (s.pt p).loaded ≠ some (j, k) →
     Gives (.crownProgramLoad p bad) s (fun t =>
       (t.pt p).loaded = some (j, k) ∧
       (∀ c : ClusterId, (t.cl c).crown.bank = (s.cl c).crown.bank ∧ (t.cl c).crown.pc = (s.cl c).crown.pc) ∧
       (∀ (l : Nat) (c : ClusterId), l < s.blkPrograms (s.blockOf p j) → s.clusterOfProgram p l = some c.val →
         (if (s.cl c).crown.useB = true then (t.cl c).crown.bankA else (t.cl c).crown.bankB) =
           s.programWords (s.blockOf p j) k l bad))) ∧
  (∀ (p : PartId) (c : ClusterId) (s : State), s.ownerOfCluster c = some p.val → s.watchdogFires p c = true →
     Gives (.watchdogFire c) s (fun t =>
       (t.cl c).resetting = true ∧ (t.cl c).crown.mode = .idle ∧ (t.cl c).nap.run = none ∧ (t.cl c).nap.queue = [] ∧
       (∀ a : ArrayId, ((t.cl c).arr a).queue = []) ∧ (t.pt p).fault ≠ 0 ∧
       t.rg (Obj.WATCHDOG_RESETS p) = (s.rg (Obj.WATCHDOG_RESETS p) + 1) % 2 ^ 32 ∧
       (∃ r, (t.pt p).slice = some r ∧ r.late.testBit c.val = true) ∧ (t.cl c).batt = (s.cl c).batt)) ∧
  (∀ (c : ClusterId) (s : State), (s.cl c).resetting = true →
     Gives (.clusterResetDone c) s (fun t =>
       (t.cl c).resetting = false ∧ (t.cl c).tiles = [] ∧ (t.cl c).nap.t = [] ∧ (t.cl c).nap.b = [] ∧ (t.cl c).nap.z = [] ∧
       (t.cl c).batt = [] ∧ SameOtherClusters c s t ∧ t.parts = s.parts))

/-! ## Settlement (R57 to R69, R80) -/

/-- ROUND2_SEND (R58) marks the round-2 frame as sent; TICK_STATUS_RX (R36, R57) takes the first round-1 copy of a module of the job, and
its first round-2 copy; a second round-1 copy is nothing new, and a frame of another tick number counts as a mismatch and as not heard. SETTLE_DECIDE (R59, R61): the decision joins the own view with the
round-2 frames; a silent module drops the job's micro-batches and bucket groups of the slice; a round-2 frame that is missing is a settle fault.
The model's choices: log 17 and 20. -/
def Obligations.StatusExchangeAndDecision : Prop :=
  (∀ (p : PartId) (port : PortId) (at_ : Nat) (f : StatusFrame) (z : Settling) (s : State), (s.pt p).settling = some z →
     (z.mode ≠ 0 → 1 < z.modules → z.sentR2 = false → z.decided = false →
       Gives (.round2Send p) s (fun t => (t.pt p).settling = some { z with sentR2 := true })) ∧
     (s.portUp port = true → s.ownerOfPort port = some p.val → f.tick + 1 = s.rg (Obj.TICK_NUMBER p) → z.mode ≠ 0 → z.decided = false →
       f.job = z.jobId → f.module ≠ z.self → f.module < z.modules → f.kind = 1 → SMap.get? z.r1 f.module = none →
       Gives (.tickStatusRx port at_ f) s (fun t =>
         (t.pt p).settling = some { z with r1 := SMap.ins z.r1 f.module ⟨f.units, f.mb, f.buckets, f.heard⟩ })) ∧
     (s.portUp port = true → s.ownerOfPort port = some p.val → f.tick + 1 = s.rg (Obj.TICK_NUMBER p) → z.mode ≠ 0 → z.decided = false →
       f.job = z.jobId → f.module ≠ z.self → f.module < z.modules → f.kind = 2 → SMap.get? z.r2 f.module = none →
       Gives (.tickStatusRx port at_ f) s (fun t =>
         (t.pt p).settling = some { z with r2 := SMap.ins z.r2 f.module ⟨f.units, f.mb, f.buckets, f.heard⟩ })) ∧
     (s.portUp port = true → s.ownerOfPort port = some p.val → f.tick + 1 ≠ s.rg (Obj.TICK_NUMBER p) →
       Gives (.tickStatusRx port at_ f) s (fun t => (t.pt p).settling = some z ∧
         t.rg (Obj.TICK_MISMATCH p) = (s.rg (Obj.TICK_MISMATCH p) + 1) % 2 ^ 64)) ∧
     (s.portUp port = true → s.ownerOfPort port = some p.val → f.tick + 1 = s.rg (Obj.TICK_NUMBER p) → z.mode ≠ 0 →
       f.job = z.jobId → f.module ≠ z.self → f.module < z.modules → f.kind = 1 → (SMap.get? z.r1 f.module).isSome = true →
       Gives (.tickStatusRx port at_ f) s (fun t => (t.pt p).settling = some z))) ∧
  (∀ (p : PartId) (recMb recBuckets : Nat) (z : Settling) (s : State), (s.pt p).settling = some z → z.mode = 1 → z.decided = false →
     (z.modules ≤ 1 ∨ z.sentR2 = true) → s.rg (Obj.REPLAY p) ≠ 1 →
     let silent := z.silentSet
     Gives (.settleDecide p recMb recBuckets) s (fun t => ∃ y, (t.pt p).settling = some y ∧ y.decided = true ∧ y.silent = silent ∧
       y.dropped = (if silent ≠ 0 then z.view2.mb ||| z.jobMb else z.view2.mb) ∧
       y.missing = (if silent ≠ 0 then z.view2.bk ||| z.jobBkt else z.view2.bk) ∧ y.lateM = z.view2.late ∧
       ((∃ m, m < z.modules ∧ m ≠ z.self ∧ SMap.get? z.r2 m = none) → y.fault = true)))

/-- STATUS_RECORD_WRITE (R69): the settled tick, the outcome, the silent modules and, for a slice, the decided maps and the late units
stand in the status record; JOB_COMPLETE (R80): the job is COMPLETE, its pins are gone, and it waits no more. The model's choices: log 20 and 24. -/
def Obligations.StatusRecordAndCompletion : Prop :=
  ∀ (p : PartId) (z : Settling) (s : State), (s.pt p).settling = some z →
    (z.recorded = false → (z.mode = 0 ∨ z.decided = true) →
      Gives (.statusRecordWrite p) s (fun t =>
        (∃ y, (t.pt p).settling = some y ∧ y.recorded = true) ∧
        t.rg (Obj.SETTLED_TICK p) = z.tick % 2 ^ 64 ∧ t.rg (Obj.OUTCOME p) = z.outcome ∧
        t.rg (Obj.MB_DROPPED p) = (if z.mode = 1 then z.dropped % 2 ^ 64 else 0) ∧
        t.rg (Obj.BUCKETS_MISSING p) = (if z.mode = 1 then z.missing % 2 ^ 64 else 0) ∧
        t.rg (Obj.LATE_MODULES p) = (if z.mode = 1 then z.lateM % 2 ^ 64 else 0) ∧
        t.rg (Obj.SILENT_MODULES p) = z.silent % 2 ^ 64 ∧
        t.rg (Obj.LATE_UNITS p) = (if z.mode = 1 then z.late % 2 ^ 64 else 0))) ∧
    (z.mode = 1 → z.recorded = true → z.final = true → z.fault = false → s.jobState p z.job = jsTicking →
      Gives (.jobComplete p) s (fun t =>
        t.jobState p z.job = jsComplete ∧ (∀ kv ∈ (t.pt p).pins, kv.1 / 4 ≠ z.job) ∧ (∀ kv ∈ (t.pt p).streamPins, kv.1 / 4 ≠ z.job) ∧
        z.job ∉ (t.pt p).order))

/-- What the commands of ticks and settlement leave alone: the plant, DOMAIN objects, pages, prefixes, RoCEv2 queue pairs and regions,
filters, and the open sessions with their rights. The model's choice: log 10. -/
def Obligations.TickCommandFrame : Prop :=
  ∀ (p : PartId) (port : PortId) (at_ a b : Nat) (bad : List Nat) (f : StatusFrame) (i : Instr) (s t : State),
    (i = .tickEdge p ∨ i = .closingGuard p ∨ i = .round2Send p ∨ i = .tickStatusRx port at_ f ∨ i = .settleDecide p a b ∨
     i = .statusRecordWrite p ∨ i = .jobComplete p ∨ i = .crownProgramLoad p bad ∨ i = .tickGeneratorRestart p) →
    exec i s = .next t →
    SamePlant s t ∧ t.doms = s.doms ∧ t.pages = s.pages ∧ t.prefixes = s.prefixes ∧ t.qps = s.qps ∧ t.regions = s.regions ∧
    t.filters = s.filters ∧ t.trainTemp = s.trainTemp ∧
    t.sessions.map (fun x => (x.id, x.role, x.part, x.key, x.open_)) = s.sessions.map (fun x => (x.id, x.role, x.part, x.key, x.open_))
/-! ## Crown instructions (02_tick_and_schedule.md R73 to R78) -/

/-- The results of the register instructions (R75): each completes with its value in RD, x0 keeping 0, and the next word in turn. The
model's choice: log 11. -/
def Obligations.CrownRegisterResults : Prop :=
  ∀ (p : PartId) (c : ClusterId) (rd rs1 rs2 : RegId) (imm : BitVec 32) (sh : BitVec 6) (s : State),
    let x := (s.cl c).crown
    let a := x.reg rs1
    let b := x.reg rs2
    let ok := fun (i : Instr) (k : Nat) (v : Word) => AtCore s p c i →
      Gives i s (fun t => Retired k (x.pc + 8) rd v x (t.cl c).crown)
    ok (.li c rd imm) 1 (imm.signExtend 64) ∧
    ok (.lih c rd imm) 1 (imm ++ (x.reg rd).extractLsb' 0 32) ∧
    ok (.add c rd rs1 rs2) 1 (a + b) ∧
    ok (.addi c rd rs1 imm) 1 (a + imm.signExtend 64) ∧
    ok (.sub c rd rs1 rs2) 1 (a - b) ∧
    ok (.and_ c rd rs1 rs2) 1 (a &&& b) ∧
    ok (.or_ c rd rs1 rs2) 1 (a ||| b) ∧
    ok (.xor_ c rd rs1 rs2) 1 (a ^^^ b) ∧
    ok (.shl c rd rs1 sh) 1 (a <<< sh.toNat) ∧
    ok (.shr c rd rs1 sh) 1 (a >>> sh.toNat) ∧
    ok (.mul c rd rs1 rs2) 3 (a * b) ∧
    ok (.sltu c rd rs1 rs2) 1 (if a.toNat < b.toNat then 1 else 0)

/-- LD, ST and LDZ (R75): LD reads 8 B of batt memory in 4 cycles, ST writes the 8 B of RS2 in 1 cycle, and LDZ reads a summary register;
a batt address that is not a multiple of 8, or lies outside, stops the core, and so does a parity hit of LD. Of two writes of one cycle to
one byte that of the core stands, and the first such collision of a byte counts; a read sees the bytes as before the cycle (R186). The
model's choices: log 11 and 100. -/
def Obligations.CrownMemoryInstructions : Prop :=
  ∀ (p : PartId) (c : ClusterId) (rd rs1 rs2 : RegId) (imm : BitVec 32) (z : BitVec 4) (s : State),
    let x := (s.cl c).crown
    let a := (x.reg rs1 + imm.signExtend 64).toNat
    let good := a % 8 = 0 ∧ a < 4 * 2 ^ 20
    let cl := (s.cl c).before x.cycle
    (AtCore s p c (.ld c rd rs1 imm) → good → cl.battBad a 8 = false →
      Gives (.ld c rd rs1 imm) s (fun t =>
        Retired 4 (x.pc + 8) rd (BitVec.ofNat 64 (leNat (cl.battBytes a 8))) x (t.cl c).crown)) ∧
    (AtCore s p c (.st c rs1 rs2 imm) → good →
      Gives (.st c rs1 rs2 imm) s (fun t =>
        Retired 1 (x.pc + 8) 0 0 x (t.cl c).crown ∧ (t.cl c).battBytes a 8 = leBytes 8 (x.reg rs2).toNat ∧ (t.cl c).battBad a 8 = false ∧
        (∀ b, (b < a ∨ a + 8 ≤ b) → (t.cl c).battRead b 1 = (s.cl c).battRead b 1) ∧
        ((s.cl c).writes = ⟨x.cycle, [(.nap, a, (s.cl c).battRead a 8)]⟩ →
          SMap.getD 0 t.open_ (ctrKey p 1 c (wEvent 2)) = SMap.getD 0 s.open_ (ctrKey p 1 c (wEvent 2)) + 8))) ∧
    (AtCore s p c (.ldz c rd z) →
      Gives (.ldz c rd z) s (fun t =>
        Retired 1 (x.pc + 8) rd (BitVec.ofNat 64 ((s.cl c).zRead z.toNat)) x (t.cl c).crown)) ∧
    (AtCore s p c (.ld c rd rs1 imm) → (¬ good ∨ cl.battBad a 8 = true) →
      Gives (.ld c rd rs1 imm) s (fun t => (t.cl c).crown = { x with mode := .stopped })) ∧
    (AtCore s p c (.st c rs1 rs2 imm) → ¬ good →
      Gives (.st c rs1 rs2 imm) s (fun t => (t.cl c).crown = { x with mode := .stopped } ∧ (t.cl c).batt = (s.cl c).batt))

/-- The instructions that steer a program (R75, R76): NOP, JMP, LOOP, DONE, WAIT whose items complete before the edge, UNTIL of a passed
cycle, and UNTIL of a later one with the UNTIL_REACHED that ends it; a WAIT with an item that has not completed, or that completes at the
edge or after, holds the core. A parity error in the word at the program address stops the core, whatever the word holds (R73). The model's
choice: log 11. -/
def Obligations.CrownFlowInstructions : Prop :=
  (∀ (p : PartId) (c : ClusterId) (imm : BitVec 32) (body : BitVec 16) (count : BitVec 32) (cls : BitVec 3) (n : BitVec 16) (s : State),
     let x := (s.cl c).crown
     (AtCore s p c (.nop c) → Gives (.nop c) s (fun t => Retired 1 (x.pc + 8) 0 0 x (t.cl c).crown)) ∧
     (AtCore s p c (.jmp c imm) → Gives (.jmp c imm) s (fun t => Retired 1 imm.toNat 0 0 x (t.cl c).crown)) ∧
     (AtCore s p c (.loop c body count) → 1 ≤ body.toNat →
       Gives (.loop c body count) s (fun t =>
         (t.cl c).crown.pc = x.pc + 8 ∧ (t.cl c).crown.cycle = x.cycle + 1 ∧
         (t.cl c).crown.loops = ⟨x.pc + 8, x.pc + 8 + 8 * body.toNat, count.toNat - 1⟩ :: x.loops.take 3)) ∧
     (AtCore s p c (.done c) → Gives (.done c) s (fun t => (t.cl c).crown.mode = .done ∧ (t.cl c).crown.cycle = x.cycle + 1)) ∧
     (∀ d r, AtCore s p c (.wait c cls n imm) →
       s.waitDone p c cls.toNat ((List.range (n.toNat + 1)).map (fun i => imm.toNat + i)) = some (d, r) → d < (s.pt p).edgeCycle →
       Gives (.wait c cls n imm) s (fun t => Retired (Nat.max x.cycle d - x.cycle + 1) (x.pc + 8) 0 0 x (t.cl c).crown)) ∧
     (AtCore s p c (.wait c cls n imm) →
       (∀ d r, s.waitDone p c cls.toNat ((List.range (n.toNat + 1)).map (fun i => imm.toNat + i)) = some (d, r) → (s.pt p).edgeCycle ≤ d) →
       Gives (.wait c cls n imm) s (fun t => (t.cl c).crown = { x with mode := .waiting })) ∧
     (AtCore s p c (.until_ c imm) → imm.toNat ≤ x.cycle →
       Gives (.until_ c imm) s (fun t => Retired 1 (x.pc + 8) 0 0 x (t.cl c).crown)) ∧
     (AtCore s p c (.until_ c imm) → x.cycle < imm.toNat →
       Gives (.until_ c imm) s (fun t => (t.cl c).crown = { x with mode := .until_ imm.toNat })) ∧
     (∀ k, s.ownerOfCluster c = some p.val → s.coreLive p c = true → x.mode = .until_ k → x.cycle ≤ k → k < (s.pt p).edgeCycle →
       Gives (.untilReached c) s (fun t => Retired (k + 1 - x.cycle) (x.pc + 8) 0 0 x (t.cl c).crown))) ∧
  (∀ (p : PartId) (c : ClusterId) (i : Instr) (s : State), crownCluster i = some c →
     s.ownerOfCluster c = some p.val → s.coreRuns p c = true → ((s.cl c).crown.wordAt (s.cl c).crown.pc).2 = true →
     Gives i s (fun t => (t.cl c).crown = { (s.cl c).crown with mode := .stopped }))

/-- Branch points (R70, R71, R77): BRANCH goes on at the table word of the alternative that its summary selects, alternative 0 on a
pending summary, ENDA at or before its JOIN idles until the JOIN, JOIN_RESUME goes on after the alternatives JOIN cycles after the branch point, and an ENDA after its
JOIN goes on at once with the slice late. A parity error in the table word of the alternative stops the core (R73). The model's choice:
log 11. -/
def Obligations.CrownBranchInstructions : Prop :=
  ∀ (p : PartId) (c : ClusterId) (z : BitVec 4) (flag : Bool) (b : BitVec 6) (alts : BitVec 2) (join : BitVec 32) (s : State),
    let x := (s.cl c).crown
    let k := zAlternative ((s.cl c).zRead z.toNat) flag b.toNat (alts.toNat + 1)
    (AtCore s p c (.branch c z flag b alts join) → s.zPending c z.toNat = false → (x.wordAt (x.pc + 8 + 8 * k)).2 = false →
      Gives (.branch c z flag b alts join) s (fun t =>
        Retired 1 (x.altAddr x.pc k) 0 0 x (t.cl c).crown ∧
        (t.cl c).crown.branches = ⟨x.resumeAddr c x.pc (alts.toNat + 1), x.cycle + join.toNat, false⟩ :: x.branches)) ∧
    (AtCore s p c (.branch c z flag b alts join) → s.zPending c z.toNat = true → (x.wordAt (x.pc + 8)).2 = false →
      Gives (.branch c z flag b alts join) s (fun t => Retired 1 (x.altAddr x.pc 0) 0 0 x (t.cl c).crown)) ∧
    (AtCore s p c (.branch c z flag b alts join) → s.zPending c z.toNat = false → (x.wordAt (x.pc + 8 + 8 * k)).2 = true →
      Gives (.branch c z flag b alts join) s (fun t => (t.cl c).crown = { x with mode := .stopped })) ∧
    (∀ f fs, AtCore s p c (.enda c) → x.branches = f :: fs → x.cycle ≤ f.joinAt →
      Gives (.enda c) s (fun t => (t.cl c).crown.mode = .join f.joinAt f.resume ∧ (t.cl c).crown.branches = fs ∧
        (t.cl c).crown.cycle = x.cycle + 1)) ∧
    (∀ f fs, AtCore s p c (.enda c) → x.branches = f :: fs → f.joinAt < x.cycle → f.overrun = false →
      Gives (.enda c) s (fun t => (t.cl c).crown.pc = (loopNext x.loops f.resume).1 ∧ (t.cl c).crown.branches = fs ∧
        ∀ r, (t.pt p).slice = some r → r.late.testBit c.val = true)) ∧
    (∀ n pc, s.ownerOfCluster c = some p.val → s.coreLive p c = true → x.mode = .join n pc → x.cycle ≤ n + 1 → n < (s.pt p).edgeCycle →
      Gives (.joinResume c) s (fun t => (t.cl c).crown.pc = (loopNext x.loops pc).1 ∧ (t.cl c).crown.cycle = n + 1 ∧
        (t.cl c).crown.mode = .running))

/-- Issue (R75, R92, R93, R169): from an aligned descriptor inside batt memory, with room in the queue and before the closing guard, ISSA
and ISSN put the 32 B descriptor into the queue in the retiring cycle I(n); a full queue holds the core at the instruction, and a bad
descriptor address stops the core. The model's
choice: log 11. -/
def Obligations.CrownIssueInstructions : Prop :=
  ∀ (p : PartId) (c : ClusterId) (arr : BitVec 4) (discard : Bool) (tag : BitVec 7) (rs1 : RegId) (imm : BitVec 32) (s : State),
    let x := (s.cl c).crown
    let a := (x.reg rs1 + imm.signExtend 64).toNat
    let at_ := fun (k : Nat) => (s.cl c).before k
    let y := (s.cl c).arr arr.toNat
    let i := issueCycle x.cycle (y.streams.map (·.1))
    let j := issueCycle x.cycle (List.replicate (s.cl c).nap.queue.length 0 ++ (s.cl c).nap.recent)
    let good := a % 8 = 0 ∧ a + 32 ≤ 4 * 2 ^ 20
    (AtCore s p c (.issa c arr discard tag rs1 imm) → good → y.queue.length < 4 → i < (s.pt p).guardCycle →
      Gives (.issa c arr discard tag rs1 imm) s (fun t =>
        (∃ o, ((t.cl c).arr arr.toNat).queue = y.queue ++ [o] ∧ o.desc = BitVec.ofNat 256 (leNat ((at_ i).battBytes a 32)) ∧ o.bad = (at_ i).battBad a 32 ∧ o.discard = discard ∧
          o.tag = tag.toNat ∧ o.issue = i ∧ o.start = Nat.max (i + 4) y.lastEnd) ∧
        (t.cl c).crown.cycle = i + 1 ∧ (t.cl c).crown.pc = (loopNext x.loops (x.pc + 8)).1)) ∧
    (AtCore s p c (.issn c rs1 imm) → good → (s.cl c).nap.queue.length < 4 → j < (s.pt p).guardCycle →
      Gives (.issn c rs1 imm) s (fun t =>
        (t.cl c).nap.queue = (s.cl c).nap.queue ++ [⟨BitVec.ofNat 256 (leNat ((at_ j).battBytes a 32)), (at_ j).battBad a 32, j⟩] ∧
        (t.cl c).crown.cycle = j + 1 ∧ (t.cl c).crown.pc = (loopNext x.loops (x.pc + 8)).1)) ∧
    (AtCore s p c (.issa c arr discard tag rs1 imm) → good → 4 ≤ y.queue.length →
      Gives (.issa c arr discard tag rs1 imm) s (fun t => (t.cl c).crown = { x with mode := .waiting } ∧
        ((t.cl c).arr arr.toNat).queue = y.queue)) ∧
    (AtCore s p c (.issn c rs1 imm) → good → 4 ≤ (s.cl c).nap.queue.length →
      Gives (.issn c rs1 imm) s (fun t => (t.cl c).crown = { x with mode := .waiting } ∧ (t.cl c).nap.queue = (s.cl c).nap.queue)) ∧
    (AtCore s p c (.issa c arr discard tag rs1 imm) → ¬ good →
      Gives (.issa c arr discard tag rs1 imm) s (fun t => (t.cl c).crown = { x with mode := .stopped })) ∧
    (AtCore s p c (.issn c rs1 imm) → ¬ good →
      Gives (.issn c rs1 imm) s (fun t => (t.cl c).crown = { x with mode := .stopped }))

/-- What a crown instruction leaves alone: device memory, the other clusters and partitions, the tables, sessions and the plant, every
register object but the trace's own two, every core register but RD, the Nap engine's T, B and summary registers, and, but for the
instructions that write them, batt memory, tiles, queues and the Nap operation in progress. -/
def Obligations.CrownInstructionFrame : Prop :=
  ∀ (p : PartId) (c : ClusterId) (i : Instr) (s t : State), crownCluster i = some c → s.ownerOfCluster c = some p.val →
    exec i s = .next t →
    SameMemory s t ∧ SameOtherClusters c s t ∧ SameOtherParts p s t ∧ SameTables s t ∧ SamePlant s t ∧ t.sessions = s.sessions ∧
    t.doms = s.doms ∧ t.out = s.out ∧
    (∀ k, k ≠ Obj.TRACE_GAPS p → k ≠ Obj.TRIGGER_TICK p → t.rg k = s.rg k) ∧
    (∀ r, crownRd i ≠ some r → (t.cl c).crown.reg r = (s.cl c).crown.reg r) ∧
    ((∀ rs1 rs2 imm, i ≠ .st c rs1 rs2 imm) → (t.cl c).batt = (s.cl c).batt ∧ (t.cl c).cap = (s.cl c).cap) ∧
    ((∀ arr dis tag rs1 imm, i ≠ .issa c arr dis tag rs1 imm) → (t.cl c).arrays = (s.cl c).arrays ∧ (t.cl c).tiles = (s.cl c).tiles) ∧
    (t.cl c).nap.t = (s.cl c).nap.t ∧ (t.cl c).nap.b = (s.cl c).nap.b ∧ (t.cl c).nap.z = (s.cl c).nap.z ∧
    ((∀ rs1 imm, i ≠ .issn c rs1 imm) → (t.cl c).nap.queue = (s.cl c).nap.queue) ∧
    ((∀ rs1 rs2 imm, i ≠ .st c rs1 rs2 imm) → (∀ arr dis tag rs1 imm, i ≠ .issa c arr dis tag rs1 imm) →
      (t.cl c).nap.run = (s.cl c).nap.run)

/-! ## Fulling arrays and the gauge unit (03_fulling_arrays.md, 04_numerics.md) -/

/-- An operation at the head of an array's queue starts (R89, R93, R97, R107, R108, R113): it leaves the queue and flies with its result.
The elements of a PRODUCT are its rounded contributions, with SAT and NAN joined and POISON set by a parity hit in an operand or in the
tile; a PRELOAD takes elements, SAT and NAN from its image; an illegal descriptor gives the tile with POISON, and one found with bad parity
in the queue is illegal (R279). The model's choice: log 33. -/
def Obligations.ArrayOperationsStart : Prop :=
  ∀ (p : PartId) (c : ClusterId) (a : ArrayId) (par : Bool) (o : ArrOp) (rest : List ArrOp) (s : State),
    let x := (s.cl c).arr a
    let cl := s.cl c
    let d := o.desc
    let old := cl.flightTile a (64 * a.val + Ad.tile.get d)
    let acc := fun (e : Nat) => accumulate (if Ad.add.get d = 1 then old.elem e else 0) (contributions (operandA d) (operandB d) cl (e / 16) (e % 16))
    s.ownerOfCluster c = some p.val → x.queue = o :: rest →
    (s.headStarts c a 1 = true → Gives (.product c a par) s (fun t =>
      ((t.cl c).arr a).queue = rest ∧ ∃ r, ((t.cl c).arr a).flight = x.flight ++ [{ o with result := r }] ∧
        (∀ e, e < 256 → r.elem e = (acc e).1 % 2 ^ 40) ∧
        (r.sat = true ↔ (Ad.add.get d = 1 ∧ old.sat = true) ∨ ∃ e, e < 256 ∧ (acc e).2.1 = true) ∧
        (r.nan = true ↔ (Ad.add.get d = 1 ∧ old.nan = true) ∨ ∃ e, e < 256 ∧ (acc e).2.2 = true) ∧
        r.poison = (old.poison || (par || (operandA d).bad cl || (operandB d).bad cl)))) ∧
    (s.headStarts c a 2 = true → Gives (.preload c a par) s (fun t =>
      ((t.cl c).arr a).queue = rest ∧ ∃ r, ((t.cl c).arr a).flight = x.flight ++ [{ o with result := r }] ∧
        (∀ e, e < 256 → r.elem e = leNat (cl.battBytes (Ad.aAddr.get d + 5 * e) 5)) ∧
        r.sat = (leNat (cl.battBytes (Ad.aAddr.get d + 1280) 1)).testBit 0 ∧ r.nan = (leNat (cl.battBytes (Ad.aAddr.get d + 1280) 1)).testBit 1)) ∧
    (s.headStarts c a 0 = true → Gives (.illegalDescriptor c ⟨a, false⟩) s (fun t =>
      ((t.cl c).arr a).queue = rest ∧ ∃ r, ((t.cl c).arr a).flight = x.flight ++ [{ o with result := r }] ∧
        r.poison = true ∧ r.elems = old.elems)) ∧
    (s.headMay c a = true → Gives (.illegalDescriptor c ⟨a, true⟩) s (fun t =>
      ∃ o', ((t.cl c).arr a).flight = x.flight ++ [o'] ∧ o'.bad = true ∧ o'.desc = d ∧ o'.result.poison = true))

/-- The started operation of an array that completes next does so (R89, R93, R112): its value and flags become those of its tile, kept
CONFLICT and POISON joined, and the completion cycle is noted; an illegal one leaves the elements of the tile and sets POISON; no other
tile changes. The gauge unit's evaluation ends (R155 to R157): the sample slot is free again, and the kind's sample count, or the count of
samples that hold an infinity or a NaN, has risen by one; above the threshold the kind's alert count has risen too. The model's choices:
log 33 and 35. -/
def Obligations.ArrayCompletionAndGauge : Prop :=
  (∀ (p : PartId) (c : ClusterId) (a : ArrayId) (o : ArrOp) (rest : List ArrOp) (s : State),
     let n := 64 * a.val + Ad.tile.get o.desc
     s.ownerOfCluster c = some p.val → firstComplete ((s.cl c).arr a).flight = some (o, rest) → o.complete < (s.pt p).edgeCycle →
     Gives (.arrayComplete c a) s (fun t =>
       ((t.cl c).arr a).flight = rest ∧ ((t.cl c).tile n).doneAt = o.complete ∧ (∀ m, m ≠ n → (t.cl c).tile m = (s.cl c).tile m) ∧
       (o.bad = false → descLegal o.desc = true →
         ((t.cl c).tile n).elems = o.result.elems ∧ ((t.cl c).tile n).sat = o.result.sat ∧ ((t.cl c).tile n).nan = o.result.nan ∧
         ((t.cl c).tile n).conflict = (o.result.conflict || ((s.cl c).tile n).conflict) ∧
         ((t.cl c).tile n).poison = (o.result.poison || ((s.cl c).tile n).poison)) ∧
       ((o.bad = true ∨ descLegal o.desc = false) →
         ((t.cl c).tile n).elems = ((s.cl c).tile n).elems ∧ ((t.cl c).tile n).poison = true))) ∧
  (∀ (q : QuarterId) (p : PartId) (g : GaugeSample) (s : State),
     SMap.get? (s.pt p).gauge q = some g → (s.pt p).slice.isSome = true → g.finish ≤ (s.pt p).edgeCycle → g.kind < 5 →
     Gives (.gaugeEvalDone q p) s (fun t =>
       SMap.get? (t.pt p).gauge q = none ∧
       match gaugeError g.tile with
       | none => t.rg (Obj.GAUGE_NONFINITE p) = (s.rg (Obj.GAUGE_NONFINITE p) + 1) % 2 ^ 64 ∧
           t.rg (Obj.GAUGE_SAMPLES p g.kind) = s.rg (Obj.GAUGE_SAMPLES p g.kind)
       | some e => t.rg (Obj.GAUGE_SAMPLES p g.kind) = (s.rg (Obj.GAUGE_SAMPLES p g.kind) + 1) % 2 ^ 64 ∧
           t.rg (Obj.GAUGE_NONFINITE p) = s.rg (Obj.GAUGE_NONFINITE p) ∧
           t.rg (Obj.GAUGE_ALERTS p g.kind) =
             (s.rg (Obj.GAUGE_ALERTS p g.kind) +
               (if (fFP32.decode (s.num p (Obj.GAUGE_THRESHOLD g.kind))).lt (fFP32.decode e) then 1 else 0)) % 2 ^ 64))

/-- What the array commands leave alone: device memory, tables, sessions and plant, batt memory, the Nap registers T, B and the summaries,
the crown core, the other arrays, and the other clusters and partitions. What the Nap commands leave alone: device memory, tables, sessions and plant, the crown core, the arrays, and the other
clusters and partitions. The model's choice: log 10. -/
def Obligations.ArrayAndNapFrame : Prop :=
  (∀ (p : PartId) (c : ClusterId) (a : ArrayId) (par : Bool) (i : Instr) (s t : State),
     (i = .product c a par ∨ i = .preload c a par ∨ i = .illegalDescriptor c ⟨a, par⟩ ∨ i = .arrayComplete c a) →
     s.ownerOfCluster c = some p.val → exec i s = .next t →
     SameMemory s t ∧ SameOtherClusters c s t ∧ SameOtherParts p s t ∧ SameTables s t ∧ SamePlant s t ∧ t.sessions = s.sessions ∧
     t.doms = s.doms ∧ (t.cl c).batt = (s.cl c).batt ∧ (t.cl c).nap.t = (s.cl c).nap.t ∧ (t.cl c).nap.b = (s.cl c).nap.b ∧
     (t.cl c).nap.z = (s.cl c).nap.z ∧ (t.cl c).crown = (s.cl c).crown ∧ ∀ b : ArrayId, b ≠ a → (t.cl c).arr b = (s.cl c).arr b) ∧
  (∀ (p : PartId) (c : ClusterId) (par : Bool) (bad : List Nat) (i : Instr) (s t : State),
     (i = .run c bad ∨ i = .scale c ∨ i = .amaxNote c ∨ i = .summaryLoad c ∨ i = .summaryStore c ∨ i = .napIllegal ⟨c, par⟩ ∨ i = .napOpEnd c) →
     s.ownerOfCluster c = some p.val → exec i s = .next t →
     SameMemory s t ∧ SameOtherClusters c s t ∧ SameOtherParts p s t ∧ SameTables s t ∧ SamePlant s t ∧ t.sessions = s.sessions ∧
     t.doms = s.doms ∧ (t.cl c).crown = (s.cl c).crown ∧ (t.cl c).arrays = (s.cl c).arrays)
/-! ## Nap engine (05_nap_engine.md) -/

/-- The head of the Nap queue starts (R169, R170, R187, R202): a RUN becomes the running operation for the duration of its program, with
the read windows of its program, and a SCALE for 40 cycles, with its scale. An operation ends (R170, R198, R202): the engine is free from
its end cycle on, the queue is as before, a RUN has set VALID of its summary, and a SCALE has written its scale to batt memory, where no
other port wrote there in that cycle. The model's choices: log 36, 37, 40 and 100. -/
def Obligations.NapOperations : Prop :=
  (∀ (p : PartId) (c : ClusterId) (bad : List Nat) (o : NapOp) (rest : List NapOp) (st : Nat) (s : State),
     let x := (s.cl c).nap
     s.ownerOfCluster c = some p.val → x.queue = o :: rest → x.headStart = some st →
     (s.napStarts c 0x10 = true →
       let img := (((s.cl c).fetchImage st (Nd.target.get o.desc)).getD []).map (·.1)
       let prog := parseProg img
       let it := Nd.iterations.get o.desc
       Gives (.run c bad) s (fun t => (t.cl c).nap.queue = rest ∧ ∃ saved, (t.cl c).nap.run =
         some ⟨o, st, st + prog.duration img.length it, false, img, true, [], runWindows prog img.length (napBases o.desc) it st, saved⟩)) ∧
     (s.napStarts c 0x11 = true → Gives (.scale c) s (fun t => (t.cl c).nap.queue = rest ∧
       (t.cl c).nap.run = some ⟨o, st, st + 40, false, leBytes 4 (s.scaleOf p o.desc).1, false, [], [], []⟩))) ∧
  (∀ (p : PartId) (c : ClusterId) (r : NapRun) (s : State),
     let d := r.op.desc
     s.ownerOfCluster c = some p.val → (s.cl c).nap.run = some r → (s.pt p).slice.isSome = true → r.finish < (s.pt p).edgeCycle →
     Gives (.napOpEnd c) s (fun t =>
       (t.cl c).nap.run = none ∧ (t.cl c).nap.lastEnd = r.finish ∧ (t.cl c).nap.queue = (s.cl c).nap.queue ∧
       (r.illegal = false → Nd.opcode.get d = 0x10 → Nd.summary.get d ≠ 15 →
         (SMap.getD 0 (t.cl c).nap.z (Nd.summary.get d)).toNat.testBit zValid = true) ∧
       (r.illegal = false → Nd.opcode.get d = 0x11 → (s.cl c).writes.at r.finish = [] →
         (t.cl c).battBytes ((Nd.base 1).get d) 4 = leBytes 4 (leNat r.image))))

/-- An illegal operation (R173) occupies the engine for 4 cycles and reads and writes nothing: batt memory, tiles, the T and B registers
and device memory stay. POISON and VALID of its summary are set at its end (Z15 stays read-only, R199), the illegal-operation counter of
its cluster advances, and the slice is late. One found with bad parity in the queue is illegal too (R279). -/
def Obligations.IllegalNapOperation : Prop :=
  ∀ (p : PartId) (c : ClusterId) (par : Bool) (o : NapOp) (rest : List NapOp) (st : Nat) (r : NapRun) (s : State), s.ownerOfCluster c = some p.val →
    let operands := fun (t : State) => (t.cl c).batt = (s.cl c).batt ∧ (t.cl c).tiles = (s.cl c).tiles ∧ (t.cl c).nap.t = (s.cl c).nap.t ∧
      (t.cl c).nap.b = (s.cl c).nap.b ∧ SameMemory s t
    ((s.cl c).nap.queue = o :: rest → (s.cl c).nap.headStart = some st →
      (s.napStarts c 0 = true ∨ (par = true ∧ s.napMay c = true)) →
      Gives (.napIllegal ⟨c, par⟩) s (fun t => operands t ∧ (t.cl c).nap.queue = rest ∧
        (t.cl c).nap.run = some ⟨o, st, st + 4, true, [], false, [], [], []⟩ ∧ (t.cl c).nap.z = (s.cl c).nap.z ∧
        SMap.getD 0 t.open_ (ctrKey p 1 c (wEvent 0)) = SMap.getD 0 s.open_ (ctrKey p 1 c (wEvent 0)) + 1 ∧
        ∃ r', (t.pt p).slice = some r' ∧ r'.late.testBit c.val = true)) ∧
    ((s.cl c).nap.run = some r → r.illegal = true → (s.pt p).slice.isSome = true → r.finish < (s.pt p).edgeCycle →
      let z := Nd.summary.get r.op.desc
      Gives (.napOpEnd c) s (fun t => operands t ∧ (t.cl c).nap.run = none ∧ (t.cl c).nap.lastEnd = r.finish ∧
        (z ≠ 15 → (SMap.getD 0 (t.cl c).nap.z z).toNat.testBit zPoison = true ∧
          (SMap.getD 0 (t.cl c).nap.z z).toNat.testBit zValid = true) ∧
        ∀ k, (k ≠ z ∨ k = 15) → SMap.getD 0 (t.cl c).nap.z k = SMap.getD 0 (s.cl c).nap.z k))

/-- AMAX_NOTE, SUMMARY_STORE and SUMMARY_LOAD (R203): each runs for 8 cycles with what it reads at its start; at its end the note is held
(R147: a note beyond the 4,096th is refused and counted), the summary lies at TARGET but for bytes that the core wrote in that cycle (R186),
and the summary register has the word of TARGET without its reserved bits, with VALID set, and with GAUGE as the cluster's gauge state gives
it (R199). The model's choices: log 40 and 100. -/
def Obligations.SummaryAndNoteOperations : Prop :=
  ∀ (p : PartId) (c : ClusterId) (o : NapOp) (rest : List NapOp) (st : Nat) (r : NapRun) (s : State), s.ownerOfCluster c = some p.val →
    let begins := fun (i : Instr) (img : List Byte) =>
      Gives i s (fun t => (t.cl c).nap.queue = rest ∧ (t.cl c).nap.run = some ⟨o, st, st + 8, false, img, false, [], [], []⟩)
    ((s.cl c).nap.queue = o :: rest → (s.cl c).nap.headStart = some st →
      let a := Nd.target.get o.desc
      (s.napStarts c 0x12 = true → begins (.amaxNote c) (leBytes 4 ((s.cl c).zRead ((Nd.base 1).get o.desc) / 2 ^ 32))) ∧
      (s.napStarts c 0x13 = true → begins (.summaryLoad c) (((s.cl c).before st).battBytes a 8 ++ (if ((s.cl c).before st).battBad a 8 then [1] else [0]))) ∧
      (s.napStarts c 0x14 = true → begins (.summaryStore c) (leBytes 8 ((s.cl c).zRead (Nd.summary.get o.desc))))) ∧
    ((s.cl c).nap.run = some r → r.illegal = false → (s.pt p).slice.isSome = true → r.finish < (s.pt p).edgeCycle →
      let d := r.op.desc
      let k := Nd.summary.get d
      Gives (.napOpEnd c) s (fun t => (t.cl c).nap.run = none ∧ (t.cl c).nap.lastEnd = r.finish ∧
        (Nd.opcode.get d = 0x12 → (s.pt p).notes.length < 4096 →
          (t.pt p).notes = (s.pt p).notes ++ [⟨Nd.target.get d, (Nd.base 0).get d, leNat r.image⟩]) ∧
        (Nd.opcode.get d = 0x12 → 4096 ≤ (s.pt p).notes.length →
          (t.pt p).notes = (s.pt p).notes ∧ t.rg (Obj.NOTE_OVERFLOW p) = (s.rg (Obj.NOTE_OVERFLOW p) + 1) % 2 ^ 32) ∧
        (Nd.opcode.get d = 0x14 → ∀ k, k < r.image.length → (t.cl c).battBytes (Nd.target.get d + k) 1 =
          (if (portsAt ((s.cl c).writes.at r.finish) (Nd.target.get d + k)).contains .crown then (s.cl c).battBytes (Nd.target.get d + k) 1
           else (r.image.drop k).take 1)) ∧
        (Nd.opcode.get d = 0x13 → k ≠ 15 →
          let w := leNat (r.image.take 8)
          let z := (SMap.getD 0 (t.cl c).nap.z k).toNat
          (∀ b, b < 64 → b ≠ zValid → b ≠ zGauge → (b = zPoison → imgField r.image 8 1 ≠ 1) →
            z.testBit b = (w.testBit b && !zReserved.testBit b)) ∧
          z.testBit zValid = true ∧ ((t.cl c).zRead k).testBit zGauge = (t.cl c).gaugeBit)))

/-! ## Number formats (04_numerics.md) -/

/-- MXINT8 (R121): the code 0x80 reads as −2.0, and no block that is converted or stored in MXINT8 holds it: its codes are those of −127
to 127. -/
def Obligations.MxInt8Codes : Prop :=
  (decodeElem 0x05 0x80).eq (XVal.ofInt (-2)) = true ∧
  ∀ (outer : Int) (o : Option Int) (bad : Bool) (xs : List XVal) (rs : List Rnd) (code : Nat),
    (code ∈ (quantizeBlock 0x05 outer xs rs).2.1 ∨ code ∈ (storeBlock 0x05 o bad xs rs).2.1) →
    code < 256 ∧ -127 ≤ Sys2Proof.signed 8 code ∧ Sys2Proof.signed 8 code ≤ 127

/-! ## Bursts, Kettle units and Reblock engines (07, 08, 09) -/

/-- Bursts (R72, R260, R261): a burst whose alternative is taken runs from its start position, with the bytes of a good batt source, or
those of the named slot of a Residency source that it may read, in flight; one whose alternative is not taken moves nothing and is over; a
burst that completes is finished at its position, with its bytes in place: in batt memory but for bytes that the core or the Nap engine wrote
in the same cycle (R186, R278), and in the slot of a Residency destination that it may write. A completed burst stores nothing in device
memory where its destination is batt memory or a port queue, and for a Residency destination that is no KV pool, and data without scale
bytes, only the bytes from the named slot's address plus the offset on. The model's choices: log 27, 28, 33 and 100. -/
def Obligations.Bursts : Prop :=
  (∀ (p : PartId) (n at_ : Nat) (errs : AccessErrors) (b k : Nat) (r : SliceRun) (s : State), s.running p = some (b, k, r) →
     let e := s.burst b k n
     let alt := s.altRead p (Bu.alt.get e) (Bu.startNs.get e)
     let from_ := s.burstStart p b k n r
     let len := Bu.length.get e
     let x := r.burst n
     (s.burstReady p n = true → alt = .taken →
       Gives (.burst p n errs) s (fun t => ∃ r', (t.pt p).slice = some r' ∧ (r'.burst n).state = .running ∧ (r'.burst n).start = from_ ∧
         (∀ q l a c, endpointOf (Bu.source.get e) = .batt q l a → s.logicalCluster p q l = some c → a + len ≤ 4 * 2 ^ 20 →
           Bu.convert.get e = 0 → errs.datapath = false → errs.links = 0 → (r'.burst n).data = ((s.cl c).before (t.cycleNow p)).battRead a len) ∧
         (∀ sel slot i off, endpointOf (Bu.source.get e) = .res sel slot i off → Bu.convert.get e = 0 → Bu.build.get e = 0 →
           errs = AccessErrors.none →
           let y := s.resSeen p from_ i
           let m := ResEntry.accessSlot y sel slot
           Rs.enable.get y = 1 → Rs.partition.get y = p.val → s.resTaken i = true → Rs.role.get y ≠ rolePaired → s.inSweep p i = false →
           (s.kvPools p).contains i = false → i ≠ s.rg (Obj.MASK_POOL p) → m ≤ Rs.buffers.get y → off + len ≤ ResEntry.stride y →
           (r'.burst n).data.map (·.1) = s.memBytes (ResEntry.slotAddr y m + off) len))) ∧
     (s.burstReady p n = true → alt = .notTaken →
       Gives (.burst p n errs) s (fun t => SameMemory s t ∧ ∃ r', (t.pt p).slice = some r' ∧ (r'.burst n).state = .notTaken ∧
         (r'.burst n).data = [] ∧ (r'.burst n).finish = from_ + s.burstBound p e)) ∧
     (s.burstEnds p n at_ = true →
       Gives (.burstComplete p n at_ errs) s (fun t => (∃ r', (t.pt p).slice = some r' ∧ (r'.burst n).state = .finished ∧
         (r'.burst n).finish = at_) ∧
         (∀ q l a c, endpointOf (Bu.dest.get e) = .batt q l a → s.logicalCluster p q l = some c → c < 48 →
           a + x.data.length ≤ 4 * 2 ^ 20 → 0 < x.aux → x.data ≠ [] → x.runs = [] →
           ∀ j, j < x.data.length → (t.cl c).battBytes (a + j) 1 =
             (if (portsAt ((s.cl c).writes.at (t.cycleNow p)) (a + j)).any (· != .burst) then (s.cl c).battBytes (a + j) 1
              else ((x.data.map (·.1)).drop j).take 1)) ∧
         (∀ slot i off, endpointOf (Bu.dest.get e) = .res true slot i off → errs = AccessErrors.none → x.runs = [] →
           x.data.length ≤ x.aux → x.data ≠ [] →
           let y := s.resE i
           let a := ResEntry.slotAddr y slot + off
           Rs.enable.get y = 1 → Rs.partition.get y = p.val → s.resTaken i = true → Rs.role.get y ≠ roleGathered → s.inSweep p i = false →
           (s.kvPools p).contains i = false → i ≠ s.rg (Obj.MASK_POOL p) → (s.pt p).copyBound i slot = false → slot ≤ Rs.buffers.get y →
           off + x.data.length ≤ ResEntry.stride y → s.imageBytes a x.data.length = false → s.inRegion a x.data.length = true →
           s.writable a = true → t.memBytes a x.data.length = x.data.map (·.1))))) ∧
  (∀ (p : PartId) (n at_ : Nat) (errs : AccessErrors) (b k : Nat) (r : SliceRun) (s t : State), s.running p = some (b, k, r) →
     exec (.burstComplete p n at_ errs) s = .next t →
     let dst := endpointOf (Bu.dest.get (s.burst b k n))
     let x := r.burst n
     ((∀ sel slot i off, dst ≠ .res sel slot i off) → SameMemory s t) ∧
     (∀ sel slot i off, dst = .res sel slot i off → (s.kvPools p).contains i = false → x.data.length ≤ x.aux →
       (x.runs.map (·.1)).Pairwise (· < ·) →
       SameMemoryOutside (ResEntry.slotAddr (s.resE i) slot + off) x.data.length s t))

/-- Kettle items (R241 to R244, R252): an item of an open sweep whose step scalar record is good advances its sweep by the blocks whose
write groups were accepted, no more than its unit can start before the closing guard, and every one of them counts as updated or as not
finite; one whose record is stale advances nothing and is counted; an item of a sweep that is skipped moves nothing; the FIRST item of a
sweep opens it with the entry's blocks, at once skipped where the weight is frozen; an item that ends is finished. The model's choices:
log 27, 30 and 99. -/
def Obligations.KettleItemsAdvanceSweeps : Prop :=
  ∀ (u : UnitId) (p : PartId) (n blocks at_ : Nat) (errs stores : AccessErrors) (b k : Nat) (r : SliceRun) (s : State),
    s.running p = some (b, k, r) →
    let e := s.kettleEntry b k n
    let slot := Kt.slot.get e
    let w := (s.pt p).sweep u slot
    let from_ := s.kettleStart p b k u n r
    let want := Nat.min (Kt.blocks.get e) (w.blocks - w.progress)
    let accepted := Nat.min (Nat.min blocks want) (blocksBefore (s.pt p).guardPos from_)
    let scalars := (s.scalarRecord (s.kettleAgent p u from_) errs (Kt.scalar.get e) w.step).2
    let begins := fun (t : State) (left : Nat) => ∃ r', (t.pt p).slice = some r' ∧ (r'.kettleItem n).state = .running ∧
      (r'.kettleItem n).start = from_ ∧ (r'.kettleItem n).aux = left
    (s.kettleReady u p n = true → Kt.first.get e = 0 → w.state = 1 → scalars.isSome = true →
      Gives (.kettleItem u p n blocks ⟨errs, stores⟩) s (fun t => begins t (want - accepted) ∧
        ((t.pt p).sweep u slot).progress = w.progress + accepted ∧
        (t.rg (Obj.KETTLE_BLOCKS_UPDATED p) + t.rg (Obj.KETTLE_NONFINITE_BLOCKS p)) % 2 ^ 64 =
          (s.rg (Obj.KETTLE_BLOCKS_UPDATED p) + s.rg (Obj.KETTLE_NONFINITE_BLOCKS p) + accepted) % 2 ^ 64)) ∧
    (s.kettleReady u p n = true → Kt.first.get e = 0 → w.state = 1 → scalars = none →
      Gives (.kettleItem u p n blocks ⟨errs, stores⟩) s (fun t => begins t want ∧ ((t.pt p).sweep u slot).progress = w.progress ∧
        t.rg (Obj.SCALAR_STALE p) = (s.rg (Obj.SCALAR_STALE p) + 1) % 2 ^ 32)) ∧
    (s.kettleReady u p n = true → Kt.first.get e = 0 → w.state ≠ 1 →
      Gives (.kettleItem u p n blocks ⟨errs, stores⟩) s (fun t => begins t 0 ∧ SameMemory s t ∧ (t.pt p).sweep u slot = w)) ∧
    (s.kettleReady u p n = true → Kt.first.get e = 1 → ¬ ((s.pt p).atUpdate = true ∧ w.w = Kt.w.get e) →
      (s.pt p).missingMap.contains (Kt.group.get e) = false →
      Gives (.kettleItem u p n blocks ⟨errs, stores⟩) s (fun t => (t.pt p).updateStarted = true ∧
        let y := (t.pt p).sweep u slot
        y.state = (if Rs.frozen.get (s.resE (Kt.w.get e)) = 1 then 2 else 1) ∧ y.step = (s.pt p).step ∧ y.w = Kt.w.get e ∧
        y.blocks = ResEntry.blocks (s.resE (Kt.w.get e)) ∧ y.group = Kt.group.get e ∧ y.row = Kt.row.get e)) ∧
    (∀ m, s.kettleRunning p u = some m → s.kettleEnds u p at_ = true →
      Gives (.kettleItemEnd u p at_) s (fun t => SameMemory s t ∧ ∃ r', (t.pt p).slice = some r' ∧ (r'.kettleItem m).state = .finished ∧
        (r'.kettleItem m).finish = at_ ∧ ∀ j, j ≠ m → r'.kettleItem j = r.kettleItem j))

/-- Reblock items (R72, R316, R319, R322): REDUCE and MOVE run from their start position, and REDUCE counts its work; a MOVE of one row of
elements of a Residency source that it may read has its bytes in flight; an item whose alternative is not taken is over without moving
anything; an item that ends is finished and counted, and a MOVE of one row to a Residency destination that it may write has its bytes in
place there. The model's choices: log 27 and 44. -/
def Obligations.ReblockItemsStartAndEnd : Prop :=
  ∀ (q : QuarterId) (p : PartId) (n at_ : Nat) (errs : AccessErrors) (b k : Nat) (r : SliceRun) (s : State),
    s.running p = some (b, k, r) →
    let e := s.planItem b q n
    let alt := s.altRead p (Rb.alt.get e) (Rb.startNs.get e)
    let from_ := s.rbStart b k q n r
    let x := r.rb q n
    let row := fun (y : ResEntry) (r c : Nat) => ((r * Rs.cols.get y + 32 * c) * (fmtBits (Rs.format.get y) / 8),
      Nat.min (32 * Rb.span.get e) (Rs.cols.get y - 32 * c) * (fmtBits (Rs.format.get y) / 8))
    (∀ sel slot i off, s.rbReady q p n 1 = true → alt = .taken → endpointOf (Rb.dest.get e) = .res sel slot i off →
      Gives (.reduce q p n errs) s (fun t => SameMemory s t ∧ (∃ r', (t.pt p).slice = some r' ∧ (r'.rb q n).state = .running ∧
        (r'.rb q n).start = from_) ∧
        SMap.getD 0 t.open_ (ctrKey p 4 q (wEvent 1)) = SMap.getD 0 s.open_ (ctrKey p 4 q (wEvent 1)) + Rb.inputs.get e * Rb.count.get e)) ∧
    (s.rbReady q p n 2 = true → alt = .taken →
      Gives (.reblockMove q p n errs) s (fun t => SameMemory s t ∧ ∃ r', (t.pt p).slice = some r' ∧ (r'.rb q n).state = .running ∧
        (r'.rb q n).start = from_ ∧
        (∀ sel slot i off, endpointOf (Rb.source.get e) = .res sel slot i off → isQueue (endpointOf (Rb.dest.get e)) = false →
          Rb.count.get e = 1 → Rb.build.get e = 0 → errs = AccessErrors.none →
          let y := s.resSeen p from_ i
          let m := ResEntry.accessSlot y sel slot
          let z := row (s.resE i) (Rb.srcRow.get e) (Rb.srcCol.get e)
          fmtIsMX (Rs.format.get (s.resE i)) = false → Rs.enable.get y = 1 → Rs.partition.get y = p.val → s.resTaken i = true →
          s.inSweep p i = false → (s.kvPools p).contains i = false → i ≠ s.rg (Obj.MASK_POOL p) → m ≤ Rs.buffers.get y →
          z.1 + z.2 ≤ ResEntry.stride y →
          (r'.rb q n).data.map (·.1) = s.memBytes (ResEntry.slotAddr y m + z.1) z.2))) ∧
    (alt = .notTaken →
      (s.rbReady q p n 1 = true → Gives (.reduce q p n errs) s (fun t => SameMemory s t ∧ ∃ r', (t.pt p).slice = some r' ∧
        (r'.rb q n).state = .notTaken ∧ (r'.rb q n).start = from_ ∧ (r'.rb q n).data = [])) ∧
      (s.rbReady q p n 2 = true → Gives (.reblockMove q p n errs) s (fun t => SameMemory s t ∧ ∃ r', (t.pt p).slice = some r' ∧
        (r'.rb q n).state = .notTaken ∧ (r'.rb q n).start = from_ ∧ (r'.rb q n).data = []))) ∧
    (s.rbEnds q p n at_ = true →
      Gives (.reblockItemEnd q p n at_ errs) s (fun t => (∃ r', (t.pt p).slice = some r' ∧ (r'.rb q n).state = .finished ∧
        (r'.rb q n).finish = at_) ∧ t.rg (Obj.REBLOCK_ITEMS p) = (s.rg (Obj.REBLOCK_ITEMS p) + 1) % 2 ^ 64 ∧
        (∀ slot i off, Rb.op.get e = 2 → isQueue (endpointOf (Rb.source.get e)) = false → endpointOf (Rb.dest.get e) = .res true slot i off →
          Rb.count.get e = 1 → errs = AccessErrors.none → x.runs = [] →
          let y := s.resE i
          let z := row y (Rb.dstRow.get e) (Rb.dstCol.get e)
          let a := ResEntry.slotAddr y slot + z.1
          x.data.length = z.2 → x.data ≠ [] → fmtIsMX (Rs.format.get y) = false → Rs.enable.get y = 1 → Rs.partition.get y = p.val →
          s.resTaken i = true → Rs.role.get y ≠ roleGathered → s.inSweep p i = false → (s.kvPools p).contains i = false →
          i ≠ s.rg (Obj.MASK_POOL p) → (s.pt p).copyBound i slot = false → slot ≤ Rs.buffers.get y → z.1 + z.2 ≤ ResEntry.stride y →
          s.imageBytes a z.2 = false → s.inRegion a z.2 = true → s.writable a = true → t.memBytes a z.2 = x.data.map (·.1))))

/-- What the engines' items leave alone: cores, arrays, tiles and the Nap engines' queues and registers, pages, prefixes, streams,
generation slots, DOMAIN objects, RoCEv2, filters and the plant. The model's choice: log 10. -/
def Obligations.EngineItemFrame : Prop :=
  ∀ (u : UnitId) (q : QuarterId) (p : PartId) (n m at_ : Nat) (errs stores : AccessErrors) (i : Instr) (s t : State),
    (i = .burst p n errs ∨ i = .burstComplete p n at_ errs ∨ i = .kettleItem u p n m ⟨errs, stores⟩ ∨ i = .kettleItemEnd u p at_ ∨
     i = .reduce q p n errs ∨ i = .reblockMove q p n errs ∨ i = .reblockItemEnd q p n at_ errs) →
    exec i s = .next t →
    (∀ c : ClusterId, (t.cl c).crown = (s.cl c).crown ∧ (t.cl c).arrays = (s.cl c).arrays ∧ (t.cl c).tiles = (s.cl c).tiles ∧
      (t.cl c).nap.queue = (s.cl c).nap.queue ∧ (t.cl c).nap.t = (s.cl c).nap.t ∧ (t.cl c).nap.b = (s.cl c).nap.b ∧
      (t.cl c).nap.z = (s.cl c).nap.z) ∧
    SamePlant s t ∧ t.doms = s.doms ∧ t.pages = s.pages ∧ t.prefixes = s.prefixes ∧ t.streams = s.streams ∧ t.slots = s.slots ∧
    t.qps = s.qps ∧ t.regions = s.regions ∧ t.filters = s.filters

/-- GDDR7 devices (R263, R268, R269): the refresh rates, the start and the end of a training, which notes the temperature, and the advice
to train, which is given once; a training leaves device memory and the poison logs as they were, and RETRAIN_STATUS shows its outcome once
no device trains. A RETRAIN_DEVICE that R268 bars changes nothing. CXL ports (R271 to R276): a link that comes up leaves the port in
TRAINING with an empty window; an expander that is a Type 3 device comes UP with its usable capacity, in the mode that CXL_REFCLK allows
(R523), another one leaves the port FAILED; a removal leaves the port REMOVING, and EMPTY with its window once the link has stopped; a lost
expander fails the port, and the jobs of its partitions stop. The model's choices: log 7, 52, 53 and 54. -/
def Obligations.DeviceAndCxlPortCommands : Prop :=
  (∀ (d : DeviceId) (sess cycles : Nat) (temp : Int) (s : State),
     let st := s.rg (Obj.DEV_STATE d)
     (st = devReady ∨ st = devHot → Gives (.highTempRefresh d cycles) s (fun t => t.rg (Obj.DEV_STATE d) = devHot)) ∧
     (st = devHot → Gives (.normalTemperatureRefresh d) s (fun t => t.rg (Obj.DEV_STATE d) = devReady)) ∧
     (s.mayWrite sess Obj.RETRAIN_DEVICE d = true → s.retrainBarred d = false →
       Gives (.retrainDevice sess d) s (fun t => t.rg (Obj.DEV_STATE d) = devTraining ∧ t.rg Obj.RETRAIN_STATUS = 1)) ∧
     (s.mayWrite sess Obj.RETRAIN_DEVICE d = true → s.retrainBarred d = true → Gives (.retrainDevice sess d) s (fun t => t = s)) ∧
     (st = devTraining → (∀ e : DeviceId, e ≠ d → s.rg (Obj.DEV_STATE e) ≠ devTraining) →
       Gives (.retrainDone d (some temp)) s (fun t => t.rg Obj.RETRAIN_STATUS = 2 ∧ t.mem = s.mem ∧ t.poisonLog = s.poisonLog ∧
         t.rg (Obj.DEV_TEMP d) = unsigned 32 temp ∧ t.advised.testBit d = false ∧
         t.rg (Obj.DEV_STATE d) = (if (s.ownerOfDevice d).isSome || s.holdsTable d then devReady else devSelfRefresh)) ∧
       Gives (.retrainDone d none) s (fun t => t.rg Obj.RETRAIN_STATUS = 3 ∧ t.rg (Obj.DEV_STATE d) = devFailed ∧
         t.mem = s.mem)) ∧
     (let last := signed 32 (SMap.getD 0 s.trainTemp d).toNat
      s.advised.testBit d = false → (20 < temp - last ∨ 20 < last - temp) →
       Gives (.gddr7RetrainAdvised d temp) s (fun t => t.advised.testBit d = true ∧ t.rg (Obj.DEV_TEMP d) = unsigned 32 temp))) ∧
  (∀ (x : CxlId) (sess capacity : Nat) (type3 hot refclk : Bool) (s : State),
     let st := s.rg (Obj.CXL_STATE x)
     let empty := fun (t : State) => ∀ a, cxlBase x ≤ a → a < cxlBase x + 2 ^ 41 → t.memByte a = 0
     (s.power.up = true → (st = cxlEmpty ∨ st = cxlFailed) →
       Gives (.cxlEnumerate x none type3 hot refclk) s (fun t => t.rg (Obj.CXL_STATE x) = cxlTraining ∧ empty t)) ∧
     (s.boot.milliner = true → st = cxlTraining →
       Gives (.cxlEnumerate x (some capacity) true hot refclk) s (fun t => t.cxlSris.testBit x = !refclk ∧
         t.rg (Obj.CXL_STATE x) = cxlUp ∧ t.rg (Obj.CXL_BYTES x) = Nat.min capacity (2 ^ 41) / 65536 * 65536) ∧
       Gives (.cxlEnumerate x (some capacity) false hot refclk) s (fun t =>
         t.rg (Obj.CXL_STATE x) = cxlFailed ∧ t.rg (Obj.CXL_BYTES x) = 0)) ∧
     (s.mayWrite sess (Obj.CXL_REMOVE x) 1 = true → (∀ kv ∈ s.resList, s.region (ResEntry.slotAddr kv.2 0) ≠ some (.cxl x)) →
       Gives (.cxlRemove sess x) s (fun t => t.rg (Obj.CXL_STATE x) = cxlRemoving ∧ t.mem = s.mem)) ∧
     (st = cxlRemoving → Gives (.cxlLost x) s (fun t => t.rg (Obj.CXL_STATE x) = cxlEmpty ∧ t.rg (Obj.CXL_BYTES x) = 0 ∧ empty t)) ∧
     (st = cxlUp → Gives (.cxlLost x) s (fun t => t.rg (Obj.CXL_STATE x) = cxlFailed ∧
       ∀ p : PartId, (s.ownersOfCxl x).contains p.val = true → (t.pt p).fault ≠ 0)))

/-! ## Fabric and Ethernet (10_fabric_and_ethernet.md R333 to R370) -/

/-- Link state (R334, R335, R361, R362): a port whose ADMIN is set and that is not up comes up; an up port that goes down counts in
LINK_DOWNS, and no enabled stream stays on a fabric port that went down; a port in training or adaptation that goes down does not count;
ADAPT of a fabric port puts it into adaptation, counted where it was up; a stream that fails back at a tick edge of its partition is on its
primary, and no other stream is touched. The model's choice: log 57. -/
def Obligations.LinkStateCommands : Prop :=
  ∀ (port : PortId) (at_ sess stream : Nat) (s : State),
    (s.adminOn port = true → s.linkIsUp port = false →
      Gives (.portUp port at_) s (fun t => t.linkState port = linkUp ∧ t.now = Nat.max s.now at_ ∧
        SMap.get? t.upSince port = some t.now ∧ t.rg (Obj.LINK_DOWNS port) = s.rg (Obj.LINK_DOWNS port))) ∧
    (s.linkIsUp port = true →
      Gives (.portDown port at_) s (fun t => t.linkState port = linkDown ∧
        t.rg (Obj.LINK_DOWNS port) = (s.rg (Obj.LINK_DOWNS port) + 1) % 2 ^ 32 ∧
        (port.val < 64 → ∀ i c, Sm.enable.get (t.streamE i) = 1 → Stream.current (t.streamE i) = some c → c.1 ≠ port.val))) ∧
    (s.linkState port ≠ linkDown → s.linkState port ≠ linkDisabled → s.linkState port ≠ linkUp →
      Gives (.portDown port at_) s (fun t => t.linkState port = linkDown ∧ t.rg (Obj.LINK_DOWNS port) = s.rg (Obj.LINK_DOWNS port) ∧
        ∀ i, Sm.active.get (t.streamE i) = Sm.active.get (s.streamE i))) ∧
    (port.val < 64 → s.mayWrite sess (Obj.ADAPT port) 1 = true →
      Gives (.adapt sess port) s (fun t => t.linkState port = linkAdapting ∧
        t.rg (Obj.LINK_DOWNS port) = (if s.linkIsUp port then (s.rg (Obj.LINK_DOWNS port) + 1) % 2 ^ 32 else s.rg (Obj.LINK_DOWNS port)))) ∧
    (let e := s.streamE stream
     let p := Sm.partition.get e
     Sm.enable.get e = 1 → Sm.active.get e ≠ 0 → s.portUp (Sm.primary.get e) = true → (s.pt p).gen.begun = true → s.now = (s.pt p).edgeNs →
     SMap.getD 0 s.upSince (Sm.primary.get e) + 1000000 * s.rg Obj.FAILBACK_MS ≤ s.now →
      Gives (.failback stream) s (fun t => Sm.active.get (t.streamE stream) = 0 ∧ Sm.primary.get (t.streamE stream) = Sm.primary.get e ∧
        (∀ i, i ≠ stream → t.streamE i = s.streamE i) ∧ t.regs = s.regs ∧ t.parts = s.parts))

/-- FEC and pause (R339, R340, R341): uncorrectable codewords count and fail LINK for the slice of the port's partition, corrected ones count alone; a pause of all
priorities holds each for its quanta of 0.64 ns; the time a pause has held the transmitter enters PAUSE_NS when it ends; the host port
asks for a pause above 75 percent and releases it below 25. The model's choices: log 59 and 93. -/
def Obligations.FecAndPauseCommands : Prop :=
  ∀ (port : PortId) (at_ n q level : Nat) (s : State),
    (s.linkIsUp port = true →
      Gives (.fecUncorrectable port 0 q) s (fun t => t.rg (Obj.FEC_CORRECTED port) = (s.rg (Obj.FEC_CORRECTED port) + q) % 2 ^ 64 ∧
        t.parts = s.parts)) ∧
    (s.linkIsUp port = true → 0 < n →
      Gives (.fecUncorrectable port n q) s (fun t =>
        t.rg (Obj.FEC_UNCORRECTABLE port) = (s.rg (Obj.FEC_UNCORRECTABLE port) + n) % 2 ^ 64 ∧
        ∀ (p : PartId) r, s.ownerOfPort port = some p.val → (s.pt p).slice = some r →
          ∃ r', (t.pt p).slice = some r' ∧ r'.cond.testBit cfLink = true)) ∧
    (s.linkIsUp port = true →
      Gives (.pauseFrame port at_ true [(0, q)]) s (fun t => t.now = Nat.max s.now at_ ∧
        t.rg (Obj.PAUSE_RX port) = (s.rg (Obj.PAUSE_RX port) + 1) % 2 ^ 64 ∧
        ∀ i, i < 8 → SMap.getD 0 t.pauseEnd (8 * port.val + i) = (if q = 0 then 0 else t.now + ceilDiv (q % 65536 * 64) 100))) ∧
    (∀ f, SMap.get? s.pauseFrom port = some f → s.pauseLast port ≤ at_ →
      Gives (.pauseExpire port at_) s (fun t => SMap.get? t.pauseFrom port = none ∧
        t.rg (Obj.PAUSE_NS port) = (s.rg (Obj.PAUSE_NS port) + (s.pauseLast port - f)) % 2 ^ 64)) ∧
    (let prio := if s.rg Obj.PAUSE_TX = 2 then some (s.rg Obj.PFC_PRIORITY) else none
     s.rg Obj.PAUSE_TX ≠ 0 → s.linkIsUp hostPort = true →
      (75 < level → s.hostPause = false →
        Gives (.hostPauseTx level) s (fun t => t.hostPause = true ∧ t.out = .pause hostPort prio true :: s.out)) ∧
      (level < 25 → s.hostPause = true →
        Gives (.hostPauseTx level) s (fun t => t.hostPause = false ∧ t.out = .pause hostPort prio false :: s.out)))

/-- LLDP, HELLO and low-power idle (R344 to R346, R368, R369): the peer's address and the negotiated wake time of a fabric port enter the
registers; a port whose low-power idle is allowed enters it for an interval that is long enough and idle, and leaves it at a wake, counted
where it is an early one; a SLEEP frame counts as received and changes nothing of the own transmitter; a HELLO frame with the module's own
position leaves an idle port at once, and waits where the transmitter is in low-power idle; a received HELLO tells the peer's position and
port, and in a mesh whether the cabling rule holds. The model's choices: log 58 and 105. -/
def Obligations.PeerAndIdleCommands : Prop :=
  ∀ (port : PortId) (at_ mac w from_ until_ ns caps size position number : Nat) (s : State),
    (s.linkIsUp port = true → port.val < 64 →
      Gives (.lldp port mac none) s (fun t => t.rg (Obj.PEER_MAC port) = mac % 2 ^ 64 ∧ t.rg (Obj.WAKE_US port) = 0) ∧
      (s.lpiEnabled port = true →
        let caps := SMap.getD 0 s.peerCaps port
        Gives (.lldp port mac (some w)) s (fun t => t.rg (Obj.PEER_MAC port) = mac % 2 ^ 64 ∧
          t.rg (Obj.WAKE_US port) = (if s.lpiExtension port = true ∧ ¬ (0 < caps ∧ (caps - 1).testBit 0 = true) then 0
            else Nat.max (s.rg (Obj.WAKE_REQ_US port)) w % 2 ^ 16)))) ∧
    (s.linkIsUp port = true → s.lpiEnabled port = true → 0 < s.rg (Obj.WAKE_US port) → s.rg (Obj.LPI_STATE port) = 0 → s.now ≤ from_ →
     from_ + 2000 * s.rg (Obj.WAKE_US port) + 1000 ≤ until_ → s.idleInterval port from_ until_ = true →
      Gives (.lpiEnter port from_ until_) s (fun t =>
        t.rg (Obj.LPI_STATE port) = (if s.lpiExtension port then 2 else 1) ∧ SMap.get? t.lpiEnd port = some until_)) ∧
    (s.rg (Obj.LPI_STATE port) ≠ 0 →
      Gives (.lpiWake port) s (fun t => t.rg (Obj.LPI_STATE port) = 0 ∧ t.rg (Obj.LPI_EARLY_WAKES port) = s.rg (Obj.LPI_EARLY_WAKES port)) ∧
      Gives (.lpiEarlyWake port at_) s (fun t => t.rg (Obj.LPI_STATE port) = 0 ∧
        t.rg (Obj.LPI_EARLY_WAKES port) = (s.rg (Obj.LPI_EARLY_WAKES port) + 1) % 2 ^ 64)) ∧
    (s.linkIsUp port = true →
      Gives (.sleep port ns) s (fun t => t.rg (Obj.RX_FRAMES port) = (s.rg (Obj.RX_FRAMES port) + 1) % 2 ^ 64 ∧
        t.rg (Obj.LPI_STATE port) = s.rg (Obj.LPI_STATE port))) ∧
    (port.val < 64 → s.linkIsUp port = true →
      let hello := Sent.hello port (etherHead (s.rg Obj.DISCOVERY_GROUP) port none (s.rg Obj.FABRIC_ETHERTYPE))
        (helloPayload 0x13 (s.helloCaps port) (s.rg Obj.MESH_SIZE) (s.rg Obj.MESH_POSITION) port 0)
      (s.PortIdle port 0 →
        Gives (.helloSend port) s (fun t => t.rg (Obj.TX_FRAMES port) = (s.rg (Obj.TX_FRAMES port) + 1) % 2 ^ 64 ∧ t.out = hello :: s.out)) ∧
      (s.rg (Obj.LPI_STATE port) ≠ 0 →
        Gives (.helloSend port) s (fun t => t.out = s.out ∧
          SMap.getD [] t.txq port = SMap.getD [] s.txq port ++ [⟨5, 0, smallWire, 100 * s.now, hello⟩])) ∧
      Gives (.hello port caps size position number) s (fun t =>
        t.rg (Obj.PEER_POSITION port) = position % 256 ∧ t.rg (Obj.PEER_PORT port) = number % 256 ∧
        t.rg (Obj.WIRING port) =
          (if s.rg Obj.MESH_SIZE = 0 then s.rg (Obj.WIRING port)
           else if size = s.rg Obj.MESH_SIZE ∧ (position, number) = meshPeer size (s.rg Obj.MESH_POSITION) port then 1 else 2)))

/-- Received frames that the transport does not take (R56, R338, R342, R348, R353, R355): a frame above MAX_FRAME counts as oversize whatever
its FCS; a bad FCS counts as such, and not as received; a frame for which its receive queue has no room is received and counts for that
queue; an intact transport frame of another tick, steered to queue 0, counts as stale, at the port and at its partition. None of them
stores anything. DROP_QUEUE_FRAME counts the same causes, and an intact frame that steering drops, and one of FABRIC_ETHERTYPE of an
unknown kind. The model's choice: log 55. -/
def Obligations.FramesDiscarded : Prop :=
  ∀ (port : PortId) (at_ : Nat) (x : FrameInfo) (h : FabricHeader) (data : List Byte) (mirror : List MirrorItem) (errs : AccessErrors)
    (fate : FrameFate) (i : FrameFate → Instr) (s : State),
    let queue := Nat.min ((s.steer port x).getD 8) 7
    ((port.val < 64 ∧ s.portUp port = true ∧
        (((∀ f, i f = .dataFrame port at_ ⟨x, h⟩ data mirror f errs) ∧ h.kind = kdData) ∨
         ((∀ f, i f = .nullFrame port at_ ⟨x, h⟩ f) ∧ h.kind = kdNull) ∨
         ((∀ f, i f = .ack port at_ ⟨x, h⟩ f) ∧ h.kind = kdAck ∧ h.flags.testBit fgNak = false) ∨
         ((∀ f, i f = .nak port at_ ⟨x, h⟩ f) ∧ h.kind = kdAck ∧ h.flags.testBit fgNak = true))) →
      (s.maxFrame port < x.bytes →
        Gives (i fate) s (fun t => t.rg (Obj.RX_OVERSIZE port) = (s.rg (Obj.RX_OVERSIZE port) + 1) % 2 ^ 64 ∧
          t.rg (Obj.RX_FRAMES port) = s.rg (Obj.RX_FRAMES port) ∧ SameMemory s t)) ∧
      (x.bytes ≤ s.maxFrame port →
        Gives (i .badFcs) s (fun t => t.rg (Obj.RX_FCS_ERRORS port) = (s.rg (Obj.RX_FCS_ERRORS port) + 1) % 2 ^ 64 ∧
          t.rg (Obj.RX_FRAMES port) = s.rg (Obj.RX_FRAMES port) ∧ SameMemory s t) ∧
        Gives (i .noRoom) s (fun t => t.rg (Obj.RX_DROP port queue) = (s.rg (Obj.RX_DROP port queue) + 1) % 2 ^ 64 ∧
          t.rg (Obj.RX_FRAMES port) = (s.rg (Obj.RX_FRAMES port) + 1) % 2 ^ 64 ∧ SameMemory s t) ∧
        (∀ p : PartId, s.ownerOfPort port = some p.val → s.steer port x = some 0 → s.oddKind x = false → h.reserved = 0 →
          h.tick ≠ (s.pt p).gen.tick →
          Gives (i .intact) s (fun t => t.rg (Obj.STALE_FRAMES port) = (s.rg (Obj.STALE_FRAMES port) + 1) % 2 ^ 64 ∧
            t.rg (Obj.STALE_FRAMES_6100 p) = (s.rg (Obj.STALE_FRAMES_6100 p) + 1) % 2 ^ 64 ∧ SameMemory s t)))) ∧
    (s.linkIsUp port = true →
      (s.maxFrame port < x.bytes →
        Gives (.dropQueueFrame port at_ x fate) s (fun t => t.rg (Obj.RX_OVERSIZE port) = (s.rg (Obj.RX_OVERSIZE port) + 1) % 2 ^ 64)) ∧
      (x.bytes ≤ s.maxFrame port →
        Gives (.dropQueueFrame port at_ x .badFcs) s (fun t => t.rg (Obj.RX_FCS_ERRORS port) = (s.rg (Obj.RX_FCS_ERRORS port) + 1) % 2 ^ 64) ∧
        Gives (.dropQueueFrame port at_ x .noRoom) s (fun t => t.rg (Obj.RX_DROP port queue) = (s.rg (Obj.RX_DROP port queue) + 1) % 2 ^ 64) ∧
        (s.steer port x = some 7 →
          Gives (.dropQueueFrame port at_ x .intact) s (fun t => t.rg (Obj.RX_DROP port 7) = (s.rg (Obj.RX_DROP port 7) + 1) % 2 ^ 64)) ∧
        (s.oddKind x = true →
          Gives (.dropQueueFrame port at_ x .intact) s (fun t =>
            t.rg (Obj.UNEXPECTED_FRAMES port) = (s.rg (Obj.UNEXPECTED_FRAMES port) + 1) % 2 ^ 64))))

/-- Frames that a stream takes (R355 to R357, R359), judged in the state `u` that the frame meets once what was due before it has left:
the frame that a receive-expected slot waits for advances it by one, and ends it where it is the last; the data of one for a port queue
stand in the queue behind what the slot has got; an ACK or NAK acknowledges what it names, and a slot whose frames are all acknowledged is
finished. The model's choices: log 55 and 56. -/
def Obligations.FramesAccepted : Prop :=
  ∀ (port : PortId) (p : PartId) (at_ n b k : Nat) (x : FrameInfo) (h : FabricHeader) (data : List Byte) (mirror : List MirrorItem)
    (errs : AccessErrors) (r : SliceRun) (i : Instr) (s : State),
    let u := (s.arrive port at_ x .intact).1
    let e := u.slotEntry b k n
    let io := r.slotIO n
    port.val < 64 → s.portUp port = true → x.bytes ≤ s.maxFrame port → s.steer port x = some 0 → s.oddKind x = false →
    s.ownerOfPort port = some p.val → h.reserved = 0 → h.flags.testBit fgRelay = false →
    u.running p = some (b, k, r) → h.tick = (u.pt p).gen.tick → u.streamTakes p port h = true →
    ((i = .dataFrame port at_ ⟨x, h⟩ data mirror .intact errs ∧ h.kind = kdData ∨ i = .nullFrame port at_ ⟨x, h⟩ .intact ∧ h.kind = kdNull ∧ data = []) →
      u.slotByOrd b k dirRx h.stream h.ord = some n → u.frameFits b k n h data = true → h.seq = io.expect →
      Gives i s (fun t => (∃ r', (t.pt p).slice = some r' ∧ (r'.slotIO n).expect = h.seq + 1 ∧
        (r'.slotIO n).got = io.got + data.length ∧ (h.flags.testBit fgLast = true → (r'.slot n).state = .finished)) ∧
        (∀ q l dir off to_, h.kind = kdData → (r.slot n).state = .running → (r.slot n).aux = 0 → errs = AccessErrors.none →
          Sm.class_.get (u.streamE h.stream) ≠ classControl → endpointOf (Ps.buffer.get e) = .queue q l dir off →
          u.logicalPort p q l = some to_ → off + io.got + data.length ≤ queueBytes →
          ∀ d, d < data.length → SMap.getD QByte.unwritten (t.queue to_ dir) (off + io.got + d) = ⟨data.getD d 0, false, h.version⟩))) ∧
    ((i = .ack port at_ ⟨x, h⟩ .intact ∧ h.flags.testBit fgNak = false ∨ i = .nak port at_ ⟨x, h⟩ .intact ∧ h.flags.testBit fgNak = true) →
      h.kind = kdAck → u.slotByOrd b k dirTx h.stream h.ord = some n → h.slotLength = Ps.length.get e → (r.slot n).state ≠ .waiting →
      Gives i s (fun t => ∃ r', (t.pt p).slice = some r' ∧
        (r'.slotIO n).acked = Nat.max io.acked (Nat.min h.seq io.got) ∧
        ((if (r.slot n).aux = 1 then 1 else Stream.frames (u.streamE h.stream) (Ps.length.get e)) ≤ (r'.slotIO n).acked →
          (r'.slot n).state = .finished)))

/-- Sending (R354, R357, R359, R363): a transmit slot runs from its START_NS, with the bytes of its batt source where its alternative is
taken, and with a NULL frame where it is not; an overdue slot is sent again from its oldest unacknowledged frame; a relayed frame leaves
its port in idle time with the addresses of the relay's stream, and one that no stream takes on is dropped and counted. The model's
choice: log 13. -/
def Obligations.SendingCommands : Prop :=
  ∀ (p : PartId) (port : PortId) (n at_ b k : Nat) (errs : AccessErrors) (r : SliceRun) (s : State),
    (s.slotStarts p n = true → s.running p = some (b, k, r) →
      let e := s.slotEntry b k n
      let v := s.advanceTo p ((s.pt p).edgeNs + Ps.startNs.get e)
      let alt := v.altRead p (Ps.alt.get e) (Ps.startNs.get e)
      Gives (.transmitSlot p n errs) s (fun t => ∃ r', (t.pt p).slice = some r' ∧ (r'.slot n).state = .running ∧
        (r'.slot n).start = Ps.startNs.get e ∧
        (alt = .notTaken → (r'.slot n).aux = 1 ∧ (r'.slot n).data = []) ∧
        (∀ q l a c, alt = .taken → endpointOf (Ps.buffer.get e) = .batt q l a → v.logicalCluster p q l = some c →
          a + Ps.length.get e ≤ 4 * 2 ^ 20 →
          (r'.slot n).aux = 0 ∧ (r'.slot n).data = ((v.cl c).before (v.cycleNow p)).battRead a (Ps.length.get e)))) ∧
    (let v := s.advanceTo p at_
     v.ackOverdue p n = true → (v.pt p).slice = some r →
      Gives (.ackTimeout p n at_) s (fun t => ∃ y r', t = y.resumeSending p ∧ (y.pt p).slice = some r' ∧
        (r'.slotIO n).sent = (r.slotIO n).acked ∧ (r'.slotIO n).acked = (r.slotIO n).acked ∧ SamePlant v y ∧ y.regs = v.regs)) ∧
    (∀ x h data rest, SMap.getD [] s.relays port = (x, h, data) :: rest → s.ownerOfPort port = some p.val →
      (s.relayStream p port h = none →
        Gives (.relayForward port at_) s (fun t => SMap.getD [] t.relays port = rest ∧
          t.rg (Obj.RELAY_DROPS port) = (s.rg (Obj.RELAY_DROPS port) + 1) % 2 ^ 64)) ∧
      (let v := s.advanceTo p at_
       let prio := (x.vlan.getD 0) / 2 ^ 13
       ∀ i, s.relayStream p port h = some i → v.txAwake port = true → s.now ≤ at_ → s.relayFits p port at_ (x.bytes + 20) = true →
        v.txGate port prio ≤ 100 * at_ → SMap.getD [] v.txq port = [] →
        Gives (.relayForward port at_) s (fun t => SMap.getD [] t.relays port = rest ∧
          t.out = .frame port (v.relayHead port (v.streamE i) x h data) h data :: v.out ∧
          t.rg (Obj.RELAY_FORWARDED port) = (s.rg (Obj.RELAY_FORWARDED port) + 1) % 2 ^ 64)))

/-- STREAM_COMMAND (R364, R367): an accepted entry waits for the next edge of its partition, and a refused one has its first code in the
session's STREAM_RESULT and in its image; a disable and an accepted replace wait for the edge too. The model's choice: log 61. -/
def Obligations.StreamTableCommands : Prop :=
  ∀ (sess : Nat) (x : Session) (s : State), s.session sess = some x → x.role ≠ roleUser → s.tableSet 1 = true →
    let i := s.win sess Obj.STREAM_INDEX
    i < 4096 →
    (s.mayWrite sess Obj.STREAM_COMMAND 1 = true → s.streamOn i = false →
      let code := s.streamCheck sess i (s.streamImage i) (s.imagePoison (s.streamAddr i) 128) false
      Gives (.streamEnable sess) s (fun t => t.win sess Obj.STREAM_RESULT = code ∧ t.streams = s.streams ∧
        SameMemoryOutside (s.streamAddr i) 128 s t ∧ (t.streamImage i) = Sm.enable.set (Sm.refusal.set (s.streamImage i) code) (if code = 0 then 1 else 0) ∧
        SMap.get? t.streamPending i = (if code = 0 then some (Sm.enable.set (Sm.refusal.set (s.streamImage i) 0) 1)
          else SMap.get? s.streamPending i) ∧ (code = 0 → SMap.get? t.streamAt i = some s.now))) ∧
    (s.mayWrite sess Obj.STREAM_COMMAND 2 = true → Sm.enable.get (s.streamE i) = 1 → s.actsFor sess (Sm.partition.get (s.streamE i)) = true →
      Gives (.streamDisable sess) s (fun t => t.win sess Obj.STREAM_RESULT = 0 ∧ SMap.get? t.streamPending i = some 0 ∧
        SMap.get? t.streamAt i = some s.now ∧ t.streams = s.streams)) ∧
    (s.mayWrite sess Obj.STREAM_COMMAND 3 = true → s.winDom sess Obj.STREAM_IMAGE ≠ [] →
      let e : Stream := BitVec.ofNat 1024 (leNat (s.winDom sess Obj.STREAM_IMAGE))
      let code := s.streamCheck sess i e false true
      Gives (.streamReplace sess) s (fun t => t.win sess Obj.STREAM_RESULT = code ∧ t.streams = s.streams ∧ SameMemory s t ∧
        SMap.get? t.streamPending i = (if code = 0 then some (Stream.carry (s.streamE i) (Sm.refusal.set (Sm.enable.set e 1) 0))
          else SMap.get? s.streamPending i)))

/-- What the commands of ports and acknowledgements leave alone: memory, clusters, the tables but the streams, the plant, and DOMAIN
objects. What the commands of time and RoCEv2 leave alone: clusters, DOMAIN objects, the tables but queue pairs and regions, and the
plant. The model's choice: log 10. -/
def Obligations.PortTimeAndRoceFrame : Prop :=
  (∀ (port : PortId) (p : PartId) (at_ a b c d e : Nat) (f : Bool) (l : List (Nat × Nat)) (w : Option Nat) (x : FrameInfo) (h : FabricHeader)
     (fate : FrameFate) (i : Instr) (s t : State),
     (i = .portUp port at_ ∨ i = .portDown port at_ ∨ i = .adapt a port ∨ i = .failback a ∨ i = .fecUncorrectable port a b ∨
      i = .pauseFrame port at_ f l ∨ i = .pauseExpire port at_ ∨ i = .hostPauseTx a ∨ i = .lldp port a w ∨ i = .lpiEnter port a b ∨
      i = .lpiWake port ∨ i = .lpiEarlyWake port at_ ∨ i = .sleep port a ∨ i = .helloSend port ∨ i = .hello port b c d e ∨
      i = .dropQueueFrame port at_ x fate ∨ i = .ack port at_ ⟨x, h⟩ fate ∨ i = .nak port at_ ⟨x, h⟩ fate ∨ i = .ackTimeout p a at_ ∨
      i = .relayForward port at_) →
     exec i s = .next t →
     t.mem = s.mem ∧ t.clusters = s.clusters ∧ SamePlant s t ∧ t.doms = s.doms ∧ t.res = s.res ∧ t.slots = s.slots ∧ t.pages = s.pages ∧
     t.prefixes = s.prefixes ∧ t.qps = s.qps ∧ t.regions = s.regions ∧ t.filters = s.filters ∧ t.streamPending = s.streamPending ∧
     t.poisonLog = s.poisonLog ∧ t.cxlPoison = s.cxlPoison) ∧
  (∀ (port : PortId) (at_ a b : Nat) (m : PtpMsg) (x : RocePacket) (y : RoceHead) (o : Option Bool) (i : Instr) (s t : State),
     (i = .ptpMessage port at_ m ∨ i = .announceTimeout at_ a ∨ i = .holdoverExpire at_ ∨ i = .synceLoss at_ ∨ i = .synceLocked at_ ∨
      i = .syncInterval a ∨ i = .ppsOut a ∨ i = .ppsIn at_ a ∨ i = .rdmaWrite x ∨ i = .rdmaRead x ∨ i = .cnp y ∨ i = .roceTimeout a at_ ∨
      i = .roceAck y b o ∨ i = .qpConnect a ∨ i = .qpReset a ∨ i = .regionEnable a ∨ i = .regionDisable a) →
     exec i s = .next t →
     t.clusters = s.clusters ∧ SamePlant s t ∧ t.doms = s.doms ∧ t.res = s.res ∧ t.slots = s.slots ∧ t.pages = s.pages ∧
     t.prefixes = s.prefixes ∧ t.filters = s.filters ∧ t.streamPending = s.streamPending ∧
     ((∀ z, i ≠ .rdmaWrite z) → t.mem = s.mem))
/-! ## Time and RoCEv2 (02 R37; 10 R372 to R378) -/

/-- The time unit (R37, R375 to R378): SLAVE_PORT, OFFSET_NS and PATH_DELAY_NS follow the messages of ports that run PTP, and an idle port
answers a peer delay request at once; TIME_STATE acquires on the first slave port, locks after 64 offsets of at most 8 ns while SyncE is
locked, leaves LOCKED on a lost slave port and after eight offsets beyond 20 ns, and expires with its holdover; a loss of SyncE shortens a
holdover, and its lock extends it; Sync, Announce and peer delay requests leave the idle ports on which they are due, and wait for a port
in low-power idle; PPS_OUT rises at a second while LOCKED, and PPS_IN reports its offset; a change of the configuration starts the
selection afresh, and changes nothing while a job of several modules is accepted. The model's choices: log 60 and 105. -/
def Obligations.TimeCommands : Prop :=
  ∀ (port : PortId) (at_ v sess sub kind : Nat) (off : Int) (s : State),
    let st := s.rg Obj.TIME_STATE
    let held := if s.rg Obj.SYNCE_STATE = syLocked then tsHoldoverSynce else tsHoldover
    (s.linkIsUp port = true → s.runsPtp port = true →
      (v < 256 → Gives (.ptpMessage port at_ (.announce v)) s (fun t => t.rg Obj.SLAVE_PORT = v ∧
        t.rg Obj.TIME_STATE = (if v ≠ 0xFF ∧ st = tsFree then tsAcquiring else st))) ∧
      (s.rg Obj.SLAVE_PORT = port.val → st = tsLocked → 20 < off.natAbs →
        Gives (.ptpMessage port at_ (.sync off)) s (fun t => t.rg Obj.OFFSET_NS = unsigned 32 off ∧ t.goodSyncs = 0 ∧
          t.rg Obj.TIME_STATE = (if 7 ≤ s.badSyncs then held else tsLocked))) ∧
      (s.rg Obj.SLAVE_PORT = port.val → st ≠ tsLocked → off.natAbs ≤ 8 → s.rg Obj.SYNCE_STATE = syLocked →
        Gives (.ptpMessage port at_ (.sync off)) s (fun t => t.rg Obj.OFFSET_NS = unsigned 32 off ∧ t.goodSyncs = s.goodSyncs + 1 ∧
          t.rg Obj.TIME_STATE = (if 63 ≤ s.goodSyncs then tsLocked else st))) ∧
      (port.val < 64 → Gives (.ptpMessage port at_ (.peerDelay v)) s (fun t => t.rg (Obj.PATH_DELAY_NS port) = v % 2 ^ 32)) ∧
      (let u := s.portTime port at_
       u.PortIdle port 0 → Gives (.ptpMessage port at_ .delayRequest) s (fun t => t.out = .ptp port 3 :: u.out ∧ t.rg Obj.TIME_STATE = st)) ∧
      Gives (.ptpMessage port at_ .general) s (fun t => t.rg Obj.TIME_STATE = st ∧ t.rg Obj.SLAVE_PORT = s.rg Obj.SLAVE_PORT ∧
        t.rg Obj.OFFSET_NS = s.rg Obj.OFFSET_NS)) ∧
    (s.rg Obj.SLAVE_PORT ≠ 0xFF → s.announceAt + 3 * 10 ^ 9 ≤ at_ → Gives (.announceTimeout at_ v) s (fun t => t.rg Obj.SLAVE_PORT = v % 256 ∧
      t.rg Obj.TIME_STATE = (if st = tsLocked then held else st) ∧ (st = tsLocked → t.holdFrom = Nat.max s.now at_))) ∧
    ((st = tsHoldoverSynce ∧ s.holdFrom + 60 * 10 ^ 9 ≤ at_ ∨ st = tsHoldover ∧ s.holdFrom + 10 ^ 9 ≤ at_) →
      Gives (.holdoverExpire at_) s (fun t => t.rg Obj.TIME_STATE = tsExpired)) ∧
    (s.rg Obj.SYNCE_STATE = syLocked → Gives (.synceLoss at_) s (fun t => t.rg Obj.SYNCE_STATE = syHoldover ∧
      t.rg Obj.TIME_STATE = (if st = tsHoldoverSynce then tsHoldover else st) ∧ (st = tsHoldoverSynce → t.holdFrom = Nat.max s.now at_))) ∧
    (s.rg Obj.SYNCE_STATE ≠ syLocked → s.rg Obj.SLAVE_PORT ≠ 0xFF → Gives (.synceLocked at_) s (fun t =>
      t.rg Obj.SYNCE_STATE = syLocked ∧ t.rg Obj.TIME_STATE = (if st = tsHoldover then tsHoldoverSynce else st))) ∧
    (kind < 3 → Gives (.syncInterval kind) s (fun t => t.rg Obj.TIME_STATE = st ∧ ∀ q, q < 65 → s.runsPtp q = true → s.linkIsUp q = true →
      (kind = 2 ∨ q ≠ s.rg Obj.SLAVE_PORT) →
      (s.PortIdle q 0 → Sent.ptp q kind ∈ t.out ∧ t.rg (Obj.TX_FRAMES q) = (s.rg (Obj.TX_FRAMES q) + 1) % 2 ^ 64) ∧
      (s.rg (Obj.LPI_STATE q) ≠ 0 → SMap.getD [] t.txq q =
        SMap.getD [] s.txq q ++ [⟨if kind = 1 then 5 else 3, 0, smallWire, 100 * s.now, .ptp q kind⟩]))) ∧
    (st = tsLocked → s.now ≤ v * 10 ^ 9 → Gives (.ppsOut v) s (fun t => t.out = .pps :: s.out ∧ t.now = v * 10 ^ 9 ∧
      t.ppsHigh = v * 10 ^ 9 + 10 ^ 8)) ∧
    (1000 ≤ v → Gives (.ppsIn at_ v) s (fun t => t.rg Obj.PPS_IN_OFFSET_NS =
      unsigned 32 (if at_ % 10 ^ 9 ≤ 5 * 10 ^ 8 then ((at_ % 10 ^ 9 : Nat) : Int) else ((at_ % 10 ^ 9 : Nat) : Int) - 10 ^ 9))) ∧
    (s.mayWrite sess (okey 0x1400 sub) v = true → 0 < sub → sub ≤ 5 → (sub = 1 → v ≤ 127) → (sub = 5 → v ≤ 1) → s.rg (okey 0x1400 sub) ≠ v →
      ((List.range 12).any s.multiModule = false → Gives (.timeConfigWrite sess sub v) s (fun t =>
        t.rg (okey 0x1400 sub) = objMask (okey 0x1400 sub) v % 2 ^ 64 ∧ t.rg Obj.SLAVE_PORT = 0xFF ∧ t.rg Obj.TIME_STATE = tsAcquiring)) ∧
      ((List.range 12).any s.multiModule = true → Gives (.timeConfigWrite sess sub v) s (fun t => t = s)))

/-- QP_COMMAND and REGION_COMMAND (R372, R373, R460): an accepted connect makes the queue pair READY with its PSNs, a reset returns it to
RESET; an accepted enable gives the region its key, and a disable removes it; a refused command changes no queue pair, region or memory,
also where the queue pair or region belongs to a partition for which the session may not act; the result stands in the session's window.
The model's choice: log 62. -/
def Obligations.QueuePairAndRegionCommands : Prop :=
  ∀ (sess : Nat) (x : Session) (s : State), s.session sess = some x →
    let i := s.win sess Obj.QP_INDEX
    let e : BitVec 512 := BitVec.ofNat 512 (leNat (s.winDom sess Obj.QP_DATA))
    let k := s.win sess Obj.REGION_INDEX
    let g : BitVec 256 := BitVec.ofNat 256 (leNat (s.winDom sess Obj.REGION_DATA))
    let refused := fun (c : Instr) (res code : Nat) => Gives c s (fun t => t.win sess res = code ∧ t.qps = s.qps ∧ t.regions = s.regions ∧ SameMemory s t)
    let geom := Re.base.get g % 64 ≠ 0 ∨ Re.length.get g % 64 ≠ 0 ∨ Re.length.get g < 64 ∨ 11 < Re.partition.get g ∨ 7 < Re.access.get g ∨ Re.rsv.get g ≠ 0
    let barred := s.region (Re.base.get g) = some .refstore ∨
      (x.role ≠ roleAdmin ∧ s.tableRanges.any (fun r => overlaps (Re.base.get g) (Re.length.get g) r.1 r.2) = true)
    let own := s.actsFor sess (Re.partition.get g) && s.inPartition (Re.partition.get g) (Re.base.get g) (Re.length.get g)
    let mine := s.actsFor sess (Qe.partition.get e) && (s.pt (Qe.partition.get e)).built.isSome && !s.qpForeign sess
    (s.mayWrite sess Obj.QP_COMMAND 1 = true →
      (qpFieldBad e = true → refused (.qpConnect sess) Obj.QP_RESULT 1) ∧
      (qpFieldBad e = false → mine = false → refused (.qpConnect sess) Obj.QP_RESULT 2) ∧
      (qpFieldBad e = false → mine = true → (s.qp i).state ≠ Machine.qpReset → refused (.qpConnect sess) Obj.QP_RESULT 3) ∧
      (qpFieldBad e = false → mine = true → (s.qp i).state = Machine.qpReset → Gives (.qpConnect sess) s (fun t =>
        t.win sess Obj.QP_RESULT = 0 ∧ t.qp i = ⟨e, qpReady, Qe.sqPsn.get e, Qe.rqPsn.get e, 0, 0, 0, 0, [], 0, 0⟩ ∧ ∀ j, j ≠ i → t.qp j = s.qp j))) ∧
    (s.mayWrite sess Obj.QP_COMMAND 2 = true →
      (s.qpForeign sess = false →
        Gives (.qpReset sess) s (fun t => t.win sess Obj.QP_RESULT = 0 ∧ t.qp i = Qp.reset ∧ ∀ j, j ≠ i → t.qp j = s.qp j)) ∧
      (s.qpForeign sess = true → refused (.qpReset sess) Obj.QP_RESULT 2)) ∧
    (s.mayWrite sess Obj.REGION_COMMAND 1 = true →
      (s.regionForeign sess k = true → refused (.regionEnable sess) Obj.REGION_RESULT 1) ∧
      (s.regionForeign sess k = false → geom → refused (.regionEnable sess) Obj.REGION_RESULT 3) ∧
      (s.regionForeign sess k = false → ¬ geom → barred → refused (.regionEnable sess) Obj.REGION_RESULT 2) ∧
      (s.regionForeign sess k = false → ¬ geom → ¬ barred → own = false → refused (.regionEnable sess) Obj.REGION_RESULT 1) ∧
      (s.regionForeign sess k = false → ¬ geom → ¬ barred → own = true → Gives (.regionEnable sess) s (fun t => t.win sess Obj.REGION_RESULT = 0 ∧
        SMap.get? t.regions k = some ⟨g, k * 2 ^ 24 + (s.rkeys + 1) % 2 ^ 24⟩ ∧ ∀ j, j ≠ k → SMap.get? t.regions j = SMap.get? s.regions j))) ∧
    (s.mayWrite sess Obj.REGION_COMMAND 2 = true → ∀ r, SMap.get? s.regions k = some r →
      (s.actsFor sess (Re.partition.get r.entry) = true → Gives (.regionDisable sess) s (fun t => t.win sess Obj.REGION_RESULT = 0 ∧
        SMap.get? t.regions k = none ∧ ∀ j, j ≠ k → SMap.get? t.regions j = SMap.get? s.regions j)) ∧
      (s.actsFor sess (Re.partition.get r.entry) = false → refused (.regionDisable sess) Obj.REGION_RESULT 1))

/-- The packets of RoCEv2 (R372, R373, R473): a WRITE of one packet that its region and queue pair allow, with no error on its way and of no
entry in sweep, stores its bytes and nothing else, and advances the PSN; one that they do not allow stores nothing, and the queue pair is
in ERROR; a READ of one packet delivers the bytes, where none of them is poisoned; an idle host port sends the acknowledgement, the NAK or
the data at once; a bad ICRC drops the packet; after the time that TIMEOUT gives the unacknowledged packets are repeated, as often as
RETRY_COUNT says, or the queue pair is in ERROR; an acknowledgement retires what it names; a CNP is counted. The model's choices: log 62
and 105. -/
def Obligations.RocePackets : Prop :=
  ∀ (x : RocePacket) (at_ n : Nat) (s : State), s.linkIsUp hostPort = true →
    let i := x.qp - qpBase
    let q := s.qp i
    let known := qpBase ≤ x.qp ∧ x.qp < qpBase + 256
    let answers := fun (t : State) (y : RoceOut) => s.PortIdle hostPort (s.rg Obj.PFC_PRIORITY) → t.out =
      .roce i (if s.dom Obj.HOST_IP = [] then List.replicate 16 0 else s.dom Obj.HOST_IP) (leBytes 16 (Qe.gid.get q.entry)) y :: s.out
    let swept := (List.range x.length).any (fun j => s.sweptAt (Qe.partition.get q.entry) (x.addr + j))
    (x.psn < psnMod → (s.qp i).frameBytes x ≤ s.maxFrame hostPort →
      (x.icrc = false →
        Gives (.rdmaWrite x) s (fun t => t.qps = s.qps ∧ t.out = s.out ∧ SameMemory s t ∧
          t.rg (Obj.RX_FRAMES hostPort) = (s.rg (Obj.RX_FRAMES hostPort) + 1) % 2 ^ 64) ∧
        Gives (.rdmaRead x) s (fun t => t.qps = s.qps ∧ t.out = s.out ∧ SameMemory s t ∧
          t.rg (Obj.RX_FRAMES hostPort) = (s.rg (Obj.RX_FRAMES hostPort) + 1) % 2 ^ 64)) ∧
      (x.icrc = true → known → q.state = qpReady → x.ce = false → x.psn = q.rq →
        (x.first = true → x.last = true → x.data.length = x.length → 0 < x.length →
          (s.remoteAllowed q opWrite x.rkey x.addr x.length = true →
            Gives (.rdmaWrite x) s (fun t => (t.qp i).rq = (q.rq + 1) % psnMod ∧ (t.qp i).state = qpReady ∧
              SameMemoryOutside x.addr x.length s t ∧
              (swept = false → x.errs = AccessErrors.none → answers t (.ack x.psn) ∧
                ∀ j, j < x.length → s.writable (x.addr + j) = true → t.memByte (x.addr + j) = x.data.getD j 0))) ∧
          (s.remoteAllowed q opWrite x.rkey x.addr x.length = false →
            Gives (.rdmaWrite x) s (fun t => (t.qp i).state = qpError ∧ SameMemory s t ∧ answers t (.nakAccess x.psn) ∧
              t.rg Obj.ROCE_ACCESS_ERRORS = (s.rg Obj.ROCE_ACCESS_ERRORS + 1) % 2 ^ 32))) ∧
        (0 < x.length → x.length ≤ Qe.mtu.get q.entry →
          (s.remoteAllowed q opRead x.rkey x.addr x.length = true →
            Gives (.rdmaRead x) s (fun t => (t.qp i).rq = (q.rq + 1) % psnMod ∧ (t.qp i).state = qpReady ∧ SameMemory s t ∧
              (swept = false → x.errs = AccessErrors.none → (s.memRead x.addr x.length).any (·.2) = false →
                answers t (.readData x.psn (s.memBytes x.addr x.length))))) ∧
          (s.remoteAllowed q opRead x.rkey x.addr x.length = false →
            Gives (.rdmaRead x) s (fun t => (t.qp i).state = qpError ∧ SameMemory s t ∧ answers t (.nakAccess x.psn) ∧
              t.rg Obj.ROCE_ACCESS_ERRORS = (s.rg Obj.ROCE_ACCESS_ERRORS + 1) % 2 ^ 32))))) ∧
    Gives (.cnp ⟨n, true⟩) s (fun t => t.rg Obj.ROCE_CNP_IGNORED = (s.rg Obj.ROCE_CNP_IGNORED + 1) % 2 ^ 64 ∧ t.qps = s.qps) ∧
    Gives (.cnp ⟨n, false⟩) s (fun t => t.rg Obj.ROCE_CNP_IGNORED = s.rg Obj.ROCE_CNP_IGNORED ∧ t.qps = s.qps ∧
      t.rg (Obj.RX_FRAMES hostPort) = (s.rg (Obj.RX_FRAMES hostPort) + 1) % 2 ^ 64) ∧
    (qpBase ≤ x.qp → q.state = qpReady → q.unacked ≠ [] → q.since + 4096 * 2 ^ Qe.timeout.get q.entry ≤ at_ →
      Gives (.roceTimeout x.qp at_) s (fun t => (t.qp i).unacked = q.unacked ∧
        (if q.tries < Qe.retry.get q.entry then
            (t.qp i).state = qpReady ∧ (t.qp i).tries = q.tries + 1 ∧ t.rg Obj.ROCE_RETRIES = (s.rg Obj.ROCE_RETRIES + 1) % 2 ^ 32 ∧
            ∀ y ∈ q.unacked, t.SentOrWaiting hostPort (.roce i (if s.dom Obj.HOST_IP = [] then List.replicate 16 0 else s.dom Obj.HOST_IP)
              (leBytes 16 (Qe.gid.get q.entry)) (.write y.1 y.2.1 y.2.2.1 y.2.2.2))
          else (t.qp i).state = qpError))) ∧
    (qpBase ≤ x.qp → q.state = qpReady →
      Gives (.roceAck ⟨x.qp, true⟩ n none) s (fun t => (t.qp i).state = qpReady ∧ (t.qp i).unacked = q.unacked.filter (fun y => !psnUpTo y.1 n)) ∧
      Gives (.roceAck ⟨x.qp, true⟩ n (some true)) s (fun t => (t.qp i).state = qpError) ∧
      Gives (.roceAck ⟨x.qp, false⟩ n none) s (fun t => t.qps = s.qps ∧
        t.rg (Obj.RX_FRAMES hostPort) = (s.rg (Obj.RX_FRAMES hostPort) + 1) % 2 ^ 64))

/-! ## Jenjo (13_management.md R443 to R462) -/

/-- The life of a session (R444, R446, R447, R450): an OPEN that its checks allow makes a half-open session with a number of its own, and
another one is answered with its status alone; a valid OPEN_CONFIRM opens it, a claim with the claim code registers the key and makes an
admin; a half-open session ends after 5 s, an open one by CLOSE or once idle; a malformed datagram is counted. The model's choices: log 8
and 90. -/
def Obligations.SessionLifecycle : Prop :=
  ∀ (r : Request) (x : Session) (sess at_ : Nat) (port : PortId) (s : State),
    let gone := fun (id : Nat) (t : State) => ∀ y ∈ t.sessions, y.id ≠ id
    let role := leNat (r.payload.take 1)
    let part := leNat ((r.payload.drop 1).take 1)
    let bad := s.openBad r role part (keyHash ((r.payload.drop 36).take 512) ((r.payload.drop 548).take 4))
    (s.jenjoOn r.port = true → r.payload.length ≤ 8192 →
      (bad ≠ stOk → Gives (.open_ r) s (fun t => t.sessions = s.sessions ∧ t.out = .response (reqReply r msgOpen 0 (Answer.of bad) []) :: s.out)) ∧
      (bad = stOk → Gives (.open_ r) s (fun t => ∃ y, t.sessions = s.sessions ++ [y] ∧ y.id ≠ 0 ∧ (∀ z ∈ s.sessions, z.id ≠ y.id) ∧
        y.open_ = false ∧ y.role = role ∧ y.port = r.port ∧ y.source = r.source ∧ y.openedAt = s.now)) ∧
      (s.senderOf r = some x → x.verifies r msgConfirm = true → x.open_ = false → r.seq = 1 → r.reserved = 0 →
        (s.sessions.filter (·.open_)).length < 16 →
        (x.role ≠ roleClaim → r.payload = [] → Gives (.openConfirm r) s (fun t => ∃ y ∈ t.sessions, y.id = x.id ∧ y.open_ = true ∧
          y.role = x.role ∧ y.lastSeq = 1)) ∧
        (x.role = roleClaim → r.payload = hmac512 Config.claimCode x.nonces → s.dom Obj.ADMIN_KEYS = [] → Gives (.openConfirm r) s (fun t =>
          t.dom Obj.ADMIN_KEYS = x.keyHash ∧ ∃ y ∈ t.sessions, y.id = x.id ∧ y.open_ = true ∧ y.role = roleAdmin)) ∧
        (x.role = roleClaim → r.payload ≠ hmac512 Config.claimCode x.nonces → Gives (.openConfirm r) s (fun t => gone x.id t ∧ t.doms = s.doms))) ∧
      (s.senderOf r = some x → x.verifies r msgConfirm = false → Gives (.openConfirm r) s (fun t => t.out = s.out ∧
        t.rg Obj.JENJO_AUTH_FAIL = (s.rg Obj.JENJO_AUTH_FAIL + 1) % 2 ^ 32)) ∧
      (s.senderOf r = some x → x.verifies r msgClose = true → x.open_ = true → r.reserved = 0 → x.lastSeq < r.seq → r.payload = [] →
        Gives (.close r) s (fun t => gone x.id t ∧ t.out.head? = some (.response (reqReply r msgClose x.id Answer.ok []))))) ∧
    (s.sessions.find? (fun y => y.id == sess) = some x → x.open_ = false → x.openedAt + 5000000000 ≤ at_ →
      Gives (.openTimeout sess at_) s (fun t => gone sess t ∧ t.now = Nat.max s.now at_)) ∧
    (s.session sess = some x → x.lastMsg + 1000000000 * s.rg Obj.SESSION_IDLE_S ≤ at_ → Gives (.sessionIdleTimeout sess at_) s (gone sess)) ∧
    (s.jenjoOn port = true → Gives (.jenjoMalformed port) s (fun t => t.sessions = s.sessions ∧
      t.rg Obj.JENJO_MALFORMED = (s.rg Obj.JENJO_MALFORMED + 1) % 2 ^ 32))

/-- Requests of an open session (R448, R449, R452, R454, R455), `u` the session's state with the message noted: a READ or READ_BLOCK
answers with the object and changes none; a WRITE has its effect and answers its status; a segment that is not the last of a WRITE_BLOCK
is kept; a repeated request has its former response and no effect; an acknowledged event leaves the queue, and an unacknowledged one is
sent again. The model's choices: log 89 and 90. -/
def Obligations.RequestsAndEvents : Prop :=
  ∀ (r : Request) (x : Session) (facts : RecoverFacts) (sess at_ : Nat) (s : State),
    let u := s.modSession x.id (fun y => { y with failures := 0, lastMsg := s.now })
    let key := reqKey r
    let v := u.readObj r.session key
    let w := u.writeObj r.session key r.payload facts
    let same := fun (t : State) => t.regs = s.regs ∧ t.doms = s.doms ∧ t.parts = s.parts ∧ t.mem = s.mem ∧ t.clusters = s.clusters
    let answers := fun (t : State) (op : Nat) (a : Answer) (l : List Byte) => t.out.head? = some (.response (reqReply r op x.id a l))
    (s.jenjoOn r.port = true → r.payload.length ≤ 8192 → s.senderOf r = some x →
      (x.verifies r msgRead = true → x.open_ = true → r.reserved = 0 → x.lastSeq < r.seq →
        (v.1 = stOk → r.payload = [] → v.2.length ≤ 8192 → Gives (.read r) s (fun t => same t ∧ answers t msgRead Answer.ok v.2)) ∧
        (v.1 ≠ stOk → Gives (.read r) s (fun t => same t ∧ answers t msgRead (Answer.of v.1) v.2))) ∧
      (x.verifies r msgReadBlock = true → x.open_ = true → r.reserved = 0 → x.lastSeq < r.seq → v.1 = stOk → r.payload.length = 4 →
        isDomain key = true → Gives (.readBlock r) s (fun t => same t ∧
          answers t msgReadBlock Answer.ok ((v.2.drop r.offset).take (Nat.min 8192 (leNat r.payload))))) ∧
      (x.verifies r msgWrite = true → x.open_ = true → r.reserved = 0 → x.lastSeq < r.seq → Gives (.write r facts) s (fun t =>
        answers t msgWrite w.2 [] ∧ t.regs = w.1.regs ∧ t.doms = w.1.doms ∧ t.parts = w.1.parts ∧ t.mem = w.1.mem)) ∧
      (x.verifies r msgWriteBlock = true → x.open_ = true → r.reserved = 0 → x.lastSeq < r.seq → ∀ row, objRow key = some row → row.acc ≠ .ro →
        row.ty = .domain → s.mayWrite r.session key 0 = true → r.offset = 0 → r.last = false → s.session x.id = some x →
        Gives (.writeBlock r) s (fun t => same t ∧ answers t msgWriteBlock Answer.ok [] ∧
          ∃ y, t.session x.id = some y ∧ y.upload = some (key, r.payload))) ∧
      (∀ y, x.verifies r msgWrite = true → x.open_ = true → r.seq = x.lastSeq → x.lastResp = some y →
        Gives (.write r facts) s (fun t => same t ∧ t.out = .response y :: s.out)) ∧
      (x.verifies r msgWrite = false → Gives (.write r facts) s (fun t => t.out = s.out ∧ t.parts = s.parts ∧ t.mem = s.mem ∧
        t.rg Obj.JENJO_AUTH_FAIL = (s.rg Obj.JENJO_AUTH_FAIL + 1) % 2 ^ 32)) ∧
      (x.verifies r msgAck = true → Gives (.notifyAck r) s (fun t => same t ∧ ∀ y ∈ t.sessions, y.id = x.id → ∀ e ∈ y.queue, e.seq ≠ r.seq))) ∧
    (∀ e, s.session sess = some x → x.queue.find? (fun y => y.seq == r.seq) = some e → s.boot.milliner = true → e.sends ≤ 5 →
      e.lastSent + 200000000 ≤ at_ →
      Gives (.notifyResend sess r.seq at_) s (fun t => same t ∧ t.out = .notify sess r.seq e.event :: s.out))

/-- Writes of objects (R34, R35, R47, R452, R458 to R460): an object that is read-only, or that the session may not write, stays as it is;
while the milliner runs, a session writes its EVENT_MASK, an admin SESSION_IDLE_S; TICK_GRAINS and CLOSE_GUARD_NS take a value in their ranges while the partition
is not ACTIVE or HALTED, and a running generator then stops at its next edge; a factory reset needs every partition FREE, closes every
session, and leaves the persistent objects at their defaults. The model's choices: log 89 and 91. -/
def Obligations.RegisterWrites : Prop :=
  ∀ (sess key v : Nat) (p : PartId) (facts : RecoverFacts) (x : Session) (s : State),
    let free := s.rg (Obj.PART_STATE p) ≠ psActive ∧ s.rg (Obj.PART_STATE p) ≠ psHalted
    ((s.mayWrite sess key v = false ∨ ∃ row, objRow key = some row ∧ row.acc = .ro) →
      Gives (.registerWrite sess key v facts) s (fun t => t = s)) ∧
    (s.boot.milliner = true → s.session sess = some x → v < 65536 →
      Gives (.registerWrite sess Obj.EVENT_MASK v facts) s (fun t => t.win sess Obj.EVENT_MASK = v ∧ t.regs = s.regs)) ∧
    (s.boot.milliner = true → s.session sess = some x → x.role = roleAdmin → 10 ≤ v → v ≤ 86400 →
      Gives (.registerWrite sess Obj.SESSION_IDLE_S v facts) s (fun t => t.rg Obj.SESSION_IDLE_S = v ∧ t.sessions = s.sessions)) ∧
    (s.mayWrite sess (Obj.TICK_GRAINS p) v = true → 5 ≤ v → v ≤ 100000 → s.rg (Obj.CLOSE_GUARD_NS p) + 20000 ≤ v * 10000 →
      (free → Gives (.tickGrainsWrite sess p false v) s (fun t => t.rg (Obj.TICK_GRAINS p) = v ∧ (t.pt p).gen.writeGrain =
        (if (s.pt p).gen.on then s.grain else (s.pt p).gen.writeGrain) ∧
        ((s.pt p).gen.on = true → (s.pt p).gen.begun = true → (t.pt p).gen.stopping = true))) ∧
      (¬ free → Gives (.tickGrainsWrite sess p false v) s (fun t => t = s))) ∧
    (s.mayWrite sess (Obj.CLOSE_GUARD_NS p) v = true → 500 ≤ v → v ≤ 50000 → v + 20000 ≤ s.rg (Obj.TICK_GRAINS p) * 10000 →
      (free → Gives (.closeGuardNsWrite sess p v) s (fun t => t.rg (Obj.CLOSE_GUARD_NS p) = v ∧ t.parts = s.parts)) ∧
      (¬ free → Gives (.closeGuardNsWrite sess p v) s (fun t => t = s))) ∧
    (s.boot.milliner = true → s.session sess = some x → x.role = roleAdmin →
      ((∀ q : PartId, (s.pt q).built = none) → Gives (.factoryReset sess 0xA5A5) s (fun t => t.sessions = [] ∧ t.dom Obj.ADMIN_KEYS = [] ∧
        t.rg Obj.TABLES_SET = 0 ∧ t.rg Obj.SESSION_IDLE_S = 300 ∧ t.filters = [])) ∧
      ((∃ q : PartId, (s.pt q).built ≠ none) → Gives (.factoryReset sess 0xA5A5) s (fun t => t = s)))

/-- Coefficient rows, keys and attestation (R239, R506, R507, R543): WINDOW_DATA writes a disabled row, enabled only where no code refuses
it; a list of publisher keys replaces the former one and revokes the images of the keys that left, an ill-formed list changes nothing but
KEYS_RESULT; the report of ATTEST_NONCE carries the nonce. The model's choices: log 8, 71 and 92. -/
def Obligations.CoefficientKeyAndNonceWrites : Prop :=
  ∀ (sess : Nat) (data : List Byte) (x : Session) (s : State), s.session sess = some x →
    let row := s.win sess Obj.WINDOW_ROW
    let a := s.coefAddr row
    let e : CoefRow := BitVec.ofNat 512 (leNat data)
    let ks := keyList data
    let goneKeys := (keyList (s.dom Obj.PUBLISHER_KEYS)).filter (fun k => !ks.contains k)
    (s.mayWrite sess Obj.WINDOW_DATA 0 = true → data.length = 64 → (x.role = roleAdmin ∨ Cf.owner.get e = x.part) → s.tableSet 5 = true →
      Cf.enable.get (s.coefRow row) = 0 →
      let code := if Cf.enable.get e = 0 then 0 else coefCode e
      let new := if Cf.enable.get e = 0 then Cf.refusal.set e 0 else Cf.enable.set (Cf.refusal.set e code) (if code = 0 then 1 else 0)
      Gives (.windowDataWrite sess data) s (fun t => SameMemoryOutside a 64 s t ∧ t.parts = s.parts ∧
        ((∀ j, j < 64 → s.writable (a + j) = true) → t.memBytes a 64 = leBytes 64 new.toNat))) ∧
    (s.mayWrite sess Obj.PUBLISHER_KEYS 0 = true →
      (data.length % 64 ≠ 0 ∨ 16 < ks.length ∨ ks.eraseDups.length ≠ ks.length →
        Gives (.publisherKeys sess data) s (fun t => t.rg Obj.KEYS_RESULT = 0x8D ∧ t.doms = s.doms ∧
          ∀ k, k < 16 → t.rg (Obj.SLOT_STATE k) = s.rg (Obj.SLOT_STATE k))) ∧
      (data.length % 64 = 0 → ks.length ≤ 16 → ks.eraseDups.length = ks.length →
        Gives (.publisherKeys sess data) s (fun t => t.rg Obj.KEYS_RESULT = 0 ∧ t.dom Obj.PUBLISHER_KEYS = data ∧
          ∀ k, k < 16 → t.rg (Obj.SLOT_STATE k) =
            (if s.rg (Obj.SLOT_STATE k) = 2 ∧ goneKeys.contains (s.refSlot k).signer = true then 5 else s.rg (Obj.SLOT_STATE k))))) ∧
    (s.mayWrite sess Obj.ATTEST_NONCE 0 = true → data.length = 64 →
      Gives (.attestNonce sess data) s (fun t => t.winDom sess Obj.ATTEST_NONCE = data ∧ t.draws = s.draws + 1 ∧
        ((t.winDom sess Obj.ATTEST_REPORT).drop 8).take 64 = data))

/-! ## The tables (08 R289 to R291, R464; 11 R380 to R384, R395, R398, R400, R401) -/

/-- RES_COMMAND and RES_LIST (R31, R289 to R291, R464): an entry that its checks accept is enabled, in the table and in its image, and the
instant of its acceptance is held until the tick edge from which accesses take it; a refused
one has its code in RES_RESULT and in its image, and the table is as before; an entry that is enabled already is refused with 0x06; a
disable of an entry that a job holds changes nothing. The model's choices: log 52 and 99. -/
def Obligations.ResidencyCommands : Prop :=
  ∀ (sess : Nat) (x : Session) (l : List Byte) (s : State), s.session sess = some x → x.role ≠ roleUser → s.tableSet 0 = true →
    let i := s.win sess Obj.RES_INDEX
    let offered := fun (j : Nat) (t : State) =>
      let img := s.resImage j
      let code := s.resCheck j img (s.imagePoison (s.resImageAddr j) 32) (s.actsFor sess (Rs.partition.get img)) false
      let new := Rs.enable.set (Rs.refusal.set img code) (if code = 0 then 1 else 0)
      t.win sess Obj.RES_RESULT = code ∧ SameMemoryOutside (s.resImageAddr j) 32 s t ∧ t.resImage j = new ∧
      t.resE j = (if code = 0 then new else s.resE j) ∧ (∀ k, k ≠ j → t.resE k = s.resE k) ∧
      SMap.get? t.resAt j = (if code = 0 then some s.now else SMap.get? s.resAt j)
    (s.mayWrite sess Obj.RES_COMMAND 1 = true → i < 524288 →
      (s.resEnabled i = false → Gives (.resEnable sess) s (offered i)) ∧
      (s.resEnabled i = true → Gives (.resEnable sess) s (fun t => t.win sess Obj.RES_RESULT = 6 ∧ t.res = s.res ∧ t.mem = s.mem))) ∧
    (s.mayWrite sess Obj.RES_COMMAND 2 = true → s.resEnabled i = true → s.actsFor sess (Rs.partition.get (s.resE i)) = true →
      (s.resHeldBack i = false → Gives (.resDisable sess) s (fun t => t.win sess Obj.RES_RESULT = 0 ∧ t.resE i = 0 ∧
        (∀ k, k ≠ i → t.resE k = s.resE k) ∧ SameMemoryOutside (s.resImageAddr i) 32 s t)) ∧
      (s.resHeldBack i = true → Gives (.resDisable sess) s (fun t => t = s))) ∧
    (s.mayWrite sess Obj.RES_LIST 0 = true → l.length = 4 → leNat l < 524288 → s.resEnabled (leNat l) = false →
      Gives (.resList sess l) s (fun t => offered (leNat l) t ∧
        t.win sess Obj.RES_LIST_REFUSED = (if t.win sess Obj.RES_RESULT = 0 then 0 else 1)))

/-- SLOT_COMMAND (R380, R383, R384, R398, R401): an accepted slot starts afresh; a refused one has its first code; a slot is disabled only
once it has stopped; a cancel waits for its tick. The model's choices: log 63 and 99. -/
def Obligations.SlotCommands : Prop :=
  ∀ (sess : Nat) (x : Session) (s : State), s.session sess = some x → s.tableSet 2 = true →
    let i := s.win sess Obj.SLOT_INDEX
    let e := s.slotImage i
    let code := s.slotCheck sess i e (s.imagePoison (s.slotAddr i) 128)
    let ct := s.win sess Obj.CANCEL_TICK
    i < 8192 →
    (s.mayWrite sess Obj.SLOT_COMMAND 1 = true → s.slotOn i = false → Gives (.slotEnable sess) s (fun t =>
      t.win sess Obj.SLOT_RESULT = code ∧ t.slotE i = (if code = 0 then s.freshSlot e else s.slotE i) ∧
      (∀ k, k ≠ i → t.slotE k = s.slotE k) ∧ (code ≠ 0 → t.prefixes = s.prefixes ∧ SameMemoryOutside (s.slotAddr i) 128 s t))) ∧
    (s.mayWrite sess Obj.SLOT_COMMAND 2 = true → s.slotOn i = true → s.actsFor sess (Sl.partition.get (s.slotE i)) = true →
      (slStopped (Sl.status.get (s.slotE i)) = true → Gives (.slotDisable sess) s (fun t => t.win sess Obj.SLOT_RESULT = 0 ∧ t.slotE i = 0 ∧
        ∀ k, k ≠ i → t.slotE k = s.slotE k)) ∧
      (slStopped (Sl.status.get (s.slotE i)) = false → Gives (.slotDisable sess) s (fun t => t.win sess Obj.SLOT_RESULT = 0x4C ∧
        t.slots = s.slots ∧ t.mem = s.mem))) ∧
    (∀ p : PartId, s.mayWrite sess Obj.SLOT_COMMAND 3 = true → s.slotOn i = true → Sl.partition.get (s.slotE i) = p.val →
      s.actsFor sess p = true → SMap.get? (s.pt p).slotCancels i = none → (ct = 0 ∨ s.rg (Obj.TICK_NUMBER p) ≤ ct) →
      Gives (.slotCancel sess) s (fun t => t.win sess Obj.SLOT_RESULT = 0 ∧ SMap.get? (t.pt p).slotCancels i = some ct ∧ t.slots = s.slots))

/-- Pages, prefix handles and weight copies (R380, R395, R400, R401, R460): a page is enabled by its check and disabled once its owner is,
but never for a partition for which the session may not act; an
accepted prefix takes the first pages of its source slot's own run; a handle is disabled once nothing refers to it; a replacement is
prepared, then switched at its tick. The model's choices: log 63, 65 and 99. -/
def Obligations.PagePrefixAndCopyCommands : Prop :=
  ∀ (sess : Nat) (x : Session) (s : State), s.session sess = some x →
    let i := s.win sess Obj.PAGE_INDEX
    let g : BitVec 128 := s.memRec (s.pageAddr i) 16
    let code := s.pageCheck sess i g (s.imagePoison (s.pageAddr i) 16)
    let j := s.win sess Obj.PREFIX_INDEX
    let h : BitVec 256 := s.memRec (s.prefixAddr j) 32
    let k := Px.sourceSlot.get h
    let n := Px.tokenPages.get h * s.kvLayers (Px.partition.get h)
    let first := Sl.ownFirst.get (s.slotE k)
    (s.tableSet 3 = true → i < 262144 → s.win sess Obj.PAGE_SPAN = 1 →
      (s.mayWrite sess Obj.PAGE_COMMAND 1 = true → s.pageOn i = false → Gives (.pageEnable sess) s (fun t =>
        t.win sess Obj.PAGE_RESULT = code ∧ t.win sess Obj.PAGE_REFUSED = (if code = 0 then 0 else 1) ∧
        t.pageE i = (if code = 0 then Pg.enable.set (Pg.refusal.set g 0) 1 else s.pageE i) ∧ SameMemoryOutside (s.pageAddr i) 16 s t)) ∧
      (s.mayWrite sess Obj.PAGE_COMMAND 2 = true → s.pageOn i = true → s.actsFor sess (Pg.partition.get (s.pageE i)) = true →
        (s.pageOwned (s.pageE i) = false → Gives (.pageDisable sess) s (fun t => t.win sess Obj.PAGE_RESULT = 0 ∧ t.pageE i = 0)) ∧
        (s.pageOwned (s.pageE i) = true → Gives (.pageDisable sess) s (fun t => t.win sess Obj.PAGE_RESULT = 0x4A ∧ t.pages = s.pages))) ∧
      (s.mayWrite sess Obj.PAGE_COMMAND 2 = true → s.pageOn i = true → s.actsFor sess (Pg.partition.get (s.pageE i)) = false →
        Gives (.pageDisable sess) s (fun t => t.win sess Obj.PAGE_RESULT = 0x4A ∧ t.pages = s.pages ∧ t.mem = s.mem))) ∧
    (s.tableSet 4 = true → j < 65536 →
      (s.mayWrite sess Obj.PREFIX_COMMAND 1 = true → s.prefixOn j = false →
        let bad := s.prefixCheck sess h (s.imagePoison (s.prefixAddr j) 32)
        Gives (.prefixEnable sess) s (fun t => t.win sess Obj.PREFIX_RESULT = bad ∧
          (bad ≠ 0 → t.prefixes = s.prefixes ∧ t.slots = s.slots ∧ t.pages = s.pages) ∧
          (bad = 0 → t.prefixOn j = true ∧ Px.refs.get (t.prefixE j) = 0 ∧ Px.pageFirst.get (t.prefixE j) = first ∧
            t.slotE k = Sl.ownPages.set (Sl.ownFirst.set (s.slotE k) (first + n)) (Sl.ownPages.get (s.slotE k) - n) ∧
            ∀ q, q < n → Pg.ownerKind.get (t.pageE (first + q)) = 2 ∧ Pg.owner.get (t.pageE (first + q)) = j))) ∧
      (s.mayWrite sess Obj.PREFIX_COMMAND 2 = true → s.prefixOn j = true → s.actsFor sess (Px.partition.get (s.prefixE j)) = true →
        (Px.refs.get (s.prefixE j) = 0 → Gives (.prefixDisable sess) s (fun t => t.win sess Obj.PREFIX_RESULT = 0 ∧ t.prefixE j = 0)) ∧
        (Px.refs.get (s.prefixE j) ≠ 0 → Gives (.prefixDisable sess) s (fun t => t.win sess Obj.PREFIX_RESULT = 0x4C ∧ t.prefixes = s.prefixes)))) ∧
    (∀ p : PartId, s.win sess Obj.COPY_PARTITION = p.val → s.actsFor sess p = true → s.generating p = true → s.otherBound p = false →
      (s.mayWrite sess Obj.COPY_COMMAND 1 = true → Gives (.copyPrepare sess) s (fun t => t.win sess Obj.COPY_RESULT = 0 ∧
        (t.pt p).copyPrepared = true ∧ t.res = s.res)) ∧
      (s.mayWrite sess Obj.COPY_COMMAND 2 = true → s.rg (Obj.TICK_NUMBER p) < s.win sess Obj.COPY_TICK → (s.pt p).copyPrepared = true →
        Gives (.copySwitch sess) s (fun t => t.win sess Obj.COPY_RESULT = 0 ∧ (t.pt p).copySwitch = some (s.win sess Obj.COPY_TICK) ∧
          t.res = s.res)) ∧
      (s.mayWrite sess Obj.COPY_COMMAND 2 = true → s.win sess Obj.COPY_TICK ≤ s.rg (Obj.TICK_NUMBER p) →
        Gives (.copySwitch sess) s (fun t => t.win sess Obj.COPY_RESULT = 3 ∧ t.parts = s.parts)))

/-- GEN_STEP_SETTLE (R82, R387, R398): the step that is due settles once: for a ticking job, the cancels whose tick has come are taken and
the step's first tick is noted; after the last step of a job that has ended its slots leave their lanes and its descriptor goes; where no
generation job ticks or ends, slots, pages and memory stay. The model's choices: log 64 and 65. -/
def Obligations.GenerationStepSettles : Prop :=
  ∀ (p : PartId) (due : List Nat × SMap Nat) (z : Settling) (s : State),
    (s.pt p).genDue = some due → (s.pt p).settling = some z → z.recorded = true →
    (∀ dg, SMap.get? (s.pt p).descs z.job = some dg → s.jobState p z.job = jsTicking → Gives (.genStepSettle p) s (fun t =>
      (t.pt p).genDue = none ∧ (t.pt p).genStart = (s.pt p).gen.tick ∧
      ∀ i ct, SMap.get? (s.pt p).slotCancels i = some ct → ct ≤ (s.pt p).gen.tick → SMap.get? (t.pt p).slotCancels i = none)) ∧
    ((s.pt p).genEnd = some z.job → Gives (.genStepSettle p) s (fun t => (t.pt p).genDue = none ∧ (t.pt p).genEnd = none ∧
      (t.pt p).slotRuns = [] ∧ SMap.get? (t.pt p).descs z.job = none)) ∧
    ((s.pt p).genEnd = none → (SMap.get? (s.pt p).descs z.job = none ∨ s.jobState p z.job ≠ jsTicking) → Gives (.genStepSettle p) s (fun t =>
      (t.pt p).genDue = none ∧ t.slots = s.slots ∧ t.pages = s.pages ∧ t.mem = s.mem ∧ t.now = Nat.max s.now ((s.pt p).edgeNs + 20000)))

/-! ## Partitions and jobs (13_management.md R466 to R475) -/

/-- PART_COMMAND (R466 to R468): a build that its checks allow gives the partition its resources, cleared, with its generator on and its
tick 0, and PARTITION of its ports; a rebuild exchanges them and drops the queues of the ports that leave; a dissolve returns them; a
refused command leaves its code and every partition as it was; a stop waits for the next edge. The model's choices: log 76 and 99. -/
def Obligations.PartitionCommands : Prop :=
  ∀ (p : PartId) (sess : Nat) (s : State),
    let r := s.asked p
    let code := s.partCheck p r
    let refused := fun (c : Instr) (n : Nat) => Gives c s (fun t => t.rg (Obj.PART_RESULT p) = n ∧ t.parts = s.parts ∧ t.clusters = s.clusters)
    (s.mayWrite sess (Obj.PART_COMMAND p) 1 = true →
      ((s.pt p).built ≠ none → refused (.partBuild sess p) 0x70) ∧
      ((s.pt p).built = none → code ≠ 0 → refused (.partBuild sess p) code) ∧
      ((s.pt p).built = none → code = 0 → Gives (.partBuild sess p) s (fun t => t.rg (Obj.PART_RESULT p) = 0 ∧ (t.pt p).built = some r ∧
        (t.pt p).gen.on = true ∧ (t.pt p).gen.begun = false ∧ (t.pt p).jobs = [] ∧ t.rg (Obj.TICK_NUMBER p) = 0 ∧
        t.rg (Obj.PART_STATE p) = psIdle ∧ SameOtherParts p s t ∧
        (∀ c : ClusterId, t.cl c = (if r.clusters.testBit c.val then Cluster.empty else s.cl c)) ∧
        (∀ q, q < 64 → r.ports.testBit q = true → t.rg (Obj.PARTITION q) = p.val)))) ∧
    (s.mayWrite sess (Obj.PART_COMMAND p) 2 = true → ∀ o, (s.pt p).built = some o →
      (s.rg (Obj.PART_STATE p) ≠ psIdle → refused (.partRebuild sess p) 0x70) ∧
      (s.rg (Obj.PART_STATE p) = psIdle → code ≠ 0 → refused (.partRebuild sess p) code) ∧
      (s.rg (Obj.PART_STATE p) = psIdle → code = 0 → Gives (.partRebuild sess p) s (fun t => t.rg (Obj.PART_RESULT p) = 0 ∧
        (t.pt p).built = some r ∧ SameOtherParts p s t ∧
        (∀ c : ClusterId, t.cl c = (if r.clusters.testBit c.val = o.clusters.testBit c.val then s.cl c else Cluster.empty)) ∧
        (∀ q, q < 64 → o.ports.testBit q = true → r.ports.testBit q = false →
          t.queue q 0 = [] ∧ t.queue q 1 = [] ∧ SMap.getD [] t.relays q = []) ∧
        ∀ q, q < 64 → r.ports.testBit q = true → t.rg (Obj.PARTITION q) = p.val))) ∧
    (s.mayWrite sess (Obj.PART_COMMAND p) 3 = true → ∀ o, (s.pt p).built = some o →
      (s.rg (Obj.PART_STATE p) ≠ psIdle → refused (.partDissolve sess p) 0x70) ∧
      (s.rg (Obj.PART_STATE p) = psIdle → s.anyEntry p = true → refused (.partDissolve sess p) 0x78) ∧
      (s.rg (Obj.PART_STATE p) = psIdle → s.anyEntry p = false → Gives (.partDissolve sess p) s (fun t => t.rg (Obj.PART_RESULT p) = 0 ∧
        (t.pt p).built = none ∧ t.rg (Obj.PART_STATE p) = psFree ∧ SameOtherParts p s t ∧
        (∀ c : ClusterId, t.cl c = (if o.clusters.testBit c.val then Cluster.empty else s.cl c)) ∧
        ∀ q, q < 64 → o.ports.testBit q = true → t.rg (Obj.PARTITION q) = 0xFF))) ∧
    (s.mayWrite sess (Obj.PART_COMMAND p) 4 = true → (s.pt p).built ≠ none → Gives (.partStop sess p) s (fun t =>
      t.rg (Obj.PART_RESULT p) = 0 ∧ (t.pt p).jobs = (s.pt p).jobs ∧
      ((s.pt p).jobs.any (fun kv => Job.state.get kv.2 == jsAccepted || Job.state.get kv.2 == jsTicking) = true → (t.pt p).stopAtEdge = true)))

/-- JOB_COMMAND (R470, R474, R475): an enable begins a check, whose end gives the entry and JOB_RESULT the first code that applies or
accepts the job at the end of the partition's order, while nothing defers it; a disable of a job that is idle or over clears ENABLE and its
pins, and any other changes nothing; a cancel waits for its edge, of a job that is over is acknowledged at once, and of a stopped one
changes nothing. The model's choices: log 23, 83, 99 and 106. -/
def Obligations.JobCommands : Prop :=
  ∀ (p : PartId) (sess at_ : Nat) (stitch : List (Nat × Nat)) (x : Session) (s : State), s.session sess = some x →
    let j := s.win sess (Obj.JOB_INDEX p)
    let st := s.jobState p j
    let ended := st = jsComplete ∨ st = jsCancelled ∨ st = jsAbandoned
    let ct := s.win sess (Obj.JOB_CANCEL_TICK p)
    (s.mayWrite sess (Obj.JOB_COMMAND p) 1 = true → (s.pt p).built ≠ none →
      (Job.enable.get ((s.pt p).job j) ≠ 1 → Gives (.jobEnable sess p) s (fun t => t.jobState p j = jsChecking ∧
        t.win sess (Obj.JOB_RESULT p) = 0xFF ∧ t.checks = s.checks ++ [(p.val, j, sess)])) ∧
      (Job.enable.get ((s.pt p).job j) = 1 → Gives (.jobEnable sess p) s (fun t => t.win sess (Obj.JOB_RESULT p) = 6 ∧ t.checks = s.checks ∧
        t.parts = s.parts))) ∧
    (∀ c, s.checks.find? (fun c => c.1 == p.val) = some c → s.boot.milliner = true →
      let u := s.at at_
      let code := u.jobCode (u.jobOffer p c.2.1 stitch)
      Job.enable.get ((s.pt p).job c.2.1) ≠ 1 →
      (code ≠ 0 → code ≠ 6 → Gives (.jobCheckDone p ⟨at_, stitch⟩) s (fun t => t.checks = s.checks.erase c ∧ t.jobState p c.2.1 = jsIdle ∧
        Job.refusal.get ((t.pt p).job c.2.1) = code % 256 ∧ Job.enable.get ((t.pt p).job c.2.1) = 0 ∧ (t.pt p).order = (s.pt p).order ∧
        (s.session c.2.2 ≠ none → t.win c.2.2 (Obj.JOB_RESULT p) = code % 256))) ∧
      (code = 0 → u.defersJobs p = false → Gives (.jobCheckDone p ⟨at_, stitch⟩) s (fun t => t.checks = s.checks.erase c ∧
        t.jobState p c.2.1 = jsAccepted ∧ Job.enable.get ((t.pt p).job c.2.1) = 1 ∧ (t.pt p).order = (s.pt p).order ++ [c.2.1] ∧
        SMap.getD 0 (t.pt p).accepted c.2.1 = u.now ∧ (s.session c.2.2 ≠ none → t.win c.2.2 (Obj.JOB_RESULT p) = 0))) ∧
      (code = 0 → u.defersJobs p = true → Gives (.jobCheckDone p ⟨at_, stitch⟩) s (fun t => t = s))) ∧
    (s.mayWrite sess (Obj.JOB_COMMAND p) 2 = true → (s.pt p).built ≠ none → Job.enable.get ((s.pt p).job j) ≠ 0 →
      (st = jsIdle ∨ ended → Gives (.jobDisable sess p) s (fun t => Job.enable.get ((t.pt p).job j) = 0 ∧ t.jobState p j = st ∧
        ∀ kv ∈ (t.pt p).pins, kv.1 / 4 ≠ j)) ∧
      (¬ (st = jsIdle ∨ ended) → Gives (.jobDisable sess p) s (fun t => t = s))) ∧
    (s.mayWrite sess (Obj.JOB_COMMAND p) 3 = true → (s.pt p).built ≠ none → (ct = 0 ∨ s.edgePassed p ct = false) →
      (st = jsStopped → Gives (.jobCancel sess p) s (fun t => t = s)) ∧
      (ended → Gives (.jobCancel sess p) s (fun t => t.rg (Obj.CANCEL_ACK p) = ackComplete ∧ t.parts = s.parts)) ∧
      (st ≠ jsStopped → ¬ ended → Gives (.jobCancel sess p) s (fun t => ⟨j, ct⟩ ∈ (t.pt p).cancels ∧ t.jobState p j = st)))

/-! ## Press copies and recovery (12_resilience.md R408 to R438) -/

/-- PRESS_ARM, PRESS_COPY_DONE and DRAIN_WINDOW (R415, R416, R419): an arming that is allowed sets the step and the state, and any other
changes nothing; a complete copy is the staged generation of its step, with its drain at the start; the sender's window sends the bytes at
the drain's cursor and advances it by what is acknowledged, at most what the window carries, to the end of the drain; the holder's keeps the bytes and, at the end, their
step. The model's choices: log 84 and 85. -/
def Obligations.PressCommands : Prop :=
  ∀ (p : PartId) (sess step at_ row acked : Nat) (r : SliceRun) (w : DrainRow) (x : DrainPiece) (s : State),
    let staged := s.rg (Obj.STAGED_STEP p)
    let ready := s.rg (Obj.RECOVERY_STATE p) = rsNone ∧ s.pressBound p ≤ s.rg (Obj.PRESS_TICKS p) * s.rg (Obj.TICK_GRAINS p) * 10 ∧
      (staged = 2 ^ 64 - 1 ∨ staged = s.rg (Obj.DRAINED_STEP p)) ∧ s.rg (Obj.PRESS_STATE p) ≠ 2
    (s.mayWrite sess (Obj.PRESS_STEP p) step = true →
      (ready → Gives (.pressArm sess p step) s (fun t => t.rg (Obj.PRESS_STEP p) = step % 2 ^ 64 ∧ t.rg (Obj.PRESS_STATE p) = 1 ∧ t.parts = s.parts)) ∧
      (¬ ready → Gives (.pressArm sess p step) s (fun t => t = s))) ∧
    (0 < (s.pt p).suspend → (s.pt p).pressDone = false → s.rg (Obj.PRESS_STATE p) = 2 →
      Gives (.pressCopyDone p at_) s (fun t => t.rg (Obj.STAGED_STEP p) = s.rg (Obj.PRESS_STEP p) ∧ t.rg (Obj.PRESS_STATE p) = 3 ∧
        t.rg (Obj.PRESS_COPIES p) = (s.rg (Obj.PRESS_COPIES p) + 1) % 2 ^ 32 ∧ (t.pt p).pressDone = true ∧
        (t.pt p).drain = some ⟨(s.pt p).pressGen, s.rg (Obj.PRESS_STEP p), 0⟩ ∧
        SMap.get? (t.pt p).gens (s.pt p).pressGen = some (s.rg (Obj.PRESS_STEP p)) ∧ t.clusters = s.clusters)) ∧
    ((s.pt p).slice = some r → ((s.drainPlan p (s.blockOf p r.job)).getD [])[row]? = some w → w.slice = r.number →
      let sent := Nat.min acked w.room
      (∀ d, w.dir = 0 → (s.pt p).drain = some d →
        (d.cursor + sent < s.genEnd p d.gen → Gives (.drainWindow p row acked none) s (fun t =>
          (t.pt p).drain = some ⟨d.gen, d.step, d.cursor + sent⟩ ∧ t.rg (Obj.DRAINED_STEP p) = s.rg (Obj.DRAINED_STEP p) ∧ t.mem = s.mem ∧
          (0 < sent → t.out = .drain p ⟨d.gen, d.step, d.cursor, (List.range sent).map (fun i =>
            s.memByte (s.genByteAddr p d.gen (d.cursor + i))), false⟩ :: s.out))) ∧
        (d.cursor ≤ s.genEnd p d.gen → s.genEnd p d.gen ≤ d.cursor + sent → Gives (.drainWindow p row acked none) s (fun t =>
          (t.pt p).drain = none ∧ t.rg (Obj.DRAINED_STEP p) = d.step % 2 ^ 64 ∧ t.rg (Obj.PRESS_STATE p) = 4 ∧ t.mem = s.mem))) ∧
      (w.dir ≠ 0 → Gives (.drainWindow p row acked (some x)) s (fun t => t.mem = s.mem ∧
        (∀ i, i < x.data.length → SMap.getD 0 (t.pt p).held (x.gen % 2 * 2 ^ 48 + x.offset + i) = x.data.getD i 0) ∧
        (x.last = true → SMap.get? (t.pt p).heldSteps (x.gen % 2) = some x.step))))

/-- RECOVER to ABANDON (R408, R427, R428, R430, R434 to R436, R438): an accepted RECOVER waits for its tick, and a refused one leaves its
code; at its start the partition is RECOVERING and its ports filter by hash; a pairing record that agrees opens the transfers, another one
fails the recovery; verified, it is READY, and unverified it has FAILED with its code; a RESUME that its checks allow waits for its tick,
and one outside READY or too near changes nothing; ABANDON waits for the next edge, at which the stopped job ends. The model's choices:
log 86, 87, 88 and 106. -/
def Obligations.RecoveryCommands : Prop :=
  ∀ (p : PartId) (sess at_ j feed mac job module_ : Nat) (facts : RecoverFacts) (rc : Recover) (roots : List (Nat × List Byte))
    (replicas : List (Nat × Nat × Nat)) (s : State),
    let st := s.rg (Obj.RECOVERY_STATE p)
    (s.mayWrite sess (Obj.RECOVER_COMMAND p) 1 = true → (s.pt p).stopped = some j → (st = rsStopped ∨ st = rsFailed) →
      (∀ r d, (s.pt p).built = some r → d < 48 → r.devices.testBit d = true → s.rg (Obj.DEV_STATE d) ≠ devTraining) → (s.pt p).built ≠ none →
      let code := s.recoverCode p j facts
      Gives (.recover sess p facts) s (fun t => t.rg (Obj.RECOVER_RESULT p) = code ∧ (code ≠ 0 → t.parts = s.parts) ∧
        (code = 0 → (t.pt p).stopped = some j ∧
          ∃ y, (t.pt p).recover = some y ∧ y.active = false ∧ y.kind = s.rg (Obj.POINT_KIND p) ∧ y.step = s.rg (Obj.POINT_STEP p) ∧
            y.tick = s.rg (Obj.RECOVER_TICK p)))) ∧
    ((s.pt p).recover = some rc → (s.pt p).recoverJob = some j → rc.active = false → rc.tick ≤ (s.pt p).gen.tick → (s.pt p).gen.begun = true →
      Gives (.recoveryStart p) s (fun t => t.rg (Obj.RECOVERY_STATE p) = rsRecovering ∧ (t.pt p).stopped = some j ∧
        (∃ y, (t.pt p).recover = some y ∧ y.active = true ∧ y.step = rc.step) ∧
        ∀ r q, (s.pt p).built = some r → q < 64 → r.ports.testBit q = true → t.rg (Obj.FILTER_MODE q) = 1)) ∧
    ((s.pt p).recover = some rc → (s.pt p).stopped = some j → rc.active = true → st = rsRecovering →
      (s.pairingOk p j feed job module_ = true → Gives (.restoreTransfer p (.receive (.pairing feed mac job module_))) s (fun t =>
        (t.pt p).recover = some { rc with paired := true } ∧ t.mem = s.mem)) ∧
      (s.pairingOk p j feed job module_ = false → Gives (.restoreTransfer p (.receive (.pairing feed mac job module_))) s (fun t =>
        t.rg (Obj.RECOVERY_STATE p) = rsFailed ∧ t.rg (Obj.RECOVER_RESULT p) = 0x62 ∧ t.mem = s.mem)) ∧
      (rc.wanted = [] → rc.resync = [] → s.boot.milliner = true →
        let v := (s.at at_).verify p j rc roots replicas
        Gives (.recoveryReady p at_ roots replicas) s (fun t => t.rg (Obj.RESTORE_REPORT p) = v.2 ∧
          (v.1 = 0 → t.rg (Obj.RECOVERY_STATE p) = rsReady) ∧
          (v.1 ≠ 0 → t.rg (Obj.RECOVERY_STATE p) = rsFailed ∧ t.rg (Obj.RECOVER_RESULT p) = v.1 ∧ t.mem = s.mem)))) ∧
    (s.mayWrite sess (Obj.RECOVER_COMMAND p) 2 = true → (s.pt p).recover = some rc → (s.pt p).stopped = some j →
      let ready := st = rsReady ∧ s.now + 1000000000 ≤ s.edgeOf p (s.rg (Obj.RESUME_TICK p))
      let code := s.resumeCode (s.jobOffer p j (SMap.getD [] (s.pt p).stitch j))
      (ready → Gives (.resume sess p) s (fun t => t.rg (Obj.RECOVER_RESULT p) = code % 256 ∧
        Job.refusal.get ((t.pt p).job j) = code % 256 ∧
        (t.pt p).recover = some (if code = 0 then { rc with resume := some (s.rg (Obj.RESUME_TICK p)) } else rc))) ∧
      (¬ ready → Gives (.resume sess p) s (fun t => t = s))) ∧
    (s.mayWrite sess (Obj.RECOVER_COMMAND p) 3 = true → (s.pt p).stopped = some j →
      Gives (.abandon sess p) s (fun t => (t.pt p).abandonAtEdge = true ∧ (t.pt p).stopped = some j ∧ t.jobState p j = s.jobState p j ∧
        t.rg (Obj.RECOVERY_STATE p) = st)) ∧
    (s.mayWrite sess (Obj.RECOVER_COMMAND p) 3 = true → (s.pt p).stopped = none → Gives (.abandon sess p) s (fun t => t = s)) ∧
    ((s.pt p).abandonAtEdge = true → (s.pt p).stopped = some j →
      let t := s.applyAbandon p
      (t.pt p).stopped = none ∧ (t.pt p).recover = none ∧ t.jobState p j = jsAbandoned ∧ t.rg (Obj.RECOVERY_STATE p) = rsNone ∧
        t.rg (Obj.LOST_MODULES p) = 0)

/-! ## Observability (14_observability.md R485 to R498) -/

/-- Snapshots and counter images (R485 to R488): a snapshot is pending until the grain boundary that follows it and ready from then on,
and a second one meanwhile changes nothing; an image that is due is written into its row and nowhere else. The crown-core trace (R491 to
R494): ARM clears the buffers of the traced clusters and records, STOP ends a recording, a trigger is placed once, a buffer that is frozen
or full is told and the state follows with the last one, and a spill window moves records out of the buffers of its quarter, each counted,
and stores nothing outside the ring. The model's choices: log 66, 67 and 98. -/
def Obligations.SnapshotAndTraceCommands : Prop :=
  (∀ (p : PartId) (sess : Nat) (s : State),
     let e := s.resE (s.rg (Obj.COUNTER_ENTRY p))
     (s.mayWrite sess (Obj.COUNTER_COMMAND p) 1 = true →
       (s.rg (Obj.SNAPSHOT_STATE p) ≠ 1 → (s.pt p).built ≠ none → Gives (.snapshot sess p) s (fun t =>
         (t.pt p).snapAt = some (s.grain + 1) ∧ t.rg (Obj.SNAPSHOT_STATE p) = 1 ∧ t.open_ = s.open_)) ∧
       (s.rg (Obj.SNAPSHOT_STATE p) = 1 → Gives (.snapshot sess p) s (fun t => t = s))) ∧
     (∀ g, (s.pt p).snapAt = some g → ((s.pt p).gen.begun = false ∨ g < (s.pt p).gen.start + (s.pt p).gen.len) →
       Gives (.snapshotSwitch p) s (fun t => (t.pt p).snapAt = none ∧ t.rg (Obj.SNAPSHOT_STATE p) = 2 ∧ (t.pt p).snapTick = (s.pt p).gen.tick ∧
         t.now = Nat.max s.now (g * 10000) ∧ t.mem = s.mem)) ∧
     (∀ n, (s.pt p).imgDue = some n → s.counterFits p (s.rg (Obj.COUNTER_ENTRY p)) = true →
       let job := match (s.pt p).settling with
         | some z => if 2 ≤ (s.pt p).imgFlags ∧ z.mode = 1 then z.jobId else 0
         | none => 0
       let row := n / s.rg (Obj.IMAGE_EVERY p) % Rs.rows.get e
       let a := ResEntry.curAddr e + row * 4 * Rs.cols.get e
       let img := s.counterImage p (s.pt p).imgHold (s.pt p).imgSpan n (s.pt p).imgFlags job
       Gives (.counterImageWrite p) s (fun t => (t.pt p).imgDue = none ∧
         t.rg (Obj.IMAGES_WRITTEN p) = (s.rg (Obj.IMAGES_WRITTEN p) + 1) % 2 ^ 64 ∧ SameMemoryOutside a img.length s t ∧
         ((∀ j, j < img.length → s.writable (a + j) = true) → t.memBytes a img.length = img)))) ∧
  (∀ (p : PartId) (c : ClusterId) (sess cyc w u : Nat) (win : Window) (s : State),
     let st := s.rg (Obj.TRACE_STATE p)
     let b := (s.cl c).trace
     (s.mayWrite sess (Obj.TRACE_COMMAND p) 1 = true → s.rg (Obj.TRACE_MODE p) ≠ tmSpill → Gives (.traceArm sess p) s (fun t =>
       t.rg (Obj.TRACE_STATE p) = tsRecording ∧ (t.pt p).trigger = none ∧ (t.pt p).triggerDone = false ∧
       (t.cl c).trace = (if (s.traced p).contains c.val then TraceBuf.empty else b))) ∧
     (s.mayWrite sess (Obj.TRACE_COMMAND p) 2 = true → Gives (.traceStop sess p) s (fun t =>
       t.rg (Obj.TRACE_STATE p) = (if st = tsRecording then tsStopped else st) ∧ t.clusters = s.clusters)) ∧
     ((s.pt p).trigger = some (c.val, cyc) → (s.pt p).triggerDone = false → st = tsRecording → s.rg (Obj.TRIGGER_SCOPE p) ≠ 1 → b.halted = false →
       Gives (.traceTrigger p) s (fun t => (t.pt p).triggerDone = true ∧ (t.cl c).trace.trig = some b.wp ∧
         (t.cl c).trace.post = some (traceDepth * (100 - s.rg (Obj.PRE_PERCENT p)) / 100) ∧ SameOtherClusters c s t)) ∧
     (s.ownerOfCluster c = some p.val → st = tsRecording → b.halted = true → b.told = false →
       (s.rg (Obj.TRACE_MODE p) = tmTrigger → b.trig.isSome = true → Gives (.traceFrozen c) s (fun t => (t.cl c).trace.told = true ∧
         t.rg (Obj.TRACE_STATE p) = (if s.allFrozen p then tsFrozen else tsRecording) ∧ SameOtherClusters c s t)) ∧
       (s.rg (Obj.TRACE_MODE p) = tmStop → Gives (.traceStoppedFull c) s (fun t => (t.cl c).trace.told = true ∧
         t.rg (Obj.TRACE_STATE p) = (if (s.traced p).all (fun d => (s.cl d).trace.halted) then tsStopped else tsRecording) ∧
         SameOtherClusters c s t))) ∧
     ((s.windows p "$trace.spill")[w]? = some win → s.rg (Obj.TRACE_MODE p) = tmSpill → st = tsRecording → (s.pt p).gen.begun = true →
       s.spillFits p (s.rg (Obj.SPILL_ENTRY p)) = true → s.unitOf p win.unit = some u →
       let ring := s.resE (s.rg (Obj.SPILL_ENTRY p))
       Gives (.traceSpill p w) s (fun t => (t.cl c).trace.filled ≤ b.filled ∧
         (0 < Rs.rows.get ring → SameMemoryOutside (ResEntry.curAddr ring) (16 * Rs.rows.get ring) s t) ∧
         (quarterOf12 c ≠ unitQuarter u → t.cl c = s.cl c) ∧ t.rg (Obj.SPILL_WRITTEN p) =
           (s.rg (Obj.SPILL_WRITTEN p) + ((s.traced p).map (fun d => (s.cl d).trace.filled - (t.cl d).trace.filled)).sum) % 2 ^ 64)))

/-- Tensor dumps (R495 to R498): a request that its check accepts is ARMED, and a refused one reports its code; a cancel ends a live
request with 4; a capture that is due begins at its grain, unless its tensor is in a sweep; a dump window moves so many bytes of the
oldest capture to a Residency target, and a target that is gone ends the request with 3; a request is DONE when nothing more is to come. The
model's choices: log 48, 68 and 98. -/
def Obligations.DumpCommands : Prop :=
  ∀ (p : PartId) (sess n w room g : Nat) (rest : List Nat) (win : Window) (c : DumpCopy) (more : List DumpCopy) (x : Session) (s : State),
    let d := s.dump p n
    let r : BitVec 512 := BitVec.ofNat 512 (leNat (s.winDom sess (Obj.DUMP_DATA p)))
    let mine := fun (k : Nat) => ((s.dump p k).copies.take 1).any (fun c => match s.unitOf p win.unit, s.region c.from_ with
      | some u, some (.gddr v) => u == v
      | some u, some (.cxl v) => u == 48 + v
      | _, _ => false)
    (s.session sess = some x → s.win sess (Obj.DUMP_INDEX p) = n →
      (s.mayWrite sess (Obj.DUMP_COMMAND p) 1 = true →
        (d.live = true → Gives (.dumpArm sess p) s (fun t => t = s)) ∧
        (d.live = false → Gives (.dumpArm sess p) s (fun t => (t.dump p n).req = r ∧ (t.dump p n).copies = [] ∧
          (t.dump p n).state = (if s.dumpCheck p r = 0 then duArmed else duIdle) ∧ (t.dump p n).result = s.dumpCheck p r))) ∧
      (s.mayWrite sess (Obj.DUMP_COMMAND p) 2 = true →
        (d.live = true → Gives (.dumpCancel sess p) s (fun t => (t.dump p n).state = duDone ∧ (t.dump p n).result = 4 ∧ (t.dump p n).copies = [])) ∧
        (d.live = false → Gives (.dumpCancel sess p) s (fun t => t = s)))) ∧
    (d.due = g :: rest → d.live = true → s.inSweep p (Du.tensor.get d.req) = false →
      Gives (.dumpCapture p n) s (fun t => (t.dump p n).due = rest ∧ (t.dump p n).state = duCopying ∧ t.now = Nat.max s.now (g * 10000) ∧
        ∃ k, (t.dump p n).copies = d.copies ++ [k] ∧ k.index = Du.tensor.get d.req ∧ k.done = 0 ∧ k.torn = false ∧
          k.from_ = ResEntry.curAddr (s.resE k.index))) ∧
    ((s.windows p "$dump")[w]? = some win → (s.pt p).gen.begun = true → (List.range 16).find? mine = some n → d.copies = c :: more →
      (s.dumpTargetOk p d.req = false → Gives (.dumpWindow p w room) s (fun t => (t.dump p n).state = duDone ∧ (t.dump p n).result = 3 ∧
        t.mem = s.mem)) ∧
      (s.dumpTargetOk p d.req = true → Du.target.get d.req ≠ 0 → c.done + room < c.bytes →
        Gives (.dumpWindow p w room) s (fun t => (t.dump p n).copies = { c with done := c.done + room } :: more ∧
          let a := ResEntry.curAddr (s.resE (Du.destIndex.get d.req)) + (d.next + 64 + c.done)
          SameMemoryOutside a room s t ∧
          ((∀ j, j < room → s.writable (a + j) = true) → t.memBytes a room = (s.captureRead c c.done room).2)))) ∧
    (s.dumpOver p n = true → Gives (.dumpDone p n) s (fun t => (t.dump p n).state = duDone ∧
      (t.dump p n).result = (if d.anyTorn then 1 else 0)))

/-! ## Firmware and the reference store (15_security_and_images.md R499 to R516; 13 R476, R477; 01 R18) -/

/-- Firmware (R18, R476, R477, R503, R504): a program command checks the session's image and runs, and a second one meanwhile changes
nothing; its end leaves the copy written and verified or the code; an activation is refused while the target's partitions work or its other
copy is not verified, and its end exchanges the copies or keeps them; 60 s after a milliner activation the minimum advances; a milliner
restart ends every session, check, LOAD and firmware command, and clusters, slices and tick generators go on. The model's choices: log 69
and 72. -/
def Obligations.FirmwareCommands : Prop :=
  ∀ (sess at_ : Nat) (ok : Bool) (x : Session) (s : State),
    let img := s.winDom sess Obj.FW_IMAGE
    let target := s.win sess Obj.FW_TARGET
    let g := s.win sess Obj.ACTIVATE_TARGET
    (s.session sess = some x → s.mayWrite sess Obj.FW_COMMAND 1 = true →
      (s.fwRun ≠ none → Gives (.fwProgram sess) s (fun t => t = s)) ∧
      (s.fwRun = none → Gives (.fwProgram sess) s (fun t => t.rg Obj.FW_RESULT = 0xFF ∧ ∃ r, t.fwRun = some r ∧ r.image = img ∧
        (r.code = 0 ↔ img.length ≤ fwLimit ∧ s.freeCopy target ≠ none ∧
          pyCheck (listImage img) img.length [target] [Config.romKeyHash] (s.minSv target) = 0)))) ∧
    (∀ r, s.fwRun = some r → s.boot.milliner = true → Gives (.fwProgrammed at_ ok) s (fun t => t.fwRun = none ∧
      t.rg Obj.FW_RESULT = (if r.code ≠ 0 then r.code % 256 else if ok then 0 else 0x84) ∧
      (r.code = 0 → ok = true → SMap.get? t.boot.nor r.copy = some r.image ∧ t.boot.copyOk.testBit r.copy = true) ∧
      (r.code ≠ 0 ∨ ok = false → t.boot = s.boot))) ∧
    (s.session sess = some x → s.mayWrite sess Obj.ACTIVATE_COMMAND 1 = true → s.actRun = none → ∀ ty q, targetOf g = some (ty, q) →
      let busy := ty ≠ 1 ∧ ∃ p ∈ s.partsIn q, s.rg (Obj.PART_STATE p) = psActive ∨ s.rg (Obj.PART_STATE p) = psHalted
      let verified := s.boot.copyOk.testBit (otherCopy (s.activeCopy ty q))
      (busy → Gives (.activate sess) s (fun t => t.rg Obj.ACTIVATE_RESULT = 1 ∧ t.actRun = none ∧ t.boot = s.boot)) ∧
      (¬ busy → verified = false → Gives (.activate sess) s (fun t => t.rg Obj.ACTIVATE_RESULT = 2 ∧ t.actRun = none ∧ t.boot = s.boot)) ∧
      (¬ busy → verified = true → Gives (.activate sess) s (fun t => t.rg Obj.ACTIVATE_RESULT = 3 ∧ t.actRun = some (g, 0) ∧
        (ty = 1 → t.boot.milliner = false)))) ∧
    (∀ k y ty q, s.actRun = some (k, y) → targetOf k = some (ty, q) →
      let other := otherCopy (s.activeCopy ty q)
      let good := ok = true ∧ s.minSv ty ≤ s.copySv other
      Gives (.activationDone at_ ok) s (fun t => t.actRun = none ∧
        (good → t.rg Obj.ACTIVATE_RESULT = 0 ∧ t.activeCopy ty q = other) ∧
        (¬ good → t.rg Obj.ACTIVATE_RESULT = 2 ∧ t.activeCopy ty q = s.activeCopy ty q) ∧
        (ty = 1 → t.sessions = [] ∧ t.boot.milliner = true))) ∧
    (∀ d, s.boot.svDue = some d → d ≤ at_ → s.boot.milliner = true → Gives (.minSecurityVersionAdvance at_) s (fun t => t.boot.svDue = none ∧
      t.minSv 1 = Nat.max (s.minSv 1) (s.copySv (s.activeCopy 1 0)) % 2 ^ 32)) ∧
    (s.boot.milliner = true → Gives (.millinerRestart at_) s (fun t => t.sessions = [] ∧ t.checks = [] ∧ t.refLoad = none ∧ t.fwRun = none ∧
      t.boot.milliner = true ∧ t.clusters = s.clusters ∧ ∀ p : PartId, (t.pt p).slice = (s.pt p).slice ∧ (t.pt p).gen = (s.pt p).gen))

/-- The reference store (R508 to R511, R514): a LOAD takes the lowest free range of its slot, and a busy store refuses it; while the
milliner runs, a chunk after the header's writes its own bytes of the range, and ends the LOAD where a segment that it completes does not
match or where it is short; an abort, an overrun and 60 s without progress leave the slot FAILED, its range to be erased; a complete image
is VERIFIED; an erase is refused while entries lie in the image, and leaves the slot EMPTY and its range erased. The model's choices: log
70 and 104. -/
def Obligations.ReferenceStoreCommands : Prop :=
  ∀ (sess at_ : Nat) (x : Session) (l : RefLoad) (s : State),
    let k := s.win sess Obj.REF_SLOT
    let n := s.win sess Obj.REF_BYTES
    let feed := s.resE (s.win sess Obj.REF_FEED)
    let range := ceilDiv n gib * gib
    let failed := fun (code : Nat) (t : State) => t.refLoad = none ∧ t.refErase = some l.slot ∧ t.rg (Obj.SLOT_STATE l.slot) = 3 ∧
      t.rg (Obj.SLOT_RESULT_9045 l.slot) = code
    (s.session sess = some x → k < 16 →
      (∀ a, s.mayWrite sess Obj.REF_COMMAND 1 = true → n ≤ Config.refstoreBytes → s.refFind range = some a →
        (s.rg (Obj.SLOT_STATE k) ≠ 0 ∨ s.refLoad ≠ none ∨ s.refErase ≠ none → Gives (.refLoad sess) s (fun t =>
          t.win sess Obj.REF_RESULT = 0x88 ∧ t.refLoad = s.refLoad ∧ t.refs = s.refs)) ∧
        (s.rg (Obj.SLOT_STATE k) = 0 → s.refLoad = none → s.refErase = none → feedLayout feed = true → s.actsFor sess (Rs.partition.get feed) = true →
          Gives (.refLoad sess) s (fun t => t.win sess Obj.REF_RESULT = 0 ∧ t.rg (Obj.SLOT_STATE k) = 1 ∧
            t.rg (Obj.SLOT_BASE_9042 k) = a % 2 ^ 64 ∧ (t.refSlot k).range = range ∧ ∃ y, t.refLoad = some y ∧ y.slot = k ∧ y.next = 0 ∧ y.bytes = n))) ∧
      (s.mayWrite sess Obj.REF_COMMAND 3 = true → s.rg (Obj.SLOT_STATE k) ≠ 0 →
        let barred := s.refLoad ≠ none ∨ s.refErase ≠ none ∨ s.refUsed (s.rg (Obj.SLOT_BASE_9042 k)) (s.refSlot k).range = true
        (barred → Gives (.refErase sess) s (fun t => t.win sess Obj.REF_RESULT = 0x88 ∧ t.refErase = s.refErase)) ∧
        (¬ barred → Gives (.refErase sess) s (fun t => t.win sess Obj.REF_RESULT = 0 ∧ t.rg (Obj.SLOT_STATE k) = 4 ∧ t.refErase = some k)))) ∧
    (s.refLoad = some l → l.slot < 16 →
      (s.mayWrite sess Obj.REF_COMMAND 2 = true → Gives (.refAbort sess) s (failed 0x8A)) ∧
      (s.boot.milliner = true → l.since + 60 * 10 ^ 9 ≤ at_ → Gives (.refLoadTimeout at_) s (failed 0x8A)) ∧
      (s.boot.milliner = true → feedLayout (s.resE l.feed) = true → l.next * rowData < l.bytes →
        let c := s.feedChunk l.feed l.next
        let row := s.feedRow l.feed l.next
        let base := s.rg (Obj.SLOT_BASE_9042 l.slot)
        let from_ := l.next * rowData
        let len := Nat.min rowData (l.bytes - from_)
        let u := (s.at at_).programRef (base + from_) (s.memBytes row len)
        (l.next < c → l.next + Rs.rows.get (s.resE l.feed) ≤ c → Gives (.refChunk at_) s (fun t => failed 0x89 t ∧ t.mem = s.mem)) ∧
        (c = l.next → s.memLE (row + rowData + 8) 4 < len → Gives (.refChunk at_) s (fun t => failed 0x84 t ∧ t.mem = s.mem)) ∧
        (c = l.next → len ≤ s.memLE (row + rowData + 8) 4 → l.ready = true → segmentsBad (u.imageAt base) from_ (from_ + len) = false →
          Gives (.refChunk at_) s (fun t => t.refLoad = some { l with next := l.next + 1, since := Nat.max s.now at_ } ∧
            SameMemoryOutside (base + from_) len s t ∧ t.memBytes (base + from_) len = s.memBytes row len)) ∧
        (c = l.next → len ≤ s.memLE (row + rowData + 8) 4 → l.ready = true → segmentsBad (u.imageAt base) from_ (from_ + len) = true →
          Gives (.refChunk at_) s (fun t => failed 0x84 t ∧ SameMemoryOutside (base + from_) len s t))) ∧
      (s.boot.milliner = true → l.ready = true → l.bytes ≤ l.next * rowData → Gives (.imageLoaded at_) s (fun t => t.refLoad = none ∧
        t.rg (Obj.SLOT_STATE l.slot) = 2 ∧ t.rg (Obj.SLOT_RESULT_9045 l.slot) = 0 ∧ t.mem = s.mem))) ∧
    (∀ j, s.refErase = some j → j < 16 →
      let a := s.rg (Obj.SLOT_BASE_9042 j)
      let m := (s.refSlot j).range
      Gives (.eraseDone at_) s (fun t => t.refErase = none ∧ t.rg (Obj.SLOT_STATE j) = 0 ∧ SameMemoryOutside a m s t ∧
        ∀ b, a ≤ b → b < a + m → t.memByte b = 0))

/-! ## Supply, boot and throttles (16_electrical_mechanical.md R527 to R537; 15 R500 to R502) -/

/-- Power on, boot and shutdown (R10, R461, R500 to R502, R527 to R531): VIN arms the sequence; rails that come up in time raise PWR_GOOD,
and a rail that does not is timed out; the ROM starts the copy of BOOT_COPY where it passes, else the other, else enters its recovery, where
the bytes of a datagram join the image, and a complete image becomes copy A where it passes, and changes nothing where not; the devices that trained wait in self-refresh or
stay ready for a table, and the others have failed; a shutdown records its lowest cause, keeps the reference store, and loses all other
memory and every session. The model's choices: log 5, 73 and 74. -/
def Obligations.PowerAndBootCommands : Prop :=
  ∀ (at_ mv lowNs bad causes : Nat) (rst keyOk : Bool) (times : List Nat) (trained : List (Nat × Int)) (data : List Byte)
    (s : State),
    let k := s.rg Obj.BOOT_COPY % 2
    (s.power.vin = false → 48000 ≤ mv → mv ≤ 58000 → Gives (.vinApplied at_ mv rst) s (fun t => t.rg Obj.VIN_MV = mv ∧ t.power.vin = true ∧
      t.power.rst = rst ∧ t.power.armed = true ∧ t.power.good = false ∧ t.power.up = false)) ∧
    (s.power.vin = true → s.power.good = false → s.power.seq = none → (s.power.armed = true ∨ 10000000 ≤ lowNs) →
      (railsMet times railLimits 0 = 8 → Gives (.powerOnSequence at_ lowNs times) s (fun t => t.power.good = true ∧ t.power.rst = true ∧
        t.power.goodAt = Nat.max s.now at_ + times.getLastD 0 ∧ t.now = t.power.goodAt)) ∧
      (railsMet times railLimits 0 ≠ 8 → Gives (.powerOnSequence at_ lowNs times) s (fun t => t.power.good = false ∧
        t.power.seq = some (Nat.max s.now at_, railsMet times railLimits 0)))) ∧
    (∀ b n, s.power.seq = some (b, n) → b + railLimits.getD n 0 ≤ at_ → Gives (.railTimeout at_) s (fun t => t.power.seq = none ∧
      t.power.good = false ∧ t.rg Obj.LAST_SHUTDOWN = 6)) ∧
    (s.power.good = true → s.power.rst = true → s.power.up = false → s.power.goodAt + 10000000 ≤ at_ →
      Gives (.resetRelease at_ bad keyOk) s (fun t => t.power.up = true ∧ t.boot.keyOk = keyOk ∧ (SMap.get? s.mram.regs Obj.MODULE_STATE = none → t.rg Obj.MODULE_STATE = (if keyOk then 0 else 3)) ∧
        (s.copyPasses bad k = true → t.boot.milliner = true ∧ t.activeCopy 1 0 = k) ∧
        (s.copyPasses bad k = false → s.copyPasses bad (1 - k) = true → t.boot.milliner = true ∧ t.activeCopy 1 0 = 1 - k) ∧
        (s.copyPasses bad k = false → s.copyPasses bad (1 - k) = false → t.boot.romRecovery = true ∧ t.boot.milliner = s.boot.milliner))) ∧
    (let off := leNat (data.take 8)
     s.power.up = true → s.boot.romRecovery = true → 8 ≤ data.length → data.length ≤ 8200 → (off = s.boot.romBytes.length ∨ off = 0) →
      off + (data.length - 8) ≤ fwLimit →
      let img := (if off = 0 then [] else s.boot.romBytes) ++ data.drop 8
      let done := 4096 ≤ img.length ∧ pyFormatOk (listImage img) = true ∧ pyBytes (listImage img) ≤ img.length
      (¬ done → Gives (.romRecoveryDatagram data) s (fun t => t.boot.romBytes = img ∧ t.boot.romRecovery = true ∧ t.boot.nor = s.boot.nor)) ∧
      (done → Gives (.romRecoveryDatagram data) s (fun t =>
        if img.length = pyBytes (listImage img) ∧ pyCheck (listImage img) img.length [1] [Config.romKeyHash] (s.minSv 1) = 0 then
          SMap.get? t.boot.nor 0 = some img ∧ t.boot.copyOk.testBit 0 = true ∧ t.boot.milliner = true ∧ t.boot.romRecovery = false ∧
          t.activeCopy 1 0 = 0 ∧ (SMap.get? s.mram.regs Obj.BOOT_COPY = none → t.rg Obj.BOOT_COPY = 0)
        else t = s))) ∧
    (s.power.up = true → s.boot.milliner = true → s.rg Obj.GDDR7_PRESENT = 0 → Gives (.helperBoot at_ bad trained) s (fun t =>
      ∀ d : DeviceId, (trained.find? (fun y => y.1 == d.val) = none → t.rg (Obj.DEV_STATE d) = devFailed ∧
          (t.rg Obj.GDDR7_PRESENT).testBit d = false) ∧
        (∀ c, trained.find? (fun y => y.1 == d.val) = some c → (t.rg Obj.GDDR7_PRESENT).testBit d = true ∧
          t.rg (Obj.DEV_STATE d) = (if s.holdsTable d then devReady else devSelfRefresh) ∧ t.rg (Obj.DEV_TEMP d) = unsigned 32 c.2))) ∧
    (∀ c rest, (bitsOf 6 causes).filter (· ≠ 0) = c :: rest → s.power.vin = true → Gives (.shutdown at_ causes) s (fun t =>
      t.sessions = [] ∧ t.parts = State.reset.parts ∧ t.clusters = State.reset.clusters ∧ t.power.good = false ∧ t.power.up = false ∧
      t.boot.milliner = false ∧ (∀ a, t.memByte a = (if refBase ≤ a then s.memByte a else 0)) ∧
      t.power.vin = (!(causes.testBit 1 || causes.testBit 2)) ∧ ((c ≠ 5 ∨ s.power.good = true) → t.rg Obj.LAST_SHUTDOWN = c)))

/-- Throttles (R532 to R537): an average above the limit begins a power throttle, one 50 W below for 100 ms ends it; a sensor at its
threshold begins the throttle of its quarter, and 100 ms of cool sensors end it; a throttle that persists steps, up to 4; every slice in
progress fails THERMAL when one begins; INLET_HIGH is raised once. The model's choice: log 75. -/
def Obligations.ThrottleCommands : Prop :=
  ∀ (at_ watts cool altitude : Nat) (q : QuarterId) (device : Bool) (temp : Int) (p : PartId) (s : State),
    let xs := (watts :: s.throttle.samples).take 100
    let n := SMap.getD 0 s.throttle.thermalN q
    let hit := fun (t : State) => ∀ r, (s.pt p).slice = some r → ∃ r', (t.pt p).slice = some r' ∧ r'.cond.testBit cfThermal = true
    (s.power.up = true →
      (s.rg Obj.POWER_LIMIT_W * xs.length < xs.sum → s.throttle.powerN = 0 → Gives (.powerSample at_ watts) s (fun t =>
        t.throttle.powerN = 1 ∧ t.throttle.samples = xs ∧ t.rg Obj.PIN_W = xs.sum / xs.length % 2 ^ 32 ∧ hit t)) ∧
      (∀ f, xs.sum < (s.rg Obj.POWER_LIMIT_W - 50) * xs.length → s.throttle.powerN ≠ 0 → s.throttle.lowFrom = some f →
        f + 10 ^ 8 ≤ Nat.max s.now at_ → Gives (.powerSample at_ watts) s (fun t => t.throttle.powerN = 0 ∧ t.throttle.samples = xs)) ∧
      (n = 0 → (if device then 95 ≤ temp else (s.rg Obj.THROTTLE_C : Int) ≤ temp) →
        Gives (.thermalThrottle at_ q device temp) s (fun t => SMap.getD 0 t.throttle.thermalN q = 1 ∧ t.throttle.powerN = s.throttle.powerN ∧
          (device = false → t.rg (Obj.QUARTER_TEMP q) = unsigned 32 temp) ∧ hit t)) ∧
      (s.throttle.inletTold = false → inletLimit altitude < temp → Gives (.inletHigh at_ temp altitude) s (fun t =>
        t.throttle.inletTold = true ∧ t.rg Obj.INLET_TEMP = unsigned 32 temp ∧ t.throttle.powerN = s.throttle.powerN))) ∧
    (0 < s.throttle.powerN → s.throttle.powerN < 4 → s.throttle.powerStep + 10000000 ≤ at_ → s.powerOver = true →
      Gives (.throttleStep at_ q true) s (fun t => t.throttle.powerN = s.throttle.powerN + 1 ∧ t.throttle.powerStep = Nat.max s.now at_ ∧
        t.throttle.thermalN = s.throttle.thermalN)) ∧
    (0 < n → n < 4 → SMap.getD 0 s.throttle.thermalStep q + 10000000 ≤ at_ →
      Gives (.throttleStep at_ q false) s (fun t => SMap.getD 0 t.throttle.thermalN q = n + 1 ∧ t.throttle.powerN = s.throttle.powerN)) ∧
    (n ≠ 0 → cool + 10 ^ 8 ≤ at_ → Gives (.throttleRelease at_ q cool) s (fun t => SMap.getD 0 t.throttle.thermalN q = 0 ∧
      t.throttle.powerN = s.throttle.powerN ∧ ∀ k, k ≠ q.val → SMap.getD 0 t.throttle.thermalN k = SMap.getD 0 s.throttle.thermalN k))

/-! ## Frames of the commands of management, observation and supply -/

/-- What the commands of sessions, tables, partitions, jobs and recovery leave alone: session traffic touches no work, memory or object
but the two counters of Jenjo; a table command no slice, cluster or plant; a partition command no memory and no table; a job or recovery
command no cluster and no plant. The model's choice: log 10. -/
def Obligations.ManagementFrame : Prop :=
  ∀ (r : Request) (n at_ v row : Nat) (port : PortId) (p : PartId) (l : List Byte) (f : RecoverFacts) (x : Transfer)
    (roots : List (Nat × List Byte)) (replicas : List (Nat × Nat × Nat)) (chk : JobChecked) (piece : Option DrainPiece) (i : Instr) (s t : State),
    exec i s = .next t →
    ((i = .open_ r ∨ i = .openTimeout n at_ ∨ i = .sessionIdleTimeout n at_ ∨ i = .jenjoMalformed port ∨ i = .close r ∨ i = .read r ∨
      i = .readBlock r ∨ i = .notifyAck r ∨ i = .notifyResend n v at_) →
      t.parts = s.parts ∧ t.clusters = s.clusters ∧ t.mem = s.mem ∧ t.doms = s.doms ∧ SameTables s t ∧ SamePlant s t ∧
      SameRegsBut [Obj.JENJO_AUTH_FAIL, Obj.JENJO_MALFORMED] s t) ∧
    ((i = .resEnable n ∨ i = .resDisable n ∨ i = .resList n l ∨ i = .streamEnable n ∨ i = .streamDisable n ∨ i = .streamReplace n ∨
      i = .slotEnable n ∨ i = .slotDisable n ∨ i = .slotCancel n ∨ i = .pageEnable n ∨ i = .pageDisable n ∨ i = .prefixEnable n ∨
      i = .prefixDisable n ∨ i = .copyPrepare n ∨ i = .copySwitch n) →
      t.clusters = s.clusters ∧ t.doms = s.doms ∧ SamePlant s t ∧ t.poisonLog = s.poisonLog ∧ t.qps = s.qps ∧ t.regions = s.regions ∧
      t.filters = s.filters ∧ SameRegsBut [Obj.STREAMS_ENABLED] s t ∧
      ∀ q : PartId, (t.pt q).slice = (s.pt q).slice ∧ (t.pt q).gen = (s.pt q).gen ∧ (t.pt q).jobs = (s.pt q).jobs ∧
        (t.pt q).pins = (s.pt q).pins) ∧
    ((i = .partBuild n p ∨ i = .partRebuild n p ∨ i = .partDissolve n p ∨ i = .partStop n p) →
      t.mem = s.mem ∧ t.doms = s.doms ∧ SamePlant s t ∧ SameTables s t ∧ SameOtherParts p s t) ∧
    ((i = .jobEnable n p ∨ i = .jobCheckDone p chk ∨ i = .jobDisable n p ∨ i = .jobCancel n p ∨ i = .genStepSettle p ∨ i = .recover n p f ∨
      i = .recoveryStart p ∨ i = .restoreTransfer p x ∨ i = .recoveryReady p at_ roots replicas ∨ i = .resume n p ∨ i = .abandon n p ∨
      i = .pressArm n p v ∨ i = .pressCopyDone p at_ ∨ i = .drainWindow p row v piece) →
      t.clusters = s.clusters ∧ t.doms = s.doms ∧ SamePlant s t ∧ t.filters = s.filters ∧ t.qps = s.qps ∧ t.regions = s.regions ∧
      t.streams = s.streams ∧ t.streamPending = s.streamPending)

/-- What the commands of observation, firmware, the reference store, the supply and the devices leave alone: observation the engines, the
tables (but for a dump over RoCEv2, which counts in its queue pair and may let frames of streams leave) and, but for its three writers,
memory; firmware and the reference store every slice and cluster; the supply and the throttles memory, clusters and the tables,
but for the filters and byte objects that come back from MRAM as the milliner starts; the writes of time and of the tick grid memory,
tables and plant; a device's training and refresh, and the loss of an expander, tables and plant, and memory but for the removal of an
expander. The model's choice: log 10. -/
def Obligations.ObservationAndPlantFrame : Prop :=
  ∀ (n at_ v w : Nat) (b : Bool) (temp : Int) (p : PartId) (c : ClusterId) (q : QuarterId) (d : DeviceId) (x : CxlId) (l : List Byte)
    (times : List Nat) (trained : List (Nat × Int)) (o : Option Int) (i : Instr) (s t : State),
    exec i s = .next t →
    ((i = .snapshot n p ∨ i = .snapshotSwitch p ∨ i = .counterImageWrite p ∨ i = .traceArm n p ∨ i = .traceStop n p ∨ i = .traceTrigger p ∨
      i = .traceFrozen c ∨ i = .traceStoppedFull c ∨ i = .traceSpill p w ∨ i = .dumpArm n p ∨ i = .dumpCancel n p ∨ i = .dumpCapture p n ∨
      i = .dumpDone p n ∨ i = .dumpWindow p w v) →
      (∀ e : ClusterId, (t.cl e).batt = (s.cl e).batt ∧ (t.cl e).tiles = (s.cl e).tiles ∧ (t.cl e).crown = (s.cl e).crown ∧
        (t.cl e).nap = (s.cl e).nap ∧ (t.cl e).arrays = (s.cl e).arrays) ∧
      t.doms = s.doms ∧ SamePlant s t ∧ t.res = s.res ∧ (i ≠ .dumpWindow p w v → t.streams = s.streams) ∧ t.slots = s.slots ∧ t.pages = s.pages ∧
      t.prefixes = s.prefixes ∧ t.regions = s.regions ∧ t.filters = s.filters ∧
      (i ≠ .counterImageWrite p → i ≠ .traceSpill p w → i ≠ .dumpWindow p w v → t.mem = s.mem) ∧ (i ≠ .dumpWindow p w v → t.qps = s.qps)) ∧
    ((i = .fwProgram n ∨ i = .fwProgrammed at_ b ∨ i = .activate n ∨ i = .activationDone at_ b ∨ i = .minSecurityVersionAdvance at_ ∨
      i = .millinerRestart at_ ∨ i = .refLoad n ∨ i = .refAbort n ∨ i = .refErase n ∨ i = .refChunk at_ ∨ i = .refLoadTimeout at_ ∨
      i = .imageLoaded at_ ∨ i = .eraseDone at_) →
      t.clusters = s.clusters ∧ t.power = s.power ∧ t.throttle = s.throttle ∧ SameTables s t ∧
      ∀ e : PartId, (t.pt e).slice = (s.pt e).slice ∧ (t.pt e).gen = (s.pt e).gen) ∧
    ((i = .attestNonce n l ∨ i = .publisherKeys n l) → t.parts = s.parts ∧ t.clusters = s.clusters ∧ t.mem = s.mem ∧ SameTables s t) ∧
    ((i = .powerSample at_ n ∨ i = .thermalThrottle at_ q b temp ∨ i = .throttleStep at_ q b ∨ i = .throttleRelease at_ q n ∨
      i = .inletHigh at_ temp n) → t.mem = s.mem ∧ t.clusters = s.clusters ∧ t.doms = s.doms ∧ SameTables s t ∧ t.power = s.power ∧
      t.boot = s.boot) ∧
    ((i = .vinApplied at_ n b ∨ i = .powerOnSequence at_ n times ∨ i = .railTimeout at_ ∨ i = .resetRelease at_ n b ∨
      i = .romRecoveryDatagram l ∨ i = .helperBoot at_ n trained) →
      t.mem = s.mem ∧ t.clusters = s.clusters ∧ t.parts = s.parts ∧ t.res = s.res ∧ t.streams = s.streams ∧
      t.streamPending = s.streamPending ∧ t.slots = s.slots ∧ t.pages = s.pages ∧ t.prefixes = s.prefixes ∧ t.qps = s.qps ∧
      t.regions = s.regions ∧ (i ≠ .resetRelease at_ n b → i ≠ .romRecoveryDatagram l → t.doms = s.doms ∧ t.filters = s.filters)) ∧
    ((i = .tickGrainsWrite n p b v ∨ i = .closeGuardNsWrite n p v ∨ i = .timeConfigWrite n w v) →
      t.mem = s.mem ∧ t.clusters = s.clusters ∧ t.doms = s.doms ∧ SameTables s t ∧ SamePlant s t) ∧
    ((i = .highTempRefresh d v ∨ i = .normalTemperatureRefresh d ∨ i = .retrainDevice n v ∨ i = .retrainDone d o ∨
      i = .gddr7RetrainAdvised d temp ∨ i = .cxlLost x) →
      (i = .cxlLost x → s.rg (Obj.CXL_STATE x) = cxlRemoving → ∀ a, (a < cxlBase x ∨ cxlBase (x + 1) ≤ a) → t.memByte a = s.memByte a) ∧
      ((i = .cxlLost x → s.rg (Obj.CXL_STATE x) ≠ cxlRemoving) → t.mem = s.mem) ∧ t.clusters = s.clusters ∧ t.doms = s.doms ∧ SameTables s t ∧ SamePlant s t)
end

