-- ==== Sys2Proof/Laws/Maps.lean ====
section
/-!
SUPPORT. The laws of sparse maps: what a read sees after a write, and that every operation keeps the canonical form.
-/

namespace Sys2Proof.Machine
open Sys2Proof

variable {α : Type}

/-! ## Reads after writes -/

theorem SMap.get?_ins_self (m : SMap α) (k : Nat) (v : α) : SMap.get? (SMap.ins m k v) k = some v := by
  induction m with
  | nil => simp [SMap.ins, SMap.get?]
  | cons x m ih =>
    obtain ⟨j, w⟩ := x
    by_cases h1 : k < j
    · simp [SMap.ins, h1, SMap.get?]
    · by_cases h2 : k = j
      · simp [SMap.ins, h2, SMap.get?]
      · have h3 : ¬ j = k := fun h => h2 h.symm
        simp [SMap.ins, h1, h2, SMap.get?, h3, ih]

theorem SMap.get?_ins_ne (m : SMap α) {k j : Nat} (v : α) (h : j ≠ k) : SMap.get? (SMap.ins m k v) j = SMap.get? m j := by
  have h' : ¬ k = j := fun e => h e.symm
  induction m with
  | nil => simp [SMap.ins, SMap.get?, h']
  | cons x m ih =>
    obtain ⟨i, w⟩ := x
    by_cases h1 : k < i
    · simp [SMap.ins, h1, SMap.get?, h']
    · by_cases h2 : k = i
      · subst h2; simp [SMap.ins, SMap.get?, h']
      · simp only [SMap.ins, h1, h2, if_false, SMap.get?, ih]

theorem SMap.get?_del_self (m : SMap α) (k : Nat) : SMap.get? (SMap.del m k) k = none := by
  induction m with
  | nil => simp [SMap.del, SMap.get?]
  | cons x m ih =>
    obtain ⟨j, w⟩ := x
    by_cases h : j = k
    · simp [SMap.del, h, ih]
    · simp [SMap.del, h, SMap.get?, ih]

theorem SMap.get?_del_ne (m : SMap α) {k j : Nat} (h : j ≠ k) : SMap.get? (SMap.del m k) j = SMap.get? m j := by
  have h' : ¬ k = j := fun e => h e.symm
  induction m with
  | nil => simp [SMap.del]
  | cons x m ih =>
    obtain ⟨i, w⟩ := x
    by_cases h1 : i = k
    · subst h1; simp [SMap.del, SMap.get?, h', ih]
    · simp only [SMap.del, h1, if_false, SMap.get?, ih]

@[simp] theorem SMap.getD_put_self [DecidableEq α] (d : α) (m : SMap α) (k : Nat) (v : α) :
    SMap.getD d (SMap.put d m k v) k = v := by
  unfold SMap.put SMap.getD
  split
  · next h => rw [SMap.get?_del_self]; simp [h]
  · rw [SMap.get?_ins_self]; rfl

theorem SMap.getD_put_ne [DecidableEq α] (d : α) (m : SMap α) {k j : Nat} (v : α) (h : j ≠ k) :
    SMap.getD d (SMap.put d m k v) j = SMap.getD d m j := by
  unfold SMap.put SMap.getD
  split
  · rw [SMap.get?_del_ne m h]
  · rw [SMap.get?_ins_ne m v h]

/-- A list written from key `k` on leaves every key outside its extent alone. -/
theorem SMap.getD_putList_out [DecidableEq α] (d : α) (vs : List α) (m : SMap α) (k j : Nat)
    (h : j < k ∨ k + vs.length ≤ j) : SMap.getD d (SMap.putList d m k vs) j = SMap.getD d m j := by
  induction vs generalizing m k with
  | nil => rfl
  | cons v vs ih =>
    simp only [List.length_cons] at h
    rw [SMap.putList, ih _ _ (by omega), SMap.getD_put_ne d m v (by omega)]

/-- A list written from key `k` on is read back key by key. -/
theorem SMap.getD_putList_in [DecidableEq α] (d : α) (vs : List α) (m : SMap α) (k i : Nat) (h : i < vs.length) :
    SMap.getD d (SMap.putList d m k vs) (k + i) = vs[i] := by
  induction vs generalizing m k i with
  | nil => simp at h
  | cons v vs ih =>
    rw [SMap.putList]
    cases i with
    | zero => rw [SMap.getD_putList_out d vs _ _ _ (by omega)]; simp
    | succ i =>
      have := ih (SMap.put d m k v) (k + 1) i (by simpa using h)
      rw [show k + (i + 1) = k + 1 + i by omega, this]; simp

/-! ## The canonical form -/

theorem SMap.mem_ins (m : SMap α) (k : Nat) (v : α) (x : Nat × α) (h : x ∈ SMap.ins m k v) : x = (k, v) ∨ x ∈ m := by
  induction m with
  | nil => simpa [SMap.ins] using h
  | cons y m ih =>
    obtain ⟨j, w⟩ := y
    unfold SMap.ins at h
    split at h
    · simpa using h
    · split at h
      · rcases List.mem_cons.1 h with h | h
        · exact .inl h
        · exact .inr (List.mem_cons_of_mem _ h)
      · rcases List.mem_cons.1 h with h | h
        · exact .inr (h ▸ List.mem_cons_self)
        · exact (ih h).imp id (List.mem_cons_of_mem _)

theorem SMap.mem_del (m : SMap α) (k : Nat) (x : Nat × α) (h : x ∈ SMap.del m k) : x ∈ m := by
  induction m with
  | nil => simp [SMap.del] at h
  | cons y m ih =>
    obtain ⟨j, w⟩ := y
    unfold SMap.del at h
    split at h
    · exact List.mem_cons_of_mem _ (ih h)
    · rcases List.mem_cons.1 h with h | h
      · exact h ▸ List.mem_cons_self
      · exact List.mem_cons_of_mem _ (ih h)

theorem SMap.rising_ins (m : SMap α) (k : Nat) (v : α) (h : SMap.Rising m) : SMap.Rising (SMap.ins m k v) := by
  induction m with
  | nil => simp [SMap.ins, SMap.Rising]
  | cons y m ih =>
    obtain ⟨j, w⟩ := y
    have hc := List.pairwise_cons.1 h
    unfold SMap.ins
    split
    · next h1 =>
      refine List.pairwise_cons.2 ⟨fun a ha => ?_, h⟩
      rcases List.mem_cons.1 ha with rfl | ha
      · exact h1
      · exact Nat.lt_trans h1 (hc.1 a ha)
    · split
      · next h2 => subst h2; exact h
      · next h1 h2 =>
        refine List.pairwise_cons.2 ⟨fun a ha => ?_, ih hc.2⟩
        obtain ⟨x, hx, rfl⟩ := List.mem_map.1 ha
        rcases SMap.mem_ins m k v x hx with rfl | hx
        · show j < k; omega
        · exact hc.1 _ (List.mem_map_of_mem hx)

theorem SMap.rising_del (m : SMap α) (k : Nat) (h : SMap.Rising m) : SMap.Rising (SMap.del m k) := by
  induction m with
  | nil => simp [SMap.del, SMap.Rising]
  | cons y m ih =>
    obtain ⟨j, w⟩ := y
    have hc := List.pairwise_cons.1 h
    unfold SMap.del
    split
    · exact ih hc.2
    · refine List.pairwise_cons.2 ⟨fun a ha => ?_, ih hc.2⟩
      obtain ⟨x, hx, rfl⟩ := List.mem_map.1 ha
      exact hc.1 _ (List.mem_map_of_mem (SMap.mem_del m k x hx))

theorem SMap.rising_filter (m : SMap α) (f : Nat × α → Bool) (h : SMap.Rising m) : SMap.Rising (m.filter f) :=
  h.sublist (List.filter_sublist.map _)

theorem SMap.wf_nil (d : α) : SMap.Wf d ([] : SMap α) := by simp [SMap.Wf, SMap.Rising]

theorem SMap.wf_put [DecidableEq α] (d : α) (m : SMap α) (k : Nat) (v : α) (h : SMap.Wf d m) : SMap.Wf d (SMap.put d m k v) := by
  unfold SMap.put
  split
  · exact ⟨SMap.rising_del m k h.1, fun x hx => h.2 x (SMap.mem_del m k x hx)⟩
  · next hv =>
    refine ⟨SMap.rising_ins m k v h.1, fun x hx => ?_⟩
    rcases SMap.mem_ins m k v x hx with rfl | hx
    · exact hv
    · exact h.2 x hx

theorem SMap.wf_putList [DecidableEq α] (d : α) (vs : List α) (m : SMap α) (k : Nat) (h : SMap.Wf d m) :
    SMap.Wf d (SMap.putList d m k vs) := by
  induction vs generalizing m k with
  | nil => exact h
  | cons v vs ih => exact ih _ _ (SMap.wf_put d m k v h)

theorem SMap.wf_filter (d : α) (m : SMap α) (f : Nat × α → Bool) (h : SMap.Wf d m) : SMap.Wf d (m.filter f) :=
  ⟨SMap.rising_filter m f h.1, fun x hx => h.2 x (List.mem_filter.1 hx).1⟩

end Sys2Proof.Machine
end

