-- ==== Sys2Proof/Laws/State.lean ====
section
/-!
SUPPORT. What each named update of the state leaves alone: one lemma per field and update.
-/

namespace Sys2Proof.Machine
open Sys2Proof

variable (s : State)

/-! ## at -/

@[simp] theorem State.regs_at (t : Nat) : (s.at t).regs = s.regs := rfl
@[simp] theorem State.doms_at (t : Nat) : (s.at t).doms = s.doms := rfl
@[simp] theorem State.mem_at (t : Nat) : (s.at t).mem = s.mem := rfl
@[simp] theorem State.poisonLog_at (t : Nat) : (s.at t).poisonLog = s.poisonLog := rfl
@[simp] theorem State.cxlPoison_at (t : Nat) : (s.at t).cxlPoison = s.cxlPoison := rfl
@[simp] theorem State.badPages_at (t : Nat) : (s.at t).badPages = s.badPages := rfl
@[simp] theorem State.res_at (t : Nat) : (s.at t).res = s.res := rfl
@[simp] theorem State.resAt_at (t : Nat) : (s.at t).resAt = s.resAt := rfl
@[simp] theorem State.resChanged_at (t : Nat) : (s.at t).resChanged = s.resChanged := rfl
@[simp] theorem State.streams_at (t : Nat) : (s.at t).streams = s.streams := rfl
@[simp] theorem State.streamPending_at (t : Nat) : (s.at t).streamPending = s.streamPending := rfl
@[simp] theorem State.streamAt_at (t : Nat) : (s.at t).streamAt = s.streamAt := rfl
@[simp] theorem State.slots_at (t : Nat) : (s.at t).slots = s.slots := rfl
@[simp] theorem State.pages_at (t : Nat) : (s.at t).pages = s.pages := rfl
@[simp] theorem State.prefixes_at (t : Nat) : (s.at t).prefixes = s.prefixes := rfl
@[simp] theorem State.queues_at (t : Nat) : (s.at t).queues = s.queues := rfl
@[simp] theorem State.upSince_at (t : Nat) : (s.at t).upSince = s.upSince := rfl
@[simp] theorem State.pauseEnd_at (t : Nat) : (s.at t).pauseEnd = s.pauseEnd := rfl
@[simp] theorem State.pauseFrom_at (t : Nat) : (s.at t).pauseFrom = s.pauseFrom := rfl
@[simp] theorem State.hostPause_at (t : Nat) : (s.at t).hostPause = s.hostPause := rfl
@[simp] theorem State.lpiEnd_at (t : Nat) : (s.at t).lpiEnd = s.lpiEnd := rfl
@[simp] theorem State.filters_at (t : Nat) : (s.at t).filters = s.filters := rfl
@[simp] theorem State.goodSyncs_at (t : Nat) : (s.at t).goodSyncs = s.goodSyncs := rfl
@[simp] theorem State.badSyncs_at (t : Nat) : (s.at t).badSyncs = s.badSyncs := rfl
@[simp] theorem State.holdFrom_at (t : Nat) : (s.at t).holdFrom = s.holdFrom := rfl
@[simp] theorem State.announceAt_at (t : Nat) : (s.at t).announceAt = s.announceAt := rfl
@[simp] theorem State.ppsHigh_at (t : Nat) : (s.at t).ppsHigh = s.ppsHigh := rfl
@[simp] theorem State.qps_at (t : Nat) : (s.at t).qps = s.qps := rfl
@[simp] theorem State.regions_at (t : Nat) : (s.at t).regions = s.regions := rfl
@[simp] theorem State.rkeys_at (t : Nat) : (s.at t).rkeys = s.rkeys := rfl
@[simp] theorem State.histUsed_at (t : Nat) : (s.at t).histUsed = s.histUsed := rfl
@[simp] theorem State.helloTold_at (t : Nat) : (s.at t).helloTold = s.helloTold := rfl
@[simp] theorem State.peerCaps_at (t : Nat) : (s.at t).peerCaps = s.peerCaps := rfl
@[simp] theorem State.peerWake_at (t : Nat) : (s.at t).peerWake = s.peerWake := rfl
@[simp] theorem State.relays_at (t : Nat) : (s.at t).relays = s.relays := rfl
@[simp] theorem State.txq_at (t : Nat) : (s.at t).txq = s.txq := rfl
@[simp] theorem State.txFree_at (t : Nat) : (s.at t).txFree = s.txFree := rfl
@[simp] theorem State.refs_at (t : Nat) : (s.at t).refs = s.refs := rfl
@[simp] theorem State.cxlSris_at (t : Nat) : (s.at t).cxlSris = s.cxlSris := rfl
@[simp] theorem State.withheldFrom_at (t : Nat) : (s.at t).withheldFrom = s.withheldFrom := rfl
@[simp] theorem State.trainTemp_at (t : Nat) : (s.at t).trainTemp = s.trainTemp := rfl
@[simp] theorem State.advised_at (t : Nat) : (s.at t).advised = s.advised := rfl
@[simp] theorem State.clusters_at (t : Nat) : (s.at t).clusters = s.clusters := rfl
@[simp] theorem State.parts_at (t : Nat) : (s.at t).parts = s.parts := rfl
@[simp] theorem State.open_at (t : Nat) : (s.at t).open_ = s.open_ := rfl
@[simp] theorem State.closed_at (t : Nat) : (s.at t).closed = s.closed := rfl
@[simp] theorem State.totals_at (t : Nat) : (s.at t).totals = s.totals := rfl
@[simp] theorem State.sessions_at (t : Nat) : (s.at t).sessions = s.sessions := rfl
@[simp] theorem State.draws_at (t : Nat) : (s.at t).draws = s.draws := rfl
@[simp] theorem State.out_at (t : Nat) : (s.at t).out = s.out := rfl
@[simp] theorem State.checks_at (t : Nat) : (s.at t).checks = s.checks := rfl
@[simp] theorem State.power_at (t : Nat) : (s.at t).power = s.power := rfl
@[simp] theorem State.mram_at (t : Nat) : (s.at t).mram = s.mram := rfl
@[simp] theorem State.boot_at (t : Nat) : (s.at t).boot = s.boot := rfl
@[simp] theorem State.fwRun_at (t : Nat) : (s.at t).fwRun = s.fwRun := rfl
@[simp] theorem State.actRun_at (t : Nat) : (s.at t).actRun = s.actRun := rfl
@[simp] theorem State.refLoad_at (t : Nat) : (s.at t).refLoad = s.refLoad := rfl
@[simp] theorem State.refErase_at (t : Nat) : (s.at t).refErase = s.refErase := rfl
@[simp] theorem State.throttle_at (t : Nat) : (s.at t).throttle = s.throttle := rfl
@[simp] theorem State.pending_at (t : Nat) : (s.at t).pending = s.pending := rfl

/-! ## setRg -/

@[simp] theorem State.now_setRg (key v : Nat) : (s.setRg key v).now = s.now := (rfl)
@[simp] theorem State.doms_setRg (key v : Nat) : (s.setRg key v).doms = s.doms := (rfl)
@[simp] theorem State.mem_setRg (key v : Nat) : (s.setRg key v).mem = s.mem := (rfl)
@[simp] theorem State.poisonLog_setRg (key v : Nat) : (s.setRg key v).poisonLog = s.poisonLog := (rfl)
@[simp] theorem State.cxlPoison_setRg (key v : Nat) : (s.setRg key v).cxlPoison = s.cxlPoison := (rfl)
@[simp] theorem State.badPages_setRg (key v : Nat) : (s.setRg key v).badPages = s.badPages := (rfl)
@[simp] theorem State.res_setRg (key v : Nat) : (s.setRg key v).res = s.res := (rfl)
@[simp] theorem State.resAt_setRg (key v : Nat) : (s.setRg key v).resAt = s.resAt := (rfl)
@[simp] theorem State.resChanged_setRg (key v : Nat) : (s.setRg key v).resChanged = s.resChanged := (rfl)
@[simp] theorem State.streams_setRg (key v : Nat) : (s.setRg key v).streams = s.streams := (rfl)
@[simp] theorem State.streamPending_setRg (key v : Nat) : (s.setRg key v).streamPending = s.streamPending := (rfl)
@[simp] theorem State.streamAt_setRg (key v : Nat) : (s.setRg key v).streamAt = s.streamAt := (rfl)
@[simp] theorem State.slots_setRg (key v : Nat) : (s.setRg key v).slots = s.slots := (rfl)
@[simp] theorem State.pages_setRg (key v : Nat) : (s.setRg key v).pages = s.pages := (rfl)
@[simp] theorem State.prefixes_setRg (key v : Nat) : (s.setRg key v).prefixes = s.prefixes := (rfl)
@[simp] theorem State.queues_setRg (key v : Nat) : (s.setRg key v).queues = s.queues := (rfl)
@[simp] theorem State.upSince_setRg (key v : Nat) : (s.setRg key v).upSince = s.upSince := (rfl)
@[simp] theorem State.pauseEnd_setRg (key v : Nat) : (s.setRg key v).pauseEnd = s.pauseEnd := (rfl)
@[simp] theorem State.pauseFrom_setRg (key v : Nat) : (s.setRg key v).pauseFrom = s.pauseFrom := (rfl)
@[simp] theorem State.hostPause_setRg (key v : Nat) : (s.setRg key v).hostPause = s.hostPause := (rfl)
@[simp] theorem State.lpiEnd_setRg (key v : Nat) : (s.setRg key v).lpiEnd = s.lpiEnd := (rfl)
@[simp] theorem State.filters_setRg (key v : Nat) : (s.setRg key v).filters = s.filters := (rfl)
@[simp] theorem State.goodSyncs_setRg (key v : Nat) : (s.setRg key v).goodSyncs = s.goodSyncs := (rfl)
@[simp] theorem State.badSyncs_setRg (key v : Nat) : (s.setRg key v).badSyncs = s.badSyncs := (rfl)
@[simp] theorem State.holdFrom_setRg (key v : Nat) : (s.setRg key v).holdFrom = s.holdFrom := (rfl)
@[simp] theorem State.announceAt_setRg (key v : Nat) : (s.setRg key v).announceAt = s.announceAt := (rfl)
@[simp] theorem State.ppsHigh_setRg (key v : Nat) : (s.setRg key v).ppsHigh = s.ppsHigh := (rfl)
@[simp] theorem State.qps_setRg (key v : Nat) : (s.setRg key v).qps = s.qps := (rfl)
@[simp] theorem State.regions_setRg (key v : Nat) : (s.setRg key v).regions = s.regions := (rfl)
@[simp] theorem State.rkeys_setRg (key v : Nat) : (s.setRg key v).rkeys = s.rkeys := (rfl)
@[simp] theorem State.histUsed_setRg (key v : Nat) : (s.setRg key v).histUsed = s.histUsed := (rfl)
@[simp] theorem State.helloTold_setRg (key v : Nat) : (s.setRg key v).helloTold = s.helloTold := (rfl)
@[simp] theorem State.peerCaps_setRg (key v : Nat) : (s.setRg key v).peerCaps = s.peerCaps := (rfl)
@[simp] theorem State.peerWake_setRg (key v : Nat) : (s.setRg key v).peerWake = s.peerWake := (rfl)
@[simp] theorem State.relays_setRg (key v : Nat) : (s.setRg key v).relays = s.relays := (rfl)
@[simp] theorem State.txq_setRg (key v : Nat) : (s.setRg key v).txq = s.txq := (rfl)
@[simp] theorem State.txFree_setRg (key v : Nat) : (s.setRg key v).txFree = s.txFree := (rfl)
@[simp] theorem State.refs_setRg (key v : Nat) : (s.setRg key v).refs = s.refs := (rfl)
@[simp] theorem State.cxlSris_setRg (key v : Nat) : (s.setRg key v).cxlSris = s.cxlSris := (rfl)
@[simp] theorem State.withheldFrom_setRg (key v : Nat) : (s.setRg key v).withheldFrom = s.withheldFrom := (rfl)
@[simp] theorem State.trainTemp_setRg (key v : Nat) : (s.setRg key v).trainTemp = s.trainTemp := (rfl)
@[simp] theorem State.advised_setRg (key v : Nat) : (s.setRg key v).advised = s.advised := (rfl)
@[simp] theorem State.clusters_setRg (key v : Nat) : (s.setRg key v).clusters = s.clusters := (rfl)
@[simp] theorem State.parts_setRg (key v : Nat) : (s.setRg key v).parts = s.parts := (rfl)
@[simp] theorem State.open_setRg (key v : Nat) : (s.setRg key v).open_ = s.open_ := (rfl)
@[simp] theorem State.closed_setRg (key v : Nat) : (s.setRg key v).closed = s.closed := (rfl)
@[simp] theorem State.totals_setRg (key v : Nat) : (s.setRg key v).totals = s.totals := (rfl)
@[simp] theorem State.sessions_setRg (key v : Nat) : (s.setRg key v).sessions = s.sessions := (rfl)
@[simp] theorem State.draws_setRg (key v : Nat) : (s.setRg key v).draws = s.draws := (rfl)
@[simp] theorem State.out_setRg (key v : Nat) : (s.setRg key v).out = s.out := (rfl)
@[simp] theorem State.checks_setRg (key v : Nat) : (s.setRg key v).checks = s.checks := (rfl)
@[simp] theorem State.power_setRg (key v : Nat) : (s.setRg key v).power = s.power := (rfl)
@[simp] theorem State.mram_setRg (key v : Nat) : (s.setRg key v).mram = s.mram := (rfl)
@[simp] theorem State.boot_setRg (key v : Nat) : (s.setRg key v).boot = s.boot := (rfl)
@[simp] theorem State.fwRun_setRg (key v : Nat) : (s.setRg key v).fwRun = s.fwRun := (rfl)
@[simp] theorem State.actRun_setRg (key v : Nat) : (s.setRg key v).actRun = s.actRun := (rfl)
@[simp] theorem State.refLoad_setRg (key v : Nat) : (s.setRg key v).refLoad = s.refLoad := (rfl)
@[simp] theorem State.refErase_setRg (key v : Nat) : (s.setRg key v).refErase = s.refErase := (rfl)
@[simp] theorem State.throttle_setRg (key v : Nat) : (s.setRg key v).throttle = s.throttle := (rfl)
@[simp] theorem State.pending_setRg (key v : Nat) : (s.setRg key v).pending = s.pending := (rfl)

/-! ## incRg -/

@[simp] theorem State.now_incRg (key n : Nat) : (s.incRg key n).now = s.now := (rfl)
@[simp] theorem State.doms_incRg (key n : Nat) : (s.incRg key n).doms = s.doms := (rfl)
@[simp] theorem State.mem_incRg (key n : Nat) : (s.incRg key n).mem = s.mem := (rfl)
@[simp] theorem State.poisonLog_incRg (key n : Nat) : (s.incRg key n).poisonLog = s.poisonLog := (rfl)
@[simp] theorem State.cxlPoison_incRg (key n : Nat) : (s.incRg key n).cxlPoison = s.cxlPoison := (rfl)
@[simp] theorem State.badPages_incRg (key n : Nat) : (s.incRg key n).badPages = s.badPages := (rfl)
@[simp] theorem State.res_incRg (key n : Nat) : (s.incRg key n).res = s.res := (rfl)
@[simp] theorem State.resAt_incRg (key n : Nat) : (s.incRg key n).resAt = s.resAt := (rfl)
@[simp] theorem State.resChanged_incRg (key n : Nat) : (s.incRg key n).resChanged = s.resChanged := (rfl)
@[simp] theorem State.streams_incRg (key n : Nat) : (s.incRg key n).streams = s.streams := (rfl)
@[simp] theorem State.streamPending_incRg (key n : Nat) : (s.incRg key n).streamPending = s.streamPending := (rfl)
@[simp] theorem State.streamAt_incRg (key n : Nat) : (s.incRg key n).streamAt = s.streamAt := (rfl)
@[simp] theorem State.slots_incRg (key n : Nat) : (s.incRg key n).slots = s.slots := (rfl)
@[simp] theorem State.pages_incRg (key n : Nat) : (s.incRg key n).pages = s.pages := (rfl)
@[simp] theorem State.prefixes_incRg (key n : Nat) : (s.incRg key n).prefixes = s.prefixes := (rfl)
@[simp] theorem State.queues_incRg (key n : Nat) : (s.incRg key n).queues = s.queues := (rfl)
@[simp] theorem State.upSince_incRg (key n : Nat) : (s.incRg key n).upSince = s.upSince := (rfl)
@[simp] theorem State.pauseEnd_incRg (key n : Nat) : (s.incRg key n).pauseEnd = s.pauseEnd := (rfl)
@[simp] theorem State.pauseFrom_incRg (key n : Nat) : (s.incRg key n).pauseFrom = s.pauseFrom := (rfl)
@[simp] theorem State.hostPause_incRg (key n : Nat) : (s.incRg key n).hostPause = s.hostPause := (rfl)
@[simp] theorem State.lpiEnd_incRg (key n : Nat) : (s.incRg key n).lpiEnd = s.lpiEnd := (rfl)
@[simp] theorem State.filters_incRg (key n : Nat) : (s.incRg key n).filters = s.filters := (rfl)
@[simp] theorem State.goodSyncs_incRg (key n : Nat) : (s.incRg key n).goodSyncs = s.goodSyncs := (rfl)
@[simp] theorem State.badSyncs_incRg (key n : Nat) : (s.incRg key n).badSyncs = s.badSyncs := (rfl)
@[simp] theorem State.holdFrom_incRg (key n : Nat) : (s.incRg key n).holdFrom = s.holdFrom := (rfl)
@[simp] theorem State.announceAt_incRg (key n : Nat) : (s.incRg key n).announceAt = s.announceAt := (rfl)
@[simp] theorem State.ppsHigh_incRg (key n : Nat) : (s.incRg key n).ppsHigh = s.ppsHigh := (rfl)
@[simp] theorem State.qps_incRg (key n : Nat) : (s.incRg key n).qps = s.qps := (rfl)
@[simp] theorem State.regions_incRg (key n : Nat) : (s.incRg key n).regions = s.regions := (rfl)
@[simp] theorem State.rkeys_incRg (key n : Nat) : (s.incRg key n).rkeys = s.rkeys := (rfl)
@[simp] theorem State.histUsed_incRg (key n : Nat) : (s.incRg key n).histUsed = s.histUsed := (rfl)
@[simp] theorem State.helloTold_incRg (key n : Nat) : (s.incRg key n).helloTold = s.helloTold := (rfl)
@[simp] theorem State.peerCaps_incRg (key n : Nat) : (s.incRg key n).peerCaps = s.peerCaps := (rfl)
@[simp] theorem State.peerWake_incRg (key n : Nat) : (s.incRg key n).peerWake = s.peerWake := (rfl)
@[simp] theorem State.relays_incRg (key n : Nat) : (s.incRg key n).relays = s.relays := (rfl)
@[simp] theorem State.txq_incRg (key n : Nat) : (s.incRg key n).txq = s.txq := (rfl)
@[simp] theorem State.txFree_incRg (key n : Nat) : (s.incRg key n).txFree = s.txFree := (rfl)
@[simp] theorem State.refs_incRg (key n : Nat) : (s.incRg key n).refs = s.refs := (rfl)
@[simp] theorem State.cxlSris_incRg (key n : Nat) : (s.incRg key n).cxlSris = s.cxlSris := (rfl)
@[simp] theorem State.withheldFrom_incRg (key n : Nat) : (s.incRg key n).withheldFrom = s.withheldFrom := (rfl)
@[simp] theorem State.trainTemp_incRg (key n : Nat) : (s.incRg key n).trainTemp = s.trainTemp := (rfl)
@[simp] theorem State.advised_incRg (key n : Nat) : (s.incRg key n).advised = s.advised := (rfl)
@[simp] theorem State.clusters_incRg (key n : Nat) : (s.incRg key n).clusters = s.clusters := (rfl)
@[simp] theorem State.parts_incRg (key n : Nat) : (s.incRg key n).parts = s.parts := (rfl)
@[simp] theorem State.open_incRg (key n : Nat) : (s.incRg key n).open_ = s.open_ := (rfl)
@[simp] theorem State.closed_incRg (key n : Nat) : (s.incRg key n).closed = s.closed := (rfl)
@[simp] theorem State.totals_incRg (key n : Nat) : (s.incRg key n).totals = s.totals := (rfl)
@[simp] theorem State.sessions_incRg (key n : Nat) : (s.incRg key n).sessions = s.sessions := (rfl)
@[simp] theorem State.draws_incRg (key n : Nat) : (s.incRg key n).draws = s.draws := (rfl)
@[simp] theorem State.out_incRg (key n : Nat) : (s.incRg key n).out = s.out := (rfl)
@[simp] theorem State.checks_incRg (key n : Nat) : (s.incRg key n).checks = s.checks := (rfl)
@[simp] theorem State.power_incRg (key n : Nat) : (s.incRg key n).power = s.power := (rfl)
@[simp] theorem State.mram_incRg (key n : Nat) : (s.incRg key n).mram = s.mram := (rfl)
@[simp] theorem State.boot_incRg (key n : Nat) : (s.incRg key n).boot = s.boot := (rfl)
@[simp] theorem State.fwRun_incRg (key n : Nat) : (s.incRg key n).fwRun = s.fwRun := (rfl)
@[simp] theorem State.actRun_incRg (key n : Nat) : (s.incRg key n).actRun = s.actRun := (rfl)
@[simp] theorem State.refLoad_incRg (key n : Nat) : (s.incRg key n).refLoad = s.refLoad := (rfl)
@[simp] theorem State.refErase_incRg (key n : Nat) : (s.incRg key n).refErase = s.refErase := (rfl)
@[simp] theorem State.throttle_incRg (key n : Nat) : (s.incRg key n).throttle = s.throttle := (rfl)
@[simp] theorem State.pending_incRg (key n : Nat) : (s.incRg key n).pending = s.pending := (rfl)

/-! ## setDom -/

@[simp] theorem State.now_setDom (key : Nat) (v : List Byte) : (s.setDom key v).now = s.now := rfl
@[simp] theorem State.regs_setDom (key : Nat) (v : List Byte) : (s.setDom key v).regs = s.regs := rfl
@[simp] theorem State.mem_setDom (key : Nat) (v : List Byte) : (s.setDom key v).mem = s.mem := rfl
@[simp] theorem State.poisonLog_setDom (key : Nat) (v : List Byte) : (s.setDom key v).poisonLog = s.poisonLog := rfl
@[simp] theorem State.cxlPoison_setDom (key : Nat) (v : List Byte) : (s.setDom key v).cxlPoison = s.cxlPoison := rfl
@[simp] theorem State.badPages_setDom (key : Nat) (v : List Byte) : (s.setDom key v).badPages = s.badPages := rfl
@[simp] theorem State.res_setDom (key : Nat) (v : List Byte) : (s.setDom key v).res = s.res := rfl
@[simp] theorem State.resAt_setDom (key : Nat) (v : List Byte) : (s.setDom key v).resAt = s.resAt := rfl
@[simp] theorem State.resChanged_setDom (key : Nat) (v : List Byte) : (s.setDom key v).resChanged = s.resChanged := rfl
@[simp] theorem State.streams_setDom (key : Nat) (v : List Byte) : (s.setDom key v).streams = s.streams := rfl
@[simp] theorem State.streamPending_setDom (key : Nat) (v : List Byte) : (s.setDom key v).streamPending = s.streamPending := rfl
@[simp] theorem State.streamAt_setDom (key : Nat) (v : List Byte) : (s.setDom key v).streamAt = s.streamAt := rfl
@[simp] theorem State.slots_setDom (key : Nat) (v : List Byte) : (s.setDom key v).slots = s.slots := rfl
@[simp] theorem State.pages_setDom (key : Nat) (v : List Byte) : (s.setDom key v).pages = s.pages := rfl
@[simp] theorem State.prefixes_setDom (key : Nat) (v : List Byte) : (s.setDom key v).prefixes = s.prefixes := rfl
@[simp] theorem State.queues_setDom (key : Nat) (v : List Byte) : (s.setDom key v).queues = s.queues := rfl
@[simp] theorem State.upSince_setDom (key : Nat) (v : List Byte) : (s.setDom key v).upSince = s.upSince := rfl
@[simp] theorem State.pauseEnd_setDom (key : Nat) (v : List Byte) : (s.setDom key v).pauseEnd = s.pauseEnd := rfl
@[simp] theorem State.pauseFrom_setDom (key : Nat) (v : List Byte) : (s.setDom key v).pauseFrom = s.pauseFrom := rfl
@[simp] theorem State.hostPause_setDom (key : Nat) (v : List Byte) : (s.setDom key v).hostPause = s.hostPause := rfl
@[simp] theorem State.lpiEnd_setDom (key : Nat) (v : List Byte) : (s.setDom key v).lpiEnd = s.lpiEnd := rfl
@[simp] theorem State.filters_setDom (key : Nat) (v : List Byte) : (s.setDom key v).filters = s.filters := rfl
@[simp] theorem State.goodSyncs_setDom (key : Nat) (v : List Byte) : (s.setDom key v).goodSyncs = s.goodSyncs := rfl
@[simp] theorem State.badSyncs_setDom (key : Nat) (v : List Byte) : (s.setDom key v).badSyncs = s.badSyncs := rfl
@[simp] theorem State.holdFrom_setDom (key : Nat) (v : List Byte) : (s.setDom key v).holdFrom = s.holdFrom := rfl
@[simp] theorem State.announceAt_setDom (key : Nat) (v : List Byte) : (s.setDom key v).announceAt = s.announceAt := rfl
@[simp] theorem State.ppsHigh_setDom (key : Nat) (v : List Byte) : (s.setDom key v).ppsHigh = s.ppsHigh := rfl
@[simp] theorem State.qps_setDom (key : Nat) (v : List Byte) : (s.setDom key v).qps = s.qps := rfl
@[simp] theorem State.regions_setDom (key : Nat) (v : List Byte) : (s.setDom key v).regions = s.regions := rfl
@[simp] theorem State.rkeys_setDom (key : Nat) (v : List Byte) : (s.setDom key v).rkeys = s.rkeys := rfl
@[simp] theorem State.histUsed_setDom (key : Nat) (v : List Byte) : (s.setDom key v).histUsed = s.histUsed := rfl
@[simp] theorem State.helloTold_setDom (key : Nat) (v : List Byte) : (s.setDom key v).helloTold = s.helloTold := rfl
@[simp] theorem State.peerCaps_setDom (key : Nat) (v : List Byte) : (s.setDom key v).peerCaps = s.peerCaps := rfl
@[simp] theorem State.peerWake_setDom (key : Nat) (v : List Byte) : (s.setDom key v).peerWake = s.peerWake := rfl
@[simp] theorem State.relays_setDom (key : Nat) (v : List Byte) : (s.setDom key v).relays = s.relays := rfl
@[simp] theorem State.txq_setDom (key : Nat) (v : List Byte) : (s.setDom key v).txq = s.txq := rfl
@[simp] theorem State.txFree_setDom (key : Nat) (v : List Byte) : (s.setDom key v).txFree = s.txFree := rfl
@[simp] theorem State.refs_setDom (key : Nat) (v : List Byte) : (s.setDom key v).refs = s.refs := rfl
@[simp] theorem State.cxlSris_setDom (key : Nat) (v : List Byte) : (s.setDom key v).cxlSris = s.cxlSris := rfl
@[simp] theorem State.withheldFrom_setDom (key : Nat) (v : List Byte) : (s.setDom key v).withheldFrom = s.withheldFrom := rfl
@[simp] theorem State.trainTemp_setDom (key : Nat) (v : List Byte) : (s.setDom key v).trainTemp = s.trainTemp := rfl
@[simp] theorem State.advised_setDom (key : Nat) (v : List Byte) : (s.setDom key v).advised = s.advised := rfl
@[simp] theorem State.clusters_setDom (key : Nat) (v : List Byte) : (s.setDom key v).clusters = s.clusters := rfl
@[simp] theorem State.parts_setDom (key : Nat) (v : List Byte) : (s.setDom key v).parts = s.parts := rfl
@[simp] theorem State.open_setDom (key : Nat) (v : List Byte) : (s.setDom key v).open_ = s.open_ := rfl
@[simp] theorem State.closed_setDom (key : Nat) (v : List Byte) : (s.setDom key v).closed = s.closed := rfl
@[simp] theorem State.totals_setDom (key : Nat) (v : List Byte) : (s.setDom key v).totals = s.totals := rfl
@[simp] theorem State.sessions_setDom (key : Nat) (v : List Byte) : (s.setDom key v).sessions = s.sessions := rfl
@[simp] theorem State.draws_setDom (key : Nat) (v : List Byte) : (s.setDom key v).draws = s.draws := rfl
@[simp] theorem State.out_setDom (key : Nat) (v : List Byte) : (s.setDom key v).out = s.out := rfl
@[simp] theorem State.checks_setDom (key : Nat) (v : List Byte) : (s.setDom key v).checks = s.checks := rfl
@[simp] theorem State.power_setDom (key : Nat) (v : List Byte) : (s.setDom key v).power = s.power := rfl
@[simp] theorem State.mram_setDom (key : Nat) (v : List Byte) : (s.setDom key v).mram = s.mram := rfl
@[simp] theorem State.boot_setDom (key : Nat) (v : List Byte) : (s.setDom key v).boot = s.boot := rfl
@[simp] theorem State.fwRun_setDom (key : Nat) (v : List Byte) : (s.setDom key v).fwRun = s.fwRun := rfl
@[simp] theorem State.actRun_setDom (key : Nat) (v : List Byte) : (s.setDom key v).actRun = s.actRun := rfl
@[simp] theorem State.refLoad_setDom (key : Nat) (v : List Byte) : (s.setDom key v).refLoad = s.refLoad := rfl
@[simp] theorem State.refErase_setDom (key : Nat) (v : List Byte) : (s.setDom key v).refErase = s.refErase := rfl
@[simp] theorem State.throttle_setDom (key : Nat) (v : List Byte) : (s.setDom key v).throttle = s.throttle := rfl
@[simp] theorem State.pending_setDom (key : Nat) (v : List Byte) : (s.setDom key v).pending = s.pending := rfl

/-! ## modPt -/

@[simp] theorem State.now_modPt (p : Nat) (f : Part → Part) : (s.modPt p f).now = s.now := rfl
@[simp] theorem State.regs_modPt (p : Nat) (f : Part → Part) : (s.modPt p f).regs = s.regs := rfl
@[simp] theorem State.doms_modPt (p : Nat) (f : Part → Part) : (s.modPt p f).doms = s.doms := rfl
@[simp] theorem State.mem_modPt (p : Nat) (f : Part → Part) : (s.modPt p f).mem = s.mem := rfl
@[simp] theorem State.poisonLog_modPt (p : Nat) (f : Part → Part) : (s.modPt p f).poisonLog = s.poisonLog := rfl
@[simp] theorem State.cxlPoison_modPt (p : Nat) (f : Part → Part) : (s.modPt p f).cxlPoison = s.cxlPoison := rfl
@[simp] theorem State.badPages_modPt (p : Nat) (f : Part → Part) : (s.modPt p f).badPages = s.badPages := rfl
@[simp] theorem State.res_modPt (p : Nat) (f : Part → Part) : (s.modPt p f).res = s.res := rfl
@[simp] theorem State.resAt_modPt (p : Nat) (f : Part → Part) : (s.modPt p f).resAt = s.resAt := rfl
@[simp] theorem State.resChanged_modPt (p : Nat) (f : Part → Part) : (s.modPt p f).resChanged = s.resChanged := rfl
@[simp] theorem State.streams_modPt (p : Nat) (f : Part → Part) : (s.modPt p f).streams = s.streams := rfl
@[simp] theorem State.streamPending_modPt (p : Nat) (f : Part → Part) : (s.modPt p f).streamPending = s.streamPending := rfl
@[simp] theorem State.streamAt_modPt (p : Nat) (f : Part → Part) : (s.modPt p f).streamAt = s.streamAt := rfl
@[simp] theorem State.slots_modPt (p : Nat) (f : Part → Part) : (s.modPt p f).slots = s.slots := rfl
@[simp] theorem State.pages_modPt (p : Nat) (f : Part → Part) : (s.modPt p f).pages = s.pages := rfl
@[simp] theorem State.prefixes_modPt (p : Nat) (f : Part → Part) : (s.modPt p f).prefixes = s.prefixes := rfl
@[simp] theorem State.queues_modPt (p : Nat) (f : Part → Part) : (s.modPt p f).queues = s.queues := rfl
@[simp] theorem State.upSince_modPt (p : Nat) (f : Part → Part) : (s.modPt p f).upSince = s.upSince := rfl
@[simp] theorem State.pauseEnd_modPt (p : Nat) (f : Part → Part) : (s.modPt p f).pauseEnd = s.pauseEnd := rfl
@[simp] theorem State.pauseFrom_modPt (p : Nat) (f : Part → Part) : (s.modPt p f).pauseFrom = s.pauseFrom := rfl
@[simp] theorem State.hostPause_modPt (p : Nat) (f : Part → Part) : (s.modPt p f).hostPause = s.hostPause := rfl
@[simp] theorem State.lpiEnd_modPt (p : Nat) (f : Part → Part) : (s.modPt p f).lpiEnd = s.lpiEnd := rfl
@[simp] theorem State.filters_modPt (p : Nat) (f : Part → Part) : (s.modPt p f).filters = s.filters := rfl
@[simp] theorem State.goodSyncs_modPt (p : Nat) (f : Part → Part) : (s.modPt p f).goodSyncs = s.goodSyncs := rfl
@[simp] theorem State.badSyncs_modPt (p : Nat) (f : Part → Part) : (s.modPt p f).badSyncs = s.badSyncs := rfl
@[simp] theorem State.holdFrom_modPt (p : Nat) (f : Part → Part) : (s.modPt p f).holdFrom = s.holdFrom := rfl
@[simp] theorem State.announceAt_modPt (p : Nat) (f : Part → Part) : (s.modPt p f).announceAt = s.announceAt := rfl
@[simp] theorem State.ppsHigh_modPt (p : Nat) (f : Part → Part) : (s.modPt p f).ppsHigh = s.ppsHigh := rfl
@[simp] theorem State.qps_modPt (p : Nat) (f : Part → Part) : (s.modPt p f).qps = s.qps := rfl
@[simp] theorem State.regions_modPt (p : Nat) (f : Part → Part) : (s.modPt p f).regions = s.regions := rfl
@[simp] theorem State.rkeys_modPt (p : Nat) (f : Part → Part) : (s.modPt p f).rkeys = s.rkeys := rfl
@[simp] theorem State.histUsed_modPt (p : Nat) (f : Part → Part) : (s.modPt p f).histUsed = s.histUsed := rfl
@[simp] theorem State.helloTold_modPt (p : Nat) (f : Part → Part) : (s.modPt p f).helloTold = s.helloTold := rfl
@[simp] theorem State.peerCaps_modPt (p : Nat) (f : Part → Part) : (s.modPt p f).peerCaps = s.peerCaps := rfl
@[simp] theorem State.peerWake_modPt (p : Nat) (f : Part → Part) : (s.modPt p f).peerWake = s.peerWake := rfl
@[simp] theorem State.relays_modPt (p : Nat) (f : Part → Part) : (s.modPt p f).relays = s.relays := rfl
@[simp] theorem State.txq_modPt (p : Nat) (f : Part → Part) : (s.modPt p f).txq = s.txq := rfl
@[simp] theorem State.txFree_modPt (p : Nat) (f : Part → Part) : (s.modPt p f).txFree = s.txFree := rfl
@[simp] theorem State.refs_modPt (p : Nat) (f : Part → Part) : (s.modPt p f).refs = s.refs := rfl
@[simp] theorem State.cxlSris_modPt (p : Nat) (f : Part → Part) : (s.modPt p f).cxlSris = s.cxlSris := rfl
@[simp] theorem State.withheldFrom_modPt (p : Nat) (f : Part → Part) : (s.modPt p f).withheldFrom = s.withheldFrom := rfl
@[simp] theorem State.trainTemp_modPt (p : Nat) (f : Part → Part) : (s.modPt p f).trainTemp = s.trainTemp := rfl
@[simp] theorem State.advised_modPt (p : Nat) (f : Part → Part) : (s.modPt p f).advised = s.advised := rfl
@[simp] theorem State.clusters_modPt (p : Nat) (f : Part → Part) : (s.modPt p f).clusters = s.clusters := rfl
@[simp] theorem State.open_modPt (p : Nat) (f : Part → Part) : (s.modPt p f).open_ = s.open_ := rfl
@[simp] theorem State.closed_modPt (p : Nat) (f : Part → Part) : (s.modPt p f).closed = s.closed := rfl
@[simp] theorem State.totals_modPt (p : Nat) (f : Part → Part) : (s.modPt p f).totals = s.totals := rfl
@[simp] theorem State.sessions_modPt (p : Nat) (f : Part → Part) : (s.modPt p f).sessions = s.sessions := rfl
@[simp] theorem State.draws_modPt (p : Nat) (f : Part → Part) : (s.modPt p f).draws = s.draws := rfl
@[simp] theorem State.out_modPt (p : Nat) (f : Part → Part) : (s.modPt p f).out = s.out := rfl
@[simp] theorem State.checks_modPt (p : Nat) (f : Part → Part) : (s.modPt p f).checks = s.checks := rfl
@[simp] theorem State.power_modPt (p : Nat) (f : Part → Part) : (s.modPt p f).power = s.power := rfl
@[simp] theorem State.mram_modPt (p : Nat) (f : Part → Part) : (s.modPt p f).mram = s.mram := rfl
@[simp] theorem State.boot_modPt (p : Nat) (f : Part → Part) : (s.modPt p f).boot = s.boot := rfl
@[simp] theorem State.fwRun_modPt (p : Nat) (f : Part → Part) : (s.modPt p f).fwRun = s.fwRun := rfl
@[simp] theorem State.actRun_modPt (p : Nat) (f : Part → Part) : (s.modPt p f).actRun = s.actRun := rfl
@[simp] theorem State.refLoad_modPt (p : Nat) (f : Part → Part) : (s.modPt p f).refLoad = s.refLoad := rfl
@[simp] theorem State.refErase_modPt (p : Nat) (f : Part → Part) : (s.modPt p f).refErase = s.refErase := rfl
@[simp] theorem State.throttle_modPt (p : Nat) (f : Part → Part) : (s.modPt p f).throttle = s.throttle := rfl
@[simp] theorem State.pending_modPt (p : Nat) (f : Part → Part) : (s.modPt p f).pending = s.pending := rfl

/-! ## modCl -/

@[simp] theorem State.now_modCl (c : Nat) (f : Cluster → Cluster) : (s.modCl c f).now = s.now := rfl
@[simp] theorem State.regs_modCl (c : Nat) (f : Cluster → Cluster) : (s.modCl c f).regs = s.regs := rfl
@[simp] theorem State.doms_modCl (c : Nat) (f : Cluster → Cluster) : (s.modCl c f).doms = s.doms := rfl
@[simp] theorem State.mem_modCl (c : Nat) (f : Cluster → Cluster) : (s.modCl c f).mem = s.mem := rfl
@[simp] theorem State.poisonLog_modCl (c : Nat) (f : Cluster → Cluster) : (s.modCl c f).poisonLog = s.poisonLog := rfl
@[simp] theorem State.cxlPoison_modCl (c : Nat) (f : Cluster → Cluster) : (s.modCl c f).cxlPoison = s.cxlPoison := rfl
@[simp] theorem State.badPages_modCl (c : Nat) (f : Cluster → Cluster) : (s.modCl c f).badPages = s.badPages := rfl
@[simp] theorem State.res_modCl (c : Nat) (f : Cluster → Cluster) : (s.modCl c f).res = s.res := rfl
@[simp] theorem State.resAt_modCl (c : Nat) (f : Cluster → Cluster) : (s.modCl c f).resAt = s.resAt := rfl
@[simp] theorem State.resChanged_modCl (c : Nat) (f : Cluster → Cluster) : (s.modCl c f).resChanged = s.resChanged := rfl
@[simp] theorem State.streams_modCl (c : Nat) (f : Cluster → Cluster) : (s.modCl c f).streams = s.streams := rfl
@[simp] theorem State.streamPending_modCl (c : Nat) (f : Cluster → Cluster) : (s.modCl c f).streamPending = s.streamPending := rfl
@[simp] theorem State.streamAt_modCl (c : Nat) (f : Cluster → Cluster) : (s.modCl c f).streamAt = s.streamAt := rfl
@[simp] theorem State.slots_modCl (c : Nat) (f : Cluster → Cluster) : (s.modCl c f).slots = s.slots := rfl
@[simp] theorem State.pages_modCl (c : Nat) (f : Cluster → Cluster) : (s.modCl c f).pages = s.pages := rfl
@[simp] theorem State.prefixes_modCl (c : Nat) (f : Cluster → Cluster) : (s.modCl c f).prefixes = s.prefixes := rfl
@[simp] theorem State.queues_modCl (c : Nat) (f : Cluster → Cluster) : (s.modCl c f).queues = s.queues := rfl
@[simp] theorem State.upSince_modCl (c : Nat) (f : Cluster → Cluster) : (s.modCl c f).upSince = s.upSince := rfl
@[simp] theorem State.pauseEnd_modCl (c : Nat) (f : Cluster → Cluster) : (s.modCl c f).pauseEnd = s.pauseEnd := rfl
@[simp] theorem State.pauseFrom_modCl (c : Nat) (f : Cluster → Cluster) : (s.modCl c f).pauseFrom = s.pauseFrom := rfl
@[simp] theorem State.hostPause_modCl (c : Nat) (f : Cluster → Cluster) : (s.modCl c f).hostPause = s.hostPause := rfl
@[simp] theorem State.lpiEnd_modCl (c : Nat) (f : Cluster → Cluster) : (s.modCl c f).lpiEnd = s.lpiEnd := rfl
@[simp] theorem State.filters_modCl (c : Nat) (f : Cluster → Cluster) : (s.modCl c f).filters = s.filters := rfl
@[simp] theorem State.goodSyncs_modCl (c : Nat) (f : Cluster → Cluster) : (s.modCl c f).goodSyncs = s.goodSyncs := rfl
@[simp] theorem State.badSyncs_modCl (c : Nat) (f : Cluster → Cluster) : (s.modCl c f).badSyncs = s.badSyncs := rfl
@[simp] theorem State.holdFrom_modCl (c : Nat) (f : Cluster → Cluster) : (s.modCl c f).holdFrom = s.holdFrom := rfl
@[simp] theorem State.announceAt_modCl (c : Nat) (f : Cluster → Cluster) : (s.modCl c f).announceAt = s.announceAt := rfl
@[simp] theorem State.ppsHigh_modCl (c : Nat) (f : Cluster → Cluster) : (s.modCl c f).ppsHigh = s.ppsHigh := rfl
@[simp] theorem State.qps_modCl (c : Nat) (f : Cluster → Cluster) : (s.modCl c f).qps = s.qps := rfl
@[simp] theorem State.regions_modCl (c : Nat) (f : Cluster → Cluster) : (s.modCl c f).regions = s.regions := rfl
@[simp] theorem State.rkeys_modCl (c : Nat) (f : Cluster → Cluster) : (s.modCl c f).rkeys = s.rkeys := rfl
@[simp] theorem State.histUsed_modCl (c : Nat) (f : Cluster → Cluster) : (s.modCl c f).histUsed = s.histUsed := rfl
@[simp] theorem State.helloTold_modCl (c : Nat) (f : Cluster → Cluster) : (s.modCl c f).helloTold = s.helloTold := rfl
@[simp] theorem State.peerCaps_modCl (c : Nat) (f : Cluster → Cluster) : (s.modCl c f).peerCaps = s.peerCaps := rfl
@[simp] theorem State.peerWake_modCl (c : Nat) (f : Cluster → Cluster) : (s.modCl c f).peerWake = s.peerWake := rfl
@[simp] theorem State.relays_modCl (c : Nat) (f : Cluster → Cluster) : (s.modCl c f).relays = s.relays := rfl
@[simp] theorem State.txq_modCl (c : Nat) (f : Cluster → Cluster) : (s.modCl c f).txq = s.txq := rfl
@[simp] theorem State.txFree_modCl (c : Nat) (f : Cluster → Cluster) : (s.modCl c f).txFree = s.txFree := rfl
@[simp] theorem State.refs_modCl (c : Nat) (f : Cluster → Cluster) : (s.modCl c f).refs = s.refs := rfl
@[simp] theorem State.cxlSris_modCl (c : Nat) (f : Cluster → Cluster) : (s.modCl c f).cxlSris = s.cxlSris := rfl
@[simp] theorem State.withheldFrom_modCl (c : Nat) (f : Cluster → Cluster) : (s.modCl c f).withheldFrom = s.withheldFrom := rfl
@[simp] theorem State.trainTemp_modCl (c : Nat) (f : Cluster → Cluster) : (s.modCl c f).trainTemp = s.trainTemp := rfl
@[simp] theorem State.advised_modCl (c : Nat) (f : Cluster → Cluster) : (s.modCl c f).advised = s.advised := rfl
@[simp] theorem State.parts_modCl (c : Nat) (f : Cluster → Cluster) : (s.modCl c f).parts = s.parts := rfl
@[simp] theorem State.open_modCl (c : Nat) (f : Cluster → Cluster) : (s.modCl c f).open_ = s.open_ := rfl
@[simp] theorem State.closed_modCl (c : Nat) (f : Cluster → Cluster) : (s.modCl c f).closed = s.closed := rfl
@[simp] theorem State.totals_modCl (c : Nat) (f : Cluster → Cluster) : (s.modCl c f).totals = s.totals := rfl
@[simp] theorem State.sessions_modCl (c : Nat) (f : Cluster → Cluster) : (s.modCl c f).sessions = s.sessions := rfl
@[simp] theorem State.draws_modCl (c : Nat) (f : Cluster → Cluster) : (s.modCl c f).draws = s.draws := rfl
@[simp] theorem State.out_modCl (c : Nat) (f : Cluster → Cluster) : (s.modCl c f).out = s.out := rfl
@[simp] theorem State.checks_modCl (c : Nat) (f : Cluster → Cluster) : (s.modCl c f).checks = s.checks := rfl
@[simp] theorem State.power_modCl (c : Nat) (f : Cluster → Cluster) : (s.modCl c f).power = s.power := rfl
@[simp] theorem State.mram_modCl (c : Nat) (f : Cluster → Cluster) : (s.modCl c f).mram = s.mram := rfl
@[simp] theorem State.boot_modCl (c : Nat) (f : Cluster → Cluster) : (s.modCl c f).boot = s.boot := rfl
@[simp] theorem State.fwRun_modCl (c : Nat) (f : Cluster → Cluster) : (s.modCl c f).fwRun = s.fwRun := rfl
@[simp] theorem State.actRun_modCl (c : Nat) (f : Cluster → Cluster) : (s.modCl c f).actRun = s.actRun := rfl
@[simp] theorem State.refLoad_modCl (c : Nat) (f : Cluster → Cluster) : (s.modCl c f).refLoad = s.refLoad := rfl
@[simp] theorem State.refErase_modCl (c : Nat) (f : Cluster → Cluster) : (s.modCl c f).refErase = s.refErase := rfl
@[simp] theorem State.throttle_modCl (c : Nat) (f : Cluster → Cluster) : (s.modCl c f).throttle = s.throttle := rfl
@[simp] theorem State.pending_modCl (c : Nat) (f : Cluster → Cluster) : (s.modCl c f).pending = s.pending := rfl

/-! ## emit -/

@[simp] theorem State.now_emit (x : Sent) : (s.emit x).now = s.now := rfl
@[simp] theorem State.regs_emit (x : Sent) : (s.emit x).regs = s.regs := rfl
@[simp] theorem State.doms_emit (x : Sent) : (s.emit x).doms = s.doms := rfl
@[simp] theorem State.mem_emit (x : Sent) : (s.emit x).mem = s.mem := rfl
@[simp] theorem State.poisonLog_emit (x : Sent) : (s.emit x).poisonLog = s.poisonLog := rfl
@[simp] theorem State.cxlPoison_emit (x : Sent) : (s.emit x).cxlPoison = s.cxlPoison := rfl
@[simp] theorem State.badPages_emit (x : Sent) : (s.emit x).badPages = s.badPages := rfl
@[simp] theorem State.res_emit (x : Sent) : (s.emit x).res = s.res := rfl
@[simp] theorem State.resAt_emit (x : Sent) : (s.emit x).resAt = s.resAt := rfl
@[simp] theorem State.resChanged_emit (x : Sent) : (s.emit x).resChanged = s.resChanged := rfl
@[simp] theorem State.streams_emit (x : Sent) : (s.emit x).streams = s.streams := rfl
@[simp] theorem State.streamPending_emit (x : Sent) : (s.emit x).streamPending = s.streamPending := rfl
@[simp] theorem State.streamAt_emit (x : Sent) : (s.emit x).streamAt = s.streamAt := rfl
@[simp] theorem State.slots_emit (x : Sent) : (s.emit x).slots = s.slots := rfl
@[simp] theorem State.pages_emit (x : Sent) : (s.emit x).pages = s.pages := rfl
@[simp] theorem State.prefixes_emit (x : Sent) : (s.emit x).prefixes = s.prefixes := rfl
@[simp] theorem State.queues_emit (x : Sent) : (s.emit x).queues = s.queues := rfl
@[simp] theorem State.upSince_emit (x : Sent) : (s.emit x).upSince = s.upSince := rfl
@[simp] theorem State.pauseEnd_emit (x : Sent) : (s.emit x).pauseEnd = s.pauseEnd := rfl
@[simp] theorem State.pauseFrom_emit (x : Sent) : (s.emit x).pauseFrom = s.pauseFrom := rfl
@[simp] theorem State.hostPause_emit (x : Sent) : (s.emit x).hostPause = s.hostPause := rfl
@[simp] theorem State.lpiEnd_emit (x : Sent) : (s.emit x).lpiEnd = s.lpiEnd := rfl
@[simp] theorem State.filters_emit (x : Sent) : (s.emit x).filters = s.filters := rfl
@[simp] theorem State.goodSyncs_emit (x : Sent) : (s.emit x).goodSyncs = s.goodSyncs := rfl
@[simp] theorem State.badSyncs_emit (x : Sent) : (s.emit x).badSyncs = s.badSyncs := rfl
@[simp] theorem State.holdFrom_emit (x : Sent) : (s.emit x).holdFrom = s.holdFrom := rfl
@[simp] theorem State.announceAt_emit (x : Sent) : (s.emit x).announceAt = s.announceAt := rfl
@[simp] theorem State.ppsHigh_emit (x : Sent) : (s.emit x).ppsHigh = s.ppsHigh := rfl
@[simp] theorem State.qps_emit (x : Sent) : (s.emit x).qps = s.qps := rfl
@[simp] theorem State.regions_emit (x : Sent) : (s.emit x).regions = s.regions := rfl
@[simp] theorem State.rkeys_emit (x : Sent) : (s.emit x).rkeys = s.rkeys := rfl
@[simp] theorem State.histUsed_emit (x : Sent) : (s.emit x).histUsed = s.histUsed := rfl
@[simp] theorem State.helloTold_emit (x : Sent) : (s.emit x).helloTold = s.helloTold := rfl
@[simp] theorem State.peerCaps_emit (x : Sent) : (s.emit x).peerCaps = s.peerCaps := rfl
@[simp] theorem State.peerWake_emit (x : Sent) : (s.emit x).peerWake = s.peerWake := rfl
@[simp] theorem State.relays_emit (x : Sent) : (s.emit x).relays = s.relays := rfl
@[simp] theorem State.txq_emit (x : Sent) : (s.emit x).txq = s.txq := rfl
@[simp] theorem State.txFree_emit (x : Sent) : (s.emit x).txFree = s.txFree := rfl
@[simp] theorem State.refs_emit (x : Sent) : (s.emit x).refs = s.refs := rfl
@[simp] theorem State.cxlSris_emit (x : Sent) : (s.emit x).cxlSris = s.cxlSris := rfl
@[simp] theorem State.withheldFrom_emit (x : Sent) : (s.emit x).withheldFrom = s.withheldFrom := rfl
@[simp] theorem State.trainTemp_emit (x : Sent) : (s.emit x).trainTemp = s.trainTemp := rfl
@[simp] theorem State.advised_emit (x : Sent) : (s.emit x).advised = s.advised := rfl
@[simp] theorem State.clusters_emit (x : Sent) : (s.emit x).clusters = s.clusters := rfl
@[simp] theorem State.parts_emit (x : Sent) : (s.emit x).parts = s.parts := rfl
@[simp] theorem State.open_emit (x : Sent) : (s.emit x).open_ = s.open_ := rfl
@[simp] theorem State.closed_emit (x : Sent) : (s.emit x).closed = s.closed := rfl
@[simp] theorem State.totals_emit (x : Sent) : (s.emit x).totals = s.totals := rfl
@[simp] theorem State.sessions_emit (x : Sent) : (s.emit x).sessions = s.sessions := rfl
@[simp] theorem State.draws_emit (x : Sent) : (s.emit x).draws = s.draws := rfl
@[simp] theorem State.checks_emit (x : Sent) : (s.emit x).checks = s.checks := rfl
@[simp] theorem State.power_emit (x : Sent) : (s.emit x).power = s.power := rfl
@[simp] theorem State.mram_emit (x : Sent) : (s.emit x).mram = s.mram := rfl
@[simp] theorem State.boot_emit (x : Sent) : (s.emit x).boot = s.boot := rfl
@[simp] theorem State.fwRun_emit (x : Sent) : (s.emit x).fwRun = s.fwRun := rfl
@[simp] theorem State.actRun_emit (x : Sent) : (s.emit x).actRun = s.actRun := rfl
@[simp] theorem State.refLoad_emit (x : Sent) : (s.emit x).refLoad = s.refLoad := rfl
@[simp] theorem State.refErase_emit (x : Sent) : (s.emit x).refErase = s.refErase := rfl
@[simp] theorem State.throttle_emit (x : Sent) : (s.emit x).throttle = s.throttle := rfl
@[simp] theorem State.pending_emit (x : Sent) : (s.emit x).pending = s.pending := rfl

/-! ## count -/

@[simp] theorem State.now_count (p kind num w n : Nat) : (s.count p kind num w n).now = s.now := rfl
@[simp] theorem State.regs_count (p kind num w n : Nat) : (s.count p kind num w n).regs = s.regs := rfl
@[simp] theorem State.doms_count (p kind num w n : Nat) : (s.count p kind num w n).doms = s.doms := rfl
@[simp] theorem State.mem_count (p kind num w n : Nat) : (s.count p kind num w n).mem = s.mem := rfl
@[simp] theorem State.poisonLog_count (p kind num w n : Nat) : (s.count p kind num w n).poisonLog = s.poisonLog := rfl
@[simp] theorem State.cxlPoison_count (p kind num w n : Nat) : (s.count p kind num w n).cxlPoison = s.cxlPoison := rfl
@[simp] theorem State.badPages_count (p kind num w n : Nat) : (s.count p kind num w n).badPages = s.badPages := rfl
@[simp] theorem State.res_count (p kind num w n : Nat) : (s.count p kind num w n).res = s.res := rfl
@[simp] theorem State.resAt_count (p kind num w n : Nat) : (s.count p kind num w n).resAt = s.resAt := rfl
@[simp] theorem State.resChanged_count (p kind num w n : Nat) : (s.count p kind num w n).resChanged = s.resChanged := rfl
@[simp] theorem State.streams_count (p kind num w n : Nat) : (s.count p kind num w n).streams = s.streams := rfl
@[simp] theorem State.streamPending_count (p kind num w n : Nat) : (s.count p kind num w n).streamPending = s.streamPending := rfl
@[simp] theorem State.streamAt_count (p kind num w n : Nat) : (s.count p kind num w n).streamAt = s.streamAt := rfl
@[simp] theorem State.slots_count (p kind num w n : Nat) : (s.count p kind num w n).slots = s.slots := rfl
@[simp] theorem State.pages_count (p kind num w n : Nat) : (s.count p kind num w n).pages = s.pages := rfl
@[simp] theorem State.prefixes_count (p kind num w n : Nat) : (s.count p kind num w n).prefixes = s.prefixes := rfl
@[simp] theorem State.queues_count (p kind num w n : Nat) : (s.count p kind num w n).queues = s.queues := rfl
@[simp] theorem State.upSince_count (p kind num w n : Nat) : (s.count p kind num w n).upSince = s.upSince := rfl
@[simp] theorem State.pauseEnd_count (p kind num w n : Nat) : (s.count p kind num w n).pauseEnd = s.pauseEnd := rfl
@[simp] theorem State.pauseFrom_count (p kind num w n : Nat) : (s.count p kind num w n).pauseFrom = s.pauseFrom := rfl
@[simp] theorem State.hostPause_count (p kind num w n : Nat) : (s.count p kind num w n).hostPause = s.hostPause := rfl
@[simp] theorem State.lpiEnd_count (p kind num w n : Nat) : (s.count p kind num w n).lpiEnd = s.lpiEnd := rfl
@[simp] theorem State.filters_count (p kind num w n : Nat) : (s.count p kind num w n).filters = s.filters := rfl
@[simp] theorem State.goodSyncs_count (p kind num w n : Nat) : (s.count p kind num w n).goodSyncs = s.goodSyncs := rfl
@[simp] theorem State.badSyncs_count (p kind num w n : Nat) : (s.count p kind num w n).badSyncs = s.badSyncs := rfl
@[simp] theorem State.holdFrom_count (p kind num w n : Nat) : (s.count p kind num w n).holdFrom = s.holdFrom := rfl
@[simp] theorem State.announceAt_count (p kind num w n : Nat) : (s.count p kind num w n).announceAt = s.announceAt := rfl
@[simp] theorem State.ppsHigh_count (p kind num w n : Nat) : (s.count p kind num w n).ppsHigh = s.ppsHigh := rfl
@[simp] theorem State.qps_count (p kind num w n : Nat) : (s.count p kind num w n).qps = s.qps := rfl
@[simp] theorem State.regions_count (p kind num w n : Nat) : (s.count p kind num w n).regions = s.regions := rfl
@[simp] theorem State.rkeys_count (p kind num w n : Nat) : (s.count p kind num w n).rkeys = s.rkeys := rfl
@[simp] theorem State.histUsed_count (p kind num w n : Nat) : (s.count p kind num w n).histUsed = s.histUsed := rfl
@[simp] theorem State.helloTold_count (p kind num w n : Nat) : (s.count p kind num w n).helloTold = s.helloTold := rfl
@[simp] theorem State.peerCaps_count (p kind num w n : Nat) : (s.count p kind num w n).peerCaps = s.peerCaps := rfl
@[simp] theorem State.peerWake_count (p kind num w n : Nat) : (s.count p kind num w n).peerWake = s.peerWake := rfl
@[simp] theorem State.relays_count (p kind num w n : Nat) : (s.count p kind num w n).relays = s.relays := rfl
@[simp] theorem State.txq_count (p kind num w n : Nat) : (s.count p kind num w n).txq = s.txq := rfl
@[simp] theorem State.txFree_count (p kind num w n : Nat) : (s.count p kind num w n).txFree = s.txFree := rfl
@[simp] theorem State.refs_count (p kind num w n : Nat) : (s.count p kind num w n).refs = s.refs := rfl
@[simp] theorem State.cxlSris_count (p kind num w n : Nat) : (s.count p kind num w n).cxlSris = s.cxlSris := rfl
@[simp] theorem State.withheldFrom_count (p kind num w n : Nat) : (s.count p kind num w n).withheldFrom = s.withheldFrom := rfl
@[simp] theorem State.trainTemp_count (p kind num w n : Nat) : (s.count p kind num w n).trainTemp = s.trainTemp := rfl
@[simp] theorem State.advised_count (p kind num w n : Nat) : (s.count p kind num w n).advised = s.advised := rfl
@[simp] theorem State.clusters_count (p kind num w n : Nat) : (s.count p kind num w n).clusters = s.clusters := rfl
@[simp] theorem State.parts_count (p kind num w n : Nat) : (s.count p kind num w n).parts = s.parts := rfl
@[simp] theorem State.closed_count (p kind num w n : Nat) : (s.count p kind num w n).closed = s.closed := rfl
@[simp] theorem State.totals_count (p kind num w n : Nat) : (s.count p kind num w n).totals = s.totals := rfl
@[simp] theorem State.sessions_count (p kind num w n : Nat) : (s.count p kind num w n).sessions = s.sessions := rfl
@[simp] theorem State.draws_count (p kind num w n : Nat) : (s.count p kind num w n).draws = s.draws := rfl
@[simp] theorem State.out_count (p kind num w n : Nat) : (s.count p kind num w n).out = s.out := rfl
@[simp] theorem State.checks_count (p kind num w n : Nat) : (s.count p kind num w n).checks = s.checks := rfl
@[simp] theorem State.power_count (p kind num w n : Nat) : (s.count p kind num w n).power = s.power := rfl
@[simp] theorem State.mram_count (p kind num w n : Nat) : (s.count p kind num w n).mram = s.mram := rfl
@[simp] theorem State.boot_count (p kind num w n : Nat) : (s.count p kind num w n).boot = s.boot := rfl
@[simp] theorem State.fwRun_count (p kind num w n : Nat) : (s.count p kind num w n).fwRun = s.fwRun := rfl
@[simp] theorem State.actRun_count (p kind num w n : Nat) : (s.count p kind num w n).actRun = s.actRun := rfl
@[simp] theorem State.refLoad_count (p kind num w n : Nat) : (s.count p kind num w n).refLoad = s.refLoad := rfl
@[simp] theorem State.refErase_count (p kind num w n : Nat) : (s.count p kind num w n).refErase = s.refErase := rfl
@[simp] theorem State.throttle_count (p kind num w n : Nat) : (s.count p kind num w n).throttle = s.throttle := rfl
@[simp] theorem State.pending_count (p kind num w n : Nat) : (s.count p kind num w n).pending = s.pending := rfl

/-! ## memPut -/

@[simp] theorem State.now_memPut (a : Nat) (bs : List Byte) : (s.memPut a bs).now = s.now := rfl
@[simp] theorem State.regs_memPut (a : Nat) (bs : List Byte) : (s.memPut a bs).regs = s.regs := rfl
@[simp] theorem State.doms_memPut (a : Nat) (bs : List Byte) : (s.memPut a bs).doms = s.doms := rfl
@[simp] theorem State.poisonLog_memPut (a : Nat) (bs : List Byte) : (s.memPut a bs).poisonLog = s.poisonLog := rfl
@[simp] theorem State.cxlPoison_memPut (a : Nat) (bs : List Byte) : (s.memPut a bs).cxlPoison = s.cxlPoison := rfl
@[simp] theorem State.badPages_memPut (a : Nat) (bs : List Byte) : (s.memPut a bs).badPages = s.badPages := rfl
@[simp] theorem State.res_memPut (a : Nat) (bs : List Byte) : (s.memPut a bs).res = s.res := rfl
@[simp] theorem State.resAt_memPut (a : Nat) (bs : List Byte) : (s.memPut a bs).resAt = s.resAt := rfl
@[simp] theorem State.resChanged_memPut (a : Nat) (bs : List Byte) : (s.memPut a bs).resChanged = s.resChanged := rfl
@[simp] theorem State.streams_memPut (a : Nat) (bs : List Byte) : (s.memPut a bs).streams = s.streams := rfl
@[simp] theorem State.streamPending_memPut (a : Nat) (bs : List Byte) : (s.memPut a bs).streamPending = s.streamPending := rfl
@[simp] theorem State.streamAt_memPut (a : Nat) (bs : List Byte) : (s.memPut a bs).streamAt = s.streamAt := rfl
@[simp] theorem State.slots_memPut (a : Nat) (bs : List Byte) : (s.memPut a bs).slots = s.slots := rfl
@[simp] theorem State.pages_memPut (a : Nat) (bs : List Byte) : (s.memPut a bs).pages = s.pages := rfl
@[simp] theorem State.prefixes_memPut (a : Nat) (bs : List Byte) : (s.memPut a bs).prefixes = s.prefixes := rfl
@[simp] theorem State.queues_memPut (a : Nat) (bs : List Byte) : (s.memPut a bs).queues = s.queues := rfl
@[simp] theorem State.upSince_memPut (a : Nat) (bs : List Byte) : (s.memPut a bs).upSince = s.upSince := rfl
@[simp] theorem State.pauseEnd_memPut (a : Nat) (bs : List Byte) : (s.memPut a bs).pauseEnd = s.pauseEnd := rfl
@[simp] theorem State.pauseFrom_memPut (a : Nat) (bs : List Byte) : (s.memPut a bs).pauseFrom = s.pauseFrom := rfl
@[simp] theorem State.hostPause_memPut (a : Nat) (bs : List Byte) : (s.memPut a bs).hostPause = s.hostPause := rfl
@[simp] theorem State.lpiEnd_memPut (a : Nat) (bs : List Byte) : (s.memPut a bs).lpiEnd = s.lpiEnd := rfl
@[simp] theorem State.filters_memPut (a : Nat) (bs : List Byte) : (s.memPut a bs).filters = s.filters := rfl
@[simp] theorem State.goodSyncs_memPut (a : Nat) (bs : List Byte) : (s.memPut a bs).goodSyncs = s.goodSyncs := rfl
@[simp] theorem State.badSyncs_memPut (a : Nat) (bs : List Byte) : (s.memPut a bs).badSyncs = s.badSyncs := rfl
@[simp] theorem State.holdFrom_memPut (a : Nat) (bs : List Byte) : (s.memPut a bs).holdFrom = s.holdFrom := rfl
@[simp] theorem State.announceAt_memPut (a : Nat) (bs : List Byte) : (s.memPut a bs).announceAt = s.announceAt := rfl
@[simp] theorem State.ppsHigh_memPut (a : Nat) (bs : List Byte) : (s.memPut a bs).ppsHigh = s.ppsHigh := rfl
@[simp] theorem State.qps_memPut (a : Nat) (bs : List Byte) : (s.memPut a bs).qps = s.qps := rfl
@[simp] theorem State.regions_memPut (a : Nat) (bs : List Byte) : (s.memPut a bs).regions = s.regions := rfl
@[simp] theorem State.rkeys_memPut (a : Nat) (bs : List Byte) : (s.memPut a bs).rkeys = s.rkeys := rfl
@[simp] theorem State.histUsed_memPut (a : Nat) (bs : List Byte) : (s.memPut a bs).histUsed = s.histUsed := rfl
@[simp] theorem State.helloTold_memPut (a : Nat) (bs : List Byte) : (s.memPut a bs).helloTold = s.helloTold := rfl
@[simp] theorem State.peerCaps_memPut (a : Nat) (bs : List Byte) : (s.memPut a bs).peerCaps = s.peerCaps := rfl
@[simp] theorem State.peerWake_memPut (a : Nat) (bs : List Byte) : (s.memPut a bs).peerWake = s.peerWake := rfl
@[simp] theorem State.relays_memPut (a : Nat) (bs : List Byte) : (s.memPut a bs).relays = s.relays := rfl
@[simp] theorem State.txq_memPut (a : Nat) (bs : List Byte) : (s.memPut a bs).txq = s.txq := rfl
@[simp] theorem State.txFree_memPut (a : Nat) (bs : List Byte) : (s.memPut a bs).txFree = s.txFree := rfl
@[simp] theorem State.refs_memPut (a : Nat) (bs : List Byte) : (s.memPut a bs).refs = s.refs := rfl
@[simp] theorem State.cxlSris_memPut (a : Nat) (bs : List Byte) : (s.memPut a bs).cxlSris = s.cxlSris := rfl
@[simp] theorem State.withheldFrom_memPut (a : Nat) (bs : List Byte) : (s.memPut a bs).withheldFrom = s.withheldFrom := rfl
@[simp] theorem State.trainTemp_memPut (a : Nat) (bs : List Byte) : (s.memPut a bs).trainTemp = s.trainTemp := rfl
@[simp] theorem State.advised_memPut (a : Nat) (bs : List Byte) : (s.memPut a bs).advised = s.advised := rfl
@[simp] theorem State.clusters_memPut (a : Nat) (bs : List Byte) : (s.memPut a bs).clusters = s.clusters := rfl
@[simp] theorem State.parts_memPut (a : Nat) (bs : List Byte) : (s.memPut a bs).parts = s.parts := rfl
@[simp] theorem State.open_memPut (a : Nat) (bs : List Byte) : (s.memPut a bs).open_ = s.open_ := rfl
@[simp] theorem State.closed_memPut (a : Nat) (bs : List Byte) : (s.memPut a bs).closed = s.closed := rfl
@[simp] theorem State.totals_memPut (a : Nat) (bs : List Byte) : (s.memPut a bs).totals = s.totals := rfl
@[simp] theorem State.sessions_memPut (a : Nat) (bs : List Byte) : (s.memPut a bs).sessions = s.sessions := rfl
@[simp] theorem State.draws_memPut (a : Nat) (bs : List Byte) : (s.memPut a bs).draws = s.draws := rfl
@[simp] theorem State.out_memPut (a : Nat) (bs : List Byte) : (s.memPut a bs).out = s.out := rfl
@[simp] theorem State.checks_memPut (a : Nat) (bs : List Byte) : (s.memPut a bs).checks = s.checks := rfl
@[simp] theorem State.power_memPut (a : Nat) (bs : List Byte) : (s.memPut a bs).power = s.power := rfl
@[simp] theorem State.mram_memPut (a : Nat) (bs : List Byte) : (s.memPut a bs).mram = s.mram := rfl
@[simp] theorem State.boot_memPut (a : Nat) (bs : List Byte) : (s.memPut a bs).boot = s.boot := rfl
@[simp] theorem State.fwRun_memPut (a : Nat) (bs : List Byte) : (s.memPut a bs).fwRun = s.fwRun := rfl
@[simp] theorem State.actRun_memPut (a : Nat) (bs : List Byte) : (s.memPut a bs).actRun = s.actRun := rfl
@[simp] theorem State.refLoad_memPut (a : Nat) (bs : List Byte) : (s.memPut a bs).refLoad = s.refLoad := rfl
@[simp] theorem State.refErase_memPut (a : Nat) (bs : List Byte) : (s.memPut a bs).refErase = s.refErase := rfl
@[simp] theorem State.throttle_memPut (a : Nat) (bs : List Byte) : (s.memPut a bs).throttle = s.throttle := rfl
@[simp] theorem State.pending_memPut (a : Nat) (bs : List Byte) : (s.memPut a bs).pending = s.pending := rfl

/-! ## notify -/

@[simp] theorem State.now_notify (code part a0 a1 : Nat) : (s.notify code part a0 a1).now = s.now := rfl
@[simp] theorem State.regs_notify (code part a0 a1 : Nat) : (s.notify code part a0 a1).regs = s.regs := rfl
@[simp] theorem State.doms_notify (code part a0 a1 : Nat) : (s.notify code part a0 a1).doms = s.doms := rfl
@[simp] theorem State.mem_notify (code part a0 a1 : Nat) : (s.notify code part a0 a1).mem = s.mem := rfl
@[simp] theorem State.poisonLog_notify (code part a0 a1 : Nat) : (s.notify code part a0 a1).poisonLog = s.poisonLog := rfl
@[simp] theorem State.cxlPoison_notify (code part a0 a1 : Nat) : (s.notify code part a0 a1).cxlPoison = s.cxlPoison := rfl
@[simp] theorem State.badPages_notify (code part a0 a1 : Nat) : (s.notify code part a0 a1).badPages = s.badPages := rfl
@[simp] theorem State.res_notify (code part a0 a1 : Nat) : (s.notify code part a0 a1).res = s.res := rfl
@[simp] theorem State.resAt_notify (code part a0 a1 : Nat) : (s.notify code part a0 a1).resAt = s.resAt := rfl
@[simp] theorem State.resChanged_notify (code part a0 a1 : Nat) : (s.notify code part a0 a1).resChanged = s.resChanged := rfl
@[simp] theorem State.streams_notify (code part a0 a1 : Nat) : (s.notify code part a0 a1).streams = s.streams := rfl
@[simp] theorem State.streamPending_notify (code part a0 a1 : Nat) : (s.notify code part a0 a1).streamPending = s.streamPending := rfl
@[simp] theorem State.streamAt_notify (code part a0 a1 : Nat) : (s.notify code part a0 a1).streamAt = s.streamAt := rfl
@[simp] theorem State.slots_notify (code part a0 a1 : Nat) : (s.notify code part a0 a1).slots = s.slots := rfl
@[simp] theorem State.pages_notify (code part a0 a1 : Nat) : (s.notify code part a0 a1).pages = s.pages := rfl
@[simp] theorem State.prefixes_notify (code part a0 a1 : Nat) : (s.notify code part a0 a1).prefixes = s.prefixes := rfl
@[simp] theorem State.queues_notify (code part a0 a1 : Nat) : (s.notify code part a0 a1).queues = s.queues := rfl
@[simp] theorem State.upSince_notify (code part a0 a1 : Nat) : (s.notify code part a0 a1).upSince = s.upSince := rfl
@[simp] theorem State.pauseEnd_notify (code part a0 a1 : Nat) : (s.notify code part a0 a1).pauseEnd = s.pauseEnd := rfl
@[simp] theorem State.pauseFrom_notify (code part a0 a1 : Nat) : (s.notify code part a0 a1).pauseFrom = s.pauseFrom := rfl
@[simp] theorem State.hostPause_notify (code part a0 a1 : Nat) : (s.notify code part a0 a1).hostPause = s.hostPause := rfl
@[simp] theorem State.lpiEnd_notify (code part a0 a1 : Nat) : (s.notify code part a0 a1).lpiEnd = s.lpiEnd := rfl
@[simp] theorem State.filters_notify (code part a0 a1 : Nat) : (s.notify code part a0 a1).filters = s.filters := rfl
@[simp] theorem State.goodSyncs_notify (code part a0 a1 : Nat) : (s.notify code part a0 a1).goodSyncs = s.goodSyncs := rfl
@[simp] theorem State.badSyncs_notify (code part a0 a1 : Nat) : (s.notify code part a0 a1).badSyncs = s.badSyncs := rfl
@[simp] theorem State.holdFrom_notify (code part a0 a1 : Nat) : (s.notify code part a0 a1).holdFrom = s.holdFrom := rfl
@[simp] theorem State.announceAt_notify (code part a0 a1 : Nat) : (s.notify code part a0 a1).announceAt = s.announceAt := rfl
@[simp] theorem State.ppsHigh_notify (code part a0 a1 : Nat) : (s.notify code part a0 a1).ppsHigh = s.ppsHigh := rfl
@[simp] theorem State.qps_notify (code part a0 a1 : Nat) : (s.notify code part a0 a1).qps = s.qps := rfl
@[simp] theorem State.regions_notify (code part a0 a1 : Nat) : (s.notify code part a0 a1).regions = s.regions := rfl
@[simp] theorem State.rkeys_notify (code part a0 a1 : Nat) : (s.notify code part a0 a1).rkeys = s.rkeys := rfl
@[simp] theorem State.histUsed_notify (code part a0 a1 : Nat) : (s.notify code part a0 a1).histUsed = s.histUsed := rfl
@[simp] theorem State.helloTold_notify (code part a0 a1 : Nat) : (s.notify code part a0 a1).helloTold = s.helloTold := rfl
@[simp] theorem State.peerCaps_notify (code part a0 a1 : Nat) : (s.notify code part a0 a1).peerCaps = s.peerCaps := rfl
@[simp] theorem State.peerWake_notify (code part a0 a1 : Nat) : (s.notify code part a0 a1).peerWake = s.peerWake := rfl
@[simp] theorem State.relays_notify (code part a0 a1 : Nat) : (s.notify code part a0 a1).relays = s.relays := rfl
@[simp] theorem State.txq_notify (code part a0 a1 : Nat) : (s.notify code part a0 a1).txq = s.txq := rfl
@[simp] theorem State.txFree_notify (code part a0 a1 : Nat) : (s.notify code part a0 a1).txFree = s.txFree := rfl
@[simp] theorem State.refs_notify (code part a0 a1 : Nat) : (s.notify code part a0 a1).refs = s.refs := rfl
@[simp] theorem State.cxlSris_notify (code part a0 a1 : Nat) : (s.notify code part a0 a1).cxlSris = s.cxlSris := rfl
@[simp] theorem State.withheldFrom_notify (code part a0 a1 : Nat) : (s.notify code part a0 a1).withheldFrom = s.withheldFrom := rfl
@[simp] theorem State.trainTemp_notify (code part a0 a1 : Nat) : (s.notify code part a0 a1).trainTemp = s.trainTemp := rfl
@[simp] theorem State.advised_notify (code part a0 a1 : Nat) : (s.notify code part a0 a1).advised = s.advised := rfl
@[simp] theorem State.clusters_notify (code part a0 a1 : Nat) : (s.notify code part a0 a1).clusters = s.clusters := rfl
@[simp] theorem State.parts_notify (code part a0 a1 : Nat) : (s.notify code part a0 a1).parts = s.parts := rfl
@[simp] theorem State.open_notify (code part a0 a1 : Nat) : (s.notify code part a0 a1).open_ = s.open_ := rfl
@[simp] theorem State.closed_notify (code part a0 a1 : Nat) : (s.notify code part a0 a1).closed = s.closed := rfl
@[simp] theorem State.totals_notify (code part a0 a1 : Nat) : (s.notify code part a0 a1).totals = s.totals := rfl
@[simp] theorem State.draws_notify (code part a0 a1 : Nat) : (s.notify code part a0 a1).draws = s.draws := rfl
@[simp] theorem State.checks_notify (code part a0 a1 : Nat) : (s.notify code part a0 a1).checks = s.checks := rfl
@[simp] theorem State.power_notify (code part a0 a1 : Nat) : (s.notify code part a0 a1).power = s.power := rfl
@[simp] theorem State.mram_notify (code part a0 a1 : Nat) : (s.notify code part a0 a1).mram = s.mram := rfl
@[simp] theorem State.boot_notify (code part a0 a1 : Nat) : (s.notify code part a0 a1).boot = s.boot := rfl
@[simp] theorem State.fwRun_notify (code part a0 a1 : Nat) : (s.notify code part a0 a1).fwRun = s.fwRun := rfl
@[simp] theorem State.actRun_notify (code part a0 a1 : Nat) : (s.notify code part a0 a1).actRun = s.actRun := rfl
@[simp] theorem State.refLoad_notify (code part a0 a1 : Nat) : (s.notify code part a0 a1).refLoad = s.refLoad := rfl
@[simp] theorem State.refErase_notify (code part a0 a1 : Nat) : (s.notify code part a0 a1).refErase = s.refErase := rfl
@[simp] theorem State.throttle_notify (code part a0 a1 : Nat) : (s.notify code part a0 a1).throttle = s.throttle := rfl
@[simp] theorem State.pending_notify (code part a0 a1 : Nat) : (s.notify code part a0 a1).pending = s.pending := rfl

end Sys2Proof.Machine
end

