-- ==== Sys2Proof/Laws/Ops.lean ====
section
/-!
SUPPORT. What the named operations of Machine/Ops.lean do: registers, partitions and clusters read back, device memory written,
and the canonical form of device memory that every memory operation keeps.
-/

namespace Sys2Proof.Machine
open Sys2Proof

/-! ## Outcomes -/

theorem takes_true (s : State) (eff : State → State) : takes true s eff = .next (eff s) := rfl
theorem takes_false (s : State) (eff : State → State) : takes false s eff = .next s := rfl
theorem takes_of {b : Bool} (h : b = true) (s : State) (eff : State → State) : takes b s eff = .next (eff s) := by rw [h]; rfl
/-- Everything `takes` can do. -/
theorem takes_cases (b : Bool) (s t : State) (eff : State → State) (h : takes b s eff = .next t) :
    (b = true ∧ t = eff s) ∨ (b = false ∧ t = s) := by
  cases b
  · exact .inr ⟨rfl, (by simpa [takes] using h.symm)⟩
  · exact .inl ⟨rfl, (by simpa [takes] using h.symm)⟩

/-! ## Registers and DOMAIN objects -/

theorem State.rg_setRg_self (s : State) (k v : Nat) : (s.setRg k v).rg k = objMask k v % 2 ^ 64 := by
  simp [State.setRg, State.rg]

theorem State.rg_setRg_ne (s : State) {k j : Nat} (v : Nat) (h : j ≠ k) : (s.setRg k v).rg j = s.rg j := by
  simp only [State.setRg, State.rg, SMap.getD]
  unfold SMap.put
  split
  · rw [SMap.get?_del_ne _ h]
  · rw [SMap.get?_ins_ne _ _ h]

theorem State.dom_setDom_self (s : State) (k : Nat) (v : List Byte) : (s.setDom k v).dom k = v := by
  simp [State.setDom, State.dom]

theorem State.dom_setDom_ne (s : State) {k j : Nat} (v : List Byte) (h : j ≠ k) : (s.setDom k v).dom j = s.dom j := by
  simp only [State.setDom, State.dom]
  exact SMap.getD_put_ne [] s.doms v h

variable (s : State)

@[simp] theorem State.rg_at (t k : Nat) : (s.at t).rg k = s.rg k := rfl
@[simp] theorem State.rg_modPt (p : Nat) (f : Part → Part) (k : Nat) : (s.modPt p f).rg k = s.rg k := rfl
@[simp] theorem State.rg_modCl (c : Nat) (f : Cluster → Cluster) (k : Nat) : (s.modCl c f).rg k = s.rg k := rfl
@[simp] theorem State.rg_emit (x : Sent) (k : Nat) : (s.emit x).rg k = s.rg k := rfl
@[simp] theorem State.rg_count (p kind num w n k : Nat) : (s.count p kind num w n).rg k = s.rg k := rfl
@[simp] theorem State.rg_memPut (a : Nat) (bs : List Byte) (k : Nat) : (s.memPut a bs).rg k = s.rg k := rfl
@[simp] theorem State.rg_setDom (k' : Nat) (v : List Byte) (k : Nat) : (s.setDom k' v).rg k = s.rg k := rfl
@[simp] theorem State.rg_notify (code part a0 a1 k : Nat) : (s.notify code part a0 a1).rg k = s.rg k := rfl

/-! ## Partitions and clusters -/

theorem State.pt_modPt_self {p : Nat} (hp : p < 12) (f : Part → Part) : (s.modPt p f).pt p = f (s.pt p) := by
  simp [State.modPt, State.pt, hp]

@[simp] theorem State.pt_modPt_fin (p : PartId) (f : Part → Part) : (s.modPt p f).pt p = f (s.pt p) := s.pt_modPt_self p.isLt f

theorem State.pt_modPt_ne {p q : Nat} (h : q ≠ p) (f : Part → Part) : (s.modPt p f).pt q = s.pt q := by
  have h' : p ≠ q := fun e => h e.symm
  simp [State.modPt, State.pt, h']

theorem State.cl_modCl_self {c : Nat} (hc : c < 48) (f : Cluster → Cluster) : (s.modCl c f).cl c = f (s.cl c) := by
  simp [State.modCl, State.cl, hc]

@[simp] theorem State.cl_modCl_fin (c : ClusterId) (f : Cluster → Cluster) : (s.modCl c f).cl c = f (s.cl c) := s.cl_modCl_self c.isLt f

theorem State.cl_modCl_ne {c d : Nat} (h : d ≠ c) (f : Cluster → Cluster) : (s.modCl c f).cl d = s.cl d := by
  have h' : c ≠ d := fun e => h e.symm
  simp [State.modCl, State.cl, h']

@[simp] theorem State.pt_at (t p : Nat) : (s.at t).pt p = s.pt p := rfl
@[simp] theorem State.pt_setRg (k v p : Nat) : (s.setRg k v).pt p = s.pt p := (rfl)
@[simp] theorem State.pt_incRg (k n p : Nat) : (s.incRg k n).pt p = s.pt p := (rfl)
@[simp] theorem State.pt_modCl (c : Nat) (f : Cluster → Cluster) (p : Nat) : (s.modCl c f).pt p = s.pt p := rfl
@[simp] theorem State.pt_emit (x : Sent) (p : Nat) : (s.emit x).pt p = s.pt p := rfl
@[simp] theorem State.pt_count (q kind num w n p : Nat) : (s.count q kind num w n).pt p = s.pt p := rfl
@[simp] theorem State.pt_memPut (a : Nat) (bs : List Byte) (p : Nat) : (s.memPut a bs).pt p = s.pt p := rfl
@[simp] theorem State.pt_setDom (k : Nat) (v : List Byte) (p : Nat) : (s.setDom k v).pt p = s.pt p := rfl
@[simp] theorem State.pt_notify (code part a0 a1 p : Nat) : (s.notify code part a0 a1).pt p = s.pt p := rfl
@[simp] theorem State.cl_at (t c : Nat) : (s.at t).cl c = s.cl c := rfl
@[simp] theorem State.cl_setRg (k v c : Nat) : (s.setRg k v).cl c = s.cl c := (rfl)
@[simp] theorem State.cl_incRg (k n c : Nat) : (s.incRg k n).cl c = s.cl c := (rfl)
@[simp] theorem State.cl_modPt (p : Nat) (f : Part → Part) (c : Nat) : (s.modPt p f).cl c = s.cl c := rfl
@[simp] theorem State.cl_emit (x : Sent) (c : Nat) : (s.emit x).cl c = s.cl c := rfl
@[simp] theorem State.cl_count (q kind num w n c : Nat) : (s.count q kind num w n).cl c = s.cl c := rfl
@[simp] theorem State.cl_memPut (a : Nat) (bs : List Byte) (c : Nat) : (s.memPut a bs).cl c = s.cl c := rfl
@[simp] theorem State.cl_setDom (k : Nat) (v : List Byte) (c : Nat) : (s.setDom k v).cl c = s.cl c := rfl
@[simp] theorem State.cl_notify (code part a0 a1 c : Nat) : (s.notify code part a0 a1).cl c = s.cl c := rfl

theorem State.now_at (t : Nat) : (s.at t).now = Nat.max s.now t := rfl

/-! ## Device memory -/

theorem State.memByte_memPut_out (a : Nat) (bs : List Byte) (b : Nat) (h : b < a ∨ a + bs.length ≤ b) :
    (s.memPut a bs).memByte b = s.memByte b := SMap.getD_putList_out 0 bs s.mem a b h

theorem State.memByte_memPut_in (a : Nat) (bs : List Byte) (i : Nat) (h : i < bs.length) :
    (s.memPut a bs).memByte (a + i) = bs[i] := SMap.getD_putList_in 0 bs s.mem a i h

theorem State.memPut_canonical (a : Nat) (bs : List Byte) (h : s.Canonical) : (s.memPut a bs).Canonical :=
  SMap.wf_putList 0 bs s.mem a h

theorem State.logPoison_mem (a : Nat) : (s.logPoison a).mem = s.mem := by
  unfold State.logPoison; dsimp only; split
  · rfl
  · split
    · split <;> rfl
    · rfl

theorem State.clearPoison_mem (a : Nat) : (s.clearPoison a).mem = s.mem := by
  unfold State.clearPoison; dsimp only; split <;> rfl

theorem State.unitWritten_mem (u : Nat) (cov bad : Bool) : (s.unitWritten u cov bad).mem = s.mem := by
  unfold State.unitWritten
  split
  · split
    · exact s.logPoison_mem u
    · split
      · exact s.clearPoison_mem u
      · rfl
  · split
    · split <;> rfl
    · split <;> rfl
  · rfl

/-- A write of device bytes with their poison keeps the canonical form. -/
theorem State.memWrite_canonical (a : Nat) (bs : List (Byte × Bool)) (h : s.Canonical) : (s.memWrite a bs).Canonical := by
  have units : ∀ (us : List Nat) (f : Nat → Bool) (g : Nat → Bool) (t : State),
      (us.foldl (fun t u => t.unitWritten u (f u) (g u)) t).mem = t.mem := by
    intro us f g
    induction us with
    | nil => intro t; rfl
    | cons u us ih => intro t; rw [List.foldl_cons, ih, t.unitWritten_mem]
  have bytes : ∀ (l : List (Nat × (Byte × Bool))) (m : List Host.Cell), SMap.Wf 0 m →
      SMap.Wf 0 (l.foldl (fun m ib => if s.writable (a + ib.1) then SMap.put 0 m (a + ib.1) ib.2.1 else m) m) := by
    intro l
    induction l with
    | nil => intro m hm; exact hm
    | cons x l ih =>
      intro m hm
      rw [List.foldl_cons]
      apply ih
      split
      · exact SMap.wf_put 0 m _ _ hm
      · exact hm
  show SMap.Wf 0 (s.memWrite a bs).mem
  unfold State.memWrite
  dsimp only
  rw [units]
  exact bytes _ _ h

/-! ## Events -/

/-- The sessions that do not take an event are as before. -/
theorem notifyAll_length (now : Nat) (e : Event) (l : List Session) : (notifyAll now e l).1.length = l.length := by
  induction l with
  | nil => rfl
  | cons x l ih =>
    unfold notifyAll
    dsimp only
    split <;> simp [ih]

/-! ## Batt writes of one cycle (R186) -/

/-- A write in a cycle in which nobody else has written is as it comes, and no byte collides. -/
theorem Cluster.settleWrite_free (old new : Cluster) {cy : Nat} (port : BattPort) (ranges : List (Nat × Nat))
    (h : old.writes.at cy = []) : (∃ w, (old.settleWrite new cy port ranges).1 = { new with writes := w }) ∧
      (old.settleWrite new cy port ranges).2 = 0 := by
  have e : contested [] port ranges = [] := by
    have : ((ranges.flatMap (fun r => (List.range r.2).map (r.1 + ·))).filter (fun a => (portsAt [] a).any (· != port))) = [] :=
      List.filter_eq_nil_iff.2 (fun a _ => by simp [portsAt])
    rw [contested, this]; rfl
  simp [Cluster.settleWrite, h, e]

/-- The crown core's write is never lost. -/
theorem Cluster.settleWrite_crown (old new : Cluster) (cy : Nat) (ranges : List (Nat × Nat)) :
    ∃ w, (old.settleWrite new cy .crown ranges).1 = { new with writes := w } := by
  have e : ∀ (w : List (BattPort × Nat × List (Byte × Bool))) (a : Nat), (portsAt w a).any (fun g => g.beats .crown) = false := by
    intro w a
    rw [List.any_eq_false]
    intro g _
    cases g <;> simp [BattPort.beats]
  simp [Cluster.settleWrite, e]

/-- All that a port's writes change: the cluster, and the counters. -/
theorem State.battWrites_eq (s : State) (p c cy : Nat) (port : BattPort) (new : Cluster) (ranges : List (Nat × Nat)) :
    ∃ o, s.battWrites p c cy port new ranges =
      { s.modCl c (fun _ => ((s.cl c).settleWrite new cy port ranges).1.refetch cy) with open_ := o } := by
  unfold State.battWrites
  dsimp only
  split
  · exact ⟨_, rfl⟩
  · exact ⟨_, rfl⟩

end Sys2Proof.Machine
end

