-- ==== Sys2Proof/Laws/Crown.lean ====
section
/-!
SUPPORT. What the shared operations of the crown cores do (Machine/Crown.lean): tracing, stalls, retirement and stops.
-/

namespace Sys2Proof.Machine
open Sys2Proof

/-! ## Tracing touches a cluster's trace buffer alone -/

/-- A trace record changes nothing of a cluster but its buffer. -/
theorem State.cl_trace (s : State) (p c ty info cycle payload d : Nat) :
    ∃ b, (s.trace p c ty info cycle payload).cl d = { s.cl d with trace := b } := by
  unfold State.trace
  split
  · dsimp only
    by_cases h : d = c
    · subst h
      by_cases hd : d < 48
      · exact ⟨_, by rw [State.cl_incRg, State.cl_modCl_self _ hd]⟩
      · refine ⟨(s.cl d).trace, ?_⟩
        rw [State.cl_incRg]
        simp [State.modCl, State.cl, hd]
    · exact ⟨_, by rw [State.cl_incRg, State.cl_modCl_ne _ h]⟩
  · exact ⟨_, rfl⟩

@[simp] theorem State.crown_trace (s : State) (p c ty info cycle payload d : Nat) :
    ((s.trace p c ty info cycle payload).cl d).crown = (s.cl d).crown := by
  obtain ⟨b, h⟩ := s.cl_trace p c ty info cycle payload d; rw [h]

@[simp] theorem State.cl_traceFire (s : State) (p c kind cycle : Nat) (cond : Bool) (d : Nat) :
    (s.traceFire p c kind cycle cond).cl d = s.cl d := by
  unfold State.traceFire; split <;> simp

@[simp] theorem State.pt_trace (s : State) (p c ty info cycle payload q : Nat) :
    (s.trace p c ty info cycle payload).pt q = s.pt q := by
  unfold State.trace; split
  · simp
  · rfl

/-- The trigger changes nothing of a partition but its mark. -/
theorem State.pt_traceFire (s : State) (p : PartId) (c kind cycle : Nat) (cond : Bool) (q : Nat) :
    ∃ g, (s.traceFire p c kind cycle cond).pt q = { s.pt q with trigger := g } := by
  unfold State.traceFire; split
  · by_cases h : q = p.val
    · subst h; exact ⟨_, by rw [State.pt_setRg, State.pt_modPt_fin]⟩
    · exact ⟨_, by rw [State.pt_setRg, State.pt_modPt_ne _ h]⟩
  · exact ⟨_, rfl⟩

/-! ## Lateness -/

@[simp] theorem State.cl_late (s : State) (p b d : Nat) : (s.late p b).cl d = s.cl d := rfl
@[simp] theorem State.cl_fails (s : State) (p b d : Nat) : (s.fails p b).cl d = s.cl d := rfl

@[simp] theorem State.cl_lateCluster (s : State) (p c cycle d : Nat) : (s.lateCluster p c cycle).cl d = s.cl d := by
  unfold State.lateCluster
  dsimp only
  split <;> (try split) <;> simp

@[simp] theorem State.cl_summaryOrder (s : State) (p c d : Nat) : (s.summaryOrder p c).cl d = s.cl d := by simp [State.summaryOrder]

@[simp] theorem State.crown_joinOverrun (s : State) (p c d : Nat) : ((s.joinOverrun p c).cl d).crown = (s.cl d).crown := by
  simp [State.joinOverrun]

/-! ## The core -/

@[simp] theorem State.crown_modCrown (s : State) (c : ClusterId) (f : Crown → Crown) :
    ((s.modCrown c f).cl c).crown = f (s.cl c).crown := by simp [State.modCrown]

@[simp] theorem State.pt_modCrown (s : State) (c : Nat) (f : Crown → Crown) (q : Nat) : (s.modCrown c f).pt q = s.pt q := rfl

/-- A crown instruction that its core can execute takes its effect. -/
theorem crownExec_next {s : State} {p : Nat} {c : ClusterId} {i : Instr} (eff : Nat → State → State)
    (ho : s.ownerOfCluster c = some p) (hr : s.coreRuns p c = true) (ha : s.coreAt c i = true)
    (hp : ((s.cl c).crown.wordAt (s.cl c).crown.pc).2 = false) : crownExec c i s eff = .next (eff p s) := by
  simp [crownExec, State.wordBad, ho, takes, hr, ha, hp]

/-- The core after a retirement. -/
theorem State.crown_coreRetire (s : State) (p k next : Nat) (c : ClusterId) (f : Crown → Crown) :
    ((s.coreRetire p c k next f).cl c).crown =
      { (f (s.cl c).crown).retire k next with
        lastRetire := (s.pt p).edgeNs + cycleNs ((s.cl c).crown.cycle + k - 1) } := by
  simp [State.coreRetire]

/-- The core after a stall of `n` cycles. -/
theorem State.crown_coreStall (s : State) (p reason n : Nat) (c : ClusterId) :
    ((s.coreStall p c reason n).cl c).crown =
      if n = 0 then (s.cl c).crown else { (s.cl c).crown with cycle := (s.cl c).crown.cycle + n, mode := .running } := by
  have arrays : ∀ (l : List Nat) (g : State → Nat → Nat) (t : State),
      (l.foldl (fun t a => t.count p 0 (16 * c + a) (wStall reason) (g t a)) t).cl c = t.cl c := by
    intro l g
    induction l with
    | nil => intro t; rfl
    | cons a l ih => intro t; rw [List.foldl_cons, ih]; rfl
  unfold State.coreStall
  split
  · rfl
  · dsimp only
    rw [State.crown_modCrown, State.cl_traceFire, State.crown_trace, arrays]
    rfl

/-- A core that stops keeps everything but its mode. -/
theorem State.crown_coreStop (s : State) (p : Nat) (c : ClusterId) (parity : Bool) :
    ((s.coreStop p c parity).cl c).crown = { (s.cl c).crown with mode := .stopped } := by
  unfold State.coreStop
  cases parity <;> simp

/-! ## Registers of a core (R74) -/

@[simp] theorem Crown.reg_zero (cr : Crown) : cr.reg 0 = 0 := rfl

theorem Crown.reg_setReg_self (cr : Crown) (r : RegId) (v : Word) : (cr.setReg r v).reg r = if r = 0 then 0 else v := by
  have hr : r.toNat < 32 := r.isLt
  unfold Crown.reg Crown.setReg
  by_cases h : r = 0
  · rw [if_pos h, if_pos h]
  · rw [if_neg h, if_neg h, if_neg h]
    simp [hr]

theorem Crown.reg_setReg_ne (cr : Crown) {r q : RegId} (v : Word) (h : q ≠ r) : (cr.setReg r v).reg q = cr.reg q := by
  have h' : r.toNat ≠ q.toNat := fun e => h (BitVec.eq_of_toNat_eq e.symm)
  unfold Crown.reg Crown.setReg
  by_cases hr : r = 0
  · rw [if_pos hr]
  · rw [if_neg hr]
    simp [h']

@[simp] theorem Crown.loops_setReg (cr : Crown) (r : RegId) (v : Word) : (cr.setReg r v).loops = cr.loops := by
  unfold Crown.setReg; split <;> rfl
@[simp] theorem Crown.cycle_setReg (cr : Crown) (r : RegId) (v : Word) : (cr.setReg r v).cycle = cr.cycle := by
  unfold Crown.setReg; split <;> rfl

end Sys2Proof.Machine
end

