-- ==== Sys2Proof/WellFormed.lean ====
section
/-!
DEFINITION. Well-formed commands: every operand lies in the range that the spec's layouts give it. What a command checks itself (a code, a
status, a refusal) is no matter of well-formedness.
-/

namespace Sys2Proof

/-- A value of so many bits. -/
def fits (bits v : Nat) : Bool := v < 2 ^ bits

/-- A tick-status payload (02, Tick-status frame). -/
def StatusFrame.ok (f : StatusFrame) : Bool :=
  fits 8 f.kind && fits 8 f.module && fits 16 f.job && fits 64 f.tick && fits 64 f.units && fits 64 f.mb && fits 64 f.buckets
    && fits 64 f.heard

/-- A transport header (10, Transport header): FLAGS [4:0], with FLAGS [7:5] among the reserved bits. -/
def FabricHeader.ok (h : FabricHeader) : Bool :=
  fits 8 h.kind && fits 5 h.flags && fits 16 h.job && fits 16 h.stream && fits 8 h.src && fits 8 h.final && fits 64 h.tick && fits 16 h.ord
    && fits 16 h.len && fits 32 h.seq && fits 32 h.version && fits 32 h.slotLength && fits 67 h.reserved

/-- A Jenjo message (13, Message header): a 64 B TAG and the widths of the header. -/
def Request.ok (r : Request) : Bool :=
  r.port ≤ 64 && fits 32 r.session && fits 64 r.seq && fits 16 r.index && fits 8 r.sub && fits 32 r.offset && r.tag.length == 64
    && fits 32 r.payload.length && fits 39 r.reserved

/-- Errors of an access: 64 B units and lines, links of R22, bytes of batt memory. -/
def AccessErrors.ok (e : AccessErrors) : Bool :=
  e.badUnits.all (· % 64 == 0) && e.cxlPoison.all (· % 64 == 0) && fits 10 e.links

/-- A RoCEv2 packet: QPN and PSN of 24 bits, a virtual address, a key and a length, and no more data than the message. -/
def RocePacket.ok (x : RocePacket) : Bool :=
  fits 24 x.qp && fits 24 x.psn && fits 64 x.addr && fits 32 x.rkey && fits 32 x.length && x.data.length ≤ 4096 && x.errs.ok

/-- A frame as the steering rules see it. -/
def FrameInfo.ok (x : FrameInfo) : Bool :=
  x.dst.length == 6 && x.vlan.all (fits 16) && fits 16 x.etype && (x.ip == 0 || x.ip == 4 || x.ip == 6) && x.udp.all (fits 16)
    && fits 16 x.udpSrc && fits 8 x.first && 64 ≤ x.bytes

/-- A piece of a generation: generations 0 and 1 of the staging. -/
def DrainPiece.ok (x : DrainPiece) : Bool := x.gen < 2 && fits 64 x.step

/-- A well-formed command. -/
def WellFormed : Instr → Bool
  | .tickStatusRx port _ f => port.val < 64 && f.ok
  | .settleDecide _ mb bk => fits 64 mb && fits 64 bk
  | .crownProgramLoad _ bad => bad.all (· < 48)
  | .issa c a d t r i => crownFieldsOk (.issa c a d t r i)
  | .wait c k n f => crownFieldsOk (.wait c k n f)
  | .loop c b n => crownFieldsOk (.loop c b n)
  | .burst _ n e => n < 65536 && e.ok
  | .burstComplete _ n _ e => n < 65536 && e.ok
  | .kettleItem _ _ n _ e => n < 65536 && e.reads.ok && e.stores.ok
  | .reduce _ _ n e => n < 65536 && e.ok
  | .reblockMove _ _ n e => n < 65536 && e.ok
  | .reblockItemEnd _ _ n _ e => n < 65536 && e.ok
  | .retrainDevice _ d => fits 8 d
  | .pauseFrame _ _ all_ times => if all_ then times.length == 1 && times.all (fun x => fits 16 x.2) else times.all (fun x => x.1 < 8 && fits 16 x.2)
  | .hostPauseTx level => level ≤ 100
  | .transmitSlot _ n e => n < 16384 && e.ok
  | .dataFrame _ _ ⟨x, h⟩ data _ _ e => x.ok && x.first == 0x10 && h.ok && h.kind == 0x10 && data.length ≤ 65535 && e.ok
  | .nullFrame _ _ ⟨x, h⟩ _ => x.ok && x.first == 0x11 && h.ok && h.kind == 0x11
  | .ack _ _ ⟨x, h⟩ _ => x.ok && x.first == 0x12 && h.ok && h.kind == 0x12 && !h.flags.testBit 4
  | .nak _ _ ⟨x, h⟩ _ => x.ok && x.first == 0x12 && h.ok && h.kind == 0x12 && h.flags.testBit 4
  | .ackTimeout _ n _ => n < 16384
  | .hello _ caps size pos num => fits 8 caps && fits 8 size && fits 8 pos && fits 8 num
  | .sleep _ ns => fits 32 ns
  | .lldp _ mac wake => fits 48 mac && wake.all (fits 16)
  | .lpiEnter _ a b => a ≤ b
  | .ptpMessage _ _ (.announce v) => v ≤ 64 || v == 0xFF
  | .ptpMessage _ _ (.peerDelay v) => fits 32 v
  | .announceTimeout _ v => v ≤ 64 || v == 0xFF
  | .rdmaWrite x => x.ok
  | .rdmaRead x => x.ok
  | .cnp x => fits 24 x.qp
  | .roceTimeout q _ => fits 24 q
  | .roceAck x psn _ => fits 24 x.qp && fits 24 psn
  | .open_ r => r.ok && r.session == 0
  | .openConfirm r => r.ok
  | .close r => r.ok
  | .read r => r.ok
  | .write r _ => r.ok
  | .readBlock r => r.ok
  | .writeBlock r => r.ok
  | .notifyAck r => r.ok
  | .registerWrite _ key v _ => fits 24 key && fits 64 v
  | .tickGrainsWrite _ _ _ v => fits 64 v
  | .closeGuardNsWrite _ _ v => fits 32 v
  | .timeConfigWrite _ sub v => sub < 256 && fits 64 v
  | .factoryReset _ v => fits 32 v
  | .pressArm _ _ v => fits 64 v
  | .drainWindow _ _ _ x => x.all DrainPiece.ok
  | .dumpCapture _ n => n < 16
  | .dumpDone _ n => n < 16
  | .helperBoot _ bad trained => trained.all (fun x => x.1 < 48) && fits 8 bad
  | .resetRelease _ bad _ => fits 8 bad
  | .powerOnSequence _ _ times => times.length ≤ 8
  | .shutdown _ causes => fits 6 causes
  | .syncInterval kind => kind < 3
  | .dropQueueFrame _ _ x _ => x.ok
  | _ => true

end Sys2Proof
end

