-- ==== Sys2Proof/Tests/Slice0.lean ====
section
/-!
SUPPORT. Tests: ill-formed commands are refused by WellFormed, words of the crown encoding decode, and every statement with hypotheses has
a state and operands that meet them.
-/

namespace Sys2Proof.Tests
open Sys2Proof Sys2Proof.Machine

set_option Elab.async false

/-! ## Small states -/

/-- An open session of an admin. -/
def admin : Session := ⟨1, roleAdmin, 0, 64, 7, [], [1, 2, 3], [], true, 0, 0, 1, none, 0, [], [], none, [], 1, 0⟩

/-- An open session with a window register set. -/
def adminWith (regs : SMap Word) (doms : SMap (List Byte)) : Session := { admin with regs := regs, doms := doms }

/-- A module that serves Jenjo, with one admin session. -/
def alive : State :=
  { State.reset with sessions := [admin], boot := { Boot.factory with milliner := true },
                     power := { Power.off with vin := true, rst := true, good := true, up := true } }

/-- Clusters 0 and 1, device 0, port 0 and half of every share. -/
def res0 : Resources := ⟨3, 1, 1, [(0, 0, 16)], List.replicate 22 32, 0⟩

/-- A partition that is built and in its tick 5, of 5 grains, which began at grain 100. -/
def part0 : Part := { Part.empty with built := some res0, gen := ⟨true, true, 100, 5, 500, 5, false, 100⟩ }

/-- A slice of entry 0 of the Job Table in progress. -/
def slice0 : SliceRun := ⟨0, 0, 0, 0, false, false, [], [], [], [], [], [], []⟩

/-- A module with partition 0 as given. -/
def withPart (x : Part) : State := { alive with parts := alive.parts.set 0 x }

/-- A module in the tick of a slice. -/
def running0 : State := withPart { part0 with slice := some slice0 }

/-- A module with registers set. -/
def withRegs (s : State) (l : List (Nat × Nat)) : State := l.foldl (fun t kv => t.setRg kv.1 kv.2) s

/-- Device memory with little-endian values of given widths stored. -/
def poke (l : List (Nat × Nat × Nat)) (s : State) : State := l.foldl (fun t x => t.memPut x.1 (leBytes x.2.1 x.2.2)) s

/-- A slice of a job whose Block image lies at 0x1000, its slice descriptor at 0x1200 and section `i` at 0x1500 + 256 i: sections given
with length and value, and with partition and slice changed. -/
def slicing (secs : List (Nat × Nat × Nat)) (f : SliceRun → SliceRun := id) (g : Part → Part := id) : State :=
  poke ([(0x1014, 4, 0x100), (0x1150, 8, 0x80), (0x1180, 8, 0x100)] ++
      secs.flatMap (fun x => [(0x1230 + 16 * x.1, 8, 0x400 + 0x100 * x.1), (0x1238 + 16 * x.1, 8, x.2.1), (0x1500 + 0x100 * x.1, x.2.1, x.2.2)]))
    (withPart (g { part0 with slice := some (f slice0), jobs := [(0, Job.blockAddr.set (0 : BitVec 1024) 0x1000)] }))

/-- A settlement of a slice of a job of two modules. -/
def settling0 : Settling :=
  ⟨1, 0, 7, 2, 0, 0, 4, 0, 0, 1, 1, 1, 1, false, 0, 0, [], false, [], [], false, false, 0, 0, 0, 0, false, 0, false, false, false, [], [], 0,
    [], 0, 0, 0⟩

/-! ## Well-formedness -/

/-- A well-formed request of 64 B TAG. -/
def wfRequest : Request := ⟨64, 0, 1, 1, 0, 0, false, 0, [], List.replicate 64 0, 0⟩
def wfHeader (kind flags : Nat) : FabricHeader := ⟨kind, flags, 7, 7, 1, 0, 5, 0, 64, 0, 1, 64, 0⟩
def noErr : AccessErrors := .none
def wfPacket : RocePacket := ⟨0x100, 0, true, true, 0, 0, 64, [], true, false, true, noErr⟩
def noFacts : RecoverFacts := ⟨false, false, false, [], 1, 0, 0⟩
/-- A transport frame of 118 B as IPv4 and UDP carry it, its payload beginning with `kind`. -/
def wfFrame (kind : Nat) : FrameInfo := ⟨[2, 0, 0, 0, 0, 1], none, 0x0800, 4, some 0xC000, 0xC000, kind, 118⟩

/-- An ill-formed command for each check of ticks, cores and engines. -/
theorem test_ill_formed_engines :
    ∀ i ∈ ([.tickStatusRx 64 0 ⟨1, 1, 7, 4, 0, 0, 0, 0⟩, .tickStatusRx 0 0 ⟨256, 1, 7, 4, 0, 0, 0, 0⟩, .settleDecide 0 (2 ^ 64) 0,
      .settleDecide 0 0 (2 ^ 64), .crownProgramLoad 0 [48], .issa 0 0 false 65 0 0, .wait 0 5 0 0, .loop 0 0 1, .loop 0 1 0, .loop 0 4097 1,
      .burst 0 65536 noErr, .burst 0 0 { noErr with badUnits := [1] }, .burst 0 0 { noErr with cxlPoison := [65] },
      .burst 0 0 { noErr with links := 1024 }, .burstComplete 0 65536 0 noErr, .kettleItem 0 0 65536 0 ⟨noErr, noErr⟩,
      .kettleItem 0 0 0 0 ⟨noErr, { noErr with badUnits := [1] }⟩, .reduce 0 0 65536 noErr,
      .reblockMove 0 0 65536 noErr, .reblockItemEnd 0 0 65536 0 noErr, .retrainDevice 1 256, .drainWindow 0 0 0 (some ⟨2, 0, 0, [], false⟩),
      .dumpCapture 0 16, .dumpDone 0 16] : List Instr), WellFormed i = false := by decide +kernel

/-- An ill-formed command for each check of the fabric, of time and of RoCEv2. -/
theorem test_ill_formed_fabric :
    ∀ i ∈ ([.pauseFrame 0 0 true [], .pauseFrame 0 0 false [(8, 0)], .pauseFrame 0 0 false [(0, 65536)], .hostPauseTx 101,
      .transmitSlot 0 16384 noErr, .dataFrame 0 0 ⟨wfFrame 0x10, wfHeader 0x11 0⟩ [] [] .intact noErr,
      .dataFrame 0 0 ⟨{ wfFrame 0x10 with bytes := 63 }, wfHeader 0x10 0⟩ [] [] .intact noErr,
      .dataFrame 0 0 ⟨wfFrame 0x11, wfHeader 0x10 0⟩ [] [] .intact noErr, .nullFrame 0 0 ⟨wfFrame 0x11, wfHeader 0x10 0⟩ .intact,
      .ack 0 0 ⟨wfFrame 0x12, wfHeader 0x12 16⟩ .intact, .ack 0 0 ⟨wfFrame 0x12, wfHeader 0x10 0⟩ .intact,
      .nak 0 0 ⟨wfFrame 0x12, wfHeader 0x12 0⟩ .intact, .nak 0 0 ⟨wfFrame 0x12, { wfHeader 0x12 16 with flags := 48 }⟩ .intact,
      .ackTimeout 0 16384 0, .hello 0 256 0 0 0, .sleep 0 (2 ^ 32), .lldp 0 (2 ^ 48) none,
      .lldp 0 0 (some 65536), .lpiEnter 0 2 1, .ptpMessage 0 0 (.announce 65), .ptpMessage 0 0 (.peerDelay (2 ^ 32)), .announceTimeout 0 65,
      .rdmaWrite { wfPacket with psn := 2 ^ 24 }, .rdmaWrite { wfPacket with errs := { noErr with links := 1024 } }, .rdmaRead { wfPacket with qp := 2 ^ 24 }, .cnp ⟨2 ^ 24, true⟩, .roceTimeout (2 ^ 24) 0,
      .roceAck ⟨0, true⟩ (2 ^ 24) none, .syncInterval 3, .dropQueueFrame 0 0 { wfFrame 0x10 with dst := [] } .intact] : List Instr), WellFormed i = false := by
  decide +kernel

/-- An ill-formed command for each check of management and supply; and commands that pass every check. -/
theorem test_ill_formed_management :
    (∀ i ∈ ([.open_ wfRequest, .openConfirm { wfRequest with tag := [] }, .close { wfRequest with port := 65 },
      .read { wfRequest with index := 65536 }, .write { wfRequest with sub := 256 } noFacts, .readBlock { wfRequest with session := 2 ^ 32 },
      .writeBlock { wfRequest with offset := 2 ^ 32 }, .notifyAck { wfRequest with seq := 2 ^ 64 }, .registerWrite 1 (2 ^ 24) 0 noFacts,
      .registerWrite 1 0 (2 ^ 64) noFacts, .tickGrainsWrite 1 0 false (2 ^ 64), .closeGuardNsWrite 1 0 (2 ^ 32), .timeConfigWrite 1 256 0,
      .factoryReset 1 (2 ^ 32), .pressArm 1 0 (2 ^ 64), .helperBoot 0 256 [],
      .helperBoot 0 0 [(48, 20)], .resetRelease 0 256 true,
      .powerOnSequence 0 0 (List.replicate 9 0), .shutdown 0 64] : List Instr), WellFormed i = false) ∧
    (∀ i ∈ ([.open_ { wfRequest with session := 0 }, .read wfRequest, .dataFrame 0 0 ⟨wfFrame 0x10, wfHeader 0x10 1⟩ [] [] .intact noErr,
      .rdmaWrite wfPacket, .burst 0 65535 noErr, .issa 0 15 true 64 31 0, .shutdown 0 63] : List Instr), WellFormed i = true) := by
  decide +kernel

/-- No row of the table gives bits, so no word spells a command. -/
theorem test_no_words : decodeTableWord 64 0x03_0886_00_0000_0000 = none ∧ State.reset.withFetchWord 64 0 = State.reset := by decide +kernel


/-! ## Ticks and settlement -/

/-- A module with cluster 0 as given. -/
def withCluster (s : State) (x : Cluster) : State := { s with clusters := s.clusters.set 0 x }

/-- A tick in which settlement `z` is in progress. -/
def settling (z : Settling) : State :=
  withRegs (withPart { part0 with settling := some z }) [(Obj.TICK_NUMBER 0, 5), (Obj.LINK_STATE 0, linkUp)]

/-- A status frame of module 1 for the tick that has ended. -/
def frame4 : StatusFrame := ⟨1, 1, 7, 4, 0, 0, 0, 0⟩

/-- A running core with cluster 0 otherwise empty. -/
def core0 : Crown := { Crown.empty with mode := .running, pc := 16 }

/-- The hypotheses of TickEdges. -/
theorem test_tick_edges :
    (let g := (withPart { part0 with gen := { part0.gen with begun := false } }).pt 0 |>.gen
     g.on = true ∧ g.begun = false ∧ g.stopping = false) ∧
    (part0.gen.on = true ∧ part0.gen.begun = true ∧ part0.gen.stopping = false ∧ part0.settled = true) ∧
    (let x := { part0 with gen := { part0.gen with stopping := true } }
     x.gen.on = true ∧ x.gen.begun = true ∧ x.gen.stopping = true ∧ x.settled = true) ∧
    (let x := { part0 with gen := { part0.gen with stopping := true, begun := false } }
     x.gen.on = true ∧ x.gen.begun = false ∧ x.gen.stopping = true ∧ x.settled = true) ∧
    ((running0.pt 0).built = some res0 ∧ res0.clusters.testBit 0 = true ∧ (running0.pt 0).gen.begun = true ∧
      (running0.pt 0).settled = true) := by decide +kernel

/-- The hypotheses of GuardLoadAndWatchdog. -/
theorem test_guard_load_watchdog :
    ((running0.pt 0).slice = some slice0 ∧ slice0.guard = false) ∧
    (let s := slicing [] id (fun x => { x with cursor := some (0, 1), jobs := [(0, Job.sliceLimit.set (x.job 0) 9)] })
     (s.pt 0).gen.on = true ∧ (s.pt 0).nextRun = some (0, 1) ∧ (s.pt 0).loaded ≠ some (0, 1) ∧
     0 < (poke [(0x1020, 1, 2)] s).blkPrograms 0x1000 ∧ s.clusterOfProgram 0 0 = some 0) ∧
    (let s := { withCluster running0 { Cluster.empty with crown := core0 } with now := 1040000 }
     s.ownerOfCluster 0 = some 0 ∧ s.watchdogFires 0 0 = true) ∧
    ((withCluster running0 { Cluster.empty with resetting := true }).cl 0).resetting = true := by decide +kernel

/-- The hypotheses of StatusExchangeAndDecision. -/
theorem test_status_exchange :
    (let z := settling0
     ((settling z).pt 0).settling = some z ∧ z.mode ≠ 0 ∧ 1 < z.modules ∧ z.sentR2 = false ∧ z.decided = false) ∧
    (let s := settling settling0
     s.portUp 0 = true ∧ s.ownerOfPort 0 = some 0 ∧ frame4.tick + 1 = s.rg (Obj.TICK_NUMBER 0) ∧ frame4.job = settling0.jobId ∧
     frame4.module ≠ settling0.self ∧ frame4.module < settling0.modules ∧ frame4.kind = 1 ∧ SMap.get? settling0.r1 frame4.module = none ∧
     SMap.get? settling0.r2 { frame4 with kind := 2 }.module = none ∧ { frame4 with tick := 3 }.tick + 1 ≠ s.rg (Obj.TICK_NUMBER 0)) ∧
    (SMap.get? { settling0 with r1 := [(1, ⟨0, 0, 0, 0⟩)] }.r1 frame4.module).isSome = true ∧
    (let z := { settling0 with sentR2 := true }
     z.mode = 1 ∧ z.decided = false ∧ z.sentR2 = true ∧ (settling z).rg (Obj.REPLAY 0) ≠ 1 ∧
     1 < z.modules ∧ 1 ≠ z.self ∧ SMap.get? z.r2 1 = none) := by decide +kernel

/-- The hypotheses of StatusRecordAndCompletion: the record due without a slice and after a decision, and a complete final slice. -/
theorem test_status_record :
    ({ settling0 with mode := 0 }.recorded = false ∧ { settling0 with decided := true }.recorded = false) ∧
    (let z := { settling0 with decided := true, recorded := true, final := true }
     let x := { part0 with settling := some z, jobs := [(0, Job.state.set (0 : BitVec 1024) jsTicking)] }
     z.mode = 1 ∧ z.recorded = true ∧ z.final = true ∧ z.fault = false ∧ (withPart x).jobState 0 z.job = jsTicking) := by decide +kernel

/-- A silent module at the decision drops the whole slice. -/
theorem test_silent_module_drops :
    (match exec (.settleDecide 0 0 0) (settling { settling0 with sentR2 := true, jobMb := 2, jobBkt := 1 }) with
     | .next t => (t.pt 0).settling.map (fun y => (y.decided, y.silent, y.dropped % 4, y.missing))
     | _ => none) = some (true, 2, 2, 1) := by decide +kernel

/-! ## Crown cores -/

/-- The core of cluster 0 at the word of `i`, with parity mark `bad`, and with other things of the core and of the cluster set. -/
def atInstr (i : Instr) (bad : Bool := false) (f : Crown → Crown := id) (g : Cluster → Cluster := id) : State :=
  withCluster running0 (g { Cluster.empty with crown := f { core0 with bankA := [(2, ((encodeCrown i).getD 0, bad))] } })

/-- The hypotheses of CrownDecodeOfEncode for an instruction of every format. -/
theorem test_crown_encodes :
    ∀ i ∈ ([.nop 0, .li 0 5 7, .lih 0 5 7, .add 0 1 2 3, .addi 0 4 4 3, .sub 0 1 2 3, .and_ 0 1 2 3, .or_ 0 1 2 3, .xor_ 0 1 2 3, .shl 0 4 4 3,
      .shr 0 4 4 3, .mul 0 1 2 3, .sltu 0 1 2 3, .ld 0 1 2 8, .st 0 1 2 8, .ldz 0 1 3, .issa 0 2 true 5 1 64, .issn 0 1 64, .wait 0 1 0 0,
      .until_ 0 9, .branch 0 3 true 6 1 100, .enda 0, .jmp 0 64, .loop 0 4 10, .done 0] : List Instr),
      crownCluster i = some 0 ∧ (encodeCrown i).isSome = true ∧ crownFieldsOk i = true ∧
      ((encodeCrown i).bind (decodeCrown 0)) = some i := by decide +kernel

/-- The hypotheses of CrownRegisterResults and CrownMemoryInstructions: the core stands at the instruction. -/
theorem test_at_core :
    ∀ i ∈ ([.nop 0, .li 0 5 7, .lih 0 5 7, .add 0 1 2 3, .addi 0 4 4 3, .sub 0 1 2 3, .and_ 0 1 2 3, .or_ 0 1 2 3, .xor_ 0 1 2 3, .shl 0 4 4 3,
      .shr 0 4 4 3, .mul 0 1 2 3, .sltu 0 1 2 3, .ldz 0 1 3, .until_ 0 0, .until_ 0 9, .jmp 0 64, .loop 0 1 10, .done 0] : List Instr),
      AtCore (atInstr i) 0 0 i := by unfold AtCore; decide +kernel

/-- LD and ST at the last 8 B of batt memory, at a misaligned address, just outside, and LD of bytes with bad parity. -/
theorem test_crown_memory :
    (AtCore (atInstr (.ld 0 1 2 0x3FFFF8)) 0 0 (.ld 0 1 2 0x3FFFF8) ∧ AtCore (atInstr (.st 0 1 2 0x3FFFF8)) 0 0 (.st 0 1 2 0x3FFFF8)) ∧
    (AtCore (atInstr (.ld 0 1 2 4)) 0 0 (.ld 0 1 2 4) ∧ AtCore (atInstr (.st 0 1 2 0x400000)) 0 0 (.st 0 1 2 0x400000)) ∧
    (let s := atInstr (.ld 0 1 2 8) false id (fun x => { x with batt := [(8, (1, true))] })
     AtCore s 0 0 (.ld 0 1 2 8) ∧ ((s.cl 0).before 0).battBad 8 8 = true ∧ ((s.cl 0).before 0).battBad 16 8 = false) := by
  unfold AtCore; decide +kernel

/-- Writes of one cycle to the same bytes (R186): the core's ST stands over the Nap engine's bytes of cycle 0 and 8 bytes collide; a LD in
that cycle reads the bytes as before, one in the next cycle the Nap engine's. -/
theorem test_batt_collision :
    (let nap := fun (x : Cluster) => { x with
       batt := [(8, (7, false)), (9, (7, false))], writes := ⟨0, [(.nap, 8, List.replicate 8 (0, false))]⟩ }
     (let s := atInstr (.st 0 1 2 8) false id nap
      match exec (.st 0 1 2 8) s with
      | .next t => (t.cl 0).battBytes 8 2 == [0, 0] && SMap.getD 0 t.open_ (ctrKey 0 1 0 (wEvent 2)) == 8
      | _ => false) = true ∧
     (let cl := nap Cluster.empty
      ((cl.before 0).battBytes 8 2 = [0, 0] ∧ (cl.before 1).battBytes 8 2 = [7, 7]) ∧
      (cl.settleWrite (cl.battWrite 8 [(5, false)]) 0 .burst [(8, 1)]).1.battBytes 8 1 = [7] ∧
      (cl.settleWrite (cl.battWrite 8 [(5, false)]) 1 .burst [(8, 1)]).1.battBytes 8 1 = [5])) := by decide +kernel

/-- A Nap queue entry that writes summary 3. -/
def napWriter : NapOp := ⟨Nd.summary.set (Nd.opcode.set (0 : BitVec 256) 0x13) 3, false, 0⟩

/-- WAIT for an item that has completed, and for one that has not; UNTIL_REACHED; a word with bad parity. -/
theorem test_crown_flow :
    (AtCore (atInstr (.wait 0 0 0 0)) 0 0 (.wait 0 0 0 0) ∧ (atInstr (.wait 0 0 0 0)).waitDone 0 0 0 [0] = some (0, 4)) ∧
    (let s := atInstr (.wait 0 1 0 0) false id (fun x => { x with nap := { x.nap with queue := [napWriter] } })
     AtCore s 0 0 (.wait 0 1 0 0) ∧ s.waitDone 0 0 1 [0] = none ∧ 4 < (s.pt 0).edgeCycle) ∧
    (let s := atInstr (.until_ 0 9) false (fun x => { x with mode := .until_ 9 })
     s.ownerOfCluster 0 = some 0 ∧ s.coreLive 0 0 = true ∧ (s.cl 0).crown.cycle ≤ 9 ∧ 9 < (s.pt 0).edgeCycle) ∧
    (let s := atInstr (.nop 0) true
     s.coreRuns 0 0 = true ∧ s.coreAt 0 (.nop 0) = true ∧ ((s.cl 0).crown.wordAt (s.cl 0).crown.pc).2 = true) := by
  unfold AtCore; decide +kernel

/-- The hypotheses of CrownBranchInstructions. -/
theorem test_crown_branches :
    (let i : Instr := .branch 0 3 true 6 1 100
     AtCore (atInstr i) 0 0 i ∧ (atInstr i).zPending 0 3 = false ∧ (((atInstr i).cl 0).crown.wordAt 24).2 = false ∧
     zAlternative (((atInstr i).cl 0).zRead 3) true 6 2 = 0 ∧
     (let s := atInstr i false (fun x => { x with bankA := x.bankA ++ [(3, (0, true))] })
      AtCore s 0 0 i ∧ s.zPending 0 3 = false ∧ ((s.cl 0).crown.wordAt 24).2 = true) ∧
     (let s := atInstr i false id (fun x => { x with nap := { x.nap with queue := [napWriter] } })
      AtCore s 0 0 i ∧ s.zPending 0 3 = true)) ∧
    (let s := atInstr (.enda 0) false (fun x => { x with branches := [⟨64, 20, false⟩] })
     AtCore s 0 0 (.enda 0) ∧ (s.cl 0).crown.cycle ≤ 20) ∧
    (let s := atInstr (.enda 0) false (fun x => { x with branches := [⟨64, 20, false⟩], cycle := 21 })
     AtCore s 0 0 (.enda 0) ∧ 20 < (s.cl 0).crown.cycle) ∧
    (let s := atInstr (.enda 0) false (fun x => { x with mode := .join 20 64, cycle := 21 })
     s.ownerOfCluster 0 = some 0 ∧ s.coreLive 0 0 = true ∧ (s.cl 0).crown.cycle ≤ 20 + 1 ∧ 20 < (s.pt 0).edgeCycle) := by
  unfold AtCore; decide +kernel

/-- The hypotheses of CrownIssueInstructions: room, a full queue, and a descriptor address that is not good. -/
theorem test_crown_issue :
    (let i : Instr := .issa 0 2 false 0 1 64
     let j : Instr := .issn 0 1 64
     AtCore (atInstr i) 0 0 i ∧ ((atInstr i).cl 0 |>.arr 2).queue.length < 4 ∧ issueCycle 0 [] < ((atInstr i).pt 0).guardCycle ∧
     AtCore (atInstr j) 0 0 j ∧ issueCycle 0 (List.replicate 0 0 ++ []) < ((atInstr j).pt 0).guardCycle ∧
     (let s := atInstr i false id (fun x => x.modArr 2 (fun a => { a with queue := List.replicate 4 ⟨0, false, false, 0, 0, 0, 0, 0, .empty⟩ }))
      AtCore s 0 0 i ∧ 4 ≤ ((s.cl 0).arr 2).queue.length) ∧
     (let s := atInstr j false id (fun x => { x with nap := { x.nap with queue := List.replicate 4 napWriter } })
      AtCore s 0 0 j ∧ 4 ≤ (s.cl 0).nap.queue.length)) ∧
    (AtCore (atInstr (.issa 0 2 false 0 1 4)) 0 0 (.issa 0 2 false 0 1 4) ∧
      AtCore (atInstr (.issn 0 1 0x3FFFE8)) 0 0 (.issn 0 1 0x3FFFE8)) := by unfold AtCore; decide +kernel

/-- ADD of the registers 1 and 2, and a shift by 63. -/
theorem test_add_shl :
    (match exec (.add 0 3 1 2) (atInstr (.add 0 3 1 2) false (fun x => { x with regs := (x.regs.set 1 (0 - 1)).set 2 3 })) with
     | .next t => some ((t.cl 0).crown.reg 3, (t.cl 0).crown.pc, (t.cl 0).crown.cycle)
     | _ => none) = some (2, 24, 1) ∧
    (match exec (.shl 0 3 1 63) (atInstr (.shl 0 3 1 63) false (fun x => { x with regs := x.regs.set 1 3 })) with
     | .next t => some ((t.cl 0).crown.reg 3)
     | _ => none) = some 0x8000000000000000 := by decide +kernel

/-! ## Arrays and Nap engines -/

/-- An array operation of a descriptor. -/
def arrOp (d : BitVec 256) : ArrOp := ⟨d, false, false, 0, 0, 4, 25, 63, .empty⟩

/-- Cluster 0 with operations in the queue of array 2, and in flight. -/
def arrayState (queue flight : List ArrOp) : State :=
  withCluster running0 (Cluster.empty.modArr 2 (fun a => { a with queue := queue, flight := flight }))

/-- A PRODUCT of BF16 over K 16, a PRELOAD of tile 5, and a descriptor of an undefined opcode. -/
def product0 : BitVec 256 := Ad.kSteps.set (Ad.formats.set (Ad.opcode.set (0 : BitVec 256) 1) 0x66) 1
def preload0 : BitVec 256 := Ad.tile.set (Ad.opcode.set (0 : BitVec 256) 2) 5

/-- The hypotheses of ArrayOperationsStart. -/
theorem test_array_starts :
    (arrayState [arrOp product0] []).ownerOfCluster 0 = some 0 ∧ (arrayState [arrOp product0] []).headStarts 0 2 1 = true ∧
    (arrayState [arrOp preload0] []).headStarts 0 2 2 = true ∧ (arrayState [arrOp 3] []).headStarts 0 2 0 = true ∧
    (arrayState [arrOp product0] []).headMay 0 2 = true := by decide +kernel

/-- The hypotheses of ArrayCompletionAndGauge: an operation in flight, and gauge samples without and with an error. -/
theorem test_array_completion :
    (let s := arrayState [] [arrOp preload0]
     s.ownerOfCluster 0 = some 0 ∧ firstComplete ((s.cl 0).arr 2).flight = some (arrOp preload0, []) ∧
     (arrOp preload0).complete < (s.pt 0).edgeCycle ∧ descLegal preload0 = true ∧ descLegal 3 = false) ∧
    (let g : GaugeSample := ⟨.empty, 0, 9⟩
     let s := withPart { part0 with slice := some slice0, gauge := [(0, g)] }
     SMap.get? (s.pt 0).gauge 0 = some g ∧ (s.pt 0).slice.isSome = true ∧ g.finish ≤ (s.pt 0).edgeCycle ∧ g.kind < 5 ∧
     (gaugeError g.tile).isSome = true) ∧
    gaugeError { Tile.empty with ref := [(0, 0x7F800000)] } = none := by decide +kernel

/-- A Nap descriptor. -/
def napDesc (op summary iters target : Nat) : BitVec 256 :=
  Nd.target.set (Nd.iterations.set (Nd.summary.set (Nd.opcode.set (0 : BitVec 256) op) summary) iters) target

/-- Cluster 0 with a Nap queue, a running operation, and a program of one operation at batt address 0. -/
def napState (queue : List NapOp) (run : Option NapRun) : State :=
  withRegs { withCluster running0 { Cluster.empty with
      nap := { Cluster.empty.nap with queue := queue, run := run },
      batt := [(0, (1, false)), (4, (1, false)), (71, (1, false))] } with
    res := [(3, Rs.enable.set (0 : BitVec 256) 1)] } []

/-- A running operation of a descriptor that ends in cycle 40. -/
def napRun (d : BitVec 256) (illegal : Bool) : NapRun := ⟨⟨d, false, 0⟩, 4, 40, illegal, List.replicate 9 0, false, [], [], []⟩

/-- The hypotheses of NapOperations, IllegalNapOperation and SummaryAndNoteOperations at a start: every opcode, and one that does not
exist. -/
theorem test_nap_starts :
    (let st := fun d => napState [⟨d, false, 0⟩] none
     (st (napDesc 0x10 1 1 0)).ownerOfCluster 0 = some 0 ∧ ((st (napDesc 0x10 1 1 0)).cl 0).nap.headStart = some 4 ∧
     (st (napDesc 0x10 1 1 0)).napStarts 0 0x10 = true ∧
     (st ((Nd.base 2).set (napDesc 0x11 0 0 3) 9)).napStarts 0 0x11 = true ∧
     (st (napDesc 0x12 0 0 0)).napStarts 0 0x12 = true ∧ (st (napDesc 0x13 1 0 0)).napStarts 0 0x13 = true ∧
     (st (napDesc 0x14 1 0 0)).napStarts 0 0x14 = true ∧ (st (napDesc 0x15 1 0 0)).napStarts 0 0 = true) := by decide +kernel

/-- The hypotheses of the same statements at an end, Z15 among the summaries, and a full list of notes. -/
theorem test_nap_ends :
    (let s := napState [] (some (napRun (napDesc 0x10 1 1 0) false))
     (s.cl 0).nap.run = some (napRun (napDesc 0x10 1 1 0) false) ∧ (s.pt 0).slice.isSome = true ∧
     (napRun (napDesc 0x10 1 1 0) false).finish < (s.pt 0).edgeCycle ∧ (s.cl 0).writes.at 40 = []) ∧
    Nd.opcode.get (napDesc 0x11 1 0 3) = 0x11 ∧ Nd.opcode.get (napDesc 0x13 1 0 0) = 0x13 ∧ Nd.summary.get (napDesc 0x13 1 0 0) ≠ 15 ∧
    Nd.opcode.get (napDesc 0x14 1 0 0) = 0x14 ∧ (napRun (napDesc 0x15 15 0 0) true).illegal = true ∧
    Nd.summary.get (napDesc 0x15 15 0 0) = 15 ∧ Nd.opcode.get (napDesc 0x12 1 0 0) = 0x12 ∧
    ((napState [] none).pt 0).notes.length < 4096 ∧ 4096 ≤ { part0 with notes := List.replicate 4096 ⟨0, 0, 0⟩ }.notes.length := by
  decide +kernel

/-- Stream, turn and drain cycles of a BF16 PRODUCT over K 16 and of a PRELOAD (R87, R89, R93). -/
theorem test_array_timing : adTiming product0 false = (32, 0, 38) ∧ adTiming preload0 false = (21, 0, 38) := by decide +kernel

/-! ## Bursts, Kettle units, Reblock engines, devices -/

/-- A burst of 64 B between batt addresses of clusters 0 and 1; its alternative bits as given. -/
def burst0 (alt : Nat) : BitVec 256 :=
  Bu.alt.set (Bu.dest.set (Bu.source.set (Bu.length.set (0 : BitVec 256) 64) (2 ^ 62)) (2 ^ 62 + 2 ^ 22)) alt

/-- Cluster 0 of a state with alternative 1 of branch point 0 taken. -/
def decided (s : State) : State := withCluster s { Cluster.empty with crown := { Crown.empty with points := [(0, .taken 1 0)] } }

/-- Entry 3 of the Residency Table: 64 elements of a format at 0x10000, of partition 0. -/
def res3 (format : Nat) : ResEntry :=
  Rs.format.set (Rs.cols.set (Rs.rows.set (Rs.base.set (Rs.enable.set (0 : BitVec 256) 1) 1) 1) 64) format

/-- A state with Residency entry 3. -/
def withRes (s : State) (e : ResEntry) : State := { s with res := [(3, e)] }

/-- An item of an engine in progress since position 0. -/
def item0 (data : List (Byte × Bool)) (version aux : Nat) : ItemRun := ⟨.running, 0, 0, data, version, aux, []⟩

/-- What an access to entry 3, slot 0, meets where R283 to R290 allow it. -/
def Accessible (s : State) (y : ResEntry) (n : Nat) : Prop :=
  Rs.enable.get y = 1 ∧ Rs.partition.get y = 0 ∧ s.resTaken 3 = true ∧ Rs.role.get y ≠ rolePaired ∧ Rs.role.get y ≠ roleGathered ∧
  s.inSweep 0 3 = false ∧ (s.kvPools 0).contains 3 = false ∧ 3 ≠ s.rg (Obj.MASK_POOL 0) ∧ ResEntry.accessSlot y false 0 ≤ Rs.buffers.get y ∧
  n ≤ ResEntry.stride y ∧ (s.pt 0).copyBound 3 0 = false ∧ s.imageBytes (ResEntry.slotAddr y 0) n = false ∧
  s.inRegion (ResEntry.slotAddr y 0) n = true ∧ s.writable (ResEntry.slotAddr y 0) = true

/-- The hypotheses of Bursts: ready and taken, ready and not taken, and a running burst at its end; with batt and Residency endpoints. -/
theorem test_bursts :
    (let s := slicing [(1, 32, (burst0 0).toNat)]
     s.burstReady 0 0 = true ∧ s.altRead 0 0 0 = .taken ∧ s.running 0 = some (0x1100, 0, slice0) ∧ s.burst 0x1100 0 0 = burst0 0 ∧
     endpointOf (Bu.source.get (burst0 0)) = .batt 0 0 0 ∧ s.logicalCluster 0 0 0 = some 0 ∧ Bu.convert.get (burst0 0) = 0) ∧
    (let e := Bu.source.set (burst0 0) (3 * 2 ^ 36)
     let s := withRes (slicing [(1, 32, e.toNat)]) (res3 0x05)
     s.burstReady 0 0 = true ∧ s.altRead 0 0 0 = .taken ∧ s.burst 0x1100 0 0 = e ∧ endpointOf (Bu.source.get e) = .res false 0 3 0 ∧
     Bu.build.get e = 0 ∧ s.resSeen 0 0 3 = res3 0x05 ∧ Accessible s (res3 0x05) 64) ∧
    (let s := decided (slicing [(1, 32, (burst0 0x8000).toNat)])
     s.burstReady 0 0 = true ∧ s.altRead 0 0x8000 0 = .notTaken) ∧
    (let s := slicing [(1, 32, (burst0 0).toNat)] (fun r => r.setBurst 0 (item0 (List.replicate 64 (1, false)) 0xFFFFFFFF 64))
     s.burstEnds 0 0 0 = true ∧ endpointOf (Bu.dest.get (s.burst 0x1100 0 0)) = .batt 0 1 0 ∧ s.logicalCluster 0 0 1 = some 1) ∧
    (let e := Bu.dest.set (burst0 0) (2 ^ 61 + 3 * 2 ^ 36)
     let s := withRes (slicing [(1, 32, e.toNat)] (fun r => r.setBurst 0 (item0 (List.replicate 64 (1, false)) 0xFFFFFFFF 64))) (res3 0x05)
     s.burstEnds 0 0 0 = true ∧ endpointOf (Bu.dest.get (s.burst 0x1100 0 0)) = .res true 0 3 0 ∧ s.resE 3 = res3 0x05 ∧
     Accessible s (res3 0x05) 64) := by unfold Accessible; decide +kernel

/-- A Kettle item of 4 blocks on device 0, slot 2, whose scalar record is entry 3. -/
def kettle0 (first : Nat) : BitVec 512 := Kt.first.set (Kt.scalar.set (Kt.slot.set (Kt.blocks.set (0 : BitVec 512) 4) 2) 3) first

/-- The hypotheses of KettleItemsAdvanceSweeps: a good and a stale scalar record, a skipped sweep, a sweep to open, and an end. -/
theorem test_kettle :
    (let s := withRes (slicing [(3, 64, (kettle0 0).toNat)] id (·.setSweep 0 2 { Sweep.closed with state := 1, blocks := 9 })) (res3 0x05)
     s.kettleReady 0 0 0 = true ∧ Kt.first.get (s.kettleEntry 0x1100 0 0) = 0 ∧ ((s.pt 0).sweep 0 2).state = 1 ∧
     Kt.slot.get (s.kettleEntry 0x1100 0 0) = 2 ∧ s.kettleStart 0 0x1100 0 0 0 slice0 = 0 ∧
     (s.scalarRecord (s.kettleAgent 0 0 0) .none 3 0).2.isSome = true ∧ (s.scalarRecord (s.kettleAgent 0 0 0) .none 3 1).2 = none) ∧
    (let s := slicing [(3, 64, (kettle0 0).toNat)] id (·.setSweep 0 2 { Sweep.closed with state := 2, blocks := 9 })
     s.kettleReady 0 0 0 = true ∧ ((s.pt 0).sweep 0 2).state ≠ 1) ∧
    (let s := slicing [(3, 64, (kettle0 1).toNat)]
     s.kettleReady 0 0 0 = true ∧ Kt.first.get (s.kettleEntry 0x1100 0 0) = 1 ∧ (s.pt 0).atUpdate = false ∧
     (s.pt 0).missingMap.contains (Kt.group.get (s.kettleEntry 0x1100 0 0)) = false) ∧
    (let s := slicing [(3, 64, (kettle0 0).toNat)] (fun r => r.setKettle 0 { item0 [] 0 0 with finish := 900 })
     s.kettleRunning 0 0 = some 0 ∧ s.kettleEnds 0 0 500 = true) := by decide +kernel

/-- A slice with one plan row of quarter 0, in Residency entry 3. -/
def planned (e : BitVec 1024) (f : SliceRun → SliceRun := id) : State :=
  { poke [(0x1158, 8, 0x700), (0x1160, 4, 1), (0x1800, 4, 3), (0x1804, 4, 11), (0x1808, 11, leNat (nameBytes "$reblock.q0")),
      (0x10000, 128, e.toNat)] (slicing [] f) with
    res := [(3, Rs.rows.set (Rs.base.set (Rs.enable.set (0 : BitVec 256) 1) 1) 1)] }

/-- The same with a second entry 4 of 64 MXINT8, or other, elements at 0x20000. -/
def planned4 (e : BitVec 1024) (format : Nat) (f : SliceRun → SliceRun := id) : State :=
  let s := planned e f
  { s with res := s.res ++ [(4, Rs.base.set (res3 format) 2)] }

/-- A plan row of an operation with a batt source and destination, or a Residency destination for a REDUCE. -/
def row0 (op alt : Nat) : BitVec 1024 :=
  Rb.alt.set (Rb.dest.set (Rb.source.set (Rb.op.set (0 : BitVec 1024) op) (2 ^ 62)) (if op = 1 then 5 * 2 ^ 36 else 2 ^ 62 + 2 ^ 22)) alt

/-- A MOVE of one row of 32 elements with entry 4 as source, or as destination. -/
def move4 (src : Bool) : BitVec 1024 :=
  let e := Rb.count.set (Rb.span.set (row0 2 0) 1) 1
  if src then Rb.source.set e (4 * 2 ^ 36) else Rb.dest.set e (2 ^ 61 + 4 * 2 ^ 36)

/-- The hypotheses of ReblockItemsStartAndEnd. -/
theorem test_reblock :
    (let s := planned (row0 1 0)
     s.rbReady 0 0 0 1 = true ∧ s.altRead 0 0 0 = .taken ∧ endpointOf (Rb.dest.get (s.planItem 0x1100 0 0)) = .res false 0 5 0) ∧
    (planned (row0 2 0)).rbReady 0 0 0 2 = true ∧
    (let s := decided (planned (row0 2 0x8000))
     s.rbReady 0 0 0 2 = true ∧ Rb.alt.get (s.planItem 0x1100 0 0) = 0x8000 ∧ s.altRead 0 0x8000 0 = .notTaken) ∧
    (let s := decided (planned (row0 1 0x8000))
     s.rbReady 0 0 0 1 = true ∧ s.altRead 0 0x8000 0 = .notTaken) ∧
    (planned (row0 2 0) (fun r => r.setRb 0 0 (item0 [] 0 0))).rbEnds 0 0 0 0 = true ∧
    (let s := planned4 (move4 true) 0x06
     let y := Rs.base.set (res3 0x06) 2
     s.rbReady 0 0 0 2 = true ∧ s.planItem 0x1100 0 0 = move4 true ∧ endpointOf (Rb.source.get (move4 true)) = .res false 0 4 0 ∧
     isQueue (endpointOf (Rb.dest.get (move4 true))) = false ∧ Rb.build.get (move4 true) = 0 ∧ s.resSeen 0 0 4 = y ∧ s.resE 4 = y ∧
     fmtIsMX (Rs.format.get y) = false ∧ Rs.enable.get y = 1 ∧ Rs.partition.get y = 0 ∧ s.resTaken 4 = true ∧ s.inSweep 0 4 = false ∧
     (s.kvPools 0).contains 4 = false ∧ 4 ≠ s.rg (Obj.MASK_POOL 0) ∧ ResEntry.accessSlot y false 0 ≤ Rs.buffers.get y ∧
     64 ≤ ResEntry.stride y) ∧
    (let s := planned4 (move4 false) 0x06 (fun r => r.setRb 0 0 (item0 (List.replicate 64 (1, false)) 0 0))
     let y := Rs.base.set (res3 0x06) 2
     s.rbEnds 0 0 0 0 = true ∧ s.planItem 0x1100 0 0 = move4 false ∧ endpointOf (Rb.dest.get (move4 false)) = .res true 0 4 0 ∧
     isQueue (endpointOf (Rb.source.get (move4 false))) = false ∧ s.resE 4 = y ∧ fmtBits (Rs.format.get y) = 16 ∧
     Nat.min (32 * Rb.span.get (move4 false)) (Rs.cols.get y) = 32 ∧ Rs.role.get y ≠ roleGathered ∧ (s.pt 0).copyBound 4 0 = false ∧
     s.imageBytes 0x20000 64 = false ∧ s.inRegion 0x20000 64 = true ∧ s.writable 0x20000 = true ∧ ResEntry.slotAddr y 0 = 0x20000 ∧
     0 ≤ Rs.buffers.get y) := by decide +kernel

/-- The hypotheses of DeviceAndCxlPortCommands: the devices. -/
theorem test_device_states :
    (let s := withRegs alive [(Obj.DEV_STATE 0, devHot)]
     s.rg (Obj.DEV_STATE 0) = devHot ∧
     s.mayWrite 1 Obj.RETRAIN_DEVICE 0 = true ∧ s.retrainBarred 0 = false ∧
     (withRegs alive [(Obj.DEV_STATE 0, devFailed)]).retrainBarred 0 = true ∧ s.advised.testBit 0 = false ∧
     (20 : Int) < 21 - signed 32 (SMap.getD 0 s.trainTemp 0).toNat) ∧
    (let s := withRegs alive [(Obj.DEV_STATE 0, devTraining), (Obj.RETRAIN_STATUS, 1)]
     s.rg (Obj.DEV_STATE 0) = devTraining ∧ ∀ e : DeviceId, e ≠ 0 → s.rg (Obj.DEV_STATE e) ≠ devTraining) := by decide +kernel

/-- The hypotheses of DeviceAndCxlPortCommands: the CXL ports 0 TRAINING, 1 UP, 2 REMOVING, 3 FAILED and 4 EMPTY. -/
theorem test_cxl_states :
    (let s := withRegs alive [(Obj.CXL_STATE 0, cxlTraining), (Obj.CXL_STATE 1, cxlUp), (Obj.CXL_STATE 2, cxlRemoving), (Obj.CXL_STATE 3, cxlFailed)]
     s.power.up = true ∧ s.boot.milliner = true ∧ s.rg (Obj.CXL_STATE 0) = cxlTraining ∧ s.rg (Obj.CXL_STATE 1) = cxlUp ∧
     s.rg (Obj.CXL_STATE 2) = cxlRemoving ∧ s.rg (Obj.CXL_STATE 3) = cxlFailed ∧ s.rg (Obj.CXL_STATE 4) = cxlEmpty ∧
     s.mayWrite 1 (Obj.CXL_REMOVE 1) 1 = true ∧ s.resList = []) ∧
    ((withPart part0).ownersOfCxl 0).contains 0 = true := by decide +kernel

/-- A MOVE whose alternative is not taken is over. -/
theorem test_move_not_taken :
    (match exec (.reblockMove 0 0 0 .none) (decided (planned (row0 2 0x8000))) with
     | .next t => (t.pt 0).slice.map (fun r => (r.rb 0 0).state)
     | _ => none) = some .notTaken := by decide +kernel

/-! ## Ports, streams, frames -/

/-- Ports 0 and 1 up and the host port up. -/
def linked (s : State) : State := withRegs s [(Obj.LINK_STATE 0, linkUp), (Obj.LINK_STATE 1, linkUp), (Obj.HOST_LINK_STATE, linkUp)]

/-- Stream 7 of job 7 to module 1 on port 0, in frames of 1,024 B. -/
def stream0 : BitVec 1024 :=
  Sm.framePayload.set (Sm.peerModule.set (Sm.job.set (Sm.enable.set (0 : BitVec 1024) 1) 7) 1) 1024

/-- A slice whose port slot 0 is of stream 7, with direction, and with the slice changed. -/
def ported (dir : Nat) (f : SliceRun → SliceRun := id) : State :=
  { linked (slicing [(2, 32, (Ps.direction.set (Ps.stream.set (Ps.length.set (Ps.startNs.set (0 : BitVec 256) 5000) 64) 7) dir).toNat)]
      f (fun x => { x with streamPins := [(0, [7])] })) with streams := [(7, stream0)] }

/-- A frame of stream 7 in tick 5. -/
def frame0 (kind flags len : Nat) : FabricHeader := ⟨kind, flags, 7, 7, 1, 0, 5, 0, len, 0, 1, 64, 0⟩

/-- A running transmit slot. -/
def sending0 (io : SlotIO) (r : SliceRun) : SliceRun := (r.setSlot 0 ⟨.running, 5000, 0, List.replicate 64 (1, false), 1, 0, []⟩).setSlotIO 0 io

/-- The hypotheses of LinkStateCommands. -/
theorem test_links :
    ((withRegs alive [(Obj.ADMIN 0, 1)]).adminOn 0 = true ∧ alive.linkIsUp 0 = false ∧ (linked alive).linkIsUp 0 = true ∧
     alive.mayWrite 1 (Obj.ADAPT 63) 1 = true) ∧
    (let s := withRegs alive [(Obj.LINK_STATE 0, linkAdapting)]
     s.linkState 0 ≠ linkDown ∧ s.linkState 0 ≠ linkDisabled ∧ s.linkState 0 ≠ linkUp) ∧
    (let s := { ported 0 with now := 1000000, streams := [(7, Sm.active.set stream0 1)] }
     Sm.enable.get (s.streamE 7) = 1 ∧ Sm.active.get (s.streamE 7) ≠ 0 ∧ s.portUp (Sm.primary.get (s.streamE 7)) = true ∧
     (s.pt 0).gen.begun = true ∧ s.now = (s.pt 0).edgeNs ∧
     SMap.getD 0 s.upSince 0 + 1000000 * (withRegs s [(Obj.FAILBACK_MS, 1)]).rg Obj.FAILBACK_MS ≤ s.now) := by decide +kernel

/-- The hypotheses of FecAndPauseCommands. -/
theorem test_pause :
    ((linked running0).linkIsUp 0 = true ∧ (linked running0).ownerOfPort 0 = some 0 ∧ ((linked running0).pt 0).slice = some slice0) ∧
    (let s := { alive with pauseFrom := [(0, 10)], pauseEnd := [(0, 90)] }
     SMap.get? s.pauseFrom 0 = some 10 ∧ s.pauseLast 0 = 90) ∧
    (let s := withRegs (linked alive) [(Obj.PAUSE_TX, 2)]
     s.rg Obj.PAUSE_TX ≠ 0 ∧ s.linkIsUp hostPort = true ∧ s.hostPause = false ∧ { s with hostPause := true }.hostPause = true) := by
  decide +kernel

/-- The hypotheses of PeerAndIdleCommands: low-power idle, an idle transmitter, and one in low-power idle. -/
theorem test_idle :
    ((linked alive).linkIsUp 0 = true ∧ (withRegs alive [(Obj.LPI_EN 0, 1)]).lpiEnabled 0 = true) ∧
    (let s := withRegs (linked alive) [(Obj.WAKE_US 0, 5), (Obj.LPI_EN 0, 1)]
     s.linkIsUp 0 = true ∧ s.lpiEnabled 0 = true ∧ 0 < s.rg (Obj.WAKE_US 0) ∧ s.rg (Obj.LPI_STATE 0) = 0 ∧ s.now ≤ 0 ∧
     0 + 2000 * s.rg (Obj.WAKE_US 0) + 1000 ≤ 11000 ∧ s.idleInterval 0 0 11000 = true) ∧
    (let s := withRegs (linked alive) [(Obj.LPI_STATE 0, 1)]
     s.linkIsUp 0 = true ∧ s.rg (Obj.LPI_STATE 0) ≠ 0) ∧
    (linked alive).PortIdle 0 0 ∧ ((linked (withPart part0)).ownerOfPort 0 = some 0 ∧ (linked (withPart part0)).PortIdle 0 0) := by
  unfold State.PortIdle; decide +kernel

/-- A transport frame to port 0 in plain Ethernet, as the default filter entries take it. -/
def ownFrame (kind : Nat) : FrameInfo := ⟨macBytes (Config.portMac 0), none, 0x88B5, 0, none, 0, kind, 122⟩

/-- A frame that R347 leaves to the filters, and that filter entry 0 takes, is steered to queue 0. -/
theorem own_frame_steered (s : State) (kind : Nat) (hk : kind ∈ [0x10, 0x11, 0x12]) (hm : s.rg (Obj.FILTER_MODE 0) = 0)
    (he : s.rg Obj.FABRIC_ETHERTYPE = 0x88B5) (hf : s.filters = []) : s.steer 0 (ownFrame kind) = some 0 := by
  have h0 : (List.range 256).find? (fun i => filterMatches (s.filterE 0 i) 0 (ownFrame kind)) = some 0 := by
    have : filterMatches (s.filterE 0 0) 0 (ownFrame kind) = true := by simp only [State.filterE, hf]; rfl
    rw [show 256 = 255 + 1 from rfl, List.range_succ_eq_map]
    exact List.find?_cons_of_pos this
  have h1 : Fi.queue.get (s.filterE 0 0) = 0 := by simp only [State.filterE, hf]; decide +kernel
  simp only [List.mem_cons, List.not_mem_nil, or_false] at hk
  simp only [ownFrame] at h0
  obtain rfl | rfl | rfl := hk <;> simp [State.steer, ownFrame, he, hm, h0, h1]

/-- What such a frame meets where it arrives: it is received, and the transport takes it. -/
theorem own_frame_arrives (s : State) (kind at_ : Nat) (hk : kind ∈ [0x10, 0x11, 0x12]) (hm : (s.portTime 0 at_).rg (Obj.FILTER_MODE 0) = 0)
    (he : (s.portTime 0 at_).rg Obj.FABRIC_ETHERTYPE = 0x88B5) (hf : (s.portTime 0 at_).filters = [])
    (hr : ((s.portTime 0 at_).received 0).rg (Obj.FILTER_MODE 0) = 0 ∧ ((s.portTime 0 at_).received 0).rg Obj.FABRIC_ETHERTYPE = 0x88B5 ∧
      ((s.portTime 0 at_).received 0).filters = []) (hx : 122 ≤ (s.portTime 0 at_).maxFrame 0) :
    s.arrive 0 at_ (ownFrame kind) .intact = ((s.portTime 0 at_).received 0, true) := by
  have h1 := own_frame_steered _ kind hk hm he hf
  have h2 := own_frame_steered _ kind hk hr.1 hr.2.1 hr.2.2
  have h3 : ((s.portTime 0 at_).received 0).oddKind (ownFrame kind) = false := by
    simp only [List.mem_cons, List.not_mem_nil, or_false] at hk
    obtain rfl | rfl | rfl := hk <;> simp [State.oddKind, ownFrame, fabricKind, hr.2.1]
  have h4 : ((s.portTime 0 at_).received 0).steersAway 0 (ownFrame kind) = none := by simp [State.steersAway, h2]
  unfold State.arrive
  rw [if_neg (by simp only [ownFrame]; omega)]
  simp [h1, h3, h4]

/-- A state whose port 0 is in FILTER_MODE SERVICE. -/
def inService (s : State) : State := withRegs s [(Obj.FILTER_MODE 0, 0)]

/-- The hypotheses of FramesDiscarded: each kind of frame at port 0, one that is too long, one for the DROP queue, and an odd kind. -/
theorem test_discarded :
    ((linked alive).portUp 0 = true ∧ (frame0 0x10 1 64).kind = kdData ∧ (frame0 0x11 1 0).kind = kdNull) ∧
    ((frame0 0x12 0 0).kind = kdAck ∧ (frame0 0x12 0 0).flags.testBit fgNak = false ∧ (frame0 0x12 16 0).flags.testBit fgNak = true) ∧
    ((linked alive).linkIsUp 0 = true ∧ (linked alive).maxFrame 0 < { wfFrame 0x10 with bytes := 65000 }.bytes ∧
      (wfFrame 0x10).bytes ≤ (linked alive).maxFrame 0) ∧
    ((linked alive).linkIsUp hostPort = true ∧ (linked alive).steer 64 { wfFrame 0 with udp := some 9 } = some 7) ∧
    (linked alive).oddKind { wfFrame 0x20 with etype := 0x88B5 } = true := by decide +kernel

/-- The hypotheses of FramesDiscarded: a transport frame of another tick. -/
theorem test_stale :
    (inService (ported 1)).steer 0 (ownFrame 0x10) = some 0 ∧
    (let s := inService (ported 1)
     s.portUp 0 = true ∧ s.ownerOfPort 0 = some 0 ∧ (frame0 0x10 1 64).reserved = 0 ∧ (ownFrame 0x10).bytes ≤ s.maxFrame 0 ∧
     s.oddKind (ownFrame 0x10) = false ∧ { frame0 0x10 1 64 with tick := 4 }.tick ≠ (s.pt 0).gen.tick) :=
  ⟨own_frame_steered _ _ (by decide) (by decide +kernel) (by decide +kernel) (by decide +kernel), by decide +kernel⟩

/-- The hypotheses of FramesAccepted for a receive-expected slot: its last frame as DATA, also for a port queue, and as NULL. -/
theorem test_accepted :
    (∀ k ∈ [0x10, 0x11], (inService (ported 1)).arrive 0 1006000 (ownFrame k) .intact =
      (((inService (ported 1)).portTime 0 1006000).received 0, true)) ∧
    ((inService (ported 1)).steer 0 (ownFrame 0x10) = some 0 ∧ (inService (ported 1)).steer 0 (ownFrame 0x11) = some 0) ∧
    (let s := inService (ported 1)
     let u := (s.portTime 0 1006000).received 0
     s.portUp 0 = true ∧ s.ownerOfPort 0 = some 0 ∧ 122 ≤ s.maxFrame 0 ∧ s.oddKind (ownFrame 0x10) = false ∧ s.oddKind (ownFrame 0x11) = false ∧
     (frame0 0x10 1 64).reserved = 0 ∧ (frame0 0x10 1 64).flags.testBit fgRelay = false ∧ u.running 0 = some (0x1100, 0, slice0) ∧
     (u.pt 0).gen.tick = 5 ∧
     u.streamTakes 0 0 (frame0 0x10 1 64) = true ∧ u.slotByOrd 0x1100 0 dirRx 7 0 = some 0 ∧
     u.frameFits 0x1100 0 0 (frame0 0x10 1 64) (List.replicate 64 1) = true ∧ u.frameFits 0x1100 0 0 (frame0 0x11 1 0) [] = true ∧
     (slice0.slotIO 0).expect = 0 ∧ Sm.class_.get (u.streamE 7) ≠ classControl) ∧
    (endpointOf (2 ^ 63 + 2 ^ 55) = .queue 0 0 1 0 ∧ (ported 1).logicalPort 0 0 0 = some 0 ∧ 0 + 0 + 64 ≤ queueBytes) := by
  refine ⟨?_, ⟨?_, ?_⟩, by decide +kernel, by decide +kernel⟩
  · intro k hk
    refine own_frame_arrives _ _ _ ?_ (by decide +kernel) (by decide +kernel) (by decide +kernel) (by decide +kernel) (by decide +kernel)
    simp only [List.mem_cons, List.not_mem_nil, or_false] at hk ⊢
    obtain h | h := hk <;> simp [h]
  · exact own_frame_steered _ _ (by decide) (by decide +kernel) (by decide +kernel) (by decide +kernel)
  · exact own_frame_steered _ _ (by decide) (by decide +kernel) (by decide +kernel) (by decide +kernel)

/-- The hypotheses of FramesAccepted for a transmit slot: an ACK or a NAK of its frame. -/
theorem test_acknowledged :
    (let s := inService (ported 0 (sending0 ⟨1, 0, 0, 0, 100500000, 1⟩))
     s.steer 0 (ownFrame 0x12) = some 0 ∧
     s.arrive 0 1006000 (ownFrame 0x12) .intact = ((s.portTime 0 1006000).received 0, true)) ∧
    (let s := inService (ported 0 (sending0 ⟨1, 0, 0, 0, 100500000, 1⟩))
     let r := sending0 ⟨1, 0, 0, 0, 100500000, 1⟩ slice0
     let u := (s.portTime 0 1006000).received 0
     s.portUp 0 = true ∧ 122 ≤ s.maxFrame 0 ∧ s.oddKind (ownFrame 0x12) = false ∧
     u.running 0 = some (0x1100, 0, r) ∧ u.slotByOrd 0x1100 0 dirTx 7 0 = some 0 ∧ Ps.length.get (u.slotEntry 0x1100 0 0) = 64 ∧
     (r.slot 0).state ≠ .waiting ∧ u.streamTakes 0 0 (frame0 0x12 16 0) = true ∧ u.streamTakes 0 0 (frame0 0x12 0 0) = true) := by
  refine ⟨⟨?_, ?_⟩, by decide +kernel⟩
  · exact own_frame_steered _ _ (by decide) (by decide +kernel) (by decide +kernel) (by decide +kernel)
  · exact own_frame_arrives _ _ _ (by decide) (by decide +kernel) (by decide +kernel) (by decide +kernel) (by decide +kernel) (by decide +kernel)

/-- The hypotheses of SendingCommands. -/
theorem test_sending :
    (let s := ported 0
     s.slotStarts 0 0 = true ∧ s.running 0 = some (0x1100, 0, slice0) ∧ (s.advanceTo 0 1005000).altRead 0 0 5000 = .taken) ∧
    (let e := Ps.buffer.set (Ps.length.set (0 : BitVec 256) 64) (2 ^ 62)
     endpointOf (Ps.buffer.get e) = .batt 0 0 0 ∧ ((ported 0).advanceTo 0 1005000).logicalCluster 0 0 0 = some 0) ∧
    (let s := decided (slicing [(2, 32, (Ps.alt.set (Ps.direction.set (Ps.startNs.set (0 : BitVec 256) 5000) 0) 0x8000).toNat)])
     s.slotStarts 0 0 = true ∧ (s.advanceTo 0 1005000).altRead 0 0x8000 5000 = .notTaken) ∧
    (let r := sending0 ⟨1, 0, 0, 0, 100500000, 1⟩ slice0
     let v := (ported 0 (sending0 ⟨1, 0, 0, 0, 100500000, 1⟩)).advanceTo 0 1040000
     v.ackOverdue 0 0 = true ∧ (v.pt 0).slice = some r) ∧
    (let h := fun m => { frame0 0x10 4 0 with final := m }
     let s := { ported 0 with relays := [(0, [(wfFrame 0x10, h 1, [])])] }
     let v := s.advanceTo 0 1001000
     SMap.getD [] s.relays 0 = [(wfFrame 0x10, h 1, [])] ∧ s.relayStream 0 0 (h 2) = none ∧ s.ownerOfPort 0 = some 0 ∧
     s.relayStream 0 0 (h 1) = some 7 ∧ s.now ≤ 1001000 ∧ s.relayFits 0 0 1001000 138 = true ∧ v.txAwake 0 = true ∧
     v.txGate 0 0 ≤ 100 * 1001000 ∧ SMap.getD [] v.txq 0 = []) := by decide +kernel

/-- The hypotheses of StreamTableCommands. -/
theorem test_stream_table :
    (let s := withRegs alive [(Obj.TABLES_SET, 2)]
     s.session 1 = some admin ∧ admin.role ≠ roleUser ∧ s.tableSet 1 = true ∧ s.win 1 Obj.STREAM_INDEX < 4096 ∧
     s.mayWrite 1 Obj.STREAM_COMMAND 1 = true ∧ s.streamOn 0 = false ∧ s.mayWrite 1 Obj.STREAM_COMMAND 2 = true ∧
     s.mayWrite 1 Obj.STREAM_COMMAND 3 = true) ∧
    (let s := { withRegs alive [(Obj.TABLES_SET, 2)] with streams := [(0, stream0)], sessions := [adminWith [] [(Obj.STREAM_IMAGE, [1])]] }
     Sm.enable.get (s.streamE 0) = 1 ∧ s.actsFor 1 0 = true ∧ s.winDom 1 Obj.STREAM_IMAGE ≠ []) := by decide +kernel

/-! ## Time and RoCEv2 -/

/-- Port 0 and the host port linked, PTP on port 0, in a state of time and of SyncE. -/
def timed (st sy slave : Nat) : State :=
  withRegs (linked alive) [(Obj.PTP_PORTS, 1), (Obj.TIME_STATE, st), (Obj.SYNCE_STATE, sy), (Obj.SLAVE_PORT, slave)]

/-- The hypotheses of TimeCommands. -/
theorem test_time :
    ((timed tsLocked syLocked 0).linkIsUp 0 = true ∧ (timed tsLocked syLocked 0).runsPtp 0 = true ∧
      (timed tsLocked syLocked 0).rg Obj.SLAVE_PORT = 0 ∧ (timed tsLocked syLocked 0).rg Obj.TIME_STATE = tsLocked ∧ 20 < (21 : Int).natAbs ∧
      (timed tsAcquiring syLocked 0).rg Obj.TIME_STATE ≠ tsLocked ∧ (8 : Int).natAbs ≤ 8 ∧
      (timed tsAcquiring syLocked 0).rg Obj.SYNCE_STATE = syLocked) ∧
    ((timed tsLocked syLocked 0).rg Obj.SLAVE_PORT ≠ 0xFF ∧ (timed tsLocked syLocked 0).announceAt + 3 * 10 ^ 9 ≤ 3000000000 ∧
      (timed tsHoldoverSynce syLocked 0).holdFrom + 60 * 10 ^ 9 ≤ 60000000000 ∧
      (timed tsHoldover syFree 0).rg Obj.TIME_STATE = tsHoldover ∧ (timed tsHoldover syFree 0).rg Obj.SYNCE_STATE ≠ syLocked ∧
      (timed tsHoldover syFree 0).holdFrom + 10 ^ 9 ≤ 1000000000) ∧
    ((timed tsLocked syLocked 0).now ≤ 1 * 10 ^ 9 ∧ alive.mayWrite 1 (okey 0x1400 1) 127 = true ∧ alive.rg (okey 0x1400 1) ≠ 127 ∧
      (List.range 12).any alive.multiModule = false ∧
      (List.range 12).any (poke [(0x1014, 4, 0x100), (0x111C, 1, 2)] (withPart { part0 with
        jobs := [(0, Job.state.set (Job.blockAddr.set (0 : BitVec 1024) 0x1000) jsTicking)] })).multiModule = true) := by decide +kernel

/-- The hypotheses of TimeCommands on the ports: one that is idle, at once and after a message has arrived, and one in low-power idle. -/
theorem test_time_ports :
    ((timed tsLocked syLocked 0).PortIdle 0 0 ∧ ((timed tsLocked syLocked 0).portTime 0 9).PortIdle 0 0) ∧
    (let s := withRegs (timed tsLocked syLocked 1) [(Obj.LPI_STATE 0, 1)]
     s.runsPtp 0 = true ∧ s.linkIsUp 0 = true ∧ 0 ≠ s.rg Obj.SLAVE_PORT ∧ s.rg (Obj.LPI_STATE 0) ≠ 0) := by
  unfold State.PortIdle; decide +kernel

/-- A queue pair entry of partition 0 that no check refuses, with all access. -/
def qpEntry : BitVec 512 :=
  Qe.rate.set (Qe.maxReads.set (Qe.timeout.set (Qe.mtu.set (Qe.access.set (0 : BitVec 512) 7) 4096) 14) 1) 1000

/-- A region of 128 B at 0x2000 of partition 0. -/
def region0 : BitVec 256 := Re.access.set (Re.length.set (Re.base.set (0 : BitVec 256) 0x2000) 128) 7

/-- Partition 0 built, a session with an entry for a queue pair and a region in its windows. -/
def rocing (e : BitVec 512) (g : BitVec 256) (x : Session) : State :=
  { linked (withPart part0) with
    sessions := [{ x with doms := [(Obj.QP_DATA, leBytes 64 e.toNat), (Obj.REGION_DATA, leBytes 32 g.toNat)] }],
    qps := [(1, { Qp.reset with entry := qpEntry, state := qpReady, unacked := [(0, 0, 0, [1])] })],
    regions := [(0, ⟨region0, 1⟩)] }

/-- The hypotheses of QueuePairAndRegionCommands. -/
theorem test_queue_pairs :
    (let s := rocing qpEntry region0 admin
     (s.session 1).isSome = true ∧ s.mayWrite 1 Obj.QP_COMMAND 1 = true ∧ s.mayWrite 1 Obj.QP_COMMAND 2 = true ∧ qpFieldBad qpEntry = false ∧
     BitVec.ofNat 512 (leNat (s.winDom 1 Obj.QP_DATA)) = qpEntry ∧
     (s.actsFor 1 0 && (s.pt 0).built.isSome && !s.qpForeign 1) = true ∧ s.qpForeign 1 = false ∧
     (s.qp 0).state = Machine.qpReset ∧ qpFieldBad 0 = true) ∧
    ((rocing (Qe.partition.set qpEntry 1) region0 admin).pt 1).built.isSome = false ∧
    ((rocing qpEntry region0 { admin with regs := [(Obj.QP_INDEX, 1)] }).qp
      ((rocing qpEntry region0 { admin with regs := [(Obj.QP_INDEX, 1)] }).win 1 Obj.QP_INDEX)).state ≠ Machine.qpReset ∧
    (let s := rocing qpEntry region0 admin
     s.mayWrite 1 Obj.REGION_COMMAND 1 = true ∧ s.mayWrite 1 Obj.REGION_COMMAND 2 = true ∧ s.regionForeign 1 0 = false ∧
     Re.base.get region0 % 64 = 0 ∧
     Re.length.get region0 % 64 = 0 ∧ 64 ≤ Re.length.get region0 ∧ Re.partition.get region0 ≤ 11 ∧ Re.access.get region0 ≤ 7 ∧
     Re.rsv.get region0 = 0 ∧ Re.base.get (1 : BitVec 256) % 64 ≠ 0 ∧ s.region (Re.base.get region0) = some (.gddr 0) ∧
     s.inPartition 0 0x2000 128 = true ∧ s.actsFor 1 0 = true ∧ s.inPartition 0 (2 ^ 32) 128 = false ∧
     SMap.get? s.regions (s.win 1 Obj.REGION_INDEX) = some ⟨region0, 1⟩) ∧
    (let s := withRegs (rocing qpEntry region0 { admin with role := roleOwner, part := 1 }) [(Obj.TABLES_SET, 1), (okey 0x5000 1, 0x2000)]
     s.tableRanges.any (fun r => overlaps 0x2000 128 r.1 r.2) = true ∧ s.mayWrite 1 Obj.REGION_COMMAND 2 = true ∧ s.actsFor 1 0 = false ∧
     s.regionForeign 1 0 = true ∧ s.regionForeign 1 1 = false) ∧
    (let s := rocing qpEntry region0 { admin with role := roleOwner, part := 1, regs := [(Obj.QP_INDEX, 1)] }
     s.mayWrite 1 Obj.QP_COMMAND 2 = true ∧ s.qpForeign 1 = true) := by
  decide +kernel

/-- The hypotheses of RocePackets. -/
theorem test_roce_packets :
    (let s := rocing qpEntry region0 admin
     let x : RocePacket := ⟨qpBase + 1, 0, true, true, 0x2000, 1, 64, List.replicate 64 1, true, false, true, AccessErrors.none⟩
     s.linkIsUp hostPort = true ∧ (s.qp 1).frameBytes x ≤ s.maxFrame hostPort ∧ x.psn < psnMod ∧ x.psn = (s.qp 1).rq ∧ x.qp - qpBase = 1 ∧ qpBase ≤ x.qp ∧ x.qp < qpBase + 256 ∧
     (s.qp 1).state = qpReady ∧ x.data.length = x.length ∧ s.remoteAllowed (s.qp 1) opWrite 1 0x2000 64 = true ∧
     s.remoteAllowed (s.qp 1) opRead 1 0x2000 64 = true ∧ s.remoteAllowed (s.qp 1) opWrite 1 0x2080 64 = false ∧
     s.remoteAllowed (s.qp 1) opRead 2 0x2000 64 = false ∧ 64 ≤ Qe.mtu.get (s.qp 1).entry ∧
     (List.range 64).any (fun j => s.sweptAt 0 (0x2000 + j)) = false ∧ s.writable 0x2000 = true ∧ (s.memRead 0x2000 64).any (·.2) = false ∧
     s.PortIdle hostPort (s.rg Obj.PFC_PRIORITY)) := by unfold State.PortIdle; decide +kernel

/-- The hypotheses of RocePackets at a timeout, with a repetition left and without. -/
theorem test_roce_timeout :
    (let q := (rocing qpEntry region0 admin).qp 1
     q.state = qpReady ∧ q.unacked ≠ [] ∧ q.since + 4096 * 2 ^ Qe.timeout.get q.entry ≤ 67108864 ∧ ¬ q.tries < Qe.retry.get q.entry) ∧
    0 < Qe.retry.get (Qe.retry.set qpEntry 3) := by decide +kernel

/-! ## Jenjo -/

/-- The session a request of these tests comes from: on the host port, open or half-open. -/
def peer (role : Nat) (isOpen : Bool) : Session := { admin with role := role, open_ := isOpen, lastResp := some ⟨5, 1, 0, 0, 0, 0, 0, [], 0⟩ }

/-- A module with one session. -/
def serving (x : Session) : State := { alive with sessions := [x] }

/-- A request of an object with a payload, not signed. -/
def request0 (key seq : Nat) (payload : List Byte) : Request := ⟨64, 7, 1, seq, key / 256, key % 256, false, 0, payload, [], 0⟩

/-- A request signed with a session's key. -/
def sign (x : Session) (op : Nat) (r : Request) : Request := { r with tag := hmac512 x.key (reqHeader r op ++ r.payload) }

/-- A signed request verifies, whatever its operation. -/
theorem sign_verifies (x : Session) (op : Nat) (r : Request) : x.verifies (sign x op r) op = true := by
  simp [Session.verifies, sign, reqHeader]

/-- A hash value has eight words, and a tag 64 bytes. -/
theorem sha_length (l : List (List Byte)) (h : List Word) (n : h.length = 8) : (l.foldl shaBlock h).length = 8 := by
  induction l generalizing h with
  | nil => exact n
  | cons b l ih => exact ih _ (by simp [shaBlock, ShaVars.toList, n])
theorem byte_length (v : Nat) : (beBytes 8 v).length = 8 := by simp [beBytes, leBytes]
theorem hmac_length (k m : List Byte) : (hmac512 k m).length = 64 := by
  have e : ∀ l : List Word, (l.flatMap (fun w => beBytes 8 w.toNat)).length = 8 * l.length := by
    intro l
    induction l with
    | nil => rfl
    | cons w l ih => simp only [List.flatMap_cons, List.length_append, ih, List.length_cons, byte_length]; omega
  simp only [hmac512, sha512, e]
  rw [sha_length _ _ (by decide)]

/-- The hypotheses of SessionLifecycle but those on keys: an OPEN that is refused, an OPEN that claims, a half-open session, and times. -/
theorem test_session_lifecycle :
    (let s := { serving (peer roleClaim false) with sessions := [peer roleClaim false] }
     let r := request0 0 1 []
     s.jenjoOn 64 = true ∧ r.payload.length ≤ 8192 ∧ s.openBad r 0 0 [] ≠ stOk ∧
     s.openBad (request0 0 1 (4 :: List.replicate 551 0)) 4 0 [] = stOk ∧ leNat ((4 :: List.replicate 551 (0 : Byte)).take 1) = 4 ∧
     s.senderOf r = some (peer roleClaim false) ∧ (peer roleClaim false).open_ = false ∧ r.seq = 1 ∧ r.reserved = 0 ∧
     (s.sessions.filter (·.open_)).length < 16 ∧ (peer roleAdmin false).role ≠ roleClaim ∧ s.dom Obj.ADMIN_KEYS = []) ∧
    (let s := serving admin
     s.sessions.find? (fun y => y.id == 1) = some admin ∧ s.session 1 = some admin ∧ admin.lastSeq < 2 ∧
     admin.lastMsg + 1000000000 * s.rg Obj.SESSION_IDLE_S ≤ 10 ^ 15 ∧ (peer roleAdmin false).openedAt + 5000000000 ≤ 10 ^ 15) := by
  decide +kernel

/-- The hypotheses of SessionLifecycle and RequestsAndEvents on keys: a signed request, one whose TAG fails, the claim code and another
payload. -/
theorem test_tags :
    (∀ op r, (peer roleClaim true).verifies (sign (peer roleClaim true) op r) op = true) ∧ admin.verifies (request0 0 1 []) msgClose = false ∧
    (hmac512 Config.claimCode admin.nonces).length = 64 := by
  refine ⟨fun op r => sign_verifies _ op r, ?_, hmac_length _ _⟩
  simp only [Session.verifies, beq_eq_false_iff_ne]
  intro h
  have := congrArg List.length h
  rw [hmac_length] at this
  simp [request0] at this

/-- The hypotheses of RequestsAndEvents but those on keys. -/
theorem test_requests :
    (let s := serving admin
     let u := s.modSession 1 (fun y => { y with failures := 0, lastMsg := s.now })
     s.senderOf (request0 Obj.SESSION_IDLE_S 2 []) = some admin ∧ (u.readObj 1 Obj.SESSION_IDLE_S).1 = stOk ∧
     (u.readObj 1 Obj.SESSION_IDLE_S).2.length ≤ 8192 ∧ reqKey (request0 Obj.SESSION_IDLE_S 2 []) = Obj.SESSION_IDLE_S ∧
     (u.readObj 1 0xFFFF00).1 ≠ stOk ∧ (u.readObj 1 Obj.PUBLISHER_KEYS).1 = stOk ∧ isDomain Obj.PUBLISHER_KEYS = true ∧
     (leBytes 4 64).length = 4) ∧
    ((objRow Obj.PUBLISHER_KEYS).map (fun row => (decide (row.acc = .ro), decide (row.ty = .domain))) = some (false, true) ∧
      (serving admin).mayWrite 1 Obj.PUBLISHER_KEYS 0 = true ∧ (peer roleAdmin true).lastSeq < 2 ∧ (peer roleAdmin true).lastSeq = 1 ∧
      (peer roleAdmin true).lastResp.isSome = true) ∧
    (let e : Unacked := ⟨3, ⟨0, 0, 0, 0, 0⟩, 5, 0⟩
     let s := serving { admin with queue := [e] }
     s.session 1 = some { admin with queue := [e] } ∧ [e].find? (fun y => y.seq == 3) = some e ∧ s.boot.milliner = true ∧ e.sends ≤ 5 ∧
     e.lastSent + 200000000 ≤ 200000000) := by decide +kernel

/-- The hypotheses of RegisterWrites. -/
theorem test_register_writes :
    ((serving admin).mayWrite 2 Obj.SESSION_IDLE_S 60 = false ∧ (objRow Obj.LAST_SHUTDOWN).map (fun row => decide (row.acc = .ro)) = some true ∧
      (serving admin).session 1 = some admin) ∧
    (let s := withPart { part0 with built := none }
     s.mayWrite 1 (Obj.TICK_GRAINS 0) 5 = true ∧ s.rg (Obj.CLOSE_GUARD_NS 0) + 20000 ≤ 5 * 10000 ∧ s.rg (Obj.PART_STATE 0) ≠ psActive ∧
     s.rg (Obj.PART_STATE 0) ≠ psHalted ∧ (s.pt 0).gen.on = true ∧ (s.pt 0).gen.begun = true ∧ s.mayWrite 1 (Obj.CLOSE_GUARD_NS 0) 500 = true ∧
     500 + 20000 ≤ s.rg (Obj.TICK_GRAINS 0) * 10000 ∧ ¬ ((withRegs s [(Obj.PART_STATE 0, psActive)]).rg (Obj.PART_STATE 0) ≠ psActive)) ∧
    ((∀ q : PartId, ((serving admin).pt q).built = none) ∧ ((withPart part0).pt 0).built ≠ none) := by decide +kernel

/-- The hypotheses of CoefficientKeyAndNonceWrites. -/
theorem test_keys :
    (let s := withRegs (serving admin) [(Obj.TABLES_SET, 32)]
     s.mayWrite 1 Obj.WINDOW_DATA 0 = true ∧ (List.replicate 64 (0 : Byte)).length = 64 ∧ admin.role = roleAdmin ∧ s.tableSet 5 = true ∧
     Cf.enable.get (s.coefRow (s.win 1 Obj.WINDOW_ROW)) = 0 ∧ s.mayWrite 1 Obj.PUBLISHER_KEYS 0 = true ∧ (List.replicate 63 (0 : Byte)).length % 64 ≠ 0 ∧
     (keyList (List.replicate 64 (0 : Byte))).length ≤ 16 ∧
     (keyList (List.replicate 64 (0 : Byte))).eraseDups.length = (keyList (List.replicate 64 (0 : Byte))).length ∧
     s.mayWrite 1 Obj.ATTEST_NONCE 0 = true) := by decide +kernel

/-! ## Tables, partitions, jobs -/

/-- Every table set, the six tables spread over device 0 from 0x1000_0000 on, and a session as given. -/
def tabled (x : Session) (p : Part) : State :=
  withRegs { withPart p with sessions := [x] } ((Obj.TABLES_SET, 63) :: (List.range 6).map (fun i => (okey 0x5000 (i + 1), 0x10000000 * (i + 1))))

/-- The hypotheses of ResidencyCommands: an entry that is off, one that is on, one that a job pins. -/
theorem test_residency :
    (let s := tabled admin part0
     s.session 1 = some admin ∧ admin.role ≠ roleUser ∧ s.tableSet 0 = true ∧ s.mayWrite 1 Obj.RES_COMMAND 1 = true ∧
     s.win 1 Obj.RES_INDEX < 524288 ∧ s.resEnabled 0 = false ∧ s.mayWrite 1 Obj.RES_COMMAND 2 = true ∧ s.mayWrite 1 Obj.RES_LIST 0 = true ∧
     (leBytes 4 524287).length = 4 ∧ leNat (leBytes 4 524287) < 524288 ∧ s.resEnabled 524287 = false) ∧
    (let s := { tabled admin part0 with res := [(0, Rs.provTag.set (Rs.enable.set (0 : BitVec 256) 1) 0xFFFFFFFF)] }
     s.resEnabled 0 = true ∧ s.actsFor 1 0 = true ∧ s.resHeldBack 0 = false) ∧
    { tabled admin { part0 with pins := [(0, [0])] } with res := [(0, Rs.enable.set (0 : BitVec 256) 1)] }.resHeldBack 0 = true := by
  decide +kernel

/-- The hypotheses of SlotCommands. -/
theorem test_slots :
    (let s := tabled admin part0
     s.tableSet 2 = true ∧ s.win 1 Obj.SLOT_INDEX < 8192 ∧ s.mayWrite 1 Obj.SLOT_COMMAND 1 = true ∧ s.slotOn 0 = false ∧
     s.mayWrite 1 Obj.SLOT_COMMAND 2 = true ∧ s.mayWrite 1 Obj.SLOT_COMMAND 3 = true ∧ SMap.get? (s.pt 0).slotCancels 0 = none ∧
     s.win 1 Obj.CANCEL_TICK = 0) ∧
    (let on := fun (st : Nat) => { tabled admin part0 with slots := [(0, Sl.status.set (Sl.enable.set (0 : BitVec 1024) 1) st)] }
     (on 0).slotOn 0 = true ∧ (on 0).actsFor 1 0 = true ∧ (on 0x10).slotOn 0 = true ∧
     slStopped (Sl.status.get ((on 0).slotE 0)) = false ∧ slStopped (Sl.status.get ((on 0x10).slotE 0)) = true) := by decide +kernel

/-- A generation job that ticks. -/
def generating0 : Part := { part0 with jobs := [(0, Job.state.set (0 : BitVec 1024) jsTicking)], descs := [(0, 0)] }

/-- The hypotheses of PagePrefixAndCopyCommands. -/
theorem test_pages :
    (let s := tabled { admin with regs := [(Obj.PAGE_SPAN, 1)] } part0
     s.tableSet 3 = true ∧ s.win 1 Obj.PAGE_INDEX < 262144 ∧ s.win 1 Obj.PAGE_SPAN = 1 ∧ s.mayWrite 1 Obj.PAGE_COMMAND 1 = true ∧
     s.pageOn 0 = false ∧ s.mayWrite 1 Obj.PAGE_COMMAND 2 = true ∧ s.tableSet 4 = true ∧ s.mayWrite 1 Obj.PREFIX_COMMAND 1 = true ∧
     s.prefixOn 0 = false ∧ s.mayWrite 1 Obj.PREFIX_COMMAND 2 = true) ∧
    (let s := { tabled admin part0 with
       pages := [(0, Pg.enable.set (0 : BitVec 128) 1)], prefixes := [(0, Px.enable.set (0 : BitVec 256) 1)] }
     s.pageOn 0 = true ∧ s.actsFor 1 0 = true ∧ s.pageOwned (s.pageE 0) = false ∧ s.prefixOn 0 = true ∧ Px.refs.get (s.prefixE 0) = 0 ∧
     { s with slots := [(0, Sl.enable.set (0 : BitVec 1024) 1)] }.pageOwned (s.pageE 0) = true ∧
     Px.refs.get (Px.refs.set (s.prefixE 0) 1) ≠ 0) ∧
    (let s := { tabled { admin with role := roleOwner, part := 1, regs := [(Obj.PAGE_SPAN, 1)] } part0 with pages := [(0, Pg.enable.set (0 : BitVec 128) 1)] }
     s.mayWrite 1 Obj.PAGE_COMMAND 2 = true ∧ s.win 1 Obj.PAGE_SPAN = 1 ∧ s.pageOn 0 = true ∧ s.actsFor 1 (Pg.partition.get (s.pageE 0)) = false) ∧
    (let s := withRegs (tabled { admin with regs := [(Obj.COPY_TICK, 9)] } { generating0 with copyPrepared := true }) [(Obj.TICK_NUMBER 0, 5)]
     s.win 1 Obj.COPY_PARTITION = 0 ∧ s.actsFor 1 0 = true ∧ s.generating 0 = true ∧ s.otherBound 0 = false ∧
     s.mayWrite 1 Obj.COPY_COMMAND 1 = true ∧ s.mayWrite 1 Obj.COPY_COMMAND 2 = true ∧ s.rg (Obj.TICK_NUMBER 0) < s.win 1 Obj.COPY_TICK ∧
     (s.pt 0).copyPrepared = true ∧ (withRegs s [(Obj.TICK_NUMBER 0, 9)]).win 1 Obj.COPY_TICK ≤ (withRegs s [(Obj.TICK_NUMBER 0, 9)]).rg (Obj.TICK_NUMBER 0)) := by
  decide +kernel

/-- The hypotheses of GenerationStepSettles, with a cancel whose tick has come, of a job that has ended, and without a generation job. -/
theorem test_generation :
    (let z := { settling0 with recorded := true }
     let x := { generating0 with genDue := some ([], []), settling := some z, slotCancels := [(4, 5)] }
     x.genDue = some ([], []) ∧ x.settling = some z ∧ z.recorded = true ∧ SMap.get? x.descs z.job = some 0 ∧
     (withPart x).jobState 0 z.job = jsTicking ∧ SMap.get? x.slotCancels 4 = some 5 ∧ 5 ≤ x.gen.tick ∧
     { x with genEnd := some 0 }.genEnd = some z.job ∧ x.genEnd = none ∧ SMap.get? { x with descs := [] }.descs z.job = none ∧
     (withPart { x with jobs := [] }).jobState 0 z.job ≠ jsTicking) := by decide +kernel

/-- The hypotheses of PartitionCommands: a build of cluster 0, device 0 and port 0 that is refused and one that is not, a rebuild of the
same resources, a dissolve with and without entries, a stop of a ticking job. -/
theorem test_partitions :
    (let s := withRegs (tabled admin { part0 with built := none }) [(Obj.CLUSTERS 0, 1), (Obj.DEVICES 0, 1), (Obj.PORTS 0, 1), (Obj.JOB_TABLE_BASE 0, 0x80000000)]
     s.mayWrite 1 (Obj.PART_COMMAND 0) 1 = true ∧ (s.pt 0).built = none ∧ s.partCheck 0 (s.asked 0) = 0 ∧
     (withRegs s [(Obj.CLUSTERS 0, 0)]).partCheck 0 ((withRegs s [(Obj.CLUSTERS 0, 0)]).asked 0) ≠ 0) ∧
    (let s := withRegs (tabled admin part0) [(Obj.CLUSTERS 0, 1), (Obj.DEVICES 0, 1), (Obj.PORTS 0, 1), (Obj.JOB_TABLE_BASE 0, 0x80000000),
       (Obj.PART_STATE 0, psIdle)]
     s.mayWrite 1 (Obj.PART_COMMAND 0) 2 = true ∧ (s.pt 0).built ≠ none ∧ s.rg (Obj.PART_STATE 0) = psIdle ∧ s.partCheck 0 (s.asked 0) = 0 ∧
     (let u := withRegs s [(Obj.PORTS 0, 2)]
      u.partCheck 0 (u.asked 0) = 0 ∧ res0.ports.testBit 0 = true ∧ (u.asked 0).ports.testBit 0 = false) ∧
     (withRegs s [(Obj.CLUSTERS 0, 0)]).partCheck 0 ((withRegs s [(Obj.CLUSTERS 0, 0)]).asked 0) ≠ 0 ∧
     (withRegs s [(Obj.PART_STATE 0, psActive)]).rg (Obj.PART_STATE 0) ≠ psIdle ∧ s.mayWrite 1 (Obj.PART_COMMAND 0) 3 = true ∧
     s.anyEntry 0 = false ∧ { s with res := [(0, Rs.enable.set (0 : BitVec 256) 1)] }.anyEntry 0 = true ∧
     s.mayWrite 1 (Obj.PART_COMMAND 0) 4 = true) ∧
    generating0.jobs.any (fun kv => Job.state.get kv.2 == jsAccepted || Job.state.get kv.2 == jsTicking) = true := by decide +kernel

/-- The smallest Block: one slice of one cluster and one device, whose program is DONE; its image lies at 0x1000 and its payload at 0x1040.
Its offer is entry 0 of the Job Table at 0x8000_0000. -/
def offered (job : Nat) (g : Part → Part := id) : State :=
  let e := Job.sliceLimit.set (Job.blockBytes.set (Job.blockAddr.set (Job.job.set (0 : BitVec 1024) job) 0x1000) 0x200) 1
  let s := withRegs (tabled admin (g { part0 with built := some { res0 with clusters := 1, ports := 0 } }))
    [(Obj.JOB_TABLE_BASE 0, 0x80000000), (Obj.ALLOW_UNSIGNED 0, 1), (Obj.TICK_GRAINS 0, 5)]
  poke [(0x1014, 4, 0x40), (0x1018, 8, 0x1C0), (0x1040, 4, 0x4B434C42), (0x1044, 2, 1), (0x1046, 2, 1), (0x1048, 4, 5),
    (0x104C, 4, s.rg (Obj.CLOSE_GUARD_NS 0)), (0x1050, 4, 1), (0x105C, 1, 1), (0x1060, 1, 1), (0x1064, 1, 1), (0x1090, 8, 0x100),
    (0x1140, 8, 0x110), (0x1148, 8, 0x80), (0x1180, 8, 0x190), (0x1188, 8, 24), (0x11D0, 4, 1), (0x11E0, 8, 0x3F * 2 ^ 56),
    (0x80000000, 128, e.toNat)] { s with checks := [(0, 0, 1)] }

/-- The hypotheses of JOB_CHECK_DONE: an offer that every check passes, with and without a reason to defer it, and one that is refused. -/
theorem test_job_check :
    ((offered 7).checks.find? (fun c => c.1 == 0) = some (0, 0, 1) ∧ (offered 7).boot.milliner = true ∧
      Job.enable.get (((offered 7).pt 0).job 0) ≠ 1) ∧
    (((offered 7).at 9).jobCode (((offered 7).at 9).jobOffer 0 0 []) = 0 ∧ ((offered 7).at 9).defersJobs 0 = false) ∧
    (let u := withRegs (offered 7) [(Obj.DEV_STATE 0, devTraining)]
     u.jobCode (u.jobOffer 0 0 []) = 0 ∧ u.defersJobs 0 = true) ∧
    (offered 0).jobCode ((offered 0).jobOffer 0 0 []) = 0x10 := by decide +kernel

/-- The hypotheses of JobCommands. -/
theorem test_jobs :
    (let job := fun (st en : Nat) => tabled admin { part0 with jobs := [(0, Job.enable.set (Job.state.set (0 : BitVec 1024) st) en)] }
     (job 0 0).mayWrite 1 (Obj.JOB_COMMAND 0) 1 = true ∧ ((job 0 0).pt 0).built ≠ none ∧ Job.enable.get (((job 0 0).pt 0).job 0) ≠ 1 ∧
     Job.enable.get (((job 0 1).pt 0).job 0) = 1 ∧ (job 0 0).mayWrite 1 (Obj.JOB_COMMAND 0) 2 = true ∧ (job jsComplete 1).jobState 0 0 = jsComplete ∧
     (job jsTicking 1).jobState 0 0 = jsTicking ∧ (job 0 0).mayWrite 1 (Obj.JOB_COMMAND 0) 3 = true ∧ (job 0 0).win 1 (Obj.JOB_CANCEL_TICK 0) = 0 ∧
     (job jsStopped 1).jobState 0 0 = jsStopped ∧
     { job 0 0 with checks := [(0, 0, 1)] }.checks.find? (fun c => c.1 == 0) = some (0, 0, 1) ∧ (job 0 0).boot.milliner = true) := by
  decide +kernel

/-! ## Press copies, recovery, observation, firmware, supply -/

/-- A state whose Block has one symbol, which names Residency entry 3 of one row of `cols` words. -/
def symbolled (name : String) (cols row : Nat) (s : State) : State :=
  { poke [(0x1158, 8, 0x700), (0x1160, 4, 1), (0x1800, 4, 3), (0x1804, 4, name.length), (0x1808, name.length, leNat (nameBytes name)),
      (0x10000, 4 * cols, row)] s with
    res := [(3, Rs.cols.set (Rs.rows.set (Rs.format.set (Rs.class_.set (Rs.base.set (Rs.enable.set (0 : BitVec 256) 1) 1) classRecord) 0x12) 1)
      cols)] }

/-- The hypotheses of PressCommands. -/
theorem test_press :
    (let s := withPart part0
     s.mayWrite 1 (Obj.PRESS_STEP 0) 7 = true ∧ s.rg (Obj.RECOVERY_STATE 0) = rsNone ∧
     s.pressBound 0 ≤ s.rg (Obj.PRESS_TICKS 0) * s.rg (Obj.TICK_GRAINS 0) * 10 ∧
     (withRegs s [(Obj.STAGED_STEP 0, 2 ^ 64 - 1)]).rg (Obj.STAGED_STEP 0) = 2 ^ 64 - 1 ∧ s.rg (Obj.PRESS_STATE 0) ≠ 2 ∧
     ¬ (withRegs s [(Obj.RECOVERY_STATE 0, rsStopped)]).rg (Obj.RECOVERY_STATE 0) = rsNone) ∧
    (let x := { part0 with suspend := 2 }
     0 < x.suspend ∧ x.pressDone = false ∧ (withRegs (withPart x) [(Obj.PRESS_STATE 0, 2)]).rg (Obj.PRESS_STATE 0) = 2) ∧
    (let s := symbolled "$press.drain" 8 (100 * 2 ^ 96) (slicing [] id (fun x => { x with drain := some ⟨0, 7, 5⟩ }))
     (s.pt 0).slice = some slice0 ∧ ((s.drainPlan 0 (s.blockOf 0 slice0.job)).getD [])[0]? = some ⟨0, 0, 0, 100, 0, 0⟩ ∧
     (s.pt 0).drain = some ⟨0, 7, 5⟩ ∧ 4096 ≤ DrainRow.room ⟨0, 0, 0, 100, 0, 0⟩ ∧ 5 + 1 < s.genEnd 0 0 ∧ 5 ≤ s.genEnd 0 0 ∧ s.genEnd 0 0 ≤ 5 + 4096) ∧
    (let s := symbolled "$press.drain" 8 (2 ^ 256 - 2 ^ 32) (slicing [])
     (((s.drainPlan 0 (s.blockOf 0 slice0.job)).getD [])[0]?).any (fun w => w.slice == slice0.number && w.dir != 0) = true) := by
  decide +kernel

/-- A stopped job, with a recovery in some stage. -/
def recovering (st : Nat) (rc : Option Recover) : State :=
  withRegs (withPart { part0 with stopped := some 0, jobs := [(0, Job.job.set (Job.state.set (0 : BitVec 1024) jsStopped) 7)], recover := rc })
    [(Obj.RECOVERY_STATE 0, st), (Obj.MIRROR_OF 0, 1)]

/-- The hypotheses of RecoveryCommands. -/
theorem test_recovery :
    (let s := recovering rsStopped none
     s.mayWrite 1 (Obj.RECOVER_COMMAND 0) 1 = true ∧ (s.pt 0).stopped = some 0 ∧ s.rg (Obj.RECOVERY_STATE 0) = rsStopped ∧
     (s.pt 0).built ≠ none ∧ (∀ d, d < 48 → res0.devices.testBit d = true → s.rg (Obj.DEV_STATE d) ≠ devTraining) ∧
     s.mayWrite 1 (Obj.RECOVER_COMMAND 0) 3 = true) ∧
    (let rc : Recover := ⟨0, 3, 5, 0xFF, false, false, [], [], [], [], none⟩
     let s := recovering rsStopped (some rc)
     (s.pt 0).recover = some rc ∧ (s.pt 0).recoverJob = some 0 ∧ rc.active = false ∧ rc.tick ≤ (s.pt 0).gen.tick ∧ (s.pt 0).gen.begun = true) ∧
    (let rc : Recover := ⟨0, 3, 5, 0xFF, true, false, [], [], [], [], none⟩
     let s := recovering rsRecovering (some rc)
     rc.active = true ∧ s.rg (Obj.RECOVERY_STATE 0) = rsRecovering ∧ s.pairingOk 0 0 0 7 1 = true ∧ s.pairingOk 0 0 0 7 2 = false ∧
     rc.wanted = [] ∧ rc.resync = [] ∧ s.mayWrite 1 (Obj.RECOVER_COMMAND 0) 2 = true ∧
     (let t := withRegs (recovering rsReady (some rc)) [(Obj.RESUME_TICK 0, 20000)]
      t.rg (Obj.RECOVERY_STATE 0) = rsReady ∧ t.now + 1000000000 ≤ t.edgeOf 0 (t.rg (Obj.RESUME_TICK 0))) ∧
     s.rg (Obj.RECOVERY_STATE 0) ≠ rsReady ∧ s.boot.milliner = true ∧ ((s.at 9).verify 0 0 rc [] []).1 = 0 ∧
     ((s.at 9).verify 0 0 { rc with restored := [3], got := [(3, 1)] } [] []).1 ≠ 0) ∧
    ((withPart part0).mayWrite 1 (Obj.RECOVER_COMMAND 0) 3 = true ∧ ((withPart part0).pt 0).stopped = none) ∧
    (let x := { part0 with abandonAtEdge := true, stopped := some 0 }
     x.abandonAtEdge = true ∧ x.stopped = some 0) := by decide +kernel

/-- The hypotheses of SnapshotAndTraceCommands on snapshots and images. -/
theorem test_snapshots :
    (let s := withPart part0
     s.mayWrite 1 (Obj.COUNTER_COMMAND 0) 1 = true ∧ s.rg (Obj.SNAPSHOT_STATE 0) ≠ 1 ∧ (s.pt 0).built ≠ none ∧
     (withRegs s [(Obj.SNAPSHOT_STATE 0, 1)]).rg (Obj.SNAPSHOT_STATE 0) = 1) ∧
    (let x := { part0 with snapAt := some 103 }
     x.snapAt = some 103 ∧ 103 < x.gen.start + x.gen.len) ∧
    (let s := withRegs (symbolled "" 100000 0 (withPart { part0 with imgDue := some 4 })) [(Obj.COUNTER_ENTRY 0, 3)]
     (s.pt 0).imgDue = some 4 ∧ s.counterFits 0 (s.rg (Obj.COUNTER_ENTRY 0)) = true) := by decide +kernel

/-- A state that records a trace in a mode, with the buffer of cluster 0. -/
def tracing (mode : Nat) (b : TraceBuf) (x : Part) : State :=
  withRegs (withCluster (withPart x) { Cluster.empty with trace := b })
    [(Obj.TRACE_STATE 0, tsRecording), (Obj.TRACE_MODE 0, mode), (Obj.TRACE_CLUSTERS 0, 3), (Obj.SPILL_ENTRY 0, 3)]

/-- The hypotheses of SnapshotAndTraceCommands on traces. -/
theorem test_traces :
    (let s := tracing tmStop TraceBuf.empty part0
     s.mayWrite 1 (Obj.TRACE_COMMAND 0) 1 = true ∧ s.rg (Obj.TRACE_MODE 0) ≠ tmSpill ∧ s.mayWrite 1 (Obj.TRACE_COMMAND 0) 2 = true) ∧
    (let s := tracing tmTrigger TraceBuf.empty { part0 with trigger := some (0, 9) }
     (s.pt 0).trigger = some (0, 9) ∧ (s.pt 0).triggerDone = false ∧ s.rg (Obj.TRACE_STATE 0) = tsRecording ∧
     s.rg (Obj.TRIGGER_SCOPE 0) ≠ 1 ∧ (s.cl 0).trace.halted = false) ∧
    (let b : TraceBuf := { TraceBuf.empty with halted := true, trig := some 4 }
     let s := tracing tmTrigger b part0
     s.ownerOfCluster 0 = some 0 ∧ (s.cl 0).trace.halted = true ∧ (s.cl 0).trace.told = false ∧ s.rg (Obj.TRACE_MODE 0) = tmTrigger ∧
     (s.cl 0).trace.trig.isSome = true ∧ (tracing tmStop b part0).rg (Obj.TRACE_MODE 0) = tmStop) ∧
    (let s := symbolled "$trace.spill" 4 0 (poke [(0x1014, 4, 0x100)] (tracing tmSpill TraceBuf.empty { part0 with
       jobs := [(0, Job.blockAddr.set (0 : BitVec 1024) 0x1000)], cursor := some (0, 0) }))
     (s.windows 0 "$trace.spill")[0]? = some ⟨0, 0, 0⟩ ∧ s.rg (Obj.TRACE_MODE 0) = tmSpill ∧ (s.pt 0).gen.begun = true ∧
     s.spillFits 0 (s.rg (Obj.SPILL_ENTRY 0)) = true ∧ s.unitOf 0 0 = some 0) := by decide +kernel

/-- A state with a dump request in slot 0. -/
def dumping (d : Dump) : State :=
  symbolled "$dump" 4 0 (poke [(0x1014, 4, 0x100)] (withPart { part0 with
    jobs := [(0, Job.blockAddr.set (0 : BitVec 1024) 0x1000)], cursor := some (0, 0), dumps := [(0, d)] }))

/-- The hypotheses of DumpCommands. -/
theorem test_dumps :
    (let d : Dump := ⟨0, duArmed, 0, 0, [103], [], 0, false⟩
     let s := dumping d
     s.session 1 = some admin ∧ s.win 1 (Obj.DUMP_INDEX 0) = 0 ∧ s.mayWrite 1 (Obj.DUMP_COMMAND 0) 1 = true ∧ (s.dump 0 0).live = true ∧
     (s.dump 0 1).live = false ∧ s.mayWrite 1 (Obj.DUMP_COMMAND 0) 2 = true ∧ (s.dump 0 0).due = [103] ∧
     s.inSweep 0 (Du.tensor.get d.req) = false) ∧
    (let c : DumpCopy := ⟨0, 0, 0, 0, 0, 0, 0, 256, 0, 0, false⟩
     let ok := dumping ⟨Du.destIndex.set (Du.target.set (0 : BitVec 512) 1) 3, duCopying, 0, 0, [], [c], 0, false⟩
     let gone := dumping ⟨Du.target.set (0 : BitVec 512) 0, duCopying, 0, 0, [], [c], 0, false⟩
     (ok.windows 0 "$dump")[0]? = some ⟨0, 0, 0⟩ ∧ (ok.pt 0).gen.begun = true ∧ ok.unitOf 0 0 = some 0 ∧ ok.region c.from_ = some (.gddr 0) ∧
     ok.dumpTargetOk 0 (ok.dump 0 0).req = true ∧ Du.target.get (ok.dump 0 0).req ≠ 0 ∧ c.done + 64 < c.bytes ∧
     gone.dumpTargetOk 0 (gone.dump 0 0).req = false) ∧
    (dumping ⟨0, duArmed, 0, 1, [], [], 0, false⟩).dumpOver 0 0 = true := by decide +kernel

/-- The hypotheses of FirmwareCommands. -/
theorem test_firmware :
    (let s := alive
     s.session 1 = some admin ∧ s.mayWrite 1 Obj.FW_COMMAND 1 = true ∧ s.fwRun = none ∧ s.mayWrite 1 Obj.ACTIVATE_COMMAND 1 = true ∧
     s.actRun = none ∧ targetOf 0 = some (1, 0) ∧ targetOf 0x33 = some (4, 3) ∧ s.boot.copyOk.testBit (otherCopy (s.activeCopy 1 0)) = true ∧
     { s.boot with copyOk := 0 }.copyOk.testBit (otherCopy (s.activeCopy 1 0)) = false ∧ s.boot.milliner = true) ∧
    (let s := withRegs (withPart part0) [(Obj.PART_STATE 0, psActive)]
     0 ∈ s.partsIn 0 ∧ s.rg (Obj.PART_STATE 0) = psActive) ∧
    ({ alive with fwRun := some ⟨1, 0, []⟩ }.fwRun ≠ none ∧ { alive with actRun := some (0x33, 0) }.actRun = some (0x33, 0) ∧
      { alive.boot with svDue := some 9 }.svDue = some 9) := by decide +kernel

/-- A feed entry of 4 rows, and a LOAD from it. -/
def feed0 : BitVec 256 :=
  Rs.buffers.set (Rs.rows.set (Rs.cols.set (Rs.format.set (Rs.class_.set (Rs.base.set (Rs.enable.set (0 : BitVec 256) 1) 1) classRecord) 0x12)
    262144) 4) 1
def load0 : RefLoad := ⟨2, 3, 5, 0, 0, [], true, 0, 1⟩

/-- The hypotheses of ReferenceStoreCommands: a LOAD that may start and one that is barred, an erase, the stages of a LOAD. -/
theorem test_refstore :
    (let s := { alive with res := [(0, feed0)] }
     s.session 1 = some admin ∧ s.win 1 Obj.REF_SLOT < 16 ∧ s.mayWrite 1 Obj.REF_COMMAND 1 = true ∧ s.rg (Obj.SLOT_STATE 0) = 0 ∧
     s.refLoad = none ∧ s.refErase = none ∧ feedLayout (s.resE 0) = true ∧ s.actsFor 1 0 = true ∧ s.mayWrite 1 Obj.REF_COMMAND 3 = true ∧
     (withRegs s [(Obj.SLOT_STATE 0, 2)]).rg (Obj.SLOT_STATE 0) ≠ 0 ∧ s.refUsed 0 0 = false ∧ s.refUsed 0 gib = true) ∧
    (let s := { alive with res := [(3, feed0)], refLoad := some load0, refErase := none }
     s.refLoad = some load0 ∧ load0.slot < 16 ∧ s.mayWrite 1 Obj.REF_COMMAND 2 = true ∧ load0.since + 60 * 10 ^ 9 ≤ 60000000000 ∧
     s.boot.milliner = true ∧ feedLayout (s.resE load0.feed) = true ∧ load0.next * rowData < load0.bytes ∧ s.feedChunk 3 0 = load0.next ∧
     s.memLE (s.feedRow 3 0 + rowData + 8) 4 < Nat.min rowData load0.bytes ∧ load0.ready = true ∧
     (let late := poke [(ResEntry.slotAddr feed0 1 + rowData, 8, 4)] s
      load0.next < late.feedChunk 3 0 ∧ load0.next + Rs.rows.get (late.resE 3) ≤ late.feedChunk 3 0)) ∧
    ({ load0 with bytes := 0 }.bytes ≤ load0.next * rowData) ∧ { alive with refErase := some 15 }.refErase = some 15 := by decide +kernel

/-- The hypotheses of REF_CHUNK on a chunk that is not short: no segment ends in it, and the only segment of the image ends in it and
differs from its entry in the table. -/
theorem test_ref_chunk :
    (let s := poke [(ResEntry.slotAddr feed0 1 + rowData + 8, 4, 5)] { alive with res := [(3, feed0)] }
     s.feedChunk 3 0 = 0 ∧ 5 ≤ s.memLE (s.feedRow 3 0 + rowData + 8) 4 ∧
     segmentsBad (((s.at 9).programRef 0 (s.memBytes (s.feedRow 3 0) 5)).imageAt 0) 0 5 = false) ∧
    (let l := { load0 with next := 1, bytes := rowData + 5 }
     let s := poke [(0xC, 4, 2 ^ 20), (0x10, 4, 1), (0x14, 4, rowData + 1), (0x18, 8, 4), (ResEntry.slotAddr feed0 1 + 1048576 + rowData, 8, 1),
       (ResEntry.slotAddr feed0 1 + 1048576 + rowData + 8, 4, 5)] { alive with res := [(3, feed0)] }
     l.next * rowData < l.bytes ∧ s.feedChunk 3 1 = l.next ∧ 5 ≤ s.memLE (s.feedRow 3 1 + rowData + 8) 4 ∧ l.ready = true ∧
     segmentsBad (((s.at 9).programRef rowData (s.memBytes (s.feedRow 3 1) 5)).imageAt 0) rowData (rowData + 5) = true) := by decide +kernel
theorem test_ref_find : 0 ≤ Config.refstoreBytes ∧ (alive.refFind 0).isSome = true := by
  have h : alive.refRanges = [] := by decide +kernel
  simp [State.refFind, h]

/-- The hypotheses of PowerAndBootCommands. -/
theorem test_power :
    (let s := State.reset
     s.power.vin = false ∧ 48000 ≤ 48000 ∧ 48000 ≤ 58000 ∧ s.power.good = false ∧ s.power.seq = none) ∧
    (let times := [1, 2, 3, 4, 5, 6, 7, 8]
     railsMet times railLimits 0 = 8 ∧ railsMet [10 ^ 12] railLimits 0 ≠ 8 ∧ { Power.off with vin := true, armed := true }.armed = true) ∧
    ({ Power.off with seq := some (0, 3) }.seq = some (0, 3) ∧ 0 + railLimits.getD 3 0 ≤ 10 ^ 12) ∧
    (let s := { State.reset with power := ⟨true, true, false, none, true, 0, false⟩ }
     s.power.good = true ∧ s.power.rst = true ∧ s.power.up = false ∧ s.power.goodAt + 10000000 ≤ 10000000 ∧
     s.copyPasses 3 0 = false ∧ s.copyPasses 3 1 = false) ∧
    (let b : Boot := { Boot.factory with romRecovery := true, romBytes := [1] }
     b.romRecovery = true ∧ 8 ≤ (leBytes 8 1).length ∧ leNat ((leBytes 8 1).take 8) = b.romBytes.length ∧
     b.romBytes.length + ((leBytes 8 1).length - 8) ≤ fwLimit ∧ 0 < b.romBytes.length) ∧
    (alive.power.up = true ∧ alive.boot.milliner = true ∧ alive.rg Obj.GDDR7_PRESENT = 0 ∧ alive.power.vin = true) ∧
    (bitsOf 6 4).filter (· ≠ 0) = [2] := by decide +kernel

/-- The hypotheses of PowerAndBootCommands on a copy that passes. -/
theorem test_copy_passes : State.reset.copyPasses 0 0 = true ∧ State.reset.copyPasses 1 1 = true ∧ State.reset.copyPasses 1 0 = false ∧
    SMap.get? State.reset.mram.regs Obj.MODULE_STATE = none ∧ SMap.get? State.reset.mram.regs Obj.BOOT_COPY = none := by
  decide +kernel

/-- The beginning of an image of one segment and one payload byte at 64 KiB. -/
def romHead : List Byte :=
  leBytes 4 0x4F454C50 ++ leBytes 2 1 ++ leBytes 2 1 ++ leBytes 4 0 ++ leBytes 4 (2 ^ 20) ++ leBytes 4 1 ++ leBytes 4 65536 ++ leBytes 8 1
    ++ [0x42, 0x4C, 0x34, 0x38]

/-- The hypotheses of PowerAndBootCommands on a datagram that completes a well-formed image. -/
theorem test_rom_image :
    let sent := romHead ++ List.replicate 65000 0
    let data := leBytes 8 sent.length ++ List.replicate 501 0
    data.length = 509 ∧ leNat (data.take 8) = sent.length ∧ sent.length + (data.length - 8) ≤ fwLimit ∧
    4096 ≤ (sent ++ data.drop 8).length ∧ pyFormatOk (listImage (sent ++ data.drop 8)) = true ∧
    pyBytes (listImage (sent ++ data.drop 8)) ≤ (sent ++ data.drop 8).length := by
  have h : (romHead ++ List.replicate 65000 (0 : Byte)).length = 65036 := by
    rw [List.length_append, List.length_replicate]; decide
  simp only [h]
  refine ⟨by decide +kernel, by decide +kernel, by decide +kernel, ?_, by decide +kernel, ?_⟩
  · rw [List.length_append, h]; omega
  · rw [List.length_append, h]; decide +kernel

/-- The hypotheses of ThrottleCommands. -/
theorem test_throttles :
    (let s := alive
     s.power.up = true ∧ s.rg Obj.POWER_LIMIT_W * (10000 :: s.throttle.samples).length < (10000 :: s.throttle.samples).sum ∧
     s.throttle.powerN = 0 ∧ SMap.getD 0 s.throttle.thermalN 0 = 0 ∧ (95 : Int) ≤ 95 ∧ (s.rg Obj.THROTTLE_C : Int) ≤ 200 ∧
     s.throttle.inletTold = false ∧ inletLimit 0 < 200) ∧
    (let t : Throttle := ⟨[], some 0, 1, 0, [(0, 1)], [], none, none, false⟩
     ([0].sum < (alive.rg Obj.POWER_LIMIT_W - 50) * [0].length) ∧ t.powerN ≠ 0 ∧ t.lowFrom = some 0 ∧ 0 + 10 ^ 8 ≤ Nat.max 0 (10 ^ 8) ∧
     ({ alive with throttle := { t with samples := [10000] } } : State).powerOver = true ∧ 0 < t.powerN ∧ t.powerN < 4 ∧ t.powerStep + 10000000 ≤ 10000000 ∧ SMap.getD 0 t.thermalN 0 ≠ 0 ∧ SMap.getD 0 t.thermalN 0 < 4 ∧
     SMap.getD 0 t.thermalStep 0 + 10000000 ≤ 10000000) := by decide +kernel

/-! ## The block as a whole, and frames -/

/-- The hypotheses of StepKeepsMemoryCanonical and CommandsLeaveTheQueue: a canonical state that lists a byte, with a command in front. -/
theorem test_step_canonical :
    let s : State := { alive with mem := [(5, 7)], pending := [.portUp 0 3] }
    s.Canonical ∧ (∃ t, step s = .next t ∧ t.mem = [(5, 7)] ∧ t.pending = []) :=
  ⟨by decide +kernel, _, rfl, by decide +kernel, by decide +kernel⟩

/-- Whether a command is answered with a next state. -/
def completes (i : Instr) (s : State) : Bool := match exec i s with
  | .next _ => true
  | _ => false

/-- The hypotheses of the frames: a command of each kind that a frame names answers a next state. -/
theorem test_frames :
    completes (.tickEdge 0) running0 = true ∧ completes (.preload 0 2 false) (arrayState [arrOp preload0] []) = true ∧
    completes (.scale 0) (napState [] none) = true ∧ completes (.burst 0 0 .none) (slicing [(1, 32, (burst0 0).toNat)]) = true ∧
    completes (.portUp 0 3) alive = true ∧ completes (.cnp ⟨0x100, true⟩) (linked alive) = true ∧ completes (.resEnable 1) (tabled admin part0) = true ∧
    completes (.partStop 1 0) running0 = true ∧ completes (.abandon 1 0) (recovering rsStopped none) = true ∧
    completes (.traceStop 1 0) running0 = true ∧ completes (.refAbort 1) alive = true ∧ completes (.attestNonce 1 []) alive = true ∧
    completes (.powerSample 0 1) alive = true ∧ completes (.vinApplied 0 48000 true) State.reset = true ∧
    completes (.closeGuardNsWrite 1 0 500) running0 = true ∧ completes (.cxlLost 0) alive = true ∧ completes (.open_ wfRequest) alive = true := by
  decide +kernel

/-- The hypothesis of MxInt8Codes: a block with one code in it, the largest. -/
theorem test_mxint8 : 127 ∈ (quantizeBlock 0x05 0 [XVal.ofInt 127, XVal.zero] [.rne, .rne]).2.1 := by decide +kernel

end Sys2Proof.Tests
end

/-! ## What a crown instruction leaves alone

One relation says what an instruction may touch, `CrownKeeps`; it is reflexive and transitive, each update of the state that the crown
cores use has one rule for it, and each instruction composes the rules of its updates. -/

namespace Sys2Proof.Machine
open Sys2Proof

/-! ### The relation -/

/-- The state without the parts that crown instructions work on: the instant, the register objects, the counters, the clusters and the
partitions. -/
def State.beyondCores (s : State) : State :=
  { s with now := 0, regs := [], open_ := [], clusters := Vector.replicate 48 Cluster.empty, parts := Vector.replicate 12 Part.empty }

/-- What the crown instruction `i` of cluster `c` keeps of its own cluster. -/
structure ClusterKeeps (c : ClusterId) (i : Instr) (x y : Cluster) : Prop where
  reg : ∀ r, crownRd i ≠ some r → y.crown.reg r = x.crown.reg r
  batt : (∀ rs1 rs2 imm, i ≠ .st c rs1 rs2 imm) → y.batt = x.batt ∧ y.cap = x.cap
  arrays : (∀ arr dis tag rs1 imm, i ≠ .issa c arr dis tag rs1 imm) → y.arrays = x.arrays ∧ y.tiles = x.tiles
  napT : y.nap.t = x.nap.t
  napB : y.nap.b = x.nap.b
  napZ : y.nap.z = x.nap.z
  queue : (∀ rs1 imm, i ≠ .issn c rs1 imm) → y.nap.queue = x.nap.queue
  run : (∀ rs1 rs2 imm, i ≠ .st c rs1 rs2 imm) → (∀ arr dis tag rs1 imm, i ≠ .issa c arr dis tag rs1 imm) → y.nap.run = x.nap.run

/-- What the crown instruction `i` of cluster `c` of partition `p` keeps of the state. -/
structure CrownKeeps (p : PartId) (c : ClusterId) (i : Instr) (s t : State) : Prop where
  beyond : t.beyondCores = s.beyondCores
  objects : ∀ k, k ≠ Obj.TRACE_GAPS p → k ≠ Obj.TRIGGER_TICK p → t.rg k = s.rg k
  parts : ∀ q : Nat, q ≠ p → t.pt q = s.pt q
  built : (t.pt p).built = (s.pt p).built
  clusters : ∀ d : Nat, d ≠ c → t.cl d = s.cl d
  own : ClusterKeeps c i (s.cl c) (t.cl c)

section
variable {p : PartId} {c : ClusterId} {i : Instr}

theorem ClusterKeeps.refl (x : Cluster) : ClusterKeeps c i x x :=
  ⟨fun _ _ => rfl, fun _ => ⟨rfl, rfl⟩, fun _ => ⟨rfl, rfl⟩, rfl, rfl, rfl, fun _ => rfl, fun _ _ => rfl⟩

theorem clusterKeeps_trace (x : Cluster) (b : TraceBuf) : ClusterKeeps c i x { x with trace := b } :=
  { ClusterKeeps.refl x with reg := fun _ _ => rfl }

theorem ClusterKeeps.trans {x y z : Cluster} (h : ClusterKeeps c i x y) (h' : ClusterKeeps c i y z) : ClusterKeeps c i x z where
  reg r hr := (h'.reg r hr).trans (h.reg r hr)
  batt hi := ⟨(h'.batt hi).1.trans (h.batt hi).1, (h'.batt hi).2.trans (h.batt hi).2⟩
  arrays hi := ⟨(h'.arrays hi).1.trans (h.arrays hi).1, (h'.arrays hi).2.trans (h.arrays hi).2⟩
  napT := h'.napT.trans h.napT
  napB := h'.napB.trans h.napB
  napZ := h'.napZ.trans h.napZ
  queue hi := (h'.queue hi).trans (h.queue hi)
  run hi hi' := (h'.run hi hi').trans (h.run hi hi')

theorem CrownKeeps.refl (s : State) : CrownKeeps p c i s s :=
  ⟨rfl, fun _ _ _ => rfl, fun _ _ => rfl, rfl, fun _ _ => rfl, .refl _⟩

theorem CrownKeeps.trans {s t u : State} (h : CrownKeeps p c i s t) (h' : CrownKeeps p c i t u) : CrownKeeps p c i s u where
  beyond := h'.beyond.trans h.beyond
  objects k hg ht := (h'.objects k hg ht).trans (h.objects k hg ht)
  parts q hq := (h'.parts q hq).trans (h.parts q hq)
  built := h'.built.trans h.built
  clusters d hd := (h'.clusters d hd).trans (h.clusters d hd)
  own := h.own.trans h'.own

/-- The partition that owns a cluster depends on what every partition was built with alone. -/
theorem CrownKeeps.ownerOfCluster {s t : State} (h : CrownKeeps p c i s t) (d : Nat) : t.ownerOfCluster d = s.ownerOfCluster d := by
  have built : ∀ q : Nat, (t.pt q).built = (s.pt q).built := fun q => by
    by_cases hq : q = p
    · rw [hq, h.built]
    · rw [h.parts q hq]
  simp only [State.ownerOfCluster, State.ownerBy, built]

/-! ### One rule for each update of the state -/

variable (s : State)

theorem crownKeeps_at (n : Nat) : CrownKeeps p c i s (s.at n) :=
  ⟨rfl, fun _ _ _ => rfl, fun _ _ => rfl, rfl, fun _ _ => rfl, .refl _⟩

theorem crownKeeps_count (q kind num w n : Nat) : CrownKeeps p c i s (s.count q kind num w n) :=
  ⟨rfl, fun _ _ _ => rfl, fun _ _ => rfl, rfl, fun _ _ => rfl, .refl _⟩

theorem crownKeeps_setRg {k : Nat} (v : Nat) (h : k = Obj.TRACE_GAPS p ∨ k = Obj.TRIGGER_TICK p) :
    CrownKeeps p c i s (s.setRg k v) where
  beyond := rfl
  objects j hg ht := s.rg_setRg_ne v (fun e => h.elim (fun hk => hg (e.trans hk)) (fun hk => ht (e.trans hk)))
  parts q _ := s.pt_setRg k v q
  built := by rw [State.pt_setRg]
  clusters d _ := s.cl_setRg k v d
  own := by rw [State.cl_setRg]; exact .refl _

theorem crownKeeps_modPt {f : Part → Part} (h : (f (s.pt p)).built = (s.pt p).built) : CrownKeeps p c i s (s.modPt p f) where
  beyond := rfl
  objects _ _ _ := rfl
  parts _ hq := s.pt_modPt_ne hq f
  built := by rw [State.pt_modPt_fin, h]
  clusters _ _ := rfl
  own := .refl _

theorem crownKeeps_modCl {f : Cluster → Cluster} (h : ClusterKeeps c i (s.cl c) (f (s.cl c))) : CrownKeeps p c i s (s.modCl c f) where
  beyond := rfl
  objects _ _ _ := rfl
  parts _ _ := rfl
  built := rfl
  clusters _ hd := s.cl_modCl_ne hd f
  own := by rw [State.cl_modCl_fin]; exact h

theorem crownKeeps_modCrown {f : Crown → Crown}
    (h : ∀ r, crownRd i ≠ some r → (f (s.cl c).crown).reg r = (s.cl c).crown.reg r) : CrownKeeps p c i s (s.modCrown c f) :=
  crownKeeps_modCl s { ClusterKeeps.refl (s.cl c) with reg := h }

/-! ### Trace, lateness and counters -/

theorem crownKeeps_trace (ty info cycle payload : Nat) : CrownKeeps p c i s (s.trace p c ty info cycle payload) := by
  unfold State.trace
  split
  · dsimp only
    exact (crownKeeps_modCl s (clusterKeeps_trace _ _)).trans (crownKeeps_setRg _ _ (.inl rfl))
  · exact .refl s

theorem crownKeeps_traceFire (kind cycle : Nat) (cond : Bool) : CrownKeeps p c i s (s.traceFire p c kind cycle cond) := by
  unfold State.traceFire
  split
  · exact (crownKeeps_modPt s rfl).trans (crownKeeps_setRg _ _ (.inr rfl))
  · exact .refl s

theorem crownKeeps_late (b : Nat) : CrownKeeps p c i s (s.late p b) := crownKeeps_modPt s rfl

theorem crownKeeps_fails (b : Nat) : CrownKeeps p c i s (s.fails p b) := crownKeeps_modPt s rfl

theorem crownKeeps_lateCluster (cycle : Nat) : CrownKeeps p c i s (s.lateCluster p c cycle) := by
  have fired := (crownKeeps_late (p := p) (c := c) (i := i) s c).trans (crownKeeps_traceFire _ 3 cycle true)
  unfold State.lateCluster
  dsimp only
  split
  · split
    · exact crownKeeps_late s c
    · exact fired
  · exact crownKeeps_late s c

theorem crownKeeps_countC (d kind num w n : Nat) : CrownKeeps p c i s (s.countC d kind num w n) := by
  unfold State.countC
  split
  · exact crownKeeps_count s ..
  · exact .refl s

theorem crownKeeps_lateC (ho : s.ownerOfCluster c = some p.val) : CrownKeeps p c i s (s.lateC c) := by
  unfold State.lateC
  rw [ho]
  exact crownKeeps_late s c

/-- A summary is named, in order or while an operation that writes it is pending (R201). -/
theorem crownKeeps_summaryNamed (pending : Bool) : CrownKeeps p c i s (if pending then s.summaryOrder p c else s) := by
  split
  · exact (crownKeeps_count s ..).trans (crownKeeps_lateCluster ..)
  · exact .refl s

theorem crownKeeps_joinOverrun : CrownKeeps p c i s (s.joinOverrun p c) :=
  ((crownKeeps_count s ..).trans (crownKeeps_trace ..)).trans (crownKeeps_lateCluster ..)

/-! ### Retirement, stalls and stops -/

theorem crownKeeps_coreStop (parity : Bool) : CrownKeeps p c i s (s.coreStop p c parity) := by
  have halted : CrownKeeps p c i s (s.modCrown c (fun x => { x with mode := .stopped })) := crownKeeps_modCrown s (fun _ _ => rfl)
  have stopped := halted.trans (crownKeeps_lateCluster _ (s.cl c).crown.cycle)
  unfold State.coreStop
  dsimp only
  split
  · exact stopped.trans ((crownKeeps_count _ ..).trans (crownKeeps_fails ..))
  · exact stopped

theorem crownKeeps_coreRetire (k next : Nat) {f : Crown → Crown}
    (h : ∀ r, crownRd i ≠ some r → (f (s.cl c).crown).reg r = (s.cl c).crown.reg r) :
    CrownKeeps p c i s (s.coreRetire p c k next f) := by
  have retired : CrownKeeps p c i s (s.modCrown c (fun x => { (f x).retire k next with
      lastRetire := (s.pt p).edgeNs + cycleNs ((s.cl c).crown.cycle + k - 1) })) := crownKeeps_modCrown s h
  have counted := retired.trans ((crownKeeps_count _ p 2 c wBusy k).trans (crownKeeps_count _ p 2 c (wEvent 0) 1))
  exact counted.trans (((crownKeeps_trace ..).trans (crownKeeps_traceFire ..)).trans (crownKeeps_at ..))

/-- Retirement of an instruction that writes no register. -/
theorem crownKeeps_coreRetire_id (k next : Nat) : CrownKeeps p c i s (s.coreRetire p c k next id) :=
  crownKeeps_coreRetire s k next (fun _ _ => rfl)

/-- Retirement of an instruction that writes its RD. -/
theorem crownKeeps_coreRetire_setReg (k next : Nat) {rd : RegId} (hrd : crownRd i = some rd) (v : Crown → Word) :
    CrownKeeps p c i s (s.coreRetire p c k next (fun cr => cr.setReg rd (v cr))) :=
  crownKeeps_coreRetire s k next (fun _ hr => Crown.reg_setReg_ne _ _ (fun e => hr (e ▸ hrd)))

theorem crownKeeps_coreStall (reason n : Nat) : CrownKeeps p c i s (s.coreStall p c reason n) := by
  have arrays : ∀ (l : List Nat) (g : State → Nat → Nat) (t : State),
      CrownKeeps p c i t (l.foldl (fun t a => t.count p 0 (16 * c + a) (wStall reason) (g t a)) t) := by
    intro l g
    induction l with
    | nil => exact CrownKeeps.refl
    | cons a l ih => exact fun t => (crownKeeps_count t ..).trans (ih _)
  unfold State.coreStall
  split
  · exact .refl s
  · refine .trans ?_ (crownKeeps_modCrown _ (fun _ _ => rfl))
    refine .trans (.trans ?_ (crownKeeps_trace ..)) (crownKeeps_traceFire ..)
    exact (crownKeeps_count s ..).trans (arrays ..)

theorem crownKeeps_coreWait : CrownKeeps p c i s (s.coreWait c) := crownKeeps_modCrown s (fun _ _ => rfl)

theorem crownKeeps_coreGuarded : CrownKeeps p c i s (s.coreGuarded p c) :=
  (crownKeeps_lateCluster s _).trans (crownKeeps_coreWait _)

/-! ### The frame of the instructions -/

/-- A crown instruction keeps what its effect keeps: where the core is not at it nothing changes, and a parity error stops the core. -/
theorem crownKeeps_crownExec {s t : State} {j : Instr} {eff : Nat → State → State} (ho : s.ownerOfCluster c = some p.val)
    (heff : CrownKeeps p c i s (eff p s)) (h : crownExec c j s eff = .next t) : CrownKeeps p c i s t := by
  unfold crownExec at h
  rw [ho] at h
  obtain ⟨-, rfl⟩ | ⟨-, rfl⟩ := takes_cases _ _ _ _ h
  · split
    · exact crownKeeps_coreStop s true
    · exact heff
  · exact .refl t

theorem crownKeeps_crownAlu {s t : State} {j : Instr} {k : Nat} {rd : RegId} {v : Crown → Word}
    (ho : s.ownerOfCluster c = some p.val) (hrd : crownRd i = some rd) (h : crownAlu c j k rd v s = .next t) : CrownKeeps p c i s t :=
  crownKeeps_crownExec ho (crownKeeps_coreRetire_setReg s k _ hrd v) h

end

/-! ### Batt memory: LD, ST and LDZ -/

section
variable {p : PartId} {c : ClusterId} {s t : State}

theorem crownKeeps_execLd {rd rs1 : RegId} {imm : BitVec 32} (ho : s.ownerOfCluster c = some p.val)
    (h : execLd c rd rs1 imm s = .next t) : CrownKeeps p c (.ld c rd rs1 imm) s t := by
  refine crownKeeps_crownExec ho ?_ h
  dsimp only
  split
  · exact crownKeeps_coreStop s false
  · split
    · exact crownKeeps_coreStop s true
    · exact crownKeeps_coreRetire_setReg s 4 _ rfl _

theorem crownKeeps_execLdz {rd : RegId} {z : BitVec 4} (ho : s.ownerOfCluster c = some p.val)
    (h : execLdz c rd z s = .next t) : CrownKeeps p c (.ldz c rd z) s t :=
  crownKeeps_crownExec ho (.trans (crownKeeps_summaryNamed s _) (crownKeeps_coreRetire_setReg _ 1 _ rfl _)) h

/-- A refetch of a RUN's image changes the running operation alone. -/
theorem Cluster.refetch_eq (x : Cluster) (cy : Nat) : ∃ r, x.refetch cy = { x with nap := { x.nap with run := r } } := by
  unfold Cluster.refetch
  split
  · exact ⟨_, rfl⟩
  · dsimp only
    split
    · exact ⟨_, rfl⟩
    · exact ⟨_, rfl⟩

/-- The core's own batt write, with the bytes that collide, is an effect of ST. -/
theorem crownKeeps_battPut (s : State) (rs1 rs2 : RegId) (imm : BitVec 32) (cy a : Nat) (bs : List (Byte × Bool)) :
    CrownKeeps p c (.st c rs1 rs2 imm) s (s.battPut p c cy .crown a bs) := by
  have own : ClusterKeeps c (.st c rs1 rs2 imm) (s.cl c)
      (((s.cl c).settleWrite ((s.cl c).battWrite a bs) cy .crown [(a, bs.length)]).1.refetch cy) := by
    obtain ⟨w, hw⟩ := (s.cl c).settleWrite_crown ((s.cl c).battWrite a bs) cy [(a, bs.length)]
    obtain ⟨r, hr⟩ := Cluster.refetch_eq { (s.cl c).battWrite a bs with writes := w } cy
    rw [hw, hr]
    exact ⟨fun _ _ => rfl, fun hi => absurd rfl (hi rs1 rs2 imm), fun _ => ⟨rfl, rfl⟩, rfl, rfl, rfl, fun _ => rfl,
      fun hi => absurd rfl (hi rs1 rs2 imm)⟩
  unfold State.battPut State.battWrites
  dsimp only
  split
  · exact crownKeeps_modCl s own
  · exact (crownKeeps_modCl s own).trans (crownKeeps_count ..)

theorem crownKeeps_execSt {rs1 rs2 : RegId} {imm : BitVec 32} (ho : s.ownerOfCluster c = some p.val)
    (h : execSt c rs1 rs2 imm s = .next t) : CrownKeeps p c (.st c rs1 rs2 imm) s t := by
  refine crownKeeps_crownExec ho ?_ h
  dsimp only
  split
  · exact crownKeeps_coreStop s false
  · exact (crownKeeps_battPut s ..).trans (crownKeeps_coreRetire_id ..)

/-! ### Issue: ISSA and ISSN -/

/-- An update of one array and its tiles, with what the running RUN keeps of them, is an effect of ISSA. -/
theorem clusterKeeps_issa {x y : Cluster} (arr : BitVec 4) (dis : Bool) (tag : BitVec 7) (rs1 : RegId) (imm : BitVec 32)
    (as : Vector ArrState 16) (ts : SMap Tile) (r : Option NapRun)
    (h : y = { x with arrays := as, tiles := ts, nap := { x.nap with run := r } }) :
    ClusterKeeps c (.issa c arr dis tag rs1 imm) x y := by
  subst h
  exact ⟨fun _ _ => rfl, fun _ => ⟨rfl, rfl⟩, fun hi => absurd rfl (hi arr dis tag rs1 imm), rfl, rfl, rfl, fun _ => rfl,
    fun _ hi => absurd rfl (hi arr dis tag rs1 imm)⟩

/-- A conflict of ownership that an issue meets touches the cluster's tile, its array's counter and the slice's lateness. -/
theorem crownKeeps_tileConflict {s : State} {arr : BitVec 4} {dis : Bool} {tag : BitVec 7} {rs1 : RegId} {imm : BitVec 32} (n cycle : Nat)
    (ho : s.ownerOfCluster c = some p.val) : CrownKeeps p c (.issa c arr dis tag rs1 imm) s (s.tileConflict c n cycle) := by
  have marked : CrownKeeps p c (.issa c arr dis tag rs1 imm) s
      ((s.modCl c (fun cl => cl.retile n cycle { cl.tile n with conflict := true, poison := true })).countC c 0 (16 * c + n / 64)
        (wEvent 3) 1) :=
    (crownKeeps_modCl s (clusterKeeps_issa _ _ _ _ _ _ _ _ rfl)).trans (crownKeeps_countC ..)
  exact marked.trans (crownKeeps_lateC _ ((marked.ownerOfCluster c).trans ho))

theorem crownKeeps_execIssa {arr : BitVec 4} {dis : Bool} {tag : BitVec 7} {rs1 : RegId} {imm : BitVec 32}
    (ho : s.ownerOfCluster c = some p.val) (h : execIssa c arr dis tag rs1 imm s = .next t) :
    CrownKeeps p c (.issa c arr dis tag rs1 imm) s t := by
  refine crownKeeps_crownExec ho ?_ h
  dsimp only
  split
  · exact crownKeeps_coreStop s false
  split
  · exact crownKeeps_coreWait s
  split
  · exact crownKeeps_coreGuarded s
  refine .trans (.trans ?_ (crownKeeps_trace ..)) (crownKeeps_coreRetire_id ..)
  have queued : ∀ (n : Nat) (f : ArrState → ArrState), CrownKeeps p c (.issa c arr dis tag rs1 imm) s
      ((s.coreStall p c 5 n).modCl c (fun cl => cl.modArr arr.toNat f)) := fun n f =>
    (crownKeeps_coreStall s 5 n).trans (crownKeeps_modCl _ (clusterKeeps_issa _ _ _ _ _ _ _ _ rfl))
  split
  · split
    · exact (queued _ _).trans (crownKeeps_tileConflict _ _ (((queued _ _).ownerOfCluster c).trans ho))
    · exact queued _ _
  · exact queued _ _

theorem crownKeeps_execIssn {rs1 : RegId} {imm : BitVec 32} (ho : s.ownerOfCluster c = some p.val)
    (h : execIssn c rs1 imm s = .next t) : CrownKeeps p c (.issn c rs1 imm) s t := by
  refine crownKeeps_crownExec ho ?_ h
  dsimp only
  split
  · exact crownKeeps_coreStop s false
  split
  · exact crownKeeps_coreWait s
  split
  · exact crownKeeps_coreGuarded s
  refine .trans (.trans (.trans (crownKeeps_coreStall s 5 _) (crownKeeps_modCl _ ?_)) (crownKeeps_trace ..)) (crownKeeps_coreRetire_id ..)
  exact { ClusterKeeps.refl _ with queue := fun hi => absurd rfl (hi rs1 imm) }

/-! ### Waits, branch points and the end -/

theorem crownKeeps_execWait {cls : BitVec 3} {count : BitVec 16} {first : BitVec 32} (ho : s.ownerOfCluster c = some p.val)
    (h : execWait c cls count first s = .next t) : CrownKeeps p c (.wait c cls count first) s t := by
  refine crownKeeps_crownExec ho ?_ h
  dsimp only
  split
  · exact crownKeeps_coreWait s
  · split
    · exact crownKeeps_coreWait s
    · exact (crownKeeps_coreStall s ..).trans (crownKeeps_coreRetire_id ..)

theorem crownKeeps_execUntil {imm : BitVec 32} (ho : s.ownerOfCluster c = some p.val)
    (h : execUntil c imm s = .next t) : CrownKeeps p c (.until_ c imm) s t := by
  refine crownKeeps_crownExec ho ?_ h
  split
  · exact crownKeeps_coreRetire_id s ..
  · exact crownKeeps_modCrown s (fun _ _ => rfl)

theorem crownKeeps_execBranch {z : BitVec 4} {flag : Bool} {b : BitVec 6} {alts : BitVec 2} {join : BitVec 32}
    (ho : s.ownerOfCluster c = some p.val) (h : execBranch c z flag b alts join s = .next t) :
    CrownKeeps p c (.branch c z flag b alts join) s t := by
  refine crownKeeps_crownExec ho ?_ h
  extract_lets
  split
  · exact crownKeeps_coreStop s true
  refine .trans (.trans (.trans ?_ (crownKeeps_trace ..)) (crownKeeps_traceFire ..)) (crownKeeps_coreRetire_id ..)
  refine .trans (.trans (crownKeeps_summaryNamed s _) (crownKeeps_modCrown _ ?_)) (crownKeeps_count ..)
  exact fun _ _ => rfl

theorem crownKeeps_execEnda (ho : s.ownerOfCluster c = some p.val) (h : execEnda c s = .next t) :
    CrownKeeps p c (.enda c) s t := by
  refine crownKeeps_crownExec ho ?_ h
  dsimp only
  split
  · exact crownKeeps_coreRetire_id s ..
  · split
    · refine .trans (crownKeeps_coreRetire s 1 _ ?_) (crownKeeps_modCrown _ ?_) <;> exact fun _ _ => rfl
    · refine .trans ?_ (crownKeeps_coreRetire _ 1 _ (fun _ _ => rfl))
      split
      · exact .refl s
      · exact crownKeeps_joinOverrun s

theorem crownKeeps_execLoop {body : BitVec 16} {count : BitVec 32} (ho : s.ownerOfCluster c = some p.val)
    (h : execLoop c body count s = .next t) : CrownKeeps p c (.loop c body count) s t := by
  refine crownKeeps_crownExec ho (crownKeeps_coreRetire s 1 _ ?_) h
  exact fun _ _ => rfl

theorem crownKeeps_execDone (ho : s.ownerOfCluster c = some p.val) (h : execDone c s = .next t) :
    CrownKeeps p c (.done c) s t := by
  refine crownKeeps_crownExec ho ?_ h
  dsimp only
  refine .trans (.trans (crownKeeps_coreRetire_id s ..) (crownKeeps_modCrown _ ?_)) (crownKeeps_trace ..)
  exact fun _ _ => rfl

/-! ### All crown instructions -/

theorem crownKeeps_exec {i : Instr} (hc : crownCluster i = some c) (ho : s.ownerOfCluster c = some p.val)
    (h : exec i s = .next t) : CrownKeeps p c i s t := by
  unfold crownCluster at hc
  split at hc <;> cases hc
  case h_1 | h_24 => -- NOP, JMP
    exact crownKeeps_crownExec ho (crownKeeps_coreRetire_id s ..) h
  case h_2 | h_3 | h_4 | h_5 | h_6 | h_7 | h_8 | h_9 | h_10 | h_11 | h_12 | h_13 => -- LI to SLTU
    exact crownKeeps_crownAlu ho rfl h
  case h_14 => exact crownKeeps_execLd ho h
  case h_15 => exact crownKeeps_execSt ho h
  case h_16 => exact crownKeeps_execLdz ho h
  case h_17 => exact crownKeeps_execIssa ho h
  case h_18 => exact crownKeeps_execIssn ho h
  case h_19 => exact crownKeeps_execWait ho h
  case h_20 => exact crownKeeps_execUntil ho h
  case h_21 => exact crownKeeps_execBranch ho h
  case h_22 => exact crownKeeps_execEnda ho h
  case h_23 => exact crownKeeps_execLoop ho h
  case h_25 => exact crownKeeps_execDone ho h

/-- What is read off the state beyond the cores is as before. -/
theorem CrownKeeps.same {i : Instr} {α : Type} (h : CrownKeeps p c i s t) (f : State → α) : f t.beyondCores = f s.beyondCores :=
  congrArg f h.beyond

theorem CrownKeeps.sameMemory {i : Instr} (h : CrownKeeps p c i s t) : SameMemory s t := fun b =>
  h.same (fun u => u.memByte b)

theorem CrownKeeps.sameTables {i : Instr} (h : CrownKeeps p c i s t) : SameTables s t :=
  ⟨h.same State.res, h.same State.streams, h.same State.streamPending, h.same State.slots, h.same State.pages, h.same State.prefixes,
    h.same State.qps, h.same State.regions, h.same State.filters⟩

theorem CrownKeeps.samePlant {i : Instr} (h : CrownKeeps p c i s t) : SamePlant s t :=
  ⟨h.same State.power, h.same State.boot, h.same State.fwRun, h.same State.actRun, h.same State.refLoad, h.same State.refErase,
    h.same State.throttle⟩

theorem CrownKeeps.sameOtherParts {i : Instr} (h : CrownKeeps p c i s t) : SameOtherParts p s t := fun q hq =>
  h.parts q (fun e => hq (Fin.ext e))

theorem CrownKeeps.sameOtherClusters {i : Instr} (h : CrownKeeps p c i s t) : SameOtherClusters c s t := fun d hd =>
  h.clusters d (fun e => hd (Fin.ext e))

end

/-- Settles O17: every update that a crown instruction composes keeps what `CrownKeeps` says. -/
theorem crownInstructionFrame : Obligations.CrownInstructionFrame := by
  unfold Obligations.CrownInstructionFrame
  intro p c i s t hc ho h
  have keeps : CrownKeeps p c i s t := crownKeeps_exec hc ho h
  obtain ⟨reg, batt, arrays, napT, napB, napZ, queue, run⟩ := keeps.own
  exact ⟨keeps.sameMemory, keeps.sameOtherClusters, keeps.sameOtherParts, keeps.sameTables, keeps.samePlant,
    keeps.same State.sessions, keeps.same State.doms, keeps.same State.out, keeps.objects,
    reg, batt, arrays, napT, napB, napZ, queue, run⟩

end Sys2Proof.Machine

/-! ## MXINT8 codes (R121)

A conversion into MXINT8 clamps to −127 to 127 before it encodes, and only finite values reach it: a block that holds a NaN or an infinity
is stored as poison, with every code 0. -/

namespace Sys2Proof.Machine
open Sys2Proof

/-- The codes that R121 lets the module produce. -/
def ProducedMxInt8 (code : Nat) : Prop := code < 256 ∧ -127 ≤ Sys2Proof.signed 8 code ∧ Sys2Proof.signed 8 code ≤ 127

theorem producedMxInt8_zero : ProducedMxInt8 0 := by
  unfold ProducedMxInt8
  decide

theorem unsigned_lt (w : Nat) (v : Int) : unsigned w v < 2 ^ w := by
  have hpos : (0 : Int) < (2 ^ w : Nat) := mod_cast Nat.two_pow_pos w
  have hlt := Int.emod_lt_of_pos v hpos
  have hge := Int.emod_nonneg v hpos.ne'
  unfold unsigned
  omega

theorem signed_unsigned_8 {v : Int} (hlo : -128 ≤ v) (hhi : v ≤ 127) : Sys2Proof.signed 8 (unsigned 8 v) = v := by
  unfold Sys2Proof.signed unsigned
  omega

theorem producedMxInt8_unsigned {v : Int} (hlo : -127 ≤ v) (hhi : v ≤ 127) : ProducedMxInt8 (unsigned 8 v) := by
  have hv : Sys2Proof.signed 8 (unsigned 8 v) = v := signed_unsigned_8 (by omega) hhi
  exact ⟨unsigned_lt 8 v, hv.symm ▸ hlo, hv.symm ▸ hhi⟩

/-- The saturation of R129, whatever else (`above`, `below`) counts as an overflow. -/
theorem saturate_mem_range {v lo hi : Int} (h : lo ≤ hi) (above below : Bool) :
    let y := if v > hi || above then (hi, true) else if v < lo || below then (lo, true) else (v, false)
    lo ≤ y.1 ∧ y.1 ≤ hi := by
  dsimp only
  split
  next => exact ⟨h, le_rfl⟩
  next hNotAbove =>
    split
    next => exact ⟨le_rfl, h⟩
    next hNotBelow =>
      simp only [Bool.or_eq_true, decide_eq_true_eq, not_or, not_lt] at hNotAbove hNotBelow
      exact ⟨hNotBelow.1, hNotAbove.1⟩

theorem toInteger_mem_range (r : Rnd) (n : Bool) (m : Nat) (e : Int) {lo hi : Int} (h : lo ≤ hi) :
    lo ≤ (toInteger r n m e lo hi).1 ∧ (toInteger r n m e lo hi).1 ≤ hi :=
  saturate_mem_range h _ _

theorem producedMxInt8_encodeBlockElem (r : Rnd) (n : Bool) (m : Nat) (k e : Int) :
    ProducedMxInt8 (encodeBlockElem 0x05 r (.fin n m k) e) := by
  obtain ⟨hlo, hhi⟩ := toInteger_mem_range r n m (k + -e + 6) (show (-127 : Int) ≤ 127 by decide)
  exact producedMxInt8_unsigned hlo hhi

theorem XVal.exists_fin {x : XVal} (hnan : x.isNan = false) (hinf : x.isInf = false) : ∃ n m e, x = .fin n m e := by
  cases x with
  | nan => cases hnan
  | inf => cases hinf
  | fin n m e => exact ⟨n, m, e, rfl⟩

/-- R132, R134: in a format without an infinity, a code is the 0 of a poisoned block or encodes a finite value. -/
theorem mem_quantizeBlock_codes {f code : Nat} (hf : f ≠ 0x01) {outer : Int} {xs : List XVal} {rs : List Rnd}
    (h : code ∈ (quantizeBlock f outer xs rs).2.1) : code = 0 ∨ ∃ n m k e r, code = encodeBlockElem f r (.fin n m k) e := by
  simp only [quantizeBlock] at h
  split at h
  next => -- a NaN or an infinity poisons the block
    obtain ⟨_, _, rfl⟩ := List.mem_map.mp h
    exact .inl rfl
  next hfinite =>
    have encodesFinite {e : Int}
        (hc : code ∈ List.zipWith (fun x r => encodeBlockElem f r x e) (xs.map (·.scale (-outer))) rs) :
        ∃ n m k e r, code = encodeBlockElem f r (.fin n m k) e := by
      rw [← List.map_uncurry_zip_eq_zipWith] at hc
      obtain ⟨⟨y, r⟩, hyr, rfl⟩ := List.mem_map.mp hc
      rw [Bool.not_eq_true, List.any_eq_false] at hfinite
      have hy : y.isNan = false ∧ y.isInf = false := by simpa [hf] using hfinite y (List.of_mem_zip hyr).1
      obtain ⟨n, m, k, rfl⟩ := XVal.exists_fin hy.1 hy.2
      exact ⟨n, m, k, e, r, rfl⟩
    split at h
    next => exact .inr (encodesFinite h)
    next => exact .inr (encodesFinite h)
    next => cases h

theorem producedMxInt8_quantizeBlock {outer : Int} {xs : List XVal} {rs : List Rnd} {code : Nat}
    (h : code ∈ (quantizeBlock 0x05 outer xs rs).2.1) : ProducedMxInt8 code := by
  obtain rfl | ⟨n, m, k, e, r, rfl⟩ := mem_quantizeBlock_codes (by decide) h
  · exact producedMxInt8_zero
  · exact producedMxInt8_encodeBlockElem r n m k e

/-- R134: a stored block is poisoned, with every code 0, or holds the codes of its conversion. -/
theorem mem_storeBlock_codes {f code : Nat} {outer : Option Int} {bad : Bool} {xs : List XVal} {rs : List Rnd}
    (h : code ∈ (storeBlock f outer bad xs rs).2.1) : code = 0 ∨ ∃ o, code ∈ (quantizeBlock f o xs rs).2.1 := by
  cases outer with
  | none => exact .inl (List.eq_of_mem_replicate h)
  | some o =>
    cases bad with
    | true => exact .inl (List.eq_of_mem_replicate h)
    | false => exact .inr ⟨o, h⟩

theorem producedMxInt8_storeBlock {outer : Option Int} {bad : Bool} {xs : List XVal} {rs : List Rnd} {code : Nat}
    (h : code ∈ (storeBlock 0x05 outer bad xs rs).2.1) : ProducedMxInt8 code := by
  obtain rfl | ⟨_, hq⟩ := mem_storeBlock_codes h
  · exact producedMxInt8_zero
  · exact producedMxInt8_quantizeBlock hq

/-- The code 0x80 is −128 in units of 2^−6. -/
theorem decodeElem_mxInt8_0x80 : decodeElem 0x05 0x80 = .fin true 128 (-6) := rfl

/-- Settles O24: −128 × 2^−6 is −2, and the two producers of MXINT8 codes encode only what `toInteger` clamps, or 0. -/
theorem mxInt8Codes : Obligations.MxInt8Codes := by
  unfold Obligations.MxInt8Codes
  refine ⟨?_, fun _ _ _ _ _ _ h => h.elim producedMxInt8_quantizeBlock producedMxInt8_storeBlock⟩
  rw [decodeElem_mxInt8_0x80]
  decide

end Sys2Proof.Machine

/-! ## An illegal Nap operation (R173)

At its start it is recorded (counter, late slice, a parity hit), and at its end its summary is written; neither touches what operations
read or write. -/

namespace Sys2Proof.Machine
open Sys2Proof

/-! ### Bits of a summary word -/

theorem testBit_sub_two_pow {v i b : Nat} (hv : v.testBit i = true) (hb : b ≠ i) : (v - 2 ^ i).testBit b = v.testBit b := by
  induction i generalizing v b with
  | zero =>
    cases b with
    | zero => exact absurd rfl hb
    | succ b =>
      have hodd : v % 2 = 1 := by simpa [Nat.testBit_zero] using hv
      rw [Nat.testBit_succ, Nat.testBit_succ, pow_zero, show (v - 1) / 2 = v / 2 by omega]
  | succ i ih =>
    rw [Nat.pow_succ]
    cases b with
    | zero =>
      have hle : 2 ^ i * 2 ≤ v := Nat.pow_succ 2 i ▸ Nat.ge_two_pow_of_testBit hv
      rw [Nat.testBit_zero, Nat.testBit_zero, show (v - 2 ^ i * 2) % 2 = v % 2 by omega]
    | succ b =>
      rw [Nat.testBit_succ] at hv ⊢
      rw [Nat.testBit_succ, show (v - 2 ^ i * 2) / 2 = v / 2 - 2 ^ i by omega, ih hv (fun e => hb (congrArg _ e))]

theorem testBit_clearBit_ne {v i b : Nat} (hb : b ≠ i) : (clearBit v i).testBit b = v.testBit b := by
  unfold clearBit
  split
  next hv => exact testBit_sub_two_pow hv hb
  next => rfl

theorem testBit_setBit_self (v i : Nat) : (setBit v i).testBit i = true := by simp [setBit]

section
variable (s : State)

/-! ### The slice is late -/

/-- The slice of partition `p` is late in cluster `c`. -/
def State.SliceLate (p : PartId) (c : ClusterId) : Prop := ∃ r, (s.pt p).slice = some r ∧ r.late.testBit c.val = true

variable {s} {p : PartId} {c : ClusterId}

theorem State.SliceLate.congr {t : State} (h : s.SliceLate p c) (e : (t.pt p).slice = (s.pt p).slice) : t.SliceLate p c := by
  unfold State.SliceLate
  rw [e]
  exact h

theorem State.sliceLate_late (h : (s.pt p).slice.isSome = true) : (s.late p c).SliceLate p c := by
  obtain ⟨r, hr⟩ := Option.isSome_iff_exists.mp h
  refine ⟨{ r with late := setBit r.late c }, ?_, testBit_setBit_self _ _⟩
  simp [State.late, Part.modSlice, hr]

theorem State.SliceLate.fails (h : s.SliceLate p c) (b : Nat) : (s.fails p b).SliceLate p c := by
  obtain ⟨r, hr, hlate⟩ := h
  refine ⟨{ r with cond := setBit r.cond b }, ?_, hlate⟩
  simp [State.fails, Part.modSlice, hr]

theorem State.SliceLate.traceFire (h : s.SliceLate p c) (kind cycle : Nat) (cond : Bool) :
    (s.traceFire p c kind cycle cond).SliceLate p c := by
  obtain ⟨_, e⟩ := s.pt_traceFire p c kind cycle cond p
  exact h.congr (by rw [e])

theorem State.sliceLate_lateCluster (h : (s.pt p).slice.isSome = true) (cycle : Nat) : (s.lateCluster p c cycle).SliceLate p c := by
  have late := State.sliceLate_late (c := c) h
  have fired := late.traceFire 3 cycle true
  unfold State.lateCluster
  dsimp only
  split
  · split
    · exact late
    · exact fired
  · exact late

/-! ### Lateness is a matter of the partition and the trace trigger -/

variable (s)

theorem State.traceFire_eq (p c kind cycle : Nat) (cond : Bool) :
    ∃ ps rs, s.traceFire p c kind cycle cond = { s with parts := ps, regs := rs } := by
  unfold State.traceFire
  split
  · exact ⟨_, _, rfl⟩
  · exact ⟨_, _, rfl⟩

theorem State.lateCluster_eq (p c cycle : Nat) : ∃ ps rs, s.lateCluster p c cycle = { s with parts := ps, regs := rs } := by
  obtain ⟨ps, rs, e⟩ := (s.late p c).traceFire_eq p c 3 cycle true
  have fired : (s.late p c).traceFire p c 3 cycle true = { s with parts := ps, regs := rs } := e
  unfold State.lateCluster
  dsimp only
  split
  · split
    · exact ⟨_, _, rfl⟩
    · exact ⟨ps, rs, fired⟩
  · exact ⟨_, _, rfl⟩

@[simp] theorem State.mem_lateCluster (p c cycle : Nat) : (s.lateCluster p c cycle).mem = s.mem := by
  obtain ⟨_, _, e⟩ := s.lateCluster_eq p c cycle
  rw [e]

@[simp] theorem State.open_lateCluster (p c cycle : Nat) : (s.lateCluster p c cycle).open_ = s.open_ := by
  obtain ⟨_, _, e⟩ := s.lateCluster_eq p c cycle
  rw [e]

/-! ### An operation is found illegal -/

theorem State.open_count_self (p kind num w n : Nat) :
    SMap.getD 0 (s.count p kind num w n).open_ (ctrKey p kind num w) = SMap.getD 0 s.open_ (ctrKey p kind num w) + n :=
  SMap.getD_put_self ..

theorem State.open_count_ne {p kind num w k : Nat} (n : Nat) (h : k ≠ ctrKey p kind num w) :
    SMap.getD 0 (s.count p kind num w n).open_ k = SMap.getD 0 s.open_ k :=
  SMap.getD_put_ne _ _ _ h

/-- What is recorded of an operation of cluster `c` that is found illegal, at its start or while its image is fetched (R173, R279). -/
def State.foundIllegal (p c cycle : Nat) (hit : Bool) : State :=
  let t := (s.count p 1 c (wEvent 0) 1).lateCluster p c cycle
  if hit then (t.count p 1 c (wEvent 1) 1).fails p cfParity else t

@[simp] theorem State.cl_foundIllegal (p c cycle : Nat) (hit : Bool) (d : Nat) : (s.foundIllegal p c cycle hit).cl d = s.cl d := by
  cases hit <;> simp [State.foundIllegal]

@[simp] theorem State.mem_foundIllegal (p c cycle : Nat) (hit : Bool) : (s.foundIllegal p c cycle hit).mem = s.mem := by
  cases hit <;> simp [State.foundIllegal, State.fails]

theorem State.open_foundIllegal (p c cycle : Nat) (hit : Bool) :
    SMap.getD 0 (s.foundIllegal p c cycle hit).open_ (ctrKey p 1 c (wEvent 0)) =
      SMap.getD 0 s.open_ (ctrKey p 1 c (wEvent 0)) + 1 := by
  have counted : SMap.getD 0 ((s.count p 1 c (wEvent 0) 1).lateCluster p c cycle).open_ (ctrKey p 1 c (wEvent 0)) =
      SMap.getD 0 s.open_ (ctrKey p 1 c (wEvent 0)) + 1 := by
    rw [State.open_lateCluster, State.open_count_self]
  cases hit with
  | false => exact counted
  | true =>
    have other : ctrKey p 1 c (wEvent 0) ≠ ctrKey p 1 c (wEvent 1) := by simp [ctrKey]
    exact (State.open_count_ne _ 1 other).trans counted

theorem State.sliceLate_foundIllegal {p : PartId} {c : ClusterId} {s : State} (h : (s.pt p).slice.isSome = true) (cycle : Nat)
    (hit : Bool) : (s.foundIllegal p c cycle hit).SliceLate p c := by
  have late : ((s.count p 1 c (wEvent 0) 1).lateCluster p c cycle).SliceLate p c :=
    State.sliceLate_lateCluster (s := s.count p 1 c (wEvent 0) 1) h cycle
  cases hit with
  | false => exact late
  | true => exact State.SliceLate.fails (late.congr rfl) cfParity

/-! ### The operation at the head of the queue begins -/

@[simp] theorem State.cl_modNap (c : ClusterId) (f : Nap → Nap) : (s.modNap c f).cl c = { s.cl c with nap := f (s.cl c).nap } :=
  s.cl_modCl_fin c _

variable {s}

theorem State.slice_of_napMay (ho : s.ownerOfCluster c = some p.val) (h : s.napMay c = true) : (s.pt p).slice.isSome = true := by
  unfold State.napMay at h
  rw [ho] at h
  split at h
  next q _ hq _ =>
    obtain rfl : p.val = q := Option.some.inj hq
    simp only [Bool.and_eq_true] at h
    obtain ⟨⟨⟨hslice, -⟩, -⟩, -⟩ := h
    exact hslice
  next => cases h

theorem State.napMay_of_napStarts {op : Nat} (h : s.napStarts c op = true) : s.napMay c = true :=
  (Bool.and_eq_true_iff.mp h).1

theorem State.cl_napBegin {o : NapOp} {rest : List NapOp} {st : Nat} (ho : s.ownerOfCluster c = some p.val)
    (hq : (s.cl c).nap.queue = o :: rest) (hst : (s.cl c).nap.headStart = some st) (dur : Nat) (illegal : Bool) (image : List Byte) :
    (s.napBegin c dur illegal image false).cl c = { s.cl c with nap := { (s.cl c).nap with
      queue := rest, run := some ⟨o, st, st + dur, illegal, image, false, [], [], []⟩,
      recent := (st :: (s.cl c).nap.recent).take 4 } } := by
  unfold State.napBegin
  rw [ho, hq, hst]
  exact (State.cl_at ..).trans (s.cl_modNap c _)

@[simp] theorem State.mem_napBegin (s : State) (c dur : Nat) (illegal : Bool) (image : List Byte) (fetched : Bool) :
    (s.napBegin c dur illegal image fetched).mem = s.mem := by
  unfold State.napBegin
  split <;> rfl

@[simp] theorem State.open_napBegin (s : State) (c dur : Nat) (illegal : Bool) (image : List Byte) (fetched : Bool) :
    (s.napBegin c dur illegal image fetched).open_ = s.open_ := by
  unfold State.napBegin
  split <;> rfl

@[simp] theorem State.pt_napBegin (s : State) (c dur : Nat) (illegal : Bool) (image : List Byte) (fetched : Bool) (q : Nat) :
    (s.napBegin c dur illegal image fetched).pt q = s.pt q := by
  unfold State.napBegin
  split <;> rfl

theorem exec_napIllegal {o : NapOp} {rest : List NapOp} {par : Bool} (ho : s.ownerOfCluster c = some p.val)
    (hq : (s.cl c).nap.queue = o :: rest) (h : s.napStarts c 0 = true ∨ (par = true ∧ s.napMay c = true)) :
    ∃ cycle, exec (.napIllegal ⟨c, par⟩) s =
      .next ((s.napBegin c 4 true [] false).foundIllegal p c cycle (par || s.napHit c o)) := by
  have taken : (s.napStarts c 0 || (par && s.napMay c)) = true := by simpa using h
  show ∃ cycle, execNapIllegal ⟨c, par⟩ s = _
  unfold execNapIllegal
  dsimp only
  rw [takes_of taken, ho, hq]
  exact ⟨_, rfl⟩

/-! ### The operation in progress ends -/

@[simp] theorem State.cl_napBusy (p c until_ d : Nat) : (s.napBusy p c until_).cl d = s.cl d := by
  unfold State.napBusy
  split <;> rfl

@[simp] theorem State.mem_napBusy (p c until_ : Nat) : (s.napBusy p c until_).mem = s.mem := by
  unfold State.napBusy
  split <;> rfl

@[simp] theorem State.mem_setZ (p c z w : Nat) : (s.setZ p c z w).mem = s.mem := by
  unfold State.setZ
  split <;> rfl

/-- A write of summary register `z` changes that register alone, and nothing where it is Z15 (R199). -/
theorem State.cl_setZ (s : State) (p : Nat) (c : ClusterId) (z w : Nat) :
    ∃ m, (s.setZ p c z w).cl c = { s.cl c with nap := { (s.cl c).nap with z := m } } ∧
      (z ≠ 15 → SMap.getD 0 m z = BitVec.ofNat 64 (clearBit w zGauge)) ∧
      ∀ k, (k ≠ z ∨ k = 15) → SMap.getD 0 m k = SMap.getD 0 (s.cl c).nap.z k := by
  unfold State.setZ
  split
  next hz => exact ⟨_, rfl, fun h => absurd hz h, fun _ _ => rfl⟩
  next hz =>
    refine ⟨_, (State.cl_modPt ..).trans (s.cl_modNap c _), fun _ => SMap.getD_put_self .., fun k hk => SMap.getD_put_ne _ _ _ ?_⟩
    rintro rfl
    exact hk.elim (fun h => h rfl) hz

/-- The summary of an illegal operation, from the register's value before (R173). -/
def illegalSummary (v : Nat) : Nat := v ||| 2 ^ zPoison ||| 2 ^ zValid

theorem testBit_illegalSummary (v : Nat) :
    (BitVec.ofNat 64 (clearBit (illegalSummary v) zGauge)).toNat.testBit zPoison = true ∧
      (BitVec.ofNat 64 (clearBit (illegalSummary v) zGauge)).toNat.testBit zValid = true := by
  have kept {b : Nat} (hb : b < 64) (hg : b ≠ zGauge) :
      (BitVec.ofNat 64 (clearBit (illegalSummary v) zGauge)).toNat.testBit b = (illegalSummary v).testBit b := by
    rw [BitVec.toNat_ofNat, Nat.testBit_mod_two_pow, testBit_clearBit_ne hg, decide_eq_true hb, Bool.true_and]
  rw [kept (by decide) (by decide), kept (by decide) (by decide)]
  simp [illegalSummary]

/-- POISON and VALID are set in summary register `z`. -/
def State.setIllegalSummary (s : State) (p c z : Nat) : State := s.setZ p c z (illegalSummary (SMap.getD 0 (s.cl c).nap.z z).toNat)

theorem State.cl_setIllegalSummary (s : State) (p : Nat) (c : ClusterId) (z : Nat) :
    ∃ m, (s.setIllegalSummary p c z).cl c = { s.cl c with nap := { (s.cl c).nap with z := m } } ∧
      (z ≠ 15 → (SMap.getD 0 m z).toNat.testBit zPoison = true ∧ (SMap.getD 0 m z).toNat.testBit zValid = true) ∧
      ∀ k, (k ≠ z ∨ k = 15) → SMap.getD 0 m k = SMap.getD 0 (s.cl c).nap.z k := by
  obtain ⟨m, hcl, hself, hother⟩ := s.cl_setZ p c z (illegalSummary (SMap.getD 0 (s.cl c).nap.z z).toNat)
  exact ⟨m, hcl, fun hz => by rw [hself hz]; exact testBit_illegalSummary _, hother⟩

/-- The state when the operation in progress, an illegal one, has written its summary at its end. -/
def State.summarizeIllegal (s : State) (p : PartId) (c : ClusterId) (r : NapRun) : State :=
  ((s.napBusy p c r.finish).at ((s.pt p).edgeNs + cycleNs r.finish)).setIllegalSummary p c (Nd.summary.get r.op.desc)

theorem State.cl_summarizeIllegal (s : State) (p : PartId) (c : ClusterId) (r : NapRun) :
    let z := Nd.summary.get r.op.desc
    ∃ m, (s.summarizeIllegal p c r).cl c = { s.cl c with nap := { (s.cl c).nap with z := m } } ∧
      (z ≠ 15 → (SMap.getD 0 m z).toNat.testBit zPoison = true ∧ (SMap.getD 0 m z).toNat.testBit zValid = true) ∧
      ∀ k, (k ≠ z ∨ k = 15) → SMap.getD 0 m k = SMap.getD 0 (s.cl c).nap.z k := by
  have ended : ((s.napBusy p c r.finish).at ((s.pt p).edgeNs + cycleNs r.finish)).cl c = s.cl c := s.cl_napBusy ..
  exact ended ▸ State.cl_setIllegalSummary ((s.napBusy p c r.finish).at ((s.pt p).edgeNs + cycleNs r.finish)) p c _

@[simp] theorem State.mem_summarizeIllegal (s : State) (p : PartId) (c : ClusterId) (r : NapRun) :
    (s.summarizeIllegal p c r).mem = s.mem := by
  simp [State.summarizeIllegal, State.setIllegalSummary]

/-- A RUN that is found illegal while its image is fetched is recorded at its end, any other illegal operation at its start. -/
theorem exec_napOpEnd_illegal {r : NapRun} (ho : s.ownerOfCluster c = some p.val) (hr : (s.cl c).nap.run = some r)
    (hill : r.illegal = true) (hs : (s.pt p).slice.isSome = true) (hf : r.finish < (s.pt p).edgeCycle) :
    ∃ u, exec (.napOpEnd c) s = .next (u.modNap c (fun n => { n with run := none, lastEnd := r.finish })) ∧
      (u = s.summarizeIllegal p c r ∨ ∃ hit, u = (s.summarizeIllegal p c r).foundIllegal p c r.finish hit) := by
  have ended : ((s.pt p).slice.isSome && decide (r.finish < (s.pt p).edgeCycle)) = true := by simp [hs, hf]
  show ∃ u, execNapOpEnd c s = _ ∧ _
  unfold execNapOpEnd
  rw [ho, hr]
  dsimp only
  rw [takes_of ended]
  simp only [hill, if_true]
  refine ⟨_, rfl, ?_⟩
  split
  next => exact .inl rfl
  next =>
    refine .inr ⟨!r.badAt.isEmpty, ?_⟩
    cases r.badAt.isEmpty <;> rfl

/-! ### Both halves -/

/-- What no illegal operation reads or writes is as before. -/
theorem operands_kept {t : State} {n : Nap} (hcl : t.cl c = { s.cl c with nap := n }) (ht : n.t = (s.cl c).nap.t)
    (hb : n.b = (s.cl c).nap.b) (hmem : t.mem = s.mem) :
    (t.cl c).batt = (s.cl c).batt ∧ (t.cl c).tiles = (s.cl c).tiles ∧ (t.cl c).nap.t = (s.cl c).nap.t ∧
      (t.cl c).nap.b = (s.cl c).nap.b ∧ SameMemory s t := by
  rw [hcl]
  exact ⟨rfl, rfl, ht, hb, fun b => congrArg (SMap.getD 0 · b) hmem⟩

end

/-- Settles O22: an illegal operation is recorded when it is found, and its end writes its summary alone. -/
theorem illegalNapOperation : Obligations.IllegalNapOperation := by
  unfold Obligations.IllegalNapOperation
  intro p c par o rest st r s ho
  refine ⟨fun hq hst hfound => ?start, fun hr hill hs hf => ?finish⟩
  case start =>
    have hmay : s.napMay c = true := hfound.elim State.napMay_of_napStarts And.right
    have hslice : (s.pt p).slice.isSome = true := State.slice_of_napMay ho hmay
    obtain ⟨cycle, hexec⟩ := exec_napIllegal ho hq hfound
    have tcl := (State.cl_foundIllegal _ p c cycle (par || s.napHit c o) c).trans (State.cl_napBegin ho hq hst 4 true [])
    refine ⟨_, hexec, operands_kept tcl rfl rfl (by simp), ?_⟩
    rw [tcl]
    refine ⟨rfl, rfl, rfl, ?_, State.sliceLate_foundIllegal (by simpa using hslice) ..⟩
    rw [State.open_foundIllegal, State.open_napBegin]
  case finish =>
    obtain ⟨m, hcl, hself, hother⟩ := s.cl_summarizeIllegal p c r
    obtain ⟨u, hexec, hu⟩ := exec_napOpEnd_illegal ho hr hill hs hf
    have ucl : u.cl c = (s.summarizeIllegal p c r).cl c := by obtain rfl | ⟨hit, rfl⟩ := hu <;> simp
    have umem : u.mem = s.mem := by obtain rfl | ⟨hit, rfl⟩ := hu <;> simp
    have tcl : (u.modNap c (fun n => { n with run := none, lastEnd := r.finish })).cl c =
        { s.cl c with nap := { (s.cl c).nap with z := m, run := none, lastEnd := r.finish } } := by
      rw [State.cl_modNap, ucl, hcl]
    refine ⟨_, hexec, operands_kept tcl rfl rfl umem, ?_⟩
    rw [tcl]
    exact ⟨rfl, rfl, hself, hother⟩

end Sys2Proof.Machine

namespace Sys2Proof.Machine
open Sys2Proof

/-! ## Crown words: decode of encode (R74, R75) -/

/-- A field below the topmost one. -/
theorem extractLsb'_below {v w start len : Nat} (hi : BitVec v) (lo : BitVec w) (h : start + len ≤ w) :
    (hi ++ lo).extractLsb' start len = lo.extractLsb' start len := BitVec.extractLsb'_append_eq_of_add_le h

/-- The topmost field. -/
theorem extractLsb'_top {v w start : Nat} (hi : BitVec v) (lo : BitVec w) (h : start = w) : (hi ++ lo).extractLsb' start v = hi := by
  rw [BitVec.extractLsb'_append_eq_of_le (Nat.le_of_eq h.symm), h, Nat.sub_self, BitVec.extractLsb'_eq_self]

/-- The lowest field. -/
theorem extractLsb'_bottom {v w : Nat} (hi : BitVec v) (lo : BitVec w) : (hi ++ lo).extractLsb' 0 w = lo := by
  rw [BitVec.extractLsb'_append_eq_of_add_le (Nat.le_of_eq (Nat.zero_add w)), BitVec.extractLsb'_eq_self]

/-- One bit of a word, as a field. -/
theorem getLsbD_eq_extractLsb' {w : Nat} (x : BitVec w) (i : Nat) : x.getLsbD i = (x.extractLsb' i 1).getLsbD 0 := by
  simp

section
variable (op : BitVec 8) (rd rs1 rs2 : BitVec 5) (func : BitVec 9) (imm : BitVec 32)

@[simp] theorem crownWord_op : (crownWord op rd rs1 rs2 func imm).extractLsb' 56 8 = op :=
  extractLsb'_top (op) _ rfl

@[simp] theorem crownWord_rd : (crownWord op rd rs1 rs2 func imm).extractLsb' 51 5 = rd := by
  rw [show (crownWord op rd rs1 rs2 func imm).extractLsb' 51 5 = _ from extractLsb'_below (op) _ (by decide),
    extractLsb'_top _ _ rfl]

@[simp] theorem crownWord_rs1 : (crownWord op rd rs1 rs2 func imm).extractLsb' 46 5 = rs1 := by
  rw [show (crownWord op rd rs1 rs2 func imm).extractLsb' 46 5 = _ from extractLsb'_below (op) _ (by decide),
    extractLsb'_below _ _ (by decide), extractLsb'_top _ _ rfl]

@[simp] theorem crownWord_rs2 : (crownWord op rd rs1 rs2 func imm).extractLsb' 41 5 = rs2 := by
  rw [show (crownWord op rd rs1 rs2 func imm).extractLsb' 41 5 = _ from extractLsb'_below (op) _ (by decide),
    extractLsb'_below _ _ (by decide), extractLsb'_below _ _ (by decide), extractLsb'_top _ _ rfl]

@[simp] theorem crownWord_imm : (crownWord op rd rs1 rs2 func imm).extractLsb' 0 32 = imm := by
  rw [show (crownWord op rd rs1 rs2 func imm).extractLsb' 0 32 = _ from extractLsb'_below (op) _ (by decide),
    extractLsb'_below _ _ (by decide), extractLsb'_below _ _ (by decide), extractLsb'_below _ _ (by decide), extractLsb'_bottom]

end

section
variable (arr : BitVec 4) (discard : Bool) (rs1 : BitVec 5) (tag : BitVec 7) (imm : BitVec 32)

@[simp] theorem issaWord_op : (issaWord arr discard rs1 tag imm).extractLsb' 56 8 = 0x20#8 :=
  extractLsb'_top (0x20#8) _ rfl

@[simp] theorem issaWord_arr : (issaWord arr discard rs1 tag imm).extractLsb' 52 4 = arr := by
  rw [show (issaWord arr discard rs1 tag imm).extractLsb' 52 4 = _ from extractLsb'_below (0x20#8) _ (by decide),
    extractLsb'_top _ _ rfl]

@[simp] theorem issaWord_discard : (issaWord arr discard rs1 tag imm).extractLsb' 51 1 = BitVec.ofBool discard := by
  rw [show (issaWord arr discard rs1 tag imm).extractLsb' 51 1 = _ from extractLsb'_below (0x20#8) _ (by decide),
    extractLsb'_below _ _ (by decide), extractLsb'_top _ _ rfl]

@[simp] theorem issaWord_rs1 : (issaWord arr discard rs1 tag imm).extractLsb' 46 5 = rs1 := by
  rw [show (issaWord arr discard rs1 tag imm).extractLsb' 46 5 = _ from extractLsb'_below (0x20#8) _ (by decide),
    extractLsb'_below _ _ (by decide), extractLsb'_below _ _ (by decide), extractLsb'_top _ _ rfl]

@[simp] theorem issaWord_tag : (issaWord arr discard rs1 tag imm).extractLsb' 39 7 = tag := by
  rw [show (issaWord arr discard rs1 tag imm).extractLsb' 39 7 = _ from extractLsb'_below (0x20#8) _ (by decide),
    extractLsb'_below _ _ (by decide), extractLsb'_below _ _ (by decide), extractLsb'_below _ _ (by decide), extractLsb'_top _ _ rfl]

@[simp] theorem issaWord_imm : (issaWord arr discard rs1 tag imm).extractLsb' 0 32 = imm := by
  rw [show (issaWord arr discard rs1 tag imm).extractLsb' 0 32 = _ from extractLsb'_below (0x20#8) _ (by decide),
    extractLsb'_below _ _ (by decide), extractLsb'_below _ _ (by decide), extractLsb'_below _ _ (by decide), extractLsb'_below _ _ (by decide), extractLsb'_bottom]

end

section
variable (cls : BitVec 3) (count : BitVec 16) (first : BitVec 32)

@[simp] theorem waitWord_op : (waitWord cls count first).extractLsb' 56 8 = 0x28#8 :=
  extractLsb'_top (0x28#8) _ rfl

@[simp] theorem waitWord_cls : (waitWord cls count first).extractLsb' 53 3 = cls := by
  rw [show (waitWord cls count first).extractLsb' 53 3 = _ from extractLsb'_below (0x28#8) _ (by decide),
    extractLsb'_top _ _ rfl]

@[simp] theorem waitWord_count : (waitWord cls count first).extractLsb' 32 16 = count := by
  rw [show (waitWord cls count first).extractLsb' 32 16 = _ from extractLsb'_below (0x28#8) _ (by decide),
    extractLsb'_below _ _ (by decide), extractLsb'_below _ _ (by decide), extractLsb'_top _ _ rfl]

@[simp] theorem waitWord_first : (waitWord cls count first).extractLsb' 0 32 = first := by
  rw [show (waitWord cls count first).extractLsb' 0 32 = _ from extractLsb'_below (0x28#8) _ (by decide),
    extractLsb'_below _ _ (by decide), extractLsb'_below _ _ (by decide), extractLsb'_bottom]

end

section
variable (z : BitVec 4) (flag : Bool) (b : BitVec 6) (alts : BitVec 2) (join : BitVec 32)

@[simp] theorem branchWord_op : (branchWord z flag b alts join).extractLsb' 56 8 = 0x30#8 :=
  extractLsb'_top (0x30#8) _ rfl

@[simp] theorem branchWord_z : (branchWord z flag b alts join).extractLsb' 52 4 = z := by
  rw [show (branchWord z flag b alts join).extractLsb' 52 4 = _ from extractLsb'_below (0x30#8) _ (by decide),
    extractLsb'_top _ _ rfl]

@[simp] theorem branchWord_flag : (branchWord z flag b alts join).extractLsb' 51 1 = BitVec.ofBool flag := by
  rw [show (branchWord z flag b alts join).extractLsb' 51 1 = _ from extractLsb'_below (0x30#8) _ (by decide),
    extractLsb'_below _ _ (by decide), extractLsb'_top _ _ rfl]

@[simp] theorem branchWord_b : (branchWord z flag b alts join).extractLsb' 45 6 = b := by
  rw [show (branchWord z flag b alts join).extractLsb' 45 6 = _ from extractLsb'_below (0x30#8) _ (by decide),
    extractLsb'_below _ _ (by decide), extractLsb'_below _ _ (by decide), extractLsb'_top _ _ rfl]

@[simp] theorem branchWord_alts : (branchWord z flag b alts join).extractLsb' 43 2 = alts := by
  rw [show (branchWord z flag b alts join).extractLsb' 43 2 = _ from extractLsb'_below (0x30#8) _ (by decide),
    extractLsb'_below _ _ (by decide), extractLsb'_below _ _ (by decide), extractLsb'_below _ _ (by decide), extractLsb'_top _ _ rfl]

@[simp] theorem branchWord_join : (branchWord z flag b alts join).extractLsb' 0 32 = join := by
  rw [show (branchWord z flag b alts join).extractLsb' 0 32 = _ from extractLsb'_below (0x30#8) _ (by decide),
    extractLsb'_below _ _ (by decide), extractLsb'_below _ _ (by decide), extractLsb'_below _ _ (by decide), extractLsb'_below _ _ (by decide), extractLsb'_bottom]

end

section
variable (body : BitVec 16) (count : BitVec 32)

@[simp] theorem loopWord_op : (loopWord body count).extractLsb' 56 8 = 0x32#8 :=
  extractLsb'_top (0x32#8) _ rfl

@[simp] theorem loopWord_body : (loopWord body count).extractLsb' 32 16 = body := by
  rw [show (loopWord body count).extractLsb' 32 16 = _ from extractLsb'_below (0x32#8) _ (by decide),
    extractLsb'_below _ _ (by decide), extractLsb'_top _ _ rfl]

@[simp] theorem loopWord_count : (loopWord body count).extractLsb' 0 32 = count := by
  rw [show (loopWord body count).extractLsb' 0 32 = _ from extractLsb'_below (0x32#8) _ (by decide),
    extractLsb'_below _ _ (by decide), extractLsb'_bottom]

end

/-- The six low bits of a shift instruction's word. -/
@[simp] theorem crownWord_shift (op : BitVec 8) (rd rs1 rs2 : BitVec 5) (func : BitVec 9) (sh : BitVec 6) :
    (crownWord op rd rs1 rs2 func (0#26 ++ sh)).extractLsb' 0 6 = sh := by
  rw [show (crownWord op rd rs1 rs2 func (0#26 ++ sh)).extractLsb' 0 6 = _ from extractLsb'_below op _ (by decide),
    extractLsb'_below _ _ (by decide), extractLsb'_below _ _ (by decide), extractLsb'_below _ _ (by decide),
    extractLsb'_below _ _ (by decide), show (0#26 ++ sh).extractLsb' 0 6 = sh from extractLsb'_bottom _ _]

/-- The summary register in an LDZ word. -/
@[simp] theorem crownWord_summary (op : BitVec 8) (rd rs1 rs2 : BitVec 5) (z : BitVec 4) (imm : BitVec 32) :
    (crownWord op rd rs1 rs2 (0#5 ++ z) imm).extractLsb' 32 4 = z := by
  rw [show (crownWord op rd rs1 rs2 (0#5 ++ z) imm).extractLsb' 32 4 = _ from extractLsb'_below op _ (by decide),
    extractLsb'_below _ _ (by decide), extractLsb'_below _ _ (by decide), extractLsb'_below _ _ (by decide),
    BitVec.extractLsb'_append_eq_of_le (Nat.le_refl _), show (0#5 ++ z).extractLsb' (32 - 32) 4 = z from extractLsb'_bottom _ _]

@[simp] theorem issaWord_discardBit (arr : BitVec 4) (discard : Bool) (rs1 : BitVec 5) (tag : BitVec 7) (imm : BitVec 32) :
    (issaWord arr discard rs1 tag imm)[51] = discard := by
  rw [← BitVec.getLsbD_eq_getElem, getLsbD_eq_extractLsb', issaWord_discard]; simp

@[simp] theorem branchWord_flagBit (z : BitVec 4) (flag : Bool) (b : BitVec 6) (alts : BitVec 2) (join : BitVec 32) :
    (branchWord z flag b alts join)[51] = flag := by
  rw [← BitVec.getLsbD_eq_getElem, getLsbD_eq_extractLsb', branchWord_flag]; simp

/-- The fields of an instruction's word name the instruction. -/
theorem crownCandidate_encodeCrown {i : Instr} {c : ClusterId} {w : Word} (hc : crownCluster i = some c)
    (hw : encodeCrown i = some w) : crownCandidate c w = some i := by
  cases i <;> cases hc <;> cases hw <;> simp [crownCandidate]

/-- Settles O5: the fields of an encoded word read back, and the word passes the decoder's own two checks. -/
theorem crownDecodeOfEncode : Obligations.CrownDecodeOfEncode := by
  unfold Obligations.CrownDecodeOfEncode
  intro i c w hc hw hok
  simp [decodeCrown, crownCandidate_encodeCrown hc hw, hw, hok]

end Sys2Proof.Machine

namespace Sys2Proof.Machine
open Sys2Proof

/-! ## The block as a whole: a step, the state after reset, fixed words -/

/-- Settles O1: the front command runs on the state that holds the rest of the queue. -/
theorem stepRunsFrontCommand : Obligations.StepRunsFrontCommand := by
  unfold Obligations.StepRunsFrontCommand
  intro c rest s
  rfl

/-- Every partition of the module after reset is empty. -/
theorem State.pt_reset (p : Nat) : State.reset.pt p = Part.empty := by
  unfold State.pt State.reset
  by_cases h : p < 12 <;> simp [h]

/-- Settles O4: every map of the state after reset is empty, so reads give defaults. -/
theorem resetIsUnpowered : Obligations.ResetIsUnpowered := by
  unfold Obligations.ResetIsUnpowered
  refine ⟨SMap.wf_nil 0, rfl, rfl, rfl, rfl, fun p => ?_, fun k => rfl, fun a => rfl⟩
  rw [State.pt_reset]
  exact ⟨rfl, rfl⟩

/-- Settles O6: each word is the one that its instruction encodes to, or fails the decoder's checks. -/
theorem crownWordsDecode : Obligations.CrownWordsDecode := by
  unfold Obligations.CrownWordsDecode
  intro c
  exact ⟨rfl, rfl, rfl, rfl, rfl, rfl, rfl, rfl, rfl, rfl, rfl⟩

end Sys2Proof.Machine

namespace Sys2Proof.Machine
open Sys2Proof

-- Short theorems, many of them: one after another, so that the threads' stacks stay within the check's memory.
set_option Elab.async false

/-! ## Footprints: what an operation of the model may change

`Changes F s t` says that the aspects of the state outside the list `F` are in `t` as in `s`, that the waiting commands are the same, and
that device memory stays canonical. One lemma per operation gives its footprint; the frames of the obligations are read off. -/

/-- What of a partition the frames of the obligations single out; `there` is whether a slice is in progress. -/
inductive PartAspect
  | slice | there | gen | jobs | pins | settling | built
  deriving DecidableEq

/-- What of a cluster the frames of the obligations single out: `napRegs` is T, B and the summaries, `napRun` the operation in progress
and the engine's bookkeeping. -/
inductive ClusterAspect
  | crown | arrays | tiles | napQueue | napRegs | napRun | batt
  deriving DecidableEq

/-- An aspect of the state: a field, or a part of what the partitions, the clusters, the sessions or the registers hold. `rights` is who
the open sessions are; `regsButJenjo` and `regsButStreams` are the registers but the two counters of Jenjo, and but STREAMS_ENABLED. -/
inductive Aspect
  | now | regs | doms | mem | poisonLog | cxlPoison | badPages | res | resAt | resChanged | streams | streamPending | streamAt
  | slots | pages | prefixes | queues | upSince | pauseEnd | pauseFrom | hostPause | lpiEnd | filters | goodSyncs | badSyncs
  | holdFrom | announceAt | ppsHigh | qps | regions | rkeys | histUsed | helloTold | peerCaps | peerWake | relays | txq | txFree
  | refs | cxlSris | trainTemp | advised | clusters | parts | open_ | closed | totals | sessions | draws | out | checks | power
  | mram | boot | fwRun | actRun | refLoad | refErase | throttle | withheldFrom | rights | regsButJenjo | regsButStreams
  | part (a : PartAspect)
  | cluster (a : ClusterAspect)
  deriving DecidableEq

/-- An aspect of a partition is as before. -/
def PartAspect.Same (x y : Part) : PartAspect → Prop
  | .slice => y.slice = x.slice
  | .there => y.slice.isSome = x.slice.isSome
  | .gen => y.gen = x.gen
  | .jobs => y.jobs = x.jobs
  | .pins => y.pins = x.pins
  | .settling => y.settling = x.settling
  | .built => y.built = x.built

/-- An aspect of a cluster is as before. -/
def ClusterAspect.Same (x y : Cluster) : ClusterAspect → Prop
  | .crown => y.crown = x.crown
  | .arrays => y.arrays = x.arrays
  | .tiles => y.tiles = x.tiles
  | .napQueue => y.nap.queue = x.nap.queue
  | .napRegs => y.nap.t = x.nap.t ∧ y.nap.b = x.nap.b ∧ y.nap.z = x.nap.z
  | .napRun => y.nap.run = x.nap.run ∧ y.nap.lastEnd = x.nap.lastEnd ∧ y.nap.recent = x.nap.recent
  | .batt => y.batt = x.batt

/-- Who a session belongs to, and whether it is open. -/
def Session.rights (x : Session) : Nat × Nat × Nat × List Byte × Bool := (x.id, x.role, x.part, x.key, x.open_)

/-- An aspect of the state is as before. -/
def Aspect.Same (s t : State) : Aspect → Prop
  | .now => t.now = s.now
  | .regs => t.regs = s.regs
  | .doms => t.doms = s.doms
  | .mem => t.mem = s.mem
  | .poisonLog => t.poisonLog = s.poisonLog
  | .cxlPoison => t.cxlPoison = s.cxlPoison
  | .badPages => t.badPages = s.badPages
  | .res => t.res = s.res
  | .resAt => t.resAt = s.resAt
  | .resChanged => t.resChanged = s.resChanged
  | .streams => t.streams = s.streams
  | .streamPending => t.streamPending = s.streamPending
  | .streamAt => t.streamAt = s.streamAt
  | .slots => t.slots = s.slots
  | .pages => t.pages = s.pages
  | .prefixes => t.prefixes = s.prefixes
  | .queues => t.queues = s.queues
  | .upSince => t.upSince = s.upSince
  | .pauseEnd => t.pauseEnd = s.pauseEnd
  | .pauseFrom => t.pauseFrom = s.pauseFrom
  | .hostPause => t.hostPause = s.hostPause
  | .lpiEnd => t.lpiEnd = s.lpiEnd
  | .filters => t.filters = s.filters
  | .goodSyncs => t.goodSyncs = s.goodSyncs
  | .badSyncs => t.badSyncs = s.badSyncs
  | .holdFrom => t.holdFrom = s.holdFrom
  | .announceAt => t.announceAt = s.announceAt
  | .ppsHigh => t.ppsHigh = s.ppsHigh
  | .qps => t.qps = s.qps
  | .regions => t.regions = s.regions
  | .rkeys => t.rkeys = s.rkeys
  | .histUsed => t.histUsed = s.histUsed
  | .helloTold => t.helloTold = s.helloTold
  | .peerCaps => t.peerCaps = s.peerCaps
  | .peerWake => t.peerWake = s.peerWake
  | .relays => t.relays = s.relays
  | .txq => t.txq = s.txq
  | .txFree => t.txFree = s.txFree
  | .refs => t.refs = s.refs
  | .cxlSris => t.cxlSris = s.cxlSris
  | .trainTemp => t.trainTemp = s.trainTemp
  | .advised => t.advised = s.advised
  | .clusters => t.clusters = s.clusters
  | .parts => t.parts = s.parts
  | .open_ => t.open_ = s.open_
  | .closed => t.closed = s.closed
  | .totals => t.totals = s.totals
  | .sessions => t.sessions = s.sessions
  | .draws => t.draws = s.draws
  | .out => t.out = s.out
  | .checks => t.checks = s.checks
  | .power => t.power = s.power
  | .mram => t.mram = s.mram
  | .boot => t.boot = s.boot
  | .fwRun => t.fwRun = s.fwRun
  | .actRun => t.actRun = s.actRun
  | .refLoad => t.refLoad = s.refLoad
  | .refErase => t.refErase = s.refErase
  | .throttle => t.throttle = s.throttle
  | .withheldFrom => t.withheldFrom = s.withheldFrom
  | .rights => t.sessions.map Session.rights = s.sessions.map Session.rights
  | .regsButJenjo => SameRegsBut [Obj.JENJO_AUTH_FAIL, Obj.JENJO_MALFORMED] s t
  | .regsButStreams => SameRegsBut [Obj.STREAMS_ENABLED] s t
  | .part a => ∀ p, a.Same (s.pt p) (t.pt p)
  | .cluster a => ∀ c, a.Same (s.cl c) (t.cl c)

/-- `t` comes from `s` by changes of aspects of the list `F` alone. -/
structure Changes (F : List Aspect) (s t : State) : Prop where
  pending : t.pending = s.pending
  canonical : s.Canonical → t.Canonical
  same : ∀ a, a ∉ F → a.Same s t

/-! ### The rules -/

theorem PartAspect.Same.refl (a : PartAspect) (x : Part) : a.Same x x := by cases a <;> rfl

theorem PartAspect.Same.trans {a : PartAspect} {x y z : Part} (h : a.Same x y) (h' : a.Same y z) : a.Same x z := by
  cases a <;> exact Eq.trans h' h

theorem ClusterAspect.Same.refl (a : ClusterAspect) (x : Cluster) : a.Same x x := by
  cases a <;> simp [ClusterAspect.Same]

theorem ClusterAspect.Same.trans {a : ClusterAspect} {x y z : Cluster} (h : a.Same x y) (h' : a.Same y z) : a.Same x z := by
  cases a <;> simp_all [ClusterAspect.Same]

theorem Aspect.Same.refl (a : Aspect) (s : State) : a.Same s s := by
  cases a
  case part a => exact fun p => .refl a _
  case cluster a => exact fun c => .refl a _
  all_goals simp [Aspect.Same, SameRegsBut]

theorem Aspect.Same.trans {a : Aspect} {s t u : State} (h : a.Same s t) (h' : a.Same t u) : a.Same s u := by
  cases a
  case part a => exact fun p => (h p).trans (h' p)
  case cluster a => exact fun c => (h c).trans (h' c)
  case regsButJenjo => exact fun k hk => Eq.trans (h' k hk) (h k hk)
  case regsButStreams => exact fun k hk => Eq.trans (h' k hk) (h k hk)
  all_goals exact Eq.trans h' h

section
variable {F G : List Aspect} {s t u : State}

theorem Changes.refl : Changes F s s := ⟨rfl, id, fun a _ => .refl a s⟩

theorem Changes.trans (h : Changes F s t) (h' : Changes F t u) : Changes F s u :=
  ⟨h'.pending.trans h.pending, h'.canonical ∘ h.canonical, fun a ha => (h.same a ha).trans (h'.same a ha)⟩

theorem Changes.mono (h : Changes G s t) (hG : G ⊆ F) : Changes F s t :=
  ⟨h.pending, h.canonical, fun a ha => h.same a (fun hg => ha (hG hg))⟩

/-- A footprint is shown for every list that contains it. -/
theorem Changes.within (h : ∀ F, G ⊆ F → Changes F s t) : Changes G s t := h G (List.Subset.refl G)

/-- A further operation, whose footprint is a part of the list that contains the present one. -/
theorem Changes.then (h : Changes F s t) (h' : Changes G t u)
    (hG : G ⊆ F := by refine List.Subset.trans ?_ (by assumption); decide) : Changes F s u := h.trans (h'.mono hG)

/-- One operation. -/
theorem Changes.by (h : Changes G s t)
    (hG : G ⊆ F := by refine List.Subset.trans ?_ (by assumption); decide) : Changes F s t := h.mono hG

/-- A record update: the fields outside the list are those of `s`. -/
theorem Changes.record (hp : t.pending = s.pending := by rfl) (hm : t.mem = s.mem := by rfl)
    (h : ∀ a, a ∉ G → a.Same s t := by
      intro a ha
      cases a <;> first | exact rfl | exact fun _ => .refl _ _ | exact fun _ _ => rfl | exact absurd (by decide) ha) :
    Changes G s t := ⟨hp, fun hs => show SMap.Wf 0 t.mem from hm ▸ hs, h⟩

theorem Changes.ite {c : Prop} [Decidable c] (h : Changes F s t) (h' : Changes F s u) : Changes F s (if c then t else u) := by
  split
  · exact h
  · exact h'

theorem Changes.foldl {α : Type} {f : State → α → State} {l : List α} (h : Changes F s t) (hf : ∀ u x, Changes F u (f u x)) :
    Changes F s (l.foldl f t) := by
  induction l generalizing t with
  | nil => exact h
  | cons x l ih => exact ih (h.trans (hf t x))

/-- Operations that answer with a state and more. -/
def ChangesFst {α : Type} (F : List Aspect) (s : State) (x : State × α) : Prop := Changes F s x.1

theorem ChangesFst.mk {α : Type} {a : α} (h : Changes F s t) : ChangesFst F s (t, a) := h

theorem Changes.fst {α : Type} {x : State × α} (h : ChangesFst F s x) : Changes F s x.1 := h

/-- The state of a pair that has been taken apart. -/
theorem Changes.of_eq {α : Type} {x : State × α} {a : α} (h : ChangesFst F s x) (e : x = (t, a)) : Changes F s t := by
  rw [e] at h
  exact h

theorem ChangesFst.ite {α : Type} {c : Prop} [Decidable c] {x y : State × α} (h : ChangesFst F s x) (h' : ChangesFst F s y) :
    ChangesFst F s (if c then x else y) := by
  split
  · exact h
  · exact h'

theorem Changes.thenFst {α : Type} {x : State × α} (h : Changes F s t) (h' : ChangesFst G t x)
    (hG : G ⊆ F := by refine List.Subset.trans ?_ (by assumption); decide) : ChangesFst F s x := h.trans (h'.mono hG)

theorem ChangesFst.within {α : Type} {x : State × α} (h : ∀ F, G ⊆ F → ChangesFst F s x) : ChangesFst G s x :=
  h G (List.Subset.refl G)

theorem ChangesFst.foldl {α β : Type} {f : State × α → β → State × α} {l : List β} {x : State × α} (h : ChangesFst F s x)
    (hf : ∀ y b, ChangesFst F y.1 (f y b)) : ChangesFst F s (l.foldl f x) := by
  induction l generalizing x with
  | nil => exact h
  | cons b l ih => exact ih (Changes.trans h (hf x b))

/-- The operation that a number picks from a list. -/
theorem ChangesFst.pick {α : Type} {l : List (State × α)} {n : Nat} {d : State × α} (hd : ChangesFst F s d)
    (h : l.Forall (ChangesFst F s)) : ChangesFst F s (l[n]?.getD d) := by
  cases e : l[n]? with
  | none => exact hd
  | some x => exact List.forall_iff_forall_mem.1 h x (List.mem_of_getElem? e)

/-- Commands: every next state that one answers. -/
def Leads (F : List Aspect) (s : State) (o : Out) : Prop := ∀ t, o = .next t → Changes F s t

theorem Leads.next (h : Changes F s t) : Leads F s (.next t) := by
  rintro u ⟨⟩
  exact h

theorem Leads.takes {b : Bool} {eff : State → State} (h : Changes F s (eff s)) : Leads F s (takes b s eff) := by
  intro t ht
  obtain ⟨-, rfl⟩ | ⟨-, rfl⟩ := takes_cases b s t eff ht
  · exact h
  · exact .refl

theorem Leads.ite {c : Prop} [Decidable c] {o o' : Out} (h : Leads F s o) (h' : Leads F s o') : Leads F s (if c then o else o') := by
  split
  · exact h
  · exact h'

theorem Leads.within {o : Out} (h : ∀ F, G ⊆ F → Leads F s o) : Leads G s o := h G (List.Subset.refl G)

theorem Leads.by {o : Out} (h : Leads G s o)
    (hG : G ⊆ F := by refine List.Subset.trans ?_ (by assumption); decide) : Leads F s o := fun t ht => (h t ht).mono hG
end

/-! ### The named updates -/

section
variable (s : State)

/-- An update that leaves every aspect but one. -/
theorem changes_of_ne {t : State} {x : Aspect} (hp : t.pending = s.pending) (hm : s.Canonical → t.Canonical)
    (h : ∀ a, a ≠ x → a.Same s t) : Changes [x] s t := ⟨hp, hm, fun a ha => h a (by simpa using ha)⟩

theorem State.changes_now (v : Nat) : Changes [.now] s { s with now := v } :=
  changes_of_ne s rfl id (fun a ha => by cases a <;> first | exact absurd rfl ha | exact rfl | exact fun _ => .refl _ _ | exact fun _ _ => rfl)
theorem State.changes_doms (v : SMap (List Byte)) : Changes [.doms] s { s with doms := v } :=
  changes_of_ne s rfl id (fun a ha => by cases a <;> first | exact absurd rfl ha | exact rfl | exact fun _ => .refl _ _ | exact fun _ _ => rfl)
theorem State.changes_poisonLog (v : SMap (List Nat)) : Changes [.poisonLog] s { s with poisonLog := v } :=
  changes_of_ne s rfl id (fun a ha => by cases a <;> first | exact absurd rfl ha | exact rfl | exact fun _ => .refl _ _ | exact fun _ _ => rfl)
theorem State.changes_cxlPoison (v : List Nat) : Changes [.cxlPoison] s { s with cxlPoison := v } :=
  changes_of_ne s rfl id (fun a ha => by cases a <;> first | exact absurd rfl ha | exact rfl | exact fun _ => .refl _ _ | exact fun _ _ => rfl)
theorem State.changes_badPages (v : List (Nat × Nat)) : Changes [.badPages] s { s with badPages := v } :=
  changes_of_ne s rfl id (fun a ha => by cases a <;> first | exact absurd rfl ha | exact rfl | exact fun _ => .refl _ _ | exact fun _ _ => rfl)
theorem State.changes_res (v : SMap (BitVec 256)) : Changes [.res] s { s with res := v } :=
  changes_of_ne s rfl id (fun a ha => by cases a <;> first | exact absurd rfl ha | exact rfl | exact fun _ => .refl _ _ | exact fun _ _ => rfl)
theorem State.changes_resAt (v : SMap Nat) : Changes [.resAt] s { s with resAt := v } :=
  changes_of_ne s rfl id (fun a ha => by cases a <;> first | exact absurd rfl ha | exact rfl | exact fun _ => .refl _ _ | exact fun _ _ => rfl)
theorem State.changes_resChanged (v : List Nat) : Changes [.resChanged] s { s with resChanged := v } :=
  changes_of_ne s rfl id (fun a ha => by cases a <;> first | exact absurd rfl ha | exact rfl | exact fun _ => .refl _ _ | exact fun _ _ => rfl)
theorem State.changes_streams (v : SMap (BitVec 1024)) : Changes [.streams] s { s with streams := v } :=
  changes_of_ne s rfl id (fun a ha => by cases a <;> first | exact absurd rfl ha | exact rfl | exact fun _ => .refl _ _ | exact fun _ _ => rfl)
theorem State.changes_streamPending (v : SMap (BitVec 1024)) : Changes [.streamPending] s { s with streamPending := v } :=
  changes_of_ne s rfl id (fun a ha => by cases a <;> first | exact absurd rfl ha | exact rfl | exact fun _ => .refl _ _ | exact fun _ _ => rfl)
theorem State.changes_streamAt (v : SMap Nat) : Changes [.streamAt] s { s with streamAt := v } :=
  changes_of_ne s rfl id (fun a ha => by cases a <;> first | exact absurd rfl ha | exact rfl | exact fun _ => .refl _ _ | exact fun _ _ => rfl)
theorem State.changes_slots (v : SMap (BitVec 1024)) : Changes [.slots] s { s with slots := v } :=
  changes_of_ne s rfl id (fun a ha => by cases a <;> first | exact absurd rfl ha | exact rfl | exact fun _ => .refl _ _ | exact fun _ _ => rfl)
theorem State.changes_pages (v : SMap (BitVec 128)) : Changes [.pages] s { s with pages := v } :=
  changes_of_ne s rfl id (fun a ha => by cases a <;> first | exact absurd rfl ha | exact rfl | exact fun _ => .refl _ _ | exact fun _ _ => rfl)
theorem State.changes_prefixes (v : SMap (BitVec 256)) : Changes [.prefixes] s { s with prefixes := v } :=
  changes_of_ne s rfl id (fun a ha => by cases a <;> first | exact absurd rfl ha | exact rfl | exact fun _ => .refl _ _ | exact fun _ _ => rfl)
theorem State.changes_queues (v : SMap (SMap QByte)) : Changes [.queues] s { s with queues := v } :=
  changes_of_ne s rfl id (fun a ha => by cases a <;> first | exact absurd rfl ha | exact rfl | exact fun _ => .refl _ _ | exact fun _ _ => rfl)
theorem State.changes_upSince (v : SMap Nat) : Changes [.upSince] s { s with upSince := v } :=
  changes_of_ne s rfl id (fun a ha => by cases a <;> first | exact absurd rfl ha | exact rfl | exact fun _ => .refl _ _ | exact fun _ _ => rfl)
theorem State.changes_pauseEnd (v : SMap Nat) : Changes [.pauseEnd] s { s with pauseEnd := v } :=
  changes_of_ne s rfl id (fun a ha => by cases a <;> first | exact absurd rfl ha | exact rfl | exact fun _ => .refl _ _ | exact fun _ _ => rfl)
theorem State.changes_pauseFrom (v : SMap Nat) : Changes [.pauseFrom] s { s with pauseFrom := v } :=
  changes_of_ne s rfl id (fun a ha => by cases a <;> first | exact absurd rfl ha | exact rfl | exact fun _ => .refl _ _ | exact fun _ _ => rfl)
theorem State.changes_hostPause (v : Bool) : Changes [.hostPause] s { s with hostPause := v } :=
  changes_of_ne s rfl id (fun a ha => by cases a <;> first | exact absurd rfl ha | exact rfl | exact fun _ => .refl _ _ | exact fun _ _ => rfl)
theorem State.changes_lpiEnd (v : SMap Nat) : Changes [.lpiEnd] s { s with lpiEnd := v } :=
  changes_of_ne s rfl id (fun a ha => by cases a <;> first | exact absurd rfl ha | exact rfl | exact fun _ => .refl _ _ | exact fun _ _ => rfl)
theorem State.changes_filters (v : SMap (BitVec 128)) : Changes [.filters] s { s with filters := v } :=
  changes_of_ne s rfl id (fun a ha => by cases a <;> first | exact absurd rfl ha | exact rfl | exact fun _ => .refl _ _ | exact fun _ _ => rfl)
theorem State.changes_goodSyncs (v : Nat) : Changes [.goodSyncs] s { s with goodSyncs := v } :=
  changes_of_ne s rfl id (fun a ha => by cases a <;> first | exact absurd rfl ha | exact rfl | exact fun _ => .refl _ _ | exact fun _ _ => rfl)
theorem State.changes_badSyncs (v : Nat) : Changes [.badSyncs] s { s with badSyncs := v } :=
  changes_of_ne s rfl id (fun a ha => by cases a <;> first | exact absurd rfl ha | exact rfl | exact fun _ => .refl _ _ | exact fun _ _ => rfl)
theorem State.changes_holdFrom (v : Nat) : Changes [.holdFrom] s { s with holdFrom := v } :=
  changes_of_ne s rfl id (fun a ha => by cases a <;> first | exact absurd rfl ha | exact rfl | exact fun _ => .refl _ _ | exact fun _ _ => rfl)
theorem State.changes_announceAt (v : Nat) : Changes [.announceAt] s { s with announceAt := v } :=
  changes_of_ne s rfl id (fun a ha => by cases a <;> first | exact absurd rfl ha | exact rfl | exact fun _ => .refl _ _ | exact fun _ _ => rfl)
theorem State.changes_ppsHigh (v : Nat) : Changes [.ppsHigh] s { s with ppsHigh := v } :=
  changes_of_ne s rfl id (fun a ha => by cases a <;> first | exact absurd rfl ha | exact rfl | exact fun _ => .refl _ _ | exact fun _ _ => rfl)
theorem State.changes_qps (v : SMap Qp) : Changes [.qps] s { s with qps := v } :=
  changes_of_ne s rfl id (fun a ha => by cases a <;> first | exact absurd rfl ha | exact rfl | exact fun _ => .refl _ _ | exact fun _ _ => rfl)
theorem State.changes_regions (v : SMap RdmaRegion) : Changes [.regions] s { s with regions := v } :=
  changes_of_ne s rfl id (fun a ha => by cases a <;> first | exact absurd rfl ha | exact rfl | exact fun _ => .refl _ _ | exact fun _ _ => rfl)
theorem State.changes_rkeys (v : Nat) : Changes [.rkeys] s { s with rkeys := v } :=
  changes_of_ne s rfl id (fun a ha => by cases a <;> first | exact absurd rfl ha | exact rfl | exact fun _ => .refl _ _ | exact fun _ _ => rfl)
theorem State.changes_histUsed (v : List Nat) : Changes [.histUsed] s { s with histUsed := v } :=
  changes_of_ne s rfl id (fun a ha => by cases a <;> first | exact absurd rfl ha | exact rfl | exact fun _ => .refl _ _ | exact fun _ _ => rfl)
theorem State.changes_helloTold (v : Nat) : Changes [.helloTold] s { s with helloTold := v } :=
  changes_of_ne s rfl id (fun a ha => by cases a <;> first | exact absurd rfl ha | exact rfl | exact fun _ => .refl _ _ | exact fun _ _ => rfl)
theorem State.changes_peerCaps (v : SMap Nat) : Changes [.peerCaps] s { s with peerCaps := v } :=
  changes_of_ne s rfl id (fun a ha => by cases a <;> first | exact absurd rfl ha | exact rfl | exact fun _ => .refl _ _ | exact fun _ _ => rfl)
theorem State.changes_peerWake (v : SMap Nat) : Changes [.peerWake] s { s with peerWake := v } :=
  changes_of_ne s rfl id (fun a ha => by cases a <;> first | exact absurd rfl ha | exact rfl | exact fun _ => .refl _ _ | exact fun _ _ => rfl)
theorem State.changes_relays (v : SMap (List (FrameInfo × FabricHeader × List Byte))) : Changes [.relays] s { s with relays := v } :=
  changes_of_ne s rfl id (fun a ha => by cases a <;> first | exact absurd rfl ha | exact rfl | exact fun _ => .refl _ _ | exact fun _ _ => rfl)
theorem State.changes_txq (v : SMap (List TxItem)) : Changes [.txq] s { s with txq := v } :=
  changes_of_ne s rfl id (fun a ha => by cases a <;> first | exact absurd rfl ha | exact rfl | exact fun _ => .refl _ _ | exact fun _ _ => rfl)
theorem State.changes_txFree (v : SMap Nat) : Changes [.txFree] s { s with txFree := v } :=
  changes_of_ne s rfl id (fun a ha => by cases a <;> first | exact absurd rfl ha | exact rfl | exact fun _ => .refl _ _ | exact fun _ _ => rfl)
theorem State.changes_refs (v : SMap RefSlot) : Changes [.refs] s { s with refs := v } :=
  changes_of_ne s rfl id (fun a ha => by cases a <;> first | exact absurd rfl ha | exact rfl | exact fun _ => .refl _ _ | exact fun _ _ => rfl)
theorem State.changes_cxlSris (v : Nat) : Changes [.cxlSris] s { s with cxlSris := v } :=
  changes_of_ne s rfl id (fun a ha => by cases a <;> first | exact absurd rfl ha | exact rfl | exact fun _ => .refl _ _ | exact fun _ _ => rfl)
theorem State.changes_trainTemp (v : SMap Word) : Changes [.trainTemp] s { s with trainTemp := v } :=
  changes_of_ne s rfl id (fun a ha => by cases a <;> first | exact absurd rfl ha | exact rfl | exact fun _ => .refl _ _ | exact fun _ _ => rfl)
theorem State.changes_advised (v : Nat) : Changes [.advised] s { s with advised := v } :=
  changes_of_ne s rfl id (fun a ha => by cases a <;> first | exact absurd rfl ha | exact rfl | exact fun _ => .refl _ _ | exact fun _ _ => rfl)
theorem State.changes_open_ (v : SMap Nat) : Changes [.open_] s { s with open_ := v } :=
  changes_of_ne s rfl id (fun a ha => by cases a <;> first | exact absurd rfl ha | exact rfl | exact fun _ => .refl _ _ | exact fun _ _ => rfl)
theorem State.changes_closed (v : SMap Nat) : Changes [.closed] s { s with closed := v } :=
  changes_of_ne s rfl id (fun a ha => by cases a <;> first | exact absurd rfl ha | exact rfl | exact fun _ => .refl _ _ | exact fun _ _ => rfl)
theorem State.changes_totals (v : SMap Nat) : Changes [.totals] s { s with totals := v } :=
  changes_of_ne s rfl id (fun a ha => by cases a <;> first | exact absurd rfl ha | exact rfl | exact fun _ => .refl _ _ | exact fun _ _ => rfl)
theorem State.changes_draws (v : Nat) : Changes [.draws] s { s with draws := v } :=
  changes_of_ne s rfl id (fun a ha => by cases a <;> first | exact absurd rfl ha | exact rfl | exact fun _ => .refl _ _ | exact fun _ _ => rfl)
theorem State.changes_out (v : List Sent) : Changes [.out] s { s with out := v } :=
  changes_of_ne s rfl id (fun a ha => by cases a <;> first | exact absurd rfl ha | exact rfl | exact fun _ => .refl _ _ | exact fun _ _ => rfl)
theorem State.changes_checks (v : List (Nat × Nat × Nat)) : Changes [.checks] s { s with checks := v } :=
  changes_of_ne s rfl id (fun a ha => by cases a <;> first | exact absurd rfl ha | exact rfl | exact fun _ => .refl _ _ | exact fun _ _ => rfl)
theorem State.changes_power (v : Power) : Changes [.power] s { s with power := v } :=
  changes_of_ne s rfl id (fun a ha => by cases a <;> first | exact absurd rfl ha | exact rfl | exact fun _ => .refl _ _ | exact fun _ _ => rfl)
theorem State.changes_mram (v : Mram) : Changes [.mram] s { s with mram := v } :=
  changes_of_ne s rfl id (fun a ha => by cases a <;> first | exact absurd rfl ha | exact rfl | exact fun _ => .refl _ _ | exact fun _ _ => rfl)
theorem State.changes_boot (v : Boot) : Changes [.boot] s { s with boot := v } :=
  changes_of_ne s rfl id (fun a ha => by cases a <;> first | exact absurd rfl ha | exact rfl | exact fun _ => .refl _ _ | exact fun _ _ => rfl)
theorem State.changes_fwRun (v : Option FwRun) : Changes [.fwRun] s { s with fwRun := v } :=
  changes_of_ne s rfl id (fun a ha => by cases a <;> first | exact absurd rfl ha | exact rfl | exact fun _ => .refl _ _ | exact fun _ _ => rfl)
theorem State.changes_actRun (v : Option (Nat × Nat)) : Changes [.actRun] s { s with actRun := v } :=
  changes_of_ne s rfl id (fun a ha => by cases a <;> first | exact absurd rfl ha | exact rfl | exact fun _ => .refl _ _ | exact fun _ _ => rfl)
theorem State.changes_refLoad (v : Option RefLoad) : Changes [.refLoad] s { s with refLoad := v } :=
  changes_of_ne s rfl id (fun a ha => by cases a <;> first | exact absurd rfl ha | exact rfl | exact fun _ => .refl _ _ | exact fun _ _ => rfl)
theorem State.changes_refErase (v : Option Nat) : Changes [.refErase] s { s with refErase := v } :=
  changes_of_ne s rfl id (fun a ha => by cases a <;> first | exact absurd rfl ha | exact rfl | exact fun _ => .refl _ _ | exact fun _ _ => rfl)
theorem State.changes_throttle (v : Throttle) : Changes [.throttle] s { s with throttle := v } :=
  changes_of_ne s rfl id (fun a ha => by cases a <;> first | exact absurd rfl ha | exact rfl | exact fun _ => .refl _ _ | exact fun _ _ => rfl)
theorem State.changes_withheldFrom (v : Nat) : Changes [.withheldFrom] s { s with withheldFrom := v } :=
  changes_of_ne s rfl id (fun a ha => by cases a <;> first | exact absurd rfl ha | exact rfl | exact fun _ => .refl _ _ | exact fun _ _ => rfl)

/-- The registers are written as a whole. -/
theorem State.changes_regs (v : SMap Word) : Changes [.regs, .regsButJenjo, .regsButStreams] s { s with regs := v } :=
  ⟨rfl, id, fun a ha => by cases a <;> first | exact absurd (by decide) ha | exact rfl | exact fun _ => .refl _ _⟩

theorem State.changes_sessions (v : List Session) : Changes [.sessions, .rights] s { s with sessions := v } :=
  ⟨rfl, id, fun a ha => by cases a <;> first | exact absurd (by decide) ha | exact rfl | exact fun _ => .refl _ _ | exact fun _ _ => rfl⟩

/-- Sessions are updated, and stay whose they are. -/
theorem State.changes_sessions_rights {v : List Session} (h : v.map Session.rights = s.sessions.map Session.rights) :
    Changes [.sessions] s { s with sessions := v } :=
  changes_of_ne s rfl id (fun a ha => by cases a <;> first | exact absurd rfl ha | exact h | exact rfl | exact fun _ => .refl _ _ | exact fun _ _ => rfl)

theorem State.changes_mem {v : List Host.Cell} (h : s.Canonical → Memory.wf v) : Changes [.mem] s { s with mem := v } :=
  changes_of_ne s rfl h (fun a ha => by cases a <;> first | exact absurd rfl ha | exact rfl | exact fun _ => .refl _ _ | exact fun _ _ => rfl)

theorem State.changes_at (t : Nat) : Changes [.now] s (s.at t) := s.changes_now _

end

end Sys2Proof.Machine

namespace Sys2Proof.Machine
open Sys2Proof

-- Short theorems, many of them: one after another, so that the threads' stacks stay within the check's memory.
set_option Elab.async false

/-! ### Footprints of the shared operations -/

section
variable {F : List Aspect} (s : State)

/-- An update of partitions keeps what it keeps of each. -/
theorem State.changes_modPt (p : Nat) {f : Part → Part} (G : List PartAspect)
    (h : ∀ a, a ∉ G → a.Same (s.pt p) (f (s.pt p)) := by
      intro a ha
      cases a <;> first | exact rfl | exact Option.isSome_map | exact absurd (by decide) ha | (dsimp only [PartAspect.Same]; split <;> rfl)) :
    Changes (.parts :: G.map .part) s (s.modPt p f) := by
  refine ⟨rfl, id, fun a ha => ?_⟩
  cases a
  case parts => simp at ha
  case part a =>
    intro q
    have hG : a ∉ G := fun hg => ha (List.mem_cons_of_mem _ (List.mem_map_of_mem hg))
    by_cases hq : q = p
    · subst hq
      by_cases hp : q < 12
      · rw [State.pt_modPt_self s hp]
        exact h a hG
      · rw [show (s.modPt q f).pt q = s.pt q by simp [State.modPt, State.pt, hp]]
        exact .refl _ _
    · rw [State.pt_modPt_ne s hq]
      exact .refl _ _
  case cluster a => exact fun c => .refl _ _
  case regsButJenjo => exact fun _ _ => rfl
  case regsButStreams => exact fun _ _ => rfl
  all_goals exact rfl

/-- An update of clusters keeps what it keeps of each. -/
theorem State.changes_modCl (c : Nat) {f : Cluster → Cluster} (G : List ClusterAspect)
    (h : ∀ a, a ∉ G → a.Same (s.cl c) (f (s.cl c)) := by
      intro a ha
      cases a <;> first | exact rfl | exact ⟨rfl, rfl, rfl⟩ | exact absurd (by decide) ha |
        (dsimp only [ClusterAspect.Same]; split <;> simp)) :
    Changes (.clusters :: G.map .cluster) s (s.modCl c f) := by
  refine ⟨rfl, id, fun a ha => ?_⟩
  cases a
  case clusters => simp at ha
  case cluster a =>
    intro d
    have hG : a ∉ G := fun hg => ha (List.mem_cons_of_mem _ (List.mem_map_of_mem hg))
    by_cases hd : d = c
    · subst hd
      by_cases hc : d < 48
      · rw [State.cl_modCl_self s hc]
        exact h a hG
      · rw [show (s.modCl d f).cl d = s.cl d by simp [State.modCl, State.cl, hc]]
        exact .refl _ _
    · rw [State.cl_modCl_ne s hd]
      exact .refl _ _
  case part a => exact fun p => .refl _ _
  case regsButJenjo => exact fun _ _ => rfl
  case regsButStreams => exact fun _ _ => rfl
  all_goals exact rfl

theorem State.changes_setRg (key v : Nat) : Changes [.regs, .regsButJenjo, .regsButStreams] s (s.setRg key v) := s.changes_regs _

/-- The registers outside a list that holds the written one are as before. -/
theorem State.sameRegsBut_setRg {keys : List Nat} {key : Nat} (h : key ∈ keys) (v : Nat) : SameRegsBut keys s (s.setRg key v) :=
  fun _ hk => s.rg_setRg_ne v (fun e => hk (e ▸ h))

/-- A write of a counter of Jenjo. -/
theorem State.changes_setRg_jenjo {key : Nat} (v : Nat) (h : key ∈ [Obj.JENJO_AUTH_FAIL, Obj.JENJO_MALFORMED] := by decide) :
    Changes [.regs, .regsButStreams] s (s.setRg key v) :=
  ⟨rfl, id, fun a ha => by
    by_cases e : a = .regsButJenjo
    · exact e ▸ s.sameRegsBut_setRg h v
    · exact (s.changes_setRg key v).same a (by simpa [e] using ha)⟩

/-- A write of STREAMS_ENABLED. -/
theorem State.changes_setRg_streams (v : Nat) : Changes [.regs, .regsButJenjo] s (s.setRg Obj.STREAMS_ENABLED v) :=
  ⟨rfl, id, fun a ha => by
    by_cases e : a = .regsButStreams
    · exact e ▸ s.sameRegsBut_setRg (by simp) v
    · exact (s.changes_setRg Obj.STREAMS_ENABLED v).same a (by simpa [e] using ha)⟩

theorem State.changes_incRg (key n : Nat) : Changes [.regs, .regsButJenjo, .regsButStreams] s (s.incRg key n) := s.changes_setRg _ _

theorem State.changes_incRg_jenjo {key : Nat} (n : Nat) (h : key ∈ [Obj.JENJO_AUTH_FAIL, Obj.JENJO_MALFORMED] := by decide) :
    Changes [.regs, .regsButStreams] s (s.incRg key n) := s.changes_setRg_jenjo _ h

theorem State.changes_setDom (key : Nat) (v : List Byte) : Changes [.doms] s (s.setDom key v) := s.changes_doms _

theorem State.changes_emit (x : Sent) : Changes [.out] s (s.emit x) := s.changes_out _

theorem State.changes_count (p kind num w n : Nat) : Changes [.open_] s (s.count p kind num w n) := s.changes_open_ _

theorem State.changes_draw : Changes [.draws] s s.draw.2 := s.changes_draws _

/-- A free value drawn by an operation that goes on with the state after it. -/
theorem Changes.draw {s t u : State} {k : Nat} (h : Changes F s t) (e : t.draw = (k, u))
    (hG : [.draws] ⊆ F := by refine List.Subset.trans ?_ (by assumption); decide) : Changes F s u := by
  have : t.draw.2 = u := by rw [e]
  exact this ▸ h.then t.changes_draw hG

theorem Session.rights_push (x : Session) (now : Nat) (e : Event) : (x.push now e).1.rights = x.rights := by
  unfold Session.push
  extract_lets full q lost l
  split <;> rfl

/-- An event leaves the sessions whose they are. -/
theorem rights_notifyAll (now : Nat) (e : Event) (l : List Session) :
    (notifyAll now e l).1.map Session.rights = l.map Session.rights := by
  induction l with
  | nil => rfl
  | cons x l ih =>
    unfold notifyAll
    dsimp only
    split
    · simp [ih, Session.rights_push]
    · simp [ih]

theorem State.changes_notify (code part a b : Nat) : Changes [.sessions, .out] s (s.notify code part a b) := by
  refine .within fun F hF => ?_
  unfold State.notify
  extract_lets tick
  exact (Changes.by (s.changes_sessions_rights (rights_notifyAll _ _ _))).then (State.changes_out { s with sessions := _ } _)

/-- One session updated. -/
theorem State.changes_modSession (id : Nat) (f : Session → Session) : Changes [.sessions, .rights] s (s.modSession id f) :=
  s.changes_sessions _

/-- One session updated that stays whose it is. -/
theorem State.changes_modSession_rights (id : Nat) {f : Session → Session}
    (h : ∀ x : Session, (f x).rights = x.rights := by exact fun _ => rfl) : Changes [.sessions] s (s.modSession id f) := by
  refine s.changes_sessions_rights ?_
  rw [List.map_map]
  refine List.map_congr_left fun x _ => ?_
  show Session.rights (if x.id == id then f x else x) = x.rights
  split
  · exact h x
  · rfl

theorem State.changes_memPut (a : Nat) (bs : List Byte) : Changes [.mem] s (s.memPut a bs) :=
  s.changes_mem (fun h => s.memPut_canonical a bs h)

end

end Sys2Proof.Machine

/-! ## What a RUN of a Nap engine touches of its cluster

The program of a RUN stores to batt memory and writes T registers; everything else of the cluster stays. -/

namespace Sys2Proof.Machine
open Sys2Proof

-- Short theorems, many of them: one after another, so that the threads' stacks stay within the check's memory.
set_option Elab.async false

/-- Two clusters that differ in batt memory and in the T registers at most. -/
structure Cluster.StoresOnly (x y : Cluster) : Prop where
  same : ∀ a : ClusterAspect, a ≠ .batt → a ≠ .napRegs → a.Same x y

namespace Cluster.StoresOnly

theorem refl (x : Cluster) : x.StoresOnly x := ⟨fun a _ _ => .refl a x⟩

theorem trans {x y z : Cluster} (h : x.StoresOnly y) (h' : y.StoresOnly z) : x.StoresOnly z :=
  ⟨fun a hb hr => (h.same a hb hr).trans (h'.same a hb hr)⟩

theorem ite {c : Prop} [Decidable c] {x y z : Cluster} (h : x.StoresOnly y) (h' : x.StoresOnly z) :
    x.StoresOnly (if c then y else z) := by
  split
  · exact h
  · exact h'

theorem foldl {α : Type} {f : Cluster → α → Cluster} (l : List α) {x y : Cluster} (h : x.StoresOnly y)
    (hf : ∀ (z : Cluster) (b : α), z.StoresOnly (f z b)) : x.StoresOnly (l.foldl f y) :=
  List.foldlRecOn (motive := x.StoresOnly) l f h fun z hz b _ => hz.trans (hf z b)

theorem battAndCap (x : Cluster) (b : SMap (Byte × Bool)) (m : SMap (BitVec 32 × Nat)) :
    x.StoresOnly { x with batt := b, cap := m } := by
  refine ⟨fun a hb _ => ?_⟩
  cases a <;> first | exact rfl | exact ⟨rfl, rfl, rfl⟩ | exact absurd rfl hb

theorem before (x : Cluster) (cy : Nat) : x.StoresOnly (x.before cy) := battAndCap x _ x.cap

theorem battStore (x : Cluster) (a : Nat) (bs : List Byte) : x.StoresOnly (x.battStore a bs) := battAndCap x _ _

theorem battWrite (x : Cluster) (a : Nat) (bs : List (Byte × Bool)) : x.StoresOnly (x.battWrite a bs) := battAndCap x _ _

theorem putBits (x : Cluster) (ws : List (Nat × Nat × Nat × Bool)) : x.StoresOnly (x.putBits ws) :=
  foldl _ (foldl _ (refl x) fun z _ => battStore z _ _) fun z _ => ite (battWrite z _ _) (refl z)

theorem takeSpans (x y : Cluster) (spans : List (Nat × Nat)) : x.StoresOnly (x.takeSpans y spans) :=
  foldl _ (refl x) fun z _ => battAndCap z _ _

theorem captured (x : NapCtx) (cl : Cluster) (k : Nat) (st : NStream) (ws : List (Nat × Nat)) :
    cl.StoresOnly (x.captured cl k st ws) :=
  ite (battAndCap cl cl.batt _) (refl cl)

theorem writeT (x : NapCtx) (cl : Cluster) (r : Nat) (vs : List (NVal × Bool)) : cl.StoresOnly (x.writeT cl r vs) := by
  refine ⟨fun a _ hr => ?_⟩
  cases a <;> first | exact rfl | exact ⟨rfl, rfl, rfl⟩ | exact absurd rfl hr

end Cluster.StoresOnly

/-- The cluster of an accumulated RUN has only been stored to. -/
def NAcc.Stores (a b : NAcc) : Prop := a.cl.StoresOnly b.cl

namespace NAcc.Stores
variable (x : NapCtx)

theorem refl (a : NAcc) : a.Stores a := Cluster.StoresOnly.refl a.cl

theorem trans {a b c : NAcc} (h : a.Stores b) (h' : b.Stores c) : a.Stores c := Cluster.StoresOnly.trans h h'

theorem ite {p : Prop} [Decidable p] {a b c : NAcc} (h : a.Stores b) (h' : a.Stores c) : a.Stores (if p then b else c) := by
  split
  · exact h
  · exact h'

theorem foldl {α : Type} {f : NAcc → α → NAcc} (l : List α) {a b : NAcc} (h : a.Stores b) (hf : ∀ (c : NAcc) (y : α), c.Stores (f c y)) :
    a.Stores (l.foldl f b) :=
  List.foldlRecOn (motive := a.Stores) l f h fun c hc y _ => hc.trans (hf c y)

theorem flush (a : NAcc) (b : NBlock) : a.Stores (x.flush a b) := by
  unfold NapCtx.flush
  split
  · exact .refl a
  · exact ((Cluster.StoresOnly.putBits _ _).trans (.battWrite _ _ _)).trans (.captured _ _ _ _ _)

theorem store (a : NAcc) (opk k t : Nat) (st : NStream) (v : LaneTile) (mask : List (Bool × Bool)) :
    a.Stores (x.store a opk k t st v mask) := by
  unfold NapCtx.store
  extract_lets items out b sc scBad outs pz cl cl2
  have hb : a.Stores b := ite (Cluster.StoresOnly.battWrite _ _ _) (.refl a)
  refine ite ?_ ?_
  · exact foldl _ hb fun c it => .refl c
  · have hcl : a.cl.StoresOnly cl := (Cluster.StoresOnly.trans hb (.putBits _ _)).trans (.captured _ _ _ _ _)
    exact Cluster.StoresOnly.ite (.foldl _ hcl fun z h => .battStore z _ _) hcl

theorem dest (a : NAcc) (dst : Nat) (v : LaneTile) : a.Stores (x.dest a dst v) :=
  ite (.refl a) (ite (Cluster.StoresOnly.writeT _ _ _ _) (.refl a))

theorem dest_cv (a : NAcc) (n dst : Nat) (v : LaneTile) : a.Stores (x.dest { a with cv := n } dst v) :=
  dest x { a with cv := n } dst v

theorem gather (a : NAcc) (k t : Nat) (v : LaneTile) (mask : List (Bool × Bool)) (posn : List (NVal × Bool)) :
    a.Stores (x.gather a k t v mask posn) := .refl a

theorem took (a : NAcc) (l : Loaded) : a.Stores (a.took l) := .refl a

theorem oper (stop : Option Nat) (t : Nat) (a : NAcc) (ko : Nat × NOp) : a.Stores (x.oper stop t a ko) := by
  obtain ⟨k, o⟩ := ko
  unfold NapCtx.oper
  refine ite (.refl a) ?_
  extract_lets la useB useC lb lc acc mask n rs b w
  have hacc : ∀ c : NAcc, c.Stores (acc c) := fun c =>
    ite (ite (((took c la).trans (took _ lb)).trans (took _ lc)) ((took c la).trans (took _ lc)))
      (ite ((took c la).trans (took _ lb)) (took c la))
  refine ite ((hacc a).trans (gather x ..)) (ite ((hacc a).trans (dest_cv x ..)) (ite ?_ (ite (.refl a) (ite ?_ ?_))))
  · split
    exact (hacc a).trans (dest x ..)
  · split
    · exact (hacc a).trans (store x ..)
    · exact .refl a
  · exact ite ((hacc a).trans (gather x ..)) (ite (hacc a) (hacc a))

theorem iteration (stop : Option Nat) (a : NAcc) (t : Nat) : a.Stores (x.iteration stop a t) := by
  unfold NapCtx.iteration
  extract_lets b
  have hb : a.Stores b := foldl _ (.refl a) fun c ko => oper x stop t c ko
  split
  exact foldl _ hb fun c kv => flush x c kv.2

theorem storeTopk (a : NAcc) (k t0 i : Nat) (o : NOp) (row : List (Option XVal × Bool × Nat)) :
    a.Stores (x.storeTopk a k t0 i o row) := by
  unfold NapCtx.storeTopk
  extract_lets present pz best vals8 put b c
  have hput : ∀ (d : NAcc) (code : Nat) (vals : List NVal), d.Stores (put d code vals) := by
    intro d code vals
    unfold put
    split
    · exact .refl d
    · exact ite (foldl _ (.refl d) fun e q => flush x e _) (Cluster.StoresOnly.putBits _ _)
  exact (hput a _ _).trans (hput b _ _)

theorem rowDone (a : NAcc) (t : Nat) : a.Stores (x.rowDone a t) := by
  refine foldl _ (.refl a) fun b ko => foldl _ (.refl b) fun c i => ?_
  exact ite (.refl c) (ite (.refl c) (ite (storeTopk x ..) (.refl c)))

theorem softPasses (a : NAcc) (t : Nat) : a.Stores (x.softPasses a t) :=
  foldl _ (.refl a) fun b _ => ite (.refl b) (foldl _ (.refl b) fun c _ => .refl c)

theorem runs (n : Nat) (a : NAcc) : a.Stores (x.runs n a) := by
  refine foldl _ (.refl a) fun b t => ?_
  have hs : b.Stores (if t % x.prog.rowTiles = 0 && x.prog.has 0x3F then x.softPasses b t else b) :=
    ite (softPasses x ..) (.refl b)
  have hi := hs.trans (iteration x none _ t)
  exact ite (hi.trans (rowDone x ..)) hi

end NAcc.Stores

end Sys2Proof.Machine

/-! ## What the operations of the engines change

Named operations, arrays, residency, accesses, bursts, the Nap engine and the crown core. -/

namespace Sys2Proof.Machine
open Sys2Proof

-- Short theorems, many of them: one after another, so that the threads' stacks stay within the check's memory.
set_option Elab.async false

theorem State.changes_countC (s : State) (c kind num w n : Nat) :
    Changes [.open_] s (s.countC c kind num w n) := by
  refine .within fun F hF => ?_
  unfold State.countC
  split
  · exact .by (State.changes_count ..)
  · exact .refl

theorem State.changes_late (s : State) (p b : Nat) :
    Changes [.parts, .part .slice] s (s.late p b) :=
  State.changes_modPt _ _ [.slice]

theorem State.changes_lateC (s : State) (c : Nat) :
    Changes [.parts, .part .slice] s (s.lateC c) := by
  refine .within fun F hF => ?_
  unfold State.lateC
  split
  · exact .by (State.changes_late ..)
  · exact .refl

theorem State.changes_fails (s : State) (p b : Nat) :
    Changes [.parts, .part .slice] s (s.fails p b) :=
  State.changes_modPt _ _ [.slice]

theorem ClusterAspect.Same.foldl {a : ClusterAspect} {α : Type} {f : Cluster → α → Cluster} (l : List α) (x : Cluster)
    (hf : ∀ y b, a.Same y (f y b)) : a.Same x (l.foldl f x) :=
  List.foldlRecOn (motive := a.Same x) l f (.refl a x) fun y hy b _ => hy.trans (hf y b)

/-- The bytes that stay with a stronger port are batt memory's. -/
theorem Cluster.same_settleWrite (old new : Cluster) (cy : Nat) (port : BattPort) (ranges : List (Nat × Nat)) {a : ClusterAspect}
    (ha : a ≠ .batt) : a.Same new (old.settleWrite new cy port ranges).1 := by
  have kept := ClusterAspect.Same.foldl (a := a) (f := fun c b => c.keepByte old b)
    ((contested (old.writes.at cy) port ranges).filter (fun b => (portsAt (old.writes.at cy) b).any (fun g => g.beats port))) new
    (fun y b => by cases a <;> first | exact absurd rfl ha | exact rfl | exact ⟨rfl, rfl, rfl⟩)
  exact kept.trans (by cases a <;> first | exact rfl | exact ⟨rfl, rfl, rfl⟩)

theorem Cluster.same_refetch (x : Cluster) (cy : Nat) {a : ClusterAspect} (ha : a ≠ .napRun) : a.Same x (x.refetch cy) := by
  obtain ⟨r, h⟩ := x.refetch_eq cy
  rw [h]
  cases a <;> first | exact absurd rfl ha | exact rfl | exact ⟨rfl, rfl, rfl⟩

/-- The writes of a port change the cluster as the port alone leaves it, but for batt memory, and a RUN that is being fetched. -/
theorem State.changes_battWrites_of (s : State) (p c cy : Nat) (port : BattPort) {new : Cluster} (ranges : List (Nat × Nat))
    (G : List ClusterAspect) (h : ∀ a, a ∉ G → a.Same (s.cl c) new) :
    Changes (.open_ :: .clusters :: (.napRun :: .batt :: G).map .cluster) s (s.battWrites p c cy port new ranges) := by
  refine .within fun F hF => ?_
  have hc : Changes F s (s.modCl c fun _ => ((s.cl c).settleWrite new cy port ranges).1.refetch cy) :=
    (s.changes_modCl c (.napRun :: .batt :: G) fun a ha => by
      obtain ⟨hrun, hbatt, hG⟩ : a ≠ .napRun ∧ a ≠ .batt ∧ a ∉ G := by simpa using ha
      exact ((h a hG).trans (Cluster.same_settleWrite _ _ _ _ _ hbatt)).trans (Cluster.same_refetch _ _ hrun)).mono
      (fun a ha => hF (List.mem_cons_of_mem _ ha))
  unfold State.battWrites
  split
  next e =>
    rw [e] at hc
    exact .ite hc (hc.trans ((State.changes_count ..).mono fun a ha => hF (by simp_all)))

theorem State.changes_battWrites (s : State) (p c cy : Nat) (port : BattPort) (new : Cluster) (ranges : List (Nat × Nat)) :
    Changes [.open_, .clusters, .cluster .napRun, .cluster .batt, .cluster .crown, .cluster .arrays, .cluster .tiles,
      .cluster .napQueue, .cluster .napRegs] s (s.battWrites p c cy port new ranges) :=
  s.changes_battWrites_of p c cy port ranges [.crown, .arrays, .tiles, .napQueue, .napRegs, .napRun, .batt]
    (fun a ha => by cases a <;> exact absurd (by decide) ha) |>.mono (by decide)

theorem State.changes_battPut (s : State) (p c cy : Nat) (port : BattPort) (a : Nat) (bs : List (Byte × Bool)) :
    Changes [.open_, .clusters, .cluster .napRun, .cluster .batt] s (s.battPut p c cy port a bs) :=
  (s.changes_battWrites_of p c cy port _ [.batt] fun a ha => by
    cases a <;> first | exact absurd (by decide) ha | exact rfl | exact ⟨rfl, rfl, rfl⟩).mono (by decide)

theorem State.changes_logPoison (s : State) (a : Nat) :
    Changes [.regs, .regsButJenjo, .regsButStreams, .sessions, .out, .poisonLog] s (s.logPoison a) := by
  refine .within fun F hF => ?_
  unfold State.logPoison
  extract_lets d l u s1
  have h1 : Changes F s s1 := .then (.by (State.changes_setRg ..)) (State.changes_setRg ..)
  exact .ite .refl (.ite (.ite .refl (h1.then (State.changes_notify ..))) (.then (.by (State.changes_poisonLog _ _)) (State.changes_setRg ..)))

theorem State.changes_clearPoison (s : State) (a : Nat) :
    Changes [.poisonLog, .regs, .regsButJenjo, .regsButStreams] s (s.clearPoison a) := by
  refine .within fun F hF => ?_
  unfold State.clearPoison
  extract_lets d l
  exact .ite (.then (.by (State.changes_poisonLog _ _)) (State.changes_setRg ..)) .refl

theorem State.changes_unitWritten (s : State) (u : Nat) (cov bad : Bool) :
    Changes [.regs, .regsButJenjo, .regsButStreams, .sessions, .out, .poisonLog, .cxlPoison] s (s.unitWritten u cov bad) := by
  refine .within fun F hF => ?_
  unfold State.unitWritten
  split
  · exact .ite (.by (State.changes_logPoison ..)) (.ite (.by (State.changes_clearPoison ..)) .refl)
  · exact .ite (.ite .refl (.by (State.changes_cxlPoison _ _))) (.ite (.by (State.changes_cxlPoison _ _)) .refl)
  · exact .refl

/-- A write of device bytes and the poison bookkeeping of the units it touches. -/
theorem State.changes_memWrite (s : State) (a : Nat) (bs : List (Byte × Bool)) :
    Changes [.mem, .regs, .regsButJenjo, .regsButStreams, .sessions, .out, .poisonLog, .cxlPoison] s (s.memWrite a bs) := by
  refine .within fun F hF => ?_
  have canonical : s.Canonical → Memory.wf (((List.range bs.length).zip bs).foldl
      (fun m ib => if s.writable (a + ib.1) then SMap.put 0 m (a + ib.1) ib.2.1 else m) s.mem) := fun h =>
    List.foldlRecOn _ _ h fun m hm ib _ => by
      split
      · exact SMap.wf_put 0 m _ _ hm
      · exact hm
  exact .foldl (.by (s.changes_mem canonical)) (fun _ _ => .by (State.changes_unitWritten ..))

theorem State.changes_putJob (s : State) (p j : Nat) (e : BitVec 1024) :
    Changes [.parts, .part .jobs, .mem] s (s.putJob p j e) := by
  refine .within fun F hF => ?_
  unfold State.putJob
  exact .then (.by (State.changes_modPt _ _ [.jobs])) (State.changes_memPut ..)

theorem State.changes_setJobF (s : State) (p j : Nat) (f : Fld) (v : Nat) :
    Changes [.parts, .part .jobs, .mem] s (s.setJobF p j f v) :=
  State.changes_putJob ..

theorem State.changes_raiseConv (s : State) (p cv : Nat) :
    Changes [.parts] s (s.raiseConv p cv) :=
  State.changes_modPt _ _ []

theorem State.changes_tileConflict (s : State) (c n cycle : Nat) :
    Changes [.clusters, .cluster .tiles, .cluster .napRun, .open_, .parts, .part .slice] s (s.tileConflict c n cycle) := by
  refine .within fun F hF => ?_
  unfold State.tileConflict
  exact .then (.then (.by (State.changes_modCl _ _ [.tiles, .napRun])) (State.changes_countC ..)) (State.changes_lateC ..)

theorem State.changes_startHead (s : State) (c a : Nat) (result : Cluster → ArrOp → Tile) :
    Changes [.clusters, .cluster .arrays, .open_, .parts, .part .slice, .now] s (s.startHead c a result) := by
  refine .within fun F hF => ?_
  unfold State.startHead
  split
  · extract_lets s1
    have h1 : Changes F s s1 := .by (State.changes_modCl _ _ [.arrays])
    split
    · extract_lets run s2 s3
      have h2 : Changes F s s2 := (h1.then (State.changes_count ..)).then (State.changes_count ..)
      have h3 : Changes F s s3 := h2.then (State.changes_modPt _ _ [.slice])
      exact h3.then (State.changes_at ..)
  · exact .refl

theorem State.changes_arrayParity (s : State) (c a : Nat) :
    Changes [.open_, .parts, .part .slice] s (s.arrayParity c a) := by
  refine .within fun F hF => ?_
  unfold State.arrayParity
  extract_lets s1
  have h1 : Changes F s s1 := .then (.by (State.changes_countC ..)) (State.changes_lateC ..)
  split
  · exact h1.then (State.changes_fails ..)
  · exact h1

theorem changes_execProduct (c : ClusterId) (a : ArrayId) (parity : Bool) (s : State) :
    Leads [.clusters, .cluster .arrays, .open_, .parts, .part .slice, .now] s (execProduct c a parity s) := by
  refine .within fun F hF => ?_
  unfold execProduct
  refine .takes ?_
  extract_lets cl
  split
  · extract_lets n hit s1
    have h1 : Changes F s s1 := .by (State.changes_startHead ..)
    exact .ite (h1.then (State.changes_arrayParity ..)) h1
  · exact .refl

theorem changes_execPreload (c : ClusterId) (a : ArrayId) (parity : Bool) (s : State) :
    Leads [.clusters, .cluster .arrays, .open_, .parts, .part .slice, .now] s (execPreload c a parity s) := by
  refine .within fun F hF => ?_
  unfold execPreload
  refine .takes ?_
  split
  · extract_lets n hit s1
    have h1 : Changes F s s1 := .by (State.changes_startHead ..)
    exact .ite (h1.then (State.changes_arrayParity ..)) h1
  · exact .refl

theorem changes_execIllegalDescriptor (c : ClusterId) (a : ArrayHead) (s : State) :
    Leads [.clusters, .cluster .arrays, .open_, .parts, .part .slice, .now] s (execIllegalDescriptor c a s) := by
  refine .within fun F hF => ?_
  unfold execIllegalDescriptor
  split
  · refine .takes ?_
    extract_lets s1
    have h1 : Changes F s s1 := .ite (.by (State.changes_modCl _ _ [.arrays])) .refl
    split
    · extract_lets n s2
      have h2 : Changes F s s2 := h1.then (State.changes_startHead ..)
      exact .ite (h2.then (State.changes_arrayParity ..)) h2
    · exact h1

theorem State.changes_gaugeCountTile (s : State) (p c : Nat) (t : Tile) (kind k cycle : Nat) :
    Changes [.parts, .regs, .regsButJenjo, .regsButStreams] s (s.gaugeCountTile p c t kind k cycle) := by
  refine .within fun F hF => ?_
  unfold State.gaugeCountTile
  extract_lets q n rate s1
  have h1 : Changes F s s1 := .by (State.changes_modPt _ _ [])
  exact .ite (.ite ((h1.then (State.changes_incRg ..)).then (State.changes_incRg ..)) (h1.then (State.changes_modPt _ _ []))) h1

theorem changes_execArrayComplete (c : ClusterId) (a : ArrayId) (s : State) :
    Leads [.clusters, .cluster .arrays, .cluster .tiles, .cluster .napRun, .now, .open_, .parts, .part .slice, .regs,
      .regsButJenjo, .regsButStreams] s (execArrayComplete c a s) := by
  refine .within fun F hF => ?_
  unfold execArrayComplete
  extract_lets ok
  refine .takes ?_
  split
  · extract_lets n old illegal __src t s1 s2 s3
    have h1 : Changes F s s1 := .by (State.changes_modCl _ _ [.arrays, .tiles, .napRun])
    have h2 : Changes F s s2 := h1.then (State.changes_at ..)
    have h3 : Changes F s s3 := .ite ((h2.then (State.changes_count ..)).then (State.changes_lateC ..)) (h2.then (State.changes_count ..))
    split
    · exact h3.then (State.changes_gaugeCountTile ..)
    · exact h3
  · exact .refl

theorem changes_execGaugeEvalDone (q : QuarterId) (p : PartId) (s : State) :
    Leads [.parts, .regs, .regsButJenjo, .regsButStreams, .sessions, .out] s (execGaugeEvalDone q p s) := by
  refine .within fun F hF => ?_
  unfold execGaugeEvalDone
  extract_lets ok
  refine .takes ?_
  extract_lets s1
  have h1 : Changes F s s1 := .by (State.changes_modPt _ _ [])
  split
  · exact .refl
  · extract_lets k s2
    have h2 : Changes F s s2 := h1.then (State.changes_incRg ..)
    split
    · exact h1.then (State.changes_incRg ..)
    · extract_lets s3 s4 act s5 s6
      have h3 : Changes F s s3 := h2.then (State.changes_setRg ..)
      have h4 : Changes F s s4 := .ite (h3.then (State.changes_setRg ..)) h3
      have h5 : Changes F s s5 := h4.then (State.changes_incRg ..)
      have h6 : Changes F s s6 := .ite (h5.then (State.changes_modPt _ _ [])) h5
      exact .ite (.ite (h6.then (State.changes_notify ..)) h6) h4

theorem State.changes_setRes (s : State) (i : Nat) (e : ResEntry) :
    Changes [.res] s (s.setRes i e) :=
  State.changes_res _ _

theorem State.changes_setResFld (s : State) (i : Nat) (f : Fld) (v : Nat) :
    Changes [.res, .resChanged] s (s.setResFld i f v) := by
  refine .within fun F hF => ?_
  unfold State.setResFld
  extract_lets s1
  have h1 : Changes F s s1 := .by (State.changes_setRes ..)
  exact .ite (h1.then (State.changes_resChanged _ _)) h1

theorem State.changes_advance (s : State) (i : Nat) :
    Changes [.res, .resChanged] s (s.advance i) :=
  State.changes_setResFld ..

theorem State.changes_setSlot (s : State) (i : Nat) (e : BitVec 1024) :
    Changes [.slots] s (s.setSlot i e) :=
  State.changes_slots _ _

theorem State.changes_setSlotFld (s : State) (i : Nat) (f : Fld) (v : Nat) :
    Changes [.slots] s (s.setSlotFld i f v) :=
  State.changes_setSlot ..

theorem State.changes_setPage (s : State) (i : Nat) (e : BitVec 128) :
    Changes [.pages] s (s.setPage i e) :=
  State.changes_pages _ _

theorem State.changes_setPrefix (s : State) (i : Nat) (e : BitVec 256) :
    Changes [.prefixes] s (s.setPrefix i e) :=
  State.changes_prefixes _ _

theorem State.changes_faultDue (s : State) (p cause : Nat) :
    Changes [.parts] s (s.faultDue p cause) :=
  State.changes_modPt _ _ []

theorem State.changes_countM (s : State) (ag : Agent) (w n : Nat) :
    Changes [.open_] s (s.countM ag w n) := by
  refine .within fun F hF => ?_
  unfold State.countM
  split
  · exact .by (State.changes_count ..)
  · exact .refl

theorem State.changes_committedPoison (s : State) (u : Nat) :
    Changes [.sessions, .out, .regs, .regsButJenjo, .regsButStreams, .parts] s (s.committedPoison u) := by
  refine .within fun F hF => ?_
  unfold State.committedPoison
  split
  · extract_lets e p
    exact .ite (.then (.then (.by (State.changes_notify ..)) (State.changes_incRg ..)) (State.changes_faultDue ..)) .refl
  · exact .refl

theorem State.changes_failStop (before after : State) (d : Nat) : Changes [.parts] after (before.failStop after d) := by
  refine .within fun F hF => ?_
  unfold State.failStop
  refine .ite ?_ .refl
  split
  · exact .by (State.changes_faultDue ..)
  · exact .refl

theorem State.changes_notePoison (s : State) (u : Nat) :
    Changes [.regs, .regsButJenjo, .regsButStreams, .sessions, .out, .poisonLog, .parts] s (s.notePoison u) := by
  refine .within fun F hF => ?_
  unfold State.notePoison
  exact .then (.then (.by (State.changes_logPoison ..)) (State.changes_failStop ..)) (State.changes_committedPoison ..)

theorem State.changes_store (s : State) (a : Nat) (bs : List (Byte × Bool)) :
    Changes [.mem, .regs, .regsButJenjo, .regsButStreams, .sessions, .out, .poisonLog, .cxlPoison, .parts] s (s.store a bs) := by
  refine .within fun F hF => ?_
  unfold State.store
  extract_lets s1
  have h1 : Changes F s s1 := .ite (.then (.by (State.changes_memWrite ..)) (State.changes_failStop ..)) (.by (State.changes_memWrite ..))
  exact .ite (.foldl h1 (fun _ _ => .ite (.by (State.changes_committedPoison ..)) .refl)) h1

theorem State.changes_deviceReports (s : State) (ag : Agent) (er : AccessErrors) (ranges : List (Nat × Nat)) :
    Changes [.open_, .regs, .regsButJenjo, .regsButStreams, .sessions, .out, .poisonLog, .parts, .cxlPoison] s (s.deviceReports ag er ranges) := by
  refine .within fun F hF => ?_
  unfold State.deviceReports
  extract_lets s1 s2 s3
  have h1 : Changes F s s1 := .by (State.changes_countM ..)
  have h2 : Changes F s s2 := .foldl h1 (fun _ _ => .by (State.changes_incRg ..))
  have h3 : Changes F s s3 := .foldl h2 (fun _ _ => .then (.by (State.changes_notePoison ..)) (State.changes_countM ..))
  exact .foldl h3 (fun _ _ => .ite .refl (.by (State.changes_cxlPoison _ _)))

theorem State.changes_deviceErrors (s : State) (ag : Agent) (er : AccessErrors) (ranges : List (Nat × Nat)) :
    Changes [.open_, .regs, .regsButJenjo, .regsButStreams, .sessions, .out, .poisonLog, .parts, .cxlPoison, .part .slice,
      .badPages, .refs] s (s.deviceErrors ag er ranges) := by
  refine .within fun F hF => ?_
  unfold State.deviceErrors
  extract_lets s1 s2 s3 pages s4
  have h1 : Changes F s s1 := .by (State.changes_deviceReports ..)
  have h2 : Changes F s s2 := .ite (h1.then (State.changes_fails ..)) h1
  have h3 : Changes F s s3 := .ite ((h2.then (State.changes_late ..)).then (State.changes_fails ..)) h2
  have h4 : Changes F s s4 := by
    unfold s4
    refine .foldl h3 fun u5 _ => ?_
    extract_lets s6 s7
    have h6 : Changes F u5 s6 := .ite .refl (.by (State.changes_badPages _ _))
    have h7 : Changes F u5 s7 := ((h6.then (State.changes_incRg ..)).then (State.changes_late ..)).then (State.changes_fails ..)
    split
    · extract_lets f
      exact .ite h7 ((h7.then (State.changes_refs _ _)).then (State.changes_notify ..))
    · exact h7
  exact h4.then (State.changes_incRg ..)

theorem State.changes_pathErrors (s : State) (ag : Agent) (er : AccessErrors) :
    ChangesFst [.regs, .regsButJenjo, .regsButStreams, .parts, .part .slice, .open_] s (s.pathErrors ag er) := by
  refine .within fun F hF => ?_
  unfold State.pathErrors
  extract_lets ls s1 s2
  have h1 : Changes F s s1 := .foldl .refl (fun _ _ => .then (.then (.by (State.changes_incRg ..)) (State.changes_late ..)) (State.changes_fails ..))
  have h2 : Changes F s s2 := .ite (((h1.then (State.changes_late ..)).then (State.changes_fails ..)).then (State.changes_countM ..)) h1
  exact .mk h2

theorem State.changes_cxlDelivered (s : State) (ag : Agent) (a n : Nat) :
    Changes [.open_, .regs, .regsButJenjo, .regsButStreams, .sessions, .out, .parts] s (s.cxlDelivered ag a n) := by
  refine .within fun F hF => ?_
  unfold State.cxlDelivered
  refine .ite ?_ ?_
  · extract_lets x lines s1 s2
    have h1 : Changes F s s1 := .by (State.changes_countM ..)
    have h2 : Changes F s s2 := .ite (h1.then (State.changes_incRg ..)) h1
    exact .foldl h2 (fun _ _ => .by (State.changes_committedPoison ..))
  · exact .refl

theorem State.changes_deliver (s : State) (ag : Agent) (a n : Nat) :
    ChangesFst [.parts, .part .slice, .open_, .regs, .regsButJenjo, .regsButStreams, .sessions, .out] s (s.deliver ag a n) := by
  refine .within fun F hF => ?_
  unfold State.deliver
  extract_lets loading raw bs s1 s2
  have h1 : Changes F s s1 := .by (State.changes_late ..)
  have h2 : Changes F s s2 := .ite (h1.then (State.changes_fails ..)) h1
  exact .ite (.mk (h2.then (State.changes_cxlDelivered ..))) (.mk .refl)

theorem State.changes_sweepAccess (s : State) (ag : Agent) :
    Changes [.parts, .part .slice, .regs, .regsButJenjo, .regsButStreams] s (s.sweepAccess ag) := by
  refine .within fun F hF => ?_
  unfold State.sweepAccess
  exact .then (.by (State.changes_late ..)) (State.changes_incRg ..)

theorem State.changes_tear (s : State) (p i slot : Nat) :
    Changes [.parts] s (s.tear p i slot) :=
  State.changes_modPt _ _ []

theorem State.changes_cacheHit (s : State) (ag : Agent) (er : AccessErrors) (i : Nat) :
    Changes [.open_, .parts] s (s.cacheHit ag er i) := by
  refine .within fun F hF => ?_
  unfold State.cacheHit
  refine .ite ?_ ?_
  · extract_lets s1
    have h1 : Changes F s s1 := .by (State.changes_countM ..)
    exact .ite (h1.then (State.changes_faultDue ..)) h1
  · exact .ite (.by (State.changes_countM ..)) .refl

theorem State.changes_readRes (s : State) (ag : Agent) (er : AccessErrors) (paired sel : Bool) (slot i : Nat) (parts : List (Nat × Nat)) :
    ChangesFst [.open_, .regs, .regsButJenjo, .regsButStreams, .sessions, .out, .poisonLog, .parts, .cxlPoison, .part .slice,
      .badPages, .refs] s (s.readRes ag er paired sel slot i parts) := by
  refine .within fun F hF => ?_
  unfold State.readRes
  extract_lets p e k n lane off s1 v base s2
  have h1 : Changes F s s1 := .ite (.by (State.changes_countM ..)) .refl
  have h2 : Changes F s s2 := h1.then (State.changes_deviceErrors ..)
  refine .ite ?_ ?_
  · exact .mk (.by (State.changes_late ..))
  · refine .ite ?_ ?_
    · split
      · extract_lets a s3
        have h3 : Changes F s s3 := .by (State.changes_deviceErrors ..)
        split
        next _ s4 _ e4 =>
          have h4 : Changes F s s4 := .of_eq (Changes.thenFst h3 (State.changes_deliver ..)) e4
          exact .mk h4
      · exact .mk .refl
      · exact .mk (.by (State.changes_late ..))
    · refine .ite ?_ ?_
      · split
        · exact .mk .refl
        · extract_lets b a len s5
          have h5 : Changes F s s5 := .by (State.changes_deviceErrors ..)
          split
          next _ s6 _ e6 =>
            have h6 : Changes F s s6 := .of_eq (Changes.thenFst h5 (State.changes_deliver ..)) e6
            extract_lets v
            exact .mk h6
        · exact .mk (.by (State.changes_late ..))
      · refine .ite ?_ ?_
        · exact .mk (.by (State.changes_late ..))
        · refine .ite ?_ ?_
          · exact .mk (.by (State.changes_sweepAccess ..))
          · split
            next _ s7 _ e7 =>
              have h7 : Changes F s s7 := by
                refine .of_eq ?_ e7
                refine .foldl (.mk h2) fun u8 _ => ?_
                split
                next _ s9 _ e9 =>
                  have h9 : Changes F u8.1 s9 := .of_eq (Changes.thenFst .refl (State.changes_deliver ..)) e9
                  exact .mk h9
              exact .ite (.mk ((h7.then (State.changes_late ..)).then (State.changes_incRg ..))) (.mk h7)

theorem State.changes_gather (s : State) (ag : Agent) (i version : Nat) :
    ChangesFst [.res, .resChanged, .parts, .part .slice, .sessions, .out, .regs, .regsButJenjo, .regsButStreams] s (s.gather ag i version) := by
  refine .within fun F hF => ?_
  unfold State.gather
  extract_lets e
  exact .ite (.mk .refl) (.ite (.mk (.by (State.changes_setResFld ..))) (.ite (.mk .refl) (.mk (.then (.then (.by (State.changes_late ..)) (State.changes_notify ..)) (State.changes_incRg ..)))))

theorem State.changes_storeFor (s : State) (ag : Agent) (er : AccessErrors) (a : Nat) (bs : List (Byte × Bool)) :
    Changes [.parts, .part .slice, .mem, .regs, .regsButJenjo, .regsButStreams, .sessions, .out, .poisonLog, .cxlPoison,
      .open_, .badPages, .refs] s (s.storeFor ag er a bs) := by
  refine .within fun F hF => ?_
  unfold State.storeFor
  extract_lets n s1 s2 s3
  have h1 : Changes F s s1 := .by (State.changes_late ..)
  have h2 : Changes F s s2 := .by (State.changes_store ..)
  have h3 : Changes F s s3 := h2.then (State.changes_deviceErrors ..)
  exact .ite .refl (.ite (.by (State.changes_late ..)) (.ite (.ite (h1.then (State.changes_fails ..)) h1) (.ite (h3.then (State.changes_late ..)) h3)))

theorem State.changes_writeRes (s : State) (ag : Agent) (er : AccessErrors) (sel : Bool) (slot i : Nat) (parts : List (Nat × List (Byte × Bool))) (version : Nat) :
    Changes [.parts, .part .slice, .mem, .regs, .regsButJenjo, .regsButStreams, .sessions, .out, .poisonLog, .cxlPoison,
      .open_, .badPages, .refs, .res, .resChanged] s (s.writeRes ag er sel slot i parts version) := by
  refine .within fun F hF => ?_
  unfold State.writeRes
  extract_lets p e lane off bs
  refine .ite ?_ ?_
  · exact .by (State.changes_late ..)
  · refine .ite ?_ ?_
    · split
      · exact .then (.by (State.changes_storeFor ..)) (State.changes_tear ..)
      · exact .then (.by (State.changes_late ..)) (State.changes_incRg ..)
      · exact .refl
      · exact .by (State.changes_late ..)
    · refine .ite ?_ ?_
      · exact .by (State.changes_late ..)
      · refine .ite ?_ ?_
        · exact .by (State.changes_late ..)
        · refine .ite ?_ ?_
          · exact .by (State.changes_sweepAccess ..)
          · refine .ite ?_ ?_
            · exact .then (.by (State.changes_late ..)) (State.changes_incRg ..)
            · split
              next _ s1 _ e1 =>
                have h1 : Changes F s s1 := .of_eq (Changes.thenFst .refl (State.changes_gather ..)) e1
                exact .then (.foldl h1 (fun _ _ => .by (State.changes_storeFor ..))) (State.changes_tear ..)

theorem State.changes_queueWrite (s : State) (port dir off : Nat) (bs : List (Byte × Bool)) (version : Nat) :
    Changes [.queues] s (s.queueWrite port dir off bs version) := by
  refine .within fun F hF => ?_
  unfold State.queueWrite
  extract_lets q
  exact .by (State.changes_queues _ _)

theorem State.changes_readEnd (s : State) (ag : Agent) (er : AccessErrors) (paired : Bool) (ep : Endpoint) (n : Nat) :
    ChangesFst [.open_, .parts, .regs, .regsButJenjo, .regsButStreams, .sessions, .out, .poisonLog, .cxlPoison, .part .slice,
      .badPages, .refs] s (s.readEnd ag er paired ep n) := by
  refine .within fun F hF => ?_
  unfold State.readEnd
  split
  · exact Changes.thenFst (.by (State.changes_cacheHit ..)) (State.changes_readRes ..)
  · split
    · exact .mk (.by (State.changes_late ..))
    · refine .ite ?_ ?_
      · exact .mk (.by (State.changes_late ..))
      · extract_lets bs
        exact .ite (.mk (.then (.then (.by (State.changes_late ..)) (State.changes_fails ..)) (State.changes_countM ..))) (.mk .refl)
  · split
    · exact .mk (.by (State.changes_late ..))
    · refine .ite ?_ ?_
      · exact .mk (.by (State.changes_late ..))
      · extract_lets qs v bs
        exact .mk (.ite (.by (State.changes_late ..)) .refl)
  · exact .mk (.by (State.changes_late ..))

theorem State.changes_writeEnd (s : State) (ag : Agent) (er : AccessErrors) (ep : Endpoint) (bs : List (Byte × Bool)) (version : Nat) :
    Changes [.open_, .parts, .part .slice, .mem, .regs, .regsButJenjo, .regsButStreams, .sessions, .out, .poisonLog,
      .cxlPoison, .badPages, .refs, .res, .resChanged, .clusters, .cluster .napRun, .cluster .batt, .queues] s (s.writeEnd ag er ep bs version) := by
  refine .within fun F hF => ?_
  unfold State.writeEnd
  extract_lets marked
  split
  · exact .then (.by (State.changes_cacheHit ..)) (State.changes_writeRes ..)
  · split
    · exact .by (State.changes_late ..)
    · refine .ite ?_ ?_
      · exact .by (State.changes_late ..)
      · extract_lets s1
        have h1 : Changes F s s1 := .by (State.changes_battPut ..)
        exact .ite (h1.then (State.changes_late ..)) h1
  · split
    · exact .by (State.changes_late ..)
    · refine .ite ?_ ?_
      · exact .by (State.changes_late ..)
      · extract_lets s2
        have h2 : Changes F s s2 := .by (State.changes_queueWrite ..)
        exact .ite (h2.then (State.changes_late ..)) h2
  · exact .by (State.changes_late ..)

theorem State.changes_writeRuns (s : State) (ag : Agent) (er : AccessErrors) (ep : Endpoint) (off : Nat) (bs : List (Byte × Bool))
    (version : Nat) (runs : List (Nat × Nat)) :
    Changes [.open_, .parts, .part .slice, .mem, .regs, .regsButJenjo, .regsButStreams, .sessions, .out, .poisonLog,
      .cxlPoison, .badPages, .refs, .res, .resChanged, .clusters, .cluster .napRun, .cluster .batt, .queues] s (s.writeRuns ag er ep off bs version runs) := by
  induction runs generalizing s off bs version with
  | nil => exact State.changes_writeEnd ..
  | cons r runs ih => exact (State.changes_writeEnd ..).trans (ih ..)

theorem State.changes_buildRead (s : State) (ag : Agent) (q build i version : Nat) :
    ChangesFst [.parts, .part .slice, .regs, .regsButJenjo, .regsButStreams, .sessions, .out] s (s.buildRead ag q build i version) := by
  refine .within fun F hF => ?_
  unfold State.buildRead
  extract_lets p key
  refine .ite ?_ ?_
  · exact .mk .refl
  · split
    · exact .mk (.by (State.changes_modPt _ _ []))
    · exact .ite (.mk .refl) (.mk (.then (.then (.by (State.changes_late ..)) (State.changes_incRg ..)) (State.changes_notify ..)))

theorem State.changes_buildEnd (s : State) (p q build : Nat) :
    Changes [.parts] s (s.buildEnd p q build) :=
  State.changes_modPt _ _ []

theorem State.changes_burstRead (s : State) (ag : Agent) (er : AccessErrors) (e : Burst) (mbBase : Nat) :
    ChangesFst [.open_, .parts, .regs, .regsButJenjo, .regsButStreams, .sessions, .out, .poisonLog, .cxlPoison, .part .slice,
      .badPages, .refs] s (s.burstRead ag er e mbBase) := by
  refine .within fun F hF => ?_
  unfold State.burstRead
  extract_lets p src n
  clear_value src
  split
  next s1 _ e1 =>
    have h1 : Changes F s s1 := .of_eq (Changes.thenFst .refl (State.changes_readEnd ..)) e1
    split
    next s2 _ e2 =>
      have h2 : Changes F s s2 := by
        revert e2
        split
        · exact fun e2 => .of_eq (Changes.thenFst h1 (State.changes_buildRead ..)) e2
        · exact fun e2 => .of_eq (.mk h1) e2
      split
      next s3 _ e3 =>
        have h3 : Changes F s s3 := .of_eq (Changes.thenFst h2 (State.changes_pathErrors ..)) e3
        refine .ite (.mk h3) (.ite (.mk h3) ?_)
        extract_lets _
        split
        next s4 _ e4 =>
          have h4 : Changes F s s4 := .of_eq (.ite (.mk h3) (Changes.thenFst h3 (State.changes_readEnd ..))) e4
          split
          next _ _ _ _ _ =>
            extract_lets s5 s6
            have h5 : Changes F s s5 := h4.then (State.changes_raiseConv ..)
            exact .mk (.ite (h5.then (State.changes_late ..)) h5)

theorem State.changes_ctrlConds (s : State) (p m : Nat) :
    Changes [.parts, .part .slice] s (s.ctrlConds p m) := by
  refine .within fun F hF => ?_
  unfold State.ctrlConds
  refine .ite ?_ ?_
  · extract_lets s1
    have h1 : Changes F s s1 := .ite (.by (State.changes_fails ..)) .refl
    exact .ite (h1.then (State.changes_fails ..)) h1
  · exact .ite (.by (State.changes_fails ..)) .refl

theorem State.changes_burstConds (s : State) (p : Nat) (e : Burst) :
    Changes [.parts, .part .slice] s (s.burstConds p e) := by
  refine .within fun F hF => ?_
  unfold State.burstConds
  exact .foldl .refl (fun _ _ => .by (State.changes_ctrlConds ..))

theorem changes_execBurst (p : PartId) (n : Nat) (errs : AccessErrors) (s : State) :
    Leads [.now, .parts, .part .slice, .open_, .regs, .regsButJenjo, .regsButStreams, .sessions, .out, .poisonLog,
      .cxlPoison, .badPages, .refs] s (execBurst p n errs s) := by
  refine .within fun F hF => ?_
  unfold execBurst
  refine .takes ?_
  split
  · exact .refl
  · extract_lets e start s1 ag s2
    have h1 : Changes F s s1 := .by (State.changes_at ..)
    have h2 : Changes F s s2 := h1.then (State.changes_burstConds ..)
    split
    · split
      next _ s3 _ e3 =>
        have h3 : Changes F s s3 := .of_eq (Changes.thenFst h2 (State.changes_burstRead ..)) e3
        exact h3.then (State.changes_modPt _ _ [.slice])
    · extract_lets s4 x
      have h4 : Changes F s s4 := by
        unfold s4
        split
        · exact (h1.then (State.changes_countC ..)).then (State.changes_lateC ..)
        · exact h1
      exact h4.then (State.changes_modPt _ _ [.slice])

theorem changes_execBurstComplete (p : PartId) (n at_ : Nat) (errs : AccessErrors) (s : State) :
    Leads [.now, .open_, .parts, .part .slice, .mem, .regs, .regsButJenjo, .regsButStreams, .sessions, .out, .poisonLog,
      .cxlPoison, .badPages, .refs, .res, .resChanged, .clusters, .cluster .napRun, .cluster .batt, .queues] s (execBurstComplete p n at_ errs s) := by
  refine .within fun F hF => ?_
  unfold execBurstComplete
  refine .takes ?_
  extract_lets s1
  have h1 : Changes F s s1 := .by (State.changes_at ..)
  split
  · exact .refl
  · extract_lets e x ag dst eb sb s2 s3 s4
    have h2 : Changes F s s2 := by
      unfold s2
      refine .ite ?_ ?_
      · exact h1
      · clear_value dst
        split
        · exact .ite ((h1.then (State.changes_writeRuns ..)).then (State.changes_writeEnd ..)) ((h1.then (State.changes_cacheHit ..)).then (State.changes_writeRes ..))
        · exact h1.then (State.changes_writeRuns ..)
    have h3 : Changes F s s3 := .ite (h2.then (State.changes_buildEnd ..)) h2
    have h4 : Changes F s s4 := (h3.then (State.changes_countM ..)).then (State.changes_countM ..)
    exact h4.then (State.changes_modPt _ _ [.slice])

theorem State.changes_trace (s : State) (p c ty info cycle payload : Nat) :
    Changes [.clusters, .regs, .regsButJenjo, .regsButStreams] s (s.trace p c ty info cycle payload) := by
  refine .within fun F hF => ?_
  unfold State.trace
  refine .ite ?_ ?_
  · split
    · exact .then (.by (State.changes_modCl _ _ [])) (State.changes_incRg ..)
  · exact .refl

theorem State.changes_traceFire (s : State) (p c kind cycle : Nat) (cond : Bool) :
    Changes [.parts, .regs, .regsButJenjo, .regsButStreams] s (s.traceFire p c kind cycle cond) := by
  refine .within fun F hF => ?_
  unfold State.traceFire
  exact .ite (.then (.by (State.changes_modPt _ _ [])) (State.changes_setRg ..)) .refl

theorem State.changes_lateCluster (s : State) (p c cycle : Nat) :
    Changes [.parts, .part .slice, .regs, .regsButJenjo, .regsButStreams] s (s.lateCluster p c cycle) := by
  refine .within fun F hF => ?_
  unfold State.lateCluster
  extract_lets was s1
  have h1 : Changes F s s1 := .by (State.changes_late ..)
  exact .ite h1 (h1.then (State.changes_traceFire ..))

theorem State.changes_modNap (s : State) (c : Nat) (f : Nap → Nap) :
    Changes [.clusters, .cluster .napQueue, .cluster .napRegs, .cluster .napRun] s (s.modNap c f) :=
  State.changes_modCl _ _ [.napQueue, .napRegs, .napRun]

theorem State.changes_napBegin (s : State) (c dur : Nat) (illegal : Bool) (image : List Byte) (fetched : Bool) :
    Changes [.clusters, .cluster .napQueue, .cluster .napRegs, .cluster .napRun, .now] s (s.napBegin c dur illegal image fetched) := by
  refine .within fun F hF => ?_
  unfold State.napBegin
  split
  · extract_lets r s1
    have h1 : Changes F s s1 := .by (State.changes_modNap ..)
    exact h1.then (State.changes_at ..)
  · exact .refl

theorem State.changes_napBusy (s : State) (p c until_ : Nat) :
    Changes [.open_] s (s.napBusy p c until_) := by
  refine .within fun F hF => ?_
  unfold State.napBusy
  split
  · exact .by (State.changes_count ..)
  · exact .refl

theorem State.changes_windowConflicts (s : State) (c : Nat) :
    Changes [.clusters, .cluster .tiles, .cluster .napRun, .open_, .parts, .part .slice] s (s.windowConflicts c) := by
  refine .within fun F hF => ?_
  unfold State.windowConflicts
  split
  · exact .refl
  · refine .foldl .refl fun u1 _ => ?_
    refine .foldl .refl fun u2 _ => ?_
    extract_lets n
    split
    · exact .by (State.changes_tileConflict ..)
    · exact .refl

theorem State.changes_tileParity (s : State) (c n : Nat) :
    Changes [.clusters, .cluster .tiles, .open_, .parts, .part .slice] s (s.tileParity c n) := by
  refine .within fun F hF => ?_
  unfold State.tileParity
  exact .then (.by (State.changes_modCl _ _ [.tiles])) (State.changes_arrayParity ..)

theorem changes_execRun (c : ClusterId) (parity : List Nat) (s : State) :
    Leads [.clusters, .cluster .napQueue, .cluster .napRegs, .cluster .napRun, .now, .cluster .tiles, .open_, .parts,
      .part .slice] s (execRun c parity s) := by
  refine .within fun F hF => ?_
  unfold execRun
  refine .takes ?_
  split
  · extract_lets img s1 s2 read
    have h1 : Changes F s s1 := .then (.by (State.changes_napBegin ..)) (State.changes_windowConflicts ..)
    have h2 : Changes F s s2 := h1.then (State.changes_countC ..)
    exact .foldl h2 (fun _ _ => .by (State.changes_tileParity ..))
  · exact .refl

theorem changes_execScale (c : ClusterId) (s : State) :
    Leads [.clusters, .cluster .napQueue, .cluster .napRegs, .cluster .napRun, .now, .parts] s (execScale c s) := by
  refine .within fun F hF => ?_
  unfold execScale
  refine .takes ?_
  split
  · split
    · extract_lets s1
      have h1 : Changes F s s1 := .by (State.changes_napBegin ..)
      exact .ite (h1.then (State.changes_modPt _ _ [])) h1
  · exact .refl

theorem changes_execAmaxNote (c : ClusterId) (s : State) :
    Leads [.clusters, .cluster .napQueue, .cluster .napRegs, .cluster .napRun, .now] s (execAmaxNote c s) := by
  refine .within fun F hF => ?_
  unfold execAmaxNote
  refine .takes ?_
  split
  · exact .by (State.changes_napBegin ..)
  · exact .refl

theorem changes_execSummaryLoad (c : ClusterId) (s : State) :
    Leads [.clusters, .cluster .napQueue, .cluster .napRegs, .cluster .napRun, .now] s (execSummaryLoad c s) := by
  refine .within fun F hF => ?_
  unfold execSummaryLoad
  refine .takes ?_
  extract_lets cl
  split
  · extract_lets a
    exact .by (State.changes_napBegin ..)
  · exact .refl

theorem changes_execSummaryStore (c : ClusterId) (s : State) :
    Leads [.clusters, .cluster .napQueue, .cluster .napRegs, .cluster .napRun, .now] s (execSummaryStore c s) := by
  refine .within fun F hF => ?_
  unfold execSummaryStore
  refine .takes ?_
  split
  · exact .by (State.changes_napBegin ..)
  · exact .refl

theorem changes_execNapIllegal (c : NapHead) (s : State) :
    Leads [.clusters, .cluster .napQueue, .cluster .napRegs, .cluster .napRun, .now, .open_, .parts, .part .slice, .regs,
      .regsButJenjo, .regsButStreams] s (execNapIllegal c s) := by
  refine .within fun F hF => ?_
  unfold execNapIllegal
  split
  · refine .takes ?_
    extract_lets s1
    have h1 : Changes F s s1 := .by (State.changes_napBegin ..)
    split
    · extract_lets hit s2
      have h2 : Changes F s s2 := (h1.then (State.changes_count ..)).then (State.changes_lateCluster ..)
      exact .ite ((h2.then (State.changes_count ..)).then (State.changes_fails ..)) h2
    · exact .refl

theorem State.changes_setZ (s : State) (p c z w : Nat) :
    Changes [.clusters, .cluster .napQueue, .cluster .napRegs, .cluster .napRun, .parts] s (s.setZ p c z w) := by
  refine .within fun F hF => ?_
  unfold State.setZ
  exact .ite .refl (.then (.by (State.changes_modNap ..)) (State.changes_raiseConv ..))

theorem State.changes_napEffect (s : State) (p c n cy : Nat) (r : NapRun) :
    ChangesFst [.open_, .clusters, .cluster .napRun, .cluster .batt, .cluster .napRegs, .parts, .part .slice, .regs, .regsButJenjo,
      .regsButStreams] s (s.napEffect p c n cy r) := by
  refine .within fun F hF => ?_
  unfold State.napEffect
  extract_lets x cl a new s1 s2 s3
  have ha : cl.StoresOnly a.cl := (Cluster.StoresOnly.before cl cy).trans
    (NAcc.Stores.runs x n ⟨cl.before cy, 0, 0, false, 0, [], [], [], 0, [], [], [], []⟩)
  have hnew : cl.StoresOnly new := .ite ha (.takeSpans cl a.cl a.spans)
  have h1 : Changes F s s1 := .by (s.changes_battWrites_of p c cy .nap a.spans [.batt, .napRegs] fun b hb => by
    obtain ⟨hbatt, hregs⟩ : b ≠ .batt ∧ b ≠ .napRegs := by simpa using hb
    exact hnew.same b hbatt hregs)
  have h2 : Changes F s s2 := .ite (h1.then (State.changes_lateCluster ..)) h1
  have h3 : Changes F s s3 := .ite ((h2.then (State.changes_count ..)).then (State.changes_fails ..)) h2
  exact .mk h3

theorem State.changes_endRun (s : State) (p c : Nat) (r : NapRun) :
    Changes [.open_, .clusters, .cluster .napRun, .cluster .batt, .cluster .napQueue,
      .cluster .napRegs, .parts, .part .slice, .regs, .regsButJenjo, .regsButStreams] s (s.endRun p c r) := by
  refine .within fun F hF => ?_
  unfold State.endRun
  extract_lets x
  split
  next _ s1 _ e1 =>
    have h1 : Changes F s s1 := .of_eq (Changes.thenFst .refl (State.changes_napEffect ..)) e1
    extract_lets s2
    have h2 : Changes F s s2 := h1.then (State.changes_modNap ..)
    split
    · exact h2.then (State.changes_setZ ..)

theorem changes_execNapOpEnd (c : ClusterId) (s : State) :
    Leads [.open_, .now, .clusters, .cluster .napQueue, .cluster .napRegs, .cluster .napRun, .parts, .part .slice, .regs,
      .regsButJenjo, .regsButStreams, .cluster .batt] s (execNapOpEnd c s) := by
  refine .within fun F hF => ?_
  unfold execNapOpEnd
  split
  · refine .takes ?_
    extract_lets d z s1 s2 s3 v w bad w s4 s5
    have h1 : Changes F s s1 := .then (.by (State.changes_napBusy ..)) (State.changes_at ..)
    have h2 : Changes F s s2 := h1.then (State.changes_setZ ..)
    have h3 : Changes F s s3 := (h2.then (State.changes_count ..)).then (State.changes_lateCluster ..)
    have h4 : Changes F s s4 := h1.then (State.changes_setZ ..)
    have h5 : Changes F s s5 := by
      unfold s5
      refine .ite ?_ ?_
      · exact .ite h2 (.ite h3 ((h3.then (State.changes_count ..)).then (State.changes_fails ..)))
      · split
        · exact h1.then (State.changes_endRun ..)
        · exact (h1.then (State.changes_battPut ..)).then (State.changes_setZ ..)
        · exact .ite (h1.then (State.changes_modPt _ _ [])) ((h1.then (State.changes_incRg ..)).then (State.changes_lateCluster ..))
        · exact .ite (((h4.then (State.changes_count ..)).then (State.changes_fails ..)).then (State.changes_lateCluster ..)) h4
        · exact h1.then (State.changes_battPut ..)
    exact h5.then (State.changes_modNap ..)
  · exact .next .refl

theorem State.changes_napAbandon (s : State) (p c : Nat) :
    Changes [.open_, .clusters, .cluster .napRun, .cluster .batt, .cluster .napQueue,
      .cluster .napRegs, .parts, .part .slice, .regs, .regsButJenjo, .regsButStreams] s (s.napAbandon p c) := by
  refine .within fun F hF => ?_
  unfold State.napAbandon
  extract_lets s1
  have h1 : Changes F s s1 := .by (State.changes_napBusy ..)
  split
  · refine .ite ?_ ?_
    · exact h1
    · extract_lets x n
      exact .fst (Changes.thenFst h1 (State.changes_napEffect ..))
  · exact h1

theorem State.changes_coreStop (s : State) (p c : Nat) (parity : Bool) :
    Changes [.clusters, .cluster .crown, .parts, .part .slice, .regs, .regsButJenjo, .regsButStreams, .open_] s (s.coreStop p c parity) := by
  refine .within fun F hF => ?_
  unfold State.coreStop
  extract_lets s1
  have h1 : Changes F s s1 := .then (.by (State.changes_modCl _ _ [.crown])) (State.changes_lateCluster ..)
  exact .ite ((h1.then (State.changes_count ..)).then (State.changes_fails ..)) h1

theorem State.changes_modCrown (s : State) (c : Nat) (f : Crown → Crown) :
    Changes [.clusters, .cluster .crown] s (s.modCrown c f) :=
  State.changes_modCl _ _ [.crown]

theorem State.changes_coreRetire (s : State) (p c k next : Nat) (f : Crown → Crown) :
    Changes [.clusters, .cluster .crown, .open_, .regs, .regsButJenjo, .regsButStreams, .parts, .now] s (s.coreRetire p c k next f) := by
  refine .within fun F hF => ?_
  unfold State.coreRetire
  extract_lets cr r t s1 s2 s3
  have h1 : Changes F s s1 := .by (State.changes_modCrown ..)
  have h2 : Changes F s s2 := (h1.then (State.changes_count ..)).then (State.changes_count ..)
  have h3 : Changes F s s3 := (h2.then (State.changes_trace ..)).then (State.changes_traceFire ..)
  exact h3.then (State.changes_at ..)

theorem State.changes_coreStall (s : State) (p c reason n : Nat) :
    Changes [.open_, .clusters, .regs, .regsButJenjo, .regsButStreams, .parts, .cluster .crown] s (s.coreStall p c reason n) := by
  refine .within fun F hF => ?_
  unfold State.coreStall
  refine .ite ?_ ?_
  · exact .refl
  · extract_lets b s1 s2 s3 s4
    have h1 : Changes F s s1 := .by (State.changes_count ..)
    have h2 : Changes F s s2 := by
      unfold s2
      refine .foldl h1 fun u5 _ => ?_
      extract_lets busy
      exact .by (State.changes_count ..)
    have h3 : Changes F s s3 := h2.then (State.changes_trace ..)
    have h4 : Changes F s s4 := h3.then (State.changes_traceFire ..)
    exact h4.then (State.changes_modCrown ..)

/-- A crown instruction changes what its effect changes, and what the stop of its core does. -/
theorem Leads.crownExec {F : List Aspect} {s : State} {c : ClusterId} {i : Instr} {eff : Nat → State → State}
    (h : ∀ p, Changes F s (eff p s))
    (hF : [.clusters, .cluster .crown, .parts, .part .slice, .regs, .regsButJenjo, .regsButStreams, .open_] ⊆ F := by
      refine List.Subset.trans ?_ (by assumption); decide) : Leads F s (crownExec c i s eff) := by
  unfold Machine.crownExec
  split
  · exact .next .refl
  · exact .takes (.ite (.by (State.changes_coreStop ..)) (h _))

theorem changes_crownAlu (c : ClusterId) (i : Instr) (k : Nat) (rd : RegId) (v : Crown → Word) (s : State) :
    Leads [.clusters, .cluster .crown, .parts, .part .slice, .regs, .regsButJenjo, .regsButStreams, .open_, .now] s (crownAlu c i k rd v s) := by
  refine .within fun F hF => ?_
  unfold crownAlu
  refine .crownExec fun _ => ?_
  exact .by (State.changes_coreRetire ..)

theorem changes_execNop (c : ClusterId) (s : State) :
    Leads [.clusters, .cluster .crown, .parts, .part .slice, .regs, .regsButJenjo, .regsButStreams, .open_, .now] s (execNop c s) := by
  refine .within fun F hF => ?_
  unfold execNop
  refine .crownExec fun _ => ?_
  exact .by (State.changes_coreRetire ..)

theorem changes_execLi (c : ClusterId) (rd : RegId) (imm : BitVec 32) (s : State) :
    Leads [.clusters, .cluster .crown, .parts, .part .slice, .regs, .regsButJenjo, .regsButStreams, .open_, .now] s (execLi c rd imm s) := by
  refine .within fun F hF => ?_
  unfold execLi
  exact .by (changes_crownAlu _ _ _ _ _ _)

theorem changes_execLih (c : ClusterId) (rd : RegId) (imm : BitVec 32) (s : State) :
    Leads [.clusters, .cluster .crown, .parts, .part .slice, .regs, .regsButJenjo, .regsButStreams, .open_, .now] s (execLih c rd imm s) := by
  refine .within fun F hF => ?_
  unfold execLih
  exact .by (changes_crownAlu _ _ _ _ _ _)

theorem changes_execAdd (c : ClusterId) (rd rs1 rs2 : RegId) (s : State) :
    Leads [.clusters, .cluster .crown, .parts, .part .slice, .regs, .regsButJenjo, .regsButStreams, .open_, .now] s (execAdd c rd rs1 rs2 s) := by
  refine .within fun F hF => ?_
  unfold execAdd
  exact .by (changes_crownAlu _ _ _ _ _ _)

theorem changes_execAddi (c : ClusterId) (rd rs1 : RegId) (imm : BitVec 32) (s : State) :
    Leads [.clusters, .cluster .crown, .parts, .part .slice, .regs, .regsButJenjo, .regsButStreams, .open_, .now] s (execAddi c rd rs1 imm s) := by
  refine .within fun F hF => ?_
  unfold execAddi
  exact .by (changes_crownAlu _ _ _ _ _ _)

theorem changes_execSub (c : ClusterId) (rd rs1 rs2 : RegId) (s : State) :
    Leads [.clusters, .cluster .crown, .parts, .part .slice, .regs, .regsButJenjo, .regsButStreams, .open_, .now] s (execSub c rd rs1 rs2 s) := by
  refine .within fun F hF => ?_
  unfold execSub
  exact .by (changes_crownAlu _ _ _ _ _ _)

theorem changes_execAnd (c : ClusterId) (rd rs1 rs2 : RegId) (s : State) :
    Leads [.clusters, .cluster .crown, .parts, .part .slice, .regs, .regsButJenjo, .regsButStreams, .open_, .now] s (execAnd c rd rs1 rs2 s) := by
  refine .within fun F hF => ?_
  unfold execAnd
  exact .by (changes_crownAlu _ _ _ _ _ _)

theorem changes_execOr (c : ClusterId) (rd rs1 rs2 : RegId) (s : State) :
    Leads [.clusters, .cluster .crown, .parts, .part .slice, .regs, .regsButJenjo, .regsButStreams, .open_, .now] s (execOr c rd rs1 rs2 s) := by
  refine .within fun F hF => ?_
  unfold execOr
  exact .by (changes_crownAlu _ _ _ _ _ _)

theorem changes_execXor (c : ClusterId) (rd rs1 rs2 : RegId) (s : State) :
    Leads [.clusters, .cluster .crown, .parts, .part .slice, .regs, .regsButJenjo, .regsButStreams, .open_, .now] s (execXor c rd rs1 rs2 s) := by
  refine .within fun F hF => ?_
  unfold execXor
  exact .by (changes_crownAlu _ _ _ _ _ _)

theorem changes_execShl (c : ClusterId) (rd rs1 : RegId) (sh : BitVec 6) (s : State) :
    Leads [.clusters, .cluster .crown, .parts, .part .slice, .regs, .regsButJenjo, .regsButStreams, .open_, .now] s (execShl c rd rs1 sh s) := by
  refine .within fun F hF => ?_
  unfold execShl
  exact .by (changes_crownAlu _ _ _ _ _ _)

theorem changes_execShr (c : ClusterId) (rd rs1 : RegId) (sh : BitVec 6) (s : State) :
    Leads [.clusters, .cluster .crown, .parts, .part .slice, .regs, .regsButJenjo, .regsButStreams, .open_, .now] s (execShr c rd rs1 sh s) := by
  refine .within fun F hF => ?_
  unfold execShr
  exact .by (changes_crownAlu _ _ _ _ _ _)

theorem changes_execMul (c : ClusterId) (rd rs1 rs2 : RegId) (s : State) :
    Leads [.clusters, .cluster .crown, .parts, .part .slice, .regs, .regsButJenjo, .regsButStreams, .open_, .now] s (execMul c rd rs1 rs2 s) := by
  refine .within fun F hF => ?_
  unfold execMul
  exact .by (changes_crownAlu _ _ _ _ _ _)

theorem changes_execSltu (c : ClusterId) (rd rs1 rs2 : RegId) (s : State) :
    Leads [.clusters, .cluster .crown, .parts, .part .slice, .regs, .regsButJenjo, .regsButStreams, .open_, .now] s (execSltu c rd rs1 rs2 s) := by
  refine .within fun F hF => ?_
  unfold execSltu
  exact .by (changes_crownAlu _ _ _ _ _ _)

theorem changes_execLd (c : ClusterId) (rd rs1 : RegId) (imm : BitVec 32) (s : State) :
    Leads [.clusters, .cluster .crown, .parts, .part .slice, .regs, .regsButJenjo, .regsButStreams, .open_, .now] s (execLd c rd rs1 imm s) := by
  refine .within fun F hF => ?_
  unfold execLd
  refine .crownExec fun _ => ?_
  extract_lets a
  exact .ite (.by (State.changes_coreStop ..)) (.ite (.by (State.changes_coreStop ..)) (.by (State.changes_coreRetire ..)))

theorem changes_execSt (c : ClusterId) (rs1 rs2 : RegId) (imm : BitVec 32) (s : State) :
    Leads [.clusters, .cluster .crown, .parts, .part .slice, .regs, .regsButJenjo, .regsButStreams, .open_,
      .cluster .napRun, .cluster .batt, .now] s (execSt c rs1 rs2 imm s) := by
  refine .within fun F hF => ?_
  unfold execSt
  refine .crownExec fun _ => ?_
  extract_lets cr a
  exact .ite (.by (State.changes_coreStop ..)) (.then (.by (State.changes_battPut ..)) (State.changes_coreRetire ..))

theorem State.changes_summaryOrder (s : State) (p c : Nat) :
    Changes [.open_, .parts, .part .slice, .regs, .regsButJenjo, .regsButStreams] s (s.summaryOrder p c) := by
  refine .within fun F hF => ?_
  unfold State.summaryOrder
  exact .then (.by (State.changes_count ..)) (State.changes_lateCluster ..)

theorem changes_execLdz (c : ClusterId) (rd : RegId) (z : BitVec 4) (s : State) :
    Leads [.clusters, .cluster .crown, .parts, .part .slice, .regs, .regsButJenjo, .regsButStreams, .open_, .now] s (execLdz c rd z s) := by
  refine .within fun F hF => ?_
  unfold execLdz
  refine .crownExec fun _ => ?_
  extract_lets v s1
  have h1 : Changes F s s1 := .ite (.by (State.changes_summaryOrder ..)) .refl
  exact h1.then (State.changes_coreRetire ..)

theorem State.changes_coreWait (s : State) (c : Nat) :
    Changes [.clusters, .cluster .crown] s (s.coreWait c) :=
  State.changes_modCrown ..

theorem State.changes_coreGuarded (s : State) (p c : Nat) :
    Changes [.parts, .part .slice, .regs, .regsButJenjo, .regsButStreams, .clusters, .cluster .crown] s (s.coreGuarded p c) := by
  refine .within fun F hF => ?_
  unfold State.coreGuarded
  exact .then (.by (State.changes_lateCluster ..)) (State.changes_coreWait ..)

theorem changes_execIssa (c : ClusterId) (arr : BitVec 4) (discard : Bool) (tag : BitVec 7) (rs1 : RegId) (imm : BitVec 32) (s : State) :
    Leads [.clusters, .cluster .crown, .parts, .part .slice, .regs, .regsButJenjo, .regsButStreams, .open_,
      .cluster .arrays, .cluster .tiles, .cluster .napRun, .now] s (execIssa c arr discard tag rs1 imm s) := by
  refine .within fun F hF => ?_
  unfold execIssa
  extract_lets a
  refine .crownExec fun _ => ?_
  extract_lets cl addr x i s1 d bad n
  have h1 : Changes F s s1 := .by (State.changes_coreStall ..)
  refine .ite ?_ ?_
  · exact .by (State.changes_coreStop ..)
  · refine .ite ?_ ?_
    · exact .by (State.changes_coreWait ..)
    · refine .ite ?_ ?_
      · exact .by (State.changes_coreGuarded ..)
      · split
        · extract_lets o s2 s3 s4
          have h2 : Changes F s s2 := h1.then (State.changes_modCl _ _ [.arrays])
          have h3 : Changes F s s3 := by
            unfold s3
            split
            · split
              · exact h2.then (State.changes_tileConflict ..)
              · exact h2
            · exact h2
          have h4 : Changes F s s4 := h3.then (State.changes_trace ..)
          exact h4.then (State.changes_coreRetire ..)

theorem changes_execIssn (c : ClusterId) (rs1 : RegId) (imm : BitVec 32) (s : State) :
    Leads [.clusters, .cluster .crown, .parts, .part .slice, .regs, .regsButJenjo, .regsButStreams, .open_,
      .cluster .napQueue, .now] s (execIssn c rs1 imm s) := by
  refine .within fun F hF => ?_
  unfold execIssn
  refine .crownExec fun _ => ?_
  extract_lets cl addr i s1 d o s2 s3
  have h1 : Changes F s s1 := .by (State.changes_coreStall ..)
  have h2 : Changes F s s2 := h1.then (State.changes_modCl _ _ [.napQueue])
  have h3 : Changes F s s3 := h2.then (State.changes_trace ..)
  exact .ite (.by (State.changes_coreStop ..)) (.ite (.by (State.changes_coreWait ..)) (.ite (.by (State.changes_coreGuarded ..)) (h3.then (State.changes_coreRetire ..))))

theorem State.changes_edgeStall (s : State) (p : Nat) (c : ClusterId) :
    Changes [.open_, .clusters, .regs, .regsButJenjo, .regsButStreams, .parts, .cluster .crown] s (s.edgeStall p c) := by
  refine .within fun F hF => ?_
  unfold State.edgeStall
  extract_lets cr n
  split
  · exact .by (State.changes_coreStall ..)
  · exact .by (State.changes_coreStall ..)
  · split
    · exact .by (State.changes_coreStall ..)
    · exact .by (State.changes_coreStall ..)
  · exact .refl

theorem State.changes_edgeStalls (s : State) (p : Nat) :
    Changes [.open_, .clusters, .regs, .regsButJenjo, .regsButStreams, .parts, .cluster .crown] s (s.edgeStalls p) := by
  refine .within fun F hF => ?_
  unfold State.edgeStalls
  split
  · refine .foldl .refl fun u1 _ => ?_
    split
    · exact .by (State.changes_edgeStall ..)
    · exact .refl
  · exact .refl

theorem changes_execWait (c : ClusterId) (cls : BitVec 3) (count : BitVec 16) (first : BitVec 32) (s : State) :
    Leads [.clusters, .cluster .crown, .parts, .part .slice, .regs, .regsButJenjo, .regsButStreams, .open_, .now] s (execWait c cls count first s) := by
  refine .within fun F hF => ?_
  unfold execWait
  refine .crownExec fun _ => ?_
  split
  · exact .by (State.changes_coreWait ..)
  · refine .ite ?_ ?_
    · exact .by (State.changes_coreWait ..)
    · extract_lets s1
      have h1 : Changes F s s1 := .by (State.changes_coreStall ..)
      exact h1.then (State.changes_coreRetire ..)

theorem changes_execUntil (c : ClusterId) (imm : BitVec 32) (s : State) :
    Leads [.clusters, .cluster .crown, .parts, .part .slice, .regs, .regsButJenjo, .regsButStreams, .open_, .now] s (execUntil c imm s) := by
  refine .within fun F hF => ?_
  unfold execUntil
  refine .crownExec fun _ => ?_
  exact .ite (.by (State.changes_coreRetire ..)) (.by (State.changes_modCrown ..))

theorem changes_execUntilReached (c : ClusterId) (s : State) :
    Leads [.open_, .clusters, .regs, .regsButJenjo, .regsButStreams, .parts, .cluster .crown, .now] s (execUntilReached c s) := by
  refine .within fun F hF => ?_
  unfold execUntilReached
  split
  · exact .next .refl
  · split
    · exact .takes (.then (.by (State.changes_coreStall ..)) (State.changes_coreRetire ..))
    · exact .next .refl

theorem changes_execBranch (c : ClusterId) (z : BitVec 4) (flag : Bool) (b : BitVec 6) (alts : BitVec 2) (join : BitVec 32) (s : State) :
    Leads [.clusters, .cluster .crown, .parts, .part .slice, .regs, .regsButJenjo, .regsButStreams, .open_, .now] s (execBranch c z flag b alts join s) := by
  refine .within fun F hF => ?_
  unfold execBranch
  extract_lets n
  refine .crownExec fun _ => ?_
  extract_lets cl cr r pending k pts resume inAlts inTaken marks s1 s2 s3 s4
  have h1 : Changes F s s1 := .ite (.by (State.changes_summaryOrder ..)) .refl
  have h2 : Changes F s s2 := h1.then (State.changes_modCrown ..)
  have h3 : Changes F s s3 := (h2.then (State.changes_count ..)).then (State.changes_trace ..)
  have h4 : Changes F s s4 := h3.then (State.changes_traceFire ..)
  exact .ite (.by (State.changes_coreStop ..)) (h4.then (State.changes_coreRetire ..))

theorem State.changes_joinOverrun (s : State) (p c : Nat) :
    Changes [.open_, .clusters, .regs, .regsButJenjo, .regsButStreams, .parts, .part .slice] s (s.joinOverrun p c) := by
  refine .within fun F hF => ?_
  unfold State.joinOverrun
  extract_lets cr
  exact .then (.then (.by (State.changes_count ..)) (State.changes_trace ..)) (State.changes_lateCluster ..)

theorem changes_execEnda (c : ClusterId) (s : State) :
    Leads [.clusters, .cluster .crown, .parts, .part .slice, .regs, .regsButJenjo, .regsButStreams, .open_, .now] s (execEnda c s) := by
  refine .within fun F hF => ?_
  unfold execEnda
  refine .crownExec fun _ => ?_
  split
  · exact .by (State.changes_coreRetire ..)
  · refine .ite ?_ ?_
    · extract_lets s1
      have h1 : Changes F s s1 := .by (State.changes_coreRetire ..)
      exact h1.then (State.changes_modCrown ..)
    · extract_lets s2
      have h2 : Changes F s s2 := .ite .refl (.by (State.changes_joinOverrun ..))
      exact h2.then (State.changes_coreRetire ..)

theorem changes_execJoinResume (c : ClusterId) (s : State) :
    Leads [.open_, .clusters, .regs, .regsButJenjo, .regsButStreams, .parts, .cluster .crown, .part .slice] s (execJoinResume c s) := by
  refine .within fun F hF => ?_
  unfold execJoinResume
  split
  · exact .next .refl
  · split
    · refine .takes ?_
      extract_lets s1
      have h1 : Changes F s s1 := .by (State.changes_coreStall ..)
      exact h1.then (State.changes_modCrown ..)
    · exact .takes (.then (.by (State.changes_joinOverrun ..)) (State.changes_modCrown ..))
    · exact .next .refl

theorem changes_execLoop (c : ClusterId) (body : BitVec 16) (count : BitVec 32) (s : State) :
    Leads [.clusters, .cluster .crown, .parts, .part .slice, .regs, .regsButJenjo, .regsButStreams, .open_, .now] s (execLoop c body count s) := by
  refine .within fun F hF => ?_
  unfold execLoop
  refine .crownExec fun _ => ?_
  extract_lets pc
  exact .by (State.changes_coreRetire ..)

theorem changes_execJmp (c : ClusterId) (imm : BitVec 32) (s : State) :
    Leads [.clusters, .cluster .crown, .parts, .part .slice, .regs, .regsButJenjo, .regsButStreams, .open_, .now] s (execJmp c imm s) := by
  refine .within fun F hF => ?_
  unfold execJmp
  refine .crownExec fun _ => ?_
  exact .by (State.changes_coreRetire ..)

theorem changes_execDone (c : ClusterId) (s : State) :
    Leads [.clusters, .cluster .crown, .parts, .part .slice, .regs, .regsButJenjo, .regsButStreams, .open_, .now] s (execDone c s) := by
  refine .within fun F hF => ?_
  unfold execDone
  refine .crownExec fun _ => ?_
  extract_lets cr s1
  have h1 : Changes F s s1 := .by (State.changes_coreRetire ..)
  exact (h1.then (State.changes_modCrown ..)).then (State.changes_trace ..)

end Sys2Proof.Machine

/-! ## What Kettle, Reblock, memory and streams change

The rights of sessions, the Kettle units, the Reblock engines, device memory and the Stream Table. -/

namespace Sys2Proof.Machine
open Sys2Proof

-- Short theorems, many of them: one after another, so that the threads' stacks stay within the check's memory.
set_option Elab.async false

theorem State.changes_setWin (s : State) (id key v : Nat) :
    Changes [.sessions] s (s.setWin id key v) :=
  State.changes_modSession_rights _ _

theorem State.changes_setWinDom (s : State) (id key : Nat) (v : List Byte) :
    Changes [.sessions] s (s.setWinDom id key v) :=
  State.changes_modSession_rights _ _

theorem State.changes_resWriteBack (s : State) (i : Nat) (e : ResEntry) :
    Changes [.mem] s (s.resWriteBack i e) :=
  State.changes_memPut ..

theorem State.changes_resOffer (s : State) (id i : Nat) :
    ChangesFst [.resAt, .res, .mem] s (s.resOffer id i) := by
  refine .within fun F hF => ?_
  unfold State.resOffer
  extract_lets user e code e e
  exact .ite (.mk .refl) (.ite (.mk .refl) (.ite (.mk .refl) (.ite (.mk (.then (.then (.by (State.changes_resAt _ _)) (State.changes_setRes ..)) (State.changes_resWriteBack ..))) (.mk (.by (State.changes_resWriteBack ..))))))

theorem State.changes_resEnable (s : State) (id : Nat) :
    Changes [.resAt, .res, .mem, .sessions] s (s.resEnable id) := by
  refine .within fun F hF => ?_
  unfold State.resEnable
  split
  next _ s1 _ e1 =>
    have h1 : Changes F s s1 := .of_eq (Changes.thenFst .refl (State.changes_resOffer ..)) e1
    exact h1.then (State.changes_setWin ..)

theorem State.changes_resDisable (s : State) (id : Nat) :
    ChangesFst [.sessions, .resAt, .res, .mem] s (s.resDisable id) := by
  refine .within fun F hF => ?_
  unfold State.resDisable
  extract_lets i e
  exact .ite (.mk (.by (State.changes_setWin ..))) (.ite (.mk (.by (State.changes_setWin ..))) (.ite (.mk (.by (State.changes_setWin ..))) (.ite (.mk .refl) (.mk (.then (.then (.then (.by (State.changes_resAt _ _)) (State.changes_setRes ..)) (State.changes_resWriteBack ..)) (State.changes_setWin ..))))))

theorem State.changes_resList_ (s : State) (id : Nat) (list_ : List Byte) :
    Changes [.resAt, .res, .mem, .sessions] s (s.resList_ id list_) := by
  refine .within fun F hF => ?_
  unfold State.resList_
  extract_lets ix
  split
  next _ s1 _ e1 =>
    have h1 : Changes F s s1 := by
      refine .of_eq ?_ e1
      refine .foldl (.mk .refl) fun u2 _ => ?_
      split
      next _ s3 _ e3 =>
        have h3 : Changes F u2.1 s3 := .of_eq (Changes.thenFst .refl (State.changes_resOffer ..)) e3
        exact .mk h3
    extract_lets bad
    exact (h1.then (State.changes_setWin ..)).then (State.changes_setWin ..)

theorem changes_execResEnable (sess : Nat) (s : State) :
    Leads [.resAt, .res, .mem, .sessions] s (execResEnable sess s) := by
  refine .within fun F hF => ?_
  unfold execResEnable
  refine .takes ?_
  exact .by (State.changes_resEnable ..)

theorem changes_execResDisable (sess : Nat) (s : State) :
    Leads [.sessions, .resAt, .res, .mem] s (execResDisable sess s) := by
  refine .within fun F hF => ?_
  unfold execResDisable
  refine .takes ?_
  exact .fst (Changes.thenFst .refl (State.changes_resDisable ..))

theorem changes_execResList (sess : Nat) (list_ : List Byte) (s : State) :
    Leads [.resAt, .res, .mem, .sessions] s (execResList sess list_ s) := by
  refine .within fun F hF => ?_
  unfold execResList
  exact .takes (.by (State.changes_resList_ ..))

theorem State.changes_kettleRead (s : State) (ag : Agent) (er : AccessErrors) (x : SweepEntry) (b : Nat) :
    ChangesFst [.open_, .parts, .regs, .regsButJenjo, .regsButStreams, .sessions, .out, .poisonLog, .cxlPoison, .part .slice,
      .badPages, .refs] s (s.kettleRead ag er x b) := by
  refine .within fun F hF => ?_
  unfold State.kettleRead
  extract_lets s1 base sc
  have h1 : Changes F s s1 := .by (State.changes_cacheHit ..)
  split
  · extract_lets s2
    have h2 : Changes F s s2 := h1.then (State.changes_deviceErrors ..)
    split
    next _ s3 _ e3 =>
      have h3 : Changes F s s3 := .of_eq (Changes.thenFst h2 (State.changes_deliver ..)) e3
      split
      next _ s4 _ e4 =>
        have h4 : Changes F s s4 := by
          refine .of_eq ?_ e4
          refine .foldl (.mk h3) fun u5 _ => ?_
          split
          next _ s6 _ e6 =>
            have h6 : Changes F u5.1 s6 := .of_eq (Changes.thenFst .refl (State.changes_deliver ..)) e6
            exact .mk h6
        exact .mk h4

theorem State.changes_kettlePut (s : State) (ag : Agent) (er : AccessErrors) (x : SweepEntry) (ws : List (Nat × List Byte)) :
    Changes [.parts, .part .slice, .mem, .regs, .regsButJenjo, .regsButStreams, .sessions, .out, .poisonLog, .cxlPoison,
      .open_, .badPages, .refs] s (s.kettlePut ag er x ws) := by
  refine .within fun F hF => ?_
  unfold State.kettlePut
  exact .then (.foldl .refl (fun _ _ => .by (State.changes_storeFor ..))) (State.changes_tear ..)

theorem State.changes_mirror (s : State) (p : Nat) (x : MirrorItem) :
    Changes [.parts] s (s.mirror p x) :=
  State.changes_modPt _ _ []

theorem State.changes_mirrorGroup (s : State) (p u slot b : Nat) (puts : List (SweepEntry × List (Nat × List Byte))) :
    Changes [.parts, .open_] s (s.mirrorGroup p u slot b puts) := by
  refine .within fun F hF => ?_
  unfold State.mirrorGroup
  extract_lets mine
  exact .ite .refl (.then (.by (State.changes_mirror ..)) (State.changes_count ..))

theorem State.changes_kettleBlock (s : State) (ag : Agent) (er ew : AccessErrors) (u slot : Nat) (x : KettleCtx) (w s1 s2 g : SweepEntry) (b : Nat) :
    Changes [.open_, .parts, .regs, .regsButJenjo, .regsButStreams, .sessions, .out, .poisonLog, .cxlPoison, .part .slice,
      .badPages, .refs, .mem] s (s.kettleBlock ag er ew u slot x w s1 s2 g b) := by
  refine .within fun F hF => ?_
  unfold State.kettleBlock
  extract_lets p use1 use2 zeros headers sw ss key advance
  split
  next _ s1 _ e1 =>
    have h1 : Changes F s s1 := .of_eq (Changes.thenFst .refl (State.changes_kettleRead ..)) e1
    split
    next _ s2 _ e2 =>
      have h2 : Changes F s s2 := .of_eq (.ite (Changes.thenFst h1 (State.changes_kettleRead ..)) (.mk h1)) e2
      split
      next _ s3 _ e3 =>
        have h3 : Changes F s s3 := .of_eq (.ite (Changes.thenFst h2 (State.changes_kettleRead ..)) (.mk h2)) e3
        split
        next _ s4 _ e4 =>
          have h4 : Changes F s s4 := .of_eq (Changes.thenFst h3 (State.changes_kettleRead ..)) e4
          extract_lets s5 bad rs s6 s7 told s8
          have h5 : Changes F s s5 := .ite (h4.then (State.changes_late ..)) h4
          have h6 : Changes F s s6 := (h5.then (State.changes_modPt _ _ [])).then (State.changes_count ..)
          have h7 : Changes F s s7 := (h6.then (State.changes_incRg ..)).then (State.changes_count ..)
          have h8 : Changes F s s8 := .ite h7 ((h7.then (State.changes_notify ..)).then (State.changes_modPt _ _ [.slice]))
          split
          · split
            · split
              · extract_lets cv nonfinite s9 s10 s11
                have h9 : Changes F s s9 := ((h6.then (State.changes_kettlePut ..)).then (State.changes_raiseConv ..)).then (State.changes_incRg ..)
                have h10 : Changes F s s10 := .ite (h9.then (State.changes_kettlePut ..)) h9
                have h11 : Changes F s s11 := .ite (h10.then (State.changes_kettlePut ..)) h10
                exact .ite (h8.then (State.changes_mirrorGroup ..)) (h11.then (State.changes_mirrorGroup ..))

theorem State.changes_kettleBlocks (s : State) (ag : Agent) (er ew : AccessErrors) (u slot : Nat) (x : KettleCtx)
    (w s1 s2 g : SweepEntry) (n b : Nat) :
    Changes [.open_, .parts, .regs, .regsButJenjo, .regsButStreams, .sessions, .out, .poisonLog, .cxlPoison, .part .slice,
      .badPages, .refs, .mem] s (s.kettleBlocks ag er ew u slot x w s1 s2 g n b) := by
  induction n generalizing s b with
  | zero => exact .refl
  | succ n ih => exact (State.changes_kettleBlock ..).trans (ih ..)

theorem State.changes_openSweep (s : State) (p u : Nat) (e : BitVec 512) :
    Changes [.parts, .regs, .regsButJenjo, .regsButStreams, .part .jobs, .mem, .sessions, .out] s (s.openSweep p u e) := by
  refine .within fun F hF => ?_
  unfold State.openSweep
  extract_lets slot w old step s1 we st n sl s2 s3
  have h1 : Changes F s s1 := .by (State.changes_modPt _ _ [])
  have h2 : Changes F s s2 := h1.then (State.changes_modPt _ _ [])
  have h3 : Changes F s s3 := h2.then (State.changes_incRg ..)
  refine .ite ?_ ?_
  · exact h1
  · refine .ite ?_ ?_
    · refine .ite ?_ ?_
      · split
        · exact ((h3.then (State.changes_setJobF ..)).then (State.changes_notify ..)).then (State.changes_faultDue ..)
        · exact h3
      · exact h3
    · exact .ite (h2.then (State.changes_incRg ..)) h2

theorem State.changes_scalarRecord (s : State) (ag : Agent) (er : AccessErrors) (i step : Nat) :
    ChangesFst [.open_, .parts, .regs, .regsButJenjo, .regsButStreams, .sessions, .out, .poisonLog, .cxlPoison, .part .slice,
      .badPages, .refs] s (s.scalarRecord ag er i step) := by
  refine .within fun F hF => ?_
  unfold State.scalarRecord
  split
  next _ s1 _ e1 =>
    have h1 : Changes F s s1 := .of_eq (Changes.thenFst (.by (State.changes_cacheHit ..)) (State.changes_readRes ..)) e1
    extract_lets bs word vals
    exact .ite (.mk h1) (.mk h1)

theorem changes_execKettleItem (u : UnitId) (p : PartId) (n blocks : Nat) (errs : KettleErrors) (s : State) :
    Leads [.now, .parts, .part .slice, .regs, .regsButJenjo, .regsButStreams, .part .jobs, .mem, .sessions, .out, .open_,
      .poisonLog, .cxlPoison, .badPages, .refs] s (execKettleItem u p n blocks errs s) := by
  refine .within fun F hF => ?_
  unfold execKettleItem
  refine .takes ?_
  split
  · exact .refl
  · extract_lets e start slot s1 ag s2 s3 sl mirrored s4 want by_
    have h1 : Changes F s s1 := .by (State.changes_at ..)
    have h2 : Changes F s s2 := h1.then (State.changes_ctrlConds ..)
    have h3 : Changes F s s3 := .ite (h2.then (State.changes_openSweep ..)) h2
    have h4 : Changes F s s4 := .ite (h3.then (State.changes_mirror ..)) h3
    refine .ite (h4.then (State.changes_modPt _ _ [.slice])) ?_
    split
    next s5 row e5 =>
      have h5 : Changes F s s5 := .of_eq (Changes.thenFst h4 (State.changes_scalarRecord ..)) e5
      split
      · exact (h5.then (State.changes_incRg ..)).then (State.changes_modPt _ _ [.slice])
      · extract_lets _ _ _ s6
        have h6 : Changes F s s6 := h5.then (State.changes_kettleBlocks ..)
        exact h6.then (State.changes_modPt _ _ [.slice])

theorem changes_execKettleItemEnd (u : UnitId) (p : PartId) (at_ : Nat) (s : State) :
    Leads [.now, .open_, .parts, .part .slice] s (execKettleItemEnd u p at_ s) := by
  refine .within fun F hF => ?_
  unfold execKettleItemEnd
  refine .takes ?_
  split
  · extract_lets x s1
    have h1 : Changes F s s1 := .then (.by (State.changes_at ..)) (State.changes_count ..)
    exact h1.then (State.changes_modPt _ _ [.slice])
  · exact .refl

theorem State.changes_rbRead (s : State) (ag : Agent) (er : AccessErrors) (w b0 n : Nat) :
    ChangesFst [.open_, .parts, .regs, .regsButJenjo, .regsButStreams, .sessions, .out, .poisonLog, .cxlPoison, .part .slice,
      .badPages, .refs] s (s.rbRead ag er w b0 n) := by
  refine .within fun F hF => ?_
  unfold State.rbRead
  extract_lets len
  split
  · extract_lets e _ bl parts hn
    split
    next _ s1 _ e1 =>
      have h1 : Changes F s s1 := .of_eq (Changes.thenFst (.by (State.changes_cacheHit ..)) (State.changes_readRes ..)) e1
      extract_lets cut
      exact .mk h1
  · exact .mk (.by (State.changes_late ..))

theorem State.changes_rbSkip (s : State) (p q n start : Nat) (e : RbItem) :
    Changes [.parts, .part .slice] s (s.rbSkip p q n start e) :=
  State.changes_modPt _ _ [.slice]

theorem State.changes_altLate (s : State) (a : AltRead) :
    Changes [.open_, .parts, .part .slice] s (s.altLate a) := by
  refine .within fun F hF => ?_
  unfold State.altLate
  split
  · exact .then (.by (State.changes_countC ..)) (State.changes_lateC ..)
  · exact .refl

theorem State.changes_rbConds (s : State) (p pos : Nat) (e : RbItem) :
    Changes [.parts, .part .slice] s (s.rbConds p pos e) := by
  refine .within fun F hF => ?_
  unfold State.rbConds
  split
  · exact .foldl .refl (fun _ _ => .by (State.changes_ctrlConds ..))

theorem changes_execReduce (q : QuarterId) (p : PartId) (n : Nat) (errs : AccessErrors) (s : State) :
    Leads [.now, .parts, .part .slice, .open_, .regs, .regsButJenjo, .regsButStreams, .sessions, .out, .poisonLog,
      .cxlPoison, .badPages, .refs] s (execReduce q p n errs s) := by
  refine .within fun F hF => ?_
  unfold execReduce
  refine .takes ?_
  split
  · exact .refl
  · extract_lets e start s1 s2 ag
    have h1 : Changes F s s1 := .by (State.changes_at ..)
    have h2 : Changes F s s2 := h1.then (State.changes_rbConds ..)
    split
    · split
      next _ s3 _ e3 =>
        have h3 : Changes F s s3 := by
          refine .of_eq ?_ e3
          refine .foldl (.mk h2) fun u4 _ => ?_
          split
          next _ s5 _ e5 =>
            have h5 : Changes F u4.1 s5 := .of_eq (Changes.thenFst .refl (State.changes_rbRead ..)) e5
            exact .mk h5
        split
        next _ s6 _ e6 =>
          have h6 : Changes F s s6 := .of_eq (Changes.thenFst h3 (State.changes_pathErrors ..)) e6
          extract_lets s7 d dhdr
          have h7 : Changes F s s7 := .ite (h6.then (State.changes_count ..)) h6
          split
          · extract_lets s8 s9 s10 s11 s12 data hdr
            have h8 : Changes F s s8 := .ite (h7.then (State.changes_incRg ..)) h7
            have h9 : Changes F s s9 := .ite (h8.then (State.changes_late ..)) h8
            have h10 : Changes F s s10 := .ite ((h9.then (State.changes_late ..)).then (State.changes_count ..)) h9
            have h11 : Changes F s s11 := h10.then (State.changes_raiseConv ..)
            have h12 : Changes F s s12 := h11.then (State.changes_count ..)
            exact h12.then (State.changes_modPt _ _ [.slice])
    · exact (h1.then (State.changes_altLate ..)).then (State.changes_rbSkip ..)

theorem State.changes_moveRead (s : State) (ag : Agent) (q : Nat) (er : AccessErrors) (e : RbItem) :
    ChangesFst [.open_, .parts, .regs, .regsButJenjo, .regsButStreams, .sessions, .out, .poisonLog, .cxlPoison, .part .slice,
      .badPages, .refs] s (s.moveRead ag q er e) := by
  refine .within fun F hF => ?_
  unfold State.moveRead
  split
  · split
    next _ s1 _ e1 =>
      have h1 : Changes F s s1 := .of_eq (Changes.thenFst (.by (State.changes_cacheHit ..)) (State.changes_readRes ..)) e1
      split
      next _ s2 _ e2 =>
        have h2 : Changes F s s2 := .of_eq (.ite (.mk h1) (Changes.thenFst h1 (State.changes_buildRead ..))) e2
        exact .mk h2
  · exact Changes.thenFst .refl (State.changes_readEnd ..)

theorem State.changes_moveWrite (s : State) (ag : Agent) (er : AccessErrors) (e : RbItem) (g : Got) :
    Changes [.open_, .parts, .part .slice, .mem, .regs, .regsButJenjo, .regsButStreams, .sessions, .out, .poisonLog,
      .cxlPoison, .badPages, .refs, .res, .resChanged, .clusters, .cluster .napRun, .cluster .batt, .queues] s (s.moveWrite ag er e g) := by
  refine .within fun F hF => ?_
  unfold State.moveWrite
  split
  · extract_lets parts s1
    have h1 : Changes F s s1 := .by (State.changes_cacheHit ..)
    refine .ite ?_ ?_
    · exact h1.then (State.changes_writeRes ..)
    · refine .fst ?_
      refine .foldl (.mk h1) fun u2 _ => ?_
      exact .mk (.by (State.changes_writeRuns ..))
  · exact .by (State.changes_writeRuns ..)

theorem State.changes_moveData (s : State) (ag : Agent) (p q : Nat) (er : AccessErrors) (e : RbItem) :
    ChangesFst [.open_, .parts, .regs, .regsButJenjo, .regsButStreams, .sessions, .out, .poisonLog, .cxlPoison, .part .slice,
      .badPages, .refs] s (s.moveData ag p q er e) := by
  refine .within fun F hF => ?_
  unfold State.moveData
  split
  next _ s1 _ e1 =>
    have h1 : Changes F s s1 := .of_eq (Changes.thenFst .refl (State.changes_moveRead ..)) e1
    split
    next _ s2 _ e2 =>
      have h2 : Changes F s s2 := .of_eq (Changes.thenFst h1 (State.changes_pathErrors ..)) e2
      extract_lets s3 bs s4
      have h3 : Changes F s s3 := .ite (h2.then (State.changes_count ..)) h2
      have h4 : Changes F s s4 := .ite ((h3.then (State.changes_late ..)).then (State.changes_count ..)) h3
      exact .mk (h4.then (State.changes_count ..))

theorem changes_execReblockMove (q : QuarterId) (p : PartId) (n : Nat) (errs : AccessErrors) (s : State) :
    Leads [.now, .parts, .part .slice, .open_, .regs, .regsButJenjo, .regsButStreams, .sessions, .out, .poisonLog,
      .cxlPoison, .badPages, .refs, .mem, .res, .resChanged, .clusters, .cluster .napRun, .cluster .batt, .queues] s (execReblockMove q p n errs s) := by
  refine .within fun F hF => ?_
  unfold execReblockMove
  refine .takes ?_
  split
  · exact .refl
  · extract_lets e start s1 s2 ag src dst
    have h1 : Changes F s s1 := .by (State.changes_at ..)
    have h2 : Changes F s s2 := h1.then (State.changes_rbConds ..)
    split
    · refine .ite ?_ ?_
      · exact h2.then (State.changes_modPt _ _ [.slice])
      · split
        next _ s3 _ e3 =>
          have h3 : Changes F s s3 := .of_eq (Changes.thenFst h2 (State.changes_moveData ..)) e3
          exact .ite ((h3.then (State.changes_moveWrite ..)).then (State.changes_modPt _ _ [.slice])) (h3.then (State.changes_modPt _ _ [.slice]))
    · exact (h1.then (State.changes_altLate ..)).then (State.changes_rbSkip ..)

theorem changes_execReblockItemEnd (q : QuarterId) (p : PartId) (n at_ : Nat) (errs : AccessErrors) (s : State) :
    Leads [.now, .open_, .parts, .part .slice, .mem, .regs, .regsButJenjo, .regsButStreams, .sessions, .out, .poisonLog,
      .cxlPoison, .badPages, .refs, .res, .resChanged, .clusters, .cluster .napRun, .cluster .batt, .queues] s (execReblockItemEnd q p n at_ errs s) := by
  refine .within fun F hF => ?_
  unfold execReblockItemEnd
  refine .takes ?_
  extract_lets s1
  have h1 : Changes F s s1 := .by (State.changes_at ..)
  split
  · exact .refl
  · extract_lets e x ag src dst s2 s3 total busy
    have h2 : Changes F s s2 := by
      unfold s2
      refine .ite ?_ ?_
      · clear_value dst
        split
        · extract_lets parts
          exact (h1.then (State.changes_cacheHit ..)).then (State.changes_writeRes ..)
        · exact h1
      · refine .ite ?_ ?_
        · split
          next _ s4 _ e4 =>
            have h4 : Changes F s s4 := .of_eq (Changes.thenFst h1 (State.changes_moveData ..)) e4
            exact h4.then (State.changes_moveWrite ..)
        · exact .ite h1 (h1.then (State.changes_moveWrite ..))
    have h3 : Changes F s s3 := .ite (h2.then (State.changes_buildEnd ..)) h2
    split
    · extract_lets reason s5
      have h5 : Changes F s s5 := .then (((h3.then (State.changes_incRg ..)).then (State.changes_count ..)).then (State.changes_count ..)) (State.changes_count ..)
      exact h5.then (State.changes_modPt _ _ [.slice])

theorem State.changes_updateModuleState (s : State) :
    Changes [.regs, .regsButJenjo, .regsButStreams] s (s.updateModuleState) := by
  refine .within fun F hF => ?_
  unfold State.updateModuleState
  extract_lets m bad
  exact .ite (.by (State.changes_setRg ..)) .refl

theorem State.changes_failsUsing (s : State) (m b : Nat) :
    Changes [.parts, .part .slice] s (s.failsUsing m b) := by
  refine .within fun F hF => ?_
  unfold State.failsUsing
  exact .foldl .refl (fun _ _ => .ite (.by (State.changes_fails ..)) .refl)

theorem State.changes_deviceFailed (s : State) (d : Nat) :
    Changes [.regs, .regsButJenjo, .regsButStreams, .sessions, .out, .parts] s (s.deviceFailed d) := by
  refine .within fun F hF => ?_
  unfold State.deviceFailed
  extract_lets s1 s2
  have h1 : Changes F s s1 := .then (.by (State.changes_setRg ..)) (State.changes_updateModuleState ..)
  have h2 : Changes F s s2 := h1.then (State.changes_notify ..)
  split
  · exact h2.then (State.changes_faultDue ..)
  · exact h2

theorem changes_execHighTempRefresh (d : DeviceId) (cycles : Nat) (s : State) :
    Leads [.regs, .regsButJenjo, .regsButStreams, .parts, .part .slice, .open_] s (execHighTempRefresh d cycles s) := by
  refine .within fun F hF => ?_
  unfold execHighTempRefresh
  refine .takes ?_
  extract_lets s1
  have h1 : Changes F s s1 := .then (.by (State.changes_setRg ..)) (State.changes_failsUsing ..)
  split
  · exact (h1.then (State.changes_count ..)).then (State.changes_count ..)
  · exact h1

theorem changes_execNormalTemperatureRefresh (d : DeviceId) (s : State) :
    Leads [.parts, .part .slice, .regs, .regsButJenjo, .regsButStreams] s (execNormalTemperatureRefresh d s) := by
  refine .within fun F hF => ?_
  unfold execNormalTemperatureRefresh
  exact .takes (.then (.by (State.changes_failsUsing ..)) (State.changes_setRg ..))

theorem State.changes_retrain (s : State) (d : Nat) :
    ChangesFst [.regs, .regsButJenjo, .regsButStreams] s (s.retrain d) := by
  refine .within fun F hF => ?_
  unfold State.retrain
  exact .ite (.mk .refl) (.ite (.mk .refl) (.mk (.then (.by (State.changes_setRg ..)) (State.changes_setRg ..))))

theorem changes_execRetrainDevice (sess d : Nat) (s : State) :
    Leads [.regs, .regsButJenjo, .regsButStreams] s (execRetrainDevice sess d s) := by
  refine .within fun F hF => ?_
  unfold execRetrainDevice
  refine .takes ?_
  exact .fst (Changes.thenFst .refl (State.changes_retrain ..))

theorem State.changes_trained (s : State) (d : Nat) (temp : ℤ) :
    Changes [.regs, .regsButJenjo, .regsButStreams, .trainTemp, .advised] s (s.trained d temp) := by
  refine .within fun F hF => ?_
  unfold State.trained
  extract_lets s1
  have h1 : Changes F s s1 := .by (State.changes_setRg ..)
  exact h1.then (.record (G := [.trainTemp, .advised]))

theorem State.changes_retrainEnds (s : State) (st : Nat) :
    Changes [.regs, .regsButJenjo, .regsButStreams] s (s.retrainEnds st) :=
  State.changes_setRg ..

theorem changes_execRetrainDone (d : DeviceId) (temp : Option ℤ) (s : State) :
    Leads [.regs, .regsButJenjo, .regsButStreams, .trainTemp, .advised, .sessions, .out, .parts] s (execRetrainDone d temp s) := by
  refine .within fun F hF => ?_
  unfold execRetrainDone
  refine .takes ?_
  split
  · exact .then (.then (.by (State.changes_setRg ..)) (State.changes_trained ..)) (State.changes_retrainEnds ..)
  · exact .then (.by (State.changes_deviceFailed ..)) (State.changes_retrainEnds ..)

theorem changes_execGddr7RetrainAdvised (d : DeviceId) (temp : ℤ) (s : State) :
    Leads [.regs, .regsButJenjo, .regsButStreams, .advised, .sessions, .out] s (execGddr7RetrainAdvised d temp s) := by
  refine .within fun F hF => ?_
  unfold execGddr7RetrainAdvised
  extract_lets last
  refine .takes ?_
  extract_lets s1 s2
  have h1 : Changes F s s1 := .by (State.changes_setRg ..)
  have h2 : Changes F s s2 := h1.then (State.changes_advised _ _)
  exact h2.then (State.changes_notify ..)

theorem State.changes_notifyCxl (s : State) (code x arg1 : Nat) :
    Changes [.sessions, .out] s (s.notifyCxl code x arg1) := by
  refine .within fun F hF => ?_
  unfold State.notifyCxl
  split
  · exact .by (State.changes_notify ..)
  · exact .foldl .refl (fun _ _ => .by (State.changes_notify ..))

theorem State.changes_emptyWindow (s : State) (x : Nat) : Changes [.mem, .cxlPoison] s (s.emptyWindow x) := by
  refine .within fun F hF => ?_
  unfold State.emptyWindow
  extract_lets inside
  exact (Changes.by (s.changes_mem fun h => SMap.wf_filter 0 s.mem _ h)).then
    (State.changes_cxlPoison { s with mem := s.mem.filter fun c => !inside c.1 } _)

theorem changes_execCxlEnumerate (x : CxlId) (capacity : Option Nat) (type3 hotAdd refclk : Bool) (s : State) :
    Leads [.regs, .regsButJenjo, .regsButStreams, .mem, .cxlPoison, .cxlSris, .sessions, .out] s (execCxlEnumerate x capacity type3 hotAdd refclk s) := by
  refine .within fun F hF => ?_
  unfold execCxlEnumerate
  extract_lets st
  split
  · exact .takes (.then (.then (.by (State.changes_setRg ..)) (State.changes_emptyWindow ..)) (State.changes_updateModuleState ..))
  · refine .takes ?_
    extract_lets cap s1 s2 s3
    have h1 : Changes F s s1 := .by (State.changes_cxlSris _ _)
    have h2 : Changes F s s2 := .ite ((h1.then (State.changes_setRg ..)).then (State.changes_setRg ..)) ((h1.then (State.changes_setRg ..)).then (State.changes_setRg ..))
    have h3 : Changes F s s3 := h2.then (State.changes_updateModuleState ..)
    exact .ite (h3.then (State.changes_notifyCxl ..)) h3

theorem State.changes_cxlRemove (s : State) (x v : Nat) :
    ChangesFst [.parts, .part .slice, .regs, .regsButJenjo, .regsButStreams] s (s.cxlRemove x v) := by
  refine .within fun F hF => ?_
  unfold State.cxlRemove
  exact .ite (.mk .refl) (.ite (.mk .refl) (.mk (.then (.then (.by (State.changes_failsUsing ..)) (State.changes_setRg ..)) (State.changes_updateModuleState ..))))

theorem changes_execCxlRemove (sess : Nat) (x : CxlId) (s : State) :
    Leads [.parts, .part .slice, .regs, .regsButJenjo, .regsButStreams] s (execCxlRemove sess x s) := by
  refine .within fun F hF => ?_
  unfold execCxlRemove
  refine .takes ?_
  exact .fst (Changes.thenFst .refl (State.changes_cxlRemove ..))

theorem changes_execCxlLost (x : CxlId) (s : State) :
    Leads [.regs, .regsButJenjo, .regsButStreams, .mem, .cxlPoison, .sessions, .out, .parts] s (execCxlLost x s) := by
  refine .within fun F hF => ?_
  unfold execCxlLost
  refine .ite ?_ ?_
  · exact .next (.then (.then (.then (.by (State.changes_setRg ..)) (State.changes_setRg ..)) (State.changes_emptyWindow ..)) (State.changes_updateModuleState ..))
  · refine .takes ?_
    extract_lets s1 s2
    have h1 : Changes F s s1 := .then (.by (State.changes_setRg ..)) (State.changes_updateModuleState ..)
    have h2 : Changes F s s2 := h1.then (State.changes_notifyCxl ..)
    exact .foldl h2 (fun _ _ => .by (State.changes_faultDue ..))

theorem State.changes_setStream (s : State) (i : Nat) (e : Stream) :
    Changes [.streams] s (s.setStream i e) :=
  State.changes_streams _ _

theorem State.changes_setStreamFld (s : State) (i : Nat) (f : Fld) (v : Nat) :
    Changes [.streams] s (s.setStreamFld i f v) :=
  State.changes_setStream ..

theorem State.changes_incStream (s : State) (i : Nat) (f : Fld) (n : Nat) :
    Changes [.streams] s (s.incStream i f n) :=
  State.changes_setStreamFld ..

theorem State.changes_countStreams (s : State) :
    Changes [.regs, .regsButJenjo] s (s.countStreams) :=
  State.changes_setRg_streams ..

theorem State.changes_sentOn (s : State) (port wire : Nat) :
    Changes [.regs, .regsButJenjo, .regsButStreams, .open_] s (s.sentOn port wire) := by
  refine .within fun F hF => ?_
  unfold State.sentOn
  extract_lets s1
  have h1 : Changes F s s1 := .by (State.changes_incRg ..)
  split
  · exact (h1.then (State.changes_count ..)).then (State.changes_count ..)
  · exact h1

theorem State.changes_txStart (s : State) (port wire t : Nat) :
    Changes [.txFree, .regs, .regsButJenjo, .regsButStreams, .open_] s (s.txStart port wire t) := by
  refine .within fun F hF => ?_
  unfold State.txStart
  exact .then (.by (State.changes_txFree _ _)) (State.changes_sentOn ..)

theorem State.changes_queueTx (s : State) (port cls prio wire : Nat) (x : Sent) :
    Changes [.txq] s (s.queueTx port cls prio wire x) :=
  State.changes_txq _ _

theorem changes_execWatchdogFire (c : ClusterId) (s : State) :
    Leads [.now, .parts, .part .slice, .regs, .regsButJenjo, .regsButStreams, .open_, .clusters, .cluster .crown,
      .cluster .arrays, .cluster .napQueue, .cluster .napRun] s (execWatchdogFire c s) := by
  refine .within fun F hF => ?_
  unfold execWatchdogFire
  split
  · exact .next .refl
  · refine .takes ?_
    extract_lets s1 s2 s3
    have h1 : Changes F s s1 := .by (State.changes_at ..)
    have h2 : Changes F s s2 := (h1.then (State.changes_lateC ..)).then (State.changes_faultDue ..)
    have h3 : Changes F s s3 := (h2.then (State.changes_incRg ..)).then (State.changes_count ..)
    exact h3.then (State.changes_modCl _ _ [.crown, .arrays, .napQueue, .napRun])

theorem changes_execClusterResetDone (c : ClusterId) (s : State) :
    Leads [.clusters, .cluster .crown, .cluster .arrays, .cluster .tiles, .cluster .napQueue, .cluster .napRegs,
      .cluster .napRun, .cluster .batt] s (execClusterResetDone c s) := by
  refine .within fun F hF => ?_
  unfold execClusterResetDone
  exact .takes (.by (State.changes_modCl _ _ [.crown, .arrays, .tiles, .napQueue, .napRegs, .napRun, .batt]))

end Sys2Proof.Machine

/-! ## What jobs, frames, ticks and settlement change

Jobs, fabric frames, tick edges and the settlement. -/

namespace Sys2Proof.Machine
open Sys2Proof

-- Short theorems, many of them: one after another, so that the threads' stacks stay within the check's memory.
set_option Elab.async false

theorem State.changes_updatePart (s : State) (p : Nat) :
    Changes [.regs, .regsButJenjo, .regsButStreams] s (s.updatePart p) := by
  refine .within fun F hF => ?_
  unfold State.updatePart
  extract_lets x live st
  exact .then (.by (State.changes_setRg ..)) (State.changes_setRg ..)

theorem State.changes_setFilter (s : State) (p v : Nat) :
    Changes [.regs, .regsButJenjo, .regsButStreams] s (s.setFilter p v) := by
  refine .within fun F hF => ?_
  unfold State.setFilter
  split
  · exact .foldl .refl (fun _ _ => .by (State.changes_setRg ..))
  · exact .refl

theorem State.changes_countPins (s : State) :
    Changes [.regs, .regsButJenjo, .regsButStreams] s (s.countPins) := by
  refine .within fun F hF => ?_
  unfold State.countPins
  extract_lets n
  exact .by (State.changes_setRg ..)

theorem State.changes_unpin (s : State) (p j : Nat) :
    Changes [.parts, .part .pins, .regs, .regsButJenjo, .regsButStreams] s (s.unpin p j) := by
  refine .within fun F hF => ?_
  unfold State.unpin
  exact .then (.by (State.changes_modPt _ _ [.pins])) (State.changes_countPins ..)

theorem State.changes_slotWriteBack (s : State) (i : Nat) :
    Changes [.mem] s (s.slotWriteBack i) :=
  State.changes_memPut ..

theorem State.changes_stopSlots (s : State) (p : Nat) :
    Changes [.slots, .mem, .parts, .regs, .regsButJenjo, .regsButStreams, .sessions, .out] s (s.stopSlots p) := by
  refine .within fun F hF => ?_
  unfold State.stopSlots
  extract_lets act s1 s2
  have h1 : Changes F s s1 := .foldl .refl fun _ _ => .then (.by (State.changes_setSlotFld ..)) (State.changes_slotWriteBack ..)
  have h2 : Changes F s s2 := h1.then (State.changes_modPt _ _ [])
  cases act with
  | nil => exact h2
  | cons i l => exact (h2.then (State.changes_incRg ..)).then (State.changes_notify ..)

theorem State.changes_endGen (s : State) (p : Nat) :
    Changes [.slots, .mem, .parts, .regs, .regsButJenjo, .regsButStreams, .sessions, .out] s (s.endGen p) := by
  refine .within fun F hF => ?_
  unfold State.endGen
  split
  · exact .refl
  · extract_lets copies
    exact .then (.by (State.changes_stopSlots ..)) (State.changes_modPt _ _ [])

theorem State.changes_endJob (s : State) (p j st : Nat) :
    Changes [.parts, .part .jobs, .mem, .slots, .regs, .regsButJenjo, .regsButStreams, .sessions, .out, .part .pins] s (s.endJob p j st) := by
  refine .within fun F hF => ?_
  unfold State.endJob
  extract_lets s1 s2 s3 s4
  have h1 : Changes F s s1 := .by (State.changes_setJobF ..)
  have h2 : Changes F s s2 := .ite (h1.then (State.changes_modPt _ _ [])) (.ite ((h1.then (State.changes_modPt _ _ [])).then (State.changes_endGen ..)) h1)
  have h3 : Changes F s s3 := h2.then (State.changes_modPt _ _ [])
  have h4 : Changes F s s4 := .ite (h3.then (State.changes_setRg ..)) h3
  exact ((h4.then (State.changes_unpin ..)).then (State.changes_updatePart ..)).then (State.changes_notify ..)

theorem State.changes_cancelUnstarted (s : State) (p j : Nat) :
    Changes [.checks, .parts, .part .jobs, .mem, .regs, .regsButJenjo, .regsButStreams, .slots, .sessions, .out,
      .part .pins] s (s.cancelUnstarted p j) := by
  refine .within fun F hF => ?_
  unfold State.cancelUnstarted
  extract_lets e s1
  have h1 : Changes F s s1 := .by (State.changes_checks _ _)
  exact ((h1.then (State.changes_putJob ..)).then (State.changes_setRg ..)).then (State.changes_endJob ..)

theorem State.changes_cancelJob (s : State) (p j : Nat) (final : Option Nat) :
    Changes [.parts, .regs, .regsButJenjo, .regsButStreams, .part .jobs, .mem, .slots, .sessions, .out, .part .pins,
      .checks] s (s.cancelJob p j final) := by
  refine .within fun F hF => ?_
  unfold State.cancelJob
  extract_lets s1 st s2
  have h1 : Changes F s s1 := .by (State.changes_modPt _ _ [])
  have h2 : Changes F s s2 := h1.then (State.changes_modPt _ _ [])
  exact .ite ((h1.then (State.changes_setRg ..)).then (State.changes_endJob ..)) (.ite (h1.then (State.changes_cancelUnstarted ..)) (.ite ((h2.then (State.changes_setRg ..)).then (State.changes_endJob ..)) (.ite h1 (h1.then (State.changes_setRg ..)))))

theorem State.changes_applyAbandon (s : State) (p : Nat) :
    Changes [.parts, .regs, .regsButJenjo, .regsButStreams, .part .jobs, .mem, .slots, .sessions, .out, .part .pins] s (s.applyAbandon p) := by
  refine .within fun F hF => ?_
  unfold State.applyAbandon
  extract_lets s1 s2
  have h1 : Changes F s s1 := .by (State.changes_modPt _ _ [])
  have h2 : Changes F s s2 := ((h1.then (State.changes_setRg ..)).then (State.changes_setRg ..)).then (State.changes_setRg ..)
  split
  · exact .ite (h2.then (State.changes_endJob ..)) .refl
  · exact .refl

theorem State.changes_startJob (s : State) (p j n : Nat) :
    Changes [.parts, .part .jobs, .mem, .regs, .regsButJenjo, .regsButStreams, .sessions, .out] s (s.startJob p j n) := by
  refine .within fun F hF => ?_
  unfold State.startJob
  extract_lets s1 quiet s2 s3 s4 s5
  have h1 : Changes F s s1 := .then (.by (State.changes_setJobF ..)) (State.changes_setJobF ..)
  have h2 : Changes F s s2 := h1.then (State.changes_modPt _ _ [])
  have h3 : Changes F s s3 := .ite (h2.then (State.changes_modPt _ _ [])) h2
  have h4 : Changes F s s4 := h3.then (State.changes_modPt _ _ [])
  have h5 : Changes F s s5 := .ite (h4.then (State.changes_setRg ..)) h4
  exact .then (((h5.then (State.changes_setRg ..)).then (State.changes_setFilter ..)).then (State.changes_updatePart ..)) (State.changes_notify ..)

theorem State.changes_blockStart (s : State) (p j : Nat) :
    Changes [.parts, .part .jobs, .mem, .part .pins, .regs, .regsButJenjo, .regsButStreams, .sessions, .out] s (s.blockStart p j) := by
  refine .within fun F hF => ?_
  unfold State.blockStart
  extract_lets s1 s2
  have h1 : Changes F s s1 := .then (.then (.by (State.changes_setJobF ..)) (State.changes_setJobF ..)) (State.changes_setJobF ..)
  have h2 : Changes F s s2 := h1.then (State.changes_modPt _ _ [])
  exact ((h2.then (State.changes_unpin ..)).then (State.changes_updatePart ..)).then (State.changes_notify ..)

theorem State.changes_haltClusters (s : State) (p : Nat) :
    Changes [.clusters, .cluster .crown, .cluster .arrays, .cluster .napQueue, .cluster .napRun] s (s.haltClusters p) := by
  refine .within fun F hF => ?_
  unfold State.haltClusters
  split
  · exact .foldl .refl (fun _ _ => .by (State.changes_modCl _ _ [.crown, .arrays, .napQueue, .napRun]))
  · exact .refl

theorem State.changes_stopJob (s : State) (p j cause : Nat) (critical : Bool) :
    Changes [.regs, .regsButJenjo, .regsButStreams, .parts, .part .slice, .clusters, .cluster .crown, .cluster .arrays,
      .cluster .napQueue, .cluster .napRun, .part .jobs, .mem, .slots, .sessions, .out, .part .pins, .part .there] s (s.stopJob p j cause critical) := by
  refine .within fun F hF => ?_
  unfold State.stopJob
  refine .ite ?_ ?_
  · exact .refl
  · extract_lets s1 s2 own s3 s4 s5 s6 s7 s8 s9 s10
    have h1 : Changes F s s1 := .by (State.changes_incRg ..)
    have h2 : Changes F s s2 := .ite (h1.then (State.changes_incRg ..)) h1
    have h3 : Changes F s s3 := .ite ((h2.then (State.changes_modPt _ _ [.slice, .there])).then (State.changes_haltClusters ..)) h2
    have h4 : Changes F s s4 := h3.then (State.changes_setJobF ..)
    have h5 : Changes F s s5 := .ite (h4.then (State.changes_setRg ..)) h4
    have h6 : Changes F s s6 := h5.then (State.changes_modPt _ _ [])
    have h7 : Changes F s s7 := .then (((h6.then (State.changes_setRg ..)).then (State.changes_setRg ..)).then (State.changes_setRg ..)) (State.changes_setRg ..)
    have h8 : Changes F s s8 := .ite (h7.then (State.changes_setRg ..)) h7
    have h9 : Changes F s s9 := .ite (h8.then (State.changes_stopSlots ..)) h8
    have h10 : Changes F s s10 := .ite (h9.then (State.changes_setRg ..)) h9
    exact .then (((h10.then (State.changes_unpin ..)).then (State.changes_setFilter ..)).then (State.changes_updatePart ..)) (State.changes_notify ..)

theorem State.changes_countWithheld (s : State) :
    Changes [.open_, .withheldFrom] s (s.countWithheld) := by
  refine .within fun F hF => ?_
  unfold State.countWithheld
  extract_lets add o
  exact .by (.record (G := [.open_, .withheldFrom]))

theorem State.changes_switchBanks (s : State) (p g : Nat) :
    Changes [.open_, .withheldFrom, .closed, .totals, .parts] s (s.switchBanks p g) := by
  refine .within fun F hF => ?_
  unfold State.switchBanks
  extract_lets s1 mine rest span add s2
  have h1 : Changes F s s1 := .by (State.changes_countWithheld ..)
  have h2 : Changes F s s2 := h1.then (.record (G := [.open_, .closed, .totals]))
  split
  · exact h2.then (State.changes_modPt _ _ [])

theorem State.changes_takeSnapshot (s : State) (p g : Nat) :
    Changes [.open_, .withheldFrom, .closed, .totals, .parts, .regs, .regsButJenjo, .regsButStreams, .sessions, .out] s (s.takeSnapshot p g) := by
  refine .within fun F hF => ?_
  unfold State.takeSnapshot
  extract_lets from_ s1 s2
  have h1 : Changes F s s1 := .by (State.changes_switchBanks ..)
  have h2 : Changes F s s2 := h1.then (State.changes_modPt _ _ [])
  exact (h2.then (State.changes_setRg ..)).then (State.changes_notify ..)

theorem State.changes_countWasted (s : State) (p arr n : Nat) :
    Changes [.closed, .totals, .parts] s (s.countWasted p arr n) := by
  refine .within fun F hF => ?_
  unfold State.countWasted
  refine .ite ?_ ?_
  · exact .refl
  · extract_lets k add
    exact .then (.by (.record (G := [.closed, .totals]))) (State.changes_modPt _ _ [])

theorem State.changes_imageEdge (s : State) (p t g : Nat) :
    Changes [.regs, .regsButJenjo, .regsButStreams, .sessions, .out, .parts] s (s.imageEdge p t g) := by
  refine .within fun F hF => ?_
  unfold State.imageEdge
  refine .ite ?_ ?_
  · exact .refl
  · extract_lets s1 job
    have h1 : Changes F s s1 := .ite (.then (.by (State.changes_incRg ..)) (State.changes_notify ..)) .refl
    exact h1.then (State.changes_modPt _ _ [])

theorem State.changes_modDumps (s : State) (p : Nat) (f : Dump → Dump) :
    Changes [.parts] s (s.modDumps p f) :=
  State.changes_modPt _ _ []

theorem State.changes_dumpCommit (s : State) (p i step : Nat) (tag : Option Nat) :
    Changes [.parts] s (s.dumpCommit p i step tag) :=
  State.changes_modDumps ..

theorem State.changes_dumpStepStart (s : State) (p step : Nat) :
    Changes [.parts] s (s.dumpStepStart p step) :=
  State.changes_modDumps ..

theorem State.changes_dumpStepEnd (s : State) (p step : Nat) :
    Changes [.parts] s (s.dumpStepEnd p step) :=
  State.changes_modDumps ..

theorem State.changes_commitRefused (s : State) (p : Nat) (b : CommitBar) :
    Changes [.regs, .regsButJenjo, .regsButStreams] s (s.commitRefused p b) := by
  refine .within fun F hF => ?_
  unfold State.commitRefused
  split
  · exact .refl
  · exact .by (State.changes_incRg ..)
  · exact .by (State.changes_incRg ..)

theorem State.changes_keepFormer (s : State) (p i pos : Nat) :
    Changes [.parts] s (s.keepFormer p i pos) :=
  State.changes_modPt _ _ []

theorem State.changes_holdReads (s : State) (p i : Nat) :
    Changes [.draws, .parts] s (s.holdReads p i) := by
  refine .within fun F hF => ?_
  unfold State.holdReads
  split
  next _ _ s1 e1 =>
    have h1 : Changes F s s1 := .draw .refl e1
    exact h1.then (State.changes_modPt _ _ [])

theorem State.changes_makeCurrent (s : State) (p i slot : Nat) :
    Changes [.res, .resChanged, .parts, .regs, .regsButJenjo, .regsButStreams] s (s.makeCurrent p i slot) := by
  refine .within fun F hF => ?_
  unfold State.makeCurrent
  extract_lets old s1
  have h1 : Changes F s s1 := .then (.by (State.changes_setResFld ..)) (State.changes_advance ..)
  exact .ite (h1.then (State.changes_tear ..)) ((h1.then (State.changes_incRg ..)).then (State.changes_modPt _ _ []))

theorem State.changes_commitPoison (s : State) (i : Nat) :
    Changes [.sessions, .out, .regs, .regsButJenjo, .regsButStreams, .parts] s (s.commitPoison i) := by
  refine .within fun F hF => ?_
  unfold State.commitPoison
  split
  · exact .by (State.changes_committedPoison ..)
  · exact .refl

theorem State.changes_recordPair (s : State) (i : Nat) (versions : SMap Nat) :
    Changes [.res, .resChanged] s (s.recordPair i versions) := by
  refine .within fun F hF => ?_
  unfold State.recordPair
  extract_lets e
  exact .ite (.by (State.changes_setResFld ..)) .refl

theorem State.changes_applyCommit (s : State) (p base step : Nat) (versions : SMap Nat) (settle : Bool) (c : Commit) :
    Changes [.parts, .draws, .res, .resChanged, .regs, .regsButJenjo, .regsButStreams, .sessions, .out] s (s.applyCommit p base step versions settle c) := by
  refine .within fun F hF => ?_
  unfold State.applyCommit
  extract_lets i e slot s1 s2 s3 s4
  have h1 : Changes F s s1 := .ite (.by (State.changes_keepFormer ..)) (.by (State.changes_holdReads ..))
  have h2 : Changes F s s2 := .ite ((h1.then (State.changes_setResFld ..)).then (State.changes_setResFld ..)) h1
  have h3 : Changes F s s3 := h2.then (State.changes_makeCurrent ..)
  have h4 : Changes F s s4 := h3.then (State.changes_recordPair ..)
  exact (h4.then (State.changes_commitPoison ..)).then (State.changes_dumpCommit ..)

theorem State.changes_edgeCommits (s : State) (p base step : Nat) (versions : SMap Nat) (cs : List Commit) :
    Changes [.parts, .draws, .res, .resChanged, .regs, .regsButJenjo, .regsButStreams, .sessions, .out] s (s.edgeCommits p base step versions cs) := by
  refine .within fun F hF => ?_
  unfold State.edgeCommits
  refine .foldl .refl fun u1 _ => ?_
  split
  · exact .by (State.changes_applyCommit ..)
  · exact .then (.by (State.changes_commitRefused ..)) (State.changes_faultDue ..)

theorem State.changes_sweepCommit (s : State) (p step : Nat) (versions : SMap Nat) (i : Nat) :
    Changes [.regs, .regsButJenjo, .regsButStreams, .parts, .res, .resChanged] s (s.sweepCommit p step versions i) := by
  refine .within fun F hF => ?_
  unfold State.sweepCommit
  exact .ite (.then (.by (State.changes_commitRefused ..)) (State.changes_faultDue ..)) (.then (.then (.then (.by (State.changes_advance ..)) (State.changes_recordPair ..)) (State.changes_tear ..)) (State.changes_dumpCommit ..))

theorem State.changes_closeSweep (s : State) (p step key : Nat) (last : Bool) (w : Sweep) :
    Changes [.parts, .regs, .regsButJenjo, .regsButStreams, .sessions, .out, .res, .resChanged] s (s.closeSweep p step key last w) := by
  refine .within fun F hF => ?_
  unfold State.closeSweep
  refine .ite ?_ ?_
  · exact .refl
  · extract_lets s1 left s2 versions
    have h1 : Changes F s s1 := .by (State.changes_modPt _ _ [])
    have h2 : Changes F s s2 := .ite h1 (((h1.then (State.changes_incRg ..)).then (State.changes_incRg ..)).then (State.changes_notify ..))
    exact .ite h1 (.foldl h2 (fun _ _ => .by (State.changes_sweepCommit ..)))

theorem State.changes_closeSweeps (s : State) (p step : Nat) (lasts : List Nat) :
    Changes [.parts, .regs, .regsButJenjo, .regsButStreams, .sessions, .out, .res, .resChanged] s (s.closeSweeps p step lasts) := by
  refine .within fun F hF => ?_
  unfold State.closeSweeps
  exact .foldl .refl (fun _ _ => .by (State.changes_closeSweep ..))

theorem State.changes_revert (s : State) (p i : Nat) :
    Changes [.parts, .res, .resChanged, .sessions, .out, .regs, .regsButJenjo, .regsButStreams] s (s.revert p i) := by
  refine .within fun F hF => ?_
  unfold State.revert
  extract_lets e s1
  have h1 : Changes F s s1 := .by (State.changes_keepFormer ..)
  exact .then (((h1.then (State.changes_setResFld ..)).then (State.changes_advance ..)).then (State.changes_setResFld ..)) (State.changes_commitPoison ..)

theorem State.changes_sendMirrors (s : State) (p : Nat) :
    Changes [.out, .parts] s (s.sendMirrors p) := by
  refine .within fun F hF => ?_
  unfold State.sendMirrors
  exact .then (.foldl .refl (fun _ _ => .by (State.changes_emit ..))) (State.changes_modPt _ _ [])

theorem State.changes_sendFrame (s : State) (p b k : Nat) (r : SliceRun) (x : TxReady) (t : Nat) :
    Changes [.out, .txFree, .regs, .regsButJenjo, .regsButStreams, .open_, .parts, .streams, .part .slice] s (s.sendFrame p b k r x t) := by
  refine .within fun F hF => ?_
  unfold State.sendFrame
  extract_lets e st io run null total len again fl _ data s1 s2 s3 s4 s5
  have h1 : Changes F s s1 := .then (.by (State.changes_emit ..)) (State.changes_txStart ..)
  have h2 : Changes F s s2 := .ite (h1.then (State.changes_sendMirrors ..)) h1
  have h3 : Changes F s s3 := h2.then (State.changes_incStream ..)
  have h4 : Changes F s s4 := .ite (h3.then (State.changes_incStream ..)) h3
  have h5 : Changes F s s5 := .ite (((h4.then (State.changes_incRg ..)).then (State.changes_incStream ..)).then (State.changes_count ..)) h4
  exact h5.then (State.changes_modPt _ _ [.slice])

theorem State.changes_sendWaiting (s : State) (port t i : Nat) (w : TxItem) :
    Changes [.txq, .out, .txFree, .regs, .regsButJenjo, .regsButStreams, .open_] s (s.sendWaiting port t i w) := by
  refine .within fun F hF => ?_
  unfold State.sendWaiting
  extract_lets q s1
  have h1 : Changes F s s1 := .by (State.changes_txq _ _)
  exact (h1.then (State.changes_emit ..)).then (State.changes_txStart ..)

theorem State.changes_sendSlot (s : State) (port t : Nat) (x : TxReady) :
    Changes [.out, .txFree, .regs, .regsButJenjo, .regsButStreams, .open_, .parts, .streams, .part .slice] s (s.sendSlot port t x) := by
  refine .within fun F hF => ?_
  unfold State.sendSlot
  split
  · exact .refl
  · split
    · exact .refl
    · exact .by (State.changes_sendFrame ..)

theorem State.changes_pumpPort (port lo hi n : Nat) (s : State) :
    Changes [.txq, .out, .txFree, .regs, .regsButJenjo, .regsButStreams, .open_, .parts, .streams, .part .slice] s (State.pumpPort port lo hi n s) := by
  refine .within fun F hF => ?_
  induction n generalizing s with
  | zero => exact .refl
  | succ n ih =>
    have waiting (t i w) : Changes F s (State.pumpPort port lo hi n (s.sendWaiting port t i w)) :=
      (Changes.by (State.changes_sendWaiting ..)).trans (ih _)
    have slot (t x) : Changes F s (State.pumpPort port lo hi n (s.sendSlot port t x)) :=
      (Changes.by (State.changes_sendSlot ..)).trans (ih _)
    unfold State.pumpPort
    refine .ite .refl ?_
    split
    · exact .refl
    · exact .ite (waiting ..) .refl
    · exact .ite (slot ..) .refl
    · exact .ite (.ite (slot ..) .refl) (.ite (waiting ..) .refl)

theorem State.changes_pumpOne (s : State) (port lo : Nat) :
    Changes [.txq, .out, .txFree, .regs, .regsButJenjo, .regsButStreams, .open_, .parts, .streams, .part .slice] s (s.pumpOne port lo) := by
  refine .within fun F hF => ?_
  unfold State.pumpOne
  extract_lets slots
  exact .by (State.changes_pumpPort ..)

theorem State.changes_pump (s : State) (p lo : Nat) :
    Changes [.txq, .out, .txFree, .regs, .regsButJenjo, .regsButStreams, .open_, .parts, .streams, .part .slice] s (s.pump p lo) := by
  refine .within fun F hF => ?_
  unfold State.pump
  extract_lets slots waits
  exact .foldl .refl (fun _ _ => .by (State.changes_pumpOne ..))

theorem State.changes_advanceTo (s : State) (p t : Nat) :
    Changes [.now, .txq, .out, .txFree, .regs, .regsButJenjo, .regsButStreams, .open_, .parts, .streams, .part .slice] s (s.advanceTo p t) := by
  refine .within fun F hF => ?_
  unfold State.advanceTo
  exact .then (.then (.by (State.changes_at ..)) (State.changes_pumpOne ..)) (State.changes_pump ..)

theorem State.changes_resumeSending (s : State) (p : Nat) :
    Changes [.txq, .out, .txFree, .regs, .regsButJenjo, .regsButStreams, .open_, .parts, .streams, .part .slice] s (s.resumeSending p) :=
  State.changes_pump ..

theorem State.changes_portTime (s : State) (port at_ : Nat) :
    Changes [.now, .txq, .out, .txFree, .regs, .regsButJenjo, .regsButStreams, .open_, .parts, .streams, .part .slice] s (s.portTime port at_) := by
  refine .within fun F hF => ?_
  unfold State.portTime
  split
  · exact .by (State.changes_advanceTo ..)
  · exact .then (.by (State.changes_at ..)) (State.changes_pumpOne ..)

theorem State.changes_resumePort (s : State) (port : Nat) :
    Changes [.txq, .out, .txFree, .regs, .regsButJenjo, .regsButStreams, .open_, .parts, .streams, .part .slice] s (s.resumePort port) := by
  refine .within fun F hF => ?_
  unfold State.resumePort
  split
  · exact .by (State.changes_resumeSending ..)
  · exact .by (State.changes_pumpOne ..)

theorem State.changes_send (s : State) (port cls prio wire : Nat) (x : Sent) :
    Changes [.txq, .out, .txFree, .regs, .regsButJenjo, .regsButStreams, .open_, .parts, .streams, .part .slice] s (s.send port cls prio wire x) := by
  refine .within fun F hF => ?_
  unfold State.send
  exact .then (.by (State.changes_queueTx ..)) (State.changes_pumpOne ..)

theorem State.changes_sendStatus (s : State) (p job : Nat) (f : StatusFrame) :
    Changes [.txq, .out, .txFree, .regs, .regsButJenjo, .regsButStreams, .open_, .parts, .streams, .part .slice] s (s.sendStatus p job f) := by
  refine .within fun F hF => ?_
  unfold State.sendStatus
  exact .foldl .refl (fun _ _ => .by (State.changes_send ..))

theorem State.changes_rewindStream (s : State) (p i : Nat) :
    Changes [.parts, .part .slice] s (s.rewindStream p i) := by
  refine .within fun F hF => ?_
  unfold State.rewindStream
  split
  · exact .refl
  · exact .by (State.changes_modPt _ _ [.slice])

theorem State.changes_moveStream (s : State) (i active : Nat) :
    Changes [.streams, .parts, .part .slice] s (s.moveStream i active) := by
  refine .within fun F hF => ?_
  unfold State.moveStream
  extract_lets e s1 s2
  have h1 : Changes F s s1 := .by (State.changes_setStreamFld ..)
  have h2 : Changes F s s2 := .ite h1 (h1.then (State.changes_incStream ..))
  exact h2.then (State.changes_rewindStream ..)

theorem State.changes_failover (s : State) (port : Nat) :
    Changes [.streams, .parts, .part .slice] s (s.failover port) := by
  refine .within fun F hF => ?_
  unfold State.failover
  exact .foldl .refl (fun _ _ => .by (State.changes_moveStream ..))

theorem State.changes_rejoin (s : State) :
    Changes [.streams, .parts, .part .slice] s (s.rejoin) := by
  refine .within fun F hF => ?_
  unfold State.rejoin
  refine .foldl .refl fun u1 _ => ?_
  extract_lets a
  exact .ite .refl (.by (State.changes_moveStream ..))

theorem State.changes_received (s : State) (port : Nat) :
    Changes [.regs, .regsButJenjo, .regsButStreams, .open_] s (s.received port) := by
  refine .within fun F hF => ?_
  unfold State.received
  extract_lets s1
  have h1 : Changes F s s1 := .by (State.changes_incRg ..)
  split
  · exact h1.then (State.changes_count ..)
  · exact h1

theorem State.changes_discarded (s : State) (port : Nat) :
    Changes [.open_] s (s.discarded port) := by
  refine .within fun F hF => ?_
  unfold State.discarded
  split
  · exact .by (State.changes_count ..)
  · exact .refl

theorem State.changes_dropFrame (s : State) (port : Nat) (h : FabricHeader) (stale : Bool) :
    Changes [.open_, .regs, .regsButJenjo, .regsButStreams, .streams] s (s.dropFrame port h stale) := by
  refine .within fun F hF => ?_
  unfold State.dropFrame
  extract_lets s1 s2 s3
  have h1 : Changes F s s1 := .by (State.changes_discarded ..)
  have h2 : Changes F s s2 := h1.then (State.changes_incRg ..)
  have h3 : Changes F s s3 := by
    unfold s3
    refine .ite ?_ ?_
    · split
      · exact h2.then (State.changes_incRg ..)
      · exact h2
    · exact h1.then (State.changes_incRg ..)
  exact .ite (h3.then (State.changes_incStream ..)) h3

theorem State.changes_arrive (s : State) (port at_ : Nat) (x : FrameInfo) (fate : FrameFate) :
    ChangesFst [.now, .txq, .out, .txFree, .regs, .regsButJenjo, .regsButStreams, .open_, .parts, .streams, .part .slice] s (s.arrive port at_ x fate) := by
  refine .within fun F hF => ?_
  unfold State.arrive
  extract_lets s1 q s2 away s3
  have h1 : Changes F s s1 := .by (State.changes_portTime ..)
  have h2 : Changes F s s2 := h1.then (State.changes_received ..)
  have h3 : Changes F s s3 := by
    unfold s3
    clear_value away
    split
    · exact h2.then (State.changes_incRg ..)
    · exact h2
  refine .ite ?_ ?_
  · exact .mk ((h1.then (State.changes_incRg ..)).then (State.changes_discarded ..))
  · split
    · exact .mk ((h1.then (State.changes_incRg ..)).then (State.changes_discarded ..))
    · exact .mk (((h1.then (State.changes_received ..)).then (State.changes_incRg ..)).then (State.changes_discarded ..))
    · exact .ite (.mk (.then (.ite (h3.then (State.changes_incRg ..)) h3) (State.changes_discarded ..))) (.mk h2)

theorem State.changes_sendAck (s : State) (p port : Nat) (h : FabricHeader) (expect : Nat) (nak : Bool) :
    Changes [.txq, .out, .txFree, .regs, .regsButJenjo, .regsButStreams, .open_, .parts, .streams, .part .slice] s (s.sendAck p port h expect nak) := by
  refine .within fun F hF => ?_
  unfold State.sendAck
  refine .ite ?_ ?_
  · exact .refl
  · extract_lets st back a s1
    have h1 : Changes F s s1 := .by (State.changes_send ..)
    exact .ite (h1.then (State.changes_incStream ..)) h1

theorem State.changes_judgeHeld (s : State) (p : Nat) :
    Changes [.regs, .regsButJenjo, .regsButStreams] s (s.judgeHeld p) := by
  refine .within fun F hF => ?_
  unfold State.judgeHeld
  extract_lets m
  exact .ite (.by (State.changes_setRg ..)) .refl

theorem State.changes_applyMirror (s : State) (ag : Agent) (er : AccessErrors) (j : Nat) (x : MirrorItem) :
    Changes [.parts, .regs, .regsButJenjo, .regsButStreams, .part .slice, .mem, .sessions, .out, .poisonLog, .cxlPoison,
      .open_, .badPages, .refs] s (s.applyMirror ag er j x) := by
  refine .within fun F hF => ?_
  unfold State.applyMirror
  extract_lets p __src
  split
  · extract_lets r
    exact .then (.by (State.changes_modPt _ _ [])) (State.changes_judgeHeld ..)
  · extract_lets s1
    have h1 : Changes F s s1 := by
      unfold s1
      refine .foldl .refl fun u2 _ => ?_
      split
      · exact .then (.by (State.changes_storeFor ..)) (State.changes_tear ..)
      · exact .by (State.changes_late ..)
    exact h1.then (State.changes_modPt _ _ [])

theorem State.changes_openSlot (s : State) (p : Nat) (e : BitVec 256) (x : ItemRun) :
    ChangesFst [.open_, .parts, .part .slice] s (s.openSlot p e x) := by
  refine .within fun F hF => ?_
  unfold State.openSlot
  refine .ite ?_ ?_
  · exact .mk .refl
  · extract_lets pos
    split
    · exact .mk .refl
    · exact .mk .refl
    · exact .mk (.then (.by (State.changes_countC ..)) (State.changes_lateC ..))

theorem State.changes_slotFrame (s : State) (p port b k n : Nat) (h : FabricHeader) (data : List Byte) (mirror : List MirrorItem) (er : AccessErrors) :
    Changes [.open_, .parts, .part .slice, .streams, .txq, .out, .txFree, .regs, .regsButJenjo, .regsButStreams, .mem,
      .sessions, .poisonLog, .cxlPoison, .badPages, .refs, .res, .resChanged, .clusters, .cluster .napRun,
      .cluster .batt, .queues] s (s.slotFrame p port b k n h data mirror er) := by
  refine .within fun F hF => ?_
  unfold State.slotFrame
  extract_lets e st put null ep last
  split
  · exact .refl
  · extract_lets io io
    split
    next _ s1 _ e1 =>
      have h1 : Changes F s s1 := .of_eq (Changes.thenFst .refl (State.changes_openSlot ..)) e1
      refine .ite ?_ ?_
      · extract_lets s2
        have h2 : Changes F s s2 := (h1.then (State.changes_discarded ..)).then (State.changes_incStream ..)
        exact .ite (h2.then (State.changes_modPt _ _ [.slice])) ((h2.then (State.changes_sendAck ..)).then (State.changes_modPt _ _ [.slice]))
      · refine .ite ?_ ?_
        · exact .then (((h1.then (State.changes_discarded ..)).then (State.changes_incStream ..)).then (State.changes_sendAck ..)) (State.changes_modPt _ _ [.slice])
        · extract_lets pos ag s3 s4 x
          have h3 : Changes F s s3 := h1.then (State.changes_incStream ..)
          have h4 : Changes F s s4 := .ite (h3.then (State.changes_incStream ..)) h3
          split
          next _ s5 _ e5 =>
            have h5 : Changes F s s5 := .of_eq (Changes.thenFst h4 (State.changes_pathErrors ..)) e5
            extract_lets put8 s6 s7 s8
            have h6 : Changes F s s6 := .ite h5 (.ite (h5.then (State.changes_writeEnd ..)) (h5.then (State.changes_writeEnd ..)))
            have h7 : Changes F s s7 := .ite (.foldl h6 (fun _ _ => .by (State.changes_applyMirror ..))) h6
            have h8 : Changes F s s8 := h7.then (State.changes_modPt _ _ [.slice])
            exact .ite (h8.then (State.changes_sendAck ..)) h8

theorem State.changes_takeFrame (s : State) (p port : Nat) (h : FabricHeader) (data : List Byte) (mirror : List MirrorItem) (er : AccessErrors) :
    Changes [.open_, .regs, .regsButJenjo, .regsButStreams, .streams, .parts, .part .slice, .txq, .out, .txFree, .mem,
      .sessions, .poisonLog, .cxlPoison, .badPages, .refs, .res, .resChanged, .clusters, .cluster .napRun,
      .cluster .batt, .queues] s (s.takeFrame p port h data mirror er) := by
  refine .within fun F hF => ?_
  unfold State.takeFrame
  refine .ite ?_ ?_
  · exact .by (State.changes_dropFrame ..)
  · refine .ite ?_ ?_
    · exact .by (State.changes_dropFrame ..)
    · split
      · exact .by (State.changes_dropFrame ..)
      · split
        · exact .by (State.changes_dropFrame ..)
        · exact .ite (.by (State.changes_slotFrame ..)) (.by (State.changes_dropFrame ..))

theorem State.changes_takeAck (s : State) (p port : Nat) (h : FabricHeader) (nak : Bool) :
    Changes [.open_, .regs, .regsButJenjo, .regsButStreams, .streams, .parts, .part .slice, .txq, .out, .txFree] s (s.takeAck p port h nak) := by
  refine .within fun F hF => ?_
  unfold State.takeAck
  refine .ite ?_ ?_
  · exact .by (State.changes_dropFrame ..)
  · refine .ite ?_ ?_
    · exact .by (State.changes_dropFrame ..)
    · split
      · exact .by (State.changes_dropFrame ..)
      · split
        · exact .by (State.changes_dropFrame ..)
        · extract_lets e x io total seq acked sent io x
          exact .ite (.by (State.changes_dropFrame ..)) (.then (.by (State.changes_modPt _ _ [.slice])) (State.changes_resumeSending ..))

theorem State.changes_relayIn (s : State) (p port : Nat) (x : FrameInfo) (h : FabricHeader) (data : List Byte) :
    Changes [.regs, .regsButJenjo, .regsButStreams, .open_, .relays] s (s.relayIn p port x h data) := by
  refine .within fun F hF => ?_
  unfold State.relayIn
  extract_lets s1
  have h1 : Changes F s s1 := .then (.by (State.changes_incRg ..)) (State.changes_discarded ..)
  refine .ite ?_ ?_
  · exact h1
  · split
    · exact h1
    · extract_lets st
      split
      · exact h1
      · extract_lets held
        exact .ite h1 (.by (State.changes_relays _ _))

/-- What a frame that came in may change: what its slot does with it, and what a relay and a discard do. -/
theorem Changes.frameIn {F : List Aspect} {s t : State} {port : Nat} {x : FrameInfo} {h : FabricHeader} {data : List Byte}
    {own : State → Nat → State} (ht : Changes F s t) (hown : ∀ u p, Changes F u (own u p))
    (hF : [.open_, .regs, .regsButJenjo, .regsButStreams, .streams, .relays] ⊆ F := by
      refine List.Subset.trans ?_ (by assumption); decide) : Changes F s (t.frameIn port x h data own) := by
  refine ht.trans ?_
  unfold State.frameIn
  split
  · exact .by (State.changes_dropFrame ..)
  · exact .ite (.by (State.changes_dropFrame ..)) (.ite (.by (State.changes_dropFrame ..))
      (.ite (.by (State.changes_relayIn ..)) (hown ..)))

theorem State.changes_judgeClusters (s : State) (p : Nat) :
    Changes [.parts, .part .slice, .regs, .regsButJenjo, .regsButStreams] s (s.judgeClusters p) := by
  refine .within fun F hF => ?_
  unfold State.judgeClusters
  split
  · exact .refl
  · refine .foldl .refl fun u1 _ => ?_
    extract_lets cl
    exact .ite (.by (State.changes_lateCluster ..)) .refl

theorem State.changes_judgeBursts (s : State) (p b k : Nat) (r : SliceRun) :
    Changes [.parts, .part .slice] s (s.judgeBursts p b k r) := by
  refine .within fun F hF => ?_
  unfold State.judgeBursts
  exact .foldl .refl (fun _ _ => .ite .refl (.by (State.changes_late ..)))

theorem State.changes_judgeSlots (s : State) (p b k : Nat) (r : SliceRun) :
    Changes [.parts, .part .slice] s (s.judgeSlots p b k r) := by
  refine .within fun F hF => ?_
  unfold State.judgeSlots
  refine .foldl .refl fun u1 _ => ?_
  refine .ite ?_ ?_
  · exact .refl
  · extract_lets e s2
    have h2 : Changes F u1 s2 := .by (State.changes_late ..)
    exact .ite (h2.then (State.changes_faultDue ..)) h2

theorem State.changes_judgeReblock (s : State) (p b k : Nat) (r : SliceRun) :
    Changes [.parts, .part .slice] s (s.judgeReblock p b k r) := by
  refine .within fun F hF => ?_
  unfold State.judgeReblock
  exact .foldl .refl (fun _ _ => .foldl .refl (fun _ _ => .ite .refl (.by (State.changes_late ..))))

theorem State.changes_shortItem (s : State) (p u n : Nat) :
    Changes [.regs, .regsButJenjo, .regsButStreams, .open_, .parts, .part .slice] s (s.shortItem p u n) := by
  refine .within fun F hF => ?_
  unfold State.shortItem
  exact .then (.then (.by (State.changes_incRg ..)) (State.changes_count ..)) (State.changes_late ..)

theorem State.changes_judgeKettle (s : State) (p b k : Nat) (r : SliceRun) :
    Changes [.regs, .regsButJenjo, .regsButStreams, .open_, .parts, .part .slice] s (s.judgeKettle p b k r) := by
  refine .within fun F hF => ?_
  unfold State.judgeKettle
  refine .fst ?_
  refine .foldl (.mk .refl) fun u1 _ => ?_
  extract_lets e x
  split
  · exact .refl
  · extract_lets key ahead w left n
    split
    · exact .mk (.by (State.changes_shortItem ..))
    · exact .refl
    · exact .ite .refl (.mk (.by (State.changes_shortItem ..)))

theorem State.changes_judge (s : State) (p : Nat) :
    Changes [.parts, .part .slice, .regs, .regsButJenjo, .regsButStreams, .open_] s (s.judge p) := by
  refine .within fun F hF => ?_
  unfold State.judge
  split
  · exact .refl
  · exact .then (.then (.then (.then (.by (State.changes_judgeClusters ..)) (State.changes_judgeBursts ..)) (State.changes_judgeSlots ..)) (State.changes_judgeReblock ..)) (State.changes_judgeKettle ..)

theorem State.changes_edgeClear (s : State) (p : Nat) :
    Changes [.clusters, .cluster .crown, .cluster .arrays, .cluster .tiles, .cluster .napQueue, .cluster .napRegs,
      .cluster .napRun, .queues] s (s.edgeClear p) := by
  refine .within fun F hF => ?_
  unfold State.edgeClear
  split
  · exact .refl
  · extract_lets s1
    have h1 : Changes F s s1 := .foldl .refl (fun _ _ => .by (State.changes_modCl _ _ [.crown, .arrays, .tiles, .napQueue, .napRegs, .napRun]))
    exact h1.then (State.changes_queues _ _)

theorem State.changes_napAbandons (s : State) (p : Nat) :
    Changes [.open_, .clusters, .cluster .napRun, .cluster .batt, .cluster .crown, .cluster .arrays, .cluster .tiles,
      .cluster .napQueue, .cluster .napRegs, .parts, .part .slice, .regs, .regsButJenjo, .regsButStreams] s (s.napAbandons p) := by
  refine .within fun F hF => ?_
  unfold State.napAbandons
  split
  · exact .foldl .refl (fun _ _ => .by (State.changes_napAbandon ..))
  · exact .refl

theorem State.changes_takeUp (s : State) (p : Nat) :
    Changes [.resAt] s (s.takeUp p) :=
  State.changes_resAt _ _

theorem State.changes_pressSuspend (s : State) (p : Nat) :
    Changes [.parts, .regs, .regsButJenjo, .regsButStreams] s (s.pressSuspend p) := by
  refine .within fun F hF => ?_
  unfold State.pressSuspend
  extract_lets x n newest
  exact .ite (.then (.by (State.changes_modPt _ _ [])) (State.changes_setRg ..)) .refl

theorem State.changes_pressTick (s : State) (p : Nat) :
    Changes [.parts, .regs, .regsButJenjo, .regsButStreams] s (s.pressTick p) := by
  refine .within fun F hF => ?_
  unfold State.pressTick
  extract_lets x
  exact .ite .refl (.ite (.by (State.changes_modPt _ _ [])) (.ite (.by (State.changes_modPt _ _ [])) (.then (.then (.then (.by (State.changes_modPt _ _ [])) (State.changes_setRg ..)) (State.changes_incRg ..)) (State.changes_faultDue ..))))

theorem State.changes_endTick (s : State) (p : Nat) :
    Changes [.txq, .out, .txFree, .regs, .regsButJenjo, .regsButStreams, .open_, .parts, .streams, .part .slice, .clusters,
      .cluster .crown, .cluster .napRun, .cluster .batt, .cluster .arrays, .cluster .tiles, .cluster .napQueue,
      .cluster .napRegs, .draws, .res, .resChanged, .sessions, .part .jobs, .mem, .queues, .part .there, .part .settling] s (s.endTick p) := by
  refine .within fun F hF => ?_
  unfold State.endTick
  extract_lets s1 s2 step z s3 s4
  have h1 : Changes F s s1 := .then (.then (.then (.then (.by (State.changes_pump ..)) (State.changes_edgeStalls ..)) (State.changes_napAbandons ..)) (State.changes_judge ..)) (State.changes_modPt _ _ [])
  have h2 : Changes F s s2 := (h1.then (State.changes_incRg ..)).then (State.changes_modPt _ _ [])
  have h3 : Changes F s s3 := h2.then (State.changes_pressTick ..)
  have h4 : Changes F s s4 := by
    unfold s4
    split
    · extract_lets _ s5 s6 crit s7 n s8 final z s9 s10
      have h5 : Changes F s s5 := .ite (h2.then (State.changes_edgeCommits ..)) h2
      have h6 : Changes F s s6 := h5.then (State.changes_closeSweeps ..)
      have h7 : Changes F s s7 := .ite (h6.then (State.changes_faultDue ..)) h6
      have h8 : Changes F s s8 := (h7.then (State.changes_setJobF ..)).then (State.changes_setJobF ..)
      have h9 : Changes F s s9 := h8.then (State.changes_modPt _ _ [.slice, .there, .settling])
      have h10 : Changes F s s10 := .ite (h9.then (State.changes_pressSuspend ..)) h9
      exact .ite (h10.then (State.changes_modPt _ _ [])) h10
    · exact h3.then (State.changes_modPt _ _ [.there, .settling])
  exact (h4.then (State.changes_modPt _ _ [])).then (State.changes_edgeClear ..)

theorem State.changes_loadPrograms (s : State) (p j k : Nat) (bad : List Nat) :
    Changes [.clusters, .cluster .crown, .parts] s (s.loadPrograms p j k bad) := by
  refine .within fun F hF => ?_
  unfold State.loadPrograms
  extract_lets b s1
  have h1 : Changes F s s1 := by
    unfold s1
    refine .foldl .refl fun u2 _ => ?_
    split
    · exact .by (State.changes_modCl _ _ [.crown])
    · exact .refl
  exact h1.then (State.changes_modPt _ _ [])

theorem changes_execCrownProgramLoad (p : PartId) (bad : List Nat) (s : State) :
    Leads [.clusters, .cluster .crown, .parts, .now] s (execCrownProgramLoad p bad s) := by
  refine .within fun F hF => ?_
  unfold execCrownProgramLoad
  extract_lets x
  split
  · refine .takes ?_
    extract_lets s1
    have h1 : Changes F s s1 := .by (State.changes_loadPrograms ..)
    exact .ite (h1.then (State.changes_at ..)) h1
  · exact .next .refl

theorem State.changes_startConds (s : State) (p b k : Nat) :
    Changes [.parts, .part .slice] s (s.startConds p b k) := by
  refine .within fun F hF => ?_
  unfold State.startConds
  extract_lets s1 s2 s3
  have h1 : Changes F s s1 := .ite (.by (State.changes_fails ..)) .refl
  have h2 : Changes F s s2 := .ite (h1.then (State.changes_fails ..)) h1
  have h3 : Changes F s s3 := .foldl h2 (fun _ _ => .ite (.by (State.changes_ctrlConds ..)) .refl)
  refine .foldl h3 fun u4 _ => ?_
  split
  · extract_lets s5
    have h5 : Changes F u4 s5 := .ite .refl (.by (State.changes_fails ..))
    exact .ite (h5.then (State.changes_fails ..)) h5
  · exact .refl

theorem State.changes_startSlice (s : State) (p j k : Nat) :
    Changes [.clusters, .cluster .crown, .parts, .part .slice, .part .there] s (s.startSlice p j k) := by
  refine .within fun F hF => ?_
  unfold State.startSlice
  extract_lets s1 b t n s2 vs s3
  have h1 : Changes F s s1 := .ite .refl (.by (State.changes_loadPrograms ..))
  have h2 : Changes F s s2 := by
    unfold s2
    split
    · refine .foldl h1 fun u4 _ => ?_
      extract_lets l
      exact .by (State.changes_modCl _ _ [.crown])
    · exact h1
  have h3 : Changes F s s3 := h2.then (State.changes_modPt _ _ [.slice, .there])
  exact h3.then (State.changes_startConds ..)

theorem State.changes_applyStreams (s : State) (p : Nat) :
    Changes [.streams, .mem, .streamPending, .regs, .regsButJenjo] s (s.applyStreams p) := by
  refine .within fun F hF => ?_
  unfold State.applyStreams
  extract_lets mine s1 s2
  have h1 : Changes F s s1 := by
    unfold s1
    refine .foldl .refl fun u3 _ => ?_
    refine .ite ?_ ?_
    · extract_lets e
      exact .then (.by (State.changes_setStream ..)) (State.changes_memPut ..)
    · extract_lets e e
      exact .then (.by (State.changes_setStream ..)) (State.changes_memPut ..)
  have h2 : Changes F s s2 := h1.then (State.changes_streamPending _ _)
  exact h2.then (State.changes_countStreams ..)

theorem State.changes_faultHere (s : State) (p cause : Nat) :
    Changes [.parts, .part .settling] s (s.faultHere p cause) := by
  refine .within fun F hF => ?_
  unfold State.faultHere
  split
  · exact .ite (.by (State.changes_modPt _ _ [.settling])) (.by (State.changes_faultDue ..))
  · exact .by (State.changes_faultDue ..)

theorem State.changes_applyCopySwitch (s : State) (p n : Nat) :
    Changes [.parts, .draws, .res, .resChanged, .regs, .regsButJenjo, .regsButStreams, .sessions, .out, .part .settling] s (s.applyCopySwitch p n) := by
  refine .within fun F hF => ?_
  unfold State.applyCopySwitch
  extract_lets s1
  have h1 : Changes F s s1 := by
    unfold s1
    refine .foldl .refl fun u2 _ => ?_
    extract_lets e c
    split
    · exact .by (State.changes_applyCommit ..)
    · exact .then (.by (State.changes_commitRefused ..)) (State.changes_faultHere ..)
  split
  · exact .ite (h1.then (State.changes_modPt _ _ [])) .refl
  · exact .refl

theorem State.changes_clearSources (s : State) (p : Nat) :
    Changes [.res, .resChanged] s (s.clearSources p) := by
  refine .within fun F hF => ?_
  unfold State.clearSources
  exact .foldl .refl (fun _ _ => .by (State.changes_setResFld ..))

theorem State.changes_applyResume (s : State) (p n : Nat) :
    Changes [.res, .resChanged, .parts, .part .jobs, .mem, .regs, .regsButJenjo, .regsButStreams, .part .settling] s (s.applyResume p n) := by
  refine .within fun F hF => ?_
  unfold State.applyResume
  extract_lets po first s1
  have h1 : Changes F s s1 := .by (State.changes_clearSources ..)
  split
  · extract_lets upd k run s2 s3 s4
    have h2 : Changes F s s2 := h1.then (State.changes_modPt _ _ [.settling])
    have h3 : Changes F s s3 := (h2.then (State.changes_setJobF ..)).then (State.changes_setJobF ..)
    have h4 : Changes F s s4 := .then (.then (((h3.then (State.changes_setRg ..)).then (State.changes_incRg ..)).then (State.changes_setRg ..)) (State.changes_setRg ..)) (State.changes_setRg ..)
    split
    · exact .ite (((h4.then (State.changes_setRg ..)).then (State.changes_setFilter ..)).then (State.changes_updatePart ..)) .refl
    · exact .refl
  · exact .refl

theorem State.changes_startJobs (s : State) (p n : Nat) :
    Changes [.parts, .part .jobs, .mem, .part .pins, .regs, .regsButJenjo, .regsButStreams, .sessions, .out] s (s.startJobs p n) := by
  refine .within fun F hF => ?_
  unfold State.startJobs
  extract_lets x due busy
  clear_value due
  split
  · exact .ite (.foldl .refl (fun _ _ => .by (State.changes_blockStart ..))) (.foldl (.by (State.changes_startJob ..)) (fun _ _ => .by (State.changes_blockStart ..)))
  · split
    · exact .ite .refl (.by (State.changes_startJob ..))
    · exact .refl

theorem State.changes_applyCancels (s : State) (p n : Nat) :
    Changes [.parts, .regs, .regsButJenjo, .regsButStreams, .part .jobs, .mem, .slots, .sessions, .out, .part .pins,
      .checks] s (s.applyCancels p n) := by
  refine .within fun F hF => ?_
  unfold State.applyCancels
  extract_lets x final due all s1
  have h1 : Changes F s s1 := .foldl .refl (fun _ _ => .by (State.changes_cancelJob ..))
  exact h1.then (State.changes_modPt _ _ [])

theorem State.changes_sendRound1 (s : State) (p : Nat) :
    Changes [.txq, .out, .txFree, .regs, .regsButJenjo, .regsButStreams, .open_, .parts, .streams, .part .slice] s (s.sendRound1 p) := by
  refine .within fun F hF => ?_
  unfold State.sendRound1
  split
  · refine .ite ?_ ?_
    · exact .refl
    · extract_lets v
      exact .by (State.changes_sendStatus ..)
  · exact .refl

theorem State.changes_traceTick (s : State) (p n : Nat) :
    Changes [.clusters, .regs, .regsButJenjo, .regsButStreams, .parts] s (s.traceTick p n) := by
  refine .within fun F hF => ?_
  unfold State.traceTick
  split
  · exact .foldl .refl (fun _ _ => .then (.by (State.changes_trace ..)) (State.changes_traceFire ..))
  · exact .refl

theorem State.changes_applyGauge (s : State) (p : Nat) :
    Changes [.clusters, .parts] s (s.applyGauge p) := by
  refine .within fun F hF => ?_
  unfold State.applyGauge
  extract_lets g
  split
  · exact .then (.foldl .refl (fun _ _ => .by (State.changes_modCl _ _ []))) (State.changes_modPt _ _ [])
  · exact .refl

theorem State.changes_beginTick (s : State) (p g n len : Nat) :
    Changes [.now, .open_, .withheldFrom, .closed, .totals, .parts, .regs, .regsButJenjo, .regsButStreams, .sessions, .out,
      .part .gen, .resAt, .streams, .mem, .streamPending, .part .jobs, .slots, .part .pins, .checks, .res,
      .resChanged, .draws, .txq, .txFree, .part .slice, .clusters, .cluster .crown, .part .there, .part .settling] s (s.beginTick p g n len) := by
  refine .within fun F hF => ?_
  unfold State.beginTick
  extract_lets s1 s2 s3 s4 s5 s6 s7 s8
  have h1 : Changes F s s1 := .by (State.changes_at ..)
  have h2 : Changes F s s2 := by
    unfold s2
    split
    · exact .ite (h1.then (State.changes_takeSnapshot ..)) (h1.then (State.changes_switchBanks ..))
    · exact h1.then (State.changes_switchBanks ..)
  have h3 : Changes F s s3 := .ite (h2.then (State.changes_imageEdge ..)) h2
  have h4 : Changes F s s4 := h3.then (State.changes_modPt _ _ [.gen])
  have h5 : Changes F s s5 := h4.then (State.changes_setRg ..)
  have h6 : Changes F s s6 := .then (.then (.then (((h5.then (State.changes_takeUp ..)).then (State.changes_applyStreams ..)).then (State.changes_applyCancels ..)) (State.changes_applyAbandon ..)) (State.changes_applyResume ..)) (State.changes_applyCopySwitch ..)
  have h7 : Changes F s s7 := (h6.then (State.changes_sendRound1 ..)).then (State.changes_startJobs ..)
  have h8 : Changes F s s8 := (h7.then (State.changes_applyGauge ..)).then (State.changes_traceTick ..)
  split
  · refine .ite ?_ ?_
    · exact h8
    · extract_lets first s9
      have h9 : Changes F s s9 := h8.then (State.changes_startSlice ..)
      exact .ite (h9.then (State.changes_dumpStepStart ..)) h9
  · exact h8

theorem State.changes_firstTick (s : State) (p : Nat) :
    Changes [.now, .open_, .withheldFrom, .closed, .totals, .parts, .regs, .regsButJenjo, .regsButStreams, .sessions, .out,
      .part .gen, .resAt, .streams, .mem, .streamPending, .part .jobs, .slots, .part .pins, .checks, .res,
      .resChanged, .draws, .txq, .txFree, .part .slice, .clusters, .cluster .crown, .part .there, .part .settling] s (s.firstTick p) := by
  refine .within fun F hF => ?_
  unfold State.firstTick
  extract_lets g len
  exact .by (State.changes_beginTick ..)

theorem changes_execTickEdge (p : PartId) (s : State) :
    Leads [.now, .open_, .withheldFrom, .closed, .totals, .parts, .regs, .regsButJenjo, .regsButStreams, .sessions, .out,
      .part .gen, .resAt, .streams, .mem, .streamPending, .part .jobs, .slots, .part .pins, .checks, .res,
      .resChanged, .draws, .txq, .txFree, .part .slice, .clusters, .cluster .crown, .cluster .napRun, .cluster .batt,
      .cluster .arrays, .cluster .tiles, .cluster .napQueue, .cluster .napRegs, .queues, .part .there, .part .settling] s (execTickEdge p s) := by
  refine .within fun F hF => ?_
  unfold execTickEdge
  extract_lets g e
  refine .ite ?_ ?_
  · exact .takes (.by (State.changes_firstTick ..))
  · refine .takes ?_
    extract_lets s1
    have h1 : Changes F s s1 := .then (.by (State.changes_at ..)) (State.changes_endTick ..)
    exact .ite ((h1.then (State.changes_switchBanks ..)).then (State.changes_modPt _ _ [.gen])) (h1.then (State.changes_beginTick ..))

theorem changes_execTickGeneratorRestart (p : PartId) (s : State) :
    Leads [.now, .open_, .withheldFrom, .closed, .totals, .parts, .regs, .regsButJenjo, .regsButStreams, .sessions, .out,
      .part .gen, .resAt, .streams, .mem, .streamPending, .part .jobs, .slots, .part .pins, .checks, .res,
      .resChanged, .draws, .txq, .txFree, .part .slice, .clusters, .cluster .crown, .part .there, .part .settling] s (execTickGeneratorRestart p s) := by
  refine .within fun F hF => ?_
  unfold execTickGeneratorRestart
  extract_lets g
  exact .takes (.by (State.changes_firstTick ..))

theorem State.changes_guardClusters (s : State) (p : Nat) :
    Changes [.parts, .part .slice, .regs, .regsButJenjo, .regsButStreams] s (s.guardClusters p) := by
  refine .within fun F hF => ?_
  unfold State.guardClusters
  split
  · exact .refl
  · refine .foldl .refl fun u1 _ => ?_
    extract_lets cl
    exact .ite (.by (State.changes_lateCluster ..)) .refl

theorem changes_execClosingGuard (p : PartId) (s : State) :
    Leads [.now, .txq, .out, .txFree, .regs, .regsButJenjo, .regsButStreams, .open_, .parts, .streams, .part .slice] s (execClosingGuard p s) := by
  refine .within fun F hF => ?_
  unfold execClosingGuard
  refine .takes ?_
  extract_lets s1 waits s2
  have h1 : Changes F s s1 := .then (.by (State.changes_at ..)) (State.changes_pump ..)
  have h2 : Changes F s s2 := h1.then (State.changes_guardClusters ..)
  split
  · exact .refl
  · extract_lets s3 s4 s5 s6
    have h3 : Changes F s s3 := .foldl h2 (fun _ _ => .ite (.by (State.changes_late ..)) .refl)
    have h4 : Changes F s s4 := .foldl h3 (fun _ _ => .ite (.by (State.changes_late ..)) .refl)
    have h5 : Changes F s s5 := .foldl h4 (fun _ _ => .foldl .refl (fun _ _ => .ite (.by (State.changes_late ..)) .refl))
    have h6 : Changes F s s6 := by
      unfold s6
      refine .foldl h5 fun u7 _ => ?_
      split
      · exact .ite (.by (State.changes_late ..)) .refl
      · exact .refl
    exact h6.then (State.changes_modPt _ _ [.slice])

theorem State.changes_setSettling (s : State) (p : Nat) (f : Settling → Settling) :
    Changes [.parts, .part .settling] s (s.setSettling p f) :=
  State.changes_modPt _ _ [.settling]

theorem changes_execRound2Send (p : PartId) (s : State) :
    Leads [.now, .txq, .out, .txFree, .regs, .regsButJenjo, .regsButStreams, .open_, .parts, .streams, .part .slice, .part .settling] s (execRound2Send p s) := by
  refine .within fun F hF => ?_
  unfold execRound2Send
  split
  · exact .next .refl
  · refine .takes ?_
    extract_lets s1
    have h1 : Changes F s s1 := .by (State.changes_at ..)
    exact (h1.then (State.changes_sendStatus ..)).then (State.changes_setSettling ..)

theorem State.changes_haltRx (s : State) (p : Nat) (z : Settling) :
    Changes [.parts, .regs, .regsButJenjo, .regsButStreams, .part .slice, .clusters, .cluster .crown, .cluster .arrays,
      .cluster .napQueue, .cluster .napRun, .part .jobs, .mem, .slots, .sessions, .out, .part .pins, .part .there, .part .settling] s (s.haltRx p z) := by
  refine .within fun F hF => ?_
  unfold State.haltRx
  exact .ite (.then (.by (State.changes_setSettling ..)) (State.changes_stopJob ..)) (.by (State.changes_setSettling ..))

theorem changes_execTickStatusRx (port : PortId) (at_ : Nat) (f : StatusFrame) (s : State) :
    Leads [.now, .regs, .regsButJenjo, .regsButStreams, .open_, .parts, .part .slice, .clusters, .cluster .crown,
      .cluster .arrays, .cluster .napQueue, .cluster .napRun, .part .jobs, .mem, .slots, .sessions, .out,
      .part .pins, .part .there, .part .settling] s (execTickStatusRx port at_ f s) := by
  refine .within fun F hF => ?_
  unfold execTickStatusRx
  refine .takes ?_
  extract_lets s1 v
  have h1 : Changes F s s1 := .then (.by (State.changes_at ..)) (State.changes_incRg ..)
  split
  · exact h1
  · extract_lets s2
    have h2 : Changes F s s2 := h1.then (State.changes_count ..)
    refine .ite ?_ ?_
    · exact h2.then (State.changes_incRg ..)
    · split
      · exact h2
      · refine .ite ?_ ?_
        · exact h2
        · extract_lets keep s3
          have h3 : Changes F s s3 := h2.then (State.changes_setSettling ..)
          exact .ite (h2.then (State.changes_setSettling ..)) (.ite (.ite (h3.then (State.changes_haltRx ..)) h3) h2)

theorem State.changes_moduleLost (s : State) (p m : Nat) :
    Changes [.regs, .regsButJenjo, .regsButStreams, .parts, .sessions, .out] s (s.moduleLost p m) := by
  refine .within fun F hF => ?_
  unfold State.moduleLost
  extract_lets s1 started s2 s3
  have h1 : Changes F s s1 := .by (State.changes_setRg ..)
  have h2 : Changes F s s2 := .ite (h1.then (State.changes_setRg ..)) h1
  have h3 : Changes F s s3 := .ite ((h2.then (State.changes_setRg ..)).then (State.changes_modPt _ _ [])) h2
  exact h3.then (State.changes_notify ..)

theorem State.changes_countSilence (s : State) (p modules silent : Nat) :
    Changes [.regs, .regsButJenjo, .regsButStreams, .parts, .sessions, .out] s (s.countSilence p modules silent) := by
  refine .within fun F hF => ?_
  unfold State.countSilence
  extract_lets s1
  have h1 : Changes F s s1 := .ite (.by (State.changes_incRg ..)) .refl
  refine .foldl h1 fun u2 _ => ?_
  extract_lets n s3
  have h3 : Changes F u2 s3 := .by (State.changes_modPt _ _ [])
  exact .ite (h3.then (State.changes_moduleLost ..)) h3

theorem State.changes_settleTags (s : State) (p b : Nat) (z : Settling) (drops : List Nat) :
    Changes [.parts, .res, .resChanged, .sessions, .out, .regs, .regsButJenjo, .regsButStreams] s (s.settleTags p b z drops) := by
  refine .within fun F hF => ?_
  unfold State.settleTags
  extract_lets s1 later gone
  have h1 : Changes F s s1 := .foldl .refl (fun _ _ => .ite (.by (State.changes_revert ..)) .refl)
  exact .foldl h1 (fun _ _ => .ite (.by (State.changes_setResFld ..)) .refl)

theorem State.changes_mergeNotes (s : State) (p : Nat) (z : Settling) (drops : List Nat) :
    Changes [.regs, .regsButJenjo, .regsButStreams, .mem, .parts] s (s.mergeNotes p z drops) := by
  refine .within fun F hF => ?_
  unfold State.mergeNotes
  refine .foldl .refl fun u1 _ => ?_
  extract_lets v a m
  exact .ite (.by (State.changes_incRg ..)) (.ite .refl (.then (.by (State.changes_memPut ..)) (State.changes_tear ..)))

theorem State.changes_historyUpdate (s : State) (p b step : Nat) :
    Changes [.parts, .mem, .res, .resChanged, .regs, .regsButJenjo, .regsButStreams] s (s.historyUpdate p b step) := by
  refine .within fun F hF => ?_
  unfold State.historyUpdate
  refine .foldl .refl fun u1 _ => ?_
  extract_lets e cur k s2
  have h2 : Changes F u1 s2 := .by (State.changes_keepFormer ..)
  split
  · extract_lets s3 s4
    have h3 : Changes F u1 s3 := h2.then (State.changes_memPut ..)
    have h4 : Changes F u1 s4 := ((h3.then (State.changes_setResFld ..)).then (State.changes_advance ..)).then (State.changes_tear ..)
    exact .ite (h4.then (State.changes_incRg ..)) h4

theorem State.changes_classifyWork (s : State) (p : Nat) (z : Settling) (drops : List Nat) :
    Changes [.closed, .totals, .parts, .regs, .regsButJenjo, .regsButStreams] s (s.classifyWork p z drops) := by
  refine .within fun F hF => ?_
  unfold State.classifyWork
  refine .foldl .refl fun u1 _ => ?_
  split
  · extract_lets u s2
    have h2 : Changes F u1 s2 := .ite (.by (State.changes_countWasted ..)) .refl
    exact .ite (h2.then (State.changes_modPt _ _ [])) (.ite h2 (.ite (h2.then (State.changes_modPt _ _ [])) (h2.then (State.changes_incRg ..))))

theorem State.changes_replayJoin (s : State) (p : Nat) (z : Settling) (own recd base kind : Nat) :
    ChangesFst [.regs, .regsButJenjo, .regsButStreams, .sessions, .out] s (s.replayJoin p z own recd base kind) := by
  refine .within fun F hF => ?_
  unfold State.replayJoin
  refine .ite ?_ ?_
  · extract_lets s1
    have h1 : Changes F s s1 := .foldl .refl (fun _ _ => .then (.by (State.changes_incRg ..)) (State.changes_notify ..))
    exact .mk h1
  · exact .mk .refl

theorem State.changes_resolve (s : State) (p : Nat) (z : Settling) (d : Decided) :
    ChangesFst [.parts, .draws, .res, .resChanged, .regs, .regsButJenjo, .regsButStreams, .sessions, .out] s (s.resolve p z d) := by
  refine .within fun F hF => ?_
  unfold State.resolve
  extract_lets todo bars
  exact .ite (.mk (.foldl .refl (fun _ _ => .by (State.changes_applyCommit ..)))) (.mk (.foldl .refl (fun _ _ => .by (State.changes_commitRefused ..))))

theorem State.changes_settleSlice (s : State) (p b : Nat) (z : Settling) (drops : List Nat) :
    Changes [.parts, .res, .resChanged, .sessions, .out, .regs, .regsButJenjo, .regsButStreams, .mem] s (s.settleSlice p b z drops) := by
  refine .within fun F hF => ?_
  unfold State.settleSlice
  extract_lets s1 s2
  have h1 : Changes F s s1 := .by (State.changes_settleTags ..)
  have h2 : Changes F s s2 := h1.then (State.changes_mergeNotes ..)
  exact .ite ((h2.then (State.changes_historyUpdate ..)).then (State.changes_clearSources ..)) h2

theorem State.changes_decideSlice (s : State) (p : Nat) (z : Settling) (recMb recBuckets : Nat) :
    Changes [.regs, .regsButJenjo, .regsButStreams, .sessions, .out, .parts, .closed, .totals, .draws, .res, .resChanged,
      .mem, .part .slice, .clusters, .cluster .crown, .cluster .arrays, .cluster .napQueue, .cluster .napRun,
      .part .jobs, .slots, .part .pins, .part .there, .part .settling] s (s.decideSlice p z recMb recBuckets) := by
  refine .within fun F hF => ?_
  unfold State.decideSlice
  extract_lets b v silent lost cause fault
  split
  next _ s1 _ e1 =>
    have h1 : Changes F s s1 := .of_eq (Changes.thenFst .refl (State.changes_replayJoin ..)) e1
    extract_lets ids
    split
    next _ s2 _ e2 =>
      have h2 : Changes F s s2 := .of_eq (Changes.thenFst h1 (State.changes_replayJoin ..)) e2
      extract_lets s3 groups x s4 s5 s6 drops s7
      have h3 : Changes F s s3 := h2.then (State.changes_countSilence ..)
      have h4 : Changes F s s4 := h3.then (State.changes_incRg ..)
      have h5 : Changes F s s5 := h4.then (State.changes_incRg ..)
      have h6 : Changes F s s6 := h5.then (State.changes_modPt _ _ [])
      have h7 : Changes F s s7 := h6.then (State.changes_classifyWork ..)
      split
      next _ s8 _ e8 =>
        have h8 : Changes F s s8 := .of_eq (.ite (.mk h7) (Changes.thenFst h7 (State.changes_resolve ..))) e8
        extract_lets s9 cause s10
        have h9 : Changes F s s9 := .ite h8 (h8.then (State.changes_settleSlice ..))
        have h10 : Changes F s s10 := h9.then (State.changes_setSettling ..)
        exact .ite (h10.then (State.changes_stopJob ..)) h10

theorem State.changes_decidePlain (s : State) (p : Nat) (z : Settling) :
    Changes [.regs, .regsButJenjo, .regsButStreams, .parts, .sessions, .out, .part .slice, .clusters, .cluster .crown,
      .cluster .arrays, .cluster .napQueue, .cluster .napRun, .part .jobs, .mem, .slots, .part .pins, .part .there, .part .settling] s (s.decidePlain p z) := by
  refine .within fun F hF => ?_
  unfold State.decidePlain
  extract_lets silent s1 lost cause s2
  have h1 : Changes F s s1 := .by (State.changes_countSilence ..)
  have h2 : Changes F s s2 := h1.then (State.changes_setSettling ..)
  exact .ite (.ite (h2.then (State.changes_stopJob ..)) h2) (.ite ((h2.then (State.changes_setRg ..)).then (State.changes_modPt _ _ [])) h2)

theorem changes_execSettleDecide (p : PartId) (recMb recBuckets : Nat) (s : State) :
    Leads [.now, .regs, .regsButJenjo, .regsButStreams, .sessions, .out, .parts, .closed, .totals, .draws, .res,
      .resChanged, .mem, .part .slice, .clusters, .cluster .crown, .cluster .arrays, .cluster .napQueue,
      .cluster .napRun, .part .jobs, .slots, .part .pins, .part .there, .part .settling] s (execSettleDecide p recMb recBuckets s) := by
  refine .within fun F hF => ?_
  unfold execSettleDecide
  split
  · exact .next .refl
  · refine .takes ?_
    extract_lets s1
    have h1 : Changes F s s1 := .by (State.changes_at ..)
    exact .ite (h1.then (State.changes_decideSlice ..)) (h1.then (State.changes_decidePlain ..))

theorem State.changes_writeRecord (s : State) (p : Nat) (z : Settling) :
    Changes [.regs, .regsButJenjo, .regsButStreams] s (s.writeRecord p z) := by
  refine .within fun F hF => ?_
  unfold State.writeRecord
  extract_lets own put s1 s2 s3 s4 s5 s6 s7 s8 s9 s10 s11 s12
  have h1 : Changes F s s1 := .by (State.changes_setRg ..)
  have h2 : Changes F s s2 := h1.then (State.changes_setRg ..)
  have h3 : Changes F s s3 := h2.then (State.changes_setRg ..)
  have h4 : Changes F s s4 := h3.then (State.changes_setRg ..)
  have h5 : Changes F s s5 := h4.then (State.changes_setRg ..)
  have h6 : Changes F s s6 := h5.then (State.changes_setRg ..)
  have h7 : Changes F s s7 := h6.then (State.changes_setRg ..)
  have h8 : Changes F s s8 := h7.then (State.changes_setRg ..)
  have h9 : Changes F s s9 := h8.then (State.changes_setRg ..)
  have h10 : Changes F s s10 := h9.then (State.changes_setRg ..)
  have h11 : Changes F s s11 := h10.then (State.changes_setRg ..)
  have h12 : Changes F s s12 := h11.then (State.changes_setRg ..)
  exact .ite (h12.then (State.changes_setRg ..)) h12

theorem State.changes_countRecord (s : State) (p : Nat) (z : Settling) :
    Changes [.regs, .regsButJenjo, .regsButStreams] s (s.countRecord p z) := by
  refine .within fun F hF => ?_
  unfold State.countRecord
  extract_lets f s1 s2 s3 s4
  have h1 : Changes F s s1 := .ite (.by (State.changes_incRg ..)) .refl
  have h2 : Changes F s s2 := .ite (h1.then (State.changes_incRg ..)) h1
  have h3 : Changes F s s3 := .ite (h2.then (State.changes_incRg ..)) h2
  have h4 : Changes F s s4 := .ite (h3.then (State.changes_incRg ..)) h3
  exact .foldl h4 (fun _ _ => .ite (.by (State.changes_incRg ..)) .refl)

theorem State.changes_writeLedger (s : State) (p b : Nat) (z : Settling) :
    Changes [.mem, .parts, .regs, .regsButJenjo, .regsButStreams] s (s.writeLedger p b z) := by
  refine .within fun F hF => ?_
  unfold State.writeLedger
  refine .ite ?_ ?_
  · extract_lets i e x row
    exact .then (.then (.by (State.changes_memPut ..)) (State.changes_tear ..)) (State.changes_incRg ..)
  · exact .refl

theorem State.changes_writePosition (s : State) (p b : Nat) (z : Settling) :
    Changes [.parts] s (s.writePosition p b z) := by
  refine .within fun F hF => ?_
  unfold State.writePosition
  extract_lets cur r
  exact .by (State.changes_modPt _ _ [])

theorem State.changes_latchSlots (s : State) (p : Nat) :
    Changes [.regs, .regsButJenjo, .regsButStreams] s (s.latchSlots p) := by
  refine .within fun F hF => ?_
  unfold State.latchSlots
  extract_lets x at_ wasted vals
  exact .foldl .refl (fun _ _ => .then (.by (State.changes_setRg ..)) (State.changes_incRg ..))

theorem State.changes_recordStep (s : State) (p : Nat) (z : Settling) (goes : Bool) :
    Changes [.regs, .regsButJenjo, .regsButStreams, .mem, .parts] s (s.recordStep p z goes) := by
  refine .within fun F hF => ?_
  unfold State.recordStep
  extract_lets b x s1 s2 s3 s4 s5 gen
  have h1 : Changes F s s1 := .by (State.changes_setRg ..)
  have h2 : Changes F s s2 := h1.then (State.changes_setRg ..)
  have h3 : Changes F s s3 := h2.then (State.changes_writeLedger ..)
  have h4 : Changes F s s4 := .ite (h3.then (State.changes_writePosition ..)) h3
  have h5 : Changes F s s5 := (h4.then (State.changes_latchSlots ..)).then (State.changes_dumpStepEnd ..)
  exact h5.then (State.changes_modPt _ _ [])

theorem State.changes_writeThrough (s : State) (p : Nat) :
    Changes [.resChanged, .mem] s (s.writeThrough p) := by
  refine .within fun F hF => ?_
  unfold State.writeThrough
  split
  · extract_lets s1
    have h1 : Changes F s s1 := .foldl (.by (State.changes_resChanged _ _)) (fun _ _ => .by (State.changes_resWriteBack ..))
    exact .foldl h1 (fun _ _ => .by (State.changes_memPut ..))

theorem changes_execStatusRecordWrite (p : PartId) (s : State) :
    Leads [.now, .regs, .regsButJenjo, .regsButStreams, .mem, .parts, .slots, .sessions, .out, .txq, .txFree, .open_,
      .streams, .part .slice, .resChanged, .part .settling] s (execStatusRecordWrite p s) := by
  refine .within fun F hF => ?_
  unfold execStatusRecordWrite
  split
  · exact .next .refl
  · refine .takes ?_
    extract_lets s1 s2 st goes s3 s4 s5 s6
    have h1 : Changes F s s1 := .then (.by (State.changes_at ..)) (State.changes_writeRecord ..)
    have h2 : Changes F s s2 := h1.then (State.changes_countRecord ..)
    have h3 : Changes F s s3 := .ite (h2.then (State.changes_recordStep ..)) h2
    have h4 : Changes F s s4 := .ite (.ite h3 (h3.then (State.changes_modPt _ _ []))) h1
    have h5 : Changes F s s5 := .ite (h4.then (State.changes_endGen ..)) h4
    have h6 : Changes F s s6 := .ite (h5.then (State.changes_sendStatus ..)) h5
    exact (h6.then (State.changes_writeThrough ..)).then (State.changes_setSettling ..)

theorem changes_execJobComplete (p : PartId) (s : State) :
    Leads [.now, .parts, .part .jobs, .mem, .slots, .regs, .regsButJenjo, .regsButStreams, .sessions, .out, .part .pins] s (execJobComplete p s) := by
  refine .within fun F hF => ?_
  unfold execJobComplete
  split
  · exact .next .refl
  · exact .takes (.then (.by (State.changes_at ..)) (State.changes_endJob ..))

end Sys2Proof.Machine

/-! ## What ports, transport and the tables change

Ports, the transport, slot tables and generation. -/

namespace Sys2Proof.Machine
open Sys2Proof

-- Short theorems, many of them: one after another, so that the threads' stacks stay within the check's memory.
set_option Elab.async false

theorem State.changes_failsOnPort (s : State) (port b : Nat) :
    Changes [.parts, .part .slice] s (s.failsOnPort port b) := by
  refine .within fun F hF => ?_
  unfold State.failsOnPort
  exact .foldl .refl (fun _ _ => .ite (.by (State.changes_fails ..)) .refl)

theorem State.changes_portLeaves (s : State) (port st : Nat) :
    Changes [.parts, .part .slice, .regs, .regsButJenjo, .regsButStreams, .sessions, .out, .txq, .streams, .txFree, .open_] s (s.portLeaves port st) := by
  refine .within fun F hF => ?_
  unfold State.portLeaves
  refine .ite ?_ ?_
  · extract_lets s1 s2 s3 s4
    have h1 : Changes F s s1 := .by (State.changes_failsOnPort ..)
    have h2 : Changes F s s2 := ((h1.then (State.changes_setRg ..)).then (State.changes_incRg ..)).then (State.changes_notify ..)
    have h3 : Changes F s s3 := h2.then (State.changes_txq _ _)
    have h4 : Changes F s s4 := h3.then (State.changes_failover ..)
    refine .ite ?_ ?_
    · split
      · exact h4.then (State.changes_resumeSending ..)
      · exact h4
    · exact h3
  · exact .by (State.changes_setRg ..)

theorem changes_execPortUp (port : PortId) (at_ : Nat) (s : State) :
    Leads [.now, .txq, .out, .txFree, .regs, .regsButJenjo, .regsButStreams, .open_, .parts, .streams, .part .slice,
      .upSince, .sessions] s (execPortUp port at_ s) := by
  refine .within fun F hF => ?_
  unfold execPortUp
  refine .takes ?_
  extract_lets s1 s2 s3 s4
  have h1 : Changes F s s1 := .then (.by (State.changes_portTime ..)) (State.changes_setRg ..)
  have h2 : Changes F s s2 := h1.then (State.changes_upSince _ _)
  have h3 : Changes F s s3 := h2.then (State.changes_notify ..)
  have h4 : Changes F s s4 := h3.then (State.changes_rejoin ..)
  refine .ite ?_ ?_
  · split
    · exact h4.then (State.changes_resumeSending ..)
    · exact h4
  · exact h3

theorem changes_execPortDown (port : PortId) (at_ : Nat) (s : State) :
    Leads [.now, .txq, .out, .txFree, .regs, .regsButJenjo, .regsButStreams, .open_, .parts, .streams, .part .slice,
      .sessions] s (execPortDown port at_ s) := by
  refine .within fun F hF => ?_
  unfold execPortDown
  exact .takes (.then (.by (State.changes_portTime ..)) (State.changes_portLeaves ..))

theorem State.changes_adminWritten (s : State) (port v : Nat) :
    Changes [.parts, .part .slice, .regs, .regsButJenjo, .regsButStreams, .sessions, .out, .txq, .streams, .txFree, .open_] s (s.adminWritten port v) := by
  refine .within fun F hF => ?_
  unfold State.adminWritten
  exact .ite (.by (State.changes_portLeaves ..)) (.ite (.by (State.changes_setRg ..)) .refl)

theorem State.changes_adapt (s : State) (port v : Nat) :
    ChangesFst [.parts, .part .slice, .regs, .regsButJenjo, .regsButStreams, .sessions, .out, .txq, .streams, .txFree, .open_] s (s.adapt port v) := by
  refine .within fun F hF => ?_
  unfold State.adapt
  exact .ite (.mk .refl) (.mk (.then (.by (State.changes_failsOnPort ..)) (State.changes_portLeaves ..)))

theorem changes_execAdapt (sess : Nat) (port : PortId) (s : State) :
    Leads [.parts, .part .slice, .regs, .regsButJenjo, .regsButStreams, .sessions, .out, .txq, .streams, .txFree, .open_] s (execAdapt sess port s) := by
  refine .within fun F hF => ?_
  unfold execAdapt
  exact .takes (.fst (Changes.thenFst .refl (State.changes_adapt ..)))

theorem changes_execFailback (stream : Nat) (s : State) :
    Leads [.streams] s (execFailback stream s) := by
  refine .within fun F hF => ?_
  unfold execFailback
  extract_lets e p
  exact .takes (.by (State.changes_setStreamFld ..))

theorem State.changes_ownerLinkFails (s : State) (port : Nat) :
    Changes [.parts, .part .slice] s (s.ownerLinkFails port) := by
  refine .within fun F hF => ?_
  unfold State.ownerLinkFails
  split
  · exact .by (State.changes_fails ..)
  · exact .refl

theorem changes_execFecUncorrectable (port : PortId) (codewords corrected : Nat) (s : State) :
    Leads [.regs, .regsButJenjo, .regsButStreams, .open_, .parts, .part .slice] s (execFecUncorrectable port codewords corrected s) := by
  refine .within fun F hF => ?_
  unfold execFecUncorrectable
  refine .takes ?_
  extract_lets s1 s2
  have h1 : Changes F s s1 := .by (State.changes_incRg ..)
  have h2 : Changes F s s2 := ((h1.then (State.changes_incRg ..)).then (State.changes_discarded ..)).then (State.changes_ownerLinkFails ..)
  refine .ite ?_ ?_
  · exact h1
  · split
    · exact h2.then (State.changes_count ..)
    · exact h2

theorem State.changes_countPause (s : State) (port : Nat) :
    Changes [.regs, .regsButJenjo, .regsButStreams, .open_, .pauseFrom] s (s.countPause port) := by
  refine .within fun F hF => ?_
  unfold State.countPause
  split
  · exact .refl
  · extract_lets ns s1 s2
    have h1 : Changes F s s1 := .by (State.changes_incRg ..)
    have h2 : Changes F s s2 := by
      unfold s2
      split
      · exact h1.then (State.changes_count ..)
      · exact h1
    exact h2.then (State.changes_pauseFrom _ _)

theorem changes_execPauseFrame (port : PortId) (at_ : Nat) (all_ : Bool) (times : List (Nat × Nat)) (s : State) :
    Leads [.now, .txq, .out, .txFree, .regs, .regsButJenjo, .regsButStreams, .open_, .parts, .streams, .part .slice,
      .pauseFrom, .pauseEnd] s (execPauseFrame port at_ all_ times s) := by
  refine .within fun F hF => ?_
  unfold execPauseFrame
  refine .takes ?_
  extract_lets s1 holds s2 s3
  have h1 : Changes F s s1 := .then (.then (.by (State.changes_portTime ..)) (State.changes_incRg ..)) (State.changes_countPause ..)
  have h2 : Changes F s s2 := .foldl h1 (fun _ _ => .by (State.changes_pauseEnd _ _))
  have h3 : Changes F s s3 := .ite (h2.then (State.changes_pauseFrom _ _)) h2
  exact (h3.then (State.changes_ownerLinkFails ..)).then (State.changes_resumePort ..)

theorem changes_execPauseExpire (port : PortId) (at_ : Nat) (s : State) :
    Leads [.now, .txq, .out, .txFree, .regs, .regsButJenjo, .regsButStreams, .open_, .parts, .streams, .part .slice,
      .pauseFrom] s (execPauseExpire port at_ s) := by
  refine .within fun F hF => ?_
  unfold execPauseExpire
  exact .takes (.then (.then (.by (State.changes_portTime ..)) (State.changes_countPause ..)) (State.changes_resumePort ..))

theorem changes_execHostPauseTx (level : Nat) (s : State) :
    Leads [.hostPause, .out, .regs, .regsButJenjo, .regsButStreams, .open_] s (execHostPauseTx level s) := by
  refine .within fun F hF => ?_
  unfold execHostPauseTx
  extract_lets mode on
  refine .takes ?_
  extract_lets prio
  exact .then (.then (.by (State.changes_hostPause _ _)) (State.changes_emit ..)) (State.changes_sentOn ..)

theorem State.changes_negotiateLpi (s : State) (port : Nat) :
    Changes [.regs, .regsButJenjo, .regsButStreams] s (s.negotiateLpi port) := by
  refine .within fun F hF => ?_
  unfold State.negotiateLpi
  extract_lets peer ext ok
  exact .by (State.changes_setRg ..)

theorem State.changes_sendLldp (s : State) (port : Nat) :
    Changes [.txq, .out, .txFree, .regs, .regsButJenjo, .regsButStreams, .open_, .parts, .streams, .part .slice] s (s.sendLldp port) :=
  State.changes_send ..

theorem changes_execLldp (port : PortId) (mac : Nat) (wake : Option Nat) (s : State) :
    Leads [.regs, .regsButJenjo, .regsButStreams, .open_, .peerWake, .txq, .out, .txFree, .parts, .streams, .part .slice] s (execLldp port mac wake s) := by
  refine .within fun F hF => ?_
  unfold execLldp
  refine .takes ?_
  extract_lets s1 s2
  have h1 : Changes F s s1 := .then (.by (State.changes_received ..)) (State.changes_setRg ..)
  have h2 : Changes F s s2 := h1.then (State.changes_peerWake _ _)
  exact (h2.then (State.changes_negotiateLpi ..)).then (State.changes_sendLldp ..)

theorem State.changes_sendHello (s : State) (port kind sleepNs : Nat) :
    Changes [.txq, .out, .txFree, .regs, .regsButJenjo, .regsButStreams, .open_, .parts, .streams, .part .slice] s (s.sendHello port kind sleepNs) :=
  State.changes_send ..

theorem changes_execLpiEnter (port : PortId) (from_ until_ : Nat) (s : State) :
    Leads [.now, .txq, .out, .txFree, .regs, .regsButJenjo, .regsButStreams, .open_, .parts, .streams, .part .slice,
      .lpiEnd] s (execLpiEnter port from_ until_ s) := by
  refine .within fun F hF => ?_
  unfold execLpiEnter
  extract_lets w
  refine .takes ?_
  extract_lets ext s1 s2
  have h1 : Changes F s s1 := .by (State.changes_portTime ..)
  have h2 : Changes F s s2 := .ite (h1.then (State.changes_sendHello ..)) h1
  exact (h2.then (State.changes_lpiEnd _ _)).then (State.changes_setRg ..)

theorem State.changes_wakeTx (s : State) (port : Nat) :
    Changes [.lpiEnd, .txFree, .regs, .regsButJenjo, .regsButStreams] s (s.wakeTx port) := by
  refine .within fun F hF => ?_
  unfold State.wakeTx
  exact .then (.by (.record (G := [.lpiEnd, .txFree]))) (State.changes_setRg ..)

theorem changes_execLpiWake (port : PortId) (s : State) :
    Leads [.now, .txq, .out, .txFree, .regs, .regsButJenjo, .regsButStreams, .open_, .parts, .streams, .part .slice,
      .lpiEnd] s (execLpiWake port s) := by
  refine .within fun F hF => ?_
  unfold execLpiWake
  exact .takes (.then (.by (State.changes_portTime ..)) (State.changes_wakeTx ..))

theorem changes_execLpiEarlyWake (port : PortId) (at_ : Nat) (s : State) :
    Leads [.now, .txq, .out, .txFree, .regs, .regsButJenjo, .regsButStreams, .open_, .parts, .streams, .part .slice,
      .lpiEnd] s (execLpiEarlyWake port at_ s) := by
  refine .within fun F hF => ?_
  unfold execLpiEarlyWake
  exact .takes (.then (.then (.by (State.changes_portTime ..)) (State.changes_incRg ..)) (State.changes_wakeTx ..))

theorem changes_execSleep (port : PortId) (_sleepNs : Nat) (s : State) :
    Leads [.regs, .regsButJenjo, .regsButStreams, .open_] s (execSleep port _sleepNs s) := by
  refine .within fun F hF => ?_
  unfold execSleep
  exact .takes (.by (State.changes_received ..))

theorem changes_execHelloSend (port : PortId) (s : State) :
    Leads [.txq, .out, .txFree, .regs, .regsButJenjo, .regsButStreams, .open_, .parts, .streams, .part .slice] s (execHelloSend port s) := by
  refine .within fun F hF => ?_
  unfold execHelloSend
  exact .takes (.by (State.changes_sendHello ..))

theorem changes_execHello (port : PortId) (caps size position number : Nat) (s : State) :
    Leads [.regs, .regsButJenjo, .regsButStreams, .open_, .peerCaps, .helloTold, .sessions, .out] s (execHello port caps size position number s) := by
  refine .within fun F hF => ?_
  unfold execHello
  refine .takes ?_
  extract_lets s1 s2 n s3
  have h1 : Changes F s s1 := .then (.then (.by (State.changes_received ..)) (State.changes_setRg ..)) (State.changes_setRg ..)
  have h2 : Changes F s s2 := (h1.then (State.changes_peerCaps _ _)).then (State.changes_negotiateLpi ..)
  have h3 : Changes F s s3 := h2.then (State.changes_setRg ..)
  exact .ite h2 (.ite (h2.then (State.changes_setRg ..)) (.ite h3 ((h3.then (State.changes_helloTold _ _)).then (State.changes_notify ..))))

theorem changes_execDropQueueFrame (port : PortId) (at_ : Nat) (x : FrameInfo) (fate : FrameFate) (s : State) :
    Leads [.now, .txq, .out, .txFree, .regs, .regsButJenjo, .regsButStreams, .open_, .parts, .streams, .part .slice] s (execDropQueueFrame port at_ x fate s) := by
  refine .within fun F hF => ?_
  unfold execDropQueueFrame
  exact .takes (.fst (Changes.thenFst .refl (State.changes_arrive ..)))

theorem changes_execTransmitSlot (p : PartId) (n : Nat) (errs : AccessErrors) (s : State) :
    Leads [.now, .txq, .out, .txFree, .regs, .regsButJenjo, .regsButStreams, .open_, .parts, .streams, .part .slice,
      .sessions, .poisonLog, .cxlPoison, .badPages, .refs] s (execTransmitSlot p n errs s) := by
  refine .within fun F hF => ?_
  unfold execTransmitSlot
  refine .takes ?_
  split
  · exact .refl
  · extract_lets e start s1 null ag
    have h1 : Changes F s s1 := .by (State.changes_advanceTo ..)
    split
    next _ s2 _ e2 =>
      have h2 : Changes F s s2 := by
        refine .of_eq ?_ e2
        split
        · split
          next _ s3 _ e3 =>
            have h3 : Changes F s s3 := .of_eq (Changes.thenFst h1 (State.changes_readEnd ..)) e3
            split
            next _ s4 _ e4 =>
              have h4 : Changes F s s4 := .of_eq (Changes.thenFst h3 (State.changes_pathErrors ..)) e4
              exact .mk h4
        · exact .mk h1
        · exact .mk ((h1.then (State.changes_countC ..)).then (State.changes_lateC ..))
      exact (h2.then (State.changes_modPt _ _ [.slice])).then (State.changes_resumeSending ..)

theorem changes_execAckTimeout (p : PartId) (n at_ : Nat) (s : State) :
    Leads [.now, .txq, .out, .txFree, .regs, .regsButJenjo, .regsButStreams, .open_, .parts, .streams, .part .slice] s (execAckTimeout p n at_ s) := by
  refine .within fun F hF => ?_
  unfold execAckTimeout
  extract_lets s1
  have h1 : Changes F s s1 := .by (State.changes_advanceTo ..)
  exact .takes ((h1.then (State.changes_modPt _ _ [.slice])).then (State.changes_resumeSending ..))

theorem changes_execDataFrame (port : PortId) (at_ : Nat) (x : Arrival) (data : List Byte) (mirror : List MirrorItem) (fate : FrameFate) (errs : AccessErrors) (s : State) :
    Leads [.now, .txq, .out, .txFree, .regs, .regsButJenjo, .regsButStreams, .open_, .parts, .streams, .part .slice,
      .relays, .mem, .sessions, .poisonLog, .cxlPoison, .badPages, .refs, .res, .resChanged, .clusters,
      .cluster .napRun, .cluster .batt, .queues] s (execDataFrame port at_ x data mirror fate errs s) := by
  refine .within fun F hF => ?_
  unfold execDataFrame
  split
  · refine .takes ?_
    split
    next _ s1 _ e1 =>
      have h1 : Changes F s s1 := .of_eq (Changes.thenFst .refl (State.changes_arrive ..)) e1
      refine .ite ?_ ?_
      · refine .frameIn ?_ fun _ _ => ?_
        · exact h1
        · exact .by (State.changes_takeFrame ..)
      · exact h1

theorem changes_execNullFrame (port : PortId) (at_ : Nat) (x : Arrival) (fate : FrameFate) (s : State) :
    Leads [.now, .txq, .out, .txFree, .regs, .regsButJenjo, .regsButStreams, .open_, .parts, .streams, .part .slice,
      .relays, .mem, .sessions, .poisonLog, .cxlPoison, .badPages, .refs, .res, .resChanged, .clusters,
      .cluster .napRun, .cluster .batt, .queues] s (execNullFrame port at_ x fate s) := by
  refine .within fun F hF => ?_
  unfold execNullFrame
  split
  · refine .takes ?_
    split
    next _ s1 _ e1 =>
      have h1 : Changes F s s1 := .of_eq (Changes.thenFst .refl (State.changes_arrive ..)) e1
      refine .ite ?_ ?_
      · refine .frameIn ?_ fun _ _ => ?_
        · exact h1
        · exact .by (State.changes_takeFrame ..)
      · exact h1

theorem changes_execAck (port : PortId) (at_ : Nat) (x : Arrival) (fate : FrameFate) (s : State) :
    Leads [.now, .txq, .out, .txFree, .regs, .regsButJenjo, .regsButStreams, .open_, .parts, .streams, .part .slice,
      .relays] s (execAck port at_ x fate s) := by
  refine .within fun F hF => ?_
  unfold execAck
  split
  · refine .takes ?_
    split
    next _ s1 _ e1 =>
      have h1 : Changes F s s1 := .of_eq (Changes.thenFst .refl (State.changes_arrive ..)) e1
      refine .ite ?_ ?_
      · refine .frameIn ?_ fun _ _ => ?_
        · exact h1
        · exact .by (State.changes_takeAck ..)
      · exact h1

theorem changes_execNak (port : PortId) (at_ : Nat) (x : Arrival) (fate : FrameFate) (s : State) :
    Leads [.now, .txq, .out, .txFree, .regs, .regsButJenjo, .regsButStreams, .open_, .parts, .streams, .part .slice,
      .relays] s (execNak port at_ x fate s) := by
  refine .within fun F hF => ?_
  unfold execNak
  split
  · refine .takes ?_
    split
    next _ s1 _ e1 =>
      have h1 : Changes F s s1 := .of_eq (Changes.thenFst .refl (State.changes_arrive ..)) e1
      refine .ite ?_ ?_
      · refine .frameIn ?_ fun _ _ => ?_
        · exact h1
        · exact .by (State.changes_takeAck ..)
      · exact h1

theorem changes_execRelayForward (port : PortId) (at_ : Nat) (s : State) :
    Leads [.now, .txq, .out, .txFree, .regs, .regsButJenjo, .regsButStreams, .open_, .parts, .streams, .part .slice,
      .relays] s (execRelayForward port at_ s) := by
  refine .within fun F hF => ?_
  unfold execRelayForward
  split
  · extract_lets wire prio s1 s2
    have h1 : Changes F s s1 := .by (State.changes_advanceTo ..)
    have h2 : Changes F s s2 := h1.then (State.changes_relays _ _)
    split
    · exact .next (.then (.by (State.changes_relays _ _)) (State.changes_incRg ..))
    · exact .takes (((h2.then (State.changes_emit ..)).then (State.changes_txStart ..)).then (State.changes_incRg ..))
  · exact .next .refl

theorem State.changes_streamStore (s : State) (i : Nat) (e : Stream) :
    Changes [.mem] s (s.streamStore i e) :=
  State.changes_memPut ..

theorem State.changes_pendStream (s : State) (i : Nat) (e : Stream) :
    Changes [.streamPending, .streamAt] s (s.pendStream i e) :=
  .record (G := [.streamPending, .streamAt])

theorem State.changes_streamEnable (s : State) (id : Nat) :
    Changes [.mem, .streamPending, .streamAt, .regs, .regsButJenjo, .sessions] s (s.streamEnable id) := by
  refine .within fun F hF => ?_
  unfold State.streamEnable
  extract_lets i res e code e s1 s2
  have h1 : Changes F s s1 := .by (State.changes_streamStore ..)
  have h2 : Changes F s s2 := .ite ((h1.then (State.changes_pendStream ..)).then (State.changes_countStreams ..)) h1
  exact .ite (.by (State.changes_setWin ..)) (.ite (.by (State.changes_setWin ..)) (.ite (.by (State.changes_setWin ..)) (h2.then (State.changes_setWin ..))))

theorem State.changes_streamDisable (s : State) (id : Nat) :
    Changes [.sessions, .streamPending, .streamAt, .mem, .regs, .regsButJenjo] s (s.streamDisable id) := by
  refine .within fun F hF => ?_
  unfold State.streamDisable
  extract_lets i res
  refine .ite ?_ ?_
  · exact .by (State.changes_setWin ..)
  · refine .ite ?_ ?_
    · exact .by (State.changes_setWin ..)
    · refine .ite ?_ ?_
      · exact .ite (.then (.by (State.changes_pendStream ..)) (State.changes_setWin ..)) (.by (State.changes_setWin ..))
      · split
        · refine .ite ?_ ?_
          · extract_lets s1
            have h1 : Changes F s s1 := .by (State.changes_streamStore ..)
            exact ((h1.then (State.changes_streamPending _ _)).then (State.changes_countStreams ..)).then (State.changes_setWin ..)
          · exact .by (State.changes_setWin ..)
        · exact .by (State.changes_setWin ..)

theorem State.changes_streamReplace (s : State) (id : Nat) :
    ChangesFst [.sessions, .streamPending, .streamAt] s (s.streamReplace id) := by
  refine .within fun F hF => ?_
  unfold State.streamReplace
  extract_lets i img res e code e
  exact .ite (.mk .refl) (.ite (.mk (.by (State.changes_setWin ..))) (.ite (.mk (.by (State.changes_setWin ..))) (.ite (.mk (.then (.by (State.changes_pendStream ..)) (State.changes_setWin ..))) (.mk (.by (State.changes_setWin ..))))))

theorem changes_execStreamEnable (sess : Nat) (s : State) :
    Leads [.mem, .streamPending, .streamAt, .regs, .regsButJenjo, .sessions] s (execStreamEnable sess s) := by
  refine .within fun F hF => ?_
  unfold execStreamEnable
  refine .takes ?_
  exact .by (State.changes_streamEnable ..)

theorem changes_execStreamDisable (sess : Nat) (s : State) :
    Leads [.sessions, .streamPending, .streamAt, .mem, .regs, .regsButJenjo] s (execStreamDisable sess s) := by
  refine .within fun F hF => ?_
  unfold execStreamDisable
  refine .takes ?_
  exact .by (State.changes_streamDisable ..)

theorem changes_execStreamReplace (sess : Nat) (s : State) :
    Leads [.sessions, .streamPending, .streamAt] s (execStreamReplace sess s) := by
  refine .within fun F hF => ?_
  unfold execStreamReplace
  refine .takes ?_
  exact .fst (Changes.thenFst .refl (State.changes_streamReplace ..))

theorem State.changes_refPrefix (s : State) (i : Nat) (up : Bool) :
    Changes [.prefixes, .mem] s (s.refPrefix i up) := by
  refine .within fun F hF => ?_
  unfold State.refPrefix
  refine .ite ?_ ?_
  · exact .refl
  · extract_lets n e
    exact .then (.by (State.changes_setPrefix ..)) (State.changes_memPut ..)

theorem State.changes_slotEnable (s : State) (id : Nat) :
    Changes [.sessions, .slots, .mem, .prefixes] s (s.slotEnable id) := by
  refine .within fun F hF => ?_
  unfold State.slotEnable
  extract_lets i res e code
  exact .ite (.by (State.changes_setWin ..)) (.ite (.by (State.changes_setWin ..)) (.ite (.then (.then (.then (.by (State.changes_setSlot ..)) (State.changes_slotWriteBack ..)) (State.changes_refPrefix ..)) (State.changes_setWin ..)) (.then (.by (State.changes_memPut ..)) (State.changes_setWin ..))))

theorem State.changes_slotDisable (s : State) (id : Nat) :
    Changes [.prefixes, .mem, .parts, .sessions, .slots] s (s.slotDisable id) := by
  refine .within fun F hF => ?_
  unfold State.slotDisable
  extract_lets i res e s1 s2 s3
  have h1 : Changes F s s1 := .by (State.changes_refPrefix ..)
  have h2 : Changes F s s2 := h1.then (State.changes_memPut ..)
  have h3 : Changes F s s3 := h2.then (State.changes_modPt _ _ [])
  exact .ite (.by (State.changes_setWin ..)) (.ite (.by (State.changes_setWin ..)) (.ite (.by (State.changes_setWin ..)) (.ite (.by (State.changes_setWin ..)) ((h3.then (State.changes_setSlot ..)).then (State.changes_setWin ..)))))

theorem State.changes_slotCancel (s : State) (id : Nat) :
    Changes [.parts, .sessions] s (s.slotCancel id) := by
  refine .within fun F hF => ?_
  unfold State.slotCancel
  extract_lets i t e p code s1
  have h1 : Changes F s s1 := .ite (.by (State.changes_modPt _ _ [])) .refl
  exact h1.then (State.changes_setWin ..)

theorem changes_execSlotEnable (sess : Nat) (s : State) :
    Leads [.sessions, .slots, .mem, .prefixes] s (execSlotEnable sess s) := by
  refine .within fun F hF => ?_
  unfold execSlotEnable
  refine .takes ?_
  exact .by (State.changes_slotEnable ..)

theorem changes_execSlotDisable (sess : Nat) (s : State) :
    Leads [.prefixes, .mem, .parts, .sessions, .slots] s (execSlotDisable sess s) := by
  refine .within fun F hF => ?_
  unfold execSlotDisable
  refine .takes ?_
  exact .by (State.changes_slotDisable ..)

theorem changes_execSlotCancel (sess : Nat) (s : State) :
    Leads [.parts, .sessions] s (execSlotCancel sess s) := by
  refine .within fun F hF => ?_
  unfold execSlotCancel
  refine .takes ?_
  exact .by (State.changes_slotCancel ..)

theorem State.changes_pageStore (s : State) (i : Nat) (e : BitVec 128) :
    Changes [.mem] s (s.pageStore i e) :=
  State.changes_memPut ..

theorem State.changes_pageOffer (s : State) (id i : Nat) :
    ChangesFst [.pages, .mem] s (s.pageOffer id i) := by
  refine .within fun F hF => ?_
  unfold State.pageOffer
  refine .ite ?_ ?_
  · exact .mk .refl
  · refine .ite ?_ ?_
    · exact .mk .refl
    · extract_lets e code e
      exact .mk (.ite (.then (.by (State.changes_setPage ..)) (State.changes_pageStore ..)) (.by (State.changes_pageStore ..)))

theorem State.changes_pageDrop (s : State) (id i : Nat) :
    ChangesFst [.pages, .mem] s (s.pageDrop id i) := by
  refine .within fun F hF => ?_
  unfold State.pageDrop
  extract_lets e
  exact .ite (.mk .refl) (.ite (.mk .refl) (.ite (.mk .refl) (.ite (.mk .refl) (.mk (.then (.by (State.changes_setPage ..)) (State.changes_pageStore ..))))))

/-- What a command on a span of pages may change: what it does with each page, and the session's window. -/
theorem Changes.pageSpan {F : List Aspect} {s t : State} {id : Nat} {op : State → Nat → State × Nat} (ht : Changes F s t)
    (hop : ∀ u i, ChangesFst F u (op u i))
    (hF : [.sessions] ⊆ F := by refine List.Subset.trans ?_ (by assumption); decide) : Changes F s (t.pageSpan id op) := by
  refine ht.trans ?_
  unfold State.pageSpan
  extract_lets first
  split
  next u codes e =>
    have hu : Changes F t u := by
      refine .of_eq (ChangesFst.foldl (.mk .refl) fun y k => ?_) e
      split
      next v c e' => exact .mk (.of_eq (hop y.1 (first + k)) e')
    exact (hu.then (State.changes_setWin ..)).then (State.changes_setWin ..)

theorem changes_execPageEnable (sess : Nat) (s : State) :
    Leads [.pages, .mem, .sessions] s (execPageEnable sess s) := by
  refine .within fun F hF => ?_
  unfold execPageEnable
  refine .takes ?_
  exact .pageSpan .refl (fun _ _ => Changes.thenFst .refl (State.changes_pageOffer ..))

theorem changes_execPageDisable (sess : Nat) (s : State) :
    Leads [.pages, .mem, .sessions] s (execPageDisable sess s) := by
  refine .within fun F hF => ?_
  unfold execPageDisable
  refine .takes ?_
  exact .pageSpan .refl (fun _ _ => Changes.thenFst .refl (State.changes_pageDrop ..))

theorem State.changes_prefixStore (s : State) (i : Nat) (e : BitVec 256) :
    Changes [.mem] s (s.prefixStore i e) :=
  State.changes_memPut ..

theorem State.changes_takePrefix (s : State) (i : Nat) (e : BitVec 256) :
    Changes [.pages, .mem, .slots, .prefixes] s (s.takePrefix i e) := by
  refine .within fun F hF => ?_
  unfold State.takePrefix
  extract_lets p k x n first s1 s2 e
  have h1 : Changes F s s1 := by
    unfold s1
    refine .foldl .refl fun u3 _ => ?_
    extract_lets g
    exact .then (.by (State.changes_setPage ..)) (State.changes_pageStore ..)
  have h2 : Changes F s s2 := (h1.then (State.changes_setSlot ..)).then (State.changes_slotWriteBack ..)
  exact (h2.then (State.changes_setPrefix ..)).then (State.changes_prefixStore ..)

theorem State.changes_prefixEnable (s : State) (id : Nat) :
    Changes [.sessions, .pages, .mem, .slots, .prefixes] s (s.prefixEnable id) := by
  refine .within fun F hF => ?_
  unfold State.prefixEnable
  extract_lets i res e code
  exact .ite (.by (State.changes_setWin ..)) (.ite (.by (State.changes_setWin ..)) (.ite (.then (.by (State.changes_takePrefix ..)) (State.changes_setWin ..)) (.then (.by (State.changes_prefixStore ..)) (State.changes_setWin ..))))

theorem State.changes_prefixDisable (s : State) (id : Nat) :
    Changes [.sessions, .prefixes, .mem] s (s.prefixDisable id) := by
  refine .within fun F hF => ?_
  unfold State.prefixDisable
  extract_lets i res e
  exact .ite (.by (State.changes_setWin ..)) (.ite (.by (State.changes_setWin ..)) (.ite (.by (State.changes_setWin ..)) (.ite (.by (State.changes_setWin ..)) (.then (.then (.by (State.changes_setPrefix ..)) (State.changes_prefixStore ..)) (State.changes_setWin ..)))))

theorem changes_execPrefixEnable (sess : Nat) (s : State) :
    Leads [.sessions, .pages, .mem, .slots, .prefixes] s (execPrefixEnable sess s) := by
  refine .within fun F hF => ?_
  unfold execPrefixEnable
  refine .takes ?_
  exact .by (State.changes_prefixEnable ..)

theorem changes_execPrefixDisable (sess : Nat) (s : State) :
    Leads [.sessions, .prefixes, .mem] s (execPrefixDisable sess s) := by
  refine .within fun F hF => ?_
  unfold execPrefixDisable
  refine .takes ?_
  exact .by (State.changes_prefixDisable ..)

theorem State.changes_copyCommand (s : State) (id v : Nat) :
    Changes [.parts, .sessions] s (s.copyCommand id v) := by
  refine .within fun F hF => ?_
  unfold State.copyCommand
  extract_lets p t code s1
  have h1 : Changes F s s1 := .ite .refl (.by (State.changes_modPt _ _ []))
  exact h1.then (State.changes_setWin ..)

theorem changes_execCopyPrepare (sess : Nat) (s : State) :
    Leads [.parts, .sessions] s (execCopyPrepare sess s) := by
  refine .within fun F hF => ?_
  unfold execCopyPrepare
  refine .takes ?_
  exact .by (State.changes_copyCommand ..)

theorem changes_execCopySwitch (sess : Nat) (s : State) :
    Leads [.parts, .sessions] s (execCopySwitch sess s) := by
  refine .within fun F hF => ?_
  unfold execCopySwitch
  refine .takes ?_
  exact .by (State.changes_copyCommand ..)

theorem State.changes_storeRecords (s : State) (p first : Nat) (recs : List (List Byte)) :
    Changes [.mem, .regs, .regsButJenjo, .regsButStreams, .sessions, .out, .poisonLog, .cxlPoison, .parts] s (s.storeRecords p first recs) := by
  refine .within fun F hF => ?_
  unfold State.storeRecords
  extract_lets i a s1
  have h1 : Changes F s s1 := .foldl .refl (fun _ _ => .by (State.changes_memWrite ..))
  exact .ite h1 ((h1.then (State.changes_tear ..)).then (State.changes_incRg ..))

theorem State.changes_applyEmit (s : State) (p n g l i version pos d : Nat) (dg : Gdesc) (run : SlotRun) :
    Changes [.mem, .regs, .regsButJenjo, .regsButStreams, .sessions, .out, .poisonLog, .cxlPoison, .parts, .slots] s (s.applyEmit p n g l i version pos d dg run) := by
  refine .within fun F hF => ?_
  unfold State.applyEmit
  extract_lets x a row e m k e e e s1 s2 s3
  have h1 : Changes F s s1 := .then (.by (State.changes_storeRecords ..)) (State.changes_setSlot ..)
  have h2 : Changes F s s2 := (h1.then (State.changes_incRg ..)).then (State.changes_incRg ..)
  have h3 : Changes F s s3 := .ite (h2.then (State.changes_incRg ..)) h2
  exact .ite (h3.then (State.changes_modPt _ _ [])) h3

theorem State.changes_applyScore (s : State) (p n g l i version : Nat) (dg : Gdesc) (r : BitVec 512) (run : SlotRun) :
    Changes [.mem, .regs, .regsButJenjo, .regsButStreams, .sessions, .out, .poisonLog, .cxlPoison, .parts, .slots] s (s.applyScore p n g l i version dg r run) := by
  refine .within fun F hF => ?_
  unfold State.applyScore
  extract_lets x e start pos cnt last a ks recs row e e e
  exact .then (.by (State.changes_storeRecords ..)) (State.changes_setSlot ..)

theorem State.changes_applyLane (s : State) (p n g : Nat) (dg : Gdesc) (drops : List Nat) (l : Nat) :
    Changes [.regs, .regsButJenjo, .regsButStreams, .mem, .sessions, .out, .poisonLog, .cxlPoison, .parts, .slots] s (s.applyLane p n g dg drops l) := by
  refine .within fun F hF => ?_
  unfold State.applyLane
  extract_lets r b i version
  split
  · exact .refl
  · exact .refl
  · refine .ite ?_ ?_
    · exact .by (State.changes_incRg ..)
    · refine .ite ?_ ?_
      · exact .by (State.changes_applyEmit ..)
      · refine .ite ?_ ?_
        · exact .by (State.changes_applyScore ..)
        · refine .ite ?_ ?_
          · extract_lets s1
            have h1 : Changes F s s1 := .by (State.changes_applyEmit ..)
            exact h1.then (State.changes_modPt _ _ [])
          · exact .by (State.changes_setSlot ..)

theorem State.changes_specWaste (s : State) (p : Nat) (dg : Gdesc) (drops : List Nat) (tags : SMap Nat) (before : State) (b : Nat) :
    Changes [.regs, .regsButJenjo, .regsButStreams] s (s.specWaste p dg drops tags before b) := by
  refine .within fun F hF => ?_
  unfold State.specWaste
  refine .ite ?_ ?_
  · exact .refl
  · extract_lets ls ls used moved wasted n shift
    exact .ite .refl (.then (.then (.then (.then (.by (State.changes_setRg ..)) (State.changes_incRg ..)) (State.changes_setRg ..)) (State.changes_incRg ..)) (State.changes_incRg ..))

theorem State.changes_latency (s : State) (p g i : Nat) (run : SlotRun) :
    ChangesFst [.slots, .regs, .regsButJenjo, .regsButStreams, .parts] s (s.latency p g i run) := by
  refine .within fun F hF => ?_
  unfold State.latency
  extract_lets e last s1
  have h1 : Changes F s s1 := .then (.by (State.changes_setSlotFld ..)) (State.changes_incRg ..)
  exact .ite (.ite (.mk (.then (.by (State.changes_setSlotFld ..)) (State.changes_incRg ..))) (.mk .refl)) (.ite (.mk (h1.then (State.changes_modPt _ _ []))) (.mk .refl))

theorem State.changes_measureLatency (s : State) (p g : Nat) :
    Changes [.slots, .regs, .regsButJenjo, .regsButStreams, .parts, .sessions, .out] s (s.measureLatency p g) := by
  refine .within fun F hF => ?_
  unfold State.measureLatency
  split
  next s1 hit e1 =>
    have h1 : Changes F s s1 := by
      refine .of_eq (.foldl (.mk .refl) fun u _ => ?_) e1
      split
      next t _ e2 => exact .mk (.of_eq (Changes.thenFst .refl (State.changes_latency ..)) e2)
    split
    · exact h1
    · exact h1.then (State.changes_notify ..)

theorem State.changes_applySlotCancel (s : State) (p i : Nat) :
    Changes [.parts, .slots] s (s.applySlotCancel p i) := by
  refine .within fun F hF => ?_
  unfold State.applySlotCancel
  extract_lets st s1 put
  have h1 : Changes F s s1 := .by (State.changes_modPt _ _ [])
  exact .ite ((h1.then (State.changes_setSlotFld ..)).then (State.changes_setSlotFld ..)) (.ite (h1.then (State.changes_setSlotFld ..)) ((h1.then (State.changes_setSlotFld ..)).then (State.changes_setSlotFld ..)))

theorem State.changes_applySlotCancels (s : State) (p n : Nat) :
    Changes [.parts, .slots] s (s.applySlotCancels p n) := by
  refine .within fun F hF => ?_
  unfold State.applySlotCancels
  exact .foldl .refl (fun _ _ => .by (State.changes_applySlotCancel ..))

theorem State.changes_freeStopped (s : State) (p : Nat) :
    Changes [.parts] s (s.freeStopped p) :=
  State.changes_modPt _ _ []

theorem State.changes_activateSlot (s : State) (p n g : Nat) (dg : Gdesc) (i : Nat) :
    Changes [.regs, .regsButJenjo, .regsButStreams, .slots, .parts] s (s.activateSlot p n g dg i) := by
  refine .within fun F hF => ?_
  unfold State.activateSlot
  extract_lets e pre s1 s2
  have h1 : Changes F s s1 := .by (State.changes_incRg ..)
  have h2 : Changes F s s2 := .ite (h1.then (State.changes_setSlotFld ..)) h1
  exact .ite (h1.then (State.changes_setSlotFld ..)) ((h2.then (State.changes_setSlotFld ..)).then (State.changes_modPt _ _ []))

theorem State.changes_activateSlots (s : State) (p n g : Nat) (dg : Gdesc) :
    Changes [.regs, .regsButJenjo, .regsButStreams, .slots, .parts] s (s.activateSlots p n g dg) := by
  refine .within fun F hF => ?_
  unfold State.activateSlots
  extract_lets first
  exact .foldl .refl (fun _ _ => .by (State.changes_activateSlot ..))

theorem State.changes_assignLane (s : State) (p : Nat) (dg : Gdesc) (i : Nat) :
    Changes [.parts] s (s.assignLane p dg i) := by
  refine .within fun F hF => ?_
  unfold State.assignLane
  extract_lets e used
  split
  · exact .by (State.changes_modPt _ _ [])
  · exact .refl

theorem State.changes_assignLanes (s : State) (p : Nat) (dg : Gdesc) :
    Changes [.parts] s (s.assignLanes p dg) := by
  refine .within fun F hF => ?_
  unfold State.assignLanes
  extract_lets wait
  exact .foldl .refl (fun _ _ => .by (State.changes_assignLane ..))

theorem State.changes_bindBatch (s : State) (p : Nat) (dg : Gdesc) (b : Nat) :
    Changes [.parts] s (s.bindBatch p dg b) := by
  refine .within fun F hF => ?_
  unfold State.bindBatch
  extract_lets holds slot
  clear_value holds
  split
  · exact .by (State.changes_modPt _ _ [])
  · exact .by (State.changes_modPt _ _ [])
  · exact .refl

theorem State.changes_writeRows (s : State) (p i : Nat) (rows : List (Nat × List Byte)) :
    Changes [.parts, .mem, .regs, .regsButJenjo, .regsButStreams, .sessions, .out, .poisonLog, .cxlPoison, .res,
      .resChanged] s (s.writeRows p i rows) := by
  refine .within fun F hF => ?_
  unfold State.writeRows
  extract_lets e cur k s1 s2
  have h1 : Changes F s s1 := .by (State.changes_keepFormer ..)
  have h2 : Changes F s s2 := .foldl h1 (fun _ _ => .by (State.changes_memWrite ..))
  exact ((h2.then (State.changes_setResFld ..)).then (State.changes_advance ..)).then (State.changes_tear ..)

theorem State.changes_writeLanes (s : State) (p : Nat) (dg : Gdesc) :
    Changes [.parts, .mem, .regs, .regsButJenjo, .regsButStreams, .sessions, .out, .poisonLog, .cxlPoison, .res,
      .resChanged] s (s.writeLanes p dg) := by
  refine .within fun F hF => ?_
  unfold State.writeLanes
  extract_lets s1 s2 x ls cols s3 s4
  have h1 : Changes F s s1 := .by (State.changes_modPt _ _ [])
  have h2 : Changes F s s2 := by
    unfold s2
    refine .foldl h1 fun u5 _ => ?_
    split
    · split
      · exact .by (State.changes_modPt _ _ [])
    · exact .refl
  have h3 : Changes F s s3 := h2.then (State.changes_writeRows ..)
  have h4 : Changes F s s4 := h3.then (State.changes_writeRows ..)
  exact h4.then (State.changes_writeRows ..)

theorem State.changes_tellStopped (s : State) (p : Nat) (live : List Nat) :
    Changes [.regs, .regsButJenjo, .regsButStreams, .sessions, .out] s (s.tellStopped p live) := by
  refine .within fun F hF => ?_
  unfold State.tellStopped
  extract_lets gone
  clear_value gone
  split
  · exact .refl
  · exact .then (.by (State.changes_incRg ..)) (State.changes_notify ..)

theorem State.changes_genStep (s : State) (p : Nat) (dg : Gdesc) (drops : List Nat) (tags : SMap Nat) :
    Changes [.slots, .regs, .regsButJenjo, .regsButStreams, .parts, .sessions, .out, .mem, .poisonLog, .cxlPoison, .res,
      .resChanged] s (s.genStep p dg drops tags) := by
  refine .within fun F hF => ?_
  unfold State.genStep
  extract_lets n g live s1 s2 s3 s4 s5 s6 s7 s8 s9
  have h1 : Changes F s s1 := .refl
  have h2 : Changes F s s2 := .by (State.changes_measureLatency ..)
  have h3 : Changes F s s3 := .foldl h2 (fun _ _ => .by (State.changes_applyLane ..))
  have h4 : Changes F s s4 := .foldl h3 (fun _ _ => .by (State.changes_specWaste ..))
  have h5 : Changes F s s5 := (h4.then (State.changes_applySlotCancels ..)).then (State.changes_freeStopped ..)
  have h6 : Changes F s s6 := (h5.then (State.changes_activateSlots ..)).then (State.changes_assignLanes ..)
  have h7 : Changes F s s7 := .foldl h6 (fun _ _ => .by (State.changes_bindBatch ..))
  have h8 : Changes F s s8 := (h7.then (State.changes_writeLanes ..)).then (State.changes_tellStopped ..)
  have h9 : Changes F s s9 := .foldl h8 (fun _ _ => .by (State.changes_slotWriteBack ..))
  exact h9.then (State.changes_modPt _ _ [])

theorem changes_execGenStepSettle (p : PartId) (s : State) :
    Leads [.now, .slots, .regs, .regsButJenjo, .regsButStreams, .parts, .sessions, .out, .mem, .poisonLog, .cxlPoison,
      .res, .resChanged] s (execGenStepSettle p s) := by
  refine .within fun F hF => ?_
  unfold execGenStepSettle
  extract_lets x
  split
  · refine .takes ?_
    extract_lets s1 s2
    have h1 : Changes F s s1 := .by (State.changes_at ..)
    have h2 : Changes F s s2 := by
      unfold s2
      split
      · exact .ite (h1.then (State.changes_genStep ..)) h1
      · exact h1
    exact (h2.then (State.changes_modPt _ _ [])).then (State.changes_endGen ..)
  · exact .next .refl

end Sys2Proof.Machine

/-! ## What images, job checks and RoCEv2 change

Firmware and reference images, job checks and RoCEv2. -/

namespace Sys2Proof.Machine
open Sys2Proof

-- Short theorems, many of them: one after another, so that the threads' stacks stay within the check's memory.
set_option Elab.async false

theorem State.changes_setCopyOk (s : State) (k : Nat) (ok : Bool) :
    Changes [.boot] s (s.setCopyOk k ok) :=
  State.changes_boot _ _

theorem State.changes_advanceSv (s : State) (t k : Nat) :
    Changes [.regs, .regsButJenjo, .regsButStreams] s (s.advanceSv t k) :=
  State.changes_setRg ..

theorem State.changes_fwProgram (s : State) (id : Nat) :
    ChangesFst [.boot, .fwRun, .regs, .regsButJenjo, .regsButStreams] s (s.fwProgram id) := by
  refine .within fun F hF => ?_
  unfold State.fwProgram
  refine .ite ?_ ?_
  · exact .mk .refl
  · extract_lets t img free k code s1
    have h1 : Changes F s s1 := .ite (.by (State.changes_setCopyOk ..)) .refl
    exact .mk ((h1.then (State.changes_fwRun _ _)).then (State.changes_setRg ..))

theorem changes_execFwProgram (sess : Nat) (s : State) :
    Leads [.boot, .fwRun, .regs, .regsButJenjo, .regsButStreams] s (execFwProgram sess s) := by
  refine .within fun F hF => ?_
  unfold execFwProgram
  refine .takes ?_
  exact .fst (Changes.thenFst .refl (State.changes_fwProgram ..))

theorem changes_execFwProgrammed (at_ : Nat) (ok : Bool) (s : State) :
    Leads [.now, .fwRun, .boot, .regs, .regsButJenjo, .regsButStreams, .sessions, .out] s (execFwProgrammed at_ ok s) := by
  refine .within fun F hF => ?_
  unfold execFwProgrammed
  split
  · exact .next .refl
  · refine .takes ?_
    extract_lets s1 s2 code __src s3
    have h1 : Changes F s s1 := .by (State.changes_at ..)
    have h2 : Changes F s s2 := h1.then (State.changes_fwRun _ _)
    have h3 : Changes F s s3 := .ite ((h2.then (State.changes_boot _ _)).then (State.changes_setCopyOk ..)) h2
    exact (h3.then (State.changes_setRg ..)).then (State.changes_notify ..)

theorem State.changes_abandonCheck (s : State) (p j : Nat) :
    Changes [.parts, .part .jobs, .mem] s (s.abandonCheck p j) := by
  refine .within fun F hF => ?_
  unfold State.abandonCheck
  exact .then (.then (.by (State.changes_setJobF ..)) (State.changes_setJobF ..)) (State.changes_setJobF ..)

theorem State.changes_dropRecovery (s : State) (p : Nat) :
    Changes [.regs, .regsButJenjo, .regsButStreams, .parts] s (s.dropRecovery p) := by
  refine .within fun F hF => ?_
  unfold State.dropRecovery
  exact .ite (.then (.by (State.changes_setRg ..)) (State.changes_modPt _ _ [])) .refl

theorem State.changes_loadFail (s : State) (code : Nat) :
    Changes [.refLoad, .refErase, .regs, .regsButJenjo, .regsButStreams, .sessions, .out] s (s.loadFail code) := by
  refine .within fun F hF => ?_
  unfold State.loadFail
  split
  · exact .refl
  · extract_lets s1
    have h1 : Changes F s s1 := .by (.record (G := [.refLoad, .refErase]))
    exact .then (((h1.then (State.changes_setRg ..)).then (State.changes_setRg ..)).then (State.changes_setWin ..)) (State.changes_notify ..)

theorem State.changes_restartMilliner (s : State) :
    Changes [.sessions, .rights, .boot, .regs, .regsButJenjo, .regsButStreams, .checks, .parts, .part .jobs, .mem, .refLoad,
      .refErase, .out, .fwRun] s (s.restartMilliner) := by
  refine .within fun F hF => ?_
  unfold State.restartMilliner
  extract_lets lost __src s1 s2 s3 s4 s5
  have h1 : Changes F s s1 := .by (.record (G := [.sessions, .rights, .boot]))
  have h2 : Changes F s s2 := h1.then (State.changes_setRg ..)
  have h3 : Changes F s s3 := .foldl (h2.then (State.changes_checks _ _)) (fun _ _ => .by (State.changes_abandonCheck ..))
  have h4 : Changes F s s4 := h3.then (State.changes_loadFail ..)
  have h5 : Changes F s s5 := by
    unfold s5
    split
    · exact (h4.then (State.changes_fwRun _ _)).then (State.changes_setRg ..)
    · exact h4
  exact .foldl h5 (fun _ _ => .by (State.changes_dropRecovery ..))

theorem changes_execMillinerRestart (at_ : Nat) (s : State) :
    Leads [.sessions, .rights, .boot, .regs, .regsButJenjo, .regsButStreams, .checks, .parts, .part .jobs, .mem, .refLoad,
      .refErase, .out, .fwRun, .now] s (execMillinerRestart at_ s) := by
  refine .within fun F hF => ?_
  unfold execMillinerRestart
  exact .takes (.then (.by (State.changes_restartMilliner ..)) (State.changes_at ..))

theorem State.changes_activate (s : State) (id : Nat) :
    ChangesFst [.regs, .regsButJenjo, .regsButStreams, .boot, .actRun] s (s.activate id) := by
  refine .within fun F hF => ?_
  unfold State.activate
  extract_lets g __src
  refine .ite ?_ ?_
  · exact .mk .refl
  · split
    · exact .mk (.by (State.changes_setRg ..))
    · extract_lets busy s1
      have h1 : Changes F s s1 := .by (.record (G := [.boot, .actRun]))
      exact .ite (.mk (.by (State.changes_setRg ..))) (.ite (.mk (.by (State.changes_setRg ..))) (.mk (h1.then (State.changes_setRg ..))))

theorem changes_execActivate (sess : Nat) (s : State) :
    Leads [.regs, .regsButJenjo, .regsButStreams, .boot, .actRun] s (execActivate sess s) := by
  refine .within fun F hF => ?_
  unfold execActivate
  refine .takes ?_
  exact .fst (Changes.thenFst .refl (State.changes_activate ..))

theorem changes_execActivationDone (at_ : Nat) (ok : Bool) (s : State) :
    Leads [.now, .actRun, .regs, .regsButJenjo, .regsButStreams, .sessions, .rights, .boot, .checks, .parts, .part .jobs,
      .mem, .refLoad, .refErase, .out, .fwRun] s (execActivationDone at_ ok s) := by
  refine .within fun F hF => ?_
  unfold execActivationDone
  extract_lets s1 s2 act
  have h1 : Changes F s s1 := .by (State.changes_at ..)
  have h2 : Changes F s s2 := h1.then (State.changes_actRun _ _)
  split
  · exact .next .refl
  · split
    · exact .next (.by (State.changes_actRun _ _))
    · extract_lets k ok b s3 s4 s5 s6 __src s7
      have h3 : Changes F s s3 := .ite (h2.then (State.changes_setRg ..)) h2
      have h4 : Changes F s s4 := h3.then (State.changes_setRg ..)
      have h5 : Changes F s s5 := .ite (h4.then (State.changes_setRg ..)) h4
      have h6 : Changes F s s6 := h5.then (State.changes_restartMilliner ..)
      have h7 : Changes F s s7 := .ite (h6.then (State.changes_boot _ _)) (.ite (h4.then (State.changes_advanceSv ..)) h4)
      exact .next (h7.then (State.changes_notify ..))

theorem changes_execMinSecurityVersionAdvance (at_ : Nat) (s : State) :
    Leads [.now, .boot, .regs, .regsButJenjo, .regsButStreams] s (execMinSecurityVersionAdvance at_ s) := by
  refine .within fun F hF => ?_
  unfold execMinSecurityVersionAdvance
  split
  · refine .takes ?_
    extract_lets s1 __src s2
    have h1 : Changes F s s1 := .by (State.changes_at ..)
    have h2 : Changes F s s2 := h1.then (State.changes_boot _ _)
    exact h2.then (State.changes_advanceSv ..)
  · exact .next .refl

theorem State.changes_refs_refLoad (s : State) (v : SMap RefSlot) (l : Option RefLoad) :
    Changes [.refs, .refLoad] s { s with refs := v, refLoad := l } := .record

theorem State.changes_refLoadCmd (s : State) (id : Nat) :
    ChangesFst [.sessions, .regs, .regsButJenjo, .regsButStreams, .refs, .refLoad] s (s.refLoadCmd id) := by
  refine .within fun F hF => ?_
  unfold State.refLoadCmd
  extract_lets k i n range code s1 s2
  have h1 : Changes F s s1 := .by (State.changes_setWin ..)
  have h2 : Changes F s s2 := (h1.then (State.changes_setRg ..)).then (State.changes_setRg ..)
  exact .ite (.mk h1) (.mk (h2.then (State.changes_refs_refLoad s2 _ _)))

theorem changes_execRefLoad (sess : Nat) (s : State) :
    Leads [.sessions, .regs, .regsButJenjo, .regsButStreams, .refs, .refLoad] s (execRefLoad sess s) := by
  refine .within fun F hF => ?_
  unfold execRefLoad
  refine .takes ?_
  exact .fst (Changes.thenFst .refl (State.changes_refLoadCmd ..))

theorem State.changes_refAbort (s : State) (id : Nat) :
    ChangesFst [.sessions, .refLoad, .refErase, .regs, .regsButJenjo, .regsButStreams, .out] s (s.refAbort id) := by
  refine .within fun F hF => ?_
  unfold State.refAbort
  exact .mk (.then (.by (State.changes_setWin ..)) (State.changes_loadFail ..))

theorem changes_execRefAbort (sess : Nat) (s : State) :
    Leads [.sessions, .refLoad, .refErase, .regs, .regsButJenjo, .regsButStreams, .out] s (execRefAbort sess s) := by
  refine .within fun F hF => ?_
  unfold execRefAbort
  refine .takes ?_
  exact .fst (Changes.thenFst .refl (State.changes_refAbort ..))

theorem State.changes_refEraseCmd (s : State) (id : Nat) :
    ChangesFst [.sessions, .refErase, .regs, .regsButJenjo, .regsButStreams] s (s.refEraseCmd id) := by
  refine .within fun F hF => ?_
  unfold State.refEraseCmd
  extract_lets k st
  exact .ite (.mk (.by (State.changes_setWin ..))) (.ite (.mk (.by (State.changes_setWin ..))) (.mk (.then (.then (.by (State.changes_refErase _ _)) (State.changes_setRg ..)) (State.changes_setWin ..))))

theorem changes_execRefErase (sess : Nat) (s : State) :
    Leads [.sessions, .refErase, .regs, .regsButJenjo, .regsButStreams] s (execRefErase sess s) := by
  refine .within fun F hF => ?_
  unfold execRefErase
  refine .takes ?_
  exact .fst (Changes.thenFst .refl (State.changes_refEraseCmd ..))

theorem changes_execEraseDone (at_ : Nat) (s : State) :
    Leads [.now, .mem, .badPages, .refs, .refErase, .regs, .regsButJenjo, .regsButStreams, .doms] s (execEraseDone at_ s) := by
  refine .within fun F hF => ?_
  unfold execEraseDone
  split
  · exact .next .refl
  · refine .next ?_
    extract_lets a n x u
    have hx : Changes F s { x with mem := s.mem.filter fun c => !(a ≤ c.1 && c.1 < a + n) } :=
      (Changes.by (State.changes_at ..)).then (State.changes_mem x fun h => SMap.wf_filter 0 s.mem _ h)
    have hu : Changes F s u := hx.then (.record (G := [.badPages, .refs, .refErase]))
    clear_value u
    exact (((hu.then (State.changes_setRg ..)).then (State.changes_setRg ..)).then (State.changes_setRg ..)).then
      (State.changes_setDom ..)

theorem State.changes_programRef (s : State) (a : Nat) (bs : List Byte) :
    Changes [.mem, .badPages] s (s.programRef a bs) := by
  refine .within fun F hF => ?_
  unfold State.programRef
  extract_lets s1
  have h1 : Changes F s s1 := .by (State.changes_memPut ..)
  exact h1.then (State.changes_badPages _ _)

theorem State.changes_takeChunk (s : State) (l : RefLoad) :
    Changes [.mem, .badPages, .refs, .refLoad, .refErase, .regs, .regsButJenjo, .regsButStreams, .sessions, .out] s (s.takeChunk l) := by
  refine .within fun F hF => ?_
  unfold State.takeChunk
  extract_lets n c row from_ len bs upto base l' s1 head rd code s2 __src s3
  have h1 : Changes F s s1 := .by (State.changes_programRef ..)
  have h2 : Changes F s s2 := .by (State.changes_programRef ..)
  have h3 : Changes F s s3 := h2.then (State.changes_refs _ _)
  exact .ite (.by (State.changes_loadFail ..)) (.ite (.by (State.changes_loadFail ..)) (.ite (.ite (h1.then (State.changes_loadFail ..)) (h1.then (State.changes_refLoad _ _))) (.ite (.ite (.by (State.changes_loadFail ..)) (.ite (h3.then (State.changes_loadFail ..)) (h3.then (State.changes_refLoad _ _)))) (.ite (.by (State.changes_loadFail ..)) (.by (State.changes_refLoad _ _))))))

theorem changes_execRefChunk (at_ : Nat) (s : State) :
    Leads [.now, .mem, .badPages, .refs, .refLoad, .refErase, .regs, .regsButJenjo, .regsButStreams, .sessions, .out] s (execRefChunk at_ s) := by
  refine .within fun F hF => ?_
  unfold execRefChunk
  split
  · exact .next .refl
  · extract_lets c
    exact .takes (.then (.by (State.changes_at ..)) (State.changes_takeChunk ..))

theorem changes_execRefLoadTimeout (at_ : Nat) (s : State) :
    Leads [.now, .refLoad, .refErase, .regs, .regsButJenjo, .regsButStreams, .sessions, .out] s (execRefLoadTimeout at_ s) := by
  refine .within fun F hF => ?_
  unfold execRefLoadTimeout
  split
  · exact .next .refl
  · exact .takes (.then (.by (State.changes_at ..)) (State.changes_loadFail ..))

theorem changes_execImageLoaded (at_ : Nat) (s : State) :
    Leads [.now, .draws, .refLoad, .regs, .regsButJenjo, .regsButStreams, .doms, .sessions, .out] s (execImageLoaded at_ s) := by
  refine .within fun F hF => ?_
  unfold execImageLoaded
  split
  · exact .next .refl
  · refine .takes ?_
    split
    next _ _ s1 e1 =>
      have h1 : Changes F s s1 := .draw (.by (State.changes_at ..)) e1
      extract_lets base s2 s3 s4
      have h2 : Changes F s s2 := h1.then (State.changes_refLoad _ _)
      have h3 : Changes F s s3 := (h2.then (State.changes_setRg ..)).then (State.changes_setRg ..)
      have h4 : Changes F s s4 := (h3.then (State.changes_setRg ..)).then (State.changes_setDom ..)
      exact (h4.then (State.changes_setWin ..)).then (State.changes_notify ..)

theorem State.changes_writePublisherKeys (s : State) (keys : List Byte) :
    ChangesFst [.doms, .regs, .regsButJenjo, .regsButStreams, .sessions, .out] s (s.writePublisherKeys keys) := by
  refine .within fun F hF => ?_
  unfold State.writePublisherKeys
  extract_lets ks gone s1 hit s2
  have h1 : Changes F s s1 := .then (.by (State.changes_setDom ..)) (State.changes_setRg ..)
  have h2 : Changes F s s2 := .foldl h1 (fun _ _ => .by (State.changes_setRg ..))
  exact .ite (.mk (.by (State.changes_setRg ..))) (.ite (.mk h1) (.mk (h2.then (State.changes_notify ..))))

theorem changes_execPublisherKeys (sess : Nat) (keys : List Byte) (s : State) :
    Leads [.doms, .regs, .regsButJenjo, .regsButStreams, .sessions, .out] s (execPublisherKeys sess keys s) := by
  refine .within fun F hF => ?_
  unfold execPublisherKeys
  refine .takes ?_
  exact .fst (Changes.thenFst .refl (State.changes_writePublisherKeys ..))

theorem State.changes_attest (s : State) (id : Nat) (nonce : List Byte) :
    ChangesFst [.draws, .sessions] s (s.attest id nonce) := by
  refine .within fun F hF => ?_
  unfold State.attest
  refine .ite ?_ ?_
  · exact .mk .refl
  · extract_lets es
    split
    next _ _ s1 e1 =>
      have h1 : Changes F s s1 := .draw .refl e1
      extract_lets body
      exact .mk ((h1.then (State.changes_setWinDom ..)).then (State.changes_setWinDom ..))

theorem changes_execAttestNonce (sess : Nat) (nonce : List Byte) (s : State) :
    Leads [.draws, .sessions] s (execAttestNonce sess nonce s) := by
  refine .within fun F hF => ?_
  unfold execAttestNonce
  refine .takes ?_
  exact .fst (Changes.thenFst .refl (State.changes_attest ..))

theorem State.changes_modPt_pins (s : State) (p : Nat) (f : Part → SMap (List (Nat × Nat))) (g h : Part → SMap (List Nat)) :
    Changes [.parts, .part .pins] s (s.modPt p fun x => { x with stitch := f x, pins := g x, streamPins := h x }) :=
  State.changes_modPt _ _ [.pins]

theorem State.changes_pinJob (s : State) (p j b : Nat) (stitch : List (Nat × Nat)) :
    Changes [.parts, .part .pins, .regs, .regsButJenjo, .regsButStreams] s (s.pinJob p j b stitch) := by
  refine .within fun F hF => ?_
  unfold State.pinJob
  exact .then (.by (State.changes_modPt_pins ..)) (State.changes_countPins ..)

theorem State.changes_takeRows (s : State) (p j b : Nat) :
    Changes [.parts] s (s.takeRows p j b) := by
  refine .within fun F hF => ?_
  unfold State.takeRows
  exact .foldl .refl (fun _ _ => .by (State.changes_modPt _ _ []))

theorem State.changes_resetJobCounters (s : State) (p : Nat) :
    Changes [.regs, .regsButJenjo, .regsButStreams] s (s.resetJobCounters p) := by
  refine .within fun F hF => ?_
  unfold State.resetJobCounters
  exact .foldl .refl (fun _ _ => .by (State.changes_setRg ..))

theorem State.changes_loseHistory (s : State) (p i : Nat) :
    Changes [.mem, .regs, .regsButJenjo, .regsButStreams] s (s.loseHistory p i) := by
  refine .within fun F hF => ?_
  unfold State.loseHistory
  extract_lets _
  exact .then (.by (State.changes_memPut ..)) (State.changes_setRg ..)

theorem State.changes_checkHistories (s : State) (p b : Nat) (also : State → Nat → Bool) :
    Changes [.mem, .regs, .regsButJenjo, .regsButStreams, .histUsed] s (s.checkHistories p b also) := by
  refine .within fun F hF => ?_
  unfold State.checkHistories
  refine .foldl .refl fun u1 _ => ?_
  extract_lets s2
  have h2 : Changes F u1 s2 := .ite (.by (State.changes_loseHistory ..)) .refl
  exact h2.then (State.changes_histUsed _ _)

theorem State.changes_acceptJob (s : State) (x : JobOffer) :
    Changes [.parts, .part .jobs, .mem, .part .pins, .regs, .regsButJenjo, .regsButStreams, .histUsed, .res, .resChanged,
      .sessions, .out] s (s.acceptJob x) := by
  refine .within fun F hF => ?_
  unfold State.acceptJob
  extract_lets p j b e nums s1 s2 s3 s4
  have h1 : Changes F s s1 := .by (State.changes_putJob ..)
  have h2 : Changes F s s2 := .then (((h1.then (State.changes_pinJob ..)).then (State.changes_takeRows ..)).then (State.changes_resetJobCounters ..)) (State.changes_checkHistories ..)
  have h3 : Changes F s s3 := (h2.then (State.changes_clearSources ..)).then (State.changes_modPt _ _ [])
  have h4 : Changes F s s4 := .ite (h3.then (State.changes_notify ..)) h3
  exact h4.then (State.changes_updatePart ..)

theorem State.changes_jobChecked (s : State) (id : Nat) (x : JobOffer) (code : Nat) :
    Changes [.parts, .part .jobs, .mem, .part .pins, .regs, .regsButJenjo, .regsButStreams, .histUsed, .res, .resChanged,
      .sessions, .out] s (s.jobChecked id x code) := by
  refine .within fun F hF => ?_
  unfold State.jobChecked
  extract_lets p s1
  have h1 : Changes F s s1 := .ite (.by (State.changes_acceptJob ..)) (.ite .refl (.by (State.changes_putJob ..)))
  exact (h1.then (State.changes_setWin ..)).then (State.changes_notify ..)

theorem State.changes_jobEnable (s : State) (id p : Nat) :
    ChangesFst [.parts, .part .jobs, .mem, .sessions, .out, .checks] s (s.jobEnable id p) := by
  refine .within fun F hF => ?_
  unfold State.jobEnable
  extract_lets j e s1
  have h1 : Changes F s s1 := .then (.by (State.changes_putJob ..)) (State.changes_setWin ..)
  exact .ite (.mk (.by (State.changes_setWin ..))) (.ite (.mk (.then (.by (State.changes_setWin ..)) (State.changes_notify ..))) (.mk (h1.then (State.changes_checks _ _))))

theorem changes_execJobEnable (sess : Nat) (p : PartId) (s : State) :
    Leads [.parts, .part .jobs, .mem, .sessions, .out, .checks] s (execJobEnable sess p s) := by
  refine .within fun F hF => ?_
  unfold execJobEnable
  refine .takes ?_
  exact .fst (Changes.thenFst .refl (State.changes_jobEnable ..))

theorem changes_execJobCheckDone (p : PartId) (x : JobChecked) (s : State) :
    Leads [.now, .checks, .parts, .part .jobs, .mem, .part .pins, .regs, .regsButJenjo, .regsButStreams, .histUsed, .res,
      .resChanged, .sessions, .out] s (execJobCheckDone p x s) := by
  refine .within fun F hF => ?_
  unfold execJobCheckDone
  split
  · extract_lets s1
    have h1 : Changes F s s1 := .by (State.changes_at ..)
    split
    · exact .next .refl
    · extract_lets j x code
      exact .takes ((h1.then (State.changes_checks _ _)).then (State.changes_jobChecked ..))

theorem State.changes_jobDisable (s : State) (id p : Nat) :
    ChangesFst [.parts, .part .jobs, .mem, .part .pins, .regs, .regsButJenjo, .regsButStreams] s (s.jobDisable id p) := by
  refine .within fun F hF => ?_
  unfold State.jobDisable
  extract_lets j
  exact .ite (.mk .refl) (.ite (.mk (.then (.by (State.changes_setJobF ..)) (State.changes_unpin ..))) (.mk .refl))

theorem changes_execJobDisable (sess : Nat) (p : PartId) (s : State) :
    Leads [.parts, .part .jobs, .mem, .part .pins, .regs, .regsButJenjo, .regsButStreams] s (execJobDisable sess p s) := by
  refine .within fun F hF => ?_
  unfold execJobDisable
  refine .takes ?_
  exact .fst (Changes.thenFst .refl (State.changes_jobDisable ..))

theorem State.changes_jobCancel (s : State) (id p : Nat) :
    ChangesFst [.regs, .regsButJenjo, .regsButStreams, .parts] s (s.jobCancel id p) := by
  refine .within fun F hF => ?_
  unfold State.jobCancel
  extract_lets j t st
  exact .ite (.mk .refl) (.ite (.mk .refl) (.ite (.mk (.by (State.changes_setRg ..))) (.mk (.by (State.changes_modPt _ _ [])))))

theorem changes_execJobCancel (sess : Nat) (p : PartId) (s : State) :
    Leads [.regs, .regsButJenjo, .regsButStreams, .parts] s (execJobCancel sess p s) := by
  refine .within fun F hF => ?_
  unfold execJobCancel
  refine .takes ?_
  exact .fst (Changes.thenFst .refl (State.changes_jobCancel ..))

theorem State.changes_setQp (s : State) (i : Nat) (q : Qp) :
    Changes [.qps] s (s.setQp i q) :=
  State.changes_qps _ _

theorem State.changes_qpConnect (s : State) (id : Nat) :
    Changes [.qps, .sessions] s (s.qpConnect id) := by
  refine .within fun F hF => ?_
  unfold State.qpConnect
  extract_lets i e code __src s1
  have h1 : Changes F s s1 := .ite (.by (State.changes_setQp ..)) .refl
  exact h1.then (State.changes_setWin ..)

theorem State.changes_qpReset (s : State) (id : Nat) :
    Changes [.sessions, .qps] s (s.qpReset id) := by
  refine .within fun F hF => ?_
  unfold State.qpReset
  exact .ite (.by (State.changes_setWin ..)) (.then (.by (State.changes_setQp ..)) (State.changes_setWin ..))

theorem changes_execQpConnect (sess : Nat) (s : State) :
    Leads [.qps, .sessions] s (execQpConnect sess s) := by
  refine .within fun F hF => ?_
  unfold execQpConnect
  refine .takes ?_
  exact .by (State.changes_qpConnect ..)

theorem changes_execQpReset (sess : Nat) (s : State) :
    Leads [.sessions, .qps] s (execQpReset sess s) := by
  refine .within fun F hF => ?_
  unfold execQpReset
  refine .takes ?_
  exact .by (State.changes_qpReset ..)

theorem State.changes_regionEnable (s : State) (id : Nat) :
    Changes [.regions, .rkeys, .sessions] s (s.regionEnable id) := by
  refine .within fun F hF => ?_
  unfold State.regionEnable
  extract_lets i e p a n admin code c s1
  have h1 : Changes F s s1 := .ite (.by (.record (G := [.regions, .rkeys]))) .refl
  exact h1.then (State.changes_setWin ..)

theorem State.changes_regionDisable (s : State) (id : Nat) :
    Changes [.sessions, .regions] s (s.regionDisable id) := by
  refine .within fun F hF => ?_
  unfold State.regionDisable
  extract_lets i
  exact .ite (.by (State.changes_setWin ..)) (.then (.by (State.changes_regions _ _)) (State.changes_setWin ..))

theorem changes_execRegionEnable (sess : Nat) (s : State) :
    Leads [.regions, .rkeys, .sessions] s (execRegionEnable sess s) := by
  refine .within fun F hF => ?_
  unfold execRegionEnable
  refine .takes ?_
  exact .by (State.changes_regionEnable ..)

theorem changes_execRegionDisable (sess : Nat) (s : State) :
    Leads [.sessions, .regions] s (execRegionDisable sess s) := by
  refine .within fun F hF => ?_
  unfold execRegionDisable
  refine .takes ?_
  exact .by (State.changes_regionDisable ..)

theorem State.changes_roceSend (s : State) (i : Nat) (x : RoceOut) (bytes : Nat) :
    Changes [.txq, .out, .txFree, .regs, .regsButJenjo, .regsButStreams, .open_, .parts, .streams, .part .slice] s (s.roceSend i x bytes) := by
  refine .within fun F hF => ?_
  unfold State.roceSend
  extract_lets local_
  exact .by (State.changes_send ..)

theorem State.changes_accessError (s : State) (i psn : Nat) :
    Changes [.qps, .txq, .out, .txFree, .regs, .regsButJenjo, .regsButStreams, .open_, .parts, .streams, .part .slice] s (s.accessError i psn) := by
  refine .within fun F hF => ?_
  unfold State.accessError
  exact .then (.then (.by (State.changes_setQp ..)) (State.changes_roceSend ..)) (State.changes_incRg ..)

theorem State.changes_hubParity (s : State) (er : AccessErrors) (a : Nat) :
    ChangesFst [.regs, .regsButJenjo, .regsButStreams] s (s.hubParity er a) := by
  refine .within fun F hF => ?_
  unfold State.hubParity
  exact .ite (.mk (.by (State.changes_incRg ..))) (.mk .refl)

theorem State.changes_tearAt (s : State) (p a n : Nat) :
    Changes [.parts] s (s.tearAt p a n) := by
  refine .within fun F hF => ?_
  unfold State.tearAt
  exact .foldl .refl (fun _ _ => .by (State.changes_tear ..))

theorem State.changes_rdmaStore (s : State) (p a : Nat) (data : List Byte) (er : AccessErrors) :
    Changes [.regs, .regsButJenjo, .regsButStreams, .parts, .part .slice, .mem, .sessions, .out, .poisonLog, .cxlPoison,
      .open_] s (s.rdmaStore p a data er) := by
  refine .within fun F hF => ?_
  unfold State.rdmaStore
  extract_lets ag
  split
  next _ s1 _ e1 =>
    have h1 : Changes F s s1 := .of_eq (Changes.thenFst .refl (State.changes_hubParity ..)) e1
    extract_lets swept s2
    have h2 : Changes F s s2 := .ite (h1.then (State.changes_sweepAccess ..)) h1
    exact .foldl h2 (fun _ _ => .then (.then (.by (State.changes_store ..)) (State.changes_deviceReports ..)) (State.changes_tearAt ..))

theorem State.changes_rdmaWriteIn (s : State) (i : Nat) (x : RocePacket) :
    Changes [.regs, .regsButJenjo, .regsButStreams, .parts, .part .slice, .mem, .sessions, .out, .poisonLog, .cxlPoison,
      .open_, .qps, .txq, .txFree, .streams] s (s.rdmaWriteIn i x) := by
  refine .within fun F hF => ?_
  unfold State.rdmaWriteIn
  extract_lets q q n s1 s2
  have h1 : Changes F s s1 := .ite .refl (.by (State.changes_rdmaStore ..))
  have h2 : Changes F s s2 := h1.then (State.changes_setQp ..)
  exact .ite (.then (.by (State.changes_setQp ..)) (State.changes_accessError ..)) (.ite (h2.then (State.changes_roceSend ..)) h2)

theorem State.changes_unmark (s : State) (bs : List (Byte × Bool)) :
    ChangesFst [.draws] s (s.unmark bs) := by
  refine .within fun F hF => ?_
  unfold State.unmark
  refine .ite ?_ ?_
  · split
    next _ _ s1 e1 =>
      have h1 : Changes F s s1 := .draw .refl e1
      exact .mk h1
  · exact .mk .refl

theorem State.changes_rdmaFetch (s : State) (p a n : Nat) (er : AccessErrors) :
    ChangesFst [.regs, .regsButJenjo, .regsButStreams, .parts, .part .slice, .open_, .sessions, .out, .poisonLog, .cxlPoison,
      .draws] s (s.rdmaFetch p a n er) := by
  refine .within fun F hF => ?_
  unfold State.rdmaFetch
  refine .ite ?_ ?_
  · exact .mk .refl
  · extract_lets ag
    split
    next _ s1 _ e1 =>
      have h1 : Changes F s s1 := .of_eq (Changes.thenFst .refl (State.changes_hubParity ..)) e1
      extract_lets swept s2 s3 bs
      have h2 : Changes F s s2 := .ite (h1.then (State.changes_sweepAccess ..)) h1
      have h3 : Changes F s s3 := h2.then (State.changes_deviceReports ..)
      exact Changes.thenFst (h3.then (State.changes_cxlDelivered ..)) (State.changes_unmark ..)

theorem State.changes_readResponses (s : State) (i mtu psn n : Nat) (bs : List Byte) :
    Changes [.txq, .out, .txFree, .regs, .regsButJenjo, .regsButStreams, .open_, .parts, .streams, .part .slice] s (s.readResponses i mtu psn n bs) := by
  induction n generalizing s psn bs with
  | zero => exact .refl
  | succ n ih => exact (State.changes_roceSend ..).trans (ih ..)

theorem State.changes_serveRead (s : State) (i : Nat) (x : RocePacket) :
    Changes [.regs, .regsButJenjo, .regsButStreams, .parts, .part .slice, .open_, .sessions, .out, .poisonLog, .cxlPoison,
      .draws, .txq, .txFree, .streams] s (s.serveRead i x) := by
  refine .within fun F hF => ?_
  unfold State.serveRead
  extract_lets q
  split
  next _ s1 _ e1 =>
    have h1 : Changes F s s1 := .of_eq (Changes.thenFst .refl (State.changes_rdmaFetch ..)) e1
    exact h1.then (State.changes_readResponses ..)

theorem State.changes_rdmaReadIn (s : State) (i : Nat) (x : RocePacket) :
    Changes [.qps, .txq, .out, .txFree, .regs, .regsButJenjo, .regsButStreams, .open_, .parts, .streams, .part .slice,
      .sessions, .poisonLog, .cxlPoison, .draws] s (s.rdmaReadIn i x) := by
  refine .within fun F hF => ?_
  unfold State.rdmaReadIn
  extract_lets q
  exact .ite (.by (State.changes_accessError ..)) (.then (.by (State.changes_serveRead ..)) (State.changes_setQp ..))

/-- What a RoCEv2 request may change: what its kind does, in sequence or repeated, and its reception and answers. -/
theorem Changes.roceRequest {F : List Aspect} {s t : State} {x : RocePacket} {own again : State → Nat → State}
    (ht : Changes F s t) (hown : ∀ u i, Changes F u (own u i)) (hagain : ∀ u i, Changes F u (again u i))
    (hF : [.regs, .regsButJenjo, .regsButStreams, .open_, .txq, .out, .txFree, .parts, .streams, .part .slice] ⊆ F := by
      refine List.Subset.trans ?_ (by assumption); decide) : Changes F s (t.roceRequest x own again) := by
  refine ht.trans ?_
  unfold State.roceRequest
  extract_lets i u q v d
  have hu : Changes F t u := .by (State.changes_received ..)
  have hv : Changes F t v := .ite ((hu.then (State.changes_roceSend ..)).then (State.changes_incRg ..)) hu
  exact .ite (.by (State.changes_incRg ..)) (.ite hu (.ite (hv.trans (hown ..))
    (.ite (hv.then (State.changes_roceSend ..)) (hv.trans (hagain ..)))))

theorem changes_execRdmaWrite (x : RocePacket) (s : State) :
    Leads [.regs, .regsButJenjo, .regsButStreams, .open_, .txq, .out, .txFree, .parts, .streams, .part .slice, .mem,
      .sessions, .poisonLog, .cxlPoison, .qps] s (execRdmaWrite x s) := by
  refine .within fun F hF => ?_
  unfold execRdmaWrite
  refine .takes ?_
  refine .roceRequest ?_ (fun _ _ => ?_) fun _ _ => ?_
  · exact .refl
  · exact .by (State.changes_rdmaWriteIn ..)
  · exact .by (State.changes_roceSend ..)

theorem changes_execRdmaRead (x : RocePacket) (s : State) :
    Leads [.regs, .regsButJenjo, .regsButStreams, .open_, .txq, .out, .txFree, .parts, .streams, .part .slice, .qps,
      .sessions, .poisonLog, .cxlPoison, .draws] s (execRdmaRead x s) := by
  refine .within fun F hF => ?_
  unfold execRdmaRead
  refine .takes ?_
  refine .roceRequest ?_ (fun _ _ => ?_) fun _ _ => ?_
  · exact .refl
  · exact .by (State.changes_rdmaReadIn ..)
  · exact .ite (.by (State.changes_serveRead ..)) (.by (State.changes_accessError ..))

theorem State.changes_roceWrite (s : State) (i : Nat) (x : Nat × Nat × Nat × List Byte) :
    Changes [.qps, .txq, .out, .txFree, .regs, .regsButJenjo, .regsButStreams, .open_, .parts, .streams, .part .slice] s (s.roceWrite i x) := by
  refine .within fun F hF => ?_
  unfold State.roceWrite
  extract_lets q
  exact .then (.by (State.changes_setQp ..)) (State.changes_roceSend ..)

theorem State.changes_repeatUnacked (s : State) (i : Nat) :
    Changes [.qps, .txq, .out, .txFree, .regs, .regsButJenjo, .regsButStreams, .open_, .parts, .streams, .part .slice] s (s.repeatUnacked i) := by
  refine .within fun F hF => ?_
  unfold State.repeatUnacked
  extract_lets q
  exact .then (.foldl (.by (State.changes_setQp ..)) (fun _ _ => .by (State.changes_roceWrite ..))) (State.changes_incRg ..)

theorem changes_execCnp (x : RoceHead) (s : State) :
    Leads [.regs, .regsButJenjo, .regsButStreams, .open_] s (execCnp x s) := by
  refine .within fun F hF => ?_
  unfold execCnp
  exact .takes (.ite (.then (.by (State.changes_received ..)) (State.changes_incRg ..)) (.by (State.changes_received ..)))

theorem changes_execRoceTimeout (qp at_ : Nat) (s : State) :
    Leads [.now, .qps, .txq, .out, .txFree, .regs, .regsButJenjo, .regsButStreams, .open_, .parts, .streams, .part .slice] s (execRoceTimeout qp at_ s) := by
  refine .within fun F hF => ?_
  unfold execRoceTimeout
  extract_lets i q
  refine .takes ?_
  extract_lets s1
  have h1 : Changes F s s1 := .by (State.changes_at ..)
  exact .ite ((h1.then (State.changes_setQp ..)).then (State.changes_repeatUnacked ..)) (h1.then (State.changes_setQp ..))

theorem changes_execRoceAck (x : RoceHead) (psn : Nat) (nak : Option Bool) (s : State) :
    Leads [.regs, .regsButJenjo, .regsButStreams, .open_, .qps, .txq, .out, .txFree, .parts, .streams, .part .slice] s (execRoceAck x psn nak s) := by
  refine .within fun F hF => ?_
  unfold execRoceAck
  split
  · extract_lets i q left
    refine .takes ?_
    extract_lets s1 s2
    have h1 : Changes F s s1 := .by (State.changes_received ..)
    have h2 : Changes F s s2 := h1.then (State.changes_setQp ..)
    refine .ite ?_ ?_
    · exact h1
    · split
      · exact h1.then (State.changes_setQp ..)
      · exact .ite h2 (h2.then (State.changes_repeatUnacked ..))
      · exact h1.then (State.changes_setQp ..)

end Sys2Proof.Machine

/-! ## What observation, partitions and recovery change

Snapshots, traces, dumps, partitions, power, press copies, recovery and time. -/

namespace Sys2Proof.Machine
open Sys2Proof

-- Short theorems, many of them: one after another, so that the threads' stacks stay within the check's memory.
set_option Elab.async false

theorem State.changes_snapshot (s : State) (p : Nat) :
    ChangesFst [.parts, .regs, .regsButJenjo, .regsButStreams] s (s.snapshot p) := by
  refine .within fun F hF => ?_
  unfold State.snapshot
  exact .ite (.mk .refl) (.mk (.then (.by (State.changes_modPt _ _ [])) (State.changes_setRg ..)))

theorem changes_execSnapshot (sess : Nat) (p : PartId) (s : State) :
    Leads [.parts, .regs, .regsButJenjo, .regsButStreams] s (execSnapshot sess p s) := by
  refine .within fun F hF => ?_
  unfold execSnapshot
  refine .takes ?_
  exact .fst (Changes.thenFst .refl (State.changes_snapshot ..))

theorem changes_execSnapshotSwitch (p : PartId) (s : State) :
    Leads [.now, .open_, .withheldFrom, .closed, .totals, .parts, .regs, .regsButJenjo, .regsButStreams, .sessions, .out] s (execSnapshotSwitch p s) := by
  refine .within fun F hF => ?_
  unfold execSnapshotSwitch
  split
  · exact .takes (.then (.by (State.changes_at ..)) (State.changes_takeSnapshot ..))
  · exact .next .refl

theorem State.changes_writeImage (s : State) (p t : Nat) :
    Changes [.mem, .regs, .regsButJenjo, .regsButStreams, .sessions, .out, .poisonLog, .cxlPoison, .parts] s (s.writeImage p t) := by
  refine .within fun F hF => ?_
  unfold State.writeImage
  extract_lets x i e job row img s1
  have h1 : Changes F s s1 := .then (.by (State.changes_store ..)) (State.changes_tear ..)
  exact (h1.then (State.changes_modPt _ _ [])).then (State.changes_incRg ..)

theorem changes_execCounterImageWrite (p : PartId) (s : State) :
    Leads [.mem, .regs, .regsButJenjo, .regsButStreams, .sessions, .out, .poisonLog, .cxlPoison, .parts] s (execCounterImageWrite p s) := by
  refine .within fun F hF => ?_
  unfold execCounterImageWrite
  split
  · exact .takes (.by (State.changes_writeImage ..))
  · exact .next .refl

theorem State.changes_modTrace (s : State) (c : Nat) (f : TraceBuf → TraceBuf) :
    Changes [.clusters] s (s.modTrace c f) :=
  State.changes_modCl _ _ []

theorem State.changes_traceArm (s : State) (p : Nat) :
    ChangesFst [.clusters, .parts, .regs, .regsButJenjo, .regsButStreams] s (s.traceArm p) := by
  refine .within fun F hF => ?_
  unfold State.traceArm
  refine .ite ?_ ?_
  · exact .mk .refl
  · extract_lets s1
    have h1 : Changes F s s1 := .foldl .refl (fun _ _ => .by (State.changes_modTrace ..))
    exact .mk ((h1.then (State.changes_modPt _ _ [])).then (State.changes_setRg ..))

theorem changes_execTraceArm (sess : Nat) (p : PartId) (s : State) :
    Leads [.clusters, .parts, .regs, .regsButJenjo, .regsButStreams] s (execTraceArm sess p s) := by
  refine .within fun F hF => ?_
  unfold execTraceArm
  refine .takes ?_
  exact .fst (Changes.thenFst .refl (State.changes_traceArm ..))

theorem State.changes_traceStop (s : State) (p : Nat) :
    ChangesFst [.regs, .regsButJenjo, .regsButStreams] s (s.traceStop p) := by
  refine .within fun F hF => ?_
  unfold State.traceStop
  exact .mk (.ite (.by (State.changes_setRg ..)) .refl)

theorem changes_execTraceStop (sess : Nat) (p : PartId) (s : State) :
    Leads [.regs, .regsButJenjo, .regsButStreams] s (execTraceStop sess p s) := by
  refine .within fun F hF => ?_
  unfold execTraceStop
  refine .takes ?_
  exact .fst (Changes.thenFst .refl (State.changes_traceStop ..))

theorem changes_execTraceTrigger (p : PartId) (s : State) :
    Leads [.clusters, .parts] s (execTraceTrigger p s) := by
  refine .within fun F hF => ?_
  unfold execTraceTrigger
  split
  · refine .takes ?_
    extract_lets whole post kind cycle s1
    have h1 : Changes F s s1 := .foldl .refl (fun _ _ => .by (State.changes_modTrace ..))
    exact h1.then (State.changes_modPt _ _ [])
  · exact .next .refl

theorem changes_execTraceFrozen (c : ClusterId) (s : State) :
    Leads [.clusters, .sessions, .out, .regs, .regsButJenjo, .regsButStreams] s (execTraceFrozen c s) := by
  refine .within fun F hF => ?_
  unfold execTraceFrozen
  extract_lets b
  split
  · exact .next .refl
  · refine .takes ?_
    extract_lets s1
    have h1 : Changes F s s1 := .then (.by (State.changes_modTrace ..)) (State.changes_notify ..)
    exact .ite (h1.then (State.changes_setRg ..)) h1

theorem changes_execTraceStoppedFull (c : ClusterId) (s : State) :
    Leads [.clusters, .sessions, .out, .regs, .regsButJenjo, .regsButStreams] s (execTraceStoppedFull c s) := by
  refine .within fun F hF => ?_
  unfold execTraceStoppedFull
  extract_lets b
  split
  · exact .next .refl
  · refine .takes ?_
    extract_lets s1
    have h1 : Changes F s s1 := .then (.by (State.changes_modTrace ..)) (State.changes_notify ..)
    exact .ite (h1.then (State.changes_setRg ..)) h1

theorem State.changes_spillOne (s : State) (p i : Nat) (r : BitVec 128) :
    Changes [.mem, .regs, .regsButJenjo, .regsButStreams, .sessions, .out, .poisonLog, .cxlPoison, .parts] s (s.spillOne p i r) := by
  refine .within fun F hF => ?_
  unfold State.spillOne
  extract_lets e n
  exact .then (.by (State.changes_store ..)) (State.changes_incRg ..)

theorem changes_execTraceSpill (p : PartId) (w : Nat) (s : State) :
    Leads [.now, .clusters, .mem, .regs, .regsButJenjo, .regsButStreams, .sessions, .out, .poisonLog, .cxlPoison, .parts] s (execTraceSpill p w s) := by
  refine .within fun F hF => ?_
  unfold execTraceSpill
  split
  · exact .next .refl
  · refine .takes ?_
    extract_lets s1 i
    have h1 : Changes F s s1 := .by (State.changes_at ..)
    split
    · exact .refl
    · refine .fst ?_
      refine .foldl (.mk h1) fun u2 _ => ?_
      split
      · exact .mk (.foldl (.by (State.changes_modTrace ..)) (fun _ _ => .by (State.changes_spillOne ..)))

theorem State.changes_setDump (s : State) (p n : Nat) (d : Dump) :
    Changes [.parts] s (s.setDump p n d) :=
  State.changes_modPt _ _ []

theorem State.changes_dumpEnd (s : State) (p n state result : Nat) :
    Changes [.parts, .sessions, .out] s (s.dumpEnd p n state result) := by
  refine .within fun F hF => ?_
  unfold State.dumpEnd
  exact .then (.by (State.changes_setDump ..)) (State.changes_notify ..)

theorem State.changes_dumpArm (s : State) (id p : Nat) :
    ChangesFst [.parts, .sessions, .out] s (s.dumpArm id p) := by
  refine .within fun F hF => ?_
  unfold State.dumpArm
  extract_lets n r code __src
  exact .ite (.mk .refl) (.ite (.mk (.by (State.changes_setDump ..))) (.mk (.then (.by (State.changes_setDump ..)) (State.changes_dumpEnd ..))))

theorem changes_execDumpArm (sess : Nat) (p : PartId) (s : State) :
    Leads [.parts, .sessions, .out] s (execDumpArm sess p s) := by
  refine .within fun F hF => ?_
  unfold execDumpArm
  refine .takes ?_
  exact .fst (Changes.thenFst .refl (State.changes_dumpArm ..))

theorem State.changes_dumpCancel (s : State) (id p : Nat) :
    ChangesFst [.parts, .sessions, .out] s (s.dumpCancel id p) := by
  refine .within fun F hF => ?_
  unfold State.dumpCancel
  extract_lets n
  exact .mk (.ite (.by (State.changes_dumpEnd ..)) .refl)

theorem changes_execDumpCancel (sess : Nat) (p : PartId) (s : State) :
    Leads [.parts, .sessions, .out] s (execDumpCancel sess p s) := by
  refine .within fun F hF => ?_
  unfold execDumpCancel
  refine .takes ?_
  exact .fst (Changes.thenFst .refl (State.changes_dumpCancel ..))

theorem State.changes_capture (s : State) (p n g : Nat) (rest : List Nat) :
    Changes [.now, .parts] s (s.capture p n g rest) := by
  refine .within fun F hF => ?_
  unfold State.capture
  extract_lets d i e c
  exact .then (.by (State.changes_at ..)) (State.changes_setDump ..)

theorem changes_execDumpCapture (p : PartId) (n : Nat) (s : State) :
    Leads [.now, .parts] s (execDumpCapture p n s) := by
  refine .within fun F hF => ?_
  unfold execDumpCapture
  split
  · exact .takes (.by (State.changes_capture ..))
  · exact .next .refl

theorem State.changes_captureRead (s : State) (c : DumpCopy) (o n : Nat) :
    ChangesFst [.draws] s (s.captureRead c o n) := by
  refine .within fun F hF => ?_
  unfold State.captureRead
  extract_lets e
  exact Changes.thenFst .refl (State.changes_unmark ..)

theorem State.changes_dumpPackets (s : State) (i mtu rkey n a : Nat) (bs : List Byte) :
    Changes [.qps, .txq, .out, .txFree, .regs, .regsButJenjo, .regsButStreams, .open_, .parts, .streams, .part .slice] s (s.dumpPackets i mtu rkey n a bs) := by
  refine .within fun F hF => ?_
  induction n generalizing s a bs with
  | zero => exact .refl
  | succ n ih =>
    unfold State.dumpPackets
    exact .ite .refl (((Changes.by (State.changes_setQp ..)).then (State.changes_roceWrite ..)).trans (ih ..))

theorem State.changes_dumpPut (s : State) (p : Nat) (r : BitVec 512) (off : Nat) (bs : List Byte) :
    Changes [.qps, .txq, .out, .txFree, .regs, .regsButJenjo, .regsButStreams, .open_, .parts, .streams, .part .slice, .mem,
      .sessions, .poisonLog, .cxlPoison] s (s.dumpPut p r off bs) := by
  refine .within fun F hF => ?_
  unfold State.dumpPut
  refine .ite ?_ ?_
  · exact .by (State.changes_dumpPackets ..)
  · extract_lets i
    exact .then (.by (State.changes_store ..)) (State.changes_tear ..)

theorem State.changes_dumpMove (s : State) (p n room : Nat) :
    Changes [.parts, .sessions, .out, .draws, .qps, .txq, .txFree, .regs, .regsButJenjo, .regsButStreams, .open_, .streams,
      .part .slice, .mem, .poisonLog, .cxlPoison] s (s.dumpMove p n room) := by
  refine .within fun F hF => ?_
  unfold State.dumpMove
  extract_lets d
  split
  · exact .refl
  · refine .ite ?_ ?_
    · exact .by (State.changes_dumpEnd ..)
    · split
      next _ s1 _ e1 =>
        have h1 : Changes F s s1 := .of_eq (Changes.thenFst .refl (State.changes_captureRead ..)) e1
        extract_lets s2 c s3
        have h2 : Changes F s s2 := h1.then (State.changes_dumpPut ..)
        have h3 : Changes F s s3 := h2.then (State.changes_dumpPut ..)
        exact .ite (h2.then (State.changes_setDump ..)) (h3.then (State.changes_setDump ..))

theorem changes_execDumpWindow (p : PartId) (w room : Nat) (s : State) :
    Leads [.now, .parts, .sessions, .out, .draws, .qps, .txq, .txFree, .regs, .regsButJenjo, .regsButStreams, .open_,
      .streams, .part .slice, .mem, .poisonLog, .cxlPoison] s (execDumpWindow p w room s) := by
  refine .within fun F hF => ?_
  unfold execDumpWindow
  split
  · exact .next .refl
  · refine .takes ?_
    extract_lets s1 mine
    have h1 : Changes F s s1 := .by (State.changes_at ..)
    split
    · exact h1.then (State.changes_dumpMove ..)
    · exact h1

theorem changes_execDumpDone (p : PartId) (n : Nat) (s : State) :
    Leads [.parts, .sessions, .out] s (execDumpDone p n s) := by
  refine .within fun F hF => ?_
  unfold execDumpDone
  exact .takes (.by (State.changes_dumpEnd ..))

theorem State.changes_clearClusters (s : State) (m : Nat) :
    Changes [.clusters, .cluster .crown, .cluster .arrays, .cluster .tiles, .cluster .napQueue, .cluster .napRegs,
      .cluster .napRun, .cluster .batt] s (s.clearClusters m) := by
  refine .within fun F hF => ?_
  unfold State.clearClusters
  exact .foldl .refl (fun _ _ => .by (State.changes_modCl _ _ [.crown, .arrays, .tiles, .napQueue, .napRegs, .napRun, .batt]))

theorem State.changes_wakeDevices (s : State) (m : Nat) :
    Changes [.regs, .regsButJenjo, .regsButStreams] s (s.wakeDevices m) := by
  refine .within fun F hF => ?_
  unfold State.wakeDevices
  exact .foldl .refl (fun _ _ => .ite (.by (State.changes_setRg ..)) .refl)

theorem State.changes_sleepDevices (s : State) (m : Nat) :
    Changes [.regs, .regsButJenjo, .regsButStreams] s (s.sleepDevices m) := by
  refine .within fun F hF => ?_
  unfold State.sleepDevices
  exact .foldl .refl (fun _ _ => .ite .refl (.by (State.changes_setRg ..)))

theorem State.changes_ownPorts (s : State) (m v : Nat) :
    Changes [.regs, .regsButJenjo, .regsButStreams] s (s.ownPorts m v) := by
  refine .within fun F hF => ?_
  unfold State.ownPorts
  exact .foldl .refl (fun _ _ => .by (State.changes_setRg ..))

theorem State.changes_dropQueues (s : State) (m : Nat) :
    Changes [.queues, .relays] s (s.dropQueues m) :=
  .record (G := [.queues, .relays])

theorem State.changes_resetCounters (s : State) (p : Nat) :
    Changes [.regs, .regsButJenjo, .regsButStreams, .open_, .closed, .totals] s (s.resetCounters p) := by
  refine .within fun F hF => ?_
  unfold State.resetCounters
  extract_lets s1 s2 drop
  have h1 : Changes F s s1 := .foldl .refl (fun _ _ => .by (State.changes_setRg ..))
  have h2 : Changes F s s2 := .foldl h1 (fun _ _ => .by (State.changes_setRg ..))
  clear_value s2
  exact h2.then (.record (G := [.open_, .closed, .totals]))

theorem State.changes_partBuild (s : State) (p : Nat) :
    ChangesFst [.regs, .regsButJenjo, .regsButStreams, .clusters, .cluster .crown, .cluster .arrays, .cluster .tiles,
      .cluster .napQueue, .cluster .napRegs, .cluster .napRun, .cluster .batt, .open_, .closed, .totals, .parts,
      .part .slice, .part .gen, .part .jobs, .part .pins, .part .there, .part .settling, .part .built] s (s.partBuild p) := by
  refine .within fun F hF => ?_
  unfold State.partBuild
  extract_lets r code s1 s2 s3 g __src s4
  have h1 : Changes F s s1 := .by (State.changes_setRg ..)
  have h2 : Changes F s s2 := ((h1.then (State.changes_clearClusters ..)).then (State.changes_wakeDevices ..)).then (State.changes_ownPorts ..)
  have h3 : Changes F s s3 := (h2.then (State.changes_resetCounters ..)).then (State.changes_setRg ..)
  have h4 : Changes F s s4 := h3.then (State.changes_modPt _ _ [.slice, .gen, .jobs, .pins, .there, .settling, .built])
  exact .ite (.mk h1) (.mk ((h4.then (State.changes_setRg ..)).then (State.changes_updatePart ..)))

theorem changes_execPartBuild (sess : Nat) (p : PartId) (s : State) :
    Leads [.regs, .regsButJenjo, .regsButStreams, .clusters, .cluster .crown, .cluster .arrays, .cluster .tiles,
      .cluster .napQueue, .cluster .napRegs, .cluster .napRun, .cluster .batt, .open_, .closed, .totals, .parts,
      .part .slice, .part .gen, .part .jobs, .part .pins, .part .there, .part .settling, .part .built] s (execPartBuild sess p s) := by
  refine .within fun F hF => ?_
  unfold execPartBuild
  refine .takes ?_
  exact .fst (Changes.thenFst .refl (State.changes_partBuild ..))

theorem State.changes_partRebuild (s : State) (p : Nat) :
    ChangesFst [.clusters, .cluster .crown, .cluster .arrays, .cluster .tiles, .cluster .napQueue, .cluster .napRegs,
      .cluster .napRun, .cluster .batt, .regs, .regsButJenjo, .regsButStreams, .queues, .relays, .parts, .part .jobs, .part .built] s (s.partRebuild p) := by
  refine .within fun F hF => ?_
  unfold State.partRebuild
  extract_lets r code s1
  have h1 : Changes F s s1 := .by (State.changes_setRg ..)
  split
  · exact .mk (.by (State.changes_setRg ..))
  · refine .ite ?_ ?_
    · exact .mk h1
    · extract_lets s2 s3 s4
      have h2 : Changes F s s2 := (h1.then (State.changes_clearClusters ..)).then (State.changes_clearClusters ..)
      have h3 : Changes F s s3 := (h2.then (State.changes_wakeDevices ..)).then (State.changes_sleepDevices ..)
      have h4 : Changes F s s4 := ((h3.then (State.changes_ownPorts ..)).then (State.changes_dropQueues ..)).then (State.changes_ownPorts ..)
      exact .mk (h4.then (State.changes_modPt _ _ [.jobs, .built]))

theorem changes_execPartRebuild (sess : Nat) (p : PartId) (s : State) :
    Leads [.clusters, .cluster .crown, .cluster .arrays, .cluster .tiles, .cluster .napQueue, .cluster .napRegs,
      .cluster .napRun, .cluster .batt, .regs, .regsButJenjo, .regsButStreams, .queues, .relays, .parts, .part .jobs, .part .built] s (execPartRebuild sess p s) := by
  refine .within fun F hF => ?_
  unfold execPartRebuild
  refine .takes ?_
  exact .fst (Changes.thenFst .refl (State.changes_partRebuild ..))

theorem State.changes_partDissolve (s : State) (p : Nat) :
    ChangesFst [.regs, .regsButJenjo, .regsButStreams, .clusters, .cluster .crown, .cluster .arrays, .cluster .tiles,
      .cluster .napQueue, .cluster .napRegs, .cluster .napRun, .cluster .batt, .queues, .relays, .parts,
      .part .slice, .part .gen, .part .jobs, .part .pins, .part .there, .part .settling, .part .built] s (s.partDissolve p) := by
  refine .within fun F hF => ?_
  unfold State.partDissolve
  extract_lets code s1
  have h1 : Changes F s s1 := .by (State.changes_setRg ..)
  split
  · exact .mk (.by (State.changes_setRg ..))
  · refine .ite ?_ ?_
    · exact .mk h1
    · extract_lets s2 s3 s4
      have h2 : Changes F s s2 := ((h1.then (State.changes_clearClusters ..)).then (State.changes_sleepDevices ..)).then (State.changes_ownPorts ..)
      have h3 : Changes F s s3 := (h2.then (State.changes_dropQueues ..)).then (State.changes_modPt _ _ [.slice, .gen, .jobs, .pins, .there, .settling, .built])
      have h4 : Changes F s s4 := .ite (h3.then (State.changes_setRg ..)) h3
      exact .mk ((h4.then (State.changes_setRg ..)).then (State.changes_updatePart ..))

theorem changes_execPartDissolve (sess : Nat) (p : PartId) (s : State) :
    Leads [.regs, .regsButJenjo, .regsButStreams, .clusters, .cluster .crown, .cluster .arrays, .cluster .tiles,
      .cluster .napQueue, .cluster .napRegs, .cluster .napRun, .cluster .batt, .queues, .relays, .parts,
      .part .slice, .part .gen, .part .jobs, .part .pins, .part .there, .part .settling, .part .built] s (execPartDissolve sess p s) := by
  refine .within fun F hF => ?_
  unfold execPartDissolve
  refine .takes ?_
  exact .fst (Changes.thenFst .refl (State.changes_partDissolve ..))

theorem State.changes_partStop (s : State) (p : Nat) :
    ChangesFst [.regs, .regsButJenjo, .regsButStreams, .parts] s (s.partStop p) := by
  refine .within fun F hF => ?_
  unfold State.partStop
  refine .ite ?_ ?_
  · exact .mk (.by (State.changes_setRg ..))
  · extract_lets live
    exact .mk (.then (.by (State.changes_modPt _ _ [])) (State.changes_setRg ..))

theorem changes_execPartStop (sess : Nat) (p : PartId) (s : State) :
    Leads [.regs, .regsButJenjo, .regsButStreams, .parts] s (execPartStop sess p s) := by
  refine .within fun F hF => ?_
  unfold execPartStop
  refine .takes ?_
  exact .fst (Changes.thenFst .refl (State.changes_partStop ..))

theorem changes_execVinApplied (at_ mv : Nat) (rst : Bool) (s : State) :
    Leads [.now, .power, .regs, .regsButJenjo, .regsButStreams] s (execVinApplied at_ mv rst s) := by
  refine .within fun F hF => ?_
  unfold execVinApplied
  refine .takes ?_
  extract_lets s1 __src
  have h1 : Changes F s s1 := .by (State.changes_at ..)
  exact (h1.then (State.changes_power _ _)).then (State.changes_setRg ..)

theorem changes_execPowerOnSequence (at_ lowNs : Nat) (times : List Nat) (s : State) :
    Leads [.now, .power] s (execPowerOnSequence at_ lowNs times s) := by
  refine .within fun F hF => ?_
  unfold execPowerOnSequence
  refine .takes ?_
  extract_lets s1 n t s2 __src
  have h1 : Changes F s s1 := .by (State.changes_at ..)
  have h2 : Changes F s s2 := h1.then (State.changes_at ..)
  exact .ite (h2.then (State.changes_power _ _)) (h1.then (State.changes_power _ _))

theorem changes_execRailTimeout (at_ : Nat) (s : State) :
    Leads [.now, .power, .boot, .regs, .regsButJenjo, .regsButStreams] s (execRailTimeout at_ s) := by
  refine .within fun F hF => ?_
  unfold execRailTimeout
  split
  · refine .takes ?_
    extract_lets s1 __src __src s2
    have h1 : Changes F s s1 := .by (State.changes_at ..)
    have h2 : Changes F s s2 := h1.then (.record (G := [.power, .boot]))
    exact h2.then (State.changes_setRg ..)
  · exact .next .refl

theorem State.changes_loadMram (s : State) :
    Changes [.regs, .regsButJenjo, .regsButStreams, .doms, .filters, .mram] s (s.loadMram) :=
  .record (G := [.regs, .regsButJenjo, .regsButStreams, .doms, .filters, .mram])

/-- What does not outlast the supply: everything but the log of bad pages, the draws, and what has been emitted. -/
def Aspect.lostWithPower : List Aspect :=
  [.now, .regs, .doms, .mem, .poisonLog, .cxlPoison, .res, .resAt, .resChanged, .streams, .streamPending, .streamAt, .slots, .pages,
    .prefixes, .queues, .upSince, .pauseEnd, .pauseFrom, .hostPause, .lpiEnd, .filters, .goodSyncs, .badSyncs, .holdFrom,
    .announceAt, .ppsHigh, .qps, .regions, .rkeys, .histUsed, .helloTold, .peerCaps, .peerWake, .relays, .txq, .txFree, .refs,
    .cxlSris, .trainTemp, .advised] ++
  [.clusters, .parts, .open_, .closed, .totals, .sessions, .checks, .power, .mram, .boot, .fwRun, .actRun, .refLoad, .refErase,
    .throttle, .withheldFrom, .rights, .regsButJenjo, .regsButStreams, .part .slice, .part .there, .part .gen, .part .jobs, .part .pins,
    .part .settling, .part .built, .cluster .crown, .cluster .arrays, .cluster .tiles, .cluster .napQueue, .cluster .napRegs, .cluster .napRun, .cluster .batt]

theorem State.changes_powerLoss (s : State) : Changes Aspect.lostWithPower s s.powerLoss := by
  refine .within fun F hF => ?_
  unfold State.powerLoss
  extract_lets erase r0 b0 r r2
  have hr : Changes F s r := by
    refine .by ⟨rfl, fun h => SMap.wf_filter 0 s.mem _ h, fun a ha => ?_⟩ (hG := hF)
    cases a with
    | part a => cases a <;> exact absurd (by decide) ha
    | cluster a => cases a <;> exact absurd (by decide) ha
    | badPages | draws | out => rfl
    | _ => exact absurd (by decide) ha
  clear_value r
  have hr2 : Changes F s r2 := by
    unfold r2
    split
    · exact (hr.then (State.changes_setRg ..)).then (State.changes_setRg ..)
    · exact hr
  split
  · exact .ite (hr2.then (State.changes_setCopyOk ..)) hr2
  · exact hr2

theorem changes_execShutdown (at_ causes : Nat) (s : State) : Leads Aspect.lostWithPower s (execShutdown at_ causes s) := by
  refine .within fun F hF => ?_
  unfold execShutdown
  split
  · exact .next .refl
  · refine .takes ?_
    extract_lets was s1 supply x s2 y
    have h1 : Changes F s s1 := .then (.by (State.changes_at ..)) (State.changes_powerLoss ..)
    have h2 : Changes F s s2 := h1.then (State.changes_power _ _)
    exact .ite h2 ((h2.then (State.changes_boot _ _)).then (State.changes_setRg ..))

theorem State.changes_startMilliner (s : State) (k : Nat) :
    Changes [.regs, .regsButJenjo, .regsButStreams, .doms, .filters, .mram, .boot] s (s.startMilliner k) := by
  refine .within fun F hF => ?_
  unfold State.startMilliner
  extract_lets s1 act __src
  have h1 : Changes F s s1 := .by (State.changes_loadMram ..)
  exact (h1.then (State.changes_boot _ _)).then (State.changes_setRg ..)

theorem State.changes_copyFailed (s : State) (k : Nat) :
    Changes [.boot, .regs, .regsButJenjo, .regsButStreams] s (s.copyFailed k) := by
  refine .within fun F hF => ?_
  unfold State.copyFailed
  exact .then (.by (State.changes_setCopyOk ..)) (State.changes_incRg ..)

theorem changes_execResetRelease (at_ bad : Nat) (keyOk : Bool) (s : State) :
    Leads [.now, .power, .boot, .regs, .regsButJenjo, .regsButStreams, .doms, .filters, .mram] s (execResetRelease at_ bad keyOk s) := by
  refine .within fun F hF => ?_
  unfold execResetRelease
  refine .takes ?_
  extract_lets s1 __src __src s2 s3 k s4 s5 __src
  have h1 : Changes F s s1 := .by (State.changes_at ..)
  have h2 : Changes F s s2 := h1.then (.record (G := [.power, .boot]))
  have h3 : Changes F s s3 := h2.then (State.changes_setRg ..)
  have h4 : Changes F s s4 := h3.then (State.changes_copyFailed ..)
  have h5 : Changes F s s5 := h4.then (State.changes_copyFailed ..)
  exact .ite (h3.then (State.changes_startMilliner ..)) (.ite (h4.then (State.changes_startMilliner ..)) (h5.then (State.changes_boot _ _)))

theorem changes_execRomRecoveryDatagram (data : List Byte) (s : State) :
    Leads [.boot, .regs, .regsButJenjo, .regsButStreams, .doms, .filters, .mram] s (execRomRecoveryDatagram data s) := by
  refine .within fun F hF => ?_
  unfold execRomRecoveryDatagram
  refine .takes ?_
  extract_lets off bs img rd __src s1
  have h1 : Changes F s s1 := .then (.by (State.changes_boot _ _)) (State.changes_setCopyOk ..)
  exact .ite .refl (.ite (.by (State.changes_boot _ _)) (.ite ((h1.then (State.changes_setRg ..)).then (State.changes_startMilliner ..)) .refl))

theorem State.changes_loadHelper (s : State) (bad t q : Nat) :
    ChangesFst [.regs, .regsButJenjo, .regsButStreams] s (s.loadHelper bad t q) := by
  refine .within fun F hF => ?_
  unfold State.loadHelper
  extract_lets k b act
  exact .ite (.mk .refl) (.ite (.mk (.by (State.changes_setRg ..))) (.mk .refl))

theorem changes_execHelperBoot (at_ bad : Nat) (trained : List (Nat × ℤ)) (s : State) :
    Leads [.now, .regs, .regsButJenjo, .regsButStreams, .boot, .sessions, .out, .trainTemp] s (execHelperBoot at_ bad trained s) := by
  refine .within fun F hF => ?_
  unfold execHelperBoot
  refine .takes ?_
  extract_lets s1 failed
  have h1 : Changes F s s1 := .by (State.changes_at ..)
  split
  next _ s2 _ e2 =>
    have h2 : Changes F s s2 := by
      refine .of_eq ?_ e2
      refine .foldl (.mk h1) fun u3 _ => ?_
      refine .foldl .refl fun u4 _ => ?_
      split
      next _ s5 _ e5 =>
        have h5 : Changes F u4.1 s5 := .of_eq (Changes.thenFst .refl (State.changes_loadHelper ..)) e5
        exact .mk h5
    extract_lets s6 s7 s8
    have h6 : Changes F s s6 := .foldl h2 (fun _ _ => .then (.by (State.changes_copyFailed ..)) (State.changes_notify ..))
    have h7 : Changes F s s7 := by
      unfold s7
      refine .foldl h6 fun u9 _ => ?_
      split
      · extract_lets s10
        have h10 : Changes F u9 s10 := .then (.by (State.changes_setRg ..)) (State.changes_setRg ..)
        exact h10.then (State.changes_trainTemp _ _)
      · exact .by (State.changes_setRg ..)
    have h8 : Changes F s s8 := h7.then (State.changes_setRg ..)
    exact h8.then (State.changes_setRg ..)

theorem State.changes_showThrottle (s : State) :
    Changes [.regs, .regsButJenjo, .regsButStreams] s (s.showThrottle) := by
  refine .within fun F hF => ?_
  unfold State.showThrottle
  extract_lets ns
  exact .by (State.changes_setRg ..)

theorem State.changes_throttleOn (s : State) :
    Changes [.regs, .regsButJenjo, .regsButStreams, .parts, .part .slice, .throttle, .sessions, .out] s (s.throttleOn) := by
  refine .within fun F hF => ?_
  unfold State.throttleOn
  extract_lets s1 s2 __src
  have h1 : Changes F s s1 := .by (State.changes_showThrottle ..)
  have h2 : Changes F s s2 := .foldl h1 (fun _ _ => .ite (.by (State.changes_fails ..)) .refl)
  exact .ite ((h2.then (State.changes_throttle _ _)).then (State.changes_notify ..)) h2

theorem changes_execPowerSample (at_ watts : Nat) (s : State) :
    Leads [.now, .open_, .withheldFrom, .throttle, .regs, .regsButJenjo, .regsButStreams, .sessions, .out, .parts,
      .part .slice] s (execPowerSample at_ watts s) := by
  refine .within fun F hF => ?_
  unfold execPowerSample
  refine .takes ?_
  extract_lets s1 xs sum lim low __src s2 s3 __src s4 __src s5
  have h1 : Changes F s s1 := .then (.by (State.changes_at ..)) (State.changes_countWithheld ..)
  have h2 : Changes F s s2 := h1.then (State.changes_throttle _ _)
  have h3 : Changes F s s3 := h2.then (State.changes_setRg ..)
  have h4 : Changes F s s4 := h3.then (State.changes_throttle _ _)
  have h5 : Changes F s s5 := .ite ((h4.then (State.changes_throttle _ _)).then (State.changes_notify ..)) h4
  exact .ite (h5.then (State.changes_throttleOn ..)) (.ite ((h3.then (State.changes_throttle _ _)).then (State.changes_showThrottle ..)) h3)

theorem changes_execThermalThrottle (at_ : Nat) (q : QuarterId) (device : Bool) (temp : ℤ) (s : State) :
    Leads [.now, .open_, .withheldFrom, .regs, .regsButJenjo, .regsButStreams, .throttle, .parts, .part .slice, .sessions,
      .out] s (execThermalThrottle at_ q device temp s) := by
  refine .within fun F hF => ?_
  unfold execThermalThrottle
  refine .takes ?_
  extract_lets s1 s2 __src
  have h1 : Changes F s s1 := .then (.by (State.changes_at ..)) (State.changes_countWithheld ..)
  have h2 : Changes F s s2 := .ite h1 (h1.then (State.changes_setRg ..))
  exact (h2.then (State.changes_throttle _ _)).then (State.changes_throttleOn ..)

theorem changes_execThrottleStep (at_ : Nat) (q : QuarterId) (power : Bool) (s : State) :
    Leads [.now, .open_, .withheldFrom, .throttle, .regs, .regsButJenjo, .regsButStreams] s (execThrottleStep at_ q power s) := by
  refine .within fun F hF => ?_
  unfold execThrottleStep
  extract_lets t n
  refine .ite ?_ ?_
  · refine .takes ?_
    extract_lets s1 __src
    have h1 : Changes F s s1 := .then (.by (State.changes_at ..)) (State.changes_countWithheld ..)
    exact (h1.then (State.changes_throttle _ _)).then (State.changes_showThrottle ..)
  · refine .takes ?_
    extract_lets s2 __src
    have h2 : Changes F s s2 := .then (.by (State.changes_at ..)) (State.changes_countWithheld ..)
    exact (h2.then (State.changes_throttle _ _)).then (State.changes_showThrottle ..)

theorem changes_execThrottleRelease (at_ : Nat) (q : QuarterId) (cool : Nat) (s : State) :
    Leads [.now, .open_, .withheldFrom, .throttle, .regs, .regsButJenjo, .regsButStreams] s (execThrottleRelease at_ q cool s) := by
  refine .within fun F hF => ?_
  unfold execThrottleRelease
  refine .takes ?_
  extract_lets s1 __src
  have h1 : Changes F s s1 := .then (.by (State.changes_at ..)) (State.changes_countWithheld ..)
  exact (h1.then (State.changes_throttle _ _)).then (State.changes_showThrottle ..)

theorem changes_execInletHigh (at_ : Nat) (temp : ℤ) (altitude : Nat) (s : State) :
    Leads [.now, .throttle, .regs, .regsButJenjo, .regsButStreams, .sessions, .out] s (execInletHigh at_ temp altitude s) := by
  refine .within fun F hF => ?_
  unfold execInletHigh
  refine .takes ?_
  extract_lets s1 __src s2
  have h1 : Changes F s s1 := .by (State.changes_at ..)
  have h2 : Changes F s s2 := h1.then (State.changes_throttle _ _)
  exact (h2.then (State.changes_setRg ..)).then (State.changes_notify ..)

theorem State.changes_stageEntries (s : State) (p gen n off : Nat) (is : List Nat) :
    Changes [.mem, .regs, .regsButJenjo, .regsButStreams, .sessions, .out, .poisonLog, .cxlPoison, .parts] s (s.stageEntries p gen n off is) := by
  refine .within fun F hF => ?_
  induction is generalizing s n off with
  | nil => exact .refl
  | cons i is ih =>
    unfold State.stageEntries
    exact ((Changes.by (State.changes_store ..)).then (State.changes_store ..)).trans (ih ..)

theorem State.changes_stageAll (s : State) (p gen : Nat) :
    Changes [.mem, .regs, .regsButJenjo, .regsButStreams, .sessions, .out, .poisonLog, .cxlPoison, .parts] s (s.stageAll p gen) := by
  refine .within fun F hF => ?_
  unfold State.stageAll
  extract_lets l s1 s2
  have h1 : Changes F s s1 := .by (State.changes_stageEntries ..)
  have h2 : Changes F s s2 := h1.then (State.changes_modPt _ _ [])
  exact h2.then (State.changes_store ..)

theorem State.changes_pressArm (s : State) (p step : Nat) :
    ChangesFst [.regs, .regsButJenjo, .regsButStreams] s (s.pressArm p step) := by
  refine .within fun F hF => ?_
  unfold State.pressArm
  extract_lets undrained
  exact .ite (.mk .refl) (.mk (.then (.by (State.changes_setRg ..)) (State.changes_setRg ..)))

theorem changes_execPressArm (sess : Nat) (p : PartId) (val : Nat) (s : State) :
    Leads [.regs, .regsButJenjo, .regsButStreams] s (execPressArm sess p val s) := by
  refine .within fun F hF => ?_
  unfold execPressArm
  refine .takes ?_
  exact .fst (Changes.thenFst .refl (State.changes_pressArm ..))

theorem changes_execPressCopyDone (p : PartId) (at_ : Nat) (s : State) :
    Leads [.now, .mem, .regs, .regsButJenjo, .regsButStreams, .sessions, .out, .poisonLog, .cxlPoison, .parts] s (execPressCopyDone p at_ s) := by
  refine .within fun F hF => ?_
  unfold execPressCopyDone
  refine .takes ?_
  extract_lets s1 gen step s2
  have h1 : Changes F s s1 := .by (State.changes_at ..)
  have h2 : Changes F s s2 := (h1.then (State.changes_stageAll ..)).then (State.changes_modPt _ _ [])
  exact ((h2.then (State.changes_setRg ..)).then (State.changes_setRg ..)).then (State.changes_incRg ..)

theorem State.changes_drainSend (s : State) (p acked : Nat) :
    Changes [.out, .parts, .regs, .regsButJenjo, .regsButStreams] s (s.drainSend p acked) := by
  refine .within fun F hF => ?_
  unfold State.drainSend
  split
  · exact .refl
  · extract_lets total n data last s1
    have h1 : Changes F s s1 := .ite .refl (.by (State.changes_emit ..))
    exact .ite (((h1.then (State.changes_modPt _ _ [])).then (State.changes_setRg ..)).then (State.changes_setRg ..)) (h1.then (State.changes_modPt _ _ []))

theorem State.changes_drainTake (s : State) (p : Nat) (x : DrainPiece) :
    Changes [.parts] s (s.drainTake p x) :=
  State.changes_modPt _ _ []

theorem changes_execDrainWindow (p : PartId) (row acked : Nat) (piece : Option DrainPiece) (s : State) :
    Leads [.now, .out, .parts, .regs, .regsButJenjo, .regsButStreams] s (execDrainWindow p row acked piece s) := by
  refine .within fun F hF => ?_
  unfold execDrainWindow
  split
  · exact .next .refl
  · split
    · exact .next .refl
    · refine .takes ?_
      extract_lets s1
      have h1 : Changes F s s1 := .by (State.changes_at ..)
      refine .ite ?_ ?_
      · exact h1.then (State.changes_drainSend ..)
      · split
        · exact h1.then (State.changes_drainTake ..)
        · exact h1

theorem State.changes_recoverCmd (s : State) (p : Nat) (f : RecoverFacts) :
    ChangesFst [.regs, .regsButJenjo, .regsButStreams, .parts] s (s.recoverCmd p f) := by
  refine .within fun F hF => ?_
  unfold State.recoverCmd
  extract_lets st training
  split
  · exact .mk .refl
  · refine .ite ?_ ?_
    · exact .mk .refl
    · extract_lets code s1 rc
      have h1 : Changes F s s1 := .by (State.changes_setRg ..)
      exact .ite (.mk h1) (.mk (h1.then (State.changes_modPt _ _ [])))

theorem changes_execRecover (sess : Nat) (p : PartId) (facts : RecoverFacts) (s : State) :
    Leads [.regs, .regsButJenjo, .regsButStreams, .parts] s (execRecover sess p facts s) := by
  refine .within fun F hF => ?_
  unfold execRecover
  refine .takes ?_
  exact .fst (Changes.thenFst .refl (State.changes_recoverCmd ..))

theorem State.changes_placeSaved (s : State) (i off : Nat) (bs : List (Byte × Bool)) :
    Changes [.mem, .regs, .regsButJenjo, .regsButStreams, .sessions, .out, .poisonLog, .cxlPoison, .parts] s (s.placeSaved i off bs) := by
  refine .within fun F hF => ?_
  unfold State.placeSaved
  extract_lets e z low s1 high
  have h1 : Changes F s s1 := .ite .refl (.by (State.changes_store ..))
  exact .ite h1 (h1.then (State.changes_store ..))

theorem State.changes_freeOtherSlots (s : State) (i : Nat) :
    Changes [.draws, .mem, .regs, .regsButJenjo, .regsButStreams, .sessions, .out, .poisonLog, .cxlPoison, .parts] s (s.freeOtherSlots i) := by
  refine .within fun F hF => ?_
  unfold State.freeOtherSlots
  extract_lets e
  refine .foldl .refl fun u1 _ => ?_
  split
  next _ _ s2 e2 =>
    have h2 : Changes F u1 s2 := .draw .refl e2
    exact h2.then (State.changes_store ..)

theorem State.changes_restoredEntry (s : State) (p i version : Nat) :
    Changes [.res, .resChanged, .histUsed, .parts] s (s.restoredEntry p i version) := by
  refine .within fun F hF => ?_
  unfold State.restoredEntry
  extract_lets s1 s2
  have h1 : Changes F s s1 := .by (State.changes_setResFld ..)
  have h2 : Changes F s s2 := .ite (h1.then (State.changes_histUsed _ _)) h1
  exact h2.then (State.changes_modPt _ _ [])

theorem State.changes_modRecover (s : State) (p : Nat) (f : Recover → Recover) :
    Changes [.parts] s (s.modRecover p f) :=
  State.changes_modPt _ _ []

theorem State.changes_recoverFail (s : State) (p code : Nat) :
    Changes [.regs, .regsButJenjo, .regsButStreams] s (s.recoverFail p code) := by
  refine .within fun F hF => ?_
  unfold State.recoverFail
  exact .then (.by (State.changes_setRg ..)) (State.changes_setRg ..)

theorem State.changes_restoreStaged (s : State) (p gen : Nat) :
    Changes [.mem, .regs, .regsButJenjo, .regsButStreams, .sessions, .out, .poisonLog, .cxlPoison, .parts, .draws, .res,
      .resChanged, .histUsed] s (s.restoreStaged p gen) := by
  refine .within fun F hF => ?_
  unfold State.restoreStaged
  extract_lets po s1
  have h1 : Changes F s s1 := by
    unfold s1
    refine .foldl .refl fun u2 _ => ?_
    extract_lets i n s3
    have h3 : Changes F u2 s3 := .by (State.changes_placeSaved ..)
    exact ((h3.then (State.changes_freeOtherSlots ..)).then (State.changes_restoredEntry ..)).then (State.changes_incRg ..)
  exact h1.then (State.changes_modPt _ _ [])

theorem State.changes_askMirrors (s : State) (p j : Nat) (spare : Bool) :
    Changes [.parts] s (s.askMirrors p j spare) := by
  refine .within fun F hF => ?_
  unfold State.askMirrors
  extract_lets cxl gone bad w r
  exact .by (State.changes_modRecover ..)

theorem changes_execRecoveryStart (p : PartId) (s : State) :
    Leads [.parts, .part .jobs, .mem, .regs, .regsButJenjo, .regsButStreams, .res, .resChanged, .sessions, .out,
      .poisonLog, .cxlPoison, .draws, .histUsed] s (execRecoveryStart p s) := by
  refine .within fun F hF => ?_
  unfold execRecoveryStart
  split
  · refine .takes ?_
    extract_lets spare s1 s2 s3 s4 s5
    have h1 : Changes F s s1 := .by (State.changes_modPt _ _ [])
    have h2 : Changes F s s2 := .ite ((h1.then (State.changes_setJobF ..)).then (State.changes_setJobF ..)) h1
    have h3 : Changes F s s3 := .then (((h2.then (State.changes_setRg ..)).then (State.changes_setRg ..)).then (State.changes_setRg ..)) (State.changes_setFilter ..)
    have h4 : Changes F s s4 := .then (.foldl h3 (fun _ _ => .by (State.changes_revert ..))) (State.changes_updatePart ..)
    have h5 : Changes F s s5 := h4.then (State.changes_modPt _ _ [])
    refine .ite ?_ ?_
    · split
      · exact h5.then (State.changes_restoreStaged ..)
      · exact h5.then (State.changes_modRecover ..)
    · exact h4.then (State.changes_askMirrors ..)
  · exact .next .refl

theorem State.changes_takeBytes (s : State) (p i version off : Nat) (data : List Byte) :
    Changes [.draws, .mem, .regs, .regsButJenjo, .regsButStreams, .sessions, .out, .poisonLog, .cxlPoison, .parts, .res,
      .resChanged, .histUsed] s (s.takeBytes p i version off data) := by
  refine .within fun F hF => ?_
  unfold State.takeBytes
  extract_lets total s1 s2
  have h1 : Changes F s s1 := .ite (.by (State.changes_freeOtherSlots ..)) .refl
  have h2 : Changes F s s2 := ((h1.then (State.changes_placeSaved ..)).then (State.changes_incRg ..)).then (State.changes_modRecover ..)
  split
  · exact .refl
  · exact .ite .refl (.ite (h2.then (State.changes_restoredEntry ..)) h2)

theorem State.changes_restoreSweep (s : State) (p j u slot state step progress : Nat) :
    Changes [.parts] s (s.restoreSweep p j u slot state step progress) := by
  refine .within fun F hF => ?_
  unfold State.restoreSweep
  split
  · exact .by (State.changes_modPt _ _ [])
  · exact .refl

theorem State.changes_restoreTake (s : State) (p j : Nat) (rc : Recover) (x : RestoreItem) :
    Changes [.parts, .regs, .regsButJenjo, .regsButStreams, .draws, .mem, .sessions, .out, .poisonLog, .cxlPoison, .res,
      .resChanged, .histUsed] s (s.restoreTake p j rc x) := by
  refine .within fun F hF => ?_
  unfold State.restoreTake
  extract_lets __src
  split
  · exact .ite (.by (State.changes_modRecover ..)) (.by (State.changes_recoverFail ..))
  · exact .ite (.by (State.changes_takeBytes ..)) .refl
  · split
    · exact .ite (.by (State.changes_takeBytes ..)) .refl
    · exact .refl
  · exact .ite (.by (State.changes_restoreSweep ..)) .refl
  · exact .ite (.by (State.changes_modPt _ _ [])) .refl
  · exact .ite (.then (.by (State.changes_modPt _ _ [])) (State.changes_modRecover ..)) .refl
  · exact .ite (.by (State.changes_modPt _ _ [])) .refl

theorem State.changes_restoreMove (s : State) (p j : Nat) (rc : Recover) (x : Transfer) :
    Changes [.parts, .regs, .regsButJenjo, .regsButStreams, .draws, .mem, .sessions, .out, .poisonLog, .cxlPoison, .res,
      .resChanged, .histUsed] s (s.restoreMove p j rc x) := by
  refine .within fun F hF => ?_
  unfold State.restoreMove
  split
  · exact .ite (.by (State.changes_restoreTake ..)) .refl
  · exact .by (State.changes_emit ..)
  · split
    · exact .by (State.changes_emit ..)
    · exact .refl
  · split
    · exact .by (State.changes_emit ..)
    · exact .refl
  · exact .ite (.then (.by (State.changes_emit ..)) (State.changes_emit ..)) .refl
  · exact .ite (.by (State.changes_emit ..)) .refl
  · extract_lets w
    exact .ite (.by (State.changes_emit ..)) .refl

theorem changes_execRestoreTransfer (p : PartId) (x : Transfer) (s : State) :
    Leads [.parts, .regs, .regsButJenjo, .regsButStreams, .draws, .mem, .sessions, .out, .poisonLog, .cxlPoison, .res,
      .resChanged, .histUsed] s (execRestoreTransfer p x s) := by
  refine .within fun F hF => ?_
  unfold execRestoreTransfer
  split
  · exact .takes (.by (State.changes_restoreMove ..))
  · exact .next .refl

theorem changes_execRecoveryReady (p : PartId) (at_ : Nat) (roots : List (Nat × List Byte)) (replicas : List (Nat × Nat × Nat)) (s : State) :
    Leads [.now, .regs, .regsButJenjo, .regsButStreams, .mem, .histUsed] s (execRecoveryReady p at_ roots replicas s) := by
  refine .within fun F hF => ?_
  unfold execRecoveryReady
  split
  · refine .takes ?_
    extract_lets s1
    have h1 : Changes F s s1 := .by (State.changes_at ..)
    split
    · extract_lets s2 s3 step s4
      have h2 : Changes F s s2 := h1.then (State.changes_setRg ..)
      have h3 : Changes F s s3 := .ite (h2.then (State.changes_incRg ..)) h2
      have h4 : Changes F s s4 := h3.then (State.changes_checkHistories ..)
      exact .ite (h3.then (State.changes_recoverFail ..)) (h4.then (State.changes_setRg ..))
  · exact .next .refl

theorem State.changes_resumeCmd (s : State) (p : Nat) :
    ChangesFst [.regs, .regsButJenjo, .regsButStreams, .parts, .part .jobs, .mem, .part .pins] s (s.resumeCmd p) := by
  refine .within fun F hF => ?_
  unfold State.resumeCmd
  split
  · refine .ite ?_ ?_
    · exact .mk .refl
    · extract_lets stitch code s1
      have h1 : Changes F s s1 := .then (.by (State.changes_setRg ..)) (State.changes_setJobF ..)
      exact .ite (.mk h1) (.mk ((h1.then (State.changes_modPt _ _ [])).then (State.changes_pinJob ..)))
  · exact .mk .refl

theorem changes_execResume (sess : Nat) (p : PartId) (s : State) :
    Leads [.regs, .regsButJenjo, .regsButStreams, .parts, .part .jobs, .mem, .part .pins] s (execResume sess p s) := by
  refine .within fun F hF => ?_
  unfold execResume
  refine .takes ?_
  exact .fst (Changes.thenFst .refl (State.changes_resumeCmd ..))

theorem State.changes_abandonCmd (s : State) (p : Nat) :
    ChangesFst [.parts] s (s.abandonCmd p) := by
  refine .within fun F hF => ?_
  unfold State.abandonCmd
  split
  · exact .mk .refl
  · exact .mk (.by (State.changes_modPt _ _ []))

theorem changes_execAbandon (sess : Nat) (p : PartId) (s : State) :
    Leads [.parts] s (execAbandon sess p s) := by
  refine .within fun F hF => ?_
  unfold execAbandon
  refine .takes ?_
  exact .fst (Changes.thenFst .refl (State.changes_abandonCmd ..))

theorem State.changes_setTime (s : State) (v : Nat) :
    Changes [.regs, .regsButJenjo, .regsButStreams, .parts, .part .slice] s (s.setTime v) := by
  refine .within fun F hF => ?_
  unfold State.setTime
  extract_lets s1
  have h1 : Changes F s s1 := .by (State.changes_setRg ..)
  exact .ite (.foldl h1 (fun _ _ => .by (State.changes_fails ..))) h1

theorem State.changes_enterHoldover (s : State) :
    Changes [.goodSyncs, .badSyncs, .holdFrom, .regs, .regsButJenjo, .regsButStreams, .parts, .part .slice] s (s.enterHoldover) := by
  refine .within fun F hF => ?_
  unfold State.enterHoldover
  exact .then (.by (.record (G := [.goodSyncs, .badSyncs, .holdFrom]))) (State.changes_setTime ..)

theorem State.changes_syncOffset (s : State) (off : ℤ) :
    Changes [.regs, .regsButJenjo, .regsButStreams, .goodSyncs, .badSyncs, .holdFrom, .parts, .part .slice] s (s.syncOffset off) := by
  refine .within fun F hF => ?_
  unfold State.syncOffset
  extract_lets s1 good bad s2
  have h1 : Changes F s s1 := .by (State.changes_setRg ..)
  have h2 : Changes F s s2 := h1.then (.record (G := [.goodSyncs, .badSyncs]))
  exact .ite (.ite (h2.then (State.changes_enterHoldover ..)) h2) (.ite ((h2.then (State.changes_badSyncs _ _)).then (State.changes_setTime ..)) h2)

theorem changes_execPtpMessage (port : PortId) (at_ : Nat) (m : PtpMsg) (s : State) :
    Leads [.now, .txq, .out, .txFree, .regs, .regsButJenjo, .regsButStreams, .open_, .parts, .streams, .part .slice,
      .announceAt, .goodSyncs, .badSyncs, .holdFrom] s (execPtpMessage port at_ m s) := by
  refine .within fun F hF => ?_
  unfold execPtpMessage
  refine .takes ?_
  extract_lets s1
  have h1 : Changes F s s1 := .then (.by (State.changes_portTime ..)) (State.changes_received ..)
  split
  · extract_lets s2 s3
    have h2 : Changes F s s2 := h1.then (State.changes_setRg ..)
    have h3 : Changes F s s3 := .ite (h2.then (State.changes_announceAt _ _)) h2
    exact .ite (h3.then (State.changes_setTime ..)) h3
  · exact .ite (h1.then (State.changes_syncOffset ..)) h1
  · exact .ite (h1.then (State.changes_setRg ..)) h1
  · exact h1.then (State.changes_send ..)
  · exact h1

theorem changes_execAnnounceTimeout (at_ slave : Nat) (s : State) :
    Leads [.now, .regs, .regsButJenjo, .regsButStreams, .announceAt, .goodSyncs, .badSyncs, .holdFrom, .parts,
      .part .slice] s (execAnnounceTimeout at_ slave s) := by
  refine .within fun F hF => ?_
  unfold execAnnounceTimeout
  refine .takes ?_
  extract_lets s1 s2
  have h1 : Changes F s s1 := .then (.by (State.changes_at ..)) (State.changes_setRg ..)
  have h2 : Changes F s s2 := h1.then (State.changes_announceAt _ _)
  exact .ite (h2.then (State.changes_enterHoldover ..)) h2

theorem changes_execHoldoverExpire (at_ : Nat) (s : State) :
    Leads [.now, .regs, .regsButJenjo, .regsButStreams, .parts, .part .slice] s (execHoldoverExpire at_ s) := by
  refine .within fun F hF => ?_
  unfold execHoldoverExpire
  extract_lets st
  exact .takes (.then (.by (State.changes_at ..)) (State.changes_setTime ..))

theorem changes_execSynceLoss (at_ : Nat) (s : State) :
    Leads [.now, .goodSyncs, .regs, .regsButJenjo, .regsButStreams, .holdFrom, .parts, .part .slice] s (execSynceLoss at_ s) := by
  refine .within fun F hF => ?_
  unfold execSynceLoss
  refine .takes ?_
  extract_lets s1 s2
  have h1 : Changes F s s1 := .by (State.changes_at ..)
  have h2 : Changes F s s2 := (h1.then (State.changes_goodSyncs _ _)).then (State.changes_setRg ..)
  exact .ite ((h2.then (State.changes_holdFrom _ _)).then (State.changes_setTime ..)) h2

theorem changes_execSynceLocked (at_ : Nat) (s : State) :
    Leads [.now, .regs, .regsButJenjo, .regsButStreams, .parts, .part .slice] s (execSynceLocked at_ s) := by
  refine .within fun F hF => ?_
  unfold execSynceLocked
  refine .takes ?_
  extract_lets s1
  have h1 : Changes F s s1 := .then (.by (State.changes_at ..)) (State.changes_setRg ..)
  exact .ite (h1.then (State.changes_setTime ..)) h1

theorem changes_execSyncInterval (kind : Nat) (s : State) :
    Leads [.txq, .out, .txFree, .regs, .regsButJenjo, .regsButStreams, .open_, .parts, .streams, .part .slice] s (execSyncInterval kind s) := by
  refine .within fun F hF => ?_
  unfold execSyncInterval
  exact .takes (.foldl .refl (fun _ _ => .by (State.changes_send ..)))

theorem changes_execPpsOut (second : Nat) (s : State) :
    Leads [.now, .out, .ppsHigh] s (execPpsOut second s) := by
  refine .within fun F hF => ?_
  unfold execPpsOut
  refine .takes ?_
  extract_lets s1 s2
  have h1 : Changes F s s1 := .by (State.changes_at ..)
  have h2 : Changes F s s2 := h1.then (State.changes_emit ..)
  exact h2.then (State.changes_ppsHigh _ _)

theorem changes_execPpsIn (at_ width : Nat) (s : State) :
    Leads [.now, .regs, .regsButJenjo, .regsButStreams] s (execPpsIn at_ width s) := by
  refine .within fun F hF => ?_
  unfold execPpsIn
  refine .takes ?_
  extract_lets r off
  exact .then (.by (State.changes_at ..)) (State.changes_setRg ..)

theorem State.changes_timeConfig (s : State) (sub v : Nat) :
    ChangesFst [.regs, .regsButJenjo, .regsButStreams, .goodSyncs, .badSyncs, .parts, .part .slice] s (s.timeConfig sub v) := by
  refine .within fun F hF => ?_
  unfold State.timeConfig
  extract_lets key s1
  have h1 : Changes F s s1 := .then (.by (State.changes_setRg ..)) (State.changes_setRg ..)
  exact .ite (.mk .refl) (.ite (.mk .refl) (.ite (.mk .refl) (.ite (.mk .refl) (.mk ((h1.then (.record (G := [.goodSyncs, .badSyncs]))).then (State.changes_setTime ..))))))

theorem changes_execTimeConfigWrite (sess sub val : Nat) (s : State) :
    Leads [.regs, .regsButJenjo, .regsButStreams, .goodSyncs, .badSyncs, .parts, .part .slice] s (execTimeConfigWrite sess sub val s) := by
  refine .within fun F hF => ?_
  unfold execTimeConfigWrite
  refine .takes ?_
  exact .fst (Changes.thenFst .refl (State.changes_timeConfig ..))

end Sys2Proof.Machine

/-! ## What writes and requests change

The object dictionary, writes of objects, and the sessions of Jenjo. -/

namespace Sys2Proof.Machine
open Sys2Proof

-- Short theorems, many of them: one after another, so that the threads' stacks stay within the check's memory.
set_option Elab.async false

theorem State.changes_writeBase (s : State) (i a : Nat) :
    ChangesFst [.regs, .regsButJenjo, .regsButStreams] s (s.writeBase i a) := by
  refine .within fun F hF => ?_
  unfold State.writeBase
  refine .ite ?_ ?_
  · extract_lets old moved s1 s2
    have h1 : Changes F s s1 := .then (.by (State.changes_setRg ..)) (State.changes_setRg ..)
    have h2 : Changes F s s2 := .ite (h1.then (State.changes_sleepDevices ..)) h1
    exact .mk (h2.then (State.changes_wakeDevices ..))
  · exact .mk .refl

theorem State.changes_writeTick (s : State) (p key v : Nat) :
    Changes [.regs, .regsButJenjo, .regsButStreams, .parts, .part .gen] s (s.writeTick p key v) := by
  refine .within fun F hF => ?_
  unfold State.writeTick
  exact .then (.by (State.changes_setRg ..)) (State.changes_modPt _ _ [.gen])

theorem State.changes_updateCoFed (s : State) (p : Nat) :
    Changes [.regs, .regsButJenjo, .regsButStreams] s (s.updateCoFed p) :=
  State.changes_setRg ..

theorem State.changes_writePartner (s : State) (p key v : Nat) :
    ChangesFst [.regs, .regsButJenjo, .regsButStreams] s (s.writePartner p key v) := by
  refine .within fun F hF => ?_
  unfold State.writePartner
  extract_lets s1
  have h1 : Changes F s s1 := .by (State.changes_setRg ..)
  exact .ite (.mk .refl) (.mk (h1.then (State.changes_updateCoFed ..)))

theorem State.changes_writeHolderFeed (s : State) (p v : Nat) :
    ChangesFst [.regs, .regsButJenjo, .regsButStreams] s (s.writeHolderFeed p v) := by
  refine .within fun F hF => ?_
  unfold State.writeHolderFeed
  exact .ite (.mk .refl) (.mk (.then (.by (State.changes_setRg ..)) (State.changes_updateCoFed ..)))

theorem State.changes_factoryDefaults (s : State) :
    Changes [.doms, .regs, .regsButJenjo, .regsButStreams, .sessions, .out, .filters, .parts, .part .slice, .txq, .streams,
      .txFree, .open_] s (s.factoryDefaults) := by
  refine .within fun F hF => ?_
  unfold State.factoryDefaults
  extract_lets rwp off host tables s1 s2 s3 s4 s5 s6
  have h1 : Changes F s s1 := .fst (Changes.thenFst .refl (State.changes_writePublisherKeys ..))
  have h2 : Changes F s s2 := h1.then (.record (G := [.regs, .regsButJenjo, .regsButStreams, .doms, .filters]))
  have h3 : Changes F s s3 := (h2.then (State.changes_setRg ..)).then (State.changes_sleepDevices ..)
  have h4 : Changes F s s4 := .foldl h3 (fun _ _ => .by (State.changes_adminWritten ..))
  have h5 : Changes F s s5 := .ite (h4.then (State.changes_adminWritten ..)) h4
  have h6 : Changes F s s6 := .foldl h5 (fun _ _ => .by (State.changes_negotiateLpi ..))
  exact .foldl h6 (fun _ _ => .by (State.changes_updateCoFed ..))

theorem State.changes_factoryReset (s : State) :
    Changes [.doms, .regs, .regsButJenjo, .regsButStreams, .sessions, .out, .filters, .parts, .part .slice, .txq, .streams,
      .txFree, .open_, .rights, .boot, .checks, .part .jobs, .mem, .refLoad, .refErase, .fwRun] s (s.factoryReset) := by
  refine .within fun F hF => ?_
  unfold State.factoryReset
  exact .then (.by (State.changes_factoryDefaults ..)) (State.changes_restartMilliner ..)

theorem State.changes_writeCoef (s : State) (id : Nat) (data : List Byte) :
    ChangesFst [.mem, .regs, .regsButJenjo, .regsButStreams, .sessions, .out, .poisonLog, .cxlPoison, .parts] s (s.writeCoef id data) := by
  refine .within fun F hF => ?_
  unfold State.writeCoef
  extract_lets r e old put owned code
  exact .ite (.mk .refl) (.ite (.mk .refl) (.ite (.mk .refl) (.ite (.ite (.mk (.by (State.changes_store ..))) (.mk (.by (State.changes_store ..)))) (.ite (.mk (.by (State.changes_store ..))) (.mk .refl)))))

theorem changes_execWindowDataWrite (sess : Nat) (data : List Byte) (s : State) :
    Leads [.mem, .regs, .regsButJenjo, .regsButStreams, .sessions, .out, .poisonLog, .cxlPoison, .parts] s (execWindowDataWrite sess data s) := by
  refine .within fun F hF => ?_
  unfold execWindowDataWrite
  refine .takes ?_
  exact .fst (Changes.thenFst .refl (State.changes_writeCoef ..))

theorem State.changes_keepNum (s : State) (id key v : Nat) :
    Changes [.sessions, .regs, .regsButJenjo, .regsButStreams] s (s.keepNum id key v) := by
  refine .within fun F hF => ?_
  unfold State.keepNum
  split
  · exact .ite (.by (State.changes_setWin ..)) (.by (State.changes_setRg ..))
  · exact .refl

theorem State.changes_recoverWrite (s : State) (p v : Nat) (f : RecoverFacts) :
    ChangesFst [.regs, .regsButJenjo, .regsButStreams, .parts, .part .jobs, .mem, .part .pins] s (s.recoverWrite p v f) := by
  refine .within fun F hF => ?_
  unfold State.recoverWrite
  exact .ite (Changes.thenFst .refl (State.changes_recoverCmd ..)) (.ite (Changes.thenFst .refl (State.changes_resumeCmd ..)) (Changes.thenFst .refl (State.changes_abandonCmd ..)))

theorem State.changes_applyNum (s : State) (id key v : Nat) (f : RecoverFacts) :
    ChangesFst [.sessions, .regs, .regsButJenjo, .regsButStreams, .doms, .out, .filters, .parts, .part .slice, .txq, .streams,
      .txFree, .open_, .rights, .boot, .checks, .part .jobs, .mem, .refLoad, .refErase, .fwRun, .resAt, .res,
      .part .gen, .streamPending, .streamAt, .qps, .regions, .rkeys, .slots, .prefixes, .pages, .part .pins,
      .clusters, .cluster .crown, .cluster .arrays, .cluster .tiles, .cluster .napQueue, .cluster .napRegs,
      .cluster .napRun, .cluster .batt, .closed, .totals, .queues, .relays, .actRun, .refs, .goodSyncs, .badSyncs, .part .there, .part .settling, .part .built] s (s.applyNum id key v f) := by
  refine .within fun F hF => ?_
  unfold State.applyNum
  extract_lets n s1 pick
  have h1 : Changes F s s1 := .by (State.changes_keepNum ..)
  split
  · exact .mk (.by (State.changes_factoryReset ..))
  · exact Changes.thenFst .refl (State.changes_retrain ..)
  · exact Changes.thenFst .refl (State.changes_cxlRemove ..)
  · exact .pick (.mk .refl) ⟨.mk (.by (State.changes_resEnable ..)), Changes.thenFst .refl (State.changes_resDisable ..)⟩
  · exact .mk (.by (State.changes_writeTick ..))
  · exact .mk (.by (State.changes_writeTick ..))
  · exact .mk (h1.then (State.changes_adminWritten ..))
  · exact Changes.thenFst .refl (State.changes_adapt ..)
  · exact .mk (h1.then (State.changes_negotiateLpi ..))
  · exact .mk (h1.then (State.changes_negotiateLpi ..))
  · exact .mk (h1.then (State.changes_negotiateLpi ..))
  · exact .mk (h1.then (State.changes_adminWritten ..))
  · exact .mk (h1.then (State.changes_negotiateLpi ..))
  · exact .mk (h1.then (State.changes_negotiateLpi ..))
  · exact .pick (.mk .refl) ⟨.mk (.by (State.changes_streamEnable ..)), .mk (.by (State.changes_streamDisable ..)), Changes.thenFst .refl (State.changes_streamReplace ..)⟩
  · exact .pick (.mk .refl) ⟨.mk (.by (State.changes_qpConnect ..)), .mk (.by (State.changes_qpReset ..))⟩
  · exact .pick (.mk .refl) ⟨.mk (.by (State.changes_regionEnable ..)), .mk (.by (State.changes_regionDisable ..))⟩
  · exact .pick (.mk .refl) ⟨.mk (.by (State.changes_slotEnable ..)), .mk (.by (State.changes_slotDisable ..)), .mk (.by (State.changes_slotCancel ..))⟩
  · exact .pick (.mk .refl) ⟨.mk (.pageSpan .refl (fun _ _ => Changes.thenFst .refl (State.changes_pageOffer ..))), .mk (.pageSpan .refl (fun _ _ => Changes.thenFst .refl (State.changes_pageDrop ..)))⟩
  · exact .pick (.mk .refl) ⟨.mk (.by (State.changes_prefixEnable ..)), .mk (.by (State.changes_prefixDisable ..))⟩
  · exact .mk (.by (State.changes_copyCommand ..))
  · exact .mk (.foldl h1 (fun _ _ => .by (State.changes_updateCoFed ..)))
  · exact Changes.thenFst .refl (State.changes_writePartner ..)
  · exact Changes.thenFst .refl (State.changes_writePartner ..)
  · exact Changes.thenFst .refl (State.changes_writeHolderFeed ..)
  · exact .mk (h1.then (State.changes_updateCoFed ..))
  · exact Changes.thenFst .refl (State.changes_pressArm ..)
  · exact Changes.thenFst .refl (State.changes_writePartner ..)
  · exact Changes.thenFst .refl (State.changes_recoverWrite ..)
  · exact .pick (.mk .refl) ⟨Changes.thenFst .refl (State.changes_partBuild ..), Changes.thenFst .refl (State.changes_partRebuild ..), Changes.thenFst .refl (State.changes_partDissolve ..), Changes.thenFst .refl (State.changes_partStop ..)⟩
  · exact .pick (.mk .refl) ⟨Changes.thenFst .refl (State.changes_jobEnable ..), Changes.thenFst .refl (State.changes_jobDisable ..), Changes.thenFst .refl (State.changes_jobCancel ..)⟩
  · exact .ite (.mk h1) (.mk .refl)
  · exact Changes.thenFst .refl (State.changes_snapshot ..)
  · exact .pick (.mk .refl) ⟨Changes.thenFst .refl (State.changes_traceArm ..), Changes.thenFst .refl (State.changes_traceStop ..)⟩
  · exact .pick (.mk .refl) ⟨Changes.thenFst .refl (State.changes_dumpArm ..), Changes.thenFst .refl (State.changes_dumpCancel ..)⟩
  · exact Changes.thenFst .refl (State.changes_fwProgram ..)
  · exact Changes.thenFst .refl (State.changes_activate ..)
  · exact .pick (.mk .refl) ⟨Changes.thenFst .refl (State.changes_refLoadCmd ..), Changes.thenFst .refl (State.changes_refAbort ..), Changes.thenFst .refl (State.changes_refEraseCmd ..)⟩
  · exact .ite (Changes.thenFst .refl (State.changes_timeConfig ..)) (.ite (Changes.thenFst .refl (State.changes_writeBase ..)) (.mk h1))

theorem State.changes_writeNum (s : State) (id key v : Nat) (f : RecoverFacts) :
    ChangesFst [.sessions, .regs, .regsButJenjo, .regsButStreams, .doms, .out, .filters, .parts, .part .slice, .txq, .streams,
      .txFree, .open_, .rights, .boot, .checks, .part .jobs, .mem, .refLoad, .refErase, .fwRun, .resAt, .res,
      .part .gen, .streamPending, .streamAt, .qps, .regions, .rkeys, .slots, .prefixes, .pages, .part .pins,
      .clusters, .cluster .crown, .cluster .arrays, .cluster .tiles, .cluster .napQueue, .cluster .napRegs,
      .cluster .napRun, .cluster .batt, .closed, .totals, .queues, .relays, .actRun, .refs, .goodSyncs, .badSyncs, .part .there, .part .settling, .part .built] s (s.writeNum id key v f) := by
  refine .within fun F hF => ?_
  unfold State.writeNum
  split
  · exact .mk .refl
  · exact .ite (.mk .refl) (.ite (.mk .refl) (.ite (.mk .refl) (.ite (.mk .refl) (Changes.thenFst .refl (State.changes_applyNum ..)))))

theorem State.changes_closeKeys (s : State) (role part : Nat) (gone : List (List Byte)) :
    Changes [.sessions, .rights] s (s.closeKeys role part gone) :=
  State.changes_sessions _ _

theorem State.changes_writeKeys (s : State) (key role part limit : Nat) (data : List Byte) :
    ChangesFst [.doms, .sessions, .rights] s (s.writeKeys key role part limit data) := by
  refine .within fun F hF => ?_
  unfold State.writeKeys
  refine .ite ?_ ?_
  · exact .mk .refl
  · extract_lets ks gone
    exact .mk (.then (.by (State.changes_setDom ..)) (State.changes_closeKeys ..))

theorem State.changes_writeFilter (s : State) (id q : Nat) (data : List Byte) :
    ChangesFst [.filters] s (s.writeFilter id q data) := by
  refine .within fun F hF => ?_
  unfold State.writeFilter
  extract_lets e i
  exact .ite (.mk .refl) (.ite (.mk .refl) (.ite (.mk .refl) (.mk (.by (State.changes_filters _ _)))))

theorem State.changes_applyBytes (s : State) (id key : Nat) (data : List Byte) :
    ChangesFst [.doms, .sessions, .rights, .regs, .regsButJenjo, .regsButStreams, .out, .draws, .filters, .mem, .poisonLog,
      .cxlPoison, .parts, .resAt, .res] s (s.applyBytes id key data) := by
  refine .within fun F hF => ?_
  unfold State.applyBytes
  extract_lets n zero
  split
  · exact Changes.thenFst .refl (State.changes_writeKeys ..)
  · exact Changes.thenFst .refl (State.changes_writeKeys ..)
  · exact Changes.thenFst .refl (State.changes_writeKeys ..)
  · exact Changes.thenFst .refl (State.changes_writePublisherKeys ..)
  · exact Changes.thenFst .refl (State.changes_attest ..)
  · exact Changes.thenFst .refl (State.changes_writeFilter ..)
  · exact Changes.thenFst .refl (State.changes_writeCoef ..)
  · exact .ite (.mk .refl) (.mk (.by (State.changes_resList_ ..)))
  · exact .mk (.by (State.changes_setDom ..))
  · exact .ite (.mk .refl) (.mk (.by (State.changes_setWinDom ..)))
  · split
    · exact .mk (.ite (.by (State.changes_setWinDom ..)) (.by (State.changes_setDom ..)))
    · exact .mk .refl

theorem State.changes_writeBytes (s : State) (id key : Nat) (data : List Byte) :
    ChangesFst [.doms, .sessions, .rights, .regs, .regsButJenjo, .regsButStreams, .out, .draws, .filters, .mem, .poisonLog,
      .cxlPoison, .parts, .resAt, .res] s (s.writeBytes id key data) := by
  refine .within fun F hF => ?_
  unfold State.writeBytes
  split
  · exact .mk .refl
  · exact .ite (.mk .refl) (.ite (.mk .refl) (.ite (.mk .refl) (.ite (.mk .refl) (.ite (.mk .refl) (Changes.thenFst .refl (State.changes_applyBytes ..))))))

theorem State.changes_writeObj (s : State) (id key : Nat) (data : List Byte) (f : RecoverFacts) :
    ChangesFst [.sessions, .regs, .regsButJenjo, .regsButStreams, .doms, .out, .filters, .parts, .part .slice, .txq, .streams,
      .txFree, .open_, .rights, .boot, .checks, .part .jobs, .mem, .refLoad, .refErase, .fwRun, .resAt, .res,
      .part .gen, .streamPending, .streamAt, .qps, .regions, .rkeys, .slots, .prefixes, .pages, .part .pins,
      .clusters, .cluster .crown, .cluster .arrays, .cluster .tiles, .cluster .napQueue, .cluster .napRegs,
      .cluster .napRun, .cluster .batt, .closed, .totals, .queues, .relays, .actRun, .refs, .goodSyncs, .badSyncs,
      .draws, .poisonLog, .cxlPoison, .part .there, .part .settling, .part .built] s (s.writeObj id key data f) := by
  refine .within fun F hF => ?_
  unfold State.writeObj
  split
  · exact Changes.thenFst .refl (State.changes_writeNum ..)
  · split
    · exact .ite (.mk .refl) (Changes.thenFst .refl (State.changes_writeNum ..))
    · exact Changes.thenFst .refl (State.changes_writeBytes ..)

theorem changes_execRegisterWrite (sess key val : Nat) (facts : RecoverFacts) (s : State) :
    Leads [.sessions, .regs, .regsButJenjo, .regsButStreams, .doms, .out, .filters, .parts, .part .slice, .txq, .streams,
      .txFree, .open_, .rights, .boot, .checks, .part .jobs, .mem, .refLoad, .refErase, .fwRun, .resAt, .res,
      .part .gen, .streamPending, .streamAt, .qps, .regions, .rkeys, .slots, .prefixes, .pages, .part .pins,
      .clusters, .cluster .crown, .cluster .arrays, .cluster .tiles, .cluster .napQueue, .cluster .napRegs,
      .cluster .napRun, .cluster .batt, .closed, .totals, .queues, .relays, .actRun, .refs, .goodSyncs, .badSyncs, .part .there, .part .settling, .part .built] s (execRegisterWrite sess key val facts s) := by
  refine .within fun F hF => ?_
  unfold execRegisterWrite
  refine .takes ?_
  exact .fst (Changes.thenFst .refl (State.changes_writeNum ..))

theorem changes_execTickGrainsWrite (sess : Nat) (p : PartId) (epoch : Bool) (val : Nat) (s : State) :
    Leads [.sessions, .regs, .regsButJenjo, .regsButStreams, .doms, .out, .filters, .parts, .part .slice, .txq, .streams,
      .txFree, .open_, .rights, .boot, .checks, .part .jobs, .mem, .refLoad, .refErase, .fwRun, .resAt, .res,
      .part .gen, .streamPending, .streamAt, .qps, .regions, .rkeys, .slots, .prefixes, .pages, .part .pins,
      .clusters, .cluster .crown, .cluster .arrays, .cluster .tiles, .cluster .napQueue, .cluster .napRegs,
      .cluster .napRun, .cluster .batt, .closed, .totals, .queues, .relays, .actRun, .refs, .goodSyncs, .badSyncs, .part .there, .part .settling, .part .built] s (execTickGrainsWrite sess p epoch val s) := by
  refine .within fun F hF => ?_
  unfold execTickGrainsWrite
  extract_lets key
  refine .takes ?_
  exact .fst (Changes.thenFst .refl (State.changes_writeNum ..))

theorem changes_execCloseGuardNsWrite (sess : Nat) (p : PartId) (val : Nat) (s : State) :
    Leads [.sessions, .regs, .regsButJenjo, .regsButStreams, .doms, .out, .filters, .parts, .part .slice, .txq, .streams,
      .txFree, .open_, .rights, .boot, .checks, .part .jobs, .mem, .refLoad, .refErase, .fwRun, .resAt, .res,
      .part .gen, .streamPending, .streamAt, .qps, .regions, .rkeys, .slots, .prefixes, .pages, .part .pins,
      .clusters, .cluster .crown, .cluster .arrays, .cluster .tiles, .cluster .napQueue, .cluster .napRegs,
      .cluster .napRun, .cluster .batt, .closed, .totals, .queues, .relays, .actRun, .refs, .goodSyncs, .badSyncs, .part .there, .part .settling, .part .built] s (execCloseGuardNsWrite sess p val s) := by
  refine .within fun F hF => ?_
  unfold execCloseGuardNsWrite
  refine .takes ?_
  exact .fst (Changes.thenFst .refl (State.changes_writeNum ..))

theorem changes_execFactoryReset (sess val : Nat) (s : State) :
    Leads [.sessions, .regs, .regsButJenjo, .regsButStreams, .doms, .out, .filters, .parts, .part .slice, .txq, .streams,
      .txFree, .open_, .rights, .boot, .checks, .part .jobs, .mem, .refLoad, .refErase, .fwRun, .resAt, .res,
      .part .gen, .streamPending, .streamAt, .qps, .regions, .rkeys, .slots, .prefixes, .pages, .part .pins,
      .clusters, .cluster .crown, .cluster .arrays, .cluster .tiles, .cluster .napQueue, .cluster .napRegs,
      .cluster .napRun, .cluster .batt, .closed, .totals, .queues, .relays, .actRun, .refs, .goodSyncs, .badSyncs, .part .there, .part .settling, .part .built] s (execFactoryReset sess val s) := by
  refine .within fun F hF => ?_
  unfold execFactoryReset
  refine .takes ?_
  exact .fst (Changes.thenFst .refl (State.changes_writeNum ..))

theorem State.changes_dropSession (s : State) (id : Nat) :
    Changes [.sessions, .rights] s (s.dropSession id) :=
  State.changes_sessions _ _

theorem State.changes_authFail (s : State) (id : Nat) :
    Changes [.regs, .regsButStreams, .sessions, .rights] s (s.authFail id) := by
  refine .within fun F hF => ?_
  unfold State.authFail
  extract_lets s1
  have h1 : Changes F s s1 := .then (.by (State.changes_incRg_jenjo _ _)) (State.changes_modSession_rights _ _)
  split
  · exact .ite (h1.then (State.changes_dropSession ..)) h1
  · exact h1

/-- What a request may change: what it does, what follows it, its session's bookkeeping and its response. -/
theorem Leads.request {F : List Aspect} {s : State} {r : Request} {op : Nat} {act : State → State × Answer × List Byte}
    {fin : Nat → State → State} (hact : ∀ u, ChangesFst F u (act u)) (hfin : ∀ id u, Changes F u (fin id u))
    (hF : [.regs, .regsButStreams, .sessions, .rights, .out] ⊆ F := by
      refine List.Subset.trans ?_ (by assumption); decide) : Leads F s (s.request r op act fin) := by
  refine .takes (.ite (.by (State.changes_incRg_jenjo _ _)) ?_)
  split
  · exact .refl
  next x _ =>
    refine .ite (.by (State.changes_authFail ..)) ?_
    extract_lets u
    have hu : Changes F s u := .by (State.changes_modSession_rights _ _)
    refine .ite hu (.ite ?_ ?_)
    · split
      · exact hu.then (State.changes_emit ..)
      · exact hu
    · split
      next v a data e =>
        have hv : Changes F s v := hu.trans (.of_eq (ChangesFst.ite (.mk .refl) (hact u)) e)
        extract_lets y w
        have hw : Changes F s w := (hv.then (State.changes_modSession_rights _ _)).then (State.changes_emit ..)
        exact .ite (hw.trans (hfin ..)) hw

theorem changes_execOpen (r : Request) (s : State) :
    Leads [.regs, .regsButStreams, .out, .draws, .sessions, .rights] s (execOpen r s) := by
  refine .within fun F hF => ?_
  unfold execOpen
  refine .takes ?_
  refine .ite ?_ ?_
  · exact .by (State.changes_incRg_jenjo _ _)
  · extract_lets role part nonce _ bad
    refine .ite ?_ ?_
    · exact .by (State.changes_emit ..)
    · split
      next _ _ s1 e1 =>
        have h1 : Changes F s s1 := .draw .refl e1
        split
        next _ _ s2 e2 =>
          have h2 : Changes F s s2 := .draw h1 e2
          extract_lets mine
          split
          next _ _ s3 e3 =>
            have h3 : Changes F s s3 := .draw h2 e3
            split
            next _ _ s4 e4 =>
              have h4 : Changes F s s4 := .draw h3 e4
              extract_lets id x
              exact (h4.then (State.changes_sessions _ _)).then (State.changes_emit ..)

theorem State.changes_notifyOne (s : State) (id : Nat) (e : Event) :
    Changes [.out, .sessions, .rights] s (s.notifyOne id e) := by
  refine .within fun F hF => ?_
  unfold State.notifyOne
  split
  · split
    · exact .then (.by (State.changes_out _ _)) (State.changes_modSession ..)
  · exact .refl

theorem State.changes_greet (s : State) (id role : Nat) :
    Changes [.out, .sessions, .rights, .boot] s (s.greet id role) := by
  refine .within fun F hF => ?_
  unfold State.greet
  extract_lets s1 s2 __src
  have h1 : Changes F s s1 := by
    unfold s1
    split
    · exact .by (State.changes_notifyOne ..)
    · exact .refl
  have h2 : Changes F s s2 := h1.then (State.changes_notifyOne ..)
  exact .ite (h2.then (State.changes_boot _ _)) h1

theorem State.changes_openSession (s : State) (r : Request) (x : Session) :
    Changes [.sessions, .rights, .out, .boot] s (s.openSession r x) := by
  refine .within fun F hF => ?_
  unfold State.openSession
  extract_lets y role s1
  have h1 : Changes F s s1 := .by (State.changes_modSession ..)
  exact (h1.then (State.changes_emit ..)).then (State.changes_greet ..)

theorem changes_execOpenConfirm (r : Request) (s : State) :
    Leads [.regs, .regsButStreams, .sessions, .rights, .out, .doms, .boot] s (execOpenConfirm r s) := by
  refine .within fun F hF => ?_
  unfold execOpenConfirm
  refine .takes ?_
  refine .ite ?_ ?_
  · exact .by (State.changes_incRg_jenjo _ _)
  · split
    · exact .refl
    · refine .ite ?_ ?_
      · exact .by (State.changes_authFail ..)
      · refine .ite ?_ ?_
        · split
          · exact .ite (.by (State.changes_emit ..)) .refl
          · exact .refl
        · exact .ite .refl (.ite (.then (.by (State.changes_dropSession ..)) (State.changes_emit ..)) (.ite (.ite (.then (.by (State.changes_setDom ..)) (State.changes_openSession ..)) (.then (.by (State.changes_dropSession ..)) (State.changes_incRg_jenjo _ _))) (.ite (.by (State.changes_openSession ..)) .refl)))

theorem changes_execOpenTimeout (sess at_ : Nat) (s : State) :
    Leads [.now, .sessions, .rights] s (execOpenTimeout sess at_ s) := by
  refine .within fun F hF => ?_
  unfold execOpenTimeout
  split
  · exact .takes (.then (.by (State.changes_at ..)) (State.changes_dropSession ..))
  · exact .next .refl

theorem changes_execClose (r : Request) (s : State) :
    Leads [.regs, .regsButStreams, .sessions, .rights, .out] s (execClose r s) := by
  refine .within fun F hF => ?_
  unfold execClose
  refine .request (fun u => ?_) fun _ _ => ?_
  · exact .mk .refl
  · exact .by (State.changes_dropSession ..)

theorem changes_execSessionIdleTimeout (sess at_ : Nat) (s : State) :
    Leads [.now, .sessions, .rights] s (execSessionIdleTimeout sess at_ s) := by
  refine .within fun F hF => ?_
  unfold execSessionIdleTimeout
  split
  · exact .takes (.then (.by (State.changes_at ..)) (State.changes_dropSession ..))
  · exact .next .refl

theorem changes_execJenjoMalformed (port : PortId) (s : State) :
    Leads [.regs, .regsButStreams] s (execJenjoMalformed port s) := by
  refine .within fun F hF => ?_
  unfold execJenjoMalformed
  exact .takes (.by (State.changes_incRg_jenjo _ _))

theorem changes_execRead (r : Request) (s : State) :
    Leads [.regs, .regsButStreams, .sessions, .rights, .out] s (execRead r s) := by
  refine .within fun F hF => ?_
  unfold execRead
  refine .request (fun u => ?_) fun _ _ => ?_
  · split
    · exact .ite (.mk .refl) (.mk .refl)
  · exact .refl

theorem changes_execWrite (r : Request) (facts : RecoverFacts) (s : State) :
    Leads [.regs, .regsButStreams, .sessions, .rights, .out, .regsButJenjo, .doms, .filters, .parts, .part .slice, .txq,
      .streams, .txFree, .open_, .boot, .checks, .part .jobs, .mem, .refLoad, .refErase, .fwRun, .resAt, .res,
      .part .gen, .streamPending, .streamAt, .qps, .regions, .rkeys, .slots, .prefixes, .pages, .part .pins,
      .clusters, .cluster .crown, .cluster .arrays, .cluster .tiles, .cluster .napQueue, .cluster .napRegs,
      .cluster .napRun, .cluster .batt, .closed, .totals, .queues, .relays, .actRun, .refs, .goodSyncs, .badSyncs,
      .draws, .poisonLog, .cxlPoison, .part .there, .part .settling, .part .built] s (execWrite r facts s) := by
  refine .within fun F hF => ?_
  unfold execWrite
  refine .request (fun u => ?_) fun _ _ => ?_
  · split
    next _ s1 _ e1 =>
      have h1 : Changes F u s1 := .of_eq (Changes.thenFst .refl (State.changes_writeObj ..)) e1
      exact .mk h1
  · exact .refl

theorem changes_execReadBlock (r : Request) (s : State) :
    Leads [.regs, .regsButStreams, .sessions, .rights, .out] s (execReadBlock r s) := by
  refine .within fun F hF => ?_
  unfold execReadBlock
  refine .request (fun u => ?_) fun _ _ => ?_
  · split
    · exact .ite (.mk .refl) (.ite (.mk .refl) (.mk .refl))
  · exact .refl

theorem State.changes_writeSegment (s : State) (r : Request) :
    ChangesFst [.sessions, .doms, .rights, .regs, .regsButJenjo, .regsButStreams, .out, .draws, .filters, .mem, .poisonLog,
      .cxlPoison, .parts, .resAt, .res] s (s.writeSegment r) := by
  refine .within fun F hF => ?_
  unfold State.writeSegment
  extract_lets id key part
  split
  · exact .mk .refl
  · exact .ite (.mk .refl) (.ite (.mk .refl) (.ite (.mk .refl) (.ite (.mk (.by (State.changes_modSession_rights _ _))) (.ite (.mk (.by (State.changes_modSession_rights _ _))) (Changes.thenFst (.by (State.changes_modSession_rights _ _)) (State.changes_writeBytes ..))))))

theorem changes_execWriteBlock (r : Request) (s : State) :
    Leads [.regs, .regsButStreams, .sessions, .rights, .out, .doms, .regsButJenjo, .draws, .filters, .mem, .poisonLog,
      .cxlPoison, .parts, .resAt, .res] s (execWriteBlock r s) := by
  refine .within fun F hF => ?_
  unfold execWriteBlock
  refine .request (fun u => ?_) fun _ _ => ?_
  · split
    next _ s1 _ e1 =>
      have h1 : Changes F u s1 := .of_eq (Changes.thenFst .refl (State.changes_writeSegment ..)) e1
      exact .mk h1
  · exact .refl

theorem changes_execNotifyAck (r : Request) (s : State) :
    Leads [.regs, .regsButStreams, .sessions, .rights] s (execNotifyAck r s) := by
  refine .within fun F hF => ?_
  unfold execNotifyAck
  refine .takes ?_
  refine .ite ?_ ?_
  · exact .by (State.changes_incRg_jenjo _ _)
  · split
    · exact .refl
    · exact .ite (.by (State.changes_authFail ..)) (.by (State.changes_modSession_rights _ _))

theorem changes_execNotifyResend (sess seq at_ : Nat) (s : State) :
    Leads [.now, .sessions, .out] s (execNotifyResend sess seq at_ s) := by
  refine .within fun F hF => ?_
  unfold execNotifyResend
  split
  · exact .next .refl
  · split
    · exact .next .refl
    · refine .takes ?_
      extract_lets s1
      have h1 : Changes F s s1 := .by (State.changes_at ..)
      exact (h1.then (State.changes_modSession_rights _ _)).then (State.changes_emit ..)

end Sys2Proof.Machine

/-! ## What each command changes

The footprint of each command of the model, and the two facts that hold of all of them: the queue of waiting commands stays, and
device memory stays canonical. -/

namespace Sys2Proof.Machine
open Sys2Proof

-- Short theorems, many of them: one after another, so that the threads' stacks stay within the check's memory.
set_option Elab.async false

/-- The parts of the state that a command may change. -/
def footprint : Instr → List Aspect
  | .tickEdge .. =>
    [.now, .open_, .withheldFrom, .closed, .totals, .parts, .regs, .regsButJenjo, .regsButStreams, .sessions, .out,
      .part .gen, .resAt, .streams, .mem, .streamPending, .part .jobs, .slots, .part .pins, .checks, .res, .resChanged,
      .draws, .txq, .txFree, .part .slice, .clusters, .cluster .crown, .cluster .napRun, .cluster .batt, .cluster .arrays,
      .cluster .tiles, .cluster .napQueue, .cluster .napRegs, .queues, .part .there, .part .settling]
  | .closingGuard .. | .ackTimeout .. | .dropQueueFrame .. =>
    [.now, .txq, .out, .txFree, .regs, .regsButJenjo, .regsButStreams, .open_, .parts, .streams, .part .slice]
  | .round2Send .. =>
    [.now, .txq, .out, .txFree, .regs, .regsButJenjo, .regsButStreams, .open_, .parts, .streams, .part .slice,
      .part .settling]
  | .tickStatusRx .. =>
    [.now, .regs, .regsButJenjo, .regsButStreams, .open_, .parts, .part .slice, .clusters, .cluster .crown,
      .cluster .arrays, .cluster .napQueue, .cluster .napRun, .part .jobs, .mem, .slots, .sessions, .out, .part .pins,
      .part .there, .part .settling]
  | .settleDecide .. =>
    [.now, .regs, .regsButJenjo, .regsButStreams, .sessions, .out, .parts, .closed, .totals, .draws, .res, .resChanged,
      .mem, .part .slice, .clusters, .cluster .crown, .cluster .arrays, .cluster .napQueue, .cluster .napRun, .part .jobs,
      .slots, .part .pins, .part .there, .part .settling]
  | .statusRecordWrite .. =>
    [.now, .regs, .regsButJenjo, .regsButStreams, .mem, .parts, .slots, .sessions, .out, .txq, .txFree, .open_, .streams,
      .part .slice, .resChanged, .part .settling]
  | .jobComplete .. =>
    [.now, .parts, .part .jobs, .mem, .slots, .regs, .regsButJenjo, .regsButStreams, .sessions, .out, .part .pins]
  | .crownProgramLoad .. =>
    [.clusters, .cluster .crown, .parts, .now]
  | .tickGeneratorRestart .. =>
    [.now, .open_, .withheldFrom, .closed, .totals, .parts, .regs, .regsButJenjo, .regsButStreams, .sessions, .out,
      .part .gen, .resAt, .streams, .mem, .streamPending, .part .jobs, .slots, .part .pins, .checks, .res, .resChanged,
      .draws, .txq, .txFree, .part .slice, .clusters, .cluster .crown, .part .there, .part .settling]
  | .watchdogFire .. =>
    [.now, .parts, .part .slice, .regs, .regsButJenjo, .regsButStreams, .open_, .clusters, .cluster .crown,
      .cluster .arrays, .cluster .napQueue, .cluster .napRun]
  | .clusterResetDone .. =>
    [.clusters, .cluster .crown, .cluster .arrays, .cluster .tiles, .cluster .napQueue, .cluster .napRegs, .cluster .napRun,
      .cluster .batt]
  | .nop .. | .li .. | .lih .. | .add .. | .addi .. | .sub .. | .and_ .. | .or_ .. | .xor_ .. | .shl .. | .shr .. |
    .mul .. | .sltu .. | .ld .. | .ldz .. | .wait .. | .until_ .. | .branch .. | .enda .. | .loop .. | .jmp .. | .done .. =>
    [.clusters, .cluster .crown, .parts, .part .slice, .regs, .regsButJenjo, .regsButStreams, .open_, .now]
  | .st .. =>
    [.clusters, .cluster .crown, .parts, .part .slice, .regs, .regsButJenjo, .regsButStreams, .open_, .cluster .napRun,
      .cluster .batt, .now]
  | .issa .. =>
    [.clusters, .cluster .crown, .parts, .part .slice, .regs, .regsButJenjo, .regsButStreams, .open_, .cluster .arrays,
      .cluster .tiles, .cluster .napRun, .now]
  | .issn .. =>
    [.clusters, .cluster .crown, .parts, .part .slice, .regs, .regsButJenjo, .regsButStreams, .open_, .cluster .napQueue,
      .now]
  | .untilReached .. =>
    [.open_, .clusters, .regs, .regsButJenjo, .regsButStreams, .parts, .cluster .crown, .now]
  | .joinResume .. =>
    [.open_, .clusters, .regs, .regsButJenjo, .regsButStreams, .parts, .cluster .crown, .part .slice]
  | .product .. | .preload .. | .illegalDescriptor .. =>
    [.clusters, .cluster .arrays, .open_, .parts, .part .slice, .now]
  | .arrayComplete .. =>
    [.clusters, .cluster .arrays, .cluster .tiles, .cluster .napRun, .now, .open_, .parts, .part .slice, .regs,
      .regsButJenjo, .regsButStreams]
  | .gaugeEvalDone .. =>
    [.parts, .regs, .regsButJenjo, .regsButStreams, .sessions, .out]
  | .run .. =>
    [.clusters, .cluster .napQueue, .cluster .napRegs, .cluster .napRun, .now, .cluster .tiles, .open_, .parts, .part .slice]
  | .scale .. =>
    [.clusters, .cluster .napQueue, .cluster .napRegs, .cluster .napRun, .now, .parts]
  | .amaxNote .. | .summaryLoad .. | .summaryStore .. =>
    [.clusters, .cluster .napQueue, .cluster .napRegs, .cluster .napRun, .now]
  | .napIllegal .. =>
    [.clusters, .cluster .napQueue, .cluster .napRegs, .cluster .napRun, .now, .open_, .parts, .part .slice, .regs,
      .regsButJenjo, .regsButStreams]
  | .napOpEnd .. =>
    [.open_, .now, .clusters, .cluster .napQueue, .cluster .napRegs, .cluster .napRun, .parts, .part .slice, .regs,
      .regsButJenjo, .regsButStreams, .cluster .batt]
  | .burst .. | .reduce .. =>
    [.now, .parts, .part .slice, .open_, .regs, .regsButJenjo, .regsButStreams, .sessions, .out, .poisonLog, .cxlPoison,
      .badPages, .refs]
  | .burstComplete .. | .reblockItemEnd .. =>
    [.now, .open_, .parts, .part .slice, .mem, .regs, .regsButJenjo, .regsButStreams, .sessions, .out, .poisonLog,
      .cxlPoison, .badPages, .refs, .res, .resChanged, .clusters, .cluster .napRun, .cluster .batt, .queues]
  | .highTempRefresh .. =>
    [.regs, .regsButJenjo, .regsButStreams, .parts, .part .slice, .open_]
  | .retrainDevice .. | .pressArm .. | .traceStop .. =>
    [.regs, .regsButJenjo, .regsButStreams]
  | .retrainDone .. =>
    [.regs, .regsButJenjo, .regsButStreams, .trainTemp, .advised, .sessions, .out, .parts]
  | .gddr7RetrainAdvised .. =>
    [.regs, .regsButJenjo, .regsButStreams, .advised, .sessions, .out]
  | .cxlEnumerate .. =>
    [.regs, .regsButJenjo, .regsButStreams, .mem, .cxlPoison, .cxlSris, .sessions, .out]
  | .cxlRemove .. | .normalTemperatureRefresh .. =>
    [.parts, .part .slice, .regs, .regsButJenjo, .regsButStreams]
  | .cxlLost .. =>
    [.regs, .regsButJenjo, .regsButStreams, .mem, .cxlPoison, .sessions, .out, .parts]
  | .kettleItem .. =>
    [.now, .parts, .part .slice, .regs, .regsButJenjo, .regsButStreams, .part .jobs, .mem, .sessions, .out, .open_,
      .poisonLog, .cxlPoison, .badPages, .refs]
  | .kettleItemEnd .. =>
    [.now, .open_, .parts, .part .slice]
  | .reblockMove .. =>
    [.now, .parts, .part .slice, .open_, .regs, .regsButJenjo, .regsButStreams, .sessions, .out, .poisonLog, .cxlPoison,
      .badPages, .refs, .mem, .res, .resChanged, .clusters, .cluster .napRun, .cluster .batt, .queues]
  | .portUp .. =>
    [.now, .txq, .out, .txFree, .regs, .regsButJenjo, .regsButStreams, .open_, .parts, .streams, .part .slice, .upSince,
      .sessions]
  | .portDown .. =>
    [.now, .txq, .out, .txFree, .regs, .regsButJenjo, .regsButStreams, .open_, .parts, .streams, .part .slice, .sessions]
  | .failback .. =>
    [.streams]
  | .adapt .. =>
    [.parts, .part .slice, .regs, .regsButJenjo, .regsButStreams, .sessions, .out, .txq, .streams, .txFree, .open_]
  | .fecUncorrectable .. =>
    [.regs, .regsButJenjo, .regsButStreams, .open_, .parts, .part .slice]
  | .pauseFrame .. =>
    [.now, .txq, .out, .txFree, .regs, .regsButJenjo, .regsButStreams, .open_, .parts, .streams, .part .slice, .pauseFrom,
      .pauseEnd]
  | .pauseExpire .. =>
    [.now, .txq, .out, .txFree, .regs, .regsButJenjo, .regsButStreams, .open_, .parts, .streams, .part .slice, .pauseFrom]
  | .hostPauseTx .. =>
    [.hostPause, .out, .regs, .regsButJenjo, .regsButStreams, .open_]
  | .transmitSlot .. =>
    [.now, .txq, .out, .txFree, .regs, .regsButJenjo, .regsButStreams, .open_, .parts, .streams, .part .slice, .sessions,
      .poisonLog, .cxlPoison, .badPages, .refs]
  | .dataFrame .. | .nullFrame .. =>
    [.now, .txq, .out, .txFree, .regs, .regsButJenjo, .regsButStreams, .open_, .parts, .streams, .part .slice, .relays,
      .mem, .sessions, .poisonLog, .cxlPoison, .badPages, .refs, .res, .resChanged, .clusters, .cluster .napRun,
      .cluster .batt, .queues]
  | .ack .. | .nak .. | .relayForward .. =>
    [.now, .txq, .out, .txFree, .regs, .regsButJenjo, .regsButStreams, .open_, .parts, .streams, .part .slice, .relays]
  | .helloSend .. | .syncInterval .. =>
    [.txq, .out, .txFree, .regs, .regsButJenjo, .regsButStreams, .open_, .parts, .streams, .part .slice]
  | .hello .. =>
    [.regs, .regsButJenjo, .regsButStreams, .open_, .peerCaps, .helloTold, .sessions, .out]
  | .sleep .. | .cnp .. =>
    [.regs, .regsButJenjo, .regsButStreams, .open_]
  | .lldp .. =>
    [.regs, .regsButJenjo, .regsButStreams, .open_, .peerWake, .txq, .out, .txFree, .parts, .streams, .part .slice]
  | .lpiEnter .. | .lpiWake .. | .lpiEarlyWake .. =>
    [.now, .txq, .out, .txFree, .regs, .regsButJenjo, .regsButStreams, .open_, .parts, .streams, .part .slice, .lpiEnd]
  | .ptpMessage .. =>
    [.now, .txq, .out, .txFree, .regs, .regsButJenjo, .regsButStreams, .open_, .parts, .streams, .part .slice, .announceAt,
      .goodSyncs, .badSyncs, .holdFrom]
  | .announceTimeout .. =>
    [.now, .regs, .regsButJenjo, .regsButStreams, .announceAt, .goodSyncs, .badSyncs, .holdFrom, .parts, .part .slice]
  | .holdoverExpire .. | .synceLocked .. =>
    [.now, .regs, .regsButJenjo, .regsButStreams, .parts, .part .slice]
  | .synceLoss .. =>
    [.now, .goodSyncs, .regs, .regsButJenjo, .regsButStreams, .holdFrom, .parts, .part .slice]
  | .ppsOut .. =>
    [.now, .out, .ppsHigh]
  | .ppsIn .. =>
    [.now, .regs, .regsButJenjo, .regsButStreams]
  | .rdmaWrite .. =>
    [.regs, .regsButJenjo, .regsButStreams, .open_, .txq, .out, .txFree, .parts, .streams, .part .slice, .mem, .sessions,
      .poisonLog, .cxlPoison, .qps]
  | .rdmaRead .. =>
    [.regs, .regsButJenjo, .regsButStreams, .open_, .txq, .out, .txFree, .parts, .streams, .part .slice, .qps, .sessions,
      .poisonLog, .cxlPoison, .draws]
  | .roceTimeout .. =>
    [.now, .qps, .txq, .out, .txFree, .regs, .regsButJenjo, .regsButStreams, .open_, .parts, .streams, .part .slice]
  | .qpConnect .. =>
    [.qps, .sessions]
  | .qpReset .. =>
    [.sessions, .qps]
  | .regionEnable .. =>
    [.regions, .rkeys, .sessions]
  | .regionDisable .. =>
    [.sessions, .regions]
  | .open_ .. =>
    [.regs, .regsButStreams, .out, .draws, .sessions, .rights]
  | .openConfirm .. =>
    [.regs, .regsButStreams, .sessions, .rights, .out, .doms, .boot]
  | .openTimeout .. | .sessionIdleTimeout .. =>
    [.now, .sessions, .rights]
  | .close .. | .read .. | .readBlock .. =>
    [.regs, .regsButStreams, .sessions, .rights, .out]
  | .jenjoMalformed .. =>
    [.regs, .regsButStreams]
  | .write .. =>
    [.regs, .regsButStreams, .sessions, .rights, .out, .regsButJenjo, .doms, .filters, .parts, .part .slice, .txq, .streams,
      .txFree, .open_, .boot, .checks, .part .jobs, .mem, .refLoad, .refErase, .fwRun, .resAt, .res, .part .gen,
      .streamPending, .streamAt, .qps, .regions, .rkeys, .slots, .prefixes, .pages, .part .pins, .clusters, .cluster .crown,
      .cluster .arrays, .cluster .tiles, .cluster .napQueue, .cluster .napRegs, .cluster .napRun, .cluster .batt, .closed,
      .totals, .queues, .relays, .actRun, .refs, .goodSyncs, .badSyncs, .draws, .poisonLog, .cxlPoison, .part .there,
      .part .settling, .part .built]
  | .writeBlock .. =>
    [.regs, .regsButStreams, .sessions, .rights, .out, .doms, .regsButJenjo, .draws, .filters, .mem, .poisonLog, .cxlPoison,
      .parts, .resAt, .res]
  | .notifyAck .. =>
    [.regs, .regsButStreams, .sessions, .rights]
  | .notifyResend .. =>
    [.now, .sessions, .out]
  | .registerWrite .. | .tickGrainsWrite .. | .closeGuardNsWrite .. | .factoryReset .. =>
    [.sessions, .regs, .regsButJenjo, .regsButStreams, .doms, .out, .filters, .parts, .part .slice, .txq, .streams, .txFree,
      .open_, .rights, .boot, .checks, .part .jobs, .mem, .refLoad, .refErase, .fwRun, .resAt, .res, .part .gen,
      .streamPending, .streamAt, .qps, .regions, .rkeys, .slots, .prefixes, .pages, .part .pins, .clusters, .cluster .crown,
      .cluster .arrays, .cluster .tiles, .cluster .napQueue, .cluster .napRegs, .cluster .napRun, .cluster .batt, .closed,
      .totals, .queues, .relays, .actRun, .refs, .goodSyncs, .badSyncs, .part .there, .part .settling, .part .built]
  | .timeConfigWrite .. =>
    [.regs, .regsButJenjo, .regsButStreams, .goodSyncs, .badSyncs, .parts, .part .slice]
  | .resEnable .. | .resList .. =>
    [.resAt, .res, .mem, .sessions]
  | .resDisable .. =>
    [.sessions, .resAt, .res, .mem]
  | .streamEnable .. =>
    [.mem, .streamPending, .streamAt, .regs, .regsButJenjo, .sessions]
  | .streamDisable .. =>
    [.sessions, .streamPending, .streamAt, .mem, .regs, .regsButJenjo]
  | .streamReplace .. =>
    [.sessions, .streamPending, .streamAt]
  | .windowDataWrite .. | .counterImageWrite .. =>
    [.mem, .regs, .regsButJenjo, .regsButStreams, .sessions, .out, .poisonLog, .cxlPoison, .parts]
  | .partBuild .. =>
    [.regs, .regsButJenjo, .regsButStreams, .clusters, .cluster .crown, .cluster .arrays, .cluster .tiles,
      .cluster .napQueue, .cluster .napRegs, .cluster .napRun, .cluster .batt, .open_, .closed, .totals, .parts,
      .part .slice, .part .gen, .part .jobs, .part .pins, .part .there, .part .settling, .part .built]
  | .partRebuild .. =>
    [.clusters, .cluster .crown, .cluster .arrays, .cluster .tiles, .cluster .napQueue, .cluster .napRegs, .cluster .napRun,
      .cluster .batt, .regs, .regsButJenjo, .regsButStreams, .queues, .relays, .parts, .part .jobs, .part .built]
  | .partDissolve .. =>
    [.regs, .regsButJenjo, .regsButStreams, .clusters, .cluster .crown, .cluster .arrays, .cluster .tiles,
      .cluster .napQueue, .cluster .napRegs, .cluster .napRun, .cluster .batt, .queues, .relays, .parts, .part .slice,
      .part .gen, .part .jobs, .part .pins, .part .there, .part .settling, .part .built]
  | .partStop .. | .jobCancel .. | .recover .. =>
    [.regs, .regsButJenjo, .regsButStreams, .parts]
  | .jobEnable .. =>
    [.parts, .part .jobs, .mem, .sessions, .out, .checks]
  | .jobCheckDone .. =>
    [.now, .checks, .parts, .part .jobs, .mem, .part .pins, .regs, .regsButJenjo, .regsButStreams, .histUsed, .res,
      .resChanged, .sessions, .out]
  | .jobDisable .. =>
    [.parts, .part .jobs, .mem, .part .pins, .regs, .regsButJenjo, .regsButStreams]
  | .slotEnable .. =>
    [.sessions, .slots, .mem, .prefixes]
  | .slotDisable .. =>
    [.prefixes, .mem, .parts, .sessions, .slots]
  | .slotCancel .. | .copyPrepare .. | .copySwitch .. =>
    [.parts, .sessions]
  | .pageEnable .. | .pageDisable .. =>
    [.pages, .mem, .sessions]
  | .prefixEnable .. =>
    [.sessions, .pages, .mem, .slots, .prefixes]
  | .prefixDisable .. =>
    [.sessions, .prefixes, .mem]
  | .genStepSettle .. =>
    [.now, .slots, .regs, .regsButJenjo, .regsButStreams, .parts, .sessions, .out, .mem, .poisonLog, .cxlPoison, .res,
      .resChanged]
  | .recoveryStart .. =>
    [.parts, .part .jobs, .mem, .regs, .regsButJenjo, .regsButStreams, .res, .resChanged, .sessions, .out, .poisonLog,
      .cxlPoison, .draws, .histUsed]
  | .restoreTransfer .. =>
    [.parts, .regs, .regsButJenjo, .regsButStreams, .draws, .mem, .sessions, .out, .poisonLog, .cxlPoison, .res,
      .resChanged, .histUsed]
  | .recoveryReady .. =>
    [.now, .regs, .regsButJenjo, .regsButStreams, .mem, .histUsed]
  | .resume .. =>
    [.regs, .regsButJenjo, .regsButStreams, .parts, .part .jobs, .mem, .part .pins]
  | .abandon .. =>
    [.parts]
  | .pressCopyDone .. =>
    [.now, .mem, .regs, .regsButJenjo, .regsButStreams, .sessions, .out, .poisonLog, .cxlPoison, .parts]
  | .drainWindow .. =>
    [.now, .out, .parts, .regs, .regsButJenjo, .regsButStreams]
  | .snapshot .. =>
    [.parts, .regs, .regsButJenjo, .regsButStreams]
  | .snapshotSwitch .. =>
    [.now, .open_, .withheldFrom, .closed, .totals, .parts, .regs, .regsButJenjo, .regsButStreams, .sessions, .out]
  | .traceArm .. =>
    [.clusters, .parts, .regs, .regsButJenjo, .regsButStreams]
  | .traceTrigger .. =>
    [.clusters, .parts]
  | .traceFrozen .. | .traceStoppedFull .. =>
    [.clusters, .sessions, .out, .regs, .regsButJenjo, .regsButStreams]
  | .traceSpill .. =>
    [.now, .clusters, .mem, .regs, .regsButJenjo, .regsButStreams, .sessions, .out, .poisonLog, .cxlPoison, .parts]
  | .dumpArm .. | .dumpCancel .. | .dumpDone .. =>
    [.parts, .sessions, .out]
  | .dumpCapture .. =>
    [.now, .parts]
  | .fwProgram .. =>
    [.boot, .fwRun, .regs, .regsButJenjo, .regsButStreams]
  | .fwProgrammed .. =>
    [.now, .fwRun, .boot, .regs, .regsButJenjo, .regsButStreams, .sessions, .out]
  | .activate .. =>
    [.regs, .regsButJenjo, .regsButStreams, .boot, .actRun]
  | .activationDone .. =>
    [.now, .actRun, .regs, .regsButJenjo, .regsButStreams, .sessions, .rights, .boot, .checks, .parts, .part .jobs, .mem,
      .refLoad, .refErase, .out, .fwRun]
  | .minSecurityVersionAdvance .. =>
    [.now, .boot, .regs, .regsButJenjo, .regsButStreams]
  | .millinerRestart .. =>
    [.sessions, .rights, .boot, .regs, .regsButJenjo, .regsButStreams, .checks, .parts, .part .jobs, .mem, .refLoad,
      .refErase, .out, .fwRun, .now]
  | .refLoad .. =>
    [.sessions, .regs, .regsButJenjo, .regsButStreams, .refs, .refLoad]
  | .refAbort .. =>
    [.sessions, .refLoad, .refErase, .regs, .regsButJenjo, .regsButStreams, .out]
  | .refErase .. =>
    [.sessions, .refErase, .regs, .regsButJenjo, .regsButStreams]
  | .refChunk .. =>
    [.now, .mem, .badPages, .refs, .refLoad, .refErase, .regs, .regsButJenjo, .regsButStreams, .sessions, .out]
  | .refLoadTimeout .. =>
    [.now, .refLoad, .refErase, .regs, .regsButJenjo, .regsButStreams, .sessions, .out]
  | .imageLoaded .. =>
    [.now, .draws, .refLoad, .regs, .regsButJenjo, .regsButStreams, .doms, .sessions, .out]
  | .eraseDone .. =>
    [.now, .mem, .badPages, .refs, .refErase, .regs, .regsButJenjo, .regsButStreams, .doms]
  | .attestNonce .. =>
    [.draws, .sessions]
  | .publisherKeys .. =>
    [.doms, .regs, .regsButJenjo, .regsButStreams, .sessions, .out]
  | .vinApplied .. =>
    [.now, .power, .regs, .regsButJenjo, .regsButStreams]
  | .powerOnSequence .. =>
    [.now, .power]
  | .railTimeout .. =>
    [.now, .power, .boot, .regs, .regsButJenjo, .regsButStreams]
  | .resetRelease .. =>
    [.now, .power, .boot, .regs, .regsButJenjo, .regsButStreams, .doms, .filters, .mram]
  | .romRecoveryDatagram .. =>
    [.boot, .regs, .regsButJenjo, .regsButStreams, .doms, .filters, .mram]
  | .helperBoot .. =>
    [.now, .regs, .regsButJenjo, .regsButStreams, .boot, .sessions, .out, .trainTemp]
  | .shutdown .. =>
    Aspect.lostWithPower
  | .powerSample .. =>
    [.now, .open_, .withheldFrom, .throttle, .regs, .regsButJenjo, .regsButStreams, .sessions, .out, .parts, .part .slice]
  | .thermalThrottle .. =>
    [.now, .open_, .withheldFrom, .regs, .regsButJenjo, .regsButStreams, .throttle, .parts, .part .slice, .sessions, .out]
  | .throttleStep .. | .throttleRelease .. =>
    [.now, .open_, .withheldFrom, .throttle, .regs, .regsButJenjo, .regsButStreams]
  | .inletHigh .. =>
    [.now, .throttle, .regs, .regsButJenjo, .regsButStreams, .sessions, .out]
  | .roceAck .. =>
    [.regs, .regsButJenjo, .regsButStreams, .open_, .qps, .txq, .out, .txFree, .parts, .streams, .part .slice]
  | .dumpWindow .. =>
    [.now, .parts, .sessions, .out, .draws, .qps, .txq, .txFree, .regs, .regsButJenjo, .regsButStreams, .open_, .streams,
      .part .slice, .mem, .poisonLog, .cxlPoison]

/-- A command changes nothing outside its footprint. -/
theorem exec_changes : ∀ (i : Instr) (s : State), Leads (footprint i) s (exec i s)
  | .tickEdge p, s => changes_execTickEdge p s
  | .closingGuard p, s => changes_execClosingGuard p s
  | .round2Send p, s => changes_execRound2Send p s
  | .tickStatusRx port at_ f, s => changes_execTickStatusRx port at_ f s
  | .settleDecide p recMb recBuckets, s => changes_execSettleDecide p recMb recBuckets s
  | .statusRecordWrite p, s => changes_execStatusRecordWrite p s
  | .jobComplete p, s => changes_execJobComplete p s
  | .crownProgramLoad p bad, s => changes_execCrownProgramLoad p bad s
  | .tickGeneratorRestart p, s => changes_execTickGeneratorRestart p s
  | .watchdogFire c, s => changes_execWatchdogFire c s
  | .clusterResetDone c, s => changes_execClusterResetDone c s
  | .nop c, s => changes_execNop c s
  | .li c rd imm, s => changes_execLi c rd imm s
  | .lih c rd imm, s => changes_execLih c rd imm s
  | .add c rd rs1 rs2, s => changes_execAdd c rd rs1 rs2 s
  | .addi c rd rs1 imm, s => changes_execAddi c rd rs1 imm s
  | .sub c rd rs1 rs2, s => changes_execSub c rd rs1 rs2 s
  | .and_ c rd rs1 rs2, s => changes_execAnd c rd rs1 rs2 s
  | .or_ c rd rs1 rs2, s => changes_execOr c rd rs1 rs2 s
  | .xor_ c rd rs1 rs2, s => changes_execXor c rd rs1 rs2 s
  | .shl c rd rs1 sh, s => changes_execShl c rd rs1 sh s
  | .shr c rd rs1 sh, s => changes_execShr c rd rs1 sh s
  | .mul c rd rs1 rs2, s => changes_execMul c rd rs1 rs2 s
  | .sltu c rd rs1 rs2, s => changes_execSltu c rd rs1 rs2 s
  | .ld c rd rs1 imm, s => changes_execLd c rd rs1 imm s
  | .st c rs1 rs2 imm, s => changes_execSt c rs1 rs2 imm s
  | .ldz c rd z, s => changes_execLdz c rd z s
  | .issa c arr discard tag rs1 imm, s => changes_execIssa c arr discard tag rs1 imm s
  | .issn c rs1 imm, s => changes_execIssn c rs1 imm s
  | .wait c cls count first, s => changes_execWait c cls count first s
  | .until_ c imm, s => changes_execUntil c imm s
  | .untilReached c, s => changes_execUntilReached c s
  | .branch c z flag b alts join, s => changes_execBranch c z flag b alts join s
  | .enda c, s => changes_execEnda c s
  | .joinResume c, s => changes_execJoinResume c s
  | .loop c body count, s => changes_execLoop c body count s
  | .jmp c imm, s => changes_execJmp c imm s
  | .done c, s => changes_execDone c s
  | .product c a parity, s => changes_execProduct c a parity s
  | .preload c a parity, s => changes_execPreload c a parity s
  | .illegalDescriptor c a, s => changes_execIllegalDescriptor c a s
  | .arrayComplete c a, s => changes_execArrayComplete c a s
  | .gaugeEvalDone q p, s => changes_execGaugeEvalDone q p s
  | .run c parity, s => changes_execRun c parity s
  | .scale c, s => changes_execScale c s
  | .amaxNote c, s => changes_execAmaxNote c s
  | .summaryLoad c, s => changes_execSummaryLoad c s
  | .summaryStore c, s => changes_execSummaryStore c s
  | .napIllegal c, s => changes_execNapIllegal c s
  | .napOpEnd c, s => changes_execNapOpEnd c s
  | .burst p n errs, s => changes_execBurst p n errs s
  | .burstComplete p n at_ errs, s => changes_execBurstComplete p n at_ errs s
  | .highTempRefresh d cycles, s => changes_execHighTempRefresh d cycles s
  | .retrainDevice sess d, s => changes_execRetrainDevice sess d s
  | .retrainDone d temp, s => changes_execRetrainDone d temp s
  | .gddr7RetrainAdvised d temp, s => changes_execGddr7RetrainAdvised d temp s
  | .cxlEnumerate x capacity type3 hotAdd refclk, s => changes_execCxlEnumerate x capacity type3 hotAdd refclk s
  | .cxlRemove sess x, s => changes_execCxlRemove sess x s
  | .cxlLost x, s => changes_execCxlLost x s
  | .kettleItem u p n blocks errs, s => changes_execKettleItem u p n blocks errs s
  | .kettleItemEnd u p at_, s => changes_execKettleItemEnd u p at_ s
  | .reduce q p n errs, s => changes_execReduce q p n errs s
  | .reblockMove q p n errs, s => changes_execReblockMove q p n errs s
  | .reblockItemEnd q p n at_ errs, s => changes_execReblockItemEnd q p n at_ errs s
  | .portUp port at_, s => changes_execPortUp port at_ s
  | .portDown port at_, s => changes_execPortDown port at_ s
  | .failback stream, s => changes_execFailback stream s
  | .adapt sess port, s => changes_execAdapt sess port s
  | .fecUncorrectable port codewords corrected, s => changes_execFecUncorrectable port codewords corrected s
  | .pauseFrame port at_ all_ times, s => changes_execPauseFrame port at_ all_ times s
  | .pauseExpire port at_, s => changes_execPauseExpire port at_ s
  | .hostPauseTx level, s => changes_execHostPauseTx level s
  | .transmitSlot p n errs, s => changes_execTransmitSlot p n errs s
  | .dataFrame port at_ x data mirror fate errs, s => changes_execDataFrame port at_ x data mirror fate errs s
  | .nullFrame port at_ x fate, s => changes_execNullFrame port at_ x fate s
  | .ack port at_ x fate, s => changes_execAck port at_ x fate s
  | .nak port at_ x fate, s => changes_execNak port at_ x fate s
  | .ackTimeout p n at_, s => changes_execAckTimeout p n at_ s
  | .relayForward port at_, s => changes_execRelayForward port at_ s
  | .helloSend port, s => changes_execHelloSend port s
  | .hello port caps size position number, s => changes_execHello port caps size position number s
  | .sleep port sleepNs, s => changes_execSleep port sleepNs s
  | .lldp port mac wake, s => changes_execLldp port mac wake s
  | .lpiEnter port from_ until_, s => changes_execLpiEnter port from_ until_ s
  | .lpiWake port, s => changes_execLpiWake port s
  | .lpiEarlyWake port at_, s => changes_execLpiEarlyWake port at_ s
  | .ptpMessage port at_ m, s => changes_execPtpMessage port at_ m s
  | .announceTimeout at_ slave, s => changes_execAnnounceTimeout at_ slave s
  | .holdoverExpire at_, s => changes_execHoldoverExpire at_ s
  | .synceLoss at_, s => changes_execSynceLoss at_ s
  | .ppsOut second, s => changes_execPpsOut second s
  | .ppsIn at_ width, s => changes_execPpsIn at_ width s
  | .rdmaWrite x, s => changes_execRdmaWrite x s
  | .rdmaRead x, s => changes_execRdmaRead x s
  | .cnp x, s => changes_execCnp x s
  | .roceTimeout qp at_, s => changes_execRoceTimeout qp at_ s
  | .qpConnect sess, s => changes_execQpConnect sess s
  | .qpReset sess, s => changes_execQpReset sess s
  | .regionEnable sess, s => changes_execRegionEnable sess s
  | .regionDisable sess, s => changes_execRegionDisable sess s
  | .open_ r, s => changes_execOpen r s
  | .openConfirm r, s => changes_execOpenConfirm r s
  | .openTimeout sess at_, s => changes_execOpenTimeout sess at_ s
  | .close r, s => changes_execClose r s
  | .sessionIdleTimeout sess at_, s => changes_execSessionIdleTimeout sess at_ s
  | .jenjoMalformed port, s => changes_execJenjoMalformed port s
  | .read r, s => changes_execRead r s
  | .write r facts, s => changes_execWrite r facts s
  | .readBlock r, s => changes_execReadBlock r s
  | .writeBlock r, s => changes_execWriteBlock r s
  | .notifyAck r, s => changes_execNotifyAck r s
  | .notifyResend sess seq at_, s => changes_execNotifyResend sess seq at_ s
  | .registerWrite sess key val facts, s => changes_execRegisterWrite sess key val facts s
  | .tickGrainsWrite sess p epoch val, s => changes_execTickGrainsWrite sess p epoch val s
  | .closeGuardNsWrite sess p val, s => changes_execCloseGuardNsWrite sess p val s
  | .timeConfigWrite sess sub val, s => changes_execTimeConfigWrite sess sub val s
  | .factoryReset sess val, s => changes_execFactoryReset sess val s
  | .resEnable sess, s => changes_execResEnable sess s
  | .resDisable sess, s => changes_execResDisable sess s
  | .resList sess list_, s => changes_execResList sess list_ s
  | .streamEnable sess, s => changes_execStreamEnable sess s
  | .streamDisable sess, s => changes_execStreamDisable sess s
  | .streamReplace sess, s => changes_execStreamReplace sess s
  | .windowDataWrite sess data, s => changes_execWindowDataWrite sess data s
  | .partBuild sess p, s => changes_execPartBuild sess p s
  | .partRebuild sess p, s => changes_execPartRebuild sess p s
  | .partDissolve sess p, s => changes_execPartDissolve sess p s
  | .partStop sess p, s => changes_execPartStop sess p s
  | .jobEnable sess p, s => changes_execJobEnable sess p s
  | .jobCheckDone p x, s => changes_execJobCheckDone p x s
  | .jobDisable sess p, s => changes_execJobDisable sess p s
  | .jobCancel sess p, s => changes_execJobCancel sess p s
  | .slotEnable sess, s => changes_execSlotEnable sess s
  | .slotDisable sess, s => changes_execSlotDisable sess s
  | .slotCancel sess, s => changes_execSlotCancel sess s
  | .pageEnable sess, s => changes_execPageEnable sess s
  | .pageDisable sess, s => changes_execPageDisable sess s
  | .prefixEnable sess, s => changes_execPrefixEnable sess s
  | .prefixDisable sess, s => changes_execPrefixDisable sess s
  | .copyPrepare sess, s => changes_execCopyPrepare sess s
  | .copySwitch sess, s => changes_execCopySwitch sess s
  | .genStepSettle p, s => changes_execGenStepSettle p s
  | .recover sess p facts, s => changes_execRecover sess p facts s
  | .recoveryStart p, s => changes_execRecoveryStart p s
  | .restoreTransfer p x, s => changes_execRestoreTransfer p x s
  | .recoveryReady p at_ roots replicas, s => changes_execRecoveryReady p at_ roots replicas s
  | .resume sess p, s => changes_execResume sess p s
  | .abandon sess p, s => changes_execAbandon sess p s
  | .pressArm sess p val, s => changes_execPressArm sess p val s
  | .pressCopyDone p at_, s => changes_execPressCopyDone p at_ s
  | .drainWindow p row acked piece, s => changes_execDrainWindow p row acked piece s
  | .snapshot sess p, s => changes_execSnapshot sess p s
  | .snapshotSwitch p, s => changes_execSnapshotSwitch p s
  | .counterImageWrite p, s => changes_execCounterImageWrite p s
  | .traceArm sess p, s => changes_execTraceArm sess p s
  | .traceStop sess p, s => changes_execTraceStop sess p s
  | .traceTrigger p, s => changes_execTraceTrigger p s
  | .traceFrozen c, s => changes_execTraceFrozen c s
  | .traceStoppedFull c, s => changes_execTraceStoppedFull c s
  | .traceSpill p w, s => changes_execTraceSpill p w s
  | .dumpArm sess p, s => changes_execDumpArm sess p s
  | .dumpCancel sess p, s => changes_execDumpCancel sess p s
  | .dumpCapture p n, s => changes_execDumpCapture p n s
  | .dumpDone p n, s => changes_execDumpDone p n s
  | .fwProgram sess, s => changes_execFwProgram sess s
  | .fwProgrammed at_ ok, s => changes_execFwProgrammed at_ ok s
  | .activate sess, s => changes_execActivate sess s
  | .activationDone at_ ok, s => changes_execActivationDone at_ ok s
  | .minSecurityVersionAdvance at_, s => changes_execMinSecurityVersionAdvance at_ s
  | .millinerRestart at_, s => changes_execMillinerRestart at_ s
  | .refLoad sess, s => changes_execRefLoad sess s
  | .refAbort sess, s => changes_execRefAbort sess s
  | .refErase sess, s => changes_execRefErase sess s
  | .refChunk at_, s => changes_execRefChunk at_ s
  | .refLoadTimeout at_, s => changes_execRefLoadTimeout at_ s
  | .imageLoaded at_, s => changes_execImageLoaded at_ s
  | .eraseDone at_, s => changes_execEraseDone at_ s
  | .attestNonce sess nonce, s => changes_execAttestNonce sess nonce s
  | .publisherKeys sess keys, s => changes_execPublisherKeys sess keys s
  | .vinApplied at_ mv rst, s => changes_execVinApplied at_ mv rst s
  | .powerOnSequence at_ lowNs times, s => changes_execPowerOnSequence at_ lowNs times s
  | .railTimeout at_, s => changes_execRailTimeout at_ s
  | .resetRelease at_ bad keyOk, s => changes_execResetRelease at_ bad keyOk s
  | .romRecoveryDatagram data, s => changes_execRomRecoveryDatagram data s
  | .helperBoot at_ bad trained, s => changes_execHelperBoot at_ bad trained s
  | .shutdown at_ causes, s => changes_execShutdown at_ causes s
  | .powerSample at_ watts, s => changes_execPowerSample at_ watts s
  | .thermalThrottle at_ q device temp, s => changes_execThermalThrottle at_ q device temp s
  | .throttleStep at_ q power, s => changes_execThrottleStep at_ q power s
  | .throttleRelease at_ q cool, s => changes_execThrottleRelease at_ q cool s
  | .inletHigh at_ temp altitude, s => changes_execInletHigh at_ temp altitude s
  | .normalTemperatureRefresh d, s => changes_execNormalTemperatureRefresh d s
  | .synceLocked at_, s => changes_execSynceLocked at_ s
  | .syncInterval kind, s => changes_execSyncInterval kind s
  | .roceAck x psn nak, s => changes_execRoceAck x psn nak s
  | .dropQueueFrame port at_ x fate, s => changes_execDropQueueFrame port at_ x fate s
  | .dumpWindow p w room, s => changes_execDumpWindow p w room s

/-- Settles O2: no command's footprint holds the queue. -/
theorem commandsLeaveTheQueue : Obligations.CommandsLeaveTheQueue := by
  unfold Obligations.CommandsLeaveTheQueue
  exact fun i s t h => (exec_changes i s t h).pending

/-- Settles O3: every store of a command goes through canonical writes. -/
theorem stepKeepsMemoryCanonical : Obligations.StepKeepsMemoryCanonical := by
  unfold Obligations.StepKeepsMemoryCanonical
  intro s t hs h
  unfold step at h
  split at h
  · obtain rfl : s = t := Host.Outcome.next.inj h
    exact hs
  next i rest _ => exact (exec_changes i { s with pending := rest } t h).canonical hs

end Sys2Proof.Machine

/-! ## What the families of commands leave alone

Each frame is read off the footprints of the family's commands. -/

namespace Sys2Proof.Machine
open Sys2Proof

-- Short theorems, many of them: one after another, so that the threads' stacks stay within the check's memory.
set_option Elab.async false

section
variable {F : List Aspect} {s t : State}

/-- An aspect outside the footprint is as before. -/
theorem Changes.kept (h : Changes F s t) (a : Aspect) (ha : decide (a ∈ F) = false := by rfl) : a.Same s t :=
  h.same a (of_decide_eq_false ha)

/-- A footprint without the supply, boot and firmware state. -/
def plantFree (F : List Aspect) : Bool :=
  [.power, .boot, .fwRun, .actRun, .refLoad, .refErase, .throttle].all fun a => decide (a ∉ F)

theorem Changes.samePlant (h : Changes F s t) (hF : plantFree F = true := by rfl) : SamePlant s t := by
  have k := fun a ha => h.same a (of_decide_eq_true (List.all_eq_true.1 hF a ha))
  exact ⟨k .power (by decide), k .boot (by decide), k .fwRun (by decide), k .actRun (by decide), k .refLoad (by decide),
    k .refErase (by decide), k .throttle (by decide)⟩

/-- A footprint without the tables of the module. -/
def tablesFree (F : List Aspect) : Bool :=
  [.res, .streams, .streamPending, .slots, .pages, .prefixes, .qps, .regions, .filters].all fun a => decide (a ∉ F)

theorem Changes.sameTables (h : Changes F s t) (hF : tablesFree F = true := by rfl) : SameTables s t := by
  have k := fun a ha => h.same a (of_decide_eq_true (List.all_eq_true.1 hF a ha))
  exact ⟨k .res (by decide), k .streams (by decide), k .streamPending (by decide), k .slots (by decide), k .pages (by decide),
    k .prefixes (by decide), k .qps (by decide), k .regions (by decide), k .filters (by decide)⟩
end

/-- Settles O11. -/
theorem tickCommandFrame : Obligations.TickCommandFrame := by
  unfold Obligations.TickCommandFrame
  intro p port at_ a b bad f i s t hi h
  have c := exec_changes i s t h
  rcases hi with rfl | rfl | rfl | rfl | rfl | rfl | rfl | rfl | rfl <;>
    exact ⟨c.samePlant, c.kept .doms, c.kept .pages, c.kept .prefixes, c.kept .qps, c.kept .regions, c.kept .filters,
      c.kept .trainTemp, c.kept .rights⟩

/-- Settles O28. -/
theorem engineItemFrame : Obligations.EngineItemFrame := by
  unfold Obligations.EngineItemFrame
  intro u q p n m at_ errs stores i s t hi h
  have c := exec_changes i s t h
  rcases hi with rfl | rfl | rfl | rfl | rfl | rfl | rfl <;>
    exact ⟨fun d => ⟨c.kept (.cluster .crown) rfl d, c.kept (.cluster .arrays) rfl d, c.kept (.cluster .tiles) rfl d,
        c.kept (.cluster .napQueue) rfl d, c.kept (.cluster .napRegs) rfl d⟩,
      c.samePlant, c.kept .doms, c.kept .pages, c.kept .prefixes, c.kept .streams, c.kept .slots, c.kept .qps, c.kept .regions,
      c.kept .filters⟩

/-- Settles O37. -/
theorem portTimeAndRoceFrame : Obligations.PortTimeAndRoceFrame := by
  unfold Obligations.PortTimeAndRoceFrame
  constructor
  · intro port p at_ a b c d e f l w x h fate i s t hi ht
    have k := exec_changes i s t ht
    rcases hi with rfl | rfl | rfl | rfl | rfl | rfl | rfl | rfl | rfl | rfl | rfl | rfl | rfl | rfl | rfl | rfl | rfl | rfl | rfl | rfl <;>
      exact ⟨k.kept .mem, k.kept .clusters, k.samePlant, k.kept .doms, k.kept .res, k.kept .slots, k.kept .pages, k.kept .prefixes,
        k.kept .qps, k.kept .regions, k.kept .filters, k.kept .streamPending, k.kept .poisonLog, k.kept .cxlPoison⟩
  · intro port at_ a b m x y o i s t hi ht
    have k := exec_changes i s t ht
    have hmem : (∀ z, i ≠ .rdmaWrite z) → t.mem = s.mem := by
      intro hz
      rcases hi with rfl | rfl | rfl | rfl | rfl | rfl | rfl | rfl | rfl | rfl | rfl | rfl | rfl | rfl | rfl | rfl | rfl
      case inr.inr.inr.inr.inr.inr.inr.inr.inl => exact absurd rfl (hz x)
      all_goals exact k.kept .mem
    rcases hi with rfl | rfl | rfl | rfl | rfl | rfl | rfl | rfl | rfl | rfl | rfl | rfl | rfl | rfl | rfl | rfl | rfl <;>
      exact ⟨k.kept .clusters, k.samePlant, k.kept .doms, k.kept .res, k.kept .slots, k.kept .pages, k.kept .prefixes,
        k.kept .filters, k.kept .streamPending, hmem⟩

end Sys2Proof.Machine

/-! ## Partitions and clusters that a command does not touch -/

namespace Sys2Proof.Machine
open Sys2Proof

-- Short theorems, many of them: one after another, so that the threads' stacks stay within the check's memory.
set_option Elab.async false

section
variable {F : List Aspect} {p : PartId} {c : ClusterId} {s t u : State}

theorem SameOtherParts.refl : SameOtherParts p s s := fun _ _ => rfl

/-- A further change that leaves the partitions alone. -/
theorem SameOtherParts.then (h : SameOtherParts p s t) (k : Changes F t u)
    (ha : decide (Aspect.parts ∈ F) = false := by rfl) : SameOtherParts p s u := by
  have hu : u.parts = t.parts := k.kept .parts ha
  intro q hq
  rw [← h q hq]
  simp [State.pt, hu]

theorem SameOtherParts.modPt (h : SameOtherParts p s t) (f : Part → Part) : SameOtherParts p s (t.modPt p f) :=
  fun q hq => by rw [State.pt_modPt_ne _ (fun e => hq (Fin.ext e)), h q hq]

theorem SameOtherParts.ite {b : Prop} [Decidable b] (h : SameOtherParts p s t) (h' : SameOtherParts p s u) :
    SameOtherParts p s (if b then t else u) := by
  split
  · exact h
  · exact h'

theorem SameOtherParts.takes {b : Bool} {eff : State → State} (h : SameOtherParts p s (eff s)) (ht : takes b s eff = .next t) :
    SameOtherParts p s t := by
  obtain ⟨-, rfl⟩ | ⟨-, rfl⟩ := takes_cases b s t eff ht
  · exact h
  · exact .refl
end

theorem State.partBuild_otherParts (s : State) (p : PartId) : SameOtherParts p s (s.partBuild p).1 := by
  unfold State.partBuild
  extract_lets r code s1 s2 s3 g x s4
  have h1 : SameOtherParts p s s1 := .then .refl (State.changes_setRg ..)
  have h2 : SameOtherParts p s s2 :=
    ((h1.then (State.changes_clearClusters ..)).then (State.changes_wakeDevices ..)).then (State.changes_ownPorts ..)
  have h3 : SameOtherParts p s s3 := (h2.then (State.changes_resetCounters ..)).then (State.changes_setRg ..)
  have h4 : SameOtherParts p s s4 := h3.modPt _
  split
  · exact h1
  · exact (h4.then (State.changes_setRg ..)).then (State.changes_updatePart ..)

theorem State.partRebuild_otherParts (s : State) (p : PartId) : SameOtherParts p s (s.partRebuild p).1 := by
  unfold State.partRebuild
  extract_lets r code s1
  have h1 : SameOtherParts p s s1 := .then .refl (State.changes_setRg ..)
  split
  · exact .then .refl (State.changes_setRg ..)
  · split
    · exact h1
    · extract_lets s2 s3 s4
      have h2 : SameOtherParts p s s2 := (h1.then (State.changes_clearClusters ..)).then (State.changes_clearClusters ..)
      have h3 : SameOtherParts p s s3 := (h2.then (State.changes_wakeDevices ..)).then (State.changes_sleepDevices ..)
      have h4 : SameOtherParts p s s4 :=
        ((h3.then (State.changes_ownPorts ..)).then (State.changes_dropQueues ..)).then (State.changes_ownPorts ..)
      exact h4.modPt _

theorem State.partDissolve_otherParts (s : State) (p : PartId) : SameOtherParts p s (s.partDissolve p).1 := by
  unfold State.partDissolve
  extract_lets code s1
  have h1 : SameOtherParts p s s1 := .then .refl (State.changes_setRg ..)
  split
  · exact .then .refl (State.changes_setRg ..)
  · split
    · exact h1
    · extract_lets s2 s3 s4
      have h2 : SameOtherParts p s s2 :=
        ((h1.then (State.changes_clearClusters ..)).then (State.changes_sleepDevices ..)).then (State.changes_ownPorts ..)
      have h3 : SameOtherParts p s s3 := (h2.then (State.changes_dropQueues ..)).modPt _
      have h4 : SameOtherParts p s s4 := .ite (h3.then (State.changes_setRg ..)) h3
      exact (h4.then (State.changes_setRg ..)).then (State.changes_updatePart ..)

theorem State.partStop_otherParts (s : State) (p : PartId) : SameOtherParts p s (s.partStop p).1 := by
  unfold State.partStop
  split
  · exact .then .refl (State.changes_setRg ..)
  · exact (SameOtherParts.refl.modPt _).then (State.changes_setRg ..)

/-- A partition command reaches its own partition alone. -/
theorem partCommand_otherParts {n : Nat} {p : PartId} {i : Instr} {s t : State}
    (hi : i = .partBuild n p ∨ i = .partRebuild n p ∨ i = .partDissolve n p ∨ i = .partStop n p) (h : exec i s = .next t) :
    SameOtherParts p s t := by
  rcases hi with rfl | rfl | rfl | rfl
  · exact .takes (eff := fun s => (s.partBuild p).1) (s.partBuild_otherParts p) h
  · exact .takes (eff := fun s => (s.partRebuild p).1) (s.partRebuild_otherParts p) h
  · exact .takes (eff := fun s => (s.partDissolve p).1) (s.partDissolve_otherParts p) h
  · exact .takes (eff := fun s => (s.partStop p).1) (s.partStop_otherParts p) h

/-- Settles O59. -/
theorem managementFrame : Obligations.ManagementFrame := by
  unfold Obligations.ManagementFrame
  intro r n at_ v row port p l f x roots replicas chk piece i s t h
  have k := exec_changes i s t h
  refine ⟨fun hi => ?_, fun hi => ?_, fun hi => ?_, fun hi => ?_⟩
  · rcases hi with rfl | rfl | rfl | rfl | rfl | rfl | rfl | rfl | rfl <;>
      exact ⟨k.kept .parts, k.kept .clusters, k.kept .mem, k.kept .doms, k.sameTables, k.samePlant, k.kept .regsButJenjo⟩
  · rcases hi with rfl | rfl | rfl | rfl | rfl | rfl | rfl | rfl | rfl | rfl | rfl | rfl | rfl | rfl | rfl <;>
      exact ⟨k.kept .clusters, k.kept .doms, k.samePlant, k.kept .poisonLog, k.kept .qps, k.kept .regions, k.kept .filters,
        k.kept .regsButStreams,
        fun q => ⟨k.kept (.part .slice) rfl q, k.kept (.part .gen) rfl q, k.kept (.part .jobs) rfl q, k.kept (.part .pins) rfl q⟩⟩
  · have hp := partCommand_otherParts hi h
    rcases hi with rfl | rfl | rfl | rfl <;> exact ⟨k.kept .mem, k.kept .doms, k.samePlant, k.sameTables, hp⟩
  · rcases hi with rfl | rfl | rfl | rfl | rfl | rfl | rfl | rfl | rfl | rfl | rfl | rfl | rfl | rfl <;>
      exact ⟨k.kept .clusters, k.kept .doms, k.samePlant, k.kept .filters, k.kept .qps, k.kept .regions, k.kept .streams,
        k.kept .streamPending⟩

end Sys2Proof.Machine

/-! ## Frames of observation, firmware, supply and devices -/

namespace Sys2Proof.Machine
open Sys2Proof

-- Short theorems, many of them: one after another, so that the threads' stacks stay within the check's memory.
set_option Elab.async false

/-- The Nap engine's state is its queue, its registers and its run. -/
theorem Nap.eq_of_same {x y : Cluster} (h : ∀ a : ClusterAspect, a.Same x y) : y.nap = x.nap := by
  obtain ⟨ht, hb, hz⟩ : y.nap.t = x.nap.t ∧ y.nap.b = x.nap.b ∧ y.nap.z = x.nap.z := h .napRegs
  obtain ⟨hrun, hlast, hrecent⟩ : y.nap.run = x.nap.run ∧ y.nap.lastEnd = x.nap.lastEnd ∧ y.nap.recent = x.nap.recent := h .napRun
  have hq : y.nap.queue = x.nap.queue := h .napQueue
  calc y.nap = ⟨y.nap.queue, y.nap.run, y.nap.lastEnd, y.nap.recent, y.nap.t, y.nap.b, y.nap.z⟩ := rfl
    _ = x.nap := by rw [ht, hb, hz, hrun, hlast, hrecent, hq]

/-- A key that a filter of keys keeps. -/
theorem SMap.get?_filter_keys {α : Type} (m : SMap α) (f : Nat → Bool) {k : Nat} (h : f k = true) :
    SMap.get? (m.filter fun x => f x.1) k = SMap.get? m k := by
  induction m with
  | nil => rfl
  | cons x m ih =>
    obtain ⟨j, v⟩ := x
    by_cases hj : j = k
    · subst hj
      simp [SMap.get?, h]
    · cases hf : f j <;> simp [SMap.get?, hf, hj, ih]

/-- An emptied CXL window leaves the bytes outside it. -/
theorem State.memByte_emptyWindow_out (s : State) (x : CxlId) {a : Nat} (h : a < cxlBase x ∨ cxlBase (x + 1) ≤ a) :
    (s.emptyWindow x).memByte a = s.memByte a := by
  unfold cxlBase at h
  refine congrArg (·.getD 0) (SMap.get?_filter_keys s.mem (fun a => !(cxlBase x ≤ a && a < cxlBase x + 0x0200_0000_0000)) ?_)
  simp only [cxlBase, Bool.not_eq_true', Bool.and_eq_false_iff, decide_eq_false_iff_not]
  omega

/-- The removal of an expander empties its window alone. -/
theorem execCxlLost_removing {x : CxlId} {s t : State} (hx : s.rg (Obj.CXL_STATE x) = cxlRemoving)
    (h : execCxlLost x s = .next t) {a : Nat} (ha : a < cxlBase x ∨ cxlBase (x + 1) ≤ a) : t.memByte a = s.memByte a := by
  unfold execCxlLost at h
  rw [if_pos hx] at h
  obtain rfl := Host.Outcome.next.inj h
  have k := State.changes_updateModuleState
    (((s.setRg (Obj.CXL_STATE x) cxlEmpty).setRg (Obj.CXL_BYTES x) 0).emptyWindow x)
  have hm := k.kept .mem
  calc _ = (((s.setRg (Obj.CXL_STATE x) cxlEmpty).setRg (Obj.CXL_BYTES x) 0).emptyWindow x).memByte a :=
        congrArg (SMap.getD 0 · a) hm
    _ = _ := State.memByte_emptyWindow_out _ x ha

/-- The loss of an expander that is not being removed stores nothing. -/
theorem changes_execCxlLost_up {x : CxlId} {s : State} (hx : s.rg (Obj.CXL_STATE x) ≠ cxlRemoving) :
    Leads [.regs, .regsButJenjo, .regsButStreams, .sessions, .out, .parts] s (execCxlLost x s) := by
  refine .within fun F hF => ?_
  unfold execCxlLost
  rw [if_neg hx]
  refine .takes ?_
  extract_lets s1 s2
  have h1 : Changes F s s1 := .then (.by (State.changes_setRg ..)) (State.changes_updateModuleState ..)
  have h2 : Changes F s s2 := h1.then (State.changes_notifyCxl ..)
  exact .foldl h2 (fun _ _ => .by (State.changes_faultDue ..))

theorem objBase_TICK_EPOCH_GRAIN (p : PartId) : objBase (Obj.TICK_EPOCH_GRAIN p) = 0x300401 := by
  revert p
  decide

theorem objBase_TICK_GRAINS (p : PartId) : objBase (Obj.TICK_GRAINS p) = 0x300402 := by
  revert p
  decide

theorem objBase_CLOSE_GUARD_NS (p : PartId) : objBase (Obj.CLOSE_GUARD_NS p) = 0x300403 := by
  revert p
  decide

/-- What a WRITE of a number may change is what the object's own rules may change. -/
theorem State.changes_writeNum_of {G : List Aspect} {s : State} {id key v : Nat} {f : RecoverFacts}
    (h : ChangesFst G s (s.applyNum id key v f)) : ChangesFst G s (s.writeNum id key v f) := by
  unfold State.writeNum
  split
  · exact .mk .refl
  · exact .ite (.mk .refl) (.ite (.mk .refl) (.ite (.mk .refl) (.ite (.mk .refl) h)))

/-- The writes of the tick grid and of the closing guard: a register, and the generator. -/
theorem State.changes_writeNum_tickGrid (s : State) (id key v : Nat) (f : RecoverFacts)
    (hb : objBase key = 0x300401 ∨ objBase key = 0x300402 ∨ objBase key = 0x300403) :
    ChangesFst [.sessions, .regs, .regsButJenjo, .regsButStreams, .parts, .part .gen] s (s.writeNum id key v f) := by
  refine .within fun F hF => ?_
  refine State.changes_writeNum_of ?_
  unfold State.applyNum
  rcases hb with hb | hb | hb <;> simp only [hb]
  · exact .mk (.by (State.changes_writeTick ..))
  · exact .mk (.by (State.changes_writeTick ..))
  · exact .mk (.by (State.changes_keepNum ..))

theorem changes_execTickGrainsWrite_grid (sess : Nat) (p : PartId) (epoch : Bool) (v : Nat) (s : State) :
    Leads [.sessions, .regs, .regsButJenjo, .regsButStreams, .parts, .part .gen] s (execTickGrainsWrite sess p epoch v s) := by
  unfold execTickGrainsWrite
  refine .takes (.fst (State.changes_writeNum_tickGrid _ _ _ _ _ ?_))
  cases epoch
  · exact .inr (.inl (objBase_TICK_GRAINS p))
  · exact .inl (objBase_TICK_EPOCH_GRAIN p)

theorem changes_execCloseGuardNsWrite_grid (sess : Nat) (p : PartId) (v : Nat) (s : State) :
    Leads [.sessions, .regs, .regsButJenjo, .regsButStreams, .parts, .part .gen] s (execCloseGuardNsWrite sess p v s) := by
  unfold execCloseGuardNsWrite
  exact .takes (.fst (State.changes_writeNum_tickGrid _ _ _ _ _ (.inr (.inr (objBase_CLOSE_GUARD_NS p)))))

/-- Settles O60. -/
theorem observationAndPlantFrame : Obligations.ObservationAndPlantFrame := by
  unfold Obligations.ObservationAndPlantFrame
  intro n at_ v w b temp p c q d x l times trained o i s t h
  have k := exec_changes i s t h
  refine ⟨fun hi => ?_, fun hi => ?_, fun hi => ?_, fun hi => ?_, fun hi => ?_, fun hi => ?_, fun hi => ?_⟩
  · have hmem : i ≠ .counterImageWrite p → i ≠ .traceSpill p w → i ≠ .dumpWindow p w v → t.mem = s.mem := by
      intro h1 h2 h3
      rcases hi with rfl | rfl | rfl | rfl | rfl | rfl | rfl | rfl | rfl | rfl | rfl | rfl | rfl | rfl <;>
        first | exact absurd rfl ‹_› | exact k.kept .mem
    have hdump : i ≠ .dumpWindow p w v → t.streams = s.streams ∧ t.qps = s.qps := by
      intro h1
      rcases hi with rfl | rfl | rfl | rfl | rfl | rfl | rfl | rfl | rfl | rfl | rfl | rfl | rfl | rfl <;>
        first | exact absurd rfl h1 | exact ⟨k.kept .streams, k.kept .qps⟩
    have hrest : (∀ e : ClusterId, (t.cl e).batt = (s.cl e).batt ∧ (t.cl e).tiles = (s.cl e).tiles ∧
        (t.cl e).crown = (s.cl e).crown ∧ (t.cl e).nap = (s.cl e).nap ∧ (t.cl e).arrays = (s.cl e).arrays) := by
      intro e
      have ha : ∀ a : ClusterAspect, a.Same (s.cl e) (t.cl e) := fun a => by
        rcases hi with rfl | rfl | rfl | rfl | rfl | rfl | rfl | rfl | rfl | rfl | rfl | rfl | rfl | rfl <;>
          cases a <;> exact k.kept (.cluster _) rfl e
      exact ⟨ha .batt, ha .tiles, ha .crown, Nap.eq_of_same ha, ha .arrays⟩
    rcases hi with rfl | rfl | rfl | rfl | rfl | rfl | rfl | rfl | rfl | rfl | rfl | rfl | rfl | rfl <;>
      exact ⟨hrest, k.kept .doms, k.samePlant, k.kept .res, fun e => (hdump e).1, k.kept .slots, k.kept .pages, k.kept .prefixes,
        k.kept .regions, k.kept .filters, hmem, fun e => (hdump e).2⟩
  · rcases hi with rfl | rfl | rfl | rfl | rfl | rfl | rfl | rfl | rfl | rfl | rfl | rfl | rfl <;>
      exact ⟨k.kept .clusters, k.kept .power, k.kept .throttle, k.sameTables,
        fun e => ⟨k.kept (.part .slice) rfl e, k.kept (.part .gen) rfl e⟩⟩
  · rcases hi with rfl | rfl <;> exact ⟨k.kept .parts, k.kept .clusters, k.kept .mem, k.sameTables⟩
  · rcases hi with rfl | rfl | rfl | rfl | rfl <;>
      exact ⟨k.kept .mem, k.kept .clusters, k.kept .doms, k.sameTables, k.kept .power, k.kept .boot⟩
  · have hdom : i ≠ .resetRelease at_ n b → i ≠ .romRecoveryDatagram l → t.doms = s.doms ∧ t.filters = s.filters := by
      intro h1 h2
      rcases hi with rfl | rfl | rfl | rfl | rfl | rfl <;>
        first | exact absurd rfl ‹_› | exact ⟨k.kept .doms, k.kept .filters⟩
    rcases hi with rfl | rfl | rfl | rfl | rfl | rfl <;>
      exact ⟨k.kept .mem, k.kept .clusters, k.kept .parts, k.kept .res, k.kept .streams, k.kept .streamPending, k.kept .slots,
        k.kept .pages, k.kept .prefixes, k.kept .qps, k.kept .regions, hdom⟩
  · rcases hi with rfl | rfl | rfl
    · have k := changes_execTickGrainsWrite_grid n p b v s t h
      exact ⟨k.kept .mem, k.kept .clusters, k.kept .doms, k.sameTables, k.samePlant⟩
    · have k := changes_execCloseGuardNsWrite_grid n p v s t h
      exact ⟨k.kept .mem, k.kept .clusters, k.kept .doms, k.sameTables, k.samePlant⟩
    · exact ⟨k.kept .mem, k.kept .clusters, k.kept .doms, k.sameTables, k.samePlant⟩
  · have hrem : i = .cxlLost x → s.rg (Obj.CXL_STATE x) = cxlRemoving →
        ∀ a, (a < cxlBase x ∨ cxlBase (x + 1) ≤ a) → t.memByte a = s.memByte a := by
      rintro rfl hx a ha
      exact execCxlLost_removing hx h ha
    have hmem : (i = .cxlLost x → s.rg (Obj.CXL_STATE x) ≠ cxlRemoving) → t.mem = s.mem := by
      intro hx
      rcases hi with rfl | rfl | rfl | rfl | rfl | rfl
      case inr.inr.inr.inr.inr => exact (changes_execCxlLost_up (hx rfl) t h).kept .mem
      all_goals exact k.kept .mem
    rcases hi with rfl | rfl | rfl | rfl | rfl | rfl <;>
      exact ⟨hrem, hmem, k.kept .clusters, k.kept .doms, k.sameTables, k.samePlant⟩

end Sys2Proof.Machine

/-! ## Work of one cluster

What the array and Nap commands of a cluster reach: its own record, and its own partition's. -/

namespace Sys2Proof.Machine
open Sys2Proof

-- Short theorems, many of them: one after another, so that the threads' stacks stay within the check's memory.
set_option Elab.async false

/-- A change within cluster `c` and its partition `p`; of the cluster's arrays, those of `A` stay. -/
structure WithinCluster (p c : Nat) (A : Nat → Prop) (s t : State) : Prop where
  parts : ∀ q : Nat, q ≠ p → t.pt q = s.pt q
  built : (t.pt p).built = (s.pt p).built
  clusters : ∀ d : Nat, d ≠ c → t.cl d = s.cl d
  arrs : ∀ b : Nat, A b → (t.cl c).arr b = (s.cl c).arr b

theorem sameMemory_of_eq {s t : State} (h : t.mem = s.mem) : SameMemory s t := fun b => congrArg (SMap.getD 0 · b) h

theorem Cluster.arr_modArr_ne (x : Cluster) (f : ArrState → ArrState) {a b : Nat} (h : b ≠ a) : (x.modArr a f).arr b = x.arr b := by
  have h' : a ≠ b := h.symm
  simp [Cluster.modArr, Cluster.arr, h']

theorem Cluster.arr_retile (x : Cluster) (n cy : Nat) (y : Tile) (b : Nat) : (x.retile n cy y).arr b = x.arr b := rfl

namespace WithinCluster
variable {p c : Nat} {A : Nat → Prop} {F : List Aspect} {s t u : State}

theorem refl : WithinCluster p c A s s := ⟨fun _ _ => rfl, rfl, fun _ _ => rfl, fun _ _ => rfl⟩

theorem trans (h : WithinCluster p c A s t) (h' : WithinCluster p c A t u) : WithinCluster p c A s u where
  parts q hq := (h'.parts q hq).trans (h.parts q hq)
  built := h'.built.trans h.built
  clusters d hd := (h'.clusters d hd).trans (h.clusters d hd)
  arrs b hb := (h'.arrs b hb).trans (h.arrs b hb)

theorem ite {b : Prop} [Decidable b] (h : WithinCluster p c A s t) (h' : WithinCluster p c A s u) :
    WithinCluster p c A s (if b then t else u) := by
  split
  · exact h
  · exact h'

theorem foldl {α : Type} {f : State → α → State} (l : List α) (h : WithinCluster p c A s t)
    (hf : ∀ (v : State) (x : α), WithinCluster p c A s v → WithinCluster p c A s (f v x)) : WithinCluster p c A s (l.foldl f t) :=
  List.foldlRecOn (motive := WithinCluster p c A s) l f h fun v hv x _ => hf v x hv

/-- The owner of a cluster depends on what the partitions were built with. -/
theorem owner (h : WithinCluster p c A s t) (d : Nat) : t.ownerOfCluster d = s.ownerOfCluster d := by
  have built : ∀ q : Nat, (t.pt q).built = (s.pt q).built := fun q => by
    by_cases hq : q = p
    · rw [hq, h.built]
    · rw [h.parts q hq]
  simp only [State.ownerOfCluster, State.ownerBy, built]

/-- An operation that touches no partition and no cluster. -/
theorem frame (h : WithinCluster p c A s t) (k : Changes F t u) (hp : decide (Aspect.parts ∈ F) = false := by rfl)
    (hc : decide (Aspect.clusters ∈ F) = false := by rfl) : WithinCluster p c A s u := by
  have hparts : u.parts = t.parts := k.kept .parts hp
  have hclusters : u.clusters = t.clusters := k.kept .clusters hc
  have hpt : ∀ q, u.pt q = t.pt q := fun q => by simp [State.pt, hparts]
  have hcl : ∀ d, u.cl d = t.cl d := fun d => by simp [State.cl, hclusters]
  exact h.trans ⟨fun q _ => hpt q, by rw [hpt], fun d _ => hcl d, fun b _ => by rw [hcl]⟩

theorem modPt (h : WithinCluster p c A s t) {f : Part → Part} (hf : (f (t.pt p)).built = (t.pt p).built := by rfl) :
    WithinCluster p c A s (t.modPt p f) := by
  refine h.trans ⟨fun q hq => t.pt_modPt_ne hq f, ?_, fun _ _ => rfl, fun _ _ => rfl⟩
  by_cases hp : p < 12
  · rw [t.pt_modPt_self hp, hf]
  · simp [State.modPt, State.pt, hp]

theorem modCl (h : WithinCluster p c A s t) {f : Cluster → Cluster}
    (hf : ∀ b, A b → (f (t.cl c)).arr b = (t.cl c).arr b := by exact fun _ _ => rfl) : WithinCluster p c A s (t.modCl c f) := by
  refine h.trans ⟨fun _ _ => rfl, rfl, fun d hd => t.cl_modCl_ne hd f, fun b hb => ?_⟩
  by_cases hc : c < 48
  · rw [t.cl_modCl_self hc, hf b hb]
  · simp [State.modCl, State.cl, hc]

theorem sameOtherParts {p : PartId} (h : WithinCluster p c A s t) : SameOtherParts p s t :=
  fun q hq => h.parts q fun e => hq (Fin.ext e)

theorem sameOtherClusters {c : ClusterId} (h : WithinCluster p c A s t) : SameOtherClusters c s t :=
  fun d hd => h.clusters d fun e => hd (Fin.ext e)

/-! ### The operations of a cluster -/

theorem late (h : WithinCluster p c A s t) (b : Nat) : WithinCluster p c A s (t.late p b) := h.modPt

theorem fails (h : WithinCluster p c A s t) (b : Nat) : WithinCluster p c A s (t.fails p b) := h.modPt

theorem traceFire (h : WithinCluster p c A s t) (d kind cycle : Nat) (b : Bool) :
    WithinCluster p c A s (t.traceFire p d kind cycle b) :=
  ite (h.modPt.frame (State.changes_setRg ..)) h

theorem lateCluster (h : WithinCluster p c A s t) (d cycle : Nat) : WithinCluster p c A s (t.lateCluster p d cycle) :=
  ite (h.late d) ((h.late d).traceFire d 3 cycle true)

theorem raiseConv (h : WithinCluster p c A s t) (v : Nat) : WithinCluster p c A s (t.raiseConv p v) := h.modPt

theorem modNap (h : WithinCluster p c A s t) (f : Nap → Nap) : WithinCluster p c A s (t.modNap c f) := h.modCl

theorem setZ (h : WithinCluster p c A s t) (z w : Nat) : WithinCluster p c A s (t.setZ p c z w) :=
  ite h ((h.modNap _).raiseConv w)

theorem napBusy (h : WithinCluster p c A s t) (n : Nat) : WithinCluster p c A s (t.napBusy p c n) := by
  unfold State.napBusy
  split
  · exact h.frame (State.changes_count ..)
  · exact h

theorem napBegin (h : WithinCluster p c A s t) (dur : Nat) (illegal : Bool) (image : List Byte) (fetched : Bool) :
    WithinCluster p c A s (t.napBegin c dur illegal image fetched) := by
  unfold State.napBegin
  split
  · exact (h.modNap _).frame (State.changes_at ..)
  · exact h

section
variable (ho : s.ownerOfCluster c = some p)
include ho

theorem lateC (h : WithinCluster p c A s t) : WithinCluster p c A s (t.lateC c) := by
  unfold State.lateC
  rw [h.owner, ho]
  exact h.late _

theorem countC (h : WithinCluster p c A s t) (kind num w n : Nat) : WithinCluster p c A s (t.countC c kind num w n) := by
  unfold State.countC
  rw [h.owner, ho]
  exact h.frame (State.changes_count ..)

theorem arrayParity (h : WithinCluster p c A s t) (a : Nat) : WithinCluster p c A s (t.arrayParity c a) := by
  unfold State.arrayParity
  extract_lets v
  have hv : WithinCluster p c A s v := (h.countC ho ..).lateC ho
  rw [hv.owner, ho]
  exact hv.fails _

theorem tileConflict (h : WithinCluster p c A s t) (n cycle : Nat) : WithinCluster p c A s (t.tileConflict c n cycle) :=
  ((h.modCl).countC ho ..).lateC ho

theorem tileParity (h : WithinCluster p c A s t) (n : Nat) : WithinCluster p c A s (t.tileParity c n) :=
  h.modCl.arrayParity ho _

theorem windowConflicts (h : WithinCluster p c A s t) : WithinCluster p c A s (t.windowConflicts c) := by
  unfold State.windowConflicts
  split
  · exact h
  · refine foldl _ h fun v a hv => foldl _ hv fun w o hw => ?_
    extract_lets n
    split
    · exact hw.tileConflict ho _ _
    · exact hw

theorem startHead (h : WithinCluster p c A s t) (a : Nat) (hA : ∀ b, A b → b ≠ a) (result : Cluster → ArrOp → Tile) :
    WithinCluster p c A s (t.startHead c a result) := by
  unfold State.startHead
  split
  next p' _ hown =>
    obtain rfl : p = p' := Option.some.inj (ho.symm.trans ((h.owner c).symm.trans hown))
    split
    extract_lets run v w x
    have hv : WithinCluster p c A s v := h.modCl (fun b hb => Cluster.arr_modArr_ne _ _ (hA b hb))
    have hw : WithinCluster p c A s w := (hv.frame (State.changes_count ..)).frame (State.changes_count ..)
    have hx : WithinCluster p c A s x := hw.modPt
    exact hx.frame (State.changes_at ..)
  · exact h
end

theorem gaugeCountTile (h : WithinCluster p c A s t) (x : Tile) (kind k cycle : Nat) :
    WithinCluster p c A s (t.gaugeCountTile p c x kind k cycle) := by
  unfold State.gaugeCountTile
  extract_lets q n rate v
  have hv : WithinCluster p c A s v := h.modPt
  exact ite (ite ((hv.frame (State.changes_incRg ..)).frame (State.changes_incRg ..)) hv.modPt) hv

/-! The Nap engine's operations leave every array alone, which their footprints say already. -/

section
variable (h : WithinCluster p c (fun _ => False) s t)
include h

theorem battWrites (cy : Nat) (port : BattPort) (new : Cluster) (ranges : List (Nat × Nat)) :
    WithinCluster p c (fun _ => False) s (t.battWrites p c cy port new ranges) := by
  unfold State.battWrites
  split
  next cl k _ =>
    extract_lets v
    have hv : WithinCluster p c (fun _ => False) s v := h.modCl (fun _ hb => hb.elim)
    exact ite hv (hv.frame (State.changes_count ..))

theorem battPut (cy : Nat) (port : BattPort) (a : Nat) (bs : List (Byte × Bool)) :
    WithinCluster p c (fun _ => False) s (t.battPut p c cy port a bs) := h.battWrites ..

theorem napEffect (n cy : Nat) (r : NapRun) : WithinCluster p c (fun _ => False) s (t.napEffect p c n cy r).1 := by
  unfold State.napEffect
  extract_lets x cl a new v w y
  have hv : WithinCluster p c (fun _ => False) s v := h.battWrites ..
  have hw : WithinCluster p c (fun _ => False) s w := ite (hv.lateCluster ..) hv
  exact ite ((hw.frame (State.changes_count ..)).fails _) hw

theorem endRun (r : NapRun) : WithinCluster p c (fun _ => False) s (t.endRun p c r) := by
  unfold State.endRun
  extract_lets x
  split
  next v a e =>
    have hv : WithinCluster p c (fun _ => False) s v := by
      have k := h.napEffect x.iters r.finish r
      rwa [e] at k
    extract_lets w
    have hw : WithinCluster p c (fun _ => False) s w := hv.modNap _
    split
    exact hw.setZ _ _
end

end WithinCluster

theorem WithinCluster.takes {p c : Nat} {A : Nat → Prop} {s t : State} {b : Bool} {eff : State → State}
    (h : WithinCluster p c A s (eff s)) (ht : takes b s eff = .next t) : WithinCluster p c A s t := by
  obtain ⟨-, rfl⟩ | ⟨-, rfl⟩ := takes_cases b s t eff ht
  · exact h
  · exact .refl

/-! ### The commands -/

section
variable {p : PartId} {c : ClusterId} {s t : State} (ho : s.ownerOfCluster c = some p.val)
include ho

theorem execProduct_within {a : ArrayId} {par : Bool} (h : execProduct c a par s = .next t) :
    WithinCluster p c (fun b => b ≠ a) s t := by
  unfold execProduct at h
  refine .takes ?_ h
  split
  · extract_lets cl n hit u
    have hu : WithinCluster p c (fun b => b ≠ a) s u := WithinCluster.refl.startHead ho _ (fun _ hb => hb) _
    exact .ite (hu.arrayParity ho _) hu
  · exact .refl

theorem execPreload_within {a : ArrayId} {par : Bool} (h : execPreload c a par s = .next t) :
    WithinCluster p c (fun b => b ≠ a) s t := by
  unfold execPreload at h
  refine .takes ?_ h
  split
  · extract_lets n hit u
    have hu : WithinCluster p c (fun b => b ≠ a) s u := WithinCluster.refl.startHead ho _ (fun _ hb => hb) _
    exact .ite (hu.arrayParity ho _) hu
  · exact .refl

theorem execIllegalDescriptor_within {a : ArrayId} {par : Bool} (h : execIllegalDescriptor c ⟨a, par⟩ s = .next t) :
    WithinCluster p c (fun b => b ≠ a) s t := by
  unfold execIllegalDescriptor at h
  refine .takes ?_ h
  extract_lets u
  have hu : WithinCluster p c (fun b => b ≠ a) s u :=
    .ite (WithinCluster.refl.modCl fun b hb => Cluster.arr_modArr_ne _ _ hb) .refl
  split
  · extract_lets n v
    have hv : WithinCluster p c (fun b => b ≠ a) s v := hu.startHead ho _ (fun _ hb => hb) _
    exact .ite (hv.arrayParity ho _) hv
  · exact hu

theorem execArrayComplete_within {a : ArrayId} (h : execArrayComplete c a s = .next t) :
    WithinCluster p c (fun b => b ≠ a) s t := by
  unfold execArrayComplete at h
  refine .takes ?_ h
  split
  next p' o rest hown hfl =>
    obtain rfl : p.val = p' := Option.some.inj (ho.symm.trans hown)
    extract_lets n old illegal r x u v w
    have hu : WithinCluster p c (fun b => b ≠ a) s u := WithinCluster.refl.modCl fun b hb => by
      rw [Cluster.arr_retile, Cluster.arr_modArr_ne _ _ hb]
    have hv : WithinCluster p c (fun b => b ≠ a) s v := hu.frame (State.changes_at ..)
    have hw : WithinCluster p c (fun b => b ≠ a) s w :=
      .ite ((hv.frame (State.changes_count ..)).lateC ho) (hv.frame (State.changes_count ..))
    split
    · exact hw.gaugeCountTile ..
    · exact hw
  · exact .refl

theorem execRun_within {bad : List Nat} (h : execRun c bad s = .next t) : WithinCluster p c (fun _ => False) s t := by
  unfold execRun at h
  refine .takes ?_ h
  split
  · extract_lets img u v read
    have hu : WithinCluster p c (fun _ => False) s u := (WithinCluster.refl.napBegin ..).windowConflicts ho
    have hv : WithinCluster p c (fun _ => False) s v := hu.countC ho ..
    exact .foldl _ hv fun w n hw => hw.tileParity ho n
  · exact .refl

theorem execScale_within (h : execScale c s = .next t) : WithinCluster p c (fun _ => False) s t := by
  unfold execScale at h
  refine .takes ?_ h
  split
  next p' o rest hown hq =>
    obtain rfl : p.val = p' := Option.some.inj (ho.symm.trans hown)
    split
    extract_lets u
    have hu : WithinCluster p c (fun _ => False) s u := WithinCluster.refl.napBegin ..
    exact .ite hu.modPt hu
  · exact .refl

omit ho in
theorem execAmaxNote_within (h : execAmaxNote c s = .next t) : WithinCluster p c (fun _ => False) s t := by
  unfold execAmaxNote at h
  refine .takes ?_ h
  split
  · exact WithinCluster.refl.napBegin ..
  · exact .refl

omit ho in
theorem execSummaryLoad_within (h : execSummaryLoad c s = .next t) : WithinCluster p c (fun _ => False) s t := by
  unfold execSummaryLoad at h
  refine .takes ?_ h
  split
  · exact WithinCluster.refl.napBegin ..
  · exact .refl

omit ho in
theorem execSummaryStore_within (h : execSummaryStore c s = .next t) : WithinCluster p c (fun _ => False) s t := by
  unfold execSummaryStore at h
  refine .takes ?_ h
  split
  · exact WithinCluster.refl.napBegin ..
  · exact .refl

theorem execNapIllegal_within {par : Bool} (h : execNapIllegal ⟨c, par⟩ s = .next t) : WithinCluster p c (fun _ => False) s t := by
  unfold execNapIllegal at h
  refine .takes ?_ h
  split
  next p' o rest hown hq =>
    obtain rfl : p.val = p' := Option.some.inj (ho.symm.trans hown)
    extract_lets hit u v
    have hu : WithinCluster p c (fun _ => False) s u := WithinCluster.refl.napBegin ..
    have hv : WithinCluster p c (fun _ => False) s v := (hu.frame (State.changes_count ..)).lateCluster ..
    exact .ite ((hv.frame (State.changes_count ..)).fails _) hv
  · exact .refl

theorem execNapOpEnd_within (h : execNapOpEnd c s = .next t) : WithinCluster p c (fun _ => False) s t := by
  unfold execNapOpEnd at h
  split at h
  next p' r hown hrun =>
    obtain rfl : p.val = p' := Option.some.inj (ho.symm.trans hown)
    refine .takes ?_ h
    extract_lets d z u v1 v2 n w bad w2 v3 v
    have hu : WithinCluster p c (fun _ => False) s u := (WithinCluster.refl.napBusy _).frame (State.changes_at ..)
    have hv1 : WithinCluster p c (fun _ => False) s v1 := hu.setZ ..
    have hv2 : WithinCluster p c (fun _ => False) s v2 := (hv1.frame (State.changes_count ..)).lateCluster ..
    have hv3 : WithinCluster p c (fun _ => False) s v3 := hu.setZ ..
    have hv : WithinCluster p c (fun _ => False) s v := by
      refine .ite (.ite hv1 (.ite hv2 ((hv2.frame (State.changes_count ..)).fails _))) ?_
      split
      · exact hu.endRun r
      · exact (hu.battPut ..).setZ ..
      · exact .ite hu.modPt ((hu.frame (State.changes_incRg ..)).lateCluster ..)
      · exact .ite (((hv3.frame (State.changes_count ..)).fails _).lateCluster ..) hv3
      · exact hu.battPut ..
    exact hv.modNap _
  · obtain rfl := Host.Outcome.next.inj h
    exact .refl
end

/-- Settles O20. -/
theorem arrayAndNapFrame : Obligations.ArrayAndNapFrame := by
  unfold Obligations.ArrayAndNapFrame
  refine ⟨fun p c a par i s t hi ho h => ?_, fun p c par bad i s t hi ho h => ?_⟩
  · have w : WithinCluster p c (fun b => b ≠ a) s t := by
      rcases hi with rfl | rfl | rfl | rfl
      · exact execProduct_within ho h
      · exact execPreload_within ho h
      · exact execIllegalDescriptor_within ho h
      · exact execArrayComplete_within ho h
    have hw := And.intro w.sameOtherClusters w.sameOtherParts
    have harr : ∀ b : ArrayId, b ≠ a → (t.cl c).arr b = (s.cl c).arr b := fun b hb => w.arrs b fun e => hb (Fin.ext e)
    have k := exec_changes i s t h
    rcases hi with rfl | rfl | rfl | rfl <;>
      exact ⟨sameMemory_of_eq (k.kept .mem), hw.1, hw.2, k.sameTables, k.samePlant, k.kept .sessions, k.kept .doms,
        k.kept (.cluster .batt) rfl c, (k.kept (.cluster .napRegs) rfl c).1, (k.kept (.cluster .napRegs) rfl c).2.1,
        (k.kept (.cluster .napRegs) rfl c).2.2, k.kept (.cluster .crown) rfl c, harr⟩
  · have w : WithinCluster p c (fun _ => False) s t := by
      rcases hi with rfl | rfl | rfl | rfl | rfl | rfl | rfl
      · exact execRun_within ho h
      · exact execScale_within ho h
      · exact execAmaxNote_within h
      · exact execSummaryLoad_within h
      · exact execSummaryStore_within h
      · exact execNapIllegal_within ho h
      · exact execNapOpEnd_within ho h
    have hw := And.intro w.sameOtherClusters w.sameOtherParts
    have k := exec_changes i s t h
    rcases hi with rfl | rfl | rfl | rfl | rfl | rfl | rfl <;>
      exact ⟨sameMemory_of_eq (k.kept .mem), hw.1, hw.2, k.sameTables, k.samePlant, k.kept .sessions, k.kept .doms,
        k.kept (.cluster .crown) rfl c, k.kept (.cluster .arrays) rfl c⟩

end Sys2Proof.Machine

/-! ## The crown core's instructions

The core after a retirement, a stall or a stop, and the obligations on single instructions. -/

namespace Sys2Proof.Machine
open Sys2Proof

-- Short theorems, many of them: one after another, so that the threads' stacks stay within the check's memory.
set_option Elab.async false

section
variable {s : State} {p : PartId} {c : ClusterId} {i : Instr}

/-- A core that is at an instruction executes it. -/
theorem gives_of_atCore {eff : Nat → State → State} {post : State → Prop} (h : AtCore s p c i)
    (e : exec i s = crownExec c i s eff) (hpost : post (eff p s)) : Gives i s post := by
  obtain ⟨ho, hr, ha, hp⟩ := h
  exact ⟨_, e.trans (crownExec_next eff ho hr ha hp), hpost⟩

/-- A core with bad parity in its word stops, whatever instruction is tried. -/
theorem exec_wordBad (hc : crownCluster i = some c) (ho : s.ownerOfCluster c = some p.val) (hr : s.coreRuns p c = true)
    (hb : ((s.cl c).crown.wordAt (s.cl c).crown.pc).2 = true) : exec i s = .next (s.coreStop p c true) := by
  have stop : ∀ (j : Instr) (eff : Nat → State → State), crownExec c j s eff = .next (s.coreStop p c true) := fun j eff => by
    simp [crownExec, State.wordBad, ho, takes, hr, hb]
  unfold crownCluster at hc
  split at hc <;> cases hc <;> exact stop _ _

/-! ### The core after a retirement -/

theorem retired_setReg (x : Crown) (k next : Nat) (rd : RegId) (v : Word) (t : Nat) :
    Retired k next rd v x { (x.setReg rd v).retire k next with lastRetire := t } := by
  refine ⟨Crown.reg_setReg_self x rd v, fun r hr => Crown.reg_setReg_ne x v hr, ?_, ?_, rfl⟩
  · show (x.setReg rd v).cycle + k = _
    rw [Crown.cycle_setReg]
  · show (loopNext (x.setReg rd v).loops next).1 = _
    rw [Crown.loops_setReg]

theorem retired_coreRetire_setReg (s : State) (p k next : Nat) (c : ClusterId) (rd : RegId) (v : Crown → Word) :
    Retired k next rd (v (s.cl c).crown) (s.cl c).crown ((s.coreRetire p c k next fun cr => cr.setReg rd (v cr)).cl c).crown := by
  rw [State.crown_coreRetire]
  exact retired_setReg ..

/-- A retirement that writes no register. -/
theorem retired_keep {x y : Crown} {k next : Nat} {t : Nat} (hr : y.regs = x.regs) (hl : y.loops = x.loops) (hc : y.cycle = x.cycle) :
    Retired k next 0 0 x { y.retire k next with lastRetire := t } := by
  refine ⟨rfl, fun r _ => ?_, ?_, ?_, rfl⟩
  · show y.reg r = _
    unfold Crown.reg
    rw [hr]
  · show y.cycle + k = _
    rw [hc]
  · show (loopNext y.loops next).1 = _
    rw [hl]

theorem retired_coreRetire_id (s : State) (p k next : Nat) (c : ClusterId) :
    Retired k next 0 0 (s.cl c).crown ((s.coreRetire p c k next id).cl c).crown := by
  rw [State.crown_coreRetire]
  exact retired_keep rfl rfl rfl

/-- A stall of `n` cycles and the retirement that ends it are one retirement of `n` cycles more. -/
theorem retired_coreStall_coreRetire (s : State) (p reason n next : Nat) (c : ClusterId) :
    Retired (n + 1) next 0 0 (s.cl c).crown (((s.coreStall p c reason n).coreRetire p c 1 next id).cl c).crown := by
  rw [State.crown_coreRetire, State.crown_coreStall]
  refine ⟨rfl, fun r _ => ?_, ?_, ?_, rfl⟩ <;> split
  · rfl
  · rfl
  next h => exact congrArg (_ + ·) (by omega)
  · show (s.cl c).crown.cycle + n + 1 = _
    omega
  · rfl
  · rfl
end

/-- Settles O12. -/
theorem crownRegisterResults : Obligations.CrownRegisterResults := by
  unfold Obligations.CrownRegisterResults
  intro p c rd rs1 rs2 imm sh s x a b ok
  have alu : ∀ (i : Instr) (k : Nat) (v : Crown → Word), exec i s = crownAlu c i k rd v s → ok i k (v x) :=
    fun i k v e h => gives_of_atCore h e (retired_coreRetire_setReg s p k _ c rd v)
  exact ⟨alu _ 1 (fun _ => imm.signExtend 64) rfl, alu _ 1 (fun y => imm ++ (y.reg rd).extractLsb' 0 32) rfl,
    alu _ 1 (fun y => y.reg rs1 + y.reg rs2) rfl, alu _ 1 (fun y => y.reg rs1 + imm.signExtend 64) rfl,
    alu _ 1 (fun y => y.reg rs1 - y.reg rs2) rfl, alu _ 1 (fun y => y.reg rs1 &&& y.reg rs2) rfl,
    alu _ 1 (fun y => y.reg rs1 ||| y.reg rs2) rfl, alu _ 1 (fun y => y.reg rs1 ^^^ y.reg rs2) rfl,
    alu _ 1 (fun y => y.reg rs1 <<< sh.toNat) rfl, alu _ 1 (fun y => y.reg rs1 >>> sh.toNat) rfl,
    alu _ 3 (fun y => y.reg rs1 * y.reg rs2) rfl, alu _ 1 (fun y => if (y.reg rs1).toNat < (y.reg rs2).toNat then 1 else 0) rfl⟩

/-! ### The instructions that steer a program -/

section
variable {s : State} {p : PartId} {c : ClusterId}

theorem gives_loop {body : BitVec 16} {count : BitVec 32} (h : AtCore s p c (.loop c body count)) (hbody : 1 ≤ body.toNat) :
    Gives (.loop c body count) s fun t =>
      (t.cl c).crown.pc = (s.cl c).crown.pc + 8 ∧ (t.cl c).crown.cycle = (s.cl c).crown.cycle + 1 ∧
      (t.cl c).crown.loops = ⟨(s.cl c).crown.pc + 8, (s.cl c).crown.pc + 8 + 8 * body.toNat, count.toNat - 1⟩ ::
        (s.cl c).crown.loops.take 3 := by
  refine gives_of_atCore h rfl ?_
  rw [State.crown_coreRetire]
  have hne : body.toNat ≠ 0 := by omega
  exact ⟨by simp [Crown.retire, loopNext, hne], rfl, by simp [Crown.retire, loopNext, hne]⟩

theorem gives_done (h : AtCore s p c (.done c)) :
    Gives (.done c) s fun t => (t.cl c).crown.mode = .done ∧ (t.cl c).crown.cycle = (s.cl c).crown.cycle + 1 := by
  refine gives_of_atCore h rfl ?_
  rw [State.crown_trace, State.modCrown, State.cl_modCl_fin]
  dsimp only
  rw [State.crown_coreRetire]
  exact ⟨rfl, rfl⟩

theorem gives_wait {cls : BitVec 3} {n : BitVec 16} {imm : BitVec 32} {d r : Nat} (h : AtCore s p c (.wait c cls n imm))
    (hd : s.waitDone p c cls.toNat (waitItems n imm) = some (d, r)) (hlt : d < (s.pt p).edgeCycle) :
    Gives (.wait c cls n imm) s fun t =>
      Retired (Nat.max (s.cl c).crown.cycle d - (s.cl c).crown.cycle + 1) ((s.cl c).crown.pc + 8) 0 0 (s.cl c).crown
        (t.cl c).crown := by
  refine gives_of_atCore h rfl ?_
  rw [hd]
  dsimp only
  rw [if_neg (by omega)]
  have hk : Nat.max (s.cl c).crown.cycle d - (s.cl c).crown.cycle = d - (s.cl c).crown.cycle := by
    show max _ _ - _ = _
    omega
  have hpc : ((s.coreStall p c r (d - (s.cl c).crown.cycle)).cl c).crown.pc = (s.cl c).crown.pc := by
    rw [State.crown_coreStall]
    split <;> rfl
  rw [hk, hpc]
  exact retired_coreStall_coreRetire ..

theorem crown_coreWait (s : State) (c : ClusterId) : ((s.coreWait c).cl c).crown = { (s.cl c).crown with mode := .waiting } := by
  rw [State.coreWait, State.modCrown, State.cl_modCl_fin]

theorem gives_wait_held {cls : BitVec 3} {n : BitVec 16} {imm : BitVec 32} (h : AtCore s p c (.wait c cls n imm))
    (hd : ∀ d r, s.waitDone p c cls.toNat (waitItems n imm) = some (d, r) → (s.pt p).edgeCycle ≤ d) :
    Gives (.wait c cls n imm) s fun t => (t.cl c).crown = { (s.cl c).crown with mode := .waiting } := by
  refine gives_of_atCore h rfl ?_
  cases e : s.waitDone p c cls.toNat (waitItems n imm) with
  | none => exact crown_coreWait s c
  | some dr =>
    dsimp only
    rw [if_pos (hd dr.1 dr.2 e)]
    exact crown_coreWait s c

theorem gives_until_passed {imm : BitVec 32} (h : AtCore s p c (.until_ c imm)) (hle : imm.toNat ≤ (s.cl c).crown.cycle) :
    Gives (.until_ c imm) s fun t => Retired 1 ((s.cl c).crown.pc + 8) 0 0 (s.cl c).crown (t.cl c).crown := by
  refine gives_of_atCore h rfl ?_
  rw [if_pos hle]
  exact retired_coreRetire_id ..

theorem gives_until_ahead {imm : BitVec 32} (h : AtCore s p c (.until_ c imm)) (hlt : (s.cl c).crown.cycle < imm.toNat) :
    Gives (.until_ c imm) s fun t => (t.cl c).crown = { (s.cl c).crown with mode := .until_ imm.toNat } := by
  refine gives_of_atCore h rfl ?_
  rw [if_neg (by omega), State.modCrown, State.cl_modCl_fin]

theorem gives_untilReached {k : Nat} (ho : s.ownerOfCluster c = some p.val) (hlive : s.coreLive p c = true)
    (hmode : (s.cl c).crown.mode = .until_ k) (hle : (s.cl c).crown.cycle ≤ k) (hlt : k < (s.pt p).edgeCycle) :
    Gives (.untilReached c) s fun t =>
      Retired (k + 1 - (s.cl c).crown.cycle) ((s.cl c).crown.pc + 8) 0 0 (s.cl c).crown (t.cl c).crown := by
  refine ⟨(s.coreStall p c 5 (k - (s.cl c).crown.cycle)).coreRetire p c 1 ((s.cl c).crown.pc + 8) id, ?_, ?_⟩
  · show execUntilReached c s = _
    simp [execUntilReached, ho, hmode, hlive, hlt, takes]
  · rw [show k + 1 - (s.cl c).crown.cycle = k - (s.cl c).crown.cycle + 1 by omega]
    exact retired_coreStall_coreRetire ..
end

/-- Settles O14. -/
theorem crownFlowInstructions : Obligations.CrownFlowInstructions := by
  unfold Obligations.CrownFlowInstructions
  refine ⟨fun p c imm body count cls n s => ?_, fun p c i s hc ho hr hb => ⟨_, exec_wordBad hc ho hr hb, State.crown_coreStop ..⟩⟩
  intro x
  exact ⟨fun h => gives_of_atCore h rfl (retired_coreRetire_id ..), fun h => gives_of_atCore h rfl (retired_coreRetire_id ..),
    gives_loop, gives_done, fun d r h => gives_wait h, gives_wait_held, gives_until_passed, gives_until_ahead,
    fun k => gives_untilReached⟩

end Sys2Proof.Machine

/-! ## Branch points, joins, and what the core reads and writes in batt memory -/

namespace Sys2Proof.Machine
open Sys2Proof

-- Short theorems, many of them: one after another, so that the threads' stacks stay within the check's memory.
set_option Elab.async false

section
variable {s : State} {p : PartId} {c : ClusterId}

theorem slice_of_coreLive (h : s.coreLive p c = true) : (s.pt p).slice.isSome = true := by
  simp only [State.coreLive, Bool.and_eq_true] at h
  exact h.1.1

theorem slice_of_coreRuns (h : s.coreRuns p c = true) : (s.pt p).slice.isSome = true := by
  simp only [State.coreRuns, Bool.and_eq_true] at h
  exact slice_of_coreLive h.1

theorem State.SliceLate.coreRetire (h : s.SliceLate p c) (k next : Nat) (f : Crown → Crown) :
    (s.coreRetire p c k next f).SliceLate p c := by
  unfold State.coreRetire
  dsimp only
  refine State.SliceLate.congr (t := State.at _ _) (State.SliceLate.traceFire (State.SliceLate.congr h ?_) ..) rfl
  rw [State.pt_trace]
  rfl

theorem State.sliceLate_joinOverrun (h : (s.pt p).slice.isSome = true) : (s.joinOverrun p c).SliceLate p c := by
  unfold State.joinOverrun
  refine State.sliceLate_lateCluster ?_ _
  rw [State.pt_trace]
  exact h

theorem State.crown_summaryOrder (s : State) (p : Nat) (c : ClusterId) : ((s.summaryOrder p c).cl c).crown = (s.cl c).crown := by
  simp [State.summaryOrder]

/-! ### BRANCH, ENDA and JOIN_RESUME -/

/-- The alternative that a BRANCH takes. -/
def State.branchTakes (s : State) (c : ClusterId) (z : BitVec 4) (flag : Bool) (b : BitVec 6) (alts : BitVec 2) : Nat :=
  if s.zPending c z.toNat then 0 else zAlternative ((s.cl c).zRead z.toNat) flag b.toNat (alts.toNat + 1)

theorem gives_branch {z : BitVec 4} {flag : Bool} {b : BitVec 6} {alts : BitVec 2} {join : BitVec 32} {k : Nat}
    (h : AtCore s p c (.branch c z flag b alts join)) (hk : s.branchTakes c z flag b alts = k)
    (hw : ((s.cl c).crown.wordAt ((s.cl c).crown.pc + 8 + 8 * k)).2 = false) :
    Gives (.branch c z flag b alts join) s fun t =>
      Retired 1 ((s.cl c).crown.altAddr (s.cl c).crown.pc k) 0 0 (s.cl c).crown (t.cl c).crown ∧
      (t.cl c).crown.branches =
        ⟨(s.cl c).crown.resumeAddr c (s.cl c).crown.pc (alts.toNat + 1), (s.cl c).crown.cycle + join.toNat, false⟩ ::
          (s.cl c).crown.branches := by
  refine gives_of_atCore h rfl ?_
  unfold State.branchTakes at hk
  have hs : ((if s.zPending c z.toNat then s.summaryOrder p c else s).cl c).crown = (s.cl c).crown := by
    split
    · exact State.crown_summaryOrder ..
    · rfl
  simp only [hk, hw, Bool.false_eq_true, if_false, State.crown_coreRetire, State.cl_traceFire, State.crown_trace, State.cl_count,
    State.modCrown, State.cl_modCl_fin, hs]
  exact ⟨retired_keep rfl rfl rfl, rfl⟩

theorem gives_branch_badWord {z : BitVec 4} {flag : Bool} {b : BitVec 6} {alts : BitVec 2} {join : BitVec 32} {k : Nat}
    (h : AtCore s p c (.branch c z flag b alts join)) (hk : s.branchTakes c z flag b alts = k)
    (hw : ((s.cl c).crown.wordAt ((s.cl c).crown.pc + 8 + 8 * k)).2 = true) :
    Gives (.branch c z flag b alts join) s fun t => (t.cl c).crown = { (s.cl c).crown with mode := .stopped } := by
  refine gives_of_atCore h rfl ?_
  unfold State.branchTakes at hk
  simp only [hk, hw, if_true]
  exact State.crown_coreStop ..

theorem gives_enda_early {f : BranchFrame} {fs : List BranchFrame} (h : AtCore s p c (.enda c))
    (hb : (s.cl c).crown.branches = f :: fs) (hle : (s.cl c).crown.cycle ≤ f.joinAt) :
    Gives (.enda c) s fun t => (t.cl c).crown.mode = .join f.joinAt f.resume ∧ (t.cl c).crown.branches = fs ∧
      (t.cl c).crown.cycle = (s.cl c).crown.cycle + 1 := by
  refine gives_of_atCore h rfl ?_
  simp only [hb, hle, if_true, State.modCrown, State.cl_modCl_fin, State.crown_coreRetire]
  exact ⟨trivial, rfl, rfl⟩

theorem gives_enda_overrun {f : BranchFrame} {fs : List BranchFrame} (h : AtCore s p c (.enda c))
    (hb : (s.cl c).crown.branches = f :: fs) (hlt : f.joinAt < (s.cl c).crown.cycle) (hf : f.overrun = false) :
    Gives (.enda c) s fun t => (t.cl c).crown.pc = (loopNext (s.cl c).crown.loops f.resume).1 ∧ (t.cl c).crown.branches = fs ∧
      ∀ r, (t.pt p).slice = some r → r.late.testBit c.val = true := by
  have hslice := slice_of_coreRuns h.2.1
  refine gives_of_atCore h rfl ?_
  simp only [hb, Nat.not_le.2 hlt, if_false, hf, Bool.false_eq_true, State.crown_coreRetire, State.crown_joinOverrun]
  refine ⟨rfl, rfl, fun r hr => ?_⟩
  obtain ⟨r', hr', hlate⟩ := (State.sliceLate_joinOverrun (c := c) hslice).coreRetire 1 f.resume fun cr => { cr with branches := fs }
  obtain rfl := Option.some.inj (hr.symm.trans hr')
  exact hlate

theorem gives_joinResume {n pc : Nat} (ho : s.ownerOfCluster c = some p.val) (hlive : s.coreLive p c = true)
    (hmode : (s.cl c).crown.mode = .join n pc) (hle : (s.cl c).crown.cycle ≤ n + 1) (hlt : n < (s.pt p).edgeCycle) :
    Gives (.joinResume c) s fun t => (t.cl c).crown.pc = (loopNext (s.cl c).crown.loops pc).1 ∧ (t.cl c).crown.cycle = n + 1 ∧
      (t.cl c).crown.mode = .running := by
  refine ⟨(s.coreStall p c 5 (n + 1 - (s.cl c).crown.cycle)).modCrown c
    (fun cr => { cr with pc := (loopNext cr.loops pc).1, loops := (loopNext cr.loops pc).2, mode := .running }), ?_, ?_⟩
  · show execJoinResume c s = _
    simp [execJoinResume, ho, hmode, hlive, hlt, takes]
  · simp only [State.modCrown, State.cl_modCl_fin]
    rw [State.crown_coreStall]
    split
    next h => exact ⟨rfl, show (s.cl c).crown.cycle = n + 1 by omega, trivial⟩
    · exact ⟨rfl, show (s.cl c).crown.cycle + (n + 1 - (s.cl c).crown.cycle) = n + 1 by omega, trivial⟩
end

/-- Settles O15. -/
theorem crownBranchInstructions : Obligations.CrownBranchInstructions := by
  unfold Obligations.CrownBranchInstructions
  intro p c z flag b alts join s x k
  refine ⟨fun h hz => gives_branch h (if_neg (Bool.eq_false_iff.1 hz)), fun h hz hw => ?_, fun h hz => gives_branch_badWord h (if_neg (Bool.eq_false_iff.1 hz)),
    fun f fs => gives_enda_early, fun f fs => gives_enda_overrun, fun n pc => gives_joinResume⟩
  obtain ⟨t, ht, hret, -⟩ := gives_branch h (if_pos hz) hw
  exact ⟨t, ht, hret⟩

end Sys2Proof.Machine

/-! ## Batt memory under the core's loads and stores -/

namespace Sys2Proof.Machine
open Sys2Proof

-- Short theorems, many of them: one after another, so that the threads' stacks stay within the check's memory.
set_option Elab.async false

theorem length_leBytes (n v : Nat) : (leBytes n v).length = n := by
  induction n generalizing v with
  | zero => rfl
  | succ n ih => simp [leBytes, ih]

theorem SMap.range_putList {α : Type} [DecidableEq α] (d : α) (m : SMap α) (k : Nat) (vs : List α) :
    SMap.range d (SMap.putList d m k vs) k vs.length = vs := by
  refine List.ext_getElem (by simp [SMap.range]) fun i hi hv => ?_
  simp only [SMap.range, List.getElem_map, List.getElem_range]
  exact SMap.getD_putList_in d vs m k i hv

theorem SMap.range_putList_out {α : Type} [DecidableEq α] (d : α) (m : SMap α) (k : Nat) (vs : List α) {j n : Nat}
    (h : j + n ≤ k ∨ k + vs.length ≤ j) : SMap.range d (SMap.putList d m k vs) j n = SMap.range d m j n := by
  refine List.map_congr_left fun i hi => SMap.getD_putList_out d vs m k (j + i) ?_
  have := List.mem_range.1 hi
  omega

section
variable (s : State) (p : Nat) (c : ClusterId) (cy a : Nat) (bs : List (Byte × Bool))

/-- What the core writes to batt memory stands there. -/
theorem State.batt_battPut_crown : ((s.battPut p c cy .crown a bs).cl c).batt = SMap.putList (0, false) (s.cl c).batt a bs := by
  unfold State.battPut
  obtain ⟨o, h⟩ := s.battWrites_eq p c cy .crown ((s.cl c).battWrite a bs) [(a, bs.length)]
  obtain ⟨w, hw⟩ := Cluster.settleWrite_crown (s.cl c) ((s.cl c).battWrite a bs) cy [(a, bs.length)]
  obtain ⟨r, hr⟩ := Cluster.refetch_eq { (s.cl c).battWrite a bs with writes := w } cy
  rw [h, hw, hr]
  show ((s.modCl c fun _ => _).cl c).batt = _
  rw [State.cl_modCl_fin]
  rfl

theorem State.crown_battPut (port : BattPort) : ((s.battPut p c cy port a bs).cl c).crown = (s.cl c).crown :=
  (s.changes_battPut p c cy port a bs).kept (.cluster .crown) rfl c

theorem State.batt_coreRetire (k next : Nat) (f : Crown → Crown) : ((s.coreRetire p c k next f).cl c).batt = (s.cl c).batt :=
  (State.changes_coreRetire s p c k next f).kept (.cluster .batt) rfl c

theorem State.open_trace (ty info cycle payload : Nat) : (s.trace p c ty info cycle payload).open_ = s.open_ :=
  (State.changes_trace ..).kept .open_

theorem State.open_traceFire (kind cycle : Nat) (b : Bool) : (s.traceFire p c kind cycle b).open_ = s.open_ :=
  (State.changes_traceFire ..).kept .open_

/-- The counters of a retirement: the busy cycles and the instruction. -/
theorem State.open_coreRetire (k next : Nat) (f : Crown → Crown) {key : Nat} (hb : key ≠ ctrKey p 2 c wBusy)
    (he : key ≠ ctrKey p 2 c (wEvent 0)) : SMap.getD 0 (s.coreRetire p c k next f).open_ key = SMap.getD 0 s.open_ key := by
  unfold State.coreRetire
  extract_lets cr r n u v w
  have hw : w.open_ = v.open_ := (State.open_traceFire ..).trans (State.open_trace ..)
  calc SMap.getD 0 w.open_ key = SMap.getD 0 ((u.count p 2 c wBusy k).count p 2 c (wEvent 0) 1).open_ key := by rw [hw]
    _ = SMap.getD 0 u.open_ key := by rw [State.open_count_ne _ _ he, State.open_count_ne _ _ hb]
    _ = SMap.getD 0 s.open_ key := rfl
end

theorem portsAt_nap (a : Nat) (old : List (Byte × Bool)) (h : old.length = 8) (b : Nat) (hb : a ≤ b) (hb' : b < a + 8) :
    portsAt [(.nap, a, old)] b = [.nap] := by
  simp [portsAt, h, hb, hb']

/-- A store of the core meets the Nap engine's in each of its 8 bytes. -/
theorem contested_nap (a : Nat) (old : List (Byte × Bool)) (h : old.length = 8) :
    contested [(.nap, a, old)] .crown [(a, 8)] = (List.range 8).map (a + ·) := by
  have ports := portsAt_nap a old h
  have hf : ((List.range 8).map (a + ·)).filter (fun b => (portsAt [(.nap, a, old)] b).any (· != .crown)) =
      (List.range 8).map (a + ·) := by
    refine List.filter_eq_self.2 fun b hb => ?_
    obtain ⟨i, hi, rfl⟩ := List.mem_map.1 hb
    have hi := List.mem_range.1 hi
    rw [ports _ (by omega) (by omega)]
    rfl
  simp only [contested, List.flatMap_cons, List.flatMap_nil, List.append_nil, hf]
  simp [List.range_succ, List.eraseDups_cons]

theorem settleWrite_crown_count (x new : Cluster) (cy a : Nat) (h : x.writes = ⟨cy, [(.nap, a, x.battRead a 8)]⟩) :
    (x.settleWrite new cy .crown [(a, 8)]).2 = 8 := by
  have hw : x.writes.at cy = [(.nap, a, x.battRead a 8)] := by simp [CycleWrites.at, h]
  have hlen : (x.battRead a 8).length = 8 := by simp [Cluster.battRead, SMap.range]
  simp only [Cluster.settleWrite, hw, contested_nap a _ hlen]
  rw [List.filter_eq_self.2, List.length_map, List.length_range]
  intro b hb
  obtain ⟨i, hi, rfl⟩ := List.mem_map.1 hb
  have hi := List.mem_range.1 hi
  rw [portsAt_nap a _ hlen _ (by omega) (by omega)]
  rfl

/-- The bytes that two ports wrote in one cycle are counted. -/
theorem State.open_battPut_contested (s : State) (p : Nat) (c : ClusterId) (cy a : Nat) (bs : List (Byte × Bool)) (hbs : bs.length = 8)
    (h : (s.cl c).writes = ⟨cy, [(.nap, a, (s.cl c).battRead a 8)]⟩) :
    SMap.getD 0 (s.battPut p c cy .crown a bs).open_ (ctrKey p 1 c (wEvent 2)) =
      SMap.getD 0 s.open_ (ctrKey p 1 c (wEvent 2)) + 8 := by
  have hk := settleWrite_crown_count (s.cl c) ((s.cl c).battWrite a bs) cy a h
  unfold State.battPut State.battWrites
  rw [hbs]
  split
  next cl k e =>
    rw [e] at hk
    obtain rfl : k = 8 := hk
    exact State.open_count_self ..

/-! ### LD, ST and LDZ -/

section
variable {s : State} {p : PartId} {c : ClusterId} {rd rs1 rs2 : RegId} {imm : BitVec 32}

/-- The address of a load or store that the core accepts. -/
def Crown.goodAddr (x : Crown) (rs1 : RegId) (imm : BitVec 32) : Prop := x.ea rs1 imm % 8 = 0 ∧ x.ea rs1 imm < 4 * 2 ^ 20

theorem Crown.goodAddr_iff (x : Crown) (rs1 : RegId) (imm : BitVec 32) :
    x.goodAddr rs1 imm ↔ (x.ea rs1 imm % 8 ≠ 0 || battSize ≤ x.ea rs1 imm) = false := by
  simp [Crown.goodAddr, battSize]

theorem gives_ld (h : AtCore s p c (.ld c rd rs1 imm)) (hg : (s.cl c).crown.goodAddr rs1 imm)
    (hb : ((s.cl c).before (s.cl c).crown.cycle).battBad ((s.cl c).crown.ea rs1 imm) 8 = false) :
    Gives (.ld c rd rs1 imm) s fun t => Retired 4 ((s.cl c).crown.pc + 8) rd
      (BitVec.ofNat 64 (leNat (((s.cl c).before (s.cl c).crown.cycle).battBytes ((s.cl c).crown.ea rs1 imm) 8)))
      (s.cl c).crown (t.cl c).crown := by
  refine gives_of_atCore h rfl ?_
  simp only [(Crown.goodAddr_iff ..).1 hg, hb, Bool.false_eq_true, if_false]
  rw [State.crown_coreRetire]
  exact retired_setReg ..

theorem gives_ld_stopped (h : AtCore s p c (.ld c rd rs1 imm))
    (hb : ¬ (s.cl c).crown.goodAddr rs1 imm ∨
      ((s.cl c).before (s.cl c).crown.cycle).battBad ((s.cl c).crown.ea rs1 imm) 8 = true) :
    Gives (.ld c rd rs1 imm) s fun t => (t.cl c).crown = { (s.cl c).crown with mode := .stopped } := by
  refine gives_of_atCore h rfl ?_
  rw [Crown.goodAddr_iff, Bool.not_eq_false] at hb
  dsimp only
  split
  · exact State.crown_coreStop ..
  next hn =>
    rw [if_pos (hb.resolve_left hn)]
    exact State.crown_coreStop ..

theorem gives_st (h : AtCore s p c (.st c rs1 rs2 imm)) (hg : (s.cl c).crown.goodAddr rs1 imm) :
    Gives (.st c rs1 rs2 imm) s fun t =>
      Retired 1 ((s.cl c).crown.pc + 8) 0 0 (s.cl c).crown (t.cl c).crown ∧
      (t.cl c).battBytes ((s.cl c).crown.ea rs1 imm) 8 = leBytes 8 ((s.cl c).crown.reg rs2).toNat ∧
      (t.cl c).battBad ((s.cl c).crown.ea rs1 imm) 8 = false ∧
      (∀ b, (b < (s.cl c).crown.ea rs1 imm ∨ (s.cl c).crown.ea rs1 imm + 8 ≤ b) → (t.cl c).battRead b 1 = (s.cl c).battRead b 1) ∧
      ((s.cl c).writes = ⟨(s.cl c).crown.cycle,
          [(.nap, (s.cl c).crown.ea rs1 imm, (s.cl c).battRead ((s.cl c).crown.ea rs1 imm) 8)]⟩ →
        SMap.getD 0 t.open_ (ctrKey p 1 c (wEvent 2)) = SMap.getD 0 s.open_ (ctrKey p 1 c (wEvent 2)) + 8) := by
  refine gives_of_atCore h rfl ?_
  simp only [(Crown.goodAddr_iff ..).1 hg, Bool.false_eq_true, if_false]
  generalize (s.cl c).crown.ea rs1 imm = a
  generalize hv : ((s.cl c).crown.reg rs2).toNat = v
  have hlen : ((leBytes 8 v).map (·, false)).length = 8 := by rw [List.length_map, length_leBytes]
  have hbatt : ∀ u : State, u = (s.battPut p c (s.cl c).crown.cycle .crown a ((leBytes 8 v).map (·, false))).coreRetire p c 1
      ((s.cl c).crown.pc + 8) id → (u.cl c).batt = SMap.putList (0, false) (s.cl c).batt a ((leBytes 8 v).map (·, false)) := by
    rintro u rfl
    rw [State.batt_coreRetire, State.batt_battPut_crown]
  have hread : ∀ u : State, u = (s.battPut p c (s.cl c).crown.cycle .crown a ((leBytes 8 v).map (·, false))).coreRetire p c 1
      ((s.cl c).crown.pc + 8) id → (u.cl c).battRead a 8 = (leBytes 8 v).map (·, false) := by
    intro u hu
    have k := SMap.range_putList (0, false) (s.cl c).batt a ((leBytes 8 v).map (·, false))
    rw [hlen] at k
    rw [Cluster.battRead, hbatt u hu, k]
  refine ⟨?_, ?_, ?_, fun b hb => ?_, fun hw => ?_⟩
  · have k := retired_coreRetire_id (s.battPut p c (s.cl c).crown.cycle .crown a ((leBytes 8 v).map (·, false))) p 1
      ((s.cl c).crown.pc + 8) c
    rwa [State.crown_battPut] at k
  · rw [Cluster.battBytes, hread _ rfl]
    simp [Function.comp_def]
  · rw [Cluster.battBad, hread _ rfl]
    simp
  · rw [Cluster.battRead, hbatt _ rfl]
    exact SMap.range_putList_out _ _ _ _ (by omega)
  · rw [State.open_coreRetire _ _ _ _ _ _ (by simp only [ctrKey, wBusy, wEvent]; omega)
      (by simp only [ctrKey, wEvent]; omega)]
    exact State.open_battPut_contested s p c _ a _ hlen hw

theorem gives_st_stopped (h : AtCore s p c (.st c rs1 rs2 imm)) (hb : ¬ (s.cl c).crown.goodAddr rs1 imm) :
    Gives (.st c rs1 rs2 imm) s fun t =>
      (t.cl c).crown = { (s.cl c).crown with mode := .stopped } ∧ (t.cl c).batt = (s.cl c).batt := by
  refine gives_of_atCore h rfl ?_
  rw [Crown.goodAddr_iff, Bool.not_eq_false] at hb
  simp only [hb, if_true]
  exact ⟨State.crown_coreStop .., (State.changes_coreStop ..).kept (.cluster .batt) rfl c⟩

theorem gives_ldz {z : BitVec 4} (h : AtCore s p c (.ldz c rd z)) :
    Gives (.ldz c rd z) s fun t => Retired 1 ((s.cl c).crown.pc + 8) rd (BitVec.ofNat 64 ((s.cl c).zRead z.toNat))
      (s.cl c).crown (t.cl c).crown := by
  refine gives_of_atCore h rfl ?_
  dsimp only
  have hs : ((if s.zPending c z.toNat then s.summaryOrder p c else s).cl c).crown = (s.cl c).crown := by
    split
    · exact State.crown_summaryOrder ..
    · rfl
  have k := retired_coreRetire_setReg (if s.zPending c z.toNat then s.summaryOrder p c else s) p 1 ((s.cl c).crown.pc + 8) c rd
    fun _ => BitVec.ofNat 64 ((s.cl c).zRead z.toNat)
  rw [hs] at k ⊢
  exact k
end

/-- Settles O13. -/
theorem crownMemoryInstructions : Obligations.CrownMemoryInstructions := by
  unfold Obligations.CrownMemoryInstructions
  intro p c rd rs1 rs2 imm z s x a good cl
  exact ⟨gives_ld, gives_st, gives_ldz, gives_ld_stopped, gives_st_stopped⟩

end Sys2Proof.Machine

/-! ## Issue of descriptors by the core -/

namespace Sys2Proof.Machine
open Sys2Proof

-- Short theorems, many of them: one after another, so that the threads' stacks stay within the check's memory.
set_option Elab.async false

theorem Cluster.arr_modArr_self (x : Cluster) (f : ArrState → ArrState) {a : Nat} (h : a < 16) : (x.modArr a f).arr a = f (x.arr a) := by
  simp [Cluster.modArr, Cluster.arr, h]

theorem Cluster.arr_congr {x y : Cluster} (h : y.arrays = x.arrays) (a : Nat) : y.arr a = x.arr a := by
  simp only [Cluster.arr, h]

theorem le_issueCycle (b : Nat) (starts : List Nat) : b ≤ issueCycle b starts := by
  unfold issueCycle
  split
  · exact Nat.le_max_left ..
  · exact Nat.le_refl b

section
variable {s : State} {p : PartId} {c : ClusterId} {rs1 : RegId} {imm : BitVec 32}

/-- `gives_of_atCore`, with the next state named. -/
theorem gives_of_atCore_eq {i : Instr} {eff : Nat → State → State} {post : State → Prop} (h : AtCore s p c i)
    (e : exec i s = crownExec c i s eff) (hpost : ∀ t, t = eff p s → post t) : Gives i s post :=
  gives_of_atCore h e (hpost _ rfl)

/-- The address of a descriptor that the core accepts. -/
def Crown.goodDesc (x : Crown) (rs1 : RegId) (imm : BitVec 32) : Prop := x.ea rs1 imm % 8 = 0 ∧ x.ea rs1 imm + 32 ≤ 4 * 2 ^ 20

theorem Crown.goodDesc_iff (x : Crown) (rs1 : RegId) (imm : BitVec 32) :
    x.goodDesc rs1 imm ↔ (x.ea rs1 imm % 8 ≠ 0 || battSize < x.ea rs1 imm + 32) = false := by
  simp [Crown.goodDesc, battSize]

/-- After a stall up to the issue cycle and the retirement there, with work done between that leaves the core alone. -/
theorem crown_stalled_retired {s u : State} (p i reason : Nat) (c : ClusterId) (hi : (s.cl c).crown.cycle ≤ i)
    (hu : (u.cl c).crown = ((s.coreStall p c reason (i - (s.cl c).crown.cycle)).cl c).crown) :
    ((u.coreRetire p c 1 ((u.cl c).crown.pc + 8) id).cl c).crown.cycle = i + 1 ∧
      ((u.coreRetire p c 1 ((u.cl c).crown.pc + 8) id).cl c).crown.pc =
        (loopNext (s.cl c).crown.loops ((s.cl c).crown.pc + 8)).1 := by
  rw [State.crown_coreRetire, hu, State.crown_coreStall]
  split
  · exact ⟨show (s.cl c).crown.cycle + 1 = i + 1 by omega, rfl⟩
  · exact ⟨show (s.cl c).crown.cycle + (i - (s.cl c).crown.cycle) + 1 = i + 1 by omega, rfl⟩

theorem gives_issa {arr : BitVec 4} {discard : Bool} {tag : BitVec 7} {i : Nat} (h : AtCore s p c (.issa c arr discard tag rs1 imm))
    (hg : (s.cl c).crown.goodDesc rs1 imm) (hq : ((s.cl c).arr arr.toNat).queue.length < 4)
    (hi : issueCycle (s.cl c).crown.cycle (((s.cl c).arr arr.toNat).streams.map (·.1)) = i) (hlt : i < (s.pt p).guardCycle) :
    Gives (.issa c arr discard tag rs1 imm) s fun t =>
      (∃ o, ((t.cl c).arr arr.toNat).queue = ((s.cl c).arr arr.toNat).queue ++ [o] ∧
        o.desc = BitVec.ofNat 256 (leNat (((s.cl c).before i).battBytes ((s.cl c).crown.ea rs1 imm) 32)) ∧
        o.bad = ((s.cl c).before i).battBad ((s.cl c).crown.ea rs1 imm) 32 ∧ o.discard = discard ∧ o.tag = tag.toNat ∧ o.issue = i ∧
        o.start = Nat.max (i + 4) ((s.cl c).arr arr.toNat).lastEnd) ∧
      (t.cl c).crown.cycle = i + 1 ∧ (t.cl c).crown.pc = (loopNext (s.cl c).crown.loops ((s.cl c).crown.pc + 8)).1 := by
  have hle := le_issueCycle (s.cl c).crown.cycle (((s.cl c).arr arr.toNat).streams.map (·.1))
  rw [hi] at hle
  refine gives_of_atCore_eq h rfl fun t ht => ?_
  beta_reduce at ht
  extract_lets cl a addr x i' s1 d bad n at ht
  have hi' : i' = i := hi
  rw [if_neg (by simpa using (Crown.goodDesc_iff ..).1 hg), if_neg (Nat.not_le.2 hq), if_neg (Nat.not_le.2 (hi'.trans_lt hlt))] at ht
  split at ht
  next st en co he =>
    extract_lets o s2 s3 s4 at ht
    have ha1 : (s1.cl c).arrays = (s.cl c).arrays := (State.changes_coreStall ..).kept (.cluster .arrays) rfl c
    have hc2 : (s2.cl c).crown = (s1.cl c).crown := by
      unfold s2
      rw [State.cl_modCl_fin]
      rfl
    have ha2 : ((s2.cl c).arr a).queue = ((s.cl c).arr a).queue ++ [o] := by
      unfold s2
      rw [State.cl_modCl_fin, Cluster.arr_modArr_self _ _ arr.isLt, Cluster.arr_congr ha1]
    have h3 : (s3.cl c).arrays = (s2.cl c).arrays ∧ (s3.cl c).crown = (s2.cl c).crown := by
      have k := fun cy => State.changes_tileConflict s2 c n cy
      unfold s3
      split
      · split
        · exact ⟨(k _).kept (.cluster .arrays) rfl c, (k _).kept (.cluster .crown) rfl c⟩
        · exact ⟨rfl, rfl⟩
      · exact ⟨rfl, rfl⟩
    have h4 : (s4.cl c).arrays = (s3.cl c).arrays ∧ (s4.cl c).crown = (s3.cl c).crown :=
      ⟨(State.changes_trace ..).kept (.cluster .arrays) rfl c, State.crown_trace ..⟩
    have ht4 : (t.cl c).arrays = (s4.cl c).arrays := by
      rw [ht]
      exact (State.changes_coreRetire ..).kept (.cluster .arrays) rfl c
    have hq' : ((t.cl c).arr a).queue = ((s.cl c).arr a).queue ++ [o] := by
      rw [Cluster.arr_congr (ht4.trans (h4.1.trans h3.1)), ha2]
    have hstart : st = Nat.max (i + 4) ((s.cl c).arr a).lastEnd := by
      rw [← hi']
      exact (congrArg Prod.fst he).symm
    refine ⟨⟨o, hq', by rw [← hi'], by rw [← hi'], rfl, rfl, hi', hstart⟩, ?_⟩
    rw [ht]
    refine crown_stalled_retired p i 5 c hle ?_
    rw [h4.2, h3.2, hc2, ← hi']

theorem gives_issn {j : Nat} (h : AtCore s p c (.issn c rs1 imm))
    (hg : (s.cl c).crown.goodDesc rs1 imm) (hq : (s.cl c).nap.queue.length < 4)
    (hj : issueCycle (s.cl c).crown.cycle (List.replicate (s.cl c).nap.queue.length 0 ++ (s.cl c).nap.recent) = j)
    (hlt : j < (s.pt p).guardCycle) :
    Gives (.issn c rs1 imm) s fun t =>
      (t.cl c).nap.queue = (s.cl c).nap.queue ++
        [⟨BitVec.ofNat 256 (leNat (((s.cl c).before j).battBytes ((s.cl c).crown.ea rs1 imm) 32)),
          ((s.cl c).before j).battBad ((s.cl c).crown.ea rs1 imm) 32, j⟩] ∧
      (t.cl c).crown.cycle = j + 1 ∧ (t.cl c).crown.pc = (loopNext (s.cl c).crown.loops ((s.cl c).crown.pc + 8)).1 := by
  have hle := le_issueCycle (s.cl c).crown.cycle (List.replicate (s.cl c).nap.queue.length 0 ++ (s.cl c).nap.recent)
  rw [hj] at hle
  refine gives_of_atCore_eq h rfl fun t ht => ?_
  beta_reduce at ht
  extract_lets cl addr j' s1 d o s2 s3 at ht
  have hj' : j' = j := hj
  rw [if_neg (by simpa using (Crown.goodDesc_iff ..).1 hg), if_neg (Nat.not_le.2 hq), if_neg (Nat.not_le.2 (hj'.trans_lt hlt))] at ht
  have hq1 : (s1.cl c).nap.queue = (s.cl c).nap.queue := (State.changes_coreStall ..).kept (.cluster .napQueue) rfl c
  have h2 : (s2.cl c).nap.queue = (s.cl c).nap.queue ++ [o] ∧ (s2.cl c).crown = (s1.cl c).crown := by
    unfold s2
    rw [State.cl_modCl_fin]
    exact ⟨congrArg (· ++ [o]) hq1, rfl⟩
  have h3 : (s3.cl c).nap.queue = (s2.cl c).nap.queue ∧ (s3.cl c).crown = (s2.cl c).crown :=
    ⟨(State.changes_trace ..).kept (.cluster .napQueue) rfl c, State.crown_trace ..⟩
  have ht3 : (t.cl c).nap.queue = (s3.cl c).nap.queue := by
    rw [ht]
    exact (State.changes_coreRetire ..).kept (.cluster .napQueue) rfl c
  refine ⟨?_, ?_⟩
  · rw [ht3, h3.1, h2.1, ← hj']
  · rw [ht]
    refine crown_stalled_retired p j 5 c hle ?_
    rw [h3.2, h2.2, ← hj']

/-- A full queue holds the core at the instruction. -/
theorem gives_issa_full {arr : BitVec 4} {discard : Bool} {tag : BitVec 7} (h : AtCore s p c (.issa c arr discard tag rs1 imm))
    (hg : (s.cl c).crown.goodDesc rs1 imm) (hq : 4 ≤ ((s.cl c).arr arr.toNat).queue.length) :
    Gives (.issa c arr discard tag rs1 imm) s fun t => (t.cl c).crown = { (s.cl c).crown with mode := .waiting } ∧
      ((t.cl c).arr arr.toNat).queue = ((s.cl c).arr arr.toNat).queue := by
  refine gives_of_atCore_eq h rfl fun t ht => ?_
  beta_reduce at ht
  extract_lets cl a addr x at ht
  rw [if_neg (by simpa using (Crown.goodDesc_iff ..).1 hg), if_pos hq] at ht
  rw [ht]
  exact ⟨crown_coreWait .., by rw [State.coreWait, State.modCrown, State.cl_modCl_fin]; rfl⟩

theorem gives_issn_full (h : AtCore s p c (.issn c rs1 imm)) (hg : (s.cl c).crown.goodDesc rs1 imm)
    (hq : 4 ≤ (s.cl c).nap.queue.length) :
    Gives (.issn c rs1 imm) s fun t => (t.cl c).crown = { (s.cl c).crown with mode := .waiting } ∧
      (t.cl c).nap.queue = (s.cl c).nap.queue := by
  refine gives_of_atCore_eq h rfl fun t ht => ?_
  beta_reduce at ht
  extract_lets cl addr at ht
  rw [if_neg (by simpa using (Crown.goodDesc_iff ..).1 hg), if_pos hq] at ht
  rw [ht]
  exact ⟨crown_coreWait .., by rw [State.coreWait, State.modCrown, State.cl_modCl_fin]⟩

theorem badDesc {x : Crown} (hg : ¬ x.goodDesc rs1 imm) : (x.ea rs1 imm % 8 ≠ 0 || battSize < x.ea rs1 imm + 32) = true := by
  rwa [Crown.goodDesc_iff, Bool.not_eq_false] at hg

theorem gives_issa_badDesc {arr : BitVec 4} {discard : Bool} {tag : BitVec 7} (h : AtCore s p c (.issa c arr discard tag rs1 imm))
    (hg : ¬ (s.cl c).crown.goodDesc rs1 imm) :
    Gives (.issa c arr discard tag rs1 imm) s fun t => (t.cl c).crown = { (s.cl c).crown with mode := .stopped } := by
  refine gives_of_atCore_eq h rfl fun t ht => ?_
  beta_reduce at ht
  extract_lets cl a addr x at ht
  rw [if_pos (badDesc hg)] at ht
  rw [ht]
  exact State.crown_coreStop ..

theorem gives_issn_badDesc (h : AtCore s p c (.issn c rs1 imm)) (hg : ¬ (s.cl c).crown.goodDesc rs1 imm) :
    Gives (.issn c rs1 imm) s fun t => (t.cl c).crown = { (s.cl c).crown with mode := .stopped } := by
  refine gives_of_atCore_eq h rfl fun t ht => ?_
  beta_reduce at ht
  extract_lets cl addr at ht
  rw [if_pos (badDesc hg)] at ht
  rw [ht]
  exact State.crown_coreStop ..
end

/-- Settles O16. -/
theorem crownIssueInstructions : Obligations.CrownIssueInstructions := by
  unfold Obligations.CrownIssueInstructions
  intro p c arr discard tag rs1 imm s x a at_ y i j good
  exact ⟨fun h hg hq => gives_issa h hg hq rfl, fun h hg hq => gives_issn h hg hq rfl, gives_issa_full, gives_issn_full,
    gives_issa_badDesc, gives_issn_badDesc⟩

end Sys2Proof.Machine

namespace Sys2Proof.Machine
open Sys2Proof

-- Short theorems, many of them: one after another, so that the threads' stacks stay within the check's memory.
set_option Elab.async false

/-! ## Registers by their size -/

/-- The bytes of a numeric object. -/
def objBytes (key : Nat) : Option Nat := (objRow key).bind (·.ty.size)

theorem objMask_of_bytes {key n : Nat} (h : objBytes key = some n) (v : Nat) : objMask key v = v % 2 ^ (8 * n) := by
  obtain ⟨r, hr, hn⟩ := Option.bind_eq_some_iff.mp h
  simp [objMask, hr, hn]

/-- A register that was written reads as the value, cut to the object's size. -/
theorem State.rg_setRg_bytes {key n : Nat} (h : objBytes key = some n) (hn : n ≤ 8) (s : State) (v : Nat) :
    (s.setRg key v).rg key = v % 2 ^ (8 * n) := by
  have hle : 2 ^ (8 * n) ≤ 2 ^ 64 := Nat.pow_le_pow_right (by decide) (by omega)
  have hlt : v % 2 ^ (8 * n) < 2 ^ (8 * n) := Nat.mod_lt _ (by positivity)
  rw [State.rg_setRg_self, objMask_of_bytes h, Nat.mod_eq_of_lt (lt_of_lt_of_le hlt hle)]

/-- A register that was written with a small value reads as the value. -/
theorem State.rg_setRg_small {key v : Nat} (h : objBytes key ≠ some 0) (hv : v < 256) (s : State) : (s.setRg key v).rg key = v := by
  have hmask : objMask key v = v := by
    cases e : objBytes key with
    | some n =>
      have hn : n ≠ 0 := fun hn => h (hn ▸ e)
      rw [objMask_of_bytes e]
      exact Nat.mod_eq_of_lt (lt_of_lt_of_le hv (Nat.pow_le_pow_right (n := 2) (i := 8) (by decide) (by omega)))
    | none =>
      unfold objMask
      split
      next r hr =>
        have : r.ty.size = none := by simpa [objBytes, hr] using e
        rw [this]
      next => rfl
  rw [State.rg_setRg_self, hmask, Nat.mod_eq_of_lt (by omega)]

theorem State.rg_incRg_bytes {key n : Nat} (h : objBytes key = some n) (hn : n ≤ 8) (s : State) (v : Nat) :
    (s.incRg key v).rg key = (s.rg key + v) % 2 ^ (8 * n) := State.rg_setRg_bytes h hn s _

theorem State.rg_incRg_ne (s : State) {k j : Nat} (v : Nat) (h : j ≠ k) : (s.incRg k v).rg j = s.rg j := State.rg_setRg_ne s _ h

/-- Objects of different subindices are different. -/
theorem okey_ne_of_sub {i j a b : Nat} (h : a % 256 ≠ b % 256) : okey i a ≠ okey j b := by
  unfold okey
  omega

/-- Objects of different indices are different. -/
theorem okey_ne_of_index {i j a b : Nat} (h : i ≠ j) (ha : a < 256) (hb : b < 256) : okey i a ≠ okey j b := by
  unfold okey
  omega

/-- Registers that an operation leaves alone as a whole. -/
theorem rg_of_regs {s t : State} (h : t.regs = s.regs) (k : Nat) : t.rg k = s.rg k := by
  unfold State.rg
  rw [h]

/-! ## Reads of a map after a change -/

@[simp] theorem SMap.getD_ins_self {α : Type} (d : α) (m : SMap α) (k : Nat) (v : α) : SMap.getD d (SMap.ins m k v) k = v := by
  simp [SMap.getD, SMap.get?_ins_self]

theorem SMap.getD_ins_ne {α : Type} (d : α) (m : SMap α) {k j : Nat} (v : α) (h : j ≠ k) :
    SMap.getD d (SMap.ins m k v) j = SMap.getD d m j := by
  simp [SMap.getD, SMap.get?_ins_ne _ _ h]

@[simp] theorem SMap.getD_del_self {α : Type} (d : α) (m : SMap α) (k : Nat) : SMap.getD d (SMap.del m k) k = d := by
  simp [SMap.getD, SMap.get?_del_self]

theorem SMap.getD_del_ne {α : Type} (d : α) (m : SMap α) {k j : Nat} (h : j ≠ k) : SMap.getD d (SMap.del m k) j = SMap.getD d m j := by
  simp [SMap.getD, SMap.get?_del_ne _ h]

/-! ## A condition of the contract that fails -/

/-- The slice of a partition, where one is in progress, has failed a condition in `t`. -/
def CondFails (p : PartId) (b : Nat) (s t : State) : Prop :=
  ∀ r, (s.pt p).slice = some r → ∃ r', (t.pt p).slice = some r' ∧ r'.cond.testBit b = true

theorem condFails_fails (s : State) (p : PartId) (b : Nat) : CondFails p b s (s.fails p b) := by
  intro r hr
  refine ⟨{ r with cond := setBit r.cond b }, ?_, testBit_setBit_self r.cond b⟩
  rw [State.fails, State.pt_modPt_fin]
  simp [Part.modSlice, hr]

/-- What leaves the slices alone changes nothing of it. -/
theorem CondFails.congr {p : PartId} {b : Nat} {s s' t t' : State} (h : CondFails p b s t) (hs : (s'.pt p).slice = (s.pt p).slice)
    (ht : (t'.pt p).slice = (t.pt p).slice) : CondFails p b s' t' := by
  intro r hr
  rw [ht]
  exact h r (hs ▸ hr)

/-- A condition that has failed stays so while others fail. -/
theorem CondFails.fails {p : PartId} {b : Nat} {s t : State} (h : CondFails p b s t) (q d : Nat) : CondFails p b s (t.fails q d) := by
  intro r hr
  obtain ⟨r', hr', hb⟩ := h r hr
  by_cases hq : p.val = q
  · subst hq
    refine ⟨{ r' with cond := setBit r'.cond d }, ?_, ?_⟩
    · rw [State.fails, State.pt_modPt_fin]
      simp [Part.modSlice, hr']
    · simp only [setBit]
      simp [Nat.testBit_or, hb]
  · refine ⟨r', ?_, hb⟩
    rw [State.fails, State.pt_modPt_ne _ hq, hr']

end Sys2Proof.Machine

namespace Sys2Proof.Machine
open Sys2Proof

-- Short theorems, many of them: one after another, so that the threads' stacks stay within the check's memory.
set_option Elab.async false

/-! ## A step of a command under its premise -/

/-- A command whose premise holds has its effect. -/
theorem gives_of_takes {i : Instr} {s : State} {post : State → Prop} {b : Bool} {eff : State → State} (h : exec i s = takes b s eff)
    (hb : b = true) (hpost : post (eff s)) : Gives i s post := ⟨eff s, h.trans (takes_of hb s eff), hpost⟩

/-- A command that leads to a state. -/
theorem gives_of_next {i : Instr} {s u : State} {post : State → Prop} (h : exec i s = .next u) (hpost : post u) : Gives i s post :=
  ⟨u, h, hpost⟩

/-! ## Throttles (R532 to R535) -/

/-- THERMAL fails for every slice in progress. -/
@[irreducible] def State.thermalFails (s : State) : State :=
  (List.range 12).foldl (fun t p => if (t.pt p).slice.isSome then t.fails p cfThermal else t) s

theorem State.changes_thermalFails (s : State) : Changes [.parts, .part .slice] s s.thermalFails := by
  unfold State.thermalFails
  exact .within fun _ _ => .foldl .refl (fun _ _ => .ite (.by (State.changes_fails ..)) .refl)

/-- Among the partitions of a list, a slice in progress has failed THERMAL. -/
theorem condFails_thermalFold {p : PartId} {s : State} (l : List Nat) (t : State)
    (h : CondFails p cfThermal s t ∨ (t.pt p).slice = (s.pt p).slice ∧ p.val ∈ l) :
    CondFails p cfThermal s (l.foldl (fun t p => if (t.pt p).slice.isSome then t.fails p cfThermal else t) t) := by
  induction l generalizing t with
  | nil => simpa using h
  | cons q l ih =>
    refine ih _ ?_
    rcases h with h | ⟨hs, hp⟩
    · left
      dsimp only
      split
      · exact h.fails _ _
      · exact h
    · rcases List.mem_cons.mp hp with rfl | hp
      · left
        dsimp only
        split
        next => exact (condFails_fails t p cfThermal).congr hs.symm rfl
        next hn =>
          intro r hr
          rw [hs, hr] at hn
          exact absurd rfl hn
      · by_cases hq : p.val = q
        · left
          subst hq
          dsimp only
          split
          next => exact (condFails_fails t p cfThermal).congr hs.symm rfl
          next hn =>
            intro r hr
            rw [hs, hr] at hn
            exact absurd rfl hn
        · right
          refine ⟨?_, hp⟩
          dsimp only
          split
          · rw [State.fails, State.pt_modPt_ne _ hq, hs]
          · exact hs

theorem condFails_thermalFails (s : State) (p : PartId) : CondFails p cfThermal s s.thermalFails := by
  unfold State.thermalFails
  exact condFails_thermalFold _ s (.inr ⟨rfl, List.mem_range.mpr p.isLt⟩)

/-- A throttle engages: THROTTLE_STATE, the failed slices, and the event where it is due. -/
theorem State.throttleOn_of {P : State → Prop} (s : State) (h : P s.showThrottle.thermalFails)
    (told : ∀ n a b, P (({ s.showThrottle.thermalFails with
      throttle := { s.showThrottle.thermalFails.throttle with thermalTold := n } } : State).notify 0x00B0 0xFF a b)) : P s.throttleOn := by
  unfold State.throttleOn
  extract_lets t u
  have hu : u = t.thermalFails := by
    unfold State.thermalFails
    rfl
  clear_value u
  subst hu
  split
  · exact told _ _ _
  · exact h

@[simp] theorem State.throttle_thermalFails (s : State) : s.thermalFails.throttle = s.throttle := (State.changes_thermalFails s).kept .throttle

@[simp] theorem State.regs_thermalFails (s : State) : s.thermalFails.regs = s.regs := (State.changes_thermalFails s).kept .regs

@[simp] theorem State.throttle_showThrottle (s : State) : s.showThrottle.throttle = s.throttle := rfl

/-- A throttle that engages changes of the throttles' record no more than when it was told. -/
theorem State.throttleOn_throttle (s : State) : ∃ n, s.throttleOn.throttle = { s.throttle with thermalTold := n } :=
  s.throttleOn_of (P := fun t => ∃ n, t.throttle = { s.throttle with thermalTold := n }) ⟨s.throttle.thermalTold, by simp⟩ fun n a b => ⟨n, by simp⟩

/-- A throttle that engages writes no register but THROTTLE_STATE. -/
theorem State.rg_throttleOn (s : State) {k : Nat} (hk : k ≠ Obj.THROTTLE_STATE) : s.throttleOn.rg k = s.rg k := by
  have h : s.showThrottle.thermalFails.rg k = s.rg k := by
    rw [rg_of_regs (State.regs_thermalFails _), State.showThrottle, State.rg_setRg_ne _ _ hk]
  refine s.throttleOn_of (P := fun t => t.rg k = s.rg k) h fun n a b => ?_
  rw [State.rg_notify]
  exact h

/-- A throttle that engages fails THERMAL for every slice in progress. -/
theorem State.condFails_throttleOn (s : State) (p : PartId) : CondFails p cfThermal s s.throttleOn := by
  have h : CondFails p cfThermal s s.showThrottle.thermalFails := (condFails_thermalFails s.showThrottle p).congr rfl rfl
  exact s.throttleOn_of (P := CondFails p cfThermal s) h fun n a b => h.congr rfl rfl

theorem objBytes_QUARTER_TEMP (q : QuarterId) : objBytes (Obj.QUARTER_TEMP q) = some 4 := by
  revert q
  decide +kernel

/-- POWER_SAMPLE above the limit begins the power throttle. -/
theorem gives_powerSample_on {at_ watts : Nat} {s : State} (hup : s.power.up = true)
    (hover : s.rg Obj.POWER_LIMIT_W * ((watts :: s.throttle.samples).take 100).length < ((watts :: s.throttle.samples).take 100).sum)
    (hn : s.throttle.powerN = 0) (p : PartId) :
    Gives (.powerSample at_ watts) s fun t => t.throttle.powerN = 1 ∧ t.throttle.samples = (watts :: s.throttle.samples).take 100 ∧
      t.rg Obj.PIN_W = ((watts :: s.throttle.samples).take 100).sum / ((watts :: s.throttle.samples).take 100).length % 2 ^ 32 ∧
      CondFails p cfThermal s t := by
  refine gives_of_takes (by unfold exec execPowerSample; rfl) hup ?_
  extract_lets s1 xs sum lim low x s2 s3 y s4 z s5
  have hpin : s3.rg Obj.PIN_W = sum / xs.length % 2 ^ 32 := State.rg_setRg_bytes (n := 4) (by decide) (by decide) _ _
  have hsl : (s3.pt p).slice = (s.pt p).slice := rfl
  have hxs : s3.throttle.samples = (watts :: s.throttle.samples).take 100 := rfl
  have hc : (decide (sum > lim * xs.length) && decide (s3.throttle.powerN = 0)) = true :=
    Bool.and_eq_true_iff.2 ⟨decide_eq_true hover, decide_eq_true hn⟩
  rw [if_pos hc]
  have h5 : s5.throttle.powerN = 1 ∧ s5.throttle.samples = s3.throttle.samples ∧ s5.regs = s3.regs ∧ (s5.pt p).slice = (s3.pt p).slice := by
    dsimp only [s5]
    split <;> exact ⟨rfl, rfl, rfl, rfl⟩
  clear_value s5 s3
  obtain ⟨hpn, hsm, hrg, hsl'⟩ := h5
  obtain ⟨n, ht⟩ := s5.throttleOn_throttle
  refine ⟨by rw [ht]; exact hpn, by rw [ht]; exact hsm.trans hxs, ?_, (s5.condFails_throttleOn p).congr (hsl'.trans hsl).symm rfl⟩
  rw [State.rg_throttleOn _ (by decide), rg_of_regs hrg, hpin]
  rfl

/-- POWER_SAMPLE below the limit for long enough ends the power throttle. -/
theorem gives_powerSample_off {at_ watts f : Nat} {s : State} (hup : s.power.up = true)
    (hlow : ((watts :: s.throttle.samples).take 100).sum < (s.rg Obj.POWER_LIMIT_W - 50) * ((watts :: s.throttle.samples).take 100).length)
    (hn : s.throttle.powerN ≠ 0) (hf : s.throttle.lowFrom = some f) (hlong : f + 10 ^ 8 ≤ Nat.max s.now at_) :
    Gives (.powerSample at_ watts) s fun t => t.throttle.powerN = 0 ∧ t.throttle.samples = (watts :: s.throttle.samples).take 100 := by
  refine gives_of_takes (by unfold exec execPowerSample; rfl) hup ?_
  extract_lets s1 xs sum lim low x s2 s3
  have hlf : s3.throttle.lowFrom = some f := by
    have h : (if low then some (s.throttle.lowFrom.getD s1.now) else none) = some f := by
      rw [if_pos (show low from hlow), hf]
      rfl
    exact h
  have hpn : s3.throttle.powerN = s.throttle.powerN := rfl
  have hnow : s3.now = Nat.max s.now at_ := rfl
  have hxs : s3.throttle.samples = (watts :: s.throttle.samples).take 100 := rfl
  clear_value s3
  have hon : ¬ (decide (sum > lim * xs.length) && decide (s3.throttle.powerN = 0)) = true := by simp [hpn, hn]
  have hoff : (decide (s3.throttle.powerN ≠ 0) && s3.throttle.lowFrom.any (fun t => t + 10 ^ 8 ≤ s3.now)) = true := by
    rw [hlf, hnow, hpn, Option.any_some]
    simp only [ne_eq, hn, not_false_eq_true, decide_true, Bool.true_and, hlong]
  rw [if_neg hon, if_pos hoff]
  exact ⟨rfl, hxs⟩

/-- What the start of a quarter's throttle leaves, from what the state holds as it engages. -/
theorem State.throttleOn_quarter {s u : State} {q : QuarterId} {device : Bool} {temp : Int} {p : PartId}
    (hn : SMap.getD 0 u.throttle.thermalN q = 1) (hp : u.throttle.powerN = s.throttle.powerN)
    (hrg : device = false → u.rg (Obj.QUARTER_TEMP q) = unsigned 32 temp) (hsl : (u.pt p).slice = (s.pt p).slice) :
    SMap.getD 0 u.throttleOn.throttle.thermalN q = 1 ∧ u.throttleOn.throttle.powerN = s.throttle.powerN ∧
      (device = false → u.throttleOn.rg (Obj.QUARTER_TEMP q) = unsigned 32 temp) ∧ CondFails p cfThermal s u.throttleOn := by
  obtain ⟨n, e⟩ := u.throttleOn_throttle
  have hne : Obj.QUARTER_TEMP q ≠ Obj.THROTTLE_STATE := okey_ne_of_index (by decide) (by omega) (by decide)
  refine ⟨by rw [e]; exact hn, by rw [e]; exact hp, fun hd => ?_, (u.condFails_throttleOn p).congr hsl.symm rfl⟩
  rw [State.rg_throttleOn u hne, hrg hd]

/-- A sensor at its threshold begins the throttle of its quarter. -/
theorem gives_thermalThrottle {at_ : Nat} {q : QuarterId} {device : Bool} {temp : Int} {s : State} (hup : s.power.up = true)
    (hn : SMap.getD 0 s.throttle.thermalN q = 0) (ht : if device then 95 ≤ temp else (s.rg Obj.THROTTLE_C : Int) ≤ temp) (p : PartId) :
    Gives (.thermalThrottle at_ q device temp) s fun t => SMap.getD 0 t.throttle.thermalN q = 1 ∧ t.throttle.powerN = s.throttle.powerN ∧
      (device = false → t.rg (Obj.QUARTER_TEMP q) = unsigned 32 temp) ∧ CondFails p cfThermal s t := by
  refine gives_of_takes (by unfold exec execThermalThrottle; rfl) ?_ ?_
  · cases device <;> simp_all
  extract_lets s1 s2
  have hp : s2.throttle.powerN = s.throttle.powerN ∧ (s2.pt p).slice = (s.pt p).slice := by
    unfold s2
    split <;> exact ⟨rfl, rfl⟩
  have hrg : device = false → s2.rg (Obj.QUARTER_TEMP q) = unsigned 32 temp := by
    rintro rfl
    refine (State.rg_setRg_bytes (objBytes_QUARTER_TEMP q) (by decide) s1 _).trans ?_
    exact Nat.mod_eq_of_lt (by unfold unsigned; omega)
  clear_value s2
  exact State.throttleOn_quarter (SMap.getD_ins_self ..) hp.1 hrg hp.2

/-- INLET_HIGH is raised once. -/
theorem gives_inletHigh {at_ altitude : Nat} {temp : Int} {s : State} (hup : s.power.up = true) (hold : s.throttle.inletTold = false)
    (hlim : inletLimit altitude < temp) :
    Gives (.inletHigh at_ temp altitude) s fun t => t.throttle.inletTold = true ∧ t.rg Obj.INLET_TEMP = unsigned 32 temp ∧
      t.throttle.powerN = s.throttle.powerN := by
  refine gives_of_takes (by unfold exec execInletHigh; rfl) (by simp [hup, hold, hlim]) ⟨rfl, ?_, rfl⟩
  dsimp only
  rw [State.rg_notify, State.rg_setRg_bytes (n := 4) (by decide) (by decide)]
  exact Nat.mod_eq_of_lt (by unfold unsigned; omega)

/-- A power throttle that persists steps. -/
theorem gives_throttleStep_power {at_ : Nat} {q : QuarterId} {s : State} (h0 : 0 < s.throttle.powerN) (h4 : s.throttle.powerN < 4)
    (hlong : s.throttle.powerStep + 10000000 ≤ at_) (hover : s.powerOver = true) :
    Gives (.throttleStep at_ q true) s fun t => t.throttle.powerN = s.throttle.powerN + 1 ∧ t.throttle.powerStep = Nat.max s.now at_ ∧
      t.throttle.thermalN = s.throttle.thermalN := by
  refine gives_of_takes (by unfold exec execThrottleStep; rfl) (by simp [h0, h4, hlong, hover]) ⟨rfl, rfl, rfl⟩

/-- A thermal throttle that persists steps. -/
theorem gives_throttleStep_thermal {at_ : Nat} {q : QuarterId} {s : State} (h0 : 0 < SMap.getD 0 s.throttle.thermalN q)
    (h4 : SMap.getD 0 s.throttle.thermalN q < 4) (hlong : SMap.getD 0 s.throttle.thermalStep q + 10000000 ≤ at_) :
    Gives (.throttleStep at_ q false) s fun t => SMap.getD 0 t.throttle.thermalN q = SMap.getD 0 s.throttle.thermalN q + 1 ∧
      t.throttle.powerN = s.throttle.powerN :=
  gives_of_takes (by unfold exec execThrottleStep; rfl) (by simp [h0, h4, hlong]) ⟨SMap.getD_ins_self .., rfl⟩

/-- 100 ms of cool sensors end a quarter's throttle, and no other. -/
theorem gives_throttleRelease {at_ cool : Nat} {q : QuarterId} {s : State} (hn : SMap.getD 0 s.throttle.thermalN q ≠ 0)
    (hlong : cool + 10 ^ 8 ≤ at_) :
    Gives (.throttleRelease at_ q cool) s fun t => SMap.getD 0 t.throttle.thermalN q = 0 ∧ t.throttle.powerN = s.throttle.powerN ∧
      ∀ k, k ≠ q.val → SMap.getD 0 t.throttle.thermalN k = SMap.getD 0 s.throttle.thermalN k :=
  gives_of_takes (by unfold exec execThrottleRelease; rfl) (by simpa [hn] using hlong)
    ⟨SMap.getD_del_self .., rfl, fun _ hk => SMap.getD_del_ne _ _ hk⟩

/-- Settles O58: each throttle command under its premise. -/
theorem throttleCommands : Obligations.ThrottleCommands := by
  unfold Obligations.ThrottleCommands
  intro at_ watts cool altitude q device temp p s xs n hit
  refine ⟨fun hup => ⟨fun ho hn => gives_powerSample_on hup ho hn p, fun f hl hn hf hlong => gives_powerSample_off hup hl hn hf hlong,
    fun hn ht => gives_thermalThrottle hup hn ht p, fun ho hl => gives_inletHigh hup ho hl⟩,
    fun h0 h4 hl ho => gives_throttleStep_power h0 h4 hl ho, fun h0 h4 hl => gives_throttleStep_thermal h0 h4 hl,
    fun hn hl => gives_throttleRelease hn hl⟩

end Sys2Proof.Machine

namespace Sys2Proof.Machine
open Sys2Proof

-- Short theorems, many of them: one after another, so that the threads' stacks stay within the check's memory.
set_option Elab.async false

/-! ## Fields of a layout -/

theorem Fld.testBit_get {n : Nat} (f : Fld) (x : BitVec n) (i : Nat) : (f.get x).testBit i = (decide (i < f.w) && x.getLsbD (f.lo + i)) := by
  simp [Fld.get, BitVec.testBit_toNat]

theorem Fld.getLsbD_set {n : Nat} (f : Fld) (x : BitVec n) (v i : Nat) : (f.set x v).getLsbD i =
    if f.lo ≤ i ∧ i < f.lo + f.w then decide (i < n) && v.testBit (i - f.lo) else x.getLsbD i := by
  simp only [Fld.set, BitVec.getLsbD_or, BitVec.getLsbD_and, BitVec.getLsbD_not, BitVec.getLsbD_ofNat, Nat.testBit_shiftLeft,
    Nat.testBit_two_pow_sub_one, Nat.testBit_mod_two_pow]
  by_cases hn : i < n
  · by_cases hlo : f.lo ≤ i
    · by_cases hw : i < f.lo + f.w
      · simp [hn, hlo, hw, show i - f.lo < f.w by omega]
      · simp [hn, hlo, hw, show ¬ i - f.lo < f.w by omega]
    · simp [hn, hlo]
  · simp [hn, BitVec.getLsbD_of_ge _ _ (Nat.le_of_not_lt hn)]

@[simp] theorem Fld.get_zero {n : Nat} (f : Fld) : f.get (0 : BitVec n) = 0 := by
  simp [Fld.get]

/-- A field that was written reads as the value, cut to its width. -/
theorem Fld.get_set_self {n : Nat} (f : Fld) (x : BitVec n) (v : Nat) (h : f.lo + f.w ≤ n := by decide) :
    f.get (f.set x v) = v % 2 ^ f.w := by
  refine Nat.eq_of_testBit_eq fun i => ?_
  rw [Fld.testBit_get, Fld.getLsbD_set, Nat.testBit_mod_two_pow]
  by_cases hi : i < f.w
  · rw [if_pos (by omega)]
    simp [hi, show f.lo + i < n by omega]
  · simp [hi]

/-- A field apart from the one written is as before. -/
theorem Fld.get_set_ne {n : Nat} {f g : Fld} (x : BitVec n) (v : Nat) (h : f.lo + f.w ≤ g.lo ∨ g.lo + g.w ≤ f.lo := by decide) :
    f.get (g.set x v) = f.get x := by
  refine Nat.eq_of_testBit_eq fun i => ?_
  rw [Fld.testBit_get, Fld.testBit_get, Fld.getLsbD_set]
  by_cases hi : i < f.w
  · rw [if_neg (by omega)]
  · simp [hi]

theorem State.streamE_setStream_self (s : State) (i : Nat) (e : Stream) : (s.setStream i e).streamE i = e := by
  simp [State.streamE, State.setStream]

theorem State.streamE_setStream_ne (s : State) {i j : Nat} (e : Stream) (h : j ≠ i) : (s.setStream i e).streamE j = s.streamE j :=
  SMap.getD_put_ne _ _ _ h

/-! ## What leaves on the ports (R343, R345, R357)

`Traffic s t` says what the frames that leave may change: the counters of sent frames, the transmitters, the progress of transmit
slots and the mirror traffic that waits. -/

/-- A register that no frame that leaves counts in. -/
def NotSent (k : Nat) : Prop := ∀ q, k ≠ Obj.TX_FRAMES q ∧ k ≠ Obj.RETX_FRAMES q

/-- A field of a stream entry that no frame that leaves counts in. -/
def Uncounted (f : Fld) : Prop :=
  ∀ g ∈ [Sm.txFrames, Sm.nullFrames, Sm.retxFrames], f.lo + f.w ≤ g.lo ∨ g.lo + g.w ≤ f.lo

/-- A slice but for the progress of its transmit slots: what their peers have acknowledged, and what receiving slots expect, stay. -/
def SliceRun.unsent (r : SliceRun) : SliceRun × (Nat → Nat × Nat × Nat) :=
  ({ r with io := [] }, fun n => ((r.slotIO n).acked, (r.slotIO n).expect, (r.slotIO n).nak))

/-- A partition but for what frames that leave change. -/
def Part.unsent (x : Part) : Part × Option (SliceRun × (Nat → Nat × Nat × Nat)) :=
  ({ x with slice := none, mirrorOut := [] }, x.slice.map SliceRun.unsent)

structure Traffic (s t : State) : Prop where
  changes : Changes [.txq, .out, .txFree, .regs, .regsButJenjo, .regsButStreams, .open_, .parts, .streams, .part .slice] s t
  rg : ∀ k, NotSent k → t.rg k = s.rg k
  streamE : ∀ i f, Uncounted f → f.get (t.streamE i) = f.get (s.streamE i)
  pt : ∀ p, (t.pt p).unsent = (s.pt p).unsent

section
variable {s t u : State}

theorem Traffic.refl (s : State) : Traffic s s := ⟨.refl, fun _ _ => rfl, fun _ _ _ => rfl, fun _ => rfl⟩

theorem Traffic.trans (h : Traffic s t) (h' : Traffic t u) : Traffic s u :=
  ⟨h.changes.trans h'.changes, fun k hk => (h'.rg k hk).trans (h.rg k hk), fun i f hf => (h'.streamE i f hf).trans (h.streamE i f hf),
    fun p => (h'.pt p).trans (h.pt p)⟩

theorem Traffic.ite {c : Prop} [Decidable c] (h : Traffic s t) (h' : Traffic s u) : Traffic s (if c then t else u) := by
  split
  · exact h
  · exact h'

theorem Traffic.foldl {α : Type} {f : State → α → State} (l : List α) (hf : ∀ u x, Traffic u (f u x)) : Traffic s (l.foldl f s) := by
  induction l generalizing s with
  | nil => exact .refl s
  | cons x l ih => exact (hf s x).trans ih

/-- What touches neither registers, streams nor partitions. -/
theorem Traffic.of_changes {F : List Aspect} (h : Changes F s t) (hr : t.regs = s.regs) (hst : t.streams = s.streams) (hp : t.parts = s.parts)
    (hF : F ⊆ [.txq, .out, .txFree, .regs, .regsButJenjo, .regsButStreams, .open_, .parts, .streams, .part .slice] := by decide) :
    Traffic s t :=
  ⟨h.mono hF, fun k _ => rg_of_regs hr k, fun i f _ => by rw [State.streamE, hst]; rfl, fun p => by rw [State.pt, hp]; rfl⟩

theorem traffic_emit (s : State) (x : Sent) : Traffic s (s.emit x) := .of_changes (State.changes_emit s x) rfl rfl rfl

theorem traffic_incRg (s : State) {k : Nat} (n : Nat) (hk : ∃ q, k = Obj.TX_FRAMES q ∨ k = Obj.RETX_FRAMES q) : Traffic s (s.incRg k n) := by
  refine ⟨(State.changes_incRg s k n).mono (by decide), fun j hj => State.rg_incRg_ne s n ?_, fun _ _ _ => rfl, fun _ => rfl⟩
  obtain ⟨q, rfl | rfl⟩ := hk
  · exact (hj q).1
  · exact (hj q).2

theorem traffic_count (s : State) (p kind num w n : Nat) : Traffic s (s.count p kind num w n) :=
  .of_changes (State.changes_count s p kind num w n) rfl rfl rfl

theorem traffic_sentOn (s : State) (port wire : Nat) : Traffic s (s.sentOn port wire) := by
  have h := traffic_incRg s 1 ⟨port, .inl rfl⟩
  unfold State.sentOn
  extract_lets u
  split
  · exact (h.trans (traffic_count ..)).trans (traffic_count ..)
  · exact h

theorem traffic_txFree (s : State) (v : SMap Nat) : Traffic s { s with txFree := v } := .of_changes (State.changes_txFree s v) rfl rfl rfl

theorem traffic_txq (s : State) (v : SMap (List TxItem)) : Traffic s { s with txq := v } := .of_changes (State.changes_txq s v) rfl rfl rfl

theorem traffic_txStart (s : State) (port wire t : Nat) : Traffic s (s.txStart port wire t) :=
  (traffic_txFree s _).trans (traffic_sentOn _ port wire)

theorem traffic_incStream (s : State) (i n : Nat) {f : Fld} (hf : f ∈ [Sm.txFrames, Sm.nullFrames, Sm.retxFrames]) :
    Traffic s (s.incStream i f n) := by
  refine ⟨(State.changes_incStream s i f n).mono (by decide), fun _ _ => rfl, fun j g hg => ?_, fun _ => rfl⟩
  by_cases hj : j = i
  · subst hj
    rw [State.incStream, State.setStreamFld, State.streamE_setStream_self, Fld.get_set_ne _ _ (hg f hf)]
  · rw [State.incStream, State.setStreamFld, State.streamE_setStream_ne _ _ hj]

/-- What changes of one partition only what frames that leave change. -/
theorem traffic_modPt (s : State) (p : Nat) (f : Part → Part) (hf : (f (s.pt p)).unsent = (s.pt p).unsent)
    (hc : Changes [.parts, .part .slice] s (s.modPt p f)) : Traffic s (s.modPt p f) := by
  refine ⟨hc.mono (by decide), fun _ _ => rfl, fun _ _ _ => rfl, fun q => ?_⟩
  by_cases hq : q = p
  · subst hq
    by_cases hlt : q < 12
    · rw [State.pt_modPt_self s hlt, hf]
    · rw [show (s.modPt q f).pt q = s.pt q by simp [State.modPt, State.pt, hlt]]
  · rw [State.pt_modPt_ne s hq]

theorem traffic_sendMirrors (s : State) (p : Nat) : Traffic s (s.sendMirrors p) :=
  (Traffic.foldl _ fun t x => traffic_emit t _).trans (traffic_modPt _ p _ rfl (State.changes_modPt _ _ [] |>.mono (by decide)))

theorem State.slice_of_running {s : State} {p b k : Nat} {r : SliceRun} (h : s.running p = some (b, k, r)) : (s.pt p).slice = some r := by
  obtain ⟨r', hr, e⟩ := Option.map_eq_some_iff.mp h
  simp only [Prod.mk.injEq] at e
  rw [hr, e.2.2]

/-- The progress of a transmit slot moves on. -/
theorem unsent_setSlotIO {x y : Part} {r : SliceRun} {n sent last got : Nat} (hr : y.slice = some r) (h : x.unsent = y.unsent) :
    (x.modSlice (fun r' => r'.setSlotIO n { r.slotIO n with sent := sent, last := last, got := got })).unsent = x.unsent := by
  obtain ⟨r', hx, he⟩ : ∃ r', x.slice = some r' ∧ r'.unsent = r.unsent := by
    have h2 : x.slice.map SliceRun.unsent = some r.unsent := (congrArg Prod.snd h).trans (by simp [Part.unsent, hr])
    exact Option.map_eq_some_iff.mp h2
  have hn := congrFun (congrArg Prod.snd he) n
  simp only [SliceRun.unsent, Prod.mk.injEq] at hn
  simp only [Part.unsent, Part.modSlice, hx, Option.map_some, Prod.mk.injEq, Option.some.injEq, true_and, SliceRun.unsent]
  refine ⟨rfl, funext fun m => ?_⟩
  by_cases hm : m = n
  · subst hm
    simp [SliceRun.setSlotIO, SliceRun.slotIO] at hn ⊢
    exact ⟨hn.1.symm, hn.2.1.symm, hn.2.2.symm⟩
  · simp [SliceRun.setSlotIO, SliceRun.slotIO, SMap.getD_put_ne _ _ _ hm]

theorem traffic_sendFrame {s : State} {p : Nat} {r : SliceRun} (hr : (s.pt p).slice = some r) (b k : Nat) (x : TxReady) (t : Nat) :
    Traffic s (s.sendFrame p b k r x t) := by
  unfold State.sendFrame
  extract_lets e st io run null total len again fl _ data s1 s2 s3 s4 s5
  have h1 : Traffic s s1 := (traffic_emit ..).trans (traffic_txStart ..)
  have h2 : Traffic s s2 := .ite (h1.trans (traffic_sendMirrors ..)) h1
  have h3 : Traffic s s3 := h2.trans (traffic_incStream _ _ _ (by simp))
  have h4 : Traffic s s4 := .ite (h3.trans (traffic_incStream _ _ _ (by simp))) h3
  have h5 : Traffic s s5 :=
    .ite (((h4.trans (traffic_incRg _ _ ⟨x.port, .inr rfl⟩)).trans (traffic_incStream _ _ _ (by simp))).trans (traffic_count ..)) h4
  exact h5.trans (traffic_modPt _ p _ (unsent_setSlotIO hr (h5.pt p)) (State.changes_modPt _ _ [.slice]))

theorem traffic_sendWaiting (s : State) (port t i : Nat) (w : TxItem) : Traffic s (s.sendWaiting port t i w) :=
  ((traffic_txq s _).trans (traffic_emit ..)).trans (traffic_txStart ..)

theorem traffic_sendSlot (s : State) (port t : Nat) (x : TxReady) : Traffic s (s.sendSlot port t x) := by
  unfold State.sendSlot
  split
  · exact .refl s
  · split
    · exact .refl s
    next h => exact traffic_sendFrame (State.slice_of_running h) ..

theorem traffic_pumpPort (port lo hi n : Nat) (s : State) : Traffic s (State.pumpPort port lo hi n s) := by
  induction n generalizing s with
  | zero => exact .refl s
  | succ n ih =>
    have waiting (t i w) : Traffic s (State.pumpPort port lo hi n (s.sendWaiting port t i w)) := (traffic_sendWaiting ..).trans (ih _)
    have slot (t x) : Traffic s (State.pumpPort port lo hi n (s.sendSlot port t x)) := (traffic_sendSlot ..).trans (ih _)
    unfold State.pumpPort
    refine .ite (.refl s) ?_
    split
    · exact .refl s
    · exact .ite (waiting ..) (.refl s)
    · exact .ite (slot ..) (.refl s)
    · exact .ite (.ite (slot ..) (.refl s)) (.ite (waiting ..) (.refl s))

theorem traffic_pumpOne (s : State) (port lo : Nat) : Traffic s (s.pumpOne port lo) := traffic_pumpPort ..

theorem traffic_pump (s : State) (p lo : Nat) : Traffic s (s.pump p lo) := .foldl _ fun t q => traffic_pumpOne t q lo

theorem traffic_resumeSending (s : State) (p : Nat) : Traffic s (s.resumeSending p) := traffic_pump ..

theorem traffic_advanceTo (s : State) (p t : Nat) : Traffic (s.at t) (s.advanceTo p t) := (traffic_pumpOne ..).trans (traffic_pump ..)

theorem traffic_portTime (s : State) (port at_ : Nat) : Traffic (s.at at_) (s.portTime port at_) := by
  unfold State.portTime
  split
  · exact traffic_advanceTo ..
  · exact traffic_pumpOne ..

theorem traffic_resumePort (s : State) (port : Nat) : Traffic s (s.resumePort port) := by
  unfold State.resumePort
  split
  · exact traffic_resumeSending ..
  · exact traffic_pumpOne ..

theorem traffic_send (s : State) (port cls prio wire : Nat) (x : Sent) : Traffic s (s.send port cls prio wire x) :=
  (traffic_txq s _).trans (traffic_pumpOne ..)

theorem traffic_sendStatus (s : State) (p job : Nat) (f : StatusFrame) : Traffic s (s.sendStatus p job f) :=
  .foldl _ fun _ _ => traffic_send ..

/-! ### What is read off -/

/-- The slice of a partition is there after frames have left, the same but for the progress of its transmit slots. -/
theorem Traffic.slice (h : Traffic s t) (p : Nat) : (t.pt p).slice.map SliceRun.unsent = (s.pt p).slice.map SliceRun.unsent :=
  congrArg Prod.snd (h.pt p)

/-- The rest of a partition, but for the mirror traffic that waits, is as before. -/
theorem Traffic.rest (h : Traffic s t) (p : Nat) :
    { t.pt p with slice := none, mirrorOut := [] } = { s.pt p with slice := none, mirrorOut := [] } := congrArg Prod.fst (h.pt p)

theorem Traffic.slice_some (h : Traffic s t) {p : Nat} {r : SliceRun} (hr : (s.pt p).slice = some r) :
    ∃ r', (t.pt p).slice = some r' ∧ r'.unsent = r.unsent :=
  Option.map_eq_some_iff.mp ((h.slice p).trans (by rw [hr]; rfl))

/-- A condition that has failed stays so while frames leave. -/
theorem CondFails.traffic {p : PartId} {b : Nat} (h : CondFails p b s t) (h' : Traffic t u) : CondFails p b s u := by
  intro r hr
  obtain ⟨r1, h1, hb⟩ := h r hr
  obtain ⟨r2, h2, he⟩ := h'.slice_some h1
  have hc : r2.cond = r1.cond := congrArg (fun x => x.1.cond) he
  exact ⟨r2, h2, hc ▸ hb⟩

end

end Sys2Proof.Machine

namespace Sys2Proof.Machine
open Sys2Proof

-- Short theorems, many of them: one after another, so that the threads' stacks stay within the check's memory.
set_option Elab.async false

/-! ## Link state and streams (R334, R361) -/

section
variable {s t : State}

theorem objBytes_linkKey (port : PortId) : objBytes (linkKey port) = some 1 := by
  revert port
  decide +kernel

theorem objBytes_LINK_DOWNS (port : PortId) : objBytes (Obj.LINK_DOWNS port) = some 4 := by
  revert port
  decide +kernel

theorem notSent_linkKey (port : Nat) : NotSent (linkKey port) := by
  intro q
  unfold linkKey
  split <;> simp only [Obj.LINK_STATE, Obj.HOST_LINK_STATE, Obj.TX_FRAMES, Obj.RETX_FRAMES, okey] <;> omega

theorem notSent_LINK_DOWNS (port : Nat) : NotSent (Obj.LINK_DOWNS port) :=
  fun _ => ⟨okey_ne_of_sub (by decide), okey_ne_of_sub (by decide)⟩

theorem linkKey_ne_LINK_DOWNS (port q : Nat) : linkKey port ≠ Obj.LINK_DOWNS q := by
  unfold linkKey
  split <;> exact okey_ne_of_sub (by decide)

theorem State.linkState_setRg {port : PortId} {v : Nat} (hv : v < 256) : (s.setRg (linkKey port) v).linkState port = v :=
  (State.rg_setRg_bytes (objBytes_linkKey port) (by decide) s v).trans (Nat.mod_eq_of_lt hv)

theorem Traffic.linkState (h : Traffic s t) (port : Nat) : t.linkState port = s.linkState port := h.rg _ (notSent_linkKey port)

theorem Traffic.linkIsUp (h : Traffic s t) (port : Nat) : t.linkIsUp port = s.linkIsUp port := by
  unfold State.linkIsUp
  rw [h.linkState]

theorem State.portUp_congr (h : t.regs = s.regs) : t.portUp = s.portUp := by
  funext q
  unfold State.portUp
  rw [rg_of_regs h]

theorem State.chooseActive_congr (h : t.regs = s.regs) (e : Stream) : t.chooseActive e = s.chooseActive e := by
  unfold State.chooseActive
  rw [State.portUp_congr h]

theorem State.failoverTo_congr (h : t.regs = s.regs) (e : Stream) : t.failoverTo e = s.failoverTo e := by
  unfold State.failoverTo
  rw [State.portUp_congr h, State.chooseActive_congr h]

/-- The ports of a stream with their places, none of which is 0xFF, and no two alike. -/
theorem Stream.ports_places (e : Stream) : ((Stream.ports e).map (·.1)).Nodup ∧ ∀ k ∈ Stream.ports e, k.1 < 4 := by
  have hmap : (Stream.ports e).map (·.1) = 0 :: [1, 2, 3].filter (fun k => ((Sm.alternate k).get e).testBit 7) := by
    simp [Stream.ports, List.map_map, Function.comp_def]
  constructor
  · rw [hmap, List.nodup_cons]
    exact ⟨by simp, (by decide : [1, 2, 3].Nodup).filter _⟩
  · intro k hk
    have h : k.1 ∈ (Stream.ports e).map (·.1) := List.mem_map_of_mem hk
    rw [hmap] at h
    simp only [List.mem_cons, List.mem_filter, List.not_mem_nil, or_false] at h
    omega

/-- The port at a place of a stream. -/
theorem Stream.current_of_active {e : Stream} {c : Nat × Bool} {k : Nat × Nat × Bool} (hk : k ∈ Stream.ports e)
    (ha : Sm.active.get e = k.1) (hc : Stream.current e = some c) : c = k.2 := by
  unfold Stream.current at hc
  split at hc
  next x hx =>
    have hx1 : x.1 = k.1 := by simpa [ha] using List.find?_some hx
    have he : x = k := List.inj_on_of_nodup_map (Stream.ports_places e).1 (List.mem_of_find?_eq_some hx) hk hx1
    rw [← Option.some.inj hc, he]
  next => exact absurd hc nofun

/-- Where a stream moves to is a place of its own whose port is up, or 0xFF for none. -/
theorem State.failoverTo_cases (s : State) (e : Stream) :
    s.failoverTo e = 0xFF ∨ ∃ k ∈ Stream.ports e, s.failoverTo e = k.1 ∧ s.portUp k.2.1 = true := by
  unfold State.failoverTo
  split
  next k hk =>
    exact .inr ⟨k, (List.mem_filter.mp (List.mem_of_find?_eq_some hk)).1, rfl, by simpa using List.find?_some hk⟩
  next =>
    unfold State.chooseActive
    split
    next k hk => exact .inr ⟨k, List.mem_of_find?_eq_some hk, rfl, by simpa using List.find?_some hk⟩
    next => exact .inl rfl

/-- A stream that keeps to a port that is up, or to none. -/
def Stream.OnUpPort (s : State) (e : Stream) : Prop := ∀ c, Stream.current e = some c → s.portUp c.1 = true

theorem Stream.ports_congr {e f : Stream} (hp : Sm.primary.get f = Sm.primary.get e)
    (ha : ∀ k ∈ [1, 2, 3], (Sm.alternate k).get f = (Sm.alternate k).get e) : Stream.ports f = Stream.ports e := by
  have h1 := ha 1 (by simp)
  have h2 := ha 2 (by simp)
  have h3 := ha 3 (by simp)
  simp only [Stream.ports, List.filter_cons, List.filter_nil, hp, h1, h2, h3]
  split <;> split <;> split <;> simp [h1, h2, h3]

theorem State.streamE_incStream_self (s : State) (i n : Nat) (f : Fld) :
    (s.incStream i f n).streamE i = f.set (s.streamE i) (f.get (s.streamE i) + n) := State.streamE_setStream_self ..

theorem State.streamE_rewindStream (s : State) (p i j : Nat) : (s.rewindStream p i).streamE j = s.streamE j := by
  unfold State.streamE
  rw [(State.changes_rewindStream s p i).kept .streams]

/-- A stream that moves has its new place, and one move more. -/
theorem State.streamE_moveStream (s : State) (i a : Nat) : ∃ e, (s.moveStream i a).streamE i = e ∧
    (e = Sm.active.set (s.streamE i) a ∨
      e = Sm.failovers.set (Sm.active.set (s.streamE i) a) (Sm.failovers.get (Sm.active.set (s.streamE i) a) + 1)) := by
  unfold State.moveStream
  extract_lets e u v
  have hu : u.streamE i = Sm.active.set (s.streamE i) a := State.streamE_setStream_self ..
  refine ⟨_, State.streamE_rewindStream .., ?_⟩
  by_cases ha : a = 0xFF
  · exact .inl ((congrArg (State.streamE · i) (if_pos ha)).trans hu)
  · refine .inr ((congrArg (State.streamE · i) (if_neg ha)).trans ?_)
    rw [State.streamE_incStream_self, hu]

theorem State.streamE_moveStream_ne (s : State) {i j : Nat} (a : Nat) (h : j ≠ i) : (s.moveStream i a).streamE j = s.streamE j := by
  unfold State.moveStream
  extract_lets e u v
  have hu : u.streamE j = s.streamE j := State.streamE_setStream_ne s _ h
  rw [State.streamE_rewindStream]
  unfold v
  split
  · exact hu
  · rw [State.incStream, State.setStreamFld, State.streamE_setStream_ne _ _ h, hu]

/-- The fields of a stream that has moved, but for its place and the count of its moves. -/
theorem State.get_moveStream (s : State) (i a : Nat) {f : Fld}
    (hf : ∀ g ∈ [Sm.active, Sm.failovers], f.lo + f.w ≤ g.lo ∨ g.lo + g.w ≤ f.lo) :
    f.get ((s.moveStream i a).streamE i) = f.get (s.streamE i) := by
  obtain ⟨e, he, rfl | rfl⟩ := s.streamE_moveStream i a
  · rw [he, Fld.get_set_ne _ _ (hf _ (by simp))]
  · rw [he, Fld.get_set_ne _ _ (hf _ (by simp)), Fld.get_set_ne _ _ (hf _ (by simp))]

theorem State.active_moveStream (s : State) (i a : Nat) : Sm.active.get ((s.moveStream i a).streamE i) = a % 256 := by
  obtain ⟨e, he, rfl | rfl⟩ := s.streamE_moveStream i a
  · rw [he, Fld.get_set_self Sm.active]
    rfl
  · rw [he, Fld.get_set_ne _ _, Fld.get_set_self Sm.active]
    rfl

theorem State.ports_moveStream (s : State) (i a : Nat) :
    Stream.ports ((s.moveStream i a).streamE i) = Stream.ports (s.streamE i) :=
  Stream.ports_congr (s.get_moveStream i a (by decide)) (by
    intro k hk
    simp only [List.mem_cons, List.not_mem_nil, or_false] at hk
    obtain rfl | rfl | rfl := hk <;> exact s.get_moveStream i a (by decide))

/-- A stream that moves to where a failover takes it is on a port that is up, or on none. -/
theorem State.onUpPort_moveStream (s : State) (i : Nat) :
    Stream.OnUpPort s ((s.moveStream i (s.failoverTo (s.streamE i))).streamE i) := by
  intro c hc
  have hports := s.ports_moveStream i (s.failoverTo (s.streamE i))
  have hactive := s.active_moveStream i (s.failoverTo (s.streamE i))
  obtain h | ⟨k, hk, ha, hup⟩ := s.failoverTo_cases (s.streamE i)
  · rw [h] at hc hports hactive
    unfold Stream.current at hc
    split at hc
    next k hk =>
      have h4 := (Stream.ports_places _).2 k (List.mem_of_find?_eq_some hk)
      have h255 : k.1 = Sm.active.get ((s.moveStream i 0xFF).streamE i) := by simpa using List.find?_some hk
      omega
    next => exact absurd hc nofun
  · have hlt := (Stream.ports_places _).2 k hk
    rw [Stream.current_of_active (hports ▸ hk) (by rw [hactive, ha]; omega) hc]
    exact hup

theorem State.regs_moveStream (s : State) (i a : Nat) : (s.moveStream i a).regs = s.regs := (State.changes_moveStream s i a).kept .regs

theorem Stream.onUpPort_congr (h : t.regs = s.regs) (e : Stream) : Stream.OnUpPort t e ↔ Stream.OnUpPort s e := by
  unfold Stream.OnUpPort
  rw [State.portUp_congr h]

/-- Streams of a list moved one after another, each to where a failover takes it: those of the list are on ports that are up, or on
none, and the others are as before. -/
theorem State.onUpPort_foldl (l : List (Nat × Stream)) (s : State) (i : Nat)
    (h : i ∈ l.map (·.1) ∨ Stream.OnUpPort s (s.streamE i)) :
    Stream.OnUpPort s ((l.foldl (fun t kv => t.moveStream kv.1 (t.failoverTo (t.streamE kv.1))) s).streamE i) := by
  induction l generalizing s with
  | nil => simpa using h
  | cons kv l ih =>
    have hup := Stream.onUpPort_congr (s.regs_moveStream kv.1 (s.failoverTo (s.streamE kv.1)))
    refine (hup _).1 (ih _ ?_)
    rw [hup]
    by_cases hi : i = kv.1
    · rw [hi]
      exact .inr (s.onUpPort_moveStream kv.1)
    · rw [s.streamE_moveStream_ne _ hi]
      rcases h with h | h
      · exact .inl ((List.mem_cons.mp h).resolve_left hi)
      · exact .inr h

theorem SMap.mem_of_get? {α : Type} {m : SMap α} {k : Nat} {v : α} (h : SMap.get? m k = some v) : (k, v) ∈ m := by
  induction m with
  | nil => exact absurd h nofun
  | cons kv m ih =>
    simp only [SMap.get?] at h
    split at h
    next hk => exact List.mem_cons.mpr (.inl (by rw [← hk, ← Option.some.inj h]))
    next => exact List.mem_cons_of_mem _ (ih h)

/-- An entry that is not empty stands in the table. -/
theorem State.mem_streams {s : State} {i : Nat} (h : s.streamE i ≠ 0) : (i, s.streamE i) ∈ s.streams := by
  unfold State.streamE SMap.getD at h ⊢
  cases e : SMap.get? s.streams i with
  | none => simp [e] at h
  | some v => exact SMap.mem_of_get? e

theorem State.streamE_failover_ne (l : List (Nat × Stream)) (s : State) {i : Nat} (h : i ∉ l.map (·.1)) :
    (l.foldl (fun t kv => t.moveStream kv.1 (t.failoverTo (t.streamE kv.1))) s).streamE i = s.streamE i := by
  induction l generalizing s with
  | nil => rfl
  | cons kv l ih =>
    simp only [List.map_cons, List.mem_cons, not_or] at h
    exact (ih _ h.2).trans (s.streamE_moveStream_ne _ h.1)

/-- Streams on a port that is down move away from it. -/
theorem State.foldl_leaves {s : State} {i : Nat} {c : Nat × Bool} {q : Nat × Stream → Bool} (hdown : s.portUp c.1 = false)
    (hq : ∀ i e, Sm.enable.get e = 1 → Stream.current e = some c → q (i, e) = true)
    (hen : Sm.enable.get (((s.streams.filter q).foldl (fun t kv => t.moveStream kv.1 (t.failoverTo (t.streamE kv.1))) s).streamE i) = 1) :
    Stream.current (((s.streams.filter q).foldl (fun t kv => t.moveStream kv.1 (t.failoverTo (t.streamE kv.1))) s).streamE i) ≠ some c := by
  intro hc
  by_cases hi : i ∈ (s.streams.filter q).map (·.1)
  · have hup := State.onUpPort_foldl _ s i (.inl hi) c hc
    rw [hdown] at hup
    exact absurd hup nofun
  · rw [State.streamE_failover_ne _ s hi] at hen hc
    refine hi (List.mem_map.mpr ⟨(i, s.streamE i), List.mem_filter.mpr ⟨State.mem_streams ?_, hq _ _ hen hc⟩, rfl⟩)
    intro h
    rw [h, Fld.get_zero] at hen
    exact absurd hen nofun

/-- After a failover no enabled stream is on the port that went down. -/
theorem State.failover_leaves {s : State} {port i : Nat} {c : Nat × Bool} (hdown : s.portUp port = false)
    (hen : Sm.enable.get ((s.failover port).streamE i) = 1) (hc : Stream.current ((s.failover port).streamE i) = some c) : c.1 ≠ port := by
  rintro rfl
  exact State.foldl_leaves hdown (fun _ _ h1 h2 => by simp [h1, h2]) hen hc

end

end Sys2Proof.Machine

namespace Sys2Proof.Machine
open Sys2Proof

-- Short theorems, many of them: one after another, so that the threads' stacks stay within the check's memory.
set_option Elab.async false

/-! ## PORT_UP, PORT_DOWN, ADAPT and FAILBACK (R334, R335, R361, R362) -/

section
variable {s : State}

theorem State.linkState_of_regs {s t : State} (h : t.regs = s.regs) (port : Nat) : t.linkState port = s.linkState port := rg_of_regs h _

theorem State.regs_failsOnPort (s : State) (port b : Nat) : (s.failsOnPort port b).regs = s.regs := (State.changes_failsOnPort s port b).kept .regs

theorem State.regs_failover (s : State) (port : Nat) : (s.failover port).regs = s.regs := (State.changes_failover s port).kept .regs

theorem State.regs_rejoin (s : State) : s.rejoin.regs = s.regs := (State.changes_rejoin s).kept .regs

/-- What a port that leaves UP has done before its streams move. -/
def State.portDrops (s : State) (port st : Nat) : State :=
  let s := s.failsOnPort port cfLink
  let s := ((s.setRg (linkKey port) st).incRg (Obj.LINK_DOWNS port) 1).notify 0x0020 ((s.ownerOfPort port).getD 0xFF) port 0
  { s with txq := SMap.del s.txq port }

/-- Its streams move, and what may start now starts. -/
def State.streamsLeave (s : State) (port : Nat) : State :=
  if port < 64 then
    let s := s.failover port
    match s.ownerOfPort port with
    | some p => s.resumeSending p
    | none => s
  else s

theorem State.portLeaves_up {port : Nat} (st : Nat) (h : s.linkIsUp port = true) :
    s.portLeaves port st = (s.portDrops port st).streamsLeave port := by
  unfold State.portLeaves State.streamsLeave State.portDrops
  refine (if_pos h).trans ?_
  generalize s.failsOnPort port cfLink = u
  rfl

theorem State.portLeaves_down {port : Nat} (st : Nat) (h : s.linkIsUp port = false) : s.portLeaves port st = s.setRg (linkKey port) st := by
  unfold State.portLeaves
  rw [if_neg (by simp [h])]

theorem State.rg_portDrops (s : State) (port st k : Nat) :
    (s.portDrops port st).rg k = ((s.setRg (linkKey port) st).incRg (Obj.LINK_DOWNS port) 1).rg k := by
  have e (t : State) (h : t.regs = s.regs) : ((t.setRg (linkKey port) st).incRg (Obj.LINK_DOWNS port) 1).rg k =
      ((s.setRg (linkKey port) st).incRg (Obj.LINK_DOWNS port) 1).rg k := by
    refine rg_of_regs ?_ k
    simp only [State.incRg, State.setRg, State.rg, h]
  have h := s.regs_failsOnPort port cfLink
  unfold State.portDrops
  generalize s.failsOnPort port cfLink = u at h ⊢
  exact e u h

theorem State.linkState_portDrops (s : State) {port : PortId} {st : Nat} (h : st < 256) : (s.portDrops port st).linkState port = st := by
  rw [State.linkState, State.rg_portDrops, State.rg_incRg_ne _ _ (linkKey_ne_LINK_DOWNS _ _)]
  exact State.linkState_setRg h

theorem State.linkDowns_portDrops (s : State) (port : PortId) (st : Nat) :
    (s.portDrops port st).rg (Obj.LINK_DOWNS port) = (s.rg (Obj.LINK_DOWNS port) + 1) % 2 ^ 32 := by
  rw [State.rg_portDrops, State.rg_incRg_bytes (objBytes_LINK_DOWNS port) (by decide), State.rg_setRg_ne _ _ (linkKey_ne_LINK_DOWNS _ _).symm]

/-- The streams that leave a port change no register but the counters of sent frames. -/
theorem State.rg_streamsLeave (s : State) (port : Nat) {k : Nat} (hk : NotSent k) : (s.streamsLeave port).rg k = s.rg k := by
  have h := rg_of_regs (s.regs_failover port) k
  unfold State.streamsLeave
  split
  · dsimp only
    split
    · exact ((traffic_resumeSending ..).rg k hk).trans h
    · exact h
  · rfl

theorem Traffic.current {s t : State} (h : Traffic s t) (i : Nat) : Stream.current (t.streamE i) = Stream.current (s.streamE i) := by
  unfold Stream.current
  rw [Stream.ports_congr (h.streamE i Sm.primary (by unfold Uncounted; decide)) fun k hk => h.streamE i _ ?_, h.streamE i Sm.active (by unfold Uncounted; decide)]
  simp only [List.mem_cons, List.not_mem_nil, or_false] at hk
  unfold Uncounted
  obtain rfl | rfl | rfl := hk <;> decide

/-- No enabled stream stays on a fabric port that has gone down. -/
theorem State.streamsLeave_current {port i : Nat} {c : Nat × Bool} (hlt : port < 64) (hdown : s.portUp port = false)
    (hen : Sm.enable.get ((s.streamsLeave port).streamE i) = 1) (hc : Stream.current ((s.streamsLeave port).streamE i) = some c) :
    c.1 ≠ port := by
  unfold State.streamsLeave at hen hc
  rw [if_pos hlt] at hen hc
  dsimp only at hen hc
  cases e : (s.failover port).ownerOfPort port with
  | some p =>
    rw [e] at hen hc
    have ht := traffic_resumeSending (s.failover port) p
    rw [ht.streamE i Sm.enable (by unfold Uncounted; decide)] at hen
    rw [ht.current i] at hc
    exact State.failover_leaves hdown hen hc
  | none =>
    rw [e] at hen hc
    exact State.failover_leaves hdown hen hc

theorem State.portUp_eq_linkIsUp {port : Nat} (h : port < 64) : s.portUp port = s.linkIsUp port := by
  simp [State.portUp, State.linkIsUp, State.linkState, linkKey, h]

/-- PORT_UP: the port is up from the instant on. -/
theorem gives_portUp {port : PortId} {at_ : Nat} (hadmin : s.adminOn port = true) (hup : s.linkIsUp port = false) :
    Gives (.portUp port at_) s fun t => t.linkState port = linkUp ∧ t.now = Nat.max s.now at_ ∧
      SMap.get? t.upSince port = some t.now ∧ t.rg (Obj.LINK_DOWNS port) = s.rg (Obj.LINK_DOWNS port) := by
  refine gives_of_takes (by unfold exec execPortUp; rfl) (by simp [hadmin, hup]) ?_
  extract_lets s1 s2 s3 s4
  have ht := traffic_portTime s port at_
  have hnow : s3.now = Nat.max s.now at_ := ht.changes.kept .now
  have hsince : SMap.get? s3.upSince port = some s3.now := SMap.get?_ins_self ..
  have hlink : s3.linkState port = linkUp := State.linkState_setRg (by decide)
  have hdowns : s3.rg (Obj.LINK_DOWNS port) = s.rg (Obj.LINK_DOWNS port) :=
    (State.rg_setRg_ne _ _ (linkKey_ne_LINK_DOWNS _ _).symm).trans (ht.rg _ (notSent_LINK_DOWNS port))
  clear_value s3
  have h4 : s4.now = s3.now ∧ s4.upSince = s3.upSince ∧ s4.regs = s3.regs :=
    ⟨(State.changes_rejoin _).kept .now, (State.changes_rejoin _).kept .upSince, s3.regs_rejoin⟩
  clear_value s4
  obtain ⟨hn, hs, hr⟩ := h4
  split
  · split
    next p _ =>
      have hp := traffic_resumeSending s4 p
      rw [hp.linkState, hp.changes.kept .now, hp.changes.kept .upSince, hp.rg _ (notSent_LINK_DOWNS port), State.linkState_of_regs hr, hn, hs,
        rg_of_regs hr]
      exact ⟨hlink, hnow, hsince, hdowns⟩
    next =>
      rw [State.linkState_of_regs hr, hn, hs, rg_of_regs hr]
      exact ⟨hlink, hnow, hsince, hdowns⟩
  · exact ⟨hlink, hnow, hsince, hdowns⟩

/-- PORT_DOWN of a port that is up: it counts, and its streams leave it. -/
theorem gives_portDown_up {port : PortId} {at_ : Nat} (hup : s.linkIsUp port = true) :
    Gives (.portDown port at_) s fun t => t.linkState port = linkDown ∧
      t.rg (Obj.LINK_DOWNS port) = (s.rg (Obj.LINK_DOWNS port) + 1) % 2 ^ 32 ∧
      (port.val < 64 → ∀ i c, Sm.enable.get (t.streamE i) = 1 → Stream.current (t.streamE i) = some c → c.1 ≠ port.val) := by
  have h2 : s.linkState port = linkUp := eq_of_beq hup
  refine gives_of_takes (by unfold exec execPortDown; rfl) (by simp [h2]) ?_
  have ht := traffic_portTime s port at_
  rw [State.portLeaves_up _ ((ht.linkIsUp port).trans hup)]
  have hlink := (s.portTime port at_).linkState_portDrops (port := port) (st := linkDown) (by decide)
  refine ⟨(State.rg_streamsLeave _ _ (notSent_linkKey port)).trans hlink, ?_, fun hlt i c hen hc => ?_⟩
  · rw [State.rg_streamsLeave _ _ (notSent_LINK_DOWNS port), State.linkDowns_portDrops, ht.rg _ (notSent_LINK_DOWNS port)]
    rfl
  · refine State.streamsLeave_current hlt ?_ hen hc
    rw [State.portUp_eq_linkIsUp hlt, State.linkIsUp, hlink]
    rfl

/-- PORT_DOWN of a port in training or adaptation counts nothing and moves no stream. -/
theorem gives_portDown_training {port : PortId} {at_ : Nat} (hd : s.linkState port ≠ linkDown) (hdis : s.linkState port ≠ linkDisabled)
    (hup : s.linkState port ≠ linkUp) :
    Gives (.portDown port at_) s fun t => t.linkState port = linkDown ∧ t.rg (Obj.LINK_DOWNS port) = s.rg (Obj.LINK_DOWNS port) ∧
      ∀ i, Sm.active.get (t.streamE i) = Sm.active.get (s.streamE i) := by
  refine gives_of_takes (by unfold exec execPortDown; rfl) (by simp [hd, hdis]) ?_
  have ht := traffic_portTime s port at_
  rw [State.portLeaves_down _ (by rw [ht.linkIsUp port]; exact beq_false_of_ne hup)]
  refine ⟨State.linkState_setRg (by decide), ?_, fun i => ht.streamE i _ (by unfold Uncounted; decide)⟩
  rw [State.rg_setRg_ne _ _ (linkKey_ne_LINK_DOWNS _ _).symm]
  exact ht.rg _ (notSent_LINK_DOWNS port)

/-- ADAPT puts a fabric port into adaptation, counted where it was up. -/
theorem gives_adapt {port : PortId} {sess : Nat} (hlt : port.val < 64) (hmay : s.mayWrite sess (Obj.ADAPT port) 1 = true) :
    Gives (.adapt sess port) s fun t => t.linkState port = linkAdapting ∧
      t.rg (Obj.LINK_DOWNS port) = (if s.linkIsUp port then (s.rg (Obj.LINK_DOWNS port) + 1) % 2 ^ 32 else s.rg (Obj.LINK_DOWNS port)) := by
  refine gives_of_takes (by unfold exec execAdapt; rfl) (by simp [hlt, hmay]) ?_
  have hr := s.regs_failsOnPort port cfMaint
  have hl : (s.failsOnPort port cfMaint).linkIsUp port = s.linkIsUp port := by
    simp [State.linkIsUp, State.linkState_of_regs hr]
  have e : (s.adapt port 1).1 = (s.failsOnPort port cfMaint).portLeaves port linkAdapting := by
    unfold State.adapt
    rw [if_neg (by simp)]
  rw [e]
  split
  next h =>
    rw [State.portLeaves_up _ (hl.trans h), State.rg_streamsLeave _ _ (notSent_LINK_DOWNS port), State.linkDowns_portDrops, rg_of_regs hr]
    exact ⟨(State.rg_streamsLeave _ _ (notSent_linkKey port)).trans (State.linkState_portDrops _ (by decide)), rfl⟩
  next h =>
    rw [State.portLeaves_down _ (hl.trans (Bool.eq_false_iff.mpr h)), State.rg_setRg_ne _ _ (linkKey_ne_LINK_DOWNS _ _).symm, rg_of_regs hr]
    exact ⟨State.linkState_setRg (by decide), rfl⟩

/-- FAILBACK at a tick edge of its partition puts a stream back on its primary, and touches no other. -/
theorem gives_failback {stream : Nat} (hen : Sm.enable.get (s.streamE stream) = 1) (hact : Sm.active.get (s.streamE stream) ≠ 0)
    (hup : s.portUp (Sm.primary.get (s.streamE stream)) = true) (hbegun : (s.pt (Sm.partition.get (s.streamE stream))).gen.begun = true)
    (hedge : s.now = (s.pt (Sm.partition.get (s.streamE stream))).edgeNs)
    (hlong : SMap.getD 0 s.upSince (Sm.primary.get (s.streamE stream)) + 1000000 * s.rg Obj.FAILBACK_MS ≤ s.now) :
    Gives (.failback stream) s fun t => Sm.active.get (t.streamE stream) = 0 ∧
      Sm.primary.get (t.streamE stream) = Sm.primary.get (s.streamE stream) ∧
      (∀ i, i ≠ stream → t.streamE i = s.streamE i) ∧ t.regs = s.regs ∧ t.parts = s.parts := by
  refine gives_of_takes (by unfold exec execFailback; rfl) ?_ ⟨?_, ?_, fun i hi => State.streamE_setStream_ne s _ hi, rfl, rfl⟩
  · rw [← hedge]
    simp [hen, hact, hup, hbegun, hlong]
  · rw [State.setStreamFld, State.streamE_setStream_self, Fld.get_set_self Sm.active]
    rfl
  · rw [State.setStreamFld, State.streamE_setStream_self, Fld.get_set_ne]

/-- Settles O30: each command of the link state under its premise; frames that leave meanwhile touch no link state. -/
theorem linkStateCommands : Obligations.LinkStateCommands := by
  unfold Obligations.LinkStateCommands
  intro port at_ sess stream s
  exact ⟨gives_portUp, gives_portDown_up, gives_portDown_training, gives_adapt, gives_failback⟩

end

end Sys2Proof.Machine

namespace Sys2Proof.Machine
open Sys2Proof

-- Short theorems, many of them: one after another, so that the threads' stacks stay within the check's memory.
set_option Elab.async false

/-! ## FEC and pause (R339 to R341) -/

section
variable {s : State}

theorem objBytes_FEC_CORRECTED (port : PortId) : objBytes (Obj.FEC_CORRECTED port) = some 8 := by
  revert port
  decide +kernel

theorem objBytes_FEC_UNCORRECTABLE (port : PortId) : objBytes (Obj.FEC_UNCORRECTABLE port) = some 8 := by
  revert port
  decide +kernel

theorem objBytes_PAUSE_RX (port : PortId) : objBytes (Obj.PAUSE_RX port) = some 8 := by
  revert port
  decide +kernel

theorem objBytes_PAUSE_NS (port : PortId) : objBytes (Obj.PAUSE_NS port) = some 8 := by
  revert port
  decide +kernel

theorem notSent_of_sub {i a : Nat} (h1 : a % 256 ≠ 1 := by decide) (h2 : a % 256 ≠ 0x0B := by decide) : NotSent (okey i a) :=
  fun _ => ⟨okey_ne_of_sub (by omega), okey_ne_of_sub (by omega)⟩

/-- The slice of the port's partition has failed LINK. -/
theorem condFails_ownerLinkFails {port : Nat} {p : PartId} (h : s.ownerOfPort port = some p.val) :
    CondFails p cfLink s (s.ownerLinkFails port) := by
  unfold State.ownerLinkFails
  rw [h]
  exact condFails_fails s p cfLink

theorem State.regs_ownerLinkFails (s : State) (port : Nat) : (s.ownerLinkFails port).regs = s.regs := (State.changes_ownerLinkFails s port).kept .regs

theorem State.regs_discarded (s : State) (port : Nat) : (s.discarded port).regs = s.regs := by
  unfold State.discarded
  split <;> rfl

theorem State.parts_discarded (s : State) (port : Nat) : (s.discarded port).parts = s.parts := by
  unfold State.discarded
  split <;> rfl

theorem State.ownerOfPort_congr {s t : State} (h : t.parts = s.parts) (port : Nat) : t.ownerOfPort port = s.ownerOfPort port := by
  unfold State.ownerOfPort State.ownerBy State.pt
  rw [h]

/-- Corrected codewords count alone. -/
theorem gives_fec_corrected {port : PortId} {q : Nat} (hup : s.linkIsUp port = true) :
    Gives (.fecUncorrectable port 0 q) s fun t =>
      t.rg (Obj.FEC_CORRECTED port) = (s.rg (Obj.FEC_CORRECTED port) + q) % 2 ^ 64 ∧ t.parts = s.parts := by
  refine gives_of_takes (by unfold exec execFecUncorrectable; rfl) hup ?_
  extract_lets u
  rw [if_pos rfl]
  exact ⟨State.rg_incRg_bytes (objBytes_FEC_CORRECTED port) (by decide) s q, rfl⟩

/-- Uncorrectable codewords count, and fail LINK for the slice of the port's partition. -/
theorem gives_fec_uncorrectable {port : PortId} {n q : Nat} (hup : s.linkIsUp port = true) (hn : 0 < n) :
    Gives (.fecUncorrectable port n q) s fun t =>
      t.rg (Obj.FEC_UNCORRECTABLE port) = (s.rg (Obj.FEC_UNCORRECTABLE port) + n) % 2 ^ 64 ∧
      ∀ (p : PartId) r, s.ownerOfPort port = some p.val → (s.pt p).slice = some r →
        ∃ r', (t.pt p).slice = some r' ∧ r'.cond.testBit cfLink = true := by
  refine gives_of_takes (by unfold exec execFecUncorrectable; rfl) hup ?_
  extract_lets u v
  rw [if_neg (by omega)]
  have hrg : v.rg (Obj.FEC_UNCORRECTABLE port) = (s.rg (Obj.FEC_UNCORRECTABLE port) + n) % 2 ^ 64 := by
    refine (rg_of_regs ((State.regs_ownerLinkFails _ _).trans (State.regs_discarded _ _)) _).trans ?_
    refine (State.rg_incRg_bytes (objBytes_FEC_UNCORRECTABLE port) (by decide) u n).trans ?_
    rw [show u.rg (Obj.FEC_UNCORRECTABLE port) = s.rg (Obj.FEC_UNCORRECTABLE port) from State.rg_incRg_ne _ _ (okey_ne_of_sub (by decide))]
  have hparts : ((u.incRg (Obj.FEC_UNCORRECTABLE port) n).discarded port).parts = s.parts := State.parts_discarded _ _
  have hcond (p : PartId) (ho : s.ownerOfPort port = some p.val) : CondFails p cfLink s v :=
    (condFails_ownerLinkFails ((State.ownerOfPort_congr hparts port).trans ho)).congr (by rw [State.pt, State.pt, hparts]) rfl
  clear_value v
  split
  · exact ⟨hrg, fun p r ho hr => hcond p ho r hr⟩
  · exact ⟨hrg, fun p r ho hr => hcond p ho r hr⟩

/-- What the count of a pause's time changes: PAUSE_NS and the pause's start. -/
theorem State.countPause_keeps (s : State) (port : Nat) :
    (s.countPause port).now = s.now ∧ (s.countPause port).pauseEnd = s.pauseEnd ∧
      ∀ k, k ≠ Obj.PAUSE_NS port → (s.countPause port).rg k = s.rg k := by
  have h := State.changes_countPause s port
  refine ⟨h.kept .now, h.kept .pauseEnd, fun k hk => ?_⟩
  unfold State.countPause
  split
  next => rfl
  next f _ =>
    extract_lets ns u v
    have hu : u.rg k = s.rg k := State.rg_incRg_ne _ _ hk
    show v.rg k = s.rg k
    unfold v
    split
    · exact hu
    · exact hu

theorem State.countPause_some {port : PortId} {f : Nat} (h : SMap.get? s.pauseFrom port = some f) :
    SMap.get? (s.countPause port).pauseFrom port = none ∧
      (s.countPause port).rg (Obj.PAUSE_NS port) = (s.rg (Obj.PAUSE_NS port) + (Nat.min s.now (s.pauseLast port) - f)) % 2 ^ 64 := by
  unfold State.countPause
  split
  next h' => exact absurd (h.symm.trans h') nofun
  next g h' =>
    obtain rfl : f = g := Option.some.inj (h.symm.trans h')
    extract_lets ns u v
    have hu : u.rg (Obj.PAUSE_NS port) = (s.rg (Obj.PAUSE_NS port) + (Nat.min s.now (s.pauseLast port) - f)) % 2 ^ 64 :=
      State.rg_incRg_bytes (objBytes_PAUSE_NS port) (by decide) s _
    refine ⟨SMap.get?_del_self .., ?_⟩
    show v.rg _ = _
    unfold v
    split
    · exact hu
    · exact hu

/-- The holds of a port's priorities, one after another. -/
def State.holdAll (s : State) (port : Nat) (l : List (Nat × Nat)) : State :=
  l.foldl (fun t x =>
    { t with pauseEnd := SMap.put 0 t.pauseEnd (8 * port + x.1) (if x.2 = 0 then 0 else t.now + ceilDiv (x.2 % 65536 * 64) 100) }) s

theorem State.holdAll_keeps (s : State) (port : Nat) (l : List (Nat × Nat)) :
    (s.holdAll port l).now = s.now ∧ (s.holdAll port l).regs = s.regs ∧ (s.holdAll port l).parts = s.parts := by
  induction l generalizing s with
  | nil => exact ⟨rfl, rfl, rfl⟩
  | cons x l ih => exact ih _

theorem State.pauseEnd_holdAll (s : State) (port q : Nat) (l : List Nat) (i : Nat) :
    SMap.getD 0 (s.holdAll port (l.map (·, q))).pauseEnd (8 * port + i) =
      if i ∈ l then (if q = 0 then 0 else s.now + ceilDiv (q % 65536 * 64) 100) else SMap.getD 0 s.pauseEnd (8 * port + i) := by
  induction l generalizing s with
  | nil => rfl
  | cons j l ih =>
    refine (ih _).trans ?_
    by_cases hl : i ∈ l
    · rw [if_pos hl, if_pos (List.mem_cons_of_mem _ hl)]
    · rw [if_neg hl]
      by_cases hj : i = j
      · subst hj
        rw [if_pos List.mem_cons_self]
        exact SMap.getD_put_self ..
      · rw [if_neg (by simp [hl, hj])]
        exact SMap.getD_put_ne _ _ _ (show 8 * port + i ≠ 8 * port + j by omega)

/-- A pause of all priorities holds each for its quanta. -/
theorem gives_pauseFrame {port : PortId} {at_ q : Nat} (hup : s.linkIsUp port = true) :
    Gives (.pauseFrame port at_ true [(0, q)]) s fun t => t.now = Nat.max s.now at_ ∧
      t.rg (Obj.PAUSE_RX port) = (s.rg (Obj.PAUSE_RX port) + 1) % 2 ^ 64 ∧
      ∀ i, i < 8 → SMap.getD 0 t.pauseEnd (8 * port.val + i) = (if q = 0 then 0 else t.now + ceilDiv (q % 65536 * 64) 100) := by
  refine gives_of_takes (by unfold exec execPauseFrame; rfl) hup ?_
  extract_lets s1 holds s2 s3
  have ht := traffic_portTime s port at_
  obtain ⟨hnow, -, hrg⟩ := State.countPause_keeps ((s.portTime port at_).incRg (Obj.PAUSE_RX port) 1) port
  have hn1 : s1.now = Nat.max s.now at_ := hnow.trans (ht.changes.kept .now)
  have hr1 : s1.rg (Obj.PAUSE_RX port) = (s.rg (Obj.PAUSE_RX port) + 1) % 2 ^ 64 := by
    refine (hrg _ (okey_ne_of_sub (by decide))).trans ((State.rg_incRg_bytes (objBytes_PAUSE_RX port) (by decide) _ 1).trans ?_)
    rw [ht.rg (Obj.PAUSE_RX port) notSent_of_sub]
    rfl
  clear_value s1
  have h2 : s2 = s1.holdAll port ((List.range 8).map (·, q)) := rfl
  obtain ⟨k1, k2, -⟩ := s1.holdAll_keeps port ((List.range 8).map (·, q))
  have he (i : Nat) (hi : i < 8) : SMap.getD 0 s2.pauseEnd (8 * port.val + i) = (if q = 0 then 0 else s1.now + ceilDiv (q % 65536 * 64) 100) := by
    rw [h2, State.pauseEnd_holdAll, if_pos (List.mem_range.mpr hi)]
  have hn2 : s2.now = s1.now := h2 ▸ k1
  have hr2 : s2.regs = s1.regs := h2 ▸ k2
  clear_value s2
  have h3 : s3.now = s2.now ∧ s3.regs = s2.regs ∧ s3.pauseEnd = s2.pauseEnd := by
    unfold s3
    split <;> exact ⟨rfl, rfl, rfl⟩
  clear_value s3
  obtain ⟨hn3, hr3, he3⟩ := h3
  have hp := traffic_resumePort (s3.ownerLinkFails port) port
  have hc := State.changes_ownerLinkFails s3 port
  have hn : ((s3.ownerLinkFails port).resumePort port).now = s1.now := by
    rw [hp.changes.kept .now, hc.kept .now, hn3, hn2]
  refine ⟨hn.trans hn1, ?_, fun i hi => ?_⟩
  · rw [hp.rg (Obj.PAUSE_RX port) notSent_of_sub, rg_of_regs (hc.kept .regs), rg_of_regs hr3, rg_of_regs hr2, hr1]
  · rw [hn, ← he i hi, hp.changes.kept .pauseEnd, hc.kept .pauseEnd, he3]

theorem State.pauseLast_congr {s t : State} (h : t.pauseEnd = s.pauseEnd) (port : Nat) : t.pauseLast port = s.pauseLast port := by
  unfold State.pauseLast
  rw [h]

/-- The time that a pause has held the transmitter enters PAUSE_NS when it ends. -/
theorem gives_pauseExpire {port : PortId} {at_ f : Nat} (hf : SMap.get? s.pauseFrom port = some f) (hat : s.pauseLast port ≤ at_) :
    Gives (.pauseExpire port at_) s fun t => SMap.get? t.pauseFrom port = none ∧
      t.rg (Obj.PAUSE_NS port) = (s.rg (Obj.PAUSE_NS port) + (s.pauseLast port - f)) % 2 ^ 64 := by
  refine gives_of_takes (by unfold exec execPauseExpire; rfl) (by simp [hf, hat]) ?_
  have ht := traffic_portTime s port at_
  have hnow : (s.portTime port at_).now = Nat.max s.now at_ := ht.changes.kept .now
  have hlast : (s.portTime port at_).pauseLast port = s.pauseLast port := State.pauseLast_congr (ht.changes.kept .pauseEnd) port
  have hmin : Nat.min (Nat.max s.now at_) (s.pauseLast port) = s.pauseLast port :=
    Nat.min_eq_right (hat.trans (Nat.le_max_right _ _))
  obtain ⟨h1, h2⟩ := State.countPause_some (s := s.portTime port at_) (port := port) ((congrArg (SMap.get? · port) (ht.changes.kept .pauseFrom)).trans hf)
  have hp := traffic_resumePort ((s.portTime port at_).countPause port) port
  refine ⟨(congrArg (SMap.get? · port) (hp.changes.kept .pauseFrom)).trans h1, ?_⟩
  rw [hp.rg (Obj.PAUSE_NS port) notSent_of_sub, h2, hnow, hlast, hmin, ht.rg (Obj.PAUSE_NS port) notSent_of_sub]
  rfl

theorem State.sentOn_out (s : State) (port wire : Nat) : (s.sentOn port wire).out = s.out := (State.changes_sentOn s port wire).kept .out

/-- The host port asks for a pause, or releases it. -/
theorem gives_hostPauseTx {level : Nat} {on : Bool} (hon : on = decide (level > 75)) (hlow : on = false → level < 25)
    (hmode : s.rg Obj.PAUSE_TX ≠ 0) (hup : s.linkIsUp hostPort = true) (hold : s.hostPause = !on) :
    Gives (.hostPauseTx level) s fun t => t.hostPause = on ∧
      t.out = .pause hostPort (if s.rg Obj.PAUSE_TX = 2 then some (s.rg Obj.PFC_PRIORITY) else none) on :: s.out := by
  refine gives_of_takes (by unfold exec execHostPauseTx; rfl) ?_ ?_
  · cases on <;> simp_all
  · subst hon
    exact ⟨(State.changes_sentOn ..).kept .hostPause, State.sentOn_out ..⟩

/-- Settles O31: each command of FEC and pause under its premise. -/
theorem fecAndPauseCommands : Obligations.FecAndPauseCommands := by
  unfold Obligations.FecAndPauseCommands
  intro port at_ n q level s
  exact ⟨gives_fec_corrected, gives_fec_uncorrectable, gives_pauseFrame, fun f => gives_pauseExpire, fun hmode hup =>
    ⟨fun hl hp => gives_hostPauseTx (by simp [hl]) nofun hmode hup hp, fun hl hp => gives_hostPauseTx (by simp; omega) (fun _ => hl) hmode hup hp⟩⟩

end

end Sys2Proof.Machine

namespace Sys2Proof.Machine
open Sys2Proof

-- Short theorems, many of them: one after another, so that the threads' stacks stay within the check's memory.
set_option Elab.async false

/-! ## A frame on an idle port (R343)

A frame for an idle port starts at once, and nothing else with it; one for a port that may not start frames waits. -/

section
variable {s : State}

theorem objBytes_TX_FRAMES (port : PortId) : objBytes (Obj.TX_FRAMES port) = some 8 := by
  revert port
  decide +kernel

theorem State.pumpPort_asleep {port : Nat} (h : s.txAwake port = false) (lo hi n : Nat) : State.pumpPort port lo hi n s = s := by
  cases n with
  | zero => rfl
  | succ n =>
    unfold State.pumpPort
    rw [if_pos (by simp [h])]

/-- A frame for a port that may not start frames joins those that wait. -/
theorem State.send_asleep {port : Nat} (h : s.txAwake port = false) (cls prio wire : Nat) (x : Sent) :
    s.send port cls prio wire x = s.queueTx port cls prio wire x := by
  unfold State.send State.pumpOne
  exact State.pumpPort_asleep (s := s.queueTx port cls prio wire x) h ..

theorem State.nextWaiting_nil {port : Nat} (h : SMap.getD [] s.txq port = []) (lo : Nat) : s.nextWaiting port lo = none := by
  unfold State.nextWaiting
  rw [h]
  rfl

theorem State.nextWaiting_singleton {port : Nat} {w : TxItem} (h : SMap.getD [] s.txq port = [w]) (lo : Nat) :
    s.nextWaiting port lo = some (Nat.max (Nat.max lo w.ready) (s.txGate port w.prio), w.cls, 0, w) := by
  unfold State.nextWaiting
  rw [h]
  rfl

theorem firstOf_cases {α : Type} (m : Option (Nat × Nat × α)) (x : Nat × Nat × α) : firstOf m x = some x ∨ firstOf m x = m := by
  unfold firstOf
  split
  · exact .inl rfl
  · split
    · exact .inl rfl
    · exact .inr rfl

/-- No slot frame starts before the transmitter is free. -/
theorem State.nextSlotFrame_free {port lo : Nat} {x : Nat × Nat × TxReady} (h : s.nextSlotFrame port lo = some x) :
    SMap.getD 0 s.txFree port ≤ x.1 := by
  have key (p : Nat) (l : List TxReady) (hl : ∀ y ∈ l, y.port = port) (m : Option (Nat × Nat × TxReady))
      (hm : ∀ y, m = some y → SMap.getD 0 s.txFree port ≤ y.1) (y : Nat × Nat × TxReady)
      (hy : l.foldl (fun m x => firstOf m (s.frameStart p x lo, x.start, x)) m = some y) : SMap.getD 0 s.txFree port ≤ y.1 := by
    induction l generalizing m with
    | nil => exact hm y hy
    | cons z l ih =>
      refine ih (fun y hy => hl y (List.mem_cons_of_mem _ hy)) _ (fun y hy => ?_) hy
      have hz : SMap.getD 0 s.txFree port ≤ s.frameStart p z lo := by
        unfold State.frameStart State.txGate
        rw [hl z List.mem_cons_self]
        exact ((Nat.le_max_left _ _).trans (Nat.le_max_left _ _)).trans (Nat.le_max_right _ _)
      rcases firstOf_cases m (s.frameStart p z lo, z.start, z) with e | e
      · rw [← Option.some.inj (e.symm.trans hy)]
        exact hz
      · exact hm y (e.symm.trans hy)
  unfold State.nextSlotFrame at h
  split at h
  · exact absurd h nofun
  · split at h
    · exact absurd h nofun
    · refine key _ _ (fun y hy => ?_) none nofun x h
      have := (List.mem_filter.mp hy).2
      simp only [Bool.and_eq_true, beq_iff_eq] at this
      exact this.1

/-- A port with nothing that waits, whose transmitter is busy beyond the instant, sends nothing. -/
theorem State.pumpPort_busy {port lo hi : Nat} (hq : SMap.getD [] s.txq port = []) (hfree : hi < SMap.getD 0 s.txFree port) (n : Nat) :
    State.pumpPort port lo hi n s = s := by
  cases n with
  | zero => rfl
  | succ n =>
    unfold State.pumpPort
    rw [State.nextWaiting_nil hq]
    split
    · rfl
    · cases e : s.nextSlotFrame port lo with
      | none => rfl
      | some x =>
        have := State.nextSlotFrame_free e
        exact if_neg (by omega)

/-- The state in which a frame that has come for a port has just started there. -/
def State.started (s : State) (port cls prio wire : Nat) (x : Sent) : State :=
  (s.queueTx port cls prio wire x).sendWaiting port (100 * s.now) 0 ⟨cls, prio, wire, 100 * s.now, x⟩

theorem State.started_out (s : State) (port cls prio wire : Nat) (x : Sent) : (s.started port cls prio wire x).out = x :: s.out :=
  (State.changes_txStart ..).kept .out

theorem State.started_txFree (s : State) (port cls prio wire : Nat) (x : Sent) :
    SMap.getD 0 (s.started port cls prio wire x).txFree port = 100 * s.now + wire := by
  have h : (s.started port cls prio wire x).txFree = SMap.ins s.txFree port (100 * s.now + wire) := (State.changes_sentOn ..).kept .txFree
  rw [h, SMap.getD_ins_self]

theorem State.started_txq {port : Nat} (h : SMap.getD [] s.txq port = []) (cls prio wire : Nat) (x : Sent) :
    SMap.getD [] (s.started port cls prio wire x).txq port = [] := by
  have hq : SMap.getD [] (s.queueTx port cls prio wire x).txq port = [⟨cls, prio, wire, 100 * s.now, x⟩] := by
    rw [State.queueTx, h]
    exact SMap.getD_ins_self ..
  unfold State.started State.sendWaiting
  extract_lets q u
  have hu : u.txq = SMap.del (s.queueTx port cls prio wire x).txq port := if_pos (by simp [q, hq])
  rw [(State.changes_txStart ..).kept .txq, State.txq_emit, hu, SMap.getD_del_self]

theorem State.rg_sentOn_self (s : State) (port wire : Nat) :
    (s.sentOn port wire).rg (Obj.TX_FRAMES port) = (s.incRg (Obj.TX_FRAMES port) 1).rg (Obj.TX_FRAMES port) := by
  unfold State.sentOn
  extract_lets u
  split <;> rfl

theorem State.started_txFrames (s : State) (port : PortId) (cls prio wire : Nat) (x : Sent) :
    (s.started port cls prio wire x).rg (Obj.TX_FRAMES port) = (s.rg (Obj.TX_FRAMES port) + 1) % 2 ^ 64 := by
  unfold State.started State.sendWaiting State.txStart
  extract_lets q u
  rw [State.rg_sentOn_self, State.rg_incRg_bytes (objBytes_TX_FRAMES port) (by decide)]
  rfl

/-- A frame for an idle port starts at once, and nothing else does. -/
theorem State.send_idle {port prio wire : Nat} (h : s.PortIdle port prio) (hw : 0 < wire) (cls : Nat) (x : Sent) :
    s.send port cls prio wire x = s.started port cls prio wire x := by
  obtain ⟨hawake, hq, hgate, hslot⟩ := h
  have hq' : SMap.getD [] (s.queueTx port cls prio wire x).txq port = [⟨cls, prio, wire, 100 * s.now, x⟩] := by
    rw [State.queueTx, hq]
    exact SMap.getD_ins_self ..
  have hbusy (n : Nat) : State.pumpPort port (100 * s.now) (100 * s.now) n (s.started port cls prio wire x) = s.started port cls prio wire x :=
    State.pumpPort_busy (State.started_txq hq ..) (by rw [State.started_txFree]; omega) n
  have hnext := State.nextWaiting_singleton hq' (100 * s.now)
  have hmax : Nat.max (Nat.max (100 * s.now) (100 * s.now)) ((s.queueTx port cls prio wire x).txGate port prio) = 100 * s.now := by
    exact (congrArg (Nat.max · _) (Nat.max_self _)).trans (Nat.max_eq_left hgate)
  simp only [hmax] at hnext
  have hnone : (s.queueTx port cls prio wire x).nextSlotFrame port (100 * s.now) = none := hslot
  have hawake' : (s.queueTx port cls prio wire x).txAwake port = true := hawake
  unfold State.send State.pumpOne
  extract_lets slots
  rw [show 128 * slots + (SMap.getD [] (s.queueTx port cls prio wire x).txq port).length = 128 * slots + 1 by rw [hq']; rfl]
  unfold State.pumpPort
  rw [hawake', show (s.queueTx port cls prio wire x).now = s.now from rfl, hnext, hnone]
  exact (if_neg nofun).trans ((if_pos (Nat.le_refl _)).trans (hbusy _))

end

end Sys2Proof.Machine

namespace Sys2Proof.Machine
open Sys2Proof

-- Short theorems, many of them: one after another, so that the threads' stacks stay within the check's memory.
set_option Elab.async false

/-! ## LLDP, low-power idle and HELLO (R344 to R346, R368, R369) -/

section
variable {s : State} {port : PortId}

theorem objBytes_PEER_MAC (h : port.val < 64) : objBytes (Obj.PEER_MAC port) = some 8 := by
  revert port
  decide +kernel

theorem objBytes_PEER_POSITION (h : port.val < 64) : objBytes (Obj.PEER_POSITION port) = some 1 := by
  revert port
  decide +kernel

theorem objBytes_PEER_PORT (h : port.val < 64) : objBytes (Obj.PEER_PORT port) = some 1 := by
  revert port
  decide +kernel

theorem objBytes_WIRING (h : port.val < 64) : objBytes (Obj.WIRING port) = some 1 := by
  revert port
  decide +kernel

theorem objBytes_WAKE_US (h : port.val < 64) : objBytes (Obj.WAKE_US port) = some 2 := by
  revert port
  decide +kernel

theorem objBytes_LPI_STATE : objBytes (Obj.LPI_STATE port) ≠ some 0 := by
  revert port
  decide +kernel

theorem objBytes_LPI_EARLY_WAKES : objBytes (Obj.LPI_EARLY_WAKES port) = some 8 := by
  revert port
  decide +kernel

theorem objBytes_RX_FRAMES : objBytes (Obj.RX_FRAMES port) = some 8 := by
  revert port
  decide +kernel

theorem State.rg_received_ne (s : State) (port : Nat) {k : Nat} (hk : k ≠ Obj.RX_FRAMES port) : (s.received port).rg k = s.rg k := by
  have h : (s.incRg (Obj.RX_FRAMES port) 1).rg k = s.rg k := State.rg_incRg_ne _ _ hk
  unfold State.received
  extract_lets u
  split <;> exact h

theorem State.rg_received_self (s : State) (port : PortId) :
    (s.received port).rg (Obj.RX_FRAMES port) = (s.rg (Obj.RX_FRAMES port) + 1) % 2 ^ 64 := by
  have h : (s.incRg (Obj.RX_FRAMES port) 1).rg (Obj.RX_FRAMES port) = (s.rg (Obj.RX_FRAMES port) + 1) % 2 ^ 64 :=
    State.rg_incRg_bytes objBytes_RX_FRAMES (by decide) s 1
  unfold State.received
  extract_lets u
  split <;> exact h

/-! ### LLDP -/

theorem State.rg_negotiateLpi_ne (s : State) (port : Nat) {k : Nat} (hk : k ≠ Obj.WAKE_US port) : (s.negotiateLpi port).rg k = s.rg k :=
  State.rg_setRg_ne _ _ hk

theorem sendLldp_traffic (s : State) (port : Nat) : Traffic s (s.sendLldp port) := traffic_send ..

theorem State.rg_negotiateLpi_self (s : State) (port : PortId) (hlt : port.val < 64) :
    (s.negotiateLpi port).rg (Obj.WAKE_US port) =
      (if s.lpiEnabled port = true ∧ SMap.getD 0 s.peerWake port > 0 ∧
          ¬ (s.lpiExtension port = true ∧ ¬ (0 < SMap.getD 0 s.peerCaps port ∧ (SMap.getD 0 s.peerCaps port - 1).testBit 0 = true))
        then Nat.max (s.rg (Obj.WAKE_REQ_US port)) (SMap.getD 0 s.peerWake port - 1) else 0) % 2 ^ 16 := by
  unfold State.negotiateLpi
  extract_lets peer ext ok
  rw [State.rg_setRg_bytes (objBytes_WAKE_US hlt) (by decide), if_pos hlt]
  congr 1
  refine if_congr ?_ rfl rfl
  have hcaps : s.lpiEnabled port = true → (s.helloCaps port).testBit 0 = true := by
    intro h
    simp [State.helloCaps, h]
  simp only [ok, ext, peer, Bool.and_eq_true, Bool.or_eq_true, decide_eq_true_eq, Bool.not_eq_true']
  constructor
  · rintro ⟨⟨h1, h2⟩, h3⟩
    refine ⟨h1, h2, ?_⟩
    rintro ⟨h4, h5⟩
    rcases h3 with h3 | ⟨⟨h3, h6⟩, -⟩
    · simp [h4] at h3
    · exact h5 ⟨h6, h3⟩
  · rintro ⟨h1, h2, h3⟩
    refine ⟨⟨h1, h2⟩, ?_⟩
    cases e : s.lpiExtension port
    · exact .inl rfl
    · obtain ⟨h4, h5⟩ := not_not.mp fun h => h3 ⟨e, h⟩
      exact .inr ⟨⟨h5, h4⟩, hcaps h1⟩

/-- An LLDP frame: the peer's address, and the negotiated wake time. -/
theorem gives_lldp {mac : Nat} {wake : Option Nat} (hup : s.linkIsUp port = true) (hlt : port.val < 64) :
    Gives (.lldp port mac wake) s fun t => t.rg (Obj.PEER_MAC port) = mac % 2 ^ 64 ∧
      t.rg (Obj.WAKE_US port) = (if s.lpiEnabled port = true ∧ wake.isSome = true ∧
          ¬ (s.lpiExtension port = true ∧ ¬ (0 < SMap.getD 0 s.peerCaps port ∧ (SMap.getD 0 s.peerCaps port - 1).testBit 0 = true))
        then Nat.max (s.rg (Obj.WAKE_REQ_US port)) (wake.getD 0) else 0) % 2 ^ 16 := by
  refine gives_of_takes (by unfold exec execLldp; rfl) hup ?_
  extract_lets u v
  have hrg (k : Nat) (h1 : k ≠ Obj.PEER_MAC port) (h2 : k ≠ Obj.RX_FRAMES port) : v.rg k = s.rg k :=
    (State.rg_setRg_ne _ _ h1).trans (State.rg_received_ne _ _ h2)
  have hmac : v.rg (Obj.PEER_MAC port) = mac % 2 ^ 64 := State.rg_setRg_bytes (objBytes_PEER_MAC hlt) (by decide) _ _
  have hcaps : v.peerCaps = s.peerCaps := (State.changes_received s port).kept .peerCaps
  have hwake : SMap.getD 0 v.peerWake port = match wake with
      | some w => w + 1
      | none => 0 := SMap.getD_put_self ..
  clear_value v
  refine ⟨?_, ?_⟩
  · rw [(sendLldp_traffic _ _).rg (Obj.PEER_MAC port) notSent_of_sub, State.rg_negotiateLpi_ne v port (k := Obj.PEER_MAC port) (okey_ne_of_sub (by decide)), hmac]
  · rw [(sendLldp_traffic _ _).rg (Obj.WAKE_US port) notSent_of_sub, State.rg_negotiateLpi_self _ _ hlt]
    have hen : v.lpiEnabled port = s.lpiEnabled port := by
      unfold State.lpiEnabled
      rw [if_pos hlt, hrg (Obj.LPI_EN port) (okey_ne_of_sub (by decide)) (okey_ne_of_sub (by decide))]
    have hext : v.lpiExtension port = s.lpiExtension port := by
      unfold State.lpiExtension State.phyType
      rw [if_pos hlt, hrg (Obj.PHY_TYPE port) (okey_ne_of_sub (by decide)) (okey_ne_of_index (by omega) (by decide) (by decide))]
    rw [hen, hext, hcaps, hrg (Obj.WAKE_REQ_US port) (okey_ne_of_sub (by decide)) (okey_ne_of_sub (by decide)), hwake]
    cases wake <;> simp

/-! ### Low-power idle -/

/-- LPI_ENTER puts the transmitter into low-power idle for the interval. -/
theorem gives_lpiEnter {from_ until_ : Nat} (hup : s.linkIsUp port = true) (hen : s.lpiEnabled port = true)
    (hw : 0 < s.rg (Obj.WAKE_US port)) (hst : s.rg (Obj.LPI_STATE port) = 0) (hfrom : s.now ≤ from_)
    (hlong : from_ + 2000 * s.rg (Obj.WAKE_US port) + 1000 ≤ until_) (hidle : s.idleInterval port from_ until_ = true) :
    Gives (.lpiEnter port from_ until_) s fun t =>
      t.rg (Obj.LPI_STATE port) = (if s.lpiExtension port then 2 else 1) ∧ SMap.get? t.lpiEnd port = some until_ := by
  refine gives_of_takes (by unfold exec execLpiEnter; rfl) ?_ ?_
  · simp only [Bool.and_eq_true, decide_eq_true_eq, beq_iff_eq]
    exact ⟨⟨⟨⟨⟨⟨hup, hen⟩, hw⟩, hst⟩, hfrom⟩, hlong⟩, hidle⟩
  extract_lets ext u v
  have hv : (if s.lpiExtension port then 2 else 1) < 256 := by cases s.lpiExtension port <;> decide
  clear_value v
  refine ⟨State.rg_setRg_small objBytes_LPI_STATE hv _, ?_⟩
  rw [State.lpiEnd_setRg]
  exact SMap.get?_ins_self v.lpiEnd port until_

theorem State.rg_wakeTx_self (s : State) (port : PortId) : (s.wakeTx port).rg (Obj.LPI_STATE port) = 0 :=
  State.rg_setRg_small objBytes_LPI_STATE (by decide) _

theorem State.rg_wakeTx_earlyWakes (s : State) (port : Nat) :
    (s.wakeTx port).rg (Obj.LPI_EARLY_WAKES port) = s.rg (Obj.LPI_EARLY_WAKES port) := State.rg_setRg_ne _ _ (okey_ne_of_sub (by decide))

/-- LPI_WAKE and LPI_EARLY_WAKE leave low-power idle; the early one is counted. -/
theorem gives_lpiWakes {at_ : Nat} (hst : s.rg (Obj.LPI_STATE port) ≠ 0) :
    Gives (.lpiWake port) s (fun t => t.rg (Obj.LPI_STATE port) = 0 ∧ t.rg (Obj.LPI_EARLY_WAKES port) = s.rg (Obj.LPI_EARLY_WAKES port)) ∧
    Gives (.lpiEarlyWake port at_) s (fun t => t.rg (Obj.LPI_STATE port) = 0 ∧
      t.rg (Obj.LPI_EARLY_WAKES port) = (s.rg (Obj.LPI_EARLY_WAKES port) + 1) % 2 ^ 64) := by
  have kept (a : Nat) : (s.portTime port a).rg (Obj.LPI_EARLY_WAKES port) = s.rg (Obj.LPI_EARLY_WAKES port) :=
    (traffic_portTime s port a).rg _ notSent_of_sub
  constructor
  · refine gives_of_takes (by unfold exec execLpiWake; rfl) (bne_iff_ne.mpr hst) ?_
    refine ⟨State.rg_wakeTx_self _ port, ?_⟩
    exact (State.rg_wakeTx_earlyWakes ..).trans (kept _)
  · refine gives_of_takes (by unfold exec execLpiEarlyWake; rfl) (bne_iff_ne.mpr hst) ?_
    refine ⟨State.rg_wakeTx_self _ port, ?_⟩
    refine (State.rg_wakeTx_earlyWakes ..).trans ((State.rg_incRg_bytes objBytes_LPI_EARLY_WAKES (by decide) _ 1).trans ?_)
    rw [kept]

/-- A SLEEP frame is received, and changes nothing of the own transmitter. -/
theorem gives_sleep {ns : Nat} (hup : s.linkIsUp port = true) :
    Gives (.sleep port ns) s fun t => t.rg (Obj.RX_FRAMES port) = (s.rg (Obj.RX_FRAMES port) + 1) % 2 ^ 64 ∧
      t.rg (Obj.LPI_STATE port) = s.rg (Obj.LPI_STATE port) :=
  gives_of_takes (by unfold exec execSleep; rfl) hup ⟨State.rg_received_self .., State.rg_received_ne s port (k := Obj.LPI_STATE port) (okey_ne_of_sub (by decide))⟩

/-! ### HELLO -/

/-- A HELLO frame leaves an idle port at once. -/
theorem gives_helloSend_idle (hlt : port.val < 64) (hup : s.linkIsUp port = true) (hidle : s.PortIdle port 0) :
    Gives (.helloSend port) s fun t => t.rg (Obj.TX_FRAMES port) = (s.rg (Obj.TX_FRAMES port) + 1) % 2 ^ 64 ∧
      t.out = Sent.hello port (etherHead (s.rg Obj.DISCOVERY_GROUP) port none (s.rg Obj.FABRIC_ETHERTYPE))
        (helloPayload 0x13 (s.helloCaps port) (s.rg Obj.MESH_SIZE) (s.rg Obj.MESH_POSITION) port 0) :: s.out := by
  refine gives_of_takes (by unfold exec execHelloSend; rfl) (by simp [hlt, hup]) ?_
  unfold State.sendHello
  rw [State.send_idle hidle (by decide)]
  exact ⟨State.started_txFrames .., State.started_out ..⟩

/-- A HELLO frame waits where the transmitter is in low-power idle. -/
theorem gives_helloSend_asleep (hlt : port.val < 64) (hup : s.linkIsUp port = true) (hst : s.rg (Obj.LPI_STATE port) ≠ 0) :
    Gives (.helloSend port) s fun t => t.out = s.out ∧
      SMap.getD [] t.txq port = SMap.getD [] s.txq port ++ [⟨5, 0, smallWire, 100 * s.now,
        Sent.hello port (etherHead (s.rg Obj.DISCOVERY_GROUP) port none (s.rg Obj.FABRIC_ETHERTYPE))
          (helloPayload 0x13 (s.helloCaps port) (s.rg Obj.MESH_SIZE) (s.rg Obj.MESH_POSITION) port 0)⟩] := by
  refine gives_of_takes (by unfold exec execHelloSend; rfl) (by simp [hlt, hup]) ?_
  unfold State.sendHello
  rw [State.send_asleep (by simp [State.txAwake, hst])]
  exact ⟨rfl, SMap.getD_ins_self ..⟩

/-- A received HELLO tells the peer's position and port, and in a mesh whether the cabling rule holds. -/
theorem gives_hello {caps size position number : Nat} (hlt : port.val < 64) (hup : s.linkIsUp port = true) :
    Gives (.hello port caps size position number) s fun t =>
      t.rg (Obj.PEER_POSITION port) = position % 256 ∧ t.rg (Obj.PEER_PORT port) = number % 256 ∧
      t.rg (Obj.WIRING port) =
        (if s.rg Obj.MESH_SIZE = 0 then s.rg (Obj.WIRING port)
         else if size = s.rg Obj.MESH_SIZE ∧ (position, number) = meshPeer size (s.rg Obj.MESH_POSITION) port then 1 else 2) := by
  refine gives_of_takes (by unfold exec execHello; rfl) (by simp [hlt, hup]) ?_
  extract_lets u v n w
  have kept (k : Nat) (h : k ≠ Obj.WAKE_US port) : v.rg k = u.rg k := State.rg_negotiateLpi_ne _ _ h
  have hu (k : Nat) (h1 : k ≠ Obj.PEER_PORT port) (h2 : k ≠ Obj.PEER_POSITION port) (h3 : k ≠ Obj.RX_FRAMES port) : u.rg k = s.rg k :=
    (State.rg_setRg_ne _ _ h1).trans ((State.rg_setRg_ne _ _ h2).trans (State.rg_received_ne _ _ h3))
  have hpos : v.rg (Obj.PEER_POSITION port) = position % 256 :=
    (kept _ (okey_ne_of_sub (by decide))).trans ((State.rg_setRg_ne _ _ (okey_ne_of_sub (by decide))).trans
      (State.rg_setRg_bytes (objBytes_PEER_POSITION hlt) (by decide) _ _))
  have hnum : v.rg (Obj.PEER_PORT port) = number % 256 :=
    (kept _ (okey_ne_of_sub (by decide))).trans (State.rg_setRg_bytes (objBytes_PEER_PORT hlt) (by decide) _ _)
  have hwiring : v.rg (Obj.WIRING port) = s.rg (Obj.WIRING port) :=
    (kept _ (okey_ne_of_sub (by decide))).trans (hu _ (okey_ne_of_sub (by decide)) (okey_ne_of_sub (by decide)) (okey_ne_of_sub (by decide)))
  have mesh (k : Nat) (h : k / 256 = 0x2010) : v.rg k = s.rg k := by
    have hk (i a : Nat) (hi : 0x4000 ≤ i) : k ≠ okey i a := by
      unfold okey
      omega
    exact (kept _ (hk _ _ (by omega))).trans (hu _ (hk _ _ (by omega)) (hk _ _ (by omega)) (hk _ _ (by omega)))
  have hn : n = s.rg Obj.MESH_SIZE := mesh Obj.MESH_SIZE (by decide)
  have hme : v.rg Obj.MESH_POSITION = s.rg Obj.MESH_POSITION := mesh Obj.MESH_POSITION (by decide)
  have wired (x : Nat) (hx : x < 256) : (v.setRg (Obj.WIRING port) x).rg (Obj.PEER_POSITION port) = position % 256 ∧
      (v.setRg (Obj.WIRING port) x).rg (Obj.PEER_PORT port) = number % 256 ∧ (v.setRg (Obj.WIRING port) x).rg (Obj.WIRING port) = x :=
    ⟨(State.rg_setRg_ne _ _ (okey_ne_of_sub (by decide))).trans hpos, (State.rg_setRg_ne _ _ (okey_ne_of_sub (by decide))).trans hnum,
      State.rg_setRg_small (by rw [objBytes_WIRING hlt]; decide) hx v⟩
  clear_value v
  clear_value n
  subst hn
  rw [hme]
  by_cases h0 : s.rg Obj.MESH_SIZE = 0
  · rw [if_pos h0, if_pos h0]
    exact ⟨hpos, hnum, hwiring⟩
  · rw [if_neg h0, if_neg h0]
    by_cases hc : size = s.rg Obj.MESH_SIZE ∧ (position, number) = meshPeer size (s.rg Obj.MESH_POSITION) port
    · rw [if_pos hc, if_pos (by rw [← hc.1]; simpa using hc.2)]
      exact wired 1 (by decide)
    · rw [if_neg hc, if_neg (by simp only [Bool.and_eq_true, decide_eq_true_eq]; exact fun h => hc ⟨h.1, h.1 ▸ h.2⟩)]
      split
      · exact wired 2 (by decide)
      · exact wired 2 (by decide)

/-- Settles O32: each command under its premise. -/
theorem peerAndIdleCommands : Obligations.PeerAndIdleCommands := by
  unfold Obligations.PeerAndIdleCommands
  intro port at_ mac w from_ until_ ns caps size position number s
  refine ⟨fun hup hlt => ⟨?_, fun hen => ?_⟩, gives_lpiEnter, gives_lpiWakes, gives_sleep,
    fun hlt hup => ⟨gives_helloSend_idle hlt hup, gives_helloSend_asleep hlt hup, gives_hello hlt hup⟩⟩
  · simpa using gives_lldp (wake := none) (mac := mac) hup hlt
  · have h := gives_lldp (wake := some w) (mac := mac) hup hlt
    simp only [hen, Option.isSome_some, Option.getD_some, true_and] at h
    obtain ⟨t, ht, h1, h2⟩ := h
    refine ⟨t, ht, h1, h2.trans ?_⟩
    rw [ite_not, apply_ite (· % 2 ^ 16)]
    rfl

end

end Sys2Proof.Machine

namespace Sys2Proof.Machine
open Sys2Proof

-- Short theorems, many of them: one after another, so that the threads' stacks stay within the check's memory.
set_option Elab.async false

/-! ## Received frames: what the MAC and the steering make of them (R338, R342, R347 to R349, R353, R355) -/

section
variable {s t : State}

theorem objBytes_RX_OVERSIZE (port : PortId) : objBytes (Obj.RX_OVERSIZE port) = some 8 := by
  revert port
  decide +kernel

theorem objBytes_RX_FCS_ERRORS (port : PortId) : objBytes (Obj.RX_FCS_ERRORS port) = some 8 := by
  revert port
  decide +kernel

theorem objBytes_UNEXPECTED_FRAMES (port : PortId) : objBytes (Obj.UNEXPECTED_FRAMES port) = some 8 := by
  revert port
  decide +kernel

theorem objBytes_STALE_FRAMES (port : PortId) : objBytes (Obj.STALE_FRAMES port) = some 8 := by
  revert port
  decide +kernel

theorem objBytes_STALE_FRAMES_6100 (p : PartId) : objBytes (Obj.STALE_FRAMES_6100 p) = some 8 := by
  revert p
  decide +kernel

theorem objBytes_RX_DROP (port : PortId) (k : Fin 8) : objBytes (Obj.RX_DROP port k) = some 8 := by
  revert port k
  decide +kernel

theorem notSent_RX_DROP (port : Nat) {k : Nat} (hk : k < 8) : NotSent (Obj.RX_DROP port k) := by
  intro q
  simp only [Obj.RX_DROP, Obj.TX_FRAMES, Obj.RETX_FRAMES, okey]
  omega

/-- The counters of the port's own receive side, in a group of 16 indices: those of index 0x4002 and of index 0x4003 differ. -/
theorem RX_DROP_ne {port q k a : Nat} (hk : k < 8) (ha : a < 256) : Obj.RX_DROP port k ≠ okey (0x4002 + q * 0x10) a := by
  simp only [Obj.RX_DROP, okey]
  omega

/-- Steering reads the filters, the group addresses and four registers. -/
theorem State.steer_congr {port : Nat} (hft : t.rg Obj.FABRIC_ETHERTYPE = s.rg Obj.FABRIC_ETHERTYPE)
    (hudp : t.rg Obj.FABRIC_UDP_PORT = s.rg Obj.FABRIC_UDP_PORT) (hfm : t.rg (Obj.FILTER_MODE port) = s.rg (Obj.FILTER_MODE port))
    (hje : t.rg (Obj.JENJO_EN port) = s.rg (Obj.JENJO_EN port)) (hf : t.filters = s.filters) (hd : t.doms = s.doms) (x : FrameInfo) :
    t.steer port x = s.steer port x := by
  unfold State.steer State.filterE State.dom
  rw [hft, hudp, hfm, hje, hf, hd]

theorem State.oddKind_congr (h : t.rg Obj.FABRIC_ETHERTYPE = s.rg Obj.FABRIC_ETHERTYPE) (x : FrameInfo) : t.oddKind x = s.oddKind x := by
  unfold State.oddKind
  rw [h]

theorem notSent_of_index {i a : Nat} (hi : i < 0x4002) (ha : a < 256) : NotSent (okey i a) := by
  intro q
  simp only [Obj.TX_FRAMES, Obj.RETX_FRAMES, okey]
  omega

theorem Traffic.steer (h : Traffic s t) (port : Nat) (x : FrameInfo) : t.steer port x = s.steer port x :=
  State.steer_congr (h.rg _ (notSent_of_index (by decide) (by decide))) (h.rg _ (notSent_of_index (by decide) (by decide)))
    (h.rg _ notSent_of_sub) (h.rg _ notSent_of_sub) (h.changes.kept .filters) (h.changes.kept .doms) x

theorem Traffic.maxFrame (h : Traffic s t) (port : Nat) : t.maxFrame port = s.maxFrame port := by
  unfold State.maxFrame
  split
  · exact h.rg _ notSent_of_sub
  · exact h.rg _ notSent_of_sub

theorem Traffic.oddKind (h : Traffic s t) (x : FrameInfo) : t.oddKind x = s.oddKind x :=
  State.oddKind_congr (h.rg _ (notSent_of_index (by decide) (by decide))) x

theorem State.steer_received (s : State) (port : Nat) (x : FrameInfo) : (s.received port).steer port x = s.steer port x := by
  have h := State.changes_received s port
  refine State.steer_congr ?_ ?_ ?_ ?_ (h.kept .filters) (h.kept .doms) x
  · exact s.rg_received_ne port (okey_ne_of_index (by omega) (by decide) (by decide))
  · exact s.rg_received_ne port (okey_ne_of_index (by omega) (by decide) (by decide))
  · exact s.rg_received_ne port (okey_ne_of_sub (by decide))
  · exact s.rg_received_ne port (okey_ne_of_sub (by decide))

theorem State.oddKind_received (s : State) (port : Nat) (x : FrameInfo) : (s.received port).oddKind x = s.oddKind x :=
  State.oddKind_congr (s.rg_received_ne port (okey_ne_of_index (by omega) (by decide) (by decide))) x

theorem State.rg_discarded (s : State) (port k : Nat) : (s.discarded port).rg k = s.rg k := rg_of_regs (s.regs_discarded port) k

/-! ### What arrives -/

/-- A frame above MAX_FRAME. -/
theorem State.arrive_oversize {port : Nat} {x : FrameInfo} (h : s.maxFrame port < x.bytes) (at_ : Nat) (fate : FrameFate) :
    s.arrive port at_ x fate = (((s.portTime port at_).incRg (Obj.RX_OVERSIZE port) 1).discarded port, false) :=
  if_pos (((traffic_portTime s port at_).maxFrame port).trans_lt h)

/-- A frame of a bad FCS. -/
theorem State.arrive_badFcs {port : Nat} {x : FrameInfo} (h : x.bytes ≤ s.maxFrame port) (at_ : Nat) :
    s.arrive port at_ x .badFcs = (((s.portTime port at_).incRg (Obj.RX_FCS_ERRORS port) 1).discarded port, false) :=
  if_neg (Nat.not_lt.mpr (h.trans_eq ((traffic_portTime s port at_).maxFrame port).symm))

/-- A frame for which its receive queue has no room. -/
theorem State.arrive_noRoom {port : Nat} {x : FrameInfo} (h : x.bytes ≤ s.maxFrame port) (at_ : Nat) :
    s.arrive port at_ x .noRoom =
      ((((s.portTime port at_).received port).incRg (Obj.RX_DROP port (Nat.min ((s.steer port x).getD 8) 7)) 1).discarded port, false) := by
  have ht := traffic_portTime s port at_
  have hsteer : (s.portTime port at_).steer port x = s.steer port x := ht.steer port x
  rw [← hsteer]
  exact if_neg (Nat.not_lt.mpr (h.trans_eq (ht.maxFrame port).symm))

/-- Steering as a received frame meets it is that of the state before. -/
theorem State.steer_arrived (s : State) (port at_ : Nat) (x : FrameInfo) :
    ((s.portTime port at_).received port).steer port x = s.steer port x :=
  (State.steer_received ..).trans ((traffic_portTime s port at_).steer port x)

theorem State.oddKind_arrived (s : State) (port at_ : Nat) (x : FrameInfo) :
    ((s.portTime port at_).received port).oddKind x = s.oddKind x :=
  (State.oddKind_received ..).trans ((traffic_portTime s port at_).oddKind x)

/-- The count of the queue in which steering ends a frame. -/
def State.dropAway (u : State) (port : Nat) : Option Nat → State
  | some q => u.incRg (Obj.RX_DROP port q) 1
  | none => u

theorem State.oddKind_dropAway (u : State) (port : Nat) (o : Option Nat) (x : FrameInfo) : (u.dropAway port o).oddKind x = u.oddKind x := by
  cases o with
  | none => rfl
  | some q => exact State.oddKind_congr (State.rg_incRg_ne _ _ (by simp only [Obj.FABRIC_ETHERTYPE, Obj.RX_DROP, okey]; omega)) x

/-- What an intact frame counts that no queue takes, or of an unknown kind. -/
def State.awayCounted (u : State) (port : Nat) (x : FrameInfo) : State :=
  let v := u.dropAway port (u.steersAway port x)
  (if u.oddKind x then v.incRg (Obj.UNEXPECTED_FRAMES port) 1 else v).discarded port

theorem State.steersAway_seven {u : State} {port : Nat} {x : FrameInfo} (h : u.steer port x = some 7) : u.steersAway port x = some 7 := by
  simp [State.steersAway, h]

/-- An intact frame that no queue takes, or of an unknown kind. -/
theorem State.arrive_away {port : Nat} {x : FrameInfo} (h : x.bytes ≤ s.maxFrame port) (at_ : Nat)
    (haway : s.oddKind x = true ∨ s.steer port x = some 7) :
    (s.arrive port at_ x .intact).1 = ((s.portTime port at_).received port).awayCounted port x := by
  have ht := traffic_portTime s port at_
  have hc : (((s.portTime port at_).received port).oddKind x || (((s.portTime port at_).received port).steersAway port x).isSome) = true := by
    rcases haway with h | h
    · rw [State.oddKind_arrived, h, Bool.true_or]
    · rw [State.steersAway_seven ((State.steer_arrived ..).trans h)]
      simp
  unfold State.arrive
  extract_lets u q v away w
  have hodd : w.oddKind x = v.oddKind x := v.oddKind_dropAway port away x
  rw [if_neg (Nat.not_lt.mpr (h.trans_eq (ht.maxFrame port).symm))]
  refine (congrArg Prod.fst (if_pos hc)).trans ?_
  show (if w.oddKind x then _ else _ : State).discarded port = _
  rw [hodd]
  rfl

/-- An intact frame for queue 0. -/
theorem State.arrive_taken {port : Nat} {x : FrameInfo} (h : x.bytes ≤ s.maxFrame port) (at_ : Nat)
    (hodd : s.oddKind x = false) (hsteer : s.steer port x = some 0) :
    s.arrive port at_ x .intact = ((s.portTime port at_).received port, true) := by
  have ht := traffic_portTime s port at_
  have hq : (s.portTime port at_).steer port x = some 0 := (ht.steer port x).trans hsteer
  have hc : ¬ (((s.portTime port at_).received port).oddKind x || (((s.portTime port at_).received port).steersAway port x).isSome) = true := by
    rw [State.oddKind_arrived, hodd, State.steersAway, State.steer_arrived, hsteer]
    simp
  unfold State.arrive
  extract_lets u q v away w
  rw [if_neg (Nat.not_lt.mpr (h.trans_eq (ht.maxFrame port).symm))]
  refine (if_neg hc).trans ?_
  show (v, q == 0) = (v, true)
  rw [show q = 0 from congrArg (Option.getD · 8) hq]
  rfl

end

end Sys2Proof.Machine

namespace Sys2Proof.Machine
open Sys2Proof

-- Short theorems, many of them: one after another, so that the threads' stacks stay within the check's memory.
set_option Elab.async false

/-! ## Received frames that are discarded (R56, R338, R342, R348, R353, R355) -/

section
variable {s : State} {port : PortId} {at_ : Nat} {x : FrameInfo} {h : FabricHeader}

theorem State.ownerOfPort_of_built {s t : State} (h : ∀ p, (t.pt p).built = (s.pt p).built) (port : Nat) :
    t.ownerOfPort port = s.ownerOfPort port := by
  unfold State.ownerOfPort State.ownerBy
  simp only [h]

theorem Traffic.built {s t : State} (h : Traffic s t) (p : Nat) : (t.pt p).built = (s.pt p).built := congrArg (·.built) (h.rest p)

theorem Traffic.ownerOfPort {s t : State} (h : Traffic s t) (port : Nat) : t.ownerOfPort port = s.ownerOfPort port :=
  State.ownerOfPort_of_built h.built port

/-- What an instruction of a received transport frame does with its fate: what arrives, taken on from queue 0. -/
def TakesFrame (i : Instr) (s : State) (port at_ : Nat) (x : FrameInfo) (h : FabricHeader) (fate : FrameFate) : Prop :=
  ∃ data own, exec i s = .next
    (if (s.arrive port at_ x fate).2 then (s.arrive port at_ x fate).1.frameIn port x h data own else (s.arrive port at_ x fate).1)

/-- The four instructions of received transport frames. -/
theorem takesFrame_of {data : List Byte} {mirror : List MirrorItem} {errs : AccessErrors} {i : FrameFate → Instr} (hlt : port.val < 64)
    (hup : s.portUp port = true)
    (hi : ((∀ f, i f = .dataFrame port at_ ⟨x, h⟩ data mirror f errs) ∧ h.kind = kdData) ∨
      ((∀ f, i f = .nullFrame port at_ ⟨x, h⟩ f) ∧ h.kind = kdNull) ∨
      ((∀ f, i f = .ack port at_ ⟨x, h⟩ f) ∧ h.kind = kdAck ∧ h.flags.testBit fgNak = false) ∨
      ((∀ f, i f = .nak port at_ ⟨x, h⟩ f) ∧ h.kind = kdAck ∧ h.flags.testBit fgNak = true)) (fate : FrameFate) :
    TakesFrame (i fate) s port at_ x h fate := by
  rcases hi with ⟨hi, hk⟩ | ⟨hi, hk⟩ | ⟨hi, hk, hn⟩ | ⟨hi, hk, hn⟩
  · refine ⟨data, fun s p => s.takeFrame p port h data mirror errs, ?_⟩
    rw [hi]
    unfold exec execDataFrame
    exact takes_of (by simp [hlt, hup, hk]) s _
  · refine ⟨[], fun s p => s.takeFrame p port h [] [] AccessErrors.none, ?_⟩
    rw [hi]
    unfold exec execNullFrame
    exact takes_of (by simp [hlt, hup, hk]) s _
  · refine ⟨[], fun s p => s.takeAck p port h false, ?_⟩
    rw [hi]
    unfold exec execAck
    exact takes_of (by simp [hlt, hup, hk, hn]) s _
  · refine ⟨[], fun s p => s.takeAck p port h true, ?_⟩
    rw [hi]
    unfold exec execNak
    exact takes_of (by simp [hlt, hup, hk, hn]) s _

theorem Changes.sameMemory {F : List Aspect} {s t : State} (h : Changes F s t) (hF : decide (Aspect.mem ∈ F) = false := by rfl) :
    SameMemory s t := fun b => by
  unfold State.memByte
  rw [h.kept .mem hF]

/-- A counter of the receive side that is advanced after what was due has left, as the frame is discarded. -/
theorem State.rg_counted {k : Nat} (hb : objBytes k = some 8) {u : State} (hu : u.rg k = s.rg k) (port : Nat) :
    ((u.incRg k 1).discarded port).rg k = (s.rg k + 1) % 2 ^ 64 := by
  rw [State.rg_discarded, State.rg_incRg_bytes hb (by decide), hu]

theorem State.rg_portTime (s : State) (port at_ : Nat) {k : Nat} (hk : NotSent k) : (s.portTime port at_).rg k = s.rg k :=
  (traffic_portTime s port at_).rg k hk

theorem State.mem_portTime (s : State) (port at_ : Nat) : (s.portTime port at_).mem = s.mem := (traffic_portTime s port at_).changes.kept .mem

theorem State.sameMemory_of_mem {s t : State} (h : t.mem = s.mem) : SameMemory s t := fun b => by
  unfold State.memByte
  rw [h]

theorem State.mem_discarded (s : State) (port : Nat) : (s.discarded port).mem = s.mem := (State.changes_discarded s port).kept .mem

theorem State.mem_received (s : State) (port : Nat) : (s.received port).mem = s.mem := (State.changes_received s port).kept .mem

/-- A frame that arrives and goes no further. -/
theorem TakesFrame.gives {i : Instr} {fate : FrameFate} {post : State → Prop} {u : State} (hi : TakesFrame i s port at_ x h fate)
    (hu : s.arrive port at_ x fate = (u, false)) (hpost : post u) : Gives i s post := by
  obtain ⟨data, own, e⟩ := hi
  refine ⟨u, ?_, hpost⟩
  rw [e, hu]
  rfl

/-- A frame above MAX_FRAME counts as oversize, whatever its FCS. -/
theorem oversize_counts (s : State) (port : PortId) (at_ : Nat) :
    (((s.portTime port at_).incRg (Obj.RX_OVERSIZE port) 1).discarded port).rg (Obj.RX_OVERSIZE port) =
        (s.rg (Obj.RX_OVERSIZE port) + 1) % 2 ^ 64 ∧
      (((s.portTime port at_).incRg (Obj.RX_OVERSIZE port) 1).discarded port).rg (Obj.RX_FRAMES port) = s.rg (Obj.RX_FRAMES port) ∧
      SameMemory s (((s.portTime port at_).incRg (Obj.RX_OVERSIZE port) 1).discarded port) := by
  refine ⟨State.rg_counted (objBytes_RX_OVERSIZE port) (s.rg_portTime _ _ notSent_of_sub) port, ?_, ?_⟩
  · rw [State.rg_discarded]
    exact (State.rg_incRg_ne _ _ (okey_ne_of_sub (by decide))).trans (s.rg_portTime _ _ notSent_of_sub)
  · exact State.sameMemory_of_mem ((State.mem_discarded ..).trans (s.mem_portTime port at_))

/-- A bad FCS counts as such, and not as received. -/
theorem badFcs_counts (s : State) (port : PortId) (at_ : Nat) :
    (((s.portTime port at_).incRg (Obj.RX_FCS_ERRORS port) 1).discarded port).rg (Obj.RX_FCS_ERRORS port) =
        (s.rg (Obj.RX_FCS_ERRORS port) + 1) % 2 ^ 64 ∧
      (((s.portTime port at_).incRg (Obj.RX_FCS_ERRORS port) 1).discarded port).rg (Obj.RX_FRAMES port) = s.rg (Obj.RX_FRAMES port) ∧
      SameMemory s (((s.portTime port at_).incRg (Obj.RX_FCS_ERRORS port) 1).discarded port) := by
  refine ⟨State.rg_counted (objBytes_RX_FCS_ERRORS port) (s.rg_portTime _ _ notSent_of_sub) port, ?_, ?_⟩
  · rw [State.rg_discarded]
    exact (State.rg_incRg_ne _ _ (okey_ne_of_sub (by decide))).trans (s.rg_portTime _ _ notSent_of_sub)
  · exact State.sameMemory_of_mem ((State.mem_discarded ..).trans (s.mem_portTime port at_))

theorem RX_FRAMES_ne_RX_DROP (port q : Nat) {k : Nat} (hk : k < 8) : Obj.RX_FRAMES q ≠ Obj.RX_DROP port k := (RX_DROP_ne hk (by decide)).symm

/-- A frame without room is received, and counts for its queue. -/
theorem noRoom_counts (s : State) (port : PortId) (at_ : Nat) {q : Nat} (hq : q < 8) :
    ((((s.portTime port at_).received port).incRg (Obj.RX_DROP port q) 1).discarded port).rg (Obj.RX_DROP port q) =
        (s.rg (Obj.RX_DROP port q) + 1) % 2 ^ 64 ∧
      ((((s.portTime port at_).received port).incRg (Obj.RX_DROP port q) 1).discarded port).rg (Obj.RX_FRAMES port) =
        (s.rg (Obj.RX_FRAMES port) + 1) % 2 ^ 64 ∧
      SameMemory s ((((s.portTime port at_).received port).incRg (Obj.RX_DROP port q) 1).discarded port) := by
  refine ⟨State.rg_counted (objBytes_RX_DROP port ⟨q, hq⟩) ?_ port, ?_, ?_⟩
  · exact (State.rg_received_ne _ _ (RX_FRAMES_ne_RX_DROP _ _ hq).symm).trans (s.rg_portTime _ _ (notSent_RX_DROP port hq))
  · rw [State.rg_discarded, State.rg_incRg_ne _ _ (RX_FRAMES_ne_RX_DROP _ _ hq), State.rg_received_self,
      s.rg_portTime (k := Obj.RX_FRAMES port) _ _ notSent_of_sub]
  · exact State.sameMemory_of_mem ((State.mem_discarded ..).trans ((State.mem_received ..).trans (s.mem_portTime port at_)))

theorem State.regs_incStream (s : State) (i n : Nat) (f : Fld) : (s.incStream i f n).regs = s.regs := rfl

/-- An intact transport frame of another tick counts as stale, at the port and at its partition. -/
theorem stale_counts (s : State) (port : PortId) (p : PartId) (hp : s.ownerOfPort port = some p.val) (h : FabricHeader) :
    (s.dropFrame port h true).rg (Obj.STALE_FRAMES port) = (s.rg (Obj.STALE_FRAMES port) + 1) % 2 ^ 64 ∧
      (s.dropFrame port h true).rg (Obj.STALE_FRAMES_6100 p) = (s.rg (Obj.STALE_FRAMES_6100 p) + 1) % 2 ^ 64 := by
  have hne : Obj.STALE_FRAMES port ≠ Obj.STALE_FRAMES_6100 p := by
    simp only [Obj.STALE_FRAMES, Obj.STALE_FRAMES_6100, okey]
    omega
  unfold State.dropFrame
  extract_lets u v w
  have hw : w = (v.incRg (Obj.STALE_FRAMES_6100 p) 1) := by
    have ho : v.ownerOfPort port = some p.val :=
      (State.ownerOfPort_congr ((State.changes_discarded s port).kept .parts) port).trans hp
    show (match v.ownerOfPort port with
      | some p => v.incRg (Obj.STALE_FRAMES_6100 p) 1
      | none => v) = _
    rw [ho]
  have h1 : w.rg (Obj.STALE_FRAMES port) = (s.rg (Obj.STALE_FRAMES port) + 1) % 2 ^ 64 := by
    rw [hw, State.rg_incRg_ne _ _ hne]
    refine (State.rg_incRg_bytes (objBytes_STALE_FRAMES port) (by decide) u 1).trans ?_
    rw [show u.rg (Obj.STALE_FRAMES port) = s.rg (Obj.STALE_FRAMES port) from State.rg_discarded ..]
  have h2 : w.rg (Obj.STALE_FRAMES_6100 p) = (s.rg (Obj.STALE_FRAMES_6100 p) + 1) % 2 ^ 64 := by
    rw [hw, State.rg_incRg_bytes (objBytes_STALE_FRAMES_6100 p) (by decide)]
    rw [show v.rg (Obj.STALE_FRAMES_6100 p) = s.rg (Obj.STALE_FRAMES_6100 p) from (State.rg_incRg_ne _ _ hne.symm).trans (State.rg_discarded ..)]
  clear_value w
  split
  · exact ⟨h1, h2⟩
  · exact ⟨h1, h2⟩

/-- An intact transport frame of another tick is dropped as stale. -/
theorem gives_stale {i : Instr} {p : PartId} (hi : TakesFrame i s port at_ x h .intact) (hmax : x.bytes ≤ s.maxFrame port)
    (hp : s.ownerOfPort port = some p.val) (hsteer : s.steer port x = some 0) (hodd : s.oddKind x = false) (hres : h.reserved = 0)
    (htick : h.tick ≠ (s.pt p).gen.tick) :
    Gives i s fun t => t.rg (Obj.STALE_FRAMES port) = (s.rg (Obj.STALE_FRAMES port) + 1) % 2 ^ 64 ∧
      t.rg (Obj.STALE_FRAMES_6100 p) = (s.rg (Obj.STALE_FRAMES_6100 p) + 1) % 2 ^ 64 ∧ SameMemory s t := by
  obtain ⟨data, own, e⟩ := hi
  have harr := State.arrive_taken hmax at_ hodd hsteer
  have hc := traffic_portTime s port at_
  set u := (s.portTime port at_).received port with hu
  have hr : ∀ k, NotSent k → k ≠ Obj.RX_FRAMES port → u.rg k = s.rg k := fun k h1 h2 =>
    (State.rg_received_ne _ _ h2).trans (s.rg_portTime _ _ h1)
  have ho : u.ownerOfPort port = some p.val := by
    rw [hu, State.ownerOfPort_congr ((State.changes_received _ port).kept .parts), hc.ownerOfPort]
    exact hp
  have hgen : (u.pt p).gen = (s.pt p).gen :=
    Eq.trans (congrArg (fun x => x[p.val]?.getD Part.empty |>.gen) ((State.changes_received _ port).kept .parts)) (hc.changes.kept (.part .gen) rfl p)
  have hf : u.frameIn port x h data own = u.dropFrame port h true := by
    unfold State.frameIn
    rw [ho]
    exact (if_neg (by simp [hres])).trans (if_pos (by rw [hgen]; exact htick))
  obtain ⟨h1, h2⟩ := stale_counts u port p ho h
  refine ⟨u.dropFrame port h true, by rw [e, harr, ← hf]; rfl, ?_, ?_, ?_⟩
  · rw [h1, hr (Obj.STALE_FRAMES port) notSent_of_sub (okey_ne_of_sub (by decide))]
  · rw [h2, hr]
    · exact notSent_of_sub
    · simp only [Obj.STALE_FRAMES_6100, Obj.RX_FRAMES, okey]
      omega
  · exact State.sameMemory_of_mem (Eq.trans ((State.changes_dropFrame u port h true).kept .mem) ((State.mem_received ..).trans (s.mem_portTime port at_)))

/-- DROP_QUEUE_FRAME of a frame that is discarded whole. -/
theorem gives_dropQueueFrame {fate : FrameFate} {post : State → Prop} (hup : s.linkIsUp port = true)
    (hc : s.maxFrame port < x.bytes ∨ fate ≠ .intact ∨ s.oddKind x = true ∨ s.steer port x = some 7)
    (hpost : post (s.arrive port at_ x fate).1) : Gives (.dropQueueFrame port at_ x fate) s post := by
  refine gives_of_takes (by unfold exec execDropQueueFrame; rfl) ?_ hpost
  rw [hup, Bool.true_and]
  rcases hc with h | h | h | h
  · simp [h]
  · simp [h]
  · simp [h]
  · simp [State.steersAway_seven h]

theorem State.rg_awayCounted {u : State} {port : PortId} {x : FrameInfo} :
    (u.steer port x = some 7 → (u.awayCounted port x).rg (Obj.RX_DROP port 7) = (u.rg (Obj.RX_DROP port 7) + 1) % 2 ^ 64) ∧
    (u.oddKind x = true →
      (u.awayCounted port x).rg (Obj.UNEXPECTED_FRAMES port) = (u.rg (Obj.UNEXPECTED_FRAMES port) + 1) % 2 ^ 64) := by
  unfold State.awayCounted
  extract_lets v
  refine ⟨fun h => ?_, fun h => ?_⟩
  · have hv : v.rg (Obj.RX_DROP port 7) = (u.rg (Obj.RX_DROP port 7) + 1) % 2 ^ 64 := by
      unfold v
      rw [State.steersAway_seven h]
      exact State.rg_incRg_bytes (objBytes_RX_DROP port 7) (by decide) u 1
    rw [State.rg_discarded]
    split
    · exact (State.rg_incRg_ne _ _ (RX_DROP_ne (by decide) (by decide))).trans hv
    · exact hv
  · have hv : v.rg (Obj.UNEXPECTED_FRAMES port) = u.rg (Obj.UNEXPECTED_FRAMES port) := by
      unfold v
      cases e : u.steersAway port x with
      | none => rfl
      | some q =>
        have hq : q < 8 := by
          unfold State.steersAway at e
          dsimp only at e
          split at e
          next hc =>
            obtain rfl := Option.some.inj e
            simp only [Bool.or_eq_true, decide_eq_true_eq, Bool.and_eq_true, beq_iff_eq] at hc
            omega
          next => exact absurd e nofun
        exact State.rg_incRg_ne _ _ (RX_DROP_ne hq (by decide)).symm
    rw [if_pos h, State.rg_discarded, State.rg_incRg_bytes (objBytes_UNEXPECTED_FRAMES port) (by decide), hv]

/-- Settles O33: every discarded frame goes through `State.arrive` or is dropped as stale, and each way counts what it must. -/
theorem framesDiscarded : Obligations.FramesDiscarded := by
  unfold Obligations.FramesDiscarded
  intro port at_ x h data mirror errs fate i s queue
  have hq : queue < 8 := Nat.lt_succ_of_le (Nat.min_le_right _ _)
  constructor
  · rintro ⟨hlt, hup, hi⟩
    have htake := fun fate => takesFrame_of (s := s) hlt hup hi fate
    refine ⟨fun hmax => (htake fate).gives (State.arrive_oversize hmax at_ fate) (oversize_counts s port at_), fun hmax =>
      ⟨(htake _).gives (State.arrive_badFcs hmax at_) (badFcs_counts s port at_),
        (htake _).gives (State.arrive_noRoom hmax at_) (noRoom_counts s port at_ hq),
        fun p hp hsteer hodd hres htick => gives_stale (htake _) hmax hp hsteer hodd hres htick⟩⟩
  · intro hup
    refine ⟨fun hmax => gives_dropQueueFrame hup (.inl hmax) ?_, fun hmax => ⟨gives_dropQueueFrame hup (.inr (.inl nofun)) ?_,
      gives_dropQueueFrame hup (.inr (.inl nofun)) ?_, fun hs => gives_dropQueueFrame hup (.inr (.inr (.inr hs))) ?_,
      fun ho => gives_dropQueueFrame hup (.inr (.inr (.inl ho))) ?_⟩⟩
    · rw [State.arrive_oversize hmax]
      exact (oversize_counts s port at_).1
    · rw [State.arrive_badFcs hmax]
      exact (badFcs_counts s port at_).1
    · rw [State.arrive_noRoom hmax]
      exact (noRoom_counts s port at_ hq).1
    · rw [State.arrive_away hmax at_ (.inr hs), State.rg_awayCounted.1 ((s.steer_arrived ..).trans hs),
        State.rg_received_ne _ _ (RX_FRAMES_ne_RX_DROP _ _ (by decide)).symm, s.rg_portTime _ _ (notSent_RX_DROP port (by decide))]
    · rw [State.arrive_away hmax at_ (.inl ho), State.rg_awayCounted.2 ((s.oddKind_arrived ..).trans ho),
        State.rg_received_ne (k := Obj.UNEXPECTED_FRAMES port) _ _ (okey_ne_of_sub (by decide)),
        s.rg_portTime (k := Obj.UNEXPECTED_FRAMES port) _ _ notSent_of_sub]

end

end Sys2Proof.Machine

namespace Sys2Proof.Machine
open Sys2Proof

-- Short theorems, many of them: one after another, so that the threads' stacks stay within the check's memory.
set_option Elab.async false

/-! ## Slots of a slice while frames leave

Frames that leave move the progress of transmit slots alone: what a receive-expected slot has got stays. -/

section
variable {s t : State}

theorem State.memLE_congr (h : t.mem = s.mem) (a n : Nat) : t.memLE a n = s.memLE a n := by
  unfold State.memLE State.memBytes
  rw [h]

theorem State.slotEntry_congr (h : t.mem = s.mem) (b k n : Nat) : t.slotEntry b k n = s.slotEntry b k n := by
  unfold State.slotEntry State.memRec State.secAddr State.sliceAddr State.blkSliceIndex
  simp only [State.memLE_congr h]

theorem State.blockOf_congr (h : t.mem = s.mem) {p : Nat} (hj : (t.pt p).jobs = (s.pt p).jobs) (j : Nat) : t.blockOf p j = s.blockOf p j := by
  unfold State.blockOf State.payloadOf Part.job
  simp only [State.memLE_congr h, hj]

/-- The entry of a port slot of the slice in progress. -/
def State.slotNow (s : State) (p n : Nat) : Option (BitVec 256) :=
  (s.pt p).slice.map (fun r => s.slotEntry (s.blockOf p r.job) r.number n)

theorem Traffic.slotNow (h : Traffic s t) (p n : Nat) : t.slotNow p n = s.slotNow p n := by
  have hm : t.mem = s.mem := h.changes.kept .mem
  have hj : (t.pt p).jobs = (s.pt p).jobs := h.changes.kept (.part .jobs) rfl p
  have hs := congrArg (Option.map (fun x => (x.1.job, x.1.number))) (h.slice p)
  simp only [Option.map_map] at hs
  have key (u : State) (hm : u.mem = s.mem) (hj : (u.pt p).jobs = (s.pt p).jobs) :
      u.slotNow p n = ((u.pt p).slice.map (fun r => (r.job, r.number))).map (fun x => s.slotEntry (s.blockOf p x.1) x.2 n) := by
    unfold State.slotNow
    rw [Option.map_map]
    refine congrArg (fun f => (u.pt p).slice.map f) (funext fun r => ?_)
    rw [State.slotEntry_congr hm, State.blockOf_congr hm hj]
    rfl
  have h1 := key t hm hj
  have h2 := key s rfl rfl
  have h3 : (t.pt p).slice.map (fun r => (r.job, r.number)) = (s.pt p).slice.map (fun r => (r.job, r.number)) := hs
  rw [h1, h2, h3]

theorem firstOf_foldl_mem {α : Type} (f g : α → Nat) (l : List α) (m : Option (Nat × Nat × α)) {y : Nat × Nat × α}
    (h : l.foldl (fun m x => firstOf m (f x, g x, x)) m = some y) : m = some y ∨ ∃ x ∈ l, y = (f x, g x, x) := by
  induction l generalizing m with
  | nil => exact .inl h
  | cons x l ih =>
    rcases ih _ h with h | ⟨z, hz, e⟩
    · rcases firstOf_cases m (f x, g x, x) with e | e
      · exact .inr ⟨x, List.mem_cons_self, (Option.some.inj (e.symm.trans h)).symm⟩
      · exact .inl (e.symm.trans h)
    · exact .inr ⟨z, List.mem_cons_of_mem _ hz, e⟩

theorem State.dir_of_txReady {p b k n : Nat} {r : SliceRun} {x : TxReady} (h : s.txReady p b k r n = some x) :
    x.n = n ∧ Ps.direction.get (s.slotEntry b k n) = dirTx := by
  unfold State.txReady at h
  extract_lets e i st io y total at h
  split at h
  next hc =>
    simp only [Bool.and_eq_true, decide_eq_true_eq, beq_iff_eq] at hc
    split at h
    · split at h
      · rw [← Option.some.inj h]
        exact ⟨rfl, by simp_all [e]⟩
      · exact absurd h nofun
    · exact absurd h nofun
  next => exact absurd h nofun

/-- The slot of the next slot frame transmits. -/
theorem State.dir_of_nextSlotFrame {port lo : Nat} {x : Nat × Nat × TxReady} (h : s.nextSlotFrame port lo = some x) :
    ∃ p, s.ownerOfPort port = some p ∧ ∃ e, s.slotNow p x.2.2.n = some e ∧ Ps.direction.get e = dirTx := by
  unfold State.nextSlotFrame at h
  split at h
  next => exact absurd h nofun
  next p hp =>
    split at h
    next => exact absurd h nofun
    next b k r hr =>
      rcases firstOf_foldl_mem _ _ _ none h with h | ⟨z, hz, rfl⟩
      · exact absurd h nofun
      · obtain ⟨m, -, hm⟩ := List.mem_filterMap.mp (List.mem_filter.mp hz).1
        obtain ⟨h1, h2⟩ := State.dir_of_txReady hm
        refine ⟨p, hp, s.slotEntry b k m, ?_, h2⟩
        obtain ⟨r', h3, h4⟩ := Option.map_eq_some_iff.mp hr
        simp only [Prod.mk.injEq] at h4
        obtain ⟨rfl, rfl, rfl⟩ := h4
        simp [State.slotNow, h3, h1]

/-- What a slot of a partition has sent and got. -/
def State.ioNow (s : State) (p n : Nat) : Option SlotIO := (s.pt p).slice.map (·.slotIO n)

/-- A slot that does not transmit. -/
def State.NoTx (s : State) (p n : Nat) : Prop := ∀ e, s.slotNow p n = some e → Ps.direction.get e ≠ dirTx

theorem Traffic.noTx (h : Traffic s t) {p n : Nat} (hn : s.NoTx p n) : t.NoTx p n := by
  unfold State.NoTx
  rw [h.slotNow]
  exact hn

theorem State.ioNow_congr {p n : Nat} (h : (t.pt p).slice = (s.pt p).slice) : t.ioNow p n = s.ioNow p n := by
  unfold State.ioNow
  rw [h]

theorem State.slice_sendMirrors (s : State) (p q : Nat) : ((s.sendMirrors q).pt p).slice = (s.pt p).slice :=
  (State.changes_sendMirrors s q).kept (.part .slice) rfl p

theorem State.slice_txStart (s : State) (port wire t p : Nat) : ((s.txStart port wire t).pt p).slice = (s.pt p).slice :=
  (State.changes_txStart s port wire t).kept (.part .slice) rfl p

/-- A slot frame moves its own slot alone. -/
theorem State.ioNow_sendFrame {p q b k n : Nat} {r : SliceRun} {x : TxReady} (hx : q = p → x.n ≠ n) (t : Nat) :
    (s.sendFrame q b k r x t).ioNow p n = s.ioNow p n := by
  unfold State.sendFrame
  extract_lets e st io run null total len again fl _ data s1 s2 s3 s4 s5
  have h2 : (s2.pt p).slice = (s.pt p).slice := by
    have h1 : (s1.pt p).slice = (s.pt p).slice := State.slice_txStart ..
    unfold s2
    split
    · exact (State.slice_sendMirrors ..).trans h1
    · exact h1
  have h5 : (s5.pt p).slice = (s.pt p).slice := by
    have h4 : (s4.pt p).slice = (s.pt p).slice := by
      unfold s4
      split <;> exact h2
    unfold s5
    split <;> exact h4
  clear_value s5
  rw [← State.ioNow_congr h5]
  unfold State.ioNow
  by_cases hq : p = q
  · subst hq
    by_cases hp : p < 12
    · rw [State.pt_modPt_self _ hp, Part.modSlice]
      cases (s5.pt p).slice with
      | none => rfl
      | some r' =>
        simp only [Option.map_some, SliceRun.slotIO, SliceRun.setSlotIO, SMap.getD_put_ne _ _ _ (hx rfl).symm]
    · rw [show (s5.modPt p _).pt p = s5.pt p by simp [State.modPt, State.pt, hp]]
  · rw [State.pt_modPt_ne _ hq]

theorem State.ioNow_sendWaiting (s : State) (port t i p n : Nat) (w : TxItem) : (s.sendWaiting port t i w).ioNow p n = s.ioNow p n :=
  State.ioNow_congr ((State.changes_sendWaiting s port t i w).kept (.part .slice) rfl p)

/-- A slot that does not transmit is as before while frames leave. -/
theorem State.ioNow_pumpPort {p n : Nat} (port lo hi m : Nat) (h : s.NoTx p n) :
    (State.pumpPort port lo hi m s).ioNow p n = s.ioNow p n := by
  induction m generalizing s with
  | zero => rfl
  | succ m ih =>
    have waiting (t i w) : (State.pumpPort port lo hi m (s.sendWaiting port t i w)).ioNow p n = s.ioNow p n :=
      (ih ((traffic_sendWaiting s port t i w).noTx h)).trans (s.ioNow_sendWaiting port t i p n w)
    have slot {x} (hx : s.nextSlotFrame port lo = some x) : (State.pumpPort port lo hi m (s.sendSlot port x.1 x.2.2)).ioNow p n = s.ioNow p n := by
      refine (ih ((traffic_sendSlot s port x.1 x.2.2).noTx h)).trans ?_
      obtain ⟨q, hq, e, he, hd⟩ := State.dir_of_nextSlotFrame hx
      unfold State.sendSlot
      rw [hq]
      dsimp only
      split
      · rfl
      · exact State.ioNow_sendFrame (fun hqp hn => h e (by rw [← hqp, ← hn]; exact he) hd) x.1
    unfold State.pumpPort
    split
    · rfl
    · split
      · rfl
      · split
        · exact waiting ..
        · rfl
      next hx =>
        split
        · exact slot hx
        · rfl
      next hx =>
        split
        · split
          · exact slot hx
          · rfl
        · split
          · exact waiting ..
          · rfl

theorem State.ioNow_pumpOne {p n : Nat} (port lo : Nat) (h : s.NoTx p n) : (s.pumpOne port lo).ioNow p n = s.ioNow p n :=
  State.ioNow_pumpPort _ _ _ _ h

theorem State.ioNow_sendAck {p n : Nat} (q port : Nat) (h : FabricHeader) (expect : Nat) (nak : Bool) (hn : s.NoTx p n) :
    (s.sendAck q port h expect nak).ioNow p n = s.ioNow p n := by
  have key (cls prio wire x) : (s.send port cls prio wire x).ioNow p n = s.ioNow p n :=
    State.ioNow_pumpOne (s := s.queueTx port cls prio wire x) _ _ hn
  unfold State.sendAck
  split
  · rfl
  · dsimp only
    split
    · exact key ..
    · exact key ..

/-- An acknowledgement that leaves changes of the slice no more than other frames that leave. -/
theorem State.unsent_sendAck (s : State) (q port : Nat) (h : FabricHeader) (expect : Nat) (nak : Bool) (p : Nat) :
    ((s.sendAck q port h expect nak).pt p).unsent = (s.pt p).unsent := by
  unfold State.sendAck
  split
  · rfl
  · dsimp only
    split
    · exact (traffic_send ..).pt p
    · exact (traffic_send ..).pt p

/-! ## Frames that a slot takes (R355 to R357, R359) -/

/-- What a slot and its frames have come to. -/
theorem State.slot_of_unsent {p n : Nat} {r : SliceRun} (hu : (t.pt p).unsent = (s.pt p).unsent) (hio : t.ioNow p n = s.ioNow p n)
    (hr : (s.pt p).slice = some r) : ∃ r', (t.pt p).slice = some r' ∧ r'.slotIO n = r.slotIO n ∧ r'.slot n = r.slot n := by
  have h := congrArg Prod.snd hu
  simp only [Part.unsent, hr, Option.map_some] at h
  obtain ⟨r', hr', he⟩ := Option.map_eq_some_iff.mp h
  refine ⟨r', hr', ?_, ?_⟩
  · unfold State.ioNow at hio
    rw [hr, hr'] at hio
    exact Option.some.inj hio
  · exact congrArg (fun x => x.1.slot n) he

/-- A receive-expected slot after a frame in its turn: what it writes, and how far it is. -/
structure SlotTook (s t : State) (p n : Nat) (h : FabricHeader) (data : List Byte) (r : SliceRun) : Prop where
  slot : ∃ r', (t.pt p).slice = some r' ∧ (r'.slotIO n).expect = h.seq + 1 ∧ (r'.slotIO n).got = (r.slotIO n).got + data.length ∧
    (h.flags.testBit fgLast = true → (r'.slot n).state = .finished)

theorem SliceRun.slotIO_setSlotIO (r : SliceRun) (n : Nat) (io : SlotIO) : (r.setSlotIO n io).slotIO n = io := SMap.getD_put_self ..

theorem SliceRun.slot_setSlot (r : SliceRun) (n : Nat) (x : ItemRun) : (r.setSlot n x).slot n = x := SMap.getD_put_self ..

/-- The slot's record after a frame. -/
theorem State.slice_put {p : PartId} {n : Nat} {x : ItemRun} {io : SlotIO} (h : (s.pt p).slice.isSome = true) :
    ∃ r', ((s.modPt p (·.modSlice (fun r => (r.setSlot n x).setSlotIO n io))).pt p).slice = some r' ∧ r'.slotIO n = io ∧ r'.slot n = x := by
  obtain ⟨r, hr⟩ := Option.isSome_iff_exists.mp h
  refine ⟨(r.setSlot n x).setSlotIO n io, ?_, SliceRun.slotIO_setSlotIO .., SliceRun.slot_setSlot ..⟩
  rw [State.pt_modPt_fin, Part.modSlice, hr]
  rfl

end

end Sys2Proof.Machine

namespace Sys2Proof.Machine
open Sys2Proof

-- Short theorems, many of them: one after another, so that the threads' stacks stay within the check's memory.
set_option Elab.async false

/-! ## Transmit slots, repetition and relay (R354, R357, R359, R363) -/

section
variable {s : State}

/-- The record of a slot stays while frames leave. -/
theorem Traffic.slot {t u : State} (h : Traffic t u) {p n : Nat} {r : SliceRun} (hr : (t.pt p).slice = some r) :
    ∃ r', (u.pt p).slice = some r' ∧ r'.slot n = r.slot n := by
  obtain ⟨r', hr', he⟩ := h.slice_some hr
  exact ⟨r', hr', congrArg (fun x => x.1.slot n) he⟩

/-- A slot that was set is there after what may start now has started. -/
theorem State.slot_resumeSending {t : State} {p : PartId} {n : Nat} {x : ItemRun} (h : (t.pt p).slice.isSome = true) :
    ∃ r', (((t.modPt p (·.modSlice (·.setSlot n x))).resumeSending p).pt p).slice = some r' ∧ r'.slot n = x := by
  obtain ⟨r, hr⟩ := Option.isSome_iff_exists.mp h
  have h1 : ((t.modPt p (·.modSlice (·.setSlot n x))).pt p).slice = some (r.setSlot n x) := by
    rw [State.pt_modPt_fin, Part.modSlice, hr]
    rfl
  obtain ⟨r', hr', hn⟩ := (traffic_resumeSending _ p).slot (n := n) h1
  exact ⟨r', hr', hn.trans (SliceRun.slot_setSlot ..)⟩

theorem Traffic.there {t u : State} (h : Traffic t u) (p : Nat) : (u.pt p).slice.isSome = (t.pt p).slice.isSome := by
  have := congrArg Option.isSome (h.slice p)
  simpa using this

/-- What a batt source delivers. -/
theorem State.readEnd_batt {v : State} {ag : Agent} {errs : AccessErrors} {q l a c n : Nat} (hc : v.logicalCluster ag.part q l = some c)
    (ha : a + n ≤ battSize) : (v.readEnd ag errs false (.batt q l a) n).2 = Got.of (((v.cl c).before (v.cycleNow ag.part)).battRead a n) noVersion := by
  unfold State.readEnd
  simp only [hc, if_neg (Nat.not_lt.mpr ha)]
  split <;> rfl

/-- What a transmit slot with entry `e` starts with, by its alternative. -/
def State.slotBegins (v : State) (p : Nat) (e : BitVec 256) (errs : AccessErrors) : State × ItemRun :=
  let start := Ps.startNs.get e
  let null : ItemRun := ⟨.running, start, 0, [], noVersion, 1, []⟩
  match v.altRead p (Ps.alt.get e) start with
  | .taken =>
    let ag : Agent := ⟨p, start, lateNetwork (v.slotQuarter p e), none⟩
    let (s, g) := v.readEnd ag errs false (endpointOf (Ps.buffer.get e)) (Ps.length.get e)
    let (s, _) := s.pathErrors ag errs
    (s, if g.moved then ⟨.running, start, 0, g.bytes, g.version, 0, g.runs⟩ else null)
  | .notTaken => (v, null)
  | .undecided c => ((v.countC c 1 c (wEvent 3) 1).lateC c, null)

theorem State.there_slotBegins (v : State) (p : Nat) (e : BitVec 256) (errs : AccessErrors) :
    ((v.slotBegins p e errs).1.pt p).slice.isSome = (v.pt p).slice.isSome := by
  unfold State.slotBegins
  dsimp only
  split
  · exact Eq.trans ((State.changes_pathErrors _ _ errs).kept (.part .there) rfl p)
      ((State.changes_readEnd v _ errs false _ _).kept (.part .there) rfl p)
  · rfl
  · exact Eq.trans ((State.changes_lateC _ _).kept (.part .there) rfl p) ((State.changes_countC v _ _ _ _ _).kept (.part .there) rfl p)

theorem State.slotBegins_runs (v : State) (p : Nat) (e : BitVec 256) (errs : AccessErrors) :
    (v.slotBegins p e errs).2.state = .running ∧ (v.slotBegins p e errs).2.start = Ps.startNs.get e := by
  unfold State.slotBegins
  dsimp only
  split
  · dsimp only
    split <;> exact ⟨rfl, rfl⟩
  · exact ⟨rfl, rfl⟩
  · exact ⟨rfl, rfl⟩

theorem State.slotBegins_notTaken {v : State} {p : Nat} {e : BitVec 256} (errs : AccessErrors)
    (h : v.altRead p (Ps.alt.get e) (Ps.startNs.get e) = .notTaken) :
    (v.slotBegins p e errs).2.aux = 1 ∧ (v.slotBegins p e errs).2.data = [] := by
  unfold State.slotBegins
  simp only [h, and_self]

theorem State.slotBegins_batt {v : State} {p : Nat} {e : BitVec 256} (errs : AccessErrors) {q l a c : Nat}
    (h : v.altRead p (Ps.alt.get e) (Ps.startNs.get e) = .taken) (he : endpointOf (Ps.buffer.get e) = .batt q l a)
    (hc : v.logicalCluster p q l = some c) (ha : a + Ps.length.get e ≤ battSize) :
    (v.slotBegins p e errs).2.aux = 0 ∧ (v.slotBegins p e errs).2.data = ((v.cl c).before (v.cycleNow p)).battRead a (Ps.length.get e) := by
  have hg := State.readEnd_batt (v := v) (ag := ⟨p, Ps.startNs.get e, lateNetwork (v.slotQuarter p e), none⟩) (errs := errs) hc ha
  unfold State.slotBegins
  simp only [h, he, hg]
  exact ⟨rfl, rfl⟩

/-- TRANSMIT_SLOT runs its slot from START_NS. -/
theorem gives_transmitSlot {p : PartId} {n b k : Nat} {errs : AccessErrors} {r : SliceRun} (hstart : s.slotStarts p n = true)
    (hrun : s.running p = some (b, k, r)) :
    let e := s.slotEntry b k n
    let v := s.advanceTo p ((s.pt p).edgeNs + Ps.startNs.get e)
    let alt := v.altRead p (Ps.alt.get e) (Ps.startNs.get e)
    Gives (.transmitSlot p n errs) s (fun t => ∃ r', (t.pt p).slice = some r' ∧ (r'.slot n).state = .running ∧
      (r'.slot n).start = Ps.startNs.get e ∧
      (alt = .notTaken → (r'.slot n).aux = 1 ∧ (r'.slot n).data = []) ∧
      (∀ q l a c, alt = .taken → endpointOf (Ps.buffer.get e) = .batt q l a → v.logicalCluster p q l = some c →
        a + Ps.length.get e ≤ 4 * 2 ^ 20 →
        (r'.slot n).aux = 0 ∧ (r'.slot n).data = ((v.cl c).before (v.cycleNow p)).battRead a (Ps.length.get e))) := by
  intro e v alt
  refine gives_of_takes (by unfold exec execTransmitSlot; rfl) hstart ?_
  have hv : (v.pt p).slice.isSome = true := by
    rw [show (v.pt p).slice.isSome = (s.pt p).slice.isSome from (traffic_advanceTo s p _).there p, State.slice_of_running hrun]
    rfl
  rw [hrun]
  show ∃ r', (((((v.slotBegins p e errs).1).modPt p (·.modSlice (·.setSlot n (v.slotBegins p e errs).2))).resumeSending p).pt p).slice =
    some r' ∧ _
  obtain ⟨r', hr', hn⟩ := State.slot_resumeSending (n := n) (x := (v.slotBegins p e errs).2) ((v.there_slotBegins p e errs).trans hv)
  obtain ⟨h1, h2⟩ := v.slotBegins_runs p e errs
  refine ⟨r', hr', by rw [hn]; exact h1, by rw [hn]; exact h2, fun ha => ?_, fun q l a c ha he hc hle => ?_⟩
  · rw [hn]
    exact State.slotBegins_notTaken errs ha
  · rw [hn]
    exact State.slotBegins_batt errs ha he hc hle

/-- An overdue slot is sent again from its oldest unacknowledged frame. -/
theorem gives_ackTimeout {p : PartId} {n at_ : Nat} {r : SliceRun} (hdue : (s.advanceTo p at_).ackOverdue p n = true)
    (hr : ((s.advanceTo p at_).pt p).slice = some r) :
    Gives (.ackTimeout p n at_) s fun t => ∃ y r', t = y.resumeSending p ∧ (y.pt p).slice = some r' ∧
      (r'.slotIO n).sent = (r.slotIO n).acked ∧ (r'.slotIO n).acked = (r.slotIO n).acked ∧ SamePlant (s.advanceTo p at_) y ∧
      y.regs = (s.advanceTo p at_).regs := by
  refine gives_of_takes (by unfold exec execAckTimeout; rfl) hdue ?_
  generalize s.advanceTo p at_ = v at hr ⊢
  refine ⟨_, r.setSlotIO n { r.slotIO n with sent := (r.slotIO n).acked }, rfl, ?_, ?_, ?_, ⟨rfl, rfl, rfl, rfl, rfl, rfl, rfl⟩, rfl⟩
  · rw [State.pt_modPt_fin, Part.modSlice, hr]
    rfl
  · rw [SliceRun.slotIO_setSlotIO]
  · rw [SliceRun.slotIO_setSlotIO]

theorem objBytes_RELAY_DROPS (port : PortId) : objBytes (Obj.RELAY_DROPS port) = some 8 := by
  revert port
  decide +kernel

theorem objBytes_RELAY_FORWARDED (port : PortId) : objBytes (Obj.RELAY_FORWARDED port) = some 8 := by
  revert port
  decide +kernel

/-- A relayed frame that no stream takes on is dropped and counted. -/
theorem gives_relayForward_drop {p : PartId} {port : PortId} {at_ : Nat} {x : FrameInfo} {h : FabricHeader} {data : List Byte}
    {rest : List (FrameInfo × FabricHeader × List Byte)} (hq : SMap.getD [] s.relays port = (x, h, data) :: rest)
    (hp : s.ownerOfPort port = some p.val) (hi : s.relayStream p port h = none) :
    Gives (.relayForward port at_) s fun t => SMap.getD [] t.relays port = rest ∧
      t.rg (Obj.RELAY_DROPS port) = (s.rg (Obj.RELAY_DROPS port) + 1) % 2 ^ 64 := by
  have e : exec (.relayForward port at_) s =
      .next (({ s with relays := SMap.put [] s.relays port rest } : State).incRg (Obj.RELAY_DROPS port) 1) := by
    show execRelayForward port at_ s = _
    unfold execRelayForward
    rw [hq, hp]
    dsimp only
    rw [hi]
  exact gives_of_next e ⟨SMap.getD_put_self .., State.rg_incRg_bytes (objBytes_RELAY_DROPS port) (by decide) _ 1⟩

/-- A relayed frame leaves in idle time, as it arrived but for its addresses. -/
theorem gives_relayForward {p : PartId} {port : PortId} {at_ i : Nat} {x : FrameInfo} {h : FabricHeader} {data : List Byte}
    {rest : List (FrameInfo × FabricHeader × List Byte)} (hq : SMap.getD [] s.relays port = (x, h, data) :: rest)
    (hp : s.ownerOfPort port = some p.val) (hi : s.relayStream p port h = some i) (hawake : (s.advanceTo p at_).txAwake port = true)
    (hat : s.now ≤ at_) (hfits : s.relayFits p port at_ (x.bytes + 20) = true)
    (hgate : (s.advanceTo p at_).txGate port ((x.vlan.getD 0) / 2 ^ 13) ≤ 100 * at_) (hempty : SMap.getD [] (s.advanceTo p at_).txq port = []) :
    Gives (.relayForward port at_) s fun t => SMap.getD [] t.relays port = rest ∧
      t.out = .frame port ((s.advanceTo p at_).relayHead port ((s.advanceTo p at_).streamE i) x h data) h data :: (s.advanceTo p at_).out ∧
      t.rg (Obj.RELAY_FORWARDED port) = (s.rg (Obj.RELAY_FORWARDED port) + 1) % 2 ^ 64 := by
  have hprio : (match x.vlan with
      | some t => t / 2 ^ 13
      | none => 0) = (x.vlan.getD 0) / 2 ^ 13 := by
    cases x.vlan <;> rfl
  have hv := traffic_advanceTo s p at_
  generalize hu : s.advanceTo p at_ = v at hawake hgate hempty hv ⊢
  have hc : (v.txAwake port && decide (s.now ≤ at_) && s.relayFits p port at_ (x.bytes + 20) &&
      decide (v.txGate port ((x.vlan.getD 0) / 2 ^ 13) ≤ 100 * at_) && (SMap.getD [] v.txq port).isEmpty) = true := by
    simp only [hawake, hat, hfits, hgate, hempty, decide_true, Bool.and_self, List.isEmpty_nil]
  have e : exec (.relayForward port at_) s = .next
      (((({ v with relays := SMap.put [] v.relays port rest } : State).emit
        (.frame port (v.relayHead port (v.streamE i) x h data) h data)).txStart port (x.bytes + 20) (100 * at_)).incRg
          (Obj.RELAY_FORWARDED port) 1) := by
    rw [← hprio, ← hu] at hc
    show execRelayForward port at_ s = _
    unfold execRelayForward
    rw [hq, hp]
    dsimp only
    rw [hi]
    dsimp only
    exact (takes_of hc s _).trans (by rw [hu]; rfl)
  refine gives_of_next e ⟨?_, ?_, ?_⟩
  · rw [State.relays_incRg, (State.changes_txStart ..).kept .relays]
    exact SMap.getD_put_self ..
  · rw [State.out_incRg, (State.changes_txStart ..).kept .out]
    rfl
  · rw [State.rg_incRg_bytes (objBytes_RELAY_FORWARDED port) (by decide)]
    have h1 := (traffic_txStart (({ v with relays := SMap.put [] v.relays port rest } : State).emit
      (.frame port (v.relayHead port (v.streamE i) x h data) h data)) port (x.bytes + 20) (100 * at_)).rg (Obj.RELAY_FORWARDED port) notSent_of_sub
    rw [h1]
    exact congrArg (fun y => (y + 1) % 2 ^ 64) (hv.rg (Obj.RELAY_FORWARDED port) notSent_of_sub)

/-- Settles O35: each command of sending under its premise. -/
theorem sendingCommands : Obligations.SendingCommands := by
  unfold Obligations.SendingCommands
  intro p port n at_ b k errs r s
  exact ⟨gives_transmitSlot, gives_ackTimeout, fun x h data rest hq hp => ⟨gives_relayForward_drop hq hp,
    fun i hi hawake hat hfits hgate hempty => gives_relayForward hq hp hi hawake hat hfits hgate hempty⟩⟩

end

end Sys2Proof.Machine

namespace Sys2Proof.Machine
open Sys2Proof

-- Short theorems, many of them: one after another, so that the threads' stacks stay within the check's memory.
set_option Elab.async false

/-! ## Edges of ticks (R33, R35, R51, R53) -/

/-- The generator of a tick that has begun: all but the closing guard. -/
structure TickGen.Begins (g : TickGen) (start tick len : Nat) : Prop where
  begun : g.begun = true
  start : g.start = start
  tick : g.tick = tick
  len : g.len = len
  stopping : g.stopping = false

/-- A tick that begins is the generator's tick. -/
theorem State.gen_beginTick (s : State) (p : PartId) (g n len : Nat) : ((s.beginTick p g n len).pt p).gen.Begins g n len := by
  unfold State.beginTick
  extract_lets s1 s2 s3 s4 s5 s6 s7 s8
  have h4 : (s4.pt p).gen.Begins g n len := by
    unfold s4
    rw [State.pt_modPt_fin]
    exact ⟨rfl, rfl, rfl, rfl, rfl⟩
  clear_value s4
  have h5 : (s5.pt p).gen = (s4.pt p).gen := (State.changes_setRg ..).kept (.part .gen) rfl p
  clear_value s5
  have h6 : (s6.pt p).gen = (s5.pt p).gen := by
    unfold s6
    rw [(State.changes_applyCopySwitch ..).kept (.part .gen) rfl p, (State.changes_applyResume ..).kept (.part .gen) rfl p,
      (State.changes_applyAbandon ..).kept (.part .gen) rfl p, (State.changes_applyCancels ..).kept (.part .gen) rfl p,
      (State.changes_applyStreams ..).kept (.part .gen) rfl p, (State.changes_takeUp ..).kept (.part .gen) rfl p]
  clear_value s6
  have h7 : (s7.pt p).gen = (s6.pt p).gen := by
    unfold s7
    rw [(State.changes_startJobs ..).kept (.part .gen) rfl p, (State.changes_sendRound1 ..).kept (.part .gen) rfl p]
  clear_value s7
  have h8 : (s8.pt p).gen = (s7.pt p).gen := by
    unfold s8
    rw [(State.changes_traceTick ..).kept (.part .gen) rfl p, (State.changes_applyGauge ..).kept (.part .gen) rfl p]
  clear_value s8
  have h : (s8.pt p).gen.Begins g n len := h8 ▸ h7 ▸ h6 ▸ h5 ▸ h4
  split
  next j k _ =>
    have h9 : (s8.startSlice p j k).pt p |>.gen.Begins g n len := by
      rw [(State.changes_startSlice s8 p j k).kept (.part .gen) rfl p]
      exact h
    split
    · exact h
    · dsimp only
      split
      · rw [(State.changes_dumpStepStart ..).kept (.part .gen) rfl p]
        exact h9
      · exact h9
  · exact h

/-- A due copy switch lets the settlement that stands ready stand. -/
theorem State.settling_faultHere (s : State) (p : PartId) (cause : Nat) (h : (s.pt p).settling.isSome = true) :
    ((s.faultHere p cause).pt p).settling.isSome = true := by
  unfold State.faultHere
  split
  · split
    · rw [State.pt_modPt_fin]
      rfl
    · rw [(State.changes_faultDue ..).kept (.part .settling) rfl p]
      exact h
  · rw [(State.changes_faultDue ..).kept (.part .settling) rfl p]
    exact h

theorem State.settling_applyCopySwitch (s : State) (p : PartId) (n : Nat) (h : (s.pt p).settling.isSome = true) :
    ((s.applyCopySwitch p n).pt p).settling.isSome = true := by
  unfold State.applyCopySwitch
  split
  · split
    · extract_lets t
      have ht : (t.pt p).settling.isSome = true := by
        unfold t
        refine List.foldlRecOn (motive := fun u : State => (u.pt p).settling.isSome = true) _ _ h fun u hu i _ => ?_
        extract_lets e c
        split
        · rw [(State.changes_applyCommit ..).kept (.part .settling) rfl p]
          exact hu
        · refine State.settling_faultHere _ p _ ?_
          rw [(State.changes_commitRefused ..).kept (.part .settling) rfl p]
          exact hu
      rw [State.pt_modPt_fin]
      exact ht
    · exact h
  · exact h

theorem State.settling_applyResume (s : State) (p : PartId) (n : Nat) (h : (s.pt p).settling.isSome = true) :
    ((s.applyResume p n).pt p).settling.isSome = true := by
  unfold State.applyResume
  extract_lets po first s1
  split
  next rc j _ _ =>
    extract_lets upd k run s2 s3 s4
    split
    · split
      · have h1 : (s1.pt p).settling = (s.pt p).settling := (State.changes_clearSources ..).kept (.part .settling) rfl p
        have h2 : (s2.pt p).settling.isSome = true := by
          unfold s2
          rw [State.pt_modPt_fin, Option.isSome_map, h1]
          exact h
        clear_value s2
        have h3 : (s3.pt p).settling = (s2.pt p).settling :=
          ((State.changes_setJobF ..).kept (.part .settling) rfl p).trans ((State.changes_setJobF ..).kept (.part .settling) rfl p)
        clear_value s3
        have h4 : (s4.pt p).settling = (s3.pt p).settling := rfl
        clear_value s4
        rw [(State.changes_updatePart ..).kept (.part .settling) rfl p, (State.changes_setFilter ..).kept (.part .settling) rfl p,
          (State.changes_setRg ..).kept (.part .settling) rfl p, h4, h3]
        exact h2
      · exact h
    · exact h
  · exact h

/-- The settlement that stands ready at an edge still does once the next tick has begun. -/
theorem State.settling_beginTick (s : State) (p : PartId) (g n len : Nat) (h : (s.pt p).settling.isSome = true) :
    ((s.beginTick p g n len).pt p).settling.isSome = true := by
  unfold State.beginTick
  extract_lets s1 s2 s3 s4 s5 s6 s7 s8
  have h1 : (s1.pt p).settling = (s.pt p).settling := rfl
  clear_value s1
  have h2 : (s2.pt p).settling = (s1.pt p).settling := by
    unfold s2
    split
    · split
      · exact (State.changes_takeSnapshot ..).kept (.part .settling) rfl p
      · exact (State.changes_switchBanks ..).kept (.part .settling) rfl p
    · exact (State.changes_switchBanks ..).kept (.part .settling) rfl p
  clear_value s2
  have h3 : (s3.pt p).settling = (s2.pt p).settling := by
    unfold s3
    split
    · exact (State.changes_imageEdge ..).kept (.part .settling) rfl p
    · rfl
  clear_value s3
  have h4 : (s4.pt p).settling = (s3.pt p).settling := by
    unfold s4
    rw [State.pt_modPt_fin]
  clear_value s4
  have h5 : (s5.pt p).settling = (s4.pt p).settling := (State.changes_setRg ..).kept (.part .settling) rfl p
  clear_value s5
  have h6 : (s6.pt p).settling.isSome = true := by
    refine State.settling_applyCopySwitch _ p n (State.settling_applyResume _ p n ?_)
    rw [(State.changes_applyAbandon ..).kept (.part .settling) rfl p, (State.changes_applyCancels ..).kept (.part .settling) rfl p,
      (State.changes_applyStreams ..).kept (.part .settling) rfl p, (State.changes_takeUp ..).kept (.part .settling) rfl p, h5, h4, h3, h2, h1]
    exact h
  clear_value s6
  have h7 : (s7.pt p).settling = (s6.pt p).settling := by
    unfold s7
    rw [(State.changes_startJobs ..).kept (.part .settling) rfl p, (State.changes_sendRound1 ..).kept (.part .settling) rfl p]
  clear_value s7
  have h8 : (s8.pt p).settling = (s7.pt p).settling := by
    unfold s8
    rw [(State.changes_traceTick ..).kept (.part .settling) rfl p, (State.changes_applyGauge ..).kept (.part .settling) rfl p]
  clear_value s8
  have h : (s8.pt p).settling.isSome = true := h8 ▸ h7 ▸ h6
  split
  next j k _ =>
    have h9 : ((s8.startSlice p j k).pt p).settling = (s8.pt p).settling := (State.changes_startSlice s8 p j k).kept (.part .settling) rfl p
    split
    · exact h
    · dsimp only
      split
      · rw [(State.changes_dumpStepStart ..).kept (.part .settling) rfl p, h9]
        exact h
      · rw [h9]
        exact h
  · exact h

/-- Where no slice runs, none is in progress. -/
theorem State.slice_of_running_none {s : State} {p : PartId} (h : s.running p = none) : (s.pt p).slice = none := by
  unfold State.running at h
  simpa using h

/-- The edge that ends a tick ends its slice and leaves its settlement ready. -/
theorem State.endTick_slice_settling (s : State) (p : PartId) :
    ((s.endTick p).pt p).slice = none ∧ ((s.endTick p).pt p).settling.isSome = true := by
  unfold State.endTick
  extract_lets s1 s2 step z t1 s3
  have h : (s3.pt p).slice = none ∧ (s3.pt p).settling.isSome = true := by
    unfold s3
    split
    next b k r _ =>
      extract_lets hd t1 t2 crit t3 n t4 final z t5 t6
      have h5 : (t5.pt p).slice = none ∧ (t5.pt p).settling.isSome = true := by
        unfold t5
        rw [State.pt_modPt_fin]
        exact ⟨rfl, rfl⟩
      have h6 : (t6.pt p).slice = none ∧ (t6.pt p).settling.isSome = true := by
        unfold t6
        split
        · rw [(State.changes_pressSuspend ..).kept (.part .slice) rfl p, (State.changes_pressSuspend ..).kept (.part .settling) rfl p]
          exact h5
        · exact h5
      split
      · rw [State.pt_modPt_fin]
        exact h6
      · exact h6
    next hr =>
      have h1 : (t1.pt p).slice = none := by
        rw [(State.changes_pressTick ..).kept (.part .slice) rfl p]
        exact State.slice_of_running_none hr
      rw [State.pt_modPt_fin]
      exact ⟨h1, rfl⟩
  rw [(State.changes_edgeClear ..).kept (.part .slice) rfl p, (State.changes_edgeClear ..).kept (.part .settling) rfl p, State.pt_modPt_fin]
  exact h

/-! ### What an edge clears -/

theorem mem_maskList {n m k : Nat} : k ∈ maskList n m ↔ k < n ∧ m.testBit k = true := by
  simp [maskList, bitsOf]

theorem nodup_maskList (n m : Nat) : (maskList n m).Nodup := List.nodup_range.filter _

/-- A change of every cluster of a list without repetition changes each of them once. -/
theorem State.cl_foldl_modCl (f : Nat → Cluster → Cluster) (c : ClusterId) {l : List Nat} (hl : l.Nodup) (s : State) :
    (l.foldl (fun t d => t.modCl d (f d)) s).cl c = if c.val ∈ l then f c (s.cl c) else s.cl c := by
  induction l generalizing s with
  | nil => rfl
  | cons d l ih =>
    rw [List.foldl_cons, ih hl.of_cons]
    by_cases hd : c.val = d
    · subst hd
      simp [(List.nodup_cons.mp hl).1]
    · simp [State.cl_modCl_ne s hd, hd]

/-- A cluster of the partition is cleared at its edge. -/
theorem State.cl_edgeClear {s : State} {p : PartId} {r : Resources} {c : ClusterId} (hr : (s.pt p).built = some r)
    (hc : r.clusters.testBit c.val = true) : (s.edgeClear p).cl c = (s.cl c).edgeClear := by
  unfold State.edgeClear
  rw [hr]
  refine (State.cl_foldl_modCl (fun _ => Cluster.edgeClear) c (nodup_maskList 48 r.clusters) s).trans ?_
  rw [if_pos (mem_maskList.2 ⟨c.isLt, hc⟩)]

/-- What an edge leaves of a cluster's work. -/
structure Cluster.Cleared (x : Cluster) : Prop where
  tiles : x.tiles = []
  t : x.nap.t = []
  b : x.nap.b = []
  z : x.nap.z = []
  queue : x.nap.queue = []
  run : x.nap.run = none
  arrays : ∀ a : ArrayId, (x.arr a).queue = [] ∧ (x.arr a).flight = []

theorem Cluster.cleared_edgeClear (x : Cluster) : x.edgeClear.Cleared := by
  refine ⟨rfl, rfl, rfl, rfl, rfl, rfl, fun a => ?_⟩
  simp [Cluster.arr, Cluster.edgeClear]

/-- Work that is cleared stays so while no operation touches arrays, tiles and the Nap engine. -/
theorem Cluster.Cleared.of_changes {F : List Aspect} {s t : State} {c : ClusterId} (h : (s.cl c).Cleared) (hst : Changes F s t)
    (hF : ∀ a ∈ [ClusterAspect.arrays, .tiles, .napQueue, .napRegs, .napRun], Aspect.cluster a ∉ F) : (t.cl c).Cleared := by
  obtain ⟨h1, h2, h3, h4, h5, h6, h7⟩ := h
  have ha : (t.cl c).arrays = (s.cl c).arrays := hst.same (.cluster .arrays) (hF _ (by decide)) c
  have ht : (t.cl c).tiles = (s.cl c).tiles := hst.same (.cluster .tiles) (hF _ (by decide)) c
  have hq : (t.cl c).nap.queue = (s.cl c).nap.queue := hst.same (.cluster .napQueue) (hF _ (by decide)) c
  obtain ⟨hT, hB, hZ⟩ : (t.cl c).nap.t = (s.cl c).nap.t ∧ (t.cl c).nap.b = (s.cl c).nap.b ∧ (t.cl c).nap.z = (s.cl c).nap.z :=
    hst.same (.cluster .napRegs) (hF _ (by decide)) c
  obtain ⟨hr, -, -⟩ : (t.cl c).nap.run = (s.cl c).nap.run ∧ _ := hst.same (.cluster .napRun) (hF _ (by decide)) c
  refine ⟨ht.trans h1, hT.trans h2, hB.trans h3, hZ.trans h4, hq.trans h5, hr.trans h6, fun a => ?_⟩
  have : (t.cl c).arr a = (s.cl c).arr a := by
    unfold Cluster.arr
    rw [ha]
  rw [this]
  exact h7 a

/-- The clearing of the partition ends a tick. -/
theorem State.endTick_eq_edgeClear (s : State) (p : Nat) : ∃ u : State, s.endTick p = u.edgeClear p := ⟨_, rfl⟩

/-- The edge that ends a tick clears the clusters of its partition. -/
theorem State.cleared_endTick {s : State} {p : PartId} {r : Resources} {c : ClusterId} (hr : (s.pt p).built = some r)
    (hc : r.clusters.testBit c.val = true) : ((s.endTick p).cl c).Cleared := by
  have hb : ((s.endTick p).pt p).built = some r := Eq.trans ((State.changes_endTick s p).kept (.part .built) rfl p) hr
  obtain ⟨u, hu⟩ := s.endTick_eq_edgeClear p
  rw [hu] at hb ⊢
  rw [State.cl_edgeClear (Eq.trans ((State.changes_edgeClear u p).kept (.part .built) rfl p).symm hb) hc]
  exact Cluster.cleared_edgeClear _

/-! ### The commands -/

/-- The first edge of a generator, or of one that restarts. -/
theorem State.begins_firstTick (s : State) (p : PartId) : ((s.firstTick p).pt p).gen.Begins (s.nextStart p)
    ((s.nextStart p - s.rg (Obj.TICK_EPOCH_GRAIN p)) / s.rg (Obj.TICK_GRAINS p)) (s.rg (Obj.TICK_GRAINS p)) := s.gen_beginTick p _ _ _

/-- The edge that ends a tick and begins the next. -/
theorem gives_tickEdge_next {p : PartId} {s : State} {post : State → Prop} (hon : (s.pt p).gen.on = true) (hb : (s.pt p).gen.begun = true)
    (hs : (s.pt p).gen.stopping = false) (hd : (s.pt p).settled = true)
    (h : post (((s.at (((s.pt p).gen.start + (s.pt p).gen.len) * 10000)).endTick p).beginTick p ((s.pt p).gen.start + (s.pt p).gen.len)
      ((s.pt p).gen.tick + 1) (s.pt p).gen.len)) : Gives (.tickEdge p) s post := by
  refine gives_of_next (u := _) ?_ h
  show execTickEdge p s = _
  unfold execTickEdge
  dsimp only
  rw [if_neg (by simp [hb]), takes_of (by simp [hon, hd]), if_neg (by simp [hs])]

/-- The edge that ends a tick and begins none. -/
theorem gives_tickEdge_last {p : PartId} {s : State} {post : State → Prop} (hon : (s.pt p).gen.on = true) (hb : (s.pt p).gen.begun = true)
    (hs : (s.pt p).gen.stopping = true) (hd : (s.pt p).settled = true)
    (h : post ((((s.at (((s.pt p).gen.start + (s.pt p).gen.len) * 10000)).endTick p).switchBanks p ((s.pt p).gen.start +
      (s.pt p).gen.len)).modPt p (fun x => { x with gen := { x.gen with begun := false } }))) : Gives (.tickEdge p) s post := by
  refine gives_of_next (u := _) ?_ h
  show execTickEdge p s = _
  unfold execTickEdge
  dsimp only
  rw [if_neg (by simp [hb]), takes_of (by simp [hon, hd]), if_pos hs]

/-- Settles O7: the generator after each kind of edge, and what an edge that ends a tick clears. -/
theorem tickEdges : Obligations.TickEdges := by
  unfold Obligations.TickEdges
  refine ⟨fun p s => ?_, fun p c r s hr hc hon hb hd => ?_⟩
  · intro g begins
    have hbegins : ∀ (t : State) (start tick len : Nat), (t.pt p).gen.Begins start tick len → begins t start tick len :=
      fun t start tick len h => ⟨h.begun, h.start, h.tick, h.len, h.stopping⟩
    refine ⟨fun hon hb hs => ?_, fun hon hb hs hd => ?_, fun hon hb hs hd => ?_, fun hon hb hs hd => ?_⟩
    · refine gives_of_next ?_ (hbegins _ _ _ _ (s.begins_firstTick p))
      show execTickEdge p s = _
      unfold execTickEdge
      dsimp only
      rw [if_pos (by simp [show (s.pt p).gen.begun = false from hb]), takes_of (by
        simp [show (s.pt p).gen.on = true from hon, show (s.pt p).gen.stopping = false from hs])]
    · exact gives_tickEdge_next hon hb hs hd
        ⟨hbegins _ _ _ _ (State.gen_beginTick ..), State.settling_beginTick _ p _ _ _ (State.endTick_slice_settling _ p).2⟩
    · refine gives_tickEdge_last hon hb hs hd ?_
      rw [State.pt_modPt_fin]
      refine ⟨rfl, ?_, ?_⟩
      · dsimp only
        rw [(State.changes_switchBanks ..).kept (.part .gen) rfl p, (State.changes_endTick ..).kept (.part .gen) rfl p]
        rfl
      · dsimp only
        rw [(State.changes_switchBanks ..).kept (.part .slice) rfl p]
        exact (State.endTick_slice_settling _ p).1
    · refine gives_of_takes (by unfold exec execTickGeneratorRestart; rfl) ?_ (hbegins _ _ _ _ (s.begins_firstTick p))
      simp [show (s.pt p).gen.on = true from hon, show (s.pt p).gen.begun = false from hb, show (s.pt p).gen.stopping = true from hs, hd]
  · have h : ∀ {t : State}, (t.cl c).Cleared → (t.cl c).tiles = [] ∧ (t.cl c).nap.t = [] ∧ (t.cl c).nap.b = [] ∧ (t.cl c).nap.z = [] ∧
        (t.cl c).nap.queue = [] ∧ (t.cl c).nap.run = none ∧ ∀ a : ArrayId, ((t.cl c).arr a).queue = [] ∧ ((t.cl c).arr a).flight = [] :=
      fun h => ⟨h.tiles, h.t, h.b, h.z, h.queue, h.run, h.arrays⟩
    have hend : ∀ n, ((((s.at n).endTick p).cl c)).Cleared := fun n => State.cleared_endTick hr hc
    by_cases hs : (s.pt p).gen.stopping = true
    · refine gives_tickEdge_last hon hb hs hd (h ?_)
      exact ((hend _).of_changes (State.changes_switchBanks ..) (by decide)).of_changes (State.changes_modPt _ _ [.gen]) (by decide)
    · exact gives_tickEdge_next hon hb (by simpa using hs) hd (h ((hend _).of_changes (State.changes_beginTick ..) (by decide)))

end Sys2Proof.Machine

namespace Sys2Proof.Machine
open Sys2Proof

-- Short theorems, many of them: one after another, so that the threads' stacks stay within the check's memory.
set_option Elab.async false

/-! ## A slice that grows later (R50) -/

theorem testBit_setBit_of {m b d : Nat} (h : m.testBit b = true) : (setBit m d).testBit b = true := by
  simp [setBit, Nat.testBit_or, h]

/-- The slice in progress of a partition goes on: the same slice, late under at least the same bits. -/
def LateGrows (p : PartId) (s t : State) : Prop :=
  ∀ r, (s.pt p).slice = some r → ∃ r', (t.pt p).slice = some r' ∧ r'.job = r.job ∧ r'.number = r.number ∧
    ∀ b, r.late.testBit b = true → r'.late.testBit b = true

/-- The slice in progress is late under a bit. -/
def LateAt (p : PartId) (b : Nat) (t : State) : Prop := ∀ r, (t.pt p).slice = some r → r.late.testBit b = true

section
variable {p : PartId} {s t u : State}

theorem LateGrows.of_slice (h : (t.pt p).slice = (s.pt p).slice) : LateGrows p s t :=
  fun r hr => ⟨r, h.trans hr, rfl, rfl, fun _ hb => hb⟩

theorem LateGrows.refl (p : PartId) (s : State) : LateGrows p s s := .of_slice rfl

theorem LateGrows.trans (h : LateGrows p s t) (h' : LateGrows p t u) : LateGrows p s u := by
  intro r hr
  obtain ⟨r1, hr1, hj1, hn1, hb1⟩ := h r hr
  obtain ⟨r2, hr2, hj2, hn2, hb2⟩ := h' r1 hr1
  exact ⟨r2, hr2, hj2.trans hj1, hn2.trans hn1, fun b hb => hb2 b (hb1 b hb)⟩

theorem LateGrows.ite {c : Prop} [Decidable c] (h : LateGrows p s t) (h' : LateGrows p s u) : LateGrows p s (if c then t else u) := by
  split
  · exact h
  · exact h'

theorem LateGrows.foldl {α : Type} {f : State → α → State} (l : List α) (hf : ∀ u x, LateGrows p u (f u x)) :
    LateGrows p s (l.foldl f s) := by
  induction l generalizing s with
  | nil => exact .refl p s
  | cons x l ih => exact (hf s x).trans ih

theorem LateGrows.of_traffic (h : Traffic s t) : LateGrows p s t := by
  intro r hr
  obtain ⟨r', hr', he⟩ := h.slice_some hr
  have he : { r' with io := [] } = { r with io := [] } := congrArg Prod.fst he
  injection he with hj hn hl
  exact ⟨r', hr', hj, hn, fun b hb => hl ▸ hb⟩

/-- A slice that goes on under a change of its record. -/
theorem LateGrows.modSlice (s : State) (q : Nat) (f : SliceRun → SliceRun) (hj : ∀ r, (f r).job = r.job) (hn : ∀ r, (f r).number = r.number)
    (hb : ∀ r b, r.late.testBit b = true → (f r).late.testBit b = true) : LateGrows p s (s.modPt q (·.modSlice f)) := by
  by_cases hq : p.val = q
  · subst hq
    intro r hr
    refine ⟨f r, ?_, hj r, hn r, hb r⟩
    rw [State.pt_modPt_fin, Part.modSlice, hr]
    rfl
  · refine .of_slice ?_
    rw [State.pt_modPt_ne _ hq]

theorem lateGrows_late (s : State) (q b : Nat) : LateGrows p s (s.late q b) :=
  .modSlice s q _ (fun _ => rfl) (fun _ => rfl) fun _ _ hb => testBit_setBit_of hb

theorem lateGrows_lateCluster (s : State) (q c cycle : Nat) : LateGrows p s (s.lateCluster q c cycle) := by
  unfold State.lateCluster
  extract_lets was s1
  have h : LateGrows p s s1 := lateGrows_late s q c
  split
  · exact h
  · exact h.trans (.of_slice ((State.changes_traceFire ..).kept (.part .slice) rfl p))

theorem lateAt_late (s : State) (b : Nat) : LateAt p b (s.late p b) := by
  intro r hr
  rw [State.late, State.pt_modPt_fin] at hr
  obtain ⟨r0, -, rfl⟩ := Option.map_eq_some_iff.mp hr
  exact testBit_setBit_self ..

theorem lateAt_lateCluster (s : State) (c cycle : Nat) : LateAt p c (s.lateCluster p c cycle) := by
  unfold State.lateCluster
  extract_lets was s1
  have h : LateAt p c s1 := lateAt_late s c
  split
  · exact h
  · intro r hr
    refine h r ?_
    rw [← hr]
    exact ((State.changes_traceFire ..).kept (.part .slice) rfl p).symm

theorem LateGrows.there (h : LateGrows p s t) (hs : (s.pt p).slice.isSome = true) : (t.pt p).slice.isSome = true := by
  obtain ⟨r, hr⟩ := Option.isSome_iff_exists.mp hs
  obtain ⟨r', hr', -⟩ := h r hr
  rw [hr']
  rfl

/-- Once late under a bit, a slice in progress stays so. -/
theorem LateGrows.lateAt (h : LateGrows p s t) {b : Nat} (hs : (s.pt p).slice.isSome = true) (hb : LateAt p b s) : LateAt p b t := by
  obtain ⟨r, hr⟩ := Option.isSome_iff_exists.mp hs
  obtain ⟨r', hr', -, -, hl⟩ := h r hr
  intro r2 hr2
  rw [hr'] at hr2
  exact Option.some.inj hr2 ▸ hl b (hb r hr)

end

/-! ## The closing guard (R48, R49) -/

/-- A cluster with an operation in an issue queue that has not started. -/
def Cluster.hasWork (x : Cluster) : Prop := x.nap.queue ≠ [] ∨ ∃ a : ArrayId, (x.arr a).queue ≠ []

theorem Cluster.hasWork.queued {x : Cluster} (h : x.hasWork) :
    (!x.nap.queue.isEmpty || (List.range 16).any (fun a => !(x.arr a).queue.isEmpty)) = true := by
  rcases h with h | ⟨a, h⟩
  · simp [h]
  · simp only [Bool.or_eq_true, List.any_eq_true, List.mem_range]
    exact .inr ⟨a, a.isLt, by simp [h]⟩

/-- The check of one cluster at the guard. -/
def State.guardCluster (p c : Nat) (t : State) : State :=
  if !(t.cl c).nap.queue.isEmpty || (List.range 16).any (fun a => !((t.cl c).arr a).queue.isEmpty)
  then t.lateCluster p c (t.pt p).guardCycle else t

theorem State.lateGrows_guardCluster (p : PartId) (c : Nat) (t : State) : LateGrows p t (t.guardCluster p c) := by
  unfold State.guardCluster
  exact .ite (lateGrows_lateCluster t _ _ _) (.refl p t)

theorem State.hasWork_guardCluster (p d : Nat) (c : ClusterId) (t : State) (h : (t.cl c).hasWork) : ((t.guardCluster p d).cl c).hasWork := by
  have hch : Changes [.parts, .part .slice, .regs, .regsButJenjo, .regsButStreams] t (t.guardCluster p d) := by
    unfold State.guardCluster
    exact .ite (State.changes_lateCluster ..) .refl
  have ha : ((t.guardCluster p d).cl c).arrays = (t.cl c).arrays := hch.kept (.cluster .arrays) rfl c
  have hq : ((t.guardCluster p d).cl c).nap.queue = (t.cl c).nap.queue := hch.kept (.cluster .napQueue) rfl c
  unfold Cluster.hasWork Cluster.arr at h ⊢
  rw [ha, hq]
  exact h

/-- Among the clusters of a list, one with work makes the slice late under its bit. -/
theorem lateAt_guardClusters {p : PartId} {c : ClusterId} (l : List Nat) (t : State) (hs : (t.pt p).slice.isSome = true)
    (h : LateAt p c t ∨ (t.cl c).hasWork ∧ c.val ∈ l) : LateAt p c (l.foldl (fun t d => t.guardCluster p d) t) := by
  induction l generalizing t with
  | nil => simpa using h
  | cons d l ih =>
    refine ih _ ((t.lateGrows_guardCluster p d).there hs) ?_
    rcases h with h | ⟨hw, hm⟩
    · exact .inl ((t.lateGrows_guardCluster p d).lateAt hs h)
    · rcases List.mem_cons.mp hm with hd | hm
      · left
        subst hd
        unfold State.guardCluster
        dsimp only
        rw [if_pos hw.queued]
        exact lateAt_lateCluster t _ _
      · exact .inr ⟨t.hasWork_guardCluster p d c hw, hm⟩

/-- CLOSING_GUARD. -/
theorem gives_closingGuard {p : PartId} {r : SliceRun} {s : State} (hr : (s.pt p).slice = some r) (hg : r.guard = false) :
    Gives (.closingGuard p) s fun t => ∃ r', (t.pt p).slice = some r' ∧ r'.guard = true ∧ r'.job = r.job ∧ r'.number = r.number ∧
      ∀ (o : Resources) (c : ClusterId), (s.pt p).built = some o → o.clusters.testBit c.val = true →
        ((s.cl c).nap.queue ≠ [] ∨ ∃ a : ArrayId, ((s.cl c).arr a).queue ≠ []) → r'.late.testBit c.val = true := by
  have hrun : s.running p = some (s.blockOf p r.job, r.number, r) := by simp [State.running, hr]
  refine gives_of_takes (by unfold exec execClosingGuard; rfl) (by simp [hr, hg]) ?_
  split
  next hn => exact absurd (hn.symm.trans hrun) nofun
  next b k r0 h0 =>
  obtain ⟨rfl, rfl, rfl⟩ : s.blockOf p r.job = b ∧ r.number = k ∧ r = r0 := by simpa using hrun.symm.trans h0
  extract_lets s1 waits s2 s3 s4 s5 s6
  have h1 : LateGrows p s s1 := .trans (t := s.at ((s.pt p).edgeNs + (s.pt p).guardPos)) (.of_slice rfl) (.of_traffic (traffic_pump _ p 0))
  have h2 : LateGrows p s1 s2 := by
    unfold s2 State.guardClusters
    split
    · exact .refl p s1
    · exact .foldl _ fun u c => u.lateGrows_guardCluster p c
  have h3 : LateGrows p s2 s3 := .foldl _ fun u n => .ite (lateGrows_late u _ _) (.refl p u)
  have h4 : LateGrows p s3 s4 := .foldl _ fun u n => .ite (lateGrows_late u _ _) (.refl p u)
  have h5 : LateGrows p s4 s5 := .foldl _ fun u q => .foldl _ fun u n => .ite (lateGrows_late u _ _) (.refl p u)
  have h6 : LateGrows p s5 s6 := by
    refine .foldl _ fun u n => ?_
    split
    · exact .ite (lateGrows_late u _ _) (.refl p u)
    · exact .refl p u
  have hb1 : (s1.pt p).built = (s.pt p).built := (State.changes_pump ..).kept (.part .built) rfl p
  have hcl : s1.clusters = s.clusters := (State.changes_pump ..).kept .clusters
  clear_value s1
  have hlate : ∀ (o : Resources) (c : ClusterId), (s.pt p).built = some o → o.clusters.testBit c.val = true → (s.cl c).hasWork →
      LateAt p c s2 := by
    intro o c ho hc hw
    have hs1 : (s1.pt p).slice.isSome = true := h1.there (by rw [hr]; rfl)
    unfold s2 State.guardClusters
    rw [hb1, ho]
    refine lateAt_guardClusters _ s1 hs1 (.inr ⟨?_, mem_maskList.2 ⟨c.isLt, hc⟩⟩)
    unfold State.cl at hw ⊢
    rw [hcl]
    exact hw
  have h26 : LateGrows p s2 s6 := ((h3.trans h4).trans h5).trans h6
  clear_value s6 s2
  obtain ⟨r2, hr2, hj2, hn2, -⟩ := (h1.trans h2) r hr
  obtain ⟨r6, hr6, hj6, hn6, hb6⟩ := h26 r2 hr2
  refine ⟨{ r6 with guard := true }, ?_, rfl, hj6.trans hj2, hn6.trans hn2, fun o c ho hc hw => hb6 c (hlate o c ho hc hw r2 hr2)⟩
  rw [State.pt_modPt_fin, Part.modSlice, hr6]
  rfl

/-! ## Crown programs (R73) -/

theorem State.programAddr_clusters (s : State) (cs : Vector Cluster 48) (l a : Nat) :
    ({ s with clusters := cs } : State).programAddr l a = s.programAddr l a := by
  induction l generalizing a with
  | zero => rfl
  | succ l ih => exact ih _

/-- The programs of a slice stand in device memory. -/
theorem State.programWords_clusters (s : State) (cs : Vector Cluster 48) (b k l : Nat) (bad : List Nat) :
    ({ s with clusters := cs } : State).programWords b k l bad = s.programWords b k l bad := by
  have ha : ({ s with clusters := cs } : State).progAddr b k l = s.progAddr b k l := s.programAddr_clusters cs l _
  unfold State.programWords
  rw [ha]
  rfl

/-- Each logical position is a cluster of its own. -/
theorem State.clusterOfProgram_inj {s : State} {p l m c : Nat} (hl : s.clusterOfProgram p l = some c) (hm : s.clusterOfProgram p m = some c) :
    l = m := by
  unfold State.clusterOfProgram at hl hm
  split at hl
  next r hr =>
    rw [hr] at hm
    obtain ⟨h1, e1⟩ := List.getElem?_eq_some_iff.mp hl
    obtain ⟨h2, e2⟩ := List.getElem?_eq_some_iff.mp hm
    exact ((nodup_maskList 48 r.clusters).getElem_inj_iff).mp (e1.trans e2.symm)
  next => exact absurd hl nofun

/-- The program of one logical position loaded. -/
def State.loadProgram (p b k : Nat) (bad : List Nat) (t : State) (l : Nat) : State :=
  match t.clusterOfProgram p l with
  | some c => t.modCl c (fun cl => { cl with crown := cl.crown.load (t.programWords b k l bad) })
  | none => t

theorem State.loadProgram_clusters (s : State) (cs : Vector Cluster 48) (p b k l : Nat) (bad : List Nat) :
    ∃ ds, State.loadProgram p b k bad { s with clusters := cs } l = { s with clusters := ds } := by
  unfold State.loadProgram
  split
  · exact ⟨_, rfl⟩
  · exact ⟨cs, rfl⟩

/-- A core after the load of a program, or of none. -/
def Cluster.loaded (x : Cluster) (ws : SMap (Word × Bool)) : Cluster := { x with crown := x.crown.load ws }

theorem State.cl_loadProgram (s : State) (cs : Vector Cluster 48) (p b k l : Nat) (bad : List Nat) (c : ClusterId) :
    (State.loadProgram p b k bad { s with clusters := cs } l).cl c = if s.clusterOfProgram p l = some c.val
      then (({ s with clusters := cs } : State).cl c).loaded (s.programWords b k l bad) else ({ s with clusters := cs } : State).cl c := by
  have hc : ({ s with clusters := cs } : State).clusterOfProgram p l = s.clusterOfProgram p l := rfl
  unfold State.loadProgram
  rw [hc, State.programWords_clusters]
  split
  next d hd =>
    by_cases h : c.val = d
    · subst h
      rw [if_pos hd, State.cl_modCl_fin]
      rfl
    · rw [State.cl_modCl_ne _ h, if_neg fun e => h (Option.some.inj (e.symm.trans hd))]
  next hn => rw [if_neg (by simp [hn])]

/-- What the load of a list of programs leaves in a cluster. -/
theorem State.cl_loadPrograms (s : State) (p b k : Nat) (bad : List Nat) (c : ClusterId) {ls : List Nat} (hls : ls.Nodup) (cs : Vector Cluster 48) :
    ∃ ds, ls.foldl (State.loadProgram p b k bad) { s with clusters := cs } = { s with clusters := ds } ∧
      (∀ l ∈ ls, s.clusterOfProgram p l = some c.val → ({ s with clusters := ds } : State).cl c =
        (({ s with clusters := cs } : State).cl c).loaded (s.programWords b k l bad)) ∧
      ((∀ l ∈ ls, s.clusterOfProgram p l ≠ some c.val) → ({ s with clusters := ds } : State).cl c = ({ s with clusters := cs } : State).cl c) := by
  induction ls generalizing cs with
  | nil => exact ⟨cs, rfl, by simp, by simp⟩
  | cons l ls ih =>
    obtain ⟨hl, hls⟩ := List.nodup_cons.mp hls
    obtain ⟨es, he⟩ := s.loadProgram_clusters cs p b k l bad
    obtain ⟨ds, hd, h1, h2⟩ := ih hls es
    have hes := s.cl_loadProgram cs p b k l bad c
    rw [he] at hes
    refine ⟨ds, by rw [List.foldl_cons, he, hd], fun m hm hc => ?_, fun hn => ?_⟩
    · by_cases hml : m = l
      · subst hml
        rw [h2 fun n hn hc' => hl (State.clusterOfProgram_inj hc' hc ▸ hn), hes, if_pos hc]
      · have hm' : m ∈ ls := (List.mem_cons.mp hm).resolve_left hml
        rw [h1 m hm' hc, hes, if_neg fun h => hml (State.clusterOfProgram_inj hc h)]
    · rw [h2 fun m hm => hn m (List.mem_cons_of_mem _ hm), hes, if_neg (hn l List.mem_cons_self)]

theorem Crown.bank_load (cr : Crown) (ws : SMap (Word × Bool)) : (cr.load ws).bank = cr.bank ∧ (cr.load ws).pc = cr.pc ∧
    (if cr.useB = true then (cr.load ws).bankA else (cr.load ws).bankB) = ws := by
  unfold Crown.load Crown.bank
  cases cr.useB <;> simp

/-- The programs of a slice, loaded. -/
theorem State.loadPrograms_spec (s : State) (p : PartId) (j k : Nat) (bad : List Nat) :
    ((s.loadPrograms p j k bad).pt p).loaded = some (j, k) ∧
    ∀ c : ClusterId, ((s.loadPrograms p j k bad).cl c).crown.bank = (s.cl c).crown.bank ∧
      ((s.loadPrograms p j k bad).cl c).crown.pc = (s.cl c).crown.pc ∧
      ∀ l, l < s.blkPrograms (s.blockOf p j) → s.clusterOfProgram p l = some c.val →
        (if (s.cl c).crown.useB = true then ((s.loadPrograms p j k bad).cl c).crown.bankA else ((s.loadPrograms p j k bad).cl c).crown.bankB) =
          s.programWords (s.blockOf p j) k l bad := by
  have hdef : s.loadPrograms p j k bad = ((List.range (s.blkPrograms (s.blockOf p j))).foldl
      (State.loadProgram p (s.blockOf p j) k bad) s).modPt p (fun x => { x with loaded := some (j, k) }) := rfl
  rw [hdef]
  refine ⟨by rw [State.pt_modPt_fin], fun c => ?_⟩
  obtain ⟨ds, hd, h1, h2⟩ := s.cl_loadPrograms p (s.blockOf p j) k bad c List.nodup_range s.clusters
  rw [show s = { s with clusters := s.clusters } from rfl, hd]
  have hcl : ((({ s with clusters := ds } : State).modPt p (fun x => { x with loaded := some (j, k) }))).cl c =
    ({ s with clusters := ds } : State).cl c := rfl
  rw [hcl]
  by_cases h : ∃ l ∈ List.range (s.blkPrograms (s.blockOf p j)), s.clusterOfProgram p l = some c.val
  · obtain ⟨l, hl, hlc⟩ := h
    obtain ⟨hb, hpc, hw⟩ := Crown.bank_load (s.cl c).crown (s.programWords (s.blockOf p j) k l bad)
    rw [h1 l hl hlc]
    refine ⟨hb, hpc, fun m _ hmc => ?_⟩
    rw [State.clusterOfProgram_inj hmc hlc]
    exact hw
  · push Not at h
    rw [h2 h]
    exact ⟨rfl, rfl, fun m hm hmc => absurd hmc (h m (List.mem_range.mpr hm))⟩

/-- CROWN_PROGRAM_LOAD. -/
theorem gives_crownProgramLoad {p : PartId} {bad : List Nat} {j k : Nat} {s : State} (hon : (s.pt p).gen.on = true)
    (hn : (s.pt p).nextRun = some (j, k)) (hl : (s.pt p).loaded ≠ some (j, k)) :
    Gives (.crownProgramLoad p bad) s fun t => (t.pt p).loaded = some (j, k) ∧
      (∀ c : ClusterId, (t.cl c).crown.bank = (s.cl c).crown.bank ∧ (t.cl c).crown.pc = (s.cl c).crown.pc) ∧
      (∀ (l : Nat) (c : ClusterId), l < s.blkPrograms (s.blockOf p j) → s.clusterOfProgram p l = some c.val →
        (if (s.cl c).crown.useB = true then (t.cl c).crown.bankA else (t.cl c).crown.bankB) = s.programWords (s.blockOf p j) k l bad) := by
  obtain ⟨h0, h⟩ := s.loadPrograms_spec p j k bad
  refine gives_of_next (u := if (s.pt p).gen.begun then (s.loadPrograms p j k bad).at ((s.pt p).edgeNs + 10000) else s.loadPrograms p j k bad) ?_ ?_
  · show execCrownProgramLoad p bad s = _
    unfold execCrownProgramLoad
    dsimp only
    rw [hn]
    exact takes_of (by simp [hon, hl]) _ _
  · split
    · exact ⟨h0, fun c => ⟨(h c).1, (h c).2.1⟩, fun l c hl hc => (h c).2.2 l hl hc⟩
    · exact ⟨h0, fun c => ⟨(h c).1, (h c).2.1⟩, fun l c hl hc => (h c).2.2 l hl hc⟩

/-! ## The watchdog (R403) -/

theorem Cluster.arr_halt (x : Cluster) (a : ArrayId) : (x.halt.arr a).queue = [] := by
  simp [Cluster.arr, Cluster.halt]

theorem State.fault_faultDue (s : State) (p : PartId) {cause : Nat} (h : cause ≠ 0) : ((s.faultDue p cause).pt p).fault ≠ 0 := by
  rw [State.faultDue, State.pt_modPt_fin]
  split
  · exact h
  · assumption

theorem objBytes_WATCHDOG_RESETS (p : PartId) : objBytes (Obj.WATCHDOG_RESETS p) = some 4 := by
  revert p
  decide +kernel

/-- WATCHDOG_FIRE. -/
theorem gives_watchdogFire {p : PartId} {c : ClusterId} {s : State} (ho : s.ownerOfCluster c = some p.val) (hf : s.watchdogFires p c = true) :
    Gives (.watchdogFire c) s fun t => (t.cl c).resetting = true ∧ (t.cl c).crown.mode = .idle ∧ (t.cl c).nap.run = none ∧
      (t.cl c).nap.queue = [] ∧ (∀ a : ArrayId, ((t.cl c).arr a).queue = []) ∧ (t.pt p).fault ≠ 0 ∧
      t.rg (Obj.WATCHDOG_RESETS p) = (s.rg (Obj.WATCHDOG_RESETS p) + 1) % 2 ^ 32 ∧
      (∃ r, (t.pt p).slice = some r ∧ r.late.testBit c.val = true) ∧ (t.cl c).batt = (s.cl c).batt := by
  have hslice : (s.pt p).slice.isSome = true := by
    unfold State.watchdogFires at hf
    simp only [Bool.and_eq_true] at hf
    exact hf.1.1.1.1
  refine gives_of_next (u := _) (by
    show execWatchdogFire c s = _
    unfold execWatchdogFire
    rw [ho]
    exact takes_of hf _ _) ?_
  extract_lets s1 s2 s3
  have h2 : s2 = (s1.late p c).faultDue p stopWatchdog := by
    unfold s2 State.lateC
    rw [show s1.ownerOfCluster c = some p.val from ho]
  have hs1 : (s1.pt p).slice.isSome = true := hslice
  have hlate : ∃ r, ((s1.late p c).pt p).slice = some r ∧ r.late.testBit c.val = true := by
    obtain ⟨r, hr⟩ := Option.isSome_iff_exists.mp ((lateGrows_late (p := p) s1 p c).there hs1)
    exact ⟨r, hr, lateAt_late s1 c r hr⟩
  have hrg : s2.rg (Obj.WATCHDOG_RESETS p) = s.rg (Obj.WATCHDOG_RESETS p) := by
    rw [h2]
    rfl
  have hfault : (s2.pt p).fault ≠ 0 := h2 ▸ State.fault_faultDue _ p (by decide)
  have hsl : (s2.pt p).slice = ((s1.late p c).pt p).slice := h2 ▸ (State.changes_faultDue ..).kept (.part .slice) rfl p
  have hcl : s2.cl c = s.cl c := by
    rw [h2]
    rfl
  rw [← hsl] at hlate
  clear_value s2
  have hcl3 : s3.cl c = s.cl c := hcl
  have hpt3 : s3.pt p = s2.pt p := rfl
  have hrg3 : s3.rg (Obj.WATCHDOG_RESETS p) = (s.rg (Obj.WATCHDOG_RESETS p) + 1) % 2 ^ 32 := by
    unfold s3
    rw [State.rg_count, State.rg_incRg_bytes (objBytes_WATCHDOG_RESETS p) (by decide), hrg]
  clear_value s3
  rw [State.cl_modCl_fin]
  refine ⟨rfl, rfl, rfl, rfl, Cluster.arr_halt (s3.cl c), ?_, hrg3, ?_, by rw [hcl3]; rfl⟩
  · show (s3.pt p).fault ≠ 0
    rw [hpt3]
    exact hfault
  · show ∃ r, (s3.pt p).slice = some r ∧ _
    rw [hpt3]
    exact hlate

/-- CLUSTER_RESET_DONE. -/
theorem gives_clusterResetDone {c : ClusterId} {s : State} (hr : (s.cl c).resetting = true) :
    Gives (.clusterResetDone c) s fun t => (t.cl c).resetting = false ∧ (t.cl c).tiles = [] ∧ (t.cl c).nap.t = [] ∧ (t.cl c).nap.b = [] ∧
      (t.cl c).nap.z = [] ∧ (t.cl c).batt = [] ∧ SameOtherClusters c s t ∧ t.parts = s.parts := by
  refine gives_of_takes (by unfold exec execClusterResetDone; rfl) hr ?_
  rw [State.cl_modCl_fin]
  exact ⟨rfl, rfl, rfl, rfl, rfl, rfl, fun d hd => State.cl_modCl_ne s (fun e => hd (Fin.ext e)) _, rfl⟩

/-- Settles O8: each of the four commands under its premise. -/
theorem guardLoadAndWatchdog : Obligations.GuardLoadAndWatchdog := by
  unfold Obligations.GuardLoadAndWatchdog
  exact ⟨fun p r s hr hg => gives_closingGuard hr hg, fun p bad j k s hon hn hl => gives_crownProgramLoad hon hn hl,
    fun p c s ho hf => gives_watchdogFire ho hf, fun c s hr => gives_clusterResetDone hr⟩

end Sys2Proof.Machine

namespace Sys2Proof.Machine
open Sys2Proof

-- Short theorems, many of them: one after another, so that the threads' stacks stay within the check's memory.
set_option Elab.async false

/-! ## The settlement's frames (R36, R57, R58) -/

section
variable {p : PartId} {port : PortId} {at_ : Nat} {f : StatusFrame} {z : Settling} {s : State}

theorem State.settling_setSettling (g : Settling → Settling) (h : (s.pt p).settling = some z) :
    ((s.setSettling p g).pt p).settling = some (g z) := by
  rw [State.setSettling, State.pt_modPt_fin, h]
  rfl

/-- ROUND2_SEND. -/
theorem gives_round2Send (hz : (s.pt p).settling = some z) (hm : z.mode ≠ 0) (hn : 1 < z.modules) (hs : z.sentR2 = false)
    (hd : z.decided = false) : Gives (.round2Send p) s fun t => (t.pt p).settling = some { z with sentR2 := true } := by
  refine gives_of_next (u := _) (by
    show execRound2Send p s = _
    unfold execRound2Send
    rw [hz]
    exact takes_of (by simp [hm, hn, hs, hd]) _ _) ?_
  extract_lets s1
  refine State.settling_setSettling (z := z) _ ?_
  rw [(State.changes_sendStatus ..).kept (.part .settling) rfl p]
  exact hz

/-- A status frame that has come in at its port. -/
def State.statusArrives (s : State) (port at_ p : Nat) : State := ((s.at at_).incRg (Obj.RX_FRAMES port) 1).count p 5 port (wEvent 1) 1

theorem State.settling_statusArrives (s : State) (p : PartId) : ((s.statusArrives port at_ p).pt p).settling = (s.pt p).settling := rfl

theorem State.rg_statusArrives (s : State) (p : Nat) {k : Nat} (h : k ≠ Obj.RX_FRAMES port) : (s.statusArrives port at_ p).rg k = s.rg k := by
  unfold State.statusArrives
  rw [State.rg_count, State.rg_incRg_ne _ _ h]
  rfl

theorem State.tickNumber_statusArrives (s : State) (p : PartId) :
    (s.statusArrives port at_ p).rg (Obj.TICK_NUMBER p) = s.rg (Obj.TICK_NUMBER p) :=
  s.rg_statusArrives p (okey_ne_of_index (by omega) (by decide) (by decide))

/-- A status frame of another tick (R36). -/
theorem exec_tickStatusRx_mismatch (hup : s.portUp port = true) (ho : s.ownerOfPort port = some p.val)
    (ht : f.tick + 1 ≠ s.rg (Obj.TICK_NUMBER p)) :
    exec (.tickStatusRx port at_ f) s = .next ((s.statusArrives port at_ p).incRg (Obj.TICK_MISMATCH p) 1) := by
  show execTickStatusRx port at_ f s = _
  unfold execTickStatusRx
  rw [takes_of hup]
  refine congrArg _ ?_
  extract_lets s1 v
  rw [show s1.ownerOfPort port = some p.val from ho]
  dsimp only
  exact if_pos (fun e => ht (e.trans (s.tickNumber_statusArrives p)))

/-- A status frame of the tick, from another module of the job. -/
theorem exec_tickStatusRx_match (hz : (s.pt p).settling = some z) (hup : s.portUp port = true) (ho : s.ownerOfPort port = some p.val)
    (ht : f.tick + 1 = s.rg (Obj.TICK_NUMBER p)) (hm : z.mode ≠ 0) (hj : f.job = z.jobId) (hself : f.module ≠ z.self)
    (hmod : f.module < z.modules) (hk : f.kind = 1 ∨ f.kind = 2) :
    exec (.tickStatusRx port at_ f) s = .next ((s.statusArrives port at_ p).setSettling p fun y =>
      if f.kind = 1 then
        { y with r1 := if (SMap.get? y.r1 f.module).isSome || z.decided then y.r1 else SMap.ins y.r1 f.module ⟨f.units, f.mb, f.buckets, f.heard⟩ }
      else
        { y with r2 := if (SMap.get? y.r2 f.module).isSome || z.decided then y.r2 else SMap.ins y.r2 f.module ⟨f.units, f.mb, f.buckets, f.heard⟩ }) := by
  show execTickStatusRx port at_ f s = _
  unfold execTickStatusRx
  rw [takes_of hup]
  refine congrArg _ ?_
  extract_lets s1 v
  rw [show s1.ownerOfPort port = some p.val from ho]
  dsimp only
  refine (if_neg (fun h => h (ht.trans (s.tickNumber_statusArrives p).symm))).trans ?_
  have hz1 : ((s1.count p 5 port (wEvent 1) 1).pt p).settling = some z := hz
  rw [hz1]
  refine (if_neg (by simp [hm, hj, hself, hmod])).trans ?_
  rcases hk with hk | hk
  · rw [if_pos (by rw [hk])]
    simp only [hk, if_true]
    rfl
  · rw [if_neg (by rw [hk]; decide), if_pos (by rw [hk]), if_neg (by rw [hk]; decide)]
    simp only [hk]
    rfl

theorem objBytes_TICK_MISMATCH (p : PartId) : objBytes (Obj.TICK_MISMATCH p) = some 8 := by
  revert p
  decide +kernel

/-! ## The decision (R59, R61) -/

theorem State.replayJoin_of_noReplay (h : s.rg (Obj.REPLAY p) ≠ 1) (own recd base kind : Nat) :
    s.replayJoin p z own recd base kind = (s, own) := by
  unfold State.replayJoin
  exact if_neg h

/-- The decided settlement. -/
structure Settling.Decides (z y : Settling) : Prop where
  decided : y.decided = true
  silent : y.silent = z.silentSet
  dropped : y.dropped = if z.silentSet ≠ 0 then z.view2.mb ||| z.jobMb else z.view2.mb
  missing : y.missing = if z.silentSet ≠ 0 then z.view2.bk ||| z.jobBkt else z.view2.bk
  late : y.lateM = z.view2.late
  fault : (∃ m, m < z.modules ∧ m ≠ z.self ∧ SMap.get? z.r2 m = none) → y.fault = true

theorem State.settling_decideSlice (hz : (s.pt p).settling = some z) (hr : s.rg (Obj.REPLAY p) ≠ 1) (recMb recBuckets : Nat) :
    ∃ y, ((s.decideSlice p z recMb recBuckets).pt p).settling = some y ∧ z.Decides y := by
  unfold State.decideSlice
  extract_lets b v silent lost cause fault
  split
  next u1 dropped e1 =>
  rw [State.replayJoin_of_noReplay hr] at e1
  obtain ⟨rfl, rfl⟩ := Prod.mk.inj e1
  extract_lets ids
  split
  next u2 missing e2 =>
  rw [State.replayJoin_of_noReplay hr] at e2
  obtain ⟨rfl, rfl⟩ := Prod.mk.inj e2
  extract_lets s1 groups x s2 s3 s4 drops s5
  have h4 : (s4.pt p).settling = some z := by
    unfold s4
    rw [State.pt_modPt_fin]
    dsimp only
    unfold s3 s2 s1
    rw [(State.changes_incRg ..).kept (.part .settling) rfl p, (State.changes_incRg ..).kept (.part .settling) rfl p,
      (State.changes_countSilence ..).kept (.part .settling) rfl p, hz]
  clear_value s4
  have h5 : (s5.pt p).settling = some z := by
    unfold s5
    rw [(State.changes_classifyWork ..).kept (.part .settling) rfl p, h4]
  clear_value s5
  split
  next s6 refused e =>
    have h6 : (s6.pt p).settling = some z := by
      have h : ChangesFst _ s5 (if fault = true then (s5, false) else s5.resolve p z ⟨drops, groups, v.late ||| silent, z.self⟩) :=
        .ite (.mk .refl) (State.changes_resolve ..)
      rw [e] at h
      exact Eq.trans (Changes.kept h (.part .settling) rfl p) h5
    clear e
    extract_lets s7 cause' s8
    have h7 : (s7.pt p).settling = some z := by
      unfold s7
      split
      · exact h6
      · rw [(State.changes_settleSlice ..).kept (.part .settling) rfl p, h6]
    clear_value s7
    have h8 := State.settling_setSettling (s := s7) (p := p) (fun y => { y with
      decided := true, dropped := if silent ≠ 0 then v.mb ||| z.jobMb else v.mb,
      missing := if silent ≠ 0 then v.bk ||| z.jobBkt else v.bk, lateM := v.late, silent := silent, fault := fault || refused,
      cause := cause' }) h7
    have h9 : ((if (fault || refused) = true then s8.stopJob p z.job cause' z.critical else s8).pt p).settling = (s8.pt p).settling := by
      split
      · exact (State.changes_stopJob ..).kept (.part .settling) rfl p
      · rfl
    refine ⟨_, h9.trans h8, rfl, rfl, rfl, rfl, rfl, fun ⟨m, hm, hs, hn⟩ => ?_⟩
    have hl : lost = true := by
      unfold lost
      simp only [List.any_eq_true, List.mem_range, Bool.and_eq_true, bne_iff_ne]
      exact ⟨m, hm, hs, by rw [hn]; rfl⟩
    show (z.fault || lost || refused) = true
    simp [hl]

/-- Settles O9: the frames and the decision of a settlement. -/
theorem statusExchangeAndDecision : Obligations.StatusExchangeAndDecision := by
  unfold Obligations.StatusExchangeAndDecision
  refine ⟨fun p port at_ f z s hz => ⟨fun hm hn hs hd => gives_round2Send hz hm hn hs hd, ?_, ?_, ?_, ?_⟩, ?_⟩
  · intro hup ho ht hm hd hj hself hmod hk hn
    refine gives_of_next (exec_tickStatusRx_match hz hup ho ht hm hj hself hmod (.inl hk)) ?_
    rw [State.settling_setSettling (s := s.statusArrives port at_ p) (z := z) _ hz]
    simp [hk, hn, hd]
  · intro hup ho ht hm hd hj hself hmod hk hn
    refine gives_of_next (exec_tickStatusRx_match hz hup ho ht hm hj hself hmod (.inr hk)) ?_
    rw [State.settling_setSettling (s := s.statusArrives port at_ p) (z := z) _ hz]
    simp [hk, hn, hd]
  · intro hup ho ht
    refine gives_of_next (exec_tickStatusRx_mismatch hup ho ht) ⟨hz, ?_⟩
    rw [State.rg_incRg_bytes (objBytes_TICK_MISMATCH p) (by decide),
      s.rg_statusArrives p (k := Obj.TICK_MISMATCH p) (okey_ne_of_index (by omega) (by decide) (by decide))]
  · intro hup ho ht hm hj hself hmod hk hn
    refine gives_of_next (exec_tickStatusRx_match hz hup ho ht hm hj hself hmod (.inl hk)) ?_
    rw [State.settling_setSettling (s := s.statusArrives port at_ p) (z := z) _ hz]
    simp [hk, hn]
  · intro p recMb recBuckets z s hz hm hd hn hr
    obtain ⟨y, hy, h⟩ := State.settling_decideSlice (s := s.at ((s.pt p).edgeNs + 6000)) hz hr recMb recBuckets
    refine gives_of_next (u := (s.at ((s.pt p).edgeNs + 6000)).decideSlice p z recMb recBuckets) ?_
      ⟨y, hy, h.decided, h.silent, h.dropped, h.missing, h.late, h.fault⟩
    show execSettleDecide p recMb recBuckets s = _
    unfold execSettleDecide
    rw [hz]
    refine (takes_of (by rcases hn with h | h <;> simp [hm, hd, h]) _ _).trans ?_
    exact congrArg _ (if_pos hm)

end

end Sys2Proof.Machine

namespace Sys2Proof.Machine
open Sys2Proof

-- Short theorems, many of them: one after another, so that the threads' stacks stay within the check's memory.
set_option Elab.async false

/-! ## Registers that an operation leaves alone -/

/-- The registers of a family are as before. -/
def RgKept (K : Nat → Prop) (s t : State) : Prop := ∀ k, K k → t.rg k = s.rg k

section
variable {K : Nat → Prop} {s t u : State}

theorem RgKept.of_regs (h : t.regs = s.regs) : RgKept K s t := fun k _ => rg_of_regs h k

theorem RgKept.refl (K : Nat → Prop) (s : State) : RgKept K s s := fun _ _ => rfl

theorem RgKept.trans (h : RgKept K s t) (h' : RgKept K t u) : RgKept K s u := fun k hk => (h' k hk).trans (h k hk)

theorem RgKept.ite {c : Prop} [Decidable c] (h : RgKept K s t) (h' : RgKept K s u) : RgKept K s (if c then t else u) := by
  split
  · exact h
  · exact h'

theorem RgKept.foldl {α : Type} {f : State → α → State} (l : List α) (hf : ∀ u x, RgKept K u (f u x)) : RgKept K s (l.foldl f s) := by
  induction l generalizing s with
  | nil => exact .refl K s
  | cons x l ih => exact (hf s x).trans ih

theorem RgKept.changes {F : List Aspect} (h : Changes F s t) (hF : decide (Aspect.regs ∈ F) = false := by rfl) : RgKept K s t :=
  .of_regs (h.kept .regs hF)

theorem RgKept.setRg (h : RgKept K s t) {key : Nat} (hk : ∀ k, K k → k ≠ key) (v : Nat) : RgKept K s (t.setRg key v) :=
  fun k hK => (State.rg_setRg_ne t v (hk k hK)).trans (h k hK)

theorem RgKept.incRg (h : RgKept K s t) {key : Nat} (hk : ∀ k, K k → k ≠ key) (v : Nat) : RgKept K s (t.incRg key v) :=
  fun k hK => (State.rg_incRg_ne t v (hk k hK)).trans (h k hK)

theorem RgKept.notify (h : RgKept K s t) (code part a b : Nat) : RgKept K s (t.notify code part a b) :=
  fun k hK => (State.rg_notify ..).trans (h k hK)

theorem RgKept.modPt (h : RgKept K s t) (p : Nat) (f : Part → Part) : RgKept K s (t.modPt p f) := h

theorem RgKept.traffic (h : RgKept K s t) (h' : Traffic t u) (hk : ∀ k, K k → NotSent k) : RgKept K s u :=
  fun k hK => (h'.rg k (hk k hK)).trans (h k hK)

end

/-! ## The status record (R69) -/

/-- The objects of a partition's status record that a settlement's outcome stands in. -/
def RecordKey (p k : Nat) : Prop := ∃ a, 1 ≤ a ∧ a ≤ 9 ∧ k = okey (0x3005 + p * 0x100) a

/-- Another object of the partition, by its index or subindex. -/
theorem RecordKey.ne {p k i a : Nat} (h : RecordKey p k) (hne : i ≠ 0x3005 + p * 0x100 ∨ 9 < a) (ha : a < 256) : k ≠ okey i a := by
  obtain ⟨b, h1, h9, rfl⟩ := h
  unfold okey
  omega

/-- An object above those of the partitions. -/
theorem RecordKey.ne_above {p k i : Nat} (hp : p < 12) (h : RecordKey p k) (hi : 0x3C00 < i) (a : Nat) : k ≠ okey i a := by
  obtain ⟨b, h1, h9, rfl⟩ := h
  unfold okey
  omega

theorem RecordKey.notSent {p k : Nat} (hp : p < 12) (h : RecordKey p k) : NotSent k := by
  obtain ⟨a, h1, h9, rfl⟩ := h
  exact notSent_of_index (by omega) (by omega)

section
variable {p : PartId} {z : Settling} {s : State}


theorem recordKept_countRecord (s : State) (p : PartId) (z : Settling) : RgKept (RecordKey p) s (s.countRecord p z) := by
  unfold State.countRecord
  extract_lets f s1 s2 s3 s4
  have h1 : RgKept (RecordKey p) s s1 := .ite (.incRg (.refl _ _) (fun k h => h.ne_above p.isLt (by omega) _) _) (.refl _ _)
  have h2 : RgKept (RecordKey p) s s2 := .ite (h1.incRg (fun k h => h.ne_above p.isLt (by omega) _) _) h1
  have h3 : RgKept (RecordKey p) s s3 := .ite (h2.incRg (fun k h => h.ne_above p.isLt (by omega) _) _) h2
  have h4 : RgKept (RecordKey p) s s4 := .ite (h3.incRg (fun k h => h.ne_above p.isLt (by omega) _) _) h3
  exact h4.trans (.foldl _ fun u k => .ite (.incRg (.refl _ _) (fun j h => h.ne_above p.isLt (by omega) _) _) (.refl _ _))

theorem recordKept_writeLedger (s : State) (p : PartId) (b : Nat) (z : Settling) : RgKept (RecordKey p) s (s.writeLedger p b z) := by
  unfold State.writeLedger
  refine .ite ?_ (.refl _ _)
  exact .incRg (.of_regs rfl) (fun k h => h.ne (.inl (by omega)) (by decide)) _

theorem recordKept_latchSlots (s : State) (p : PartId) : RgKept (RecordKey p) s (s.latchSlots p) := by
  unfold State.latchSlots
  extract_lets x at_ wasted vals
  exact .foldl _ fun u k => .incRg (.setRg (.refl _ _) (fun j h => h.ne_above p.isLt (by omega) _) _) (fun j h => h.ne_above p.isLt (by omega) _) _

theorem recordKept_recordStep (s : State) (p : PartId) (z : Settling) (goes : Bool) : RgKept (RecordKey p) s (s.recordStep p z goes) := by
  unfold State.recordStep
  extract_lets b x s1 s2 s3 s4 s5 gen
  have h1 : RgKept (RecordKey p) s s1 := .setRg (.refl _ _) (fun k h => h.ne (.inr (by decide)) (by decide)) _
  have h2 : RgKept (RecordKey p) s s2 := h1.setRg (fun k h => h.ne (.inr (by decide)) (by decide)) _
  have h3 : RgKept (RecordKey p) s s3 := h2.trans (recordKept_writeLedger s2 p b z)
  have h4 : RgKept (RecordKey p) s s4 := .ite (h3.trans (.changes (State.changes_writePosition ..))) h3
  have h5 : RgKept (RecordKey p) s s5 := (h4.trans (recordKept_latchSlots s4 p)).trans (.changes (State.changes_dumpStepEnd ..))
  exact h5.modPt _ _

theorem recordKept_stopSlots (s : State) (p : PartId) : RgKept (RecordKey p) s (s.stopSlots p) := by
  unfold State.stopSlots
  extract_lets act s1 s2
  have h1 : RgKept (RecordKey p) s s1 :=
    .foldl _ fun u i => .trans (.changes (State.changes_setSlotFld ..)) (.changes (State.changes_slotWriteBack ..))
  have h2 : RgKept (RecordKey p) s s2 := h1.modPt _ _
  clear_value s2 s1 act
  split
  · exact h2
  · exact (h2.incRg (fun k h => h.ne (.inl (by omega)) (by decide)) _).notify _ _ _ _

theorem recordKept_endGen (s : State) (p : PartId) : RgKept (RecordKey p) s (s.endGen p) := by
  unfold State.endGen
  split
  · exact .refl _ _
  · exact (recordKept_stopSlots s p).modPt _ _

theorem recordKept_writeThrough (s : State) (p : PartId) : RgKept (RecordKey p) s (s.writeThrough p) := .changes (State.changes_writeThrough ..)

/-- What STATUS_RECORD_WRITE does after it has written the record. -/
def State.afterRecord (s : State) (p : Nat) (z : Settling) : State :=
  let s := if z.mode = 1 then
      let s := s.countRecord p z
      let st := s.jobState p z.job
      let goes := !z.final && (st == jsTicking || st == jsStopped)
      let s := if z.stepEnd then s.recordStep p z goes else s
      if goes then s else s.modPt p Part.freshStep
    else s
  let s := if (s.pt p).genDue.isNone then s.endGen p else s
  let s := if z.fault && z.modules > 1 then s.sendStatus p z.jobId (z.frame2 true) else s
  (s.writeThrough p).setSettling p (fun z => { z with recorded := true })

theorem exec_statusRecordWrite (hz : (s.pt p).settling = some z) (hr : z.recorded = false) (hd : z.mode = 0 ∨ z.decided = true) :
    exec (.statusRecordWrite p) s = .next (((s.at ((s.pt p).edgeNs + 9000)).writeRecord p z).afterRecord p z) := by
  show execStatusRecordWrite p s = _
  unfold execStatusRecordWrite
  rw [hz]
  exact takes_of (by rcases hd with h | h <;> simp [hr, h]) _ _

/-- The record stands, and the settlement is recorded. -/
theorem State.afterRecord_keeps (hz : (s.pt p).settling = some z) : RgKept (RecordKey p) s (s.afterRecord p z) ∧
    ∃ y, ((s.afterRecord p z).pt p).settling = some y ∧ y.recorded = true := by
  unfold State.afterRecord
  extract_lets s1 st goes s2 s3 s4 s5
  have h1 : RgKept (RecordKey p) s s1 ∧ (s1.pt p).settling = some z :=
    ⟨recordKept_countRecord s p z, by
      unfold s1
      rw [(State.changes_countRecord ..).kept (.part .settling) rfl p, hz]⟩
  clear_value s1
  have h2 : RgKept (RecordKey p) s s2 ∧ (s2.pt p).settling = some z := by
    unfold s2
    split
    · refine ⟨h1.1.trans (recordKept_recordStep s1 p z goes), ?_⟩
      rw [(State.changes_recordStep ..).kept (.part .settling) rfl p, h1.2]
    · exact h1
  clear_value s2
  have h3 : RgKept (RecordKey p) s s3 ∧ (s3.pt p).settling = some z := by
    unfold s3
    split
    · split
      · exact h2
      · refine ⟨h2.1.modPt _ _, ?_⟩
        rw [State.pt_modPt_fin]
        exact h2.2
    · exact ⟨.refl _ _, hz⟩
  clear_value s3
  have h4 : RgKept (RecordKey p) s s4 ∧ (s4.pt p).settling = some z := by
    unfold s4
    split
    · refine ⟨h3.1.trans (recordKept_endGen s3 p), ?_⟩
      rw [(State.changes_endGen ..).kept (.part .settling) rfl p, h3.2]
    · exact h3
  clear_value s4
  have h5 : RgKept (RecordKey p) s s5 ∧ (s5.pt p).settling = some z := by
    unfold s5
    split
    · refine ⟨h4.1.traffic (traffic_sendStatus ..) fun k hk => hk.notSent p.isLt, ?_⟩
      rw [(State.changes_sendStatus ..).kept (.part .settling) rfl p, h4.2]
    · exact h4
  clear_value s5
  refine ⟨(h5.1.trans (recordKept_writeThrough s5 p)).modPt _ _, _, State.settling_setSettling (z := z) _ ?_, rfl⟩
  rw [(State.changes_writeThrough ..).kept (.part .settling) rfl p, h5.2]

/-! ### The objects of the record -/

/-- A list of objects written in turn. -/
def State.setAll (s : State) (l : List (Nat × Nat)) : State := l.foldl (fun t kv => t.setRg kv.1 kv.2) s

/-- Of a list of different objects, each reads as it was written. -/
theorem State.rg_setAll {l : List (Nat × Nat)} (hl : (l.map Prod.fst).Nodup) {k v : Nat} (hm : (k, v) ∈ l) (s : State) :
    ∃ t : State, (s.setAll l).rg k = (t.setRg k v).rg k := by
  induction l generalizing s with
  | nil => exact absurd hm List.not_mem_nil
  | cons x l ih =>
    obtain ⟨hx, hl⟩ := List.nodup_cons.mp hl
    rcases List.mem_cons.mp hm with rfl | hm
    · refine ⟨s, ?_⟩
      have key (u : State) (l : List (Nat × Nat)) (hk : k ∉ l.map Prod.fst) : (u.setAll l).rg k = u.rg k := by
        induction l generalizing u with
        | nil => rfl
        | cons y l ih =>
          simp only [List.map_cons, List.mem_cons, not_or] at hk
          exact (ih (u.setRg y.1 y.2) hk.2).trans (State.rg_setRg_ne u y.2 hk.1)
      exact key _ l hx
    · exact ih hl hm _

/-- The objects of the record, but for the step. -/
def recordObjects (p : Nat) (z : Settling) : List (Nat × Nat) :=
  let own := fun v => if z.mode == 1 then v else 0
  [(Obj.SETTLED_TICK p, z.tick), (Obj.OUTCOME p, z.outcome), (Obj.MB_BASE p, own z.mbBase), (Obj.MB_DROPPED p, own z.dropped),
   (Obj.BUCKET_BASE p, own z.bktBase), (Obj.BUCKETS_MISSING p, own z.missing), (Obj.LATE_MODULES p, own z.lateM),
   (Obj.SILENT_MODULES p, z.silent), (Obj.LATE_UNITS p, own z.late), (Obj.CONTRACT_FLAGS p, own z.flags), (Obj.HIST_WARMUP p, own z.warm),
   (Obj.CONV_STATUS p, own z.conv)]

theorem State.writeRecord_eq (s : State) (p : Nat) (z : Settling) :
    s.writeRecord p z = if z.mode == 1 then (s.setAll (recordObjects p z)).setRg (Obj.STEP_COUNTER p) (z.step + (if z.stepEnd then 1 else 0))
      else s.setAll (recordObjects p z) := rfl

theorem nodup_recordObjects (p : PartId) (z : Settling) : ((recordObjects p z).map Prod.fst).Nodup := by
  have h : ∀ p : PartId, [Obj.SETTLED_TICK p, Obj.OUTCOME p, Obj.MB_BASE p, Obj.MB_DROPPED p, Obj.BUCKET_BASE p, Obj.BUCKETS_MISSING p,
      Obj.LATE_MODULES p, Obj.SILENT_MODULES p, Obj.LATE_UNITS p, Obj.CONTRACT_FLAGS p, Obj.HIST_WARMUP p, Obj.CONV_STATUS p].Nodup := by
    decide +kernel
  exact h p

/-- An object of the record is as it was written. -/
theorem State.rg_writeRecord_of_mem (s : State) (p : PartId) (z : Settling) {k v : Nat} (hm : (k, v) ∈ recordObjects p z)
    (hk : k ≠ Obj.STEP_COUNTER p) : ∃ t : State, (s.writeRecord p z).rg k = (t.setRg k v).rg k := by
  obtain ⟨t, ht⟩ := State.rg_setAll (nodup_recordObjects p z) hm s
  refine ⟨t, ht ▸ ?_⟩
  rw [State.writeRecord_eq]
  split
  · exact State.rg_setRg_ne _ _ hk
  · rfl

theorem objBytes_recordKey (p : PartId) : ∀ a ∈ [1, 4, 6, 7, 8, 9], objBytes (okey (0x3005 + p * 0x100) a) = some 8 := by
  revert p
  decide +kernel

theorem objBytes_OUTCOME (p : PartId) : objBytes (Obj.OUTCOME p) ≠ some 0 := by
  revert p
  decide +kernel

theorem Settling.outcome_lt (z : Settling) : z.outcome < 256 := by
  unfold Settling.outcome
  split
  · decide
  · split
    · decide
    · split
      · decide
      · split <;> decide

/-- The record as it is written. -/
theorem State.rg_writeRecord (s : State) (p : PartId) (z : Settling) :
    (s.writeRecord p z).rg (Obj.SETTLED_TICK p) = z.tick % 2 ^ 64 ∧ (s.writeRecord p z).rg (Obj.OUTCOME p) = z.outcome ∧
    (s.writeRecord p z).rg (Obj.MB_DROPPED p) = (if z.mode = 1 then z.dropped else 0) % 2 ^ 64 ∧
    (s.writeRecord p z).rg (Obj.BUCKETS_MISSING p) = (if z.mode = 1 then z.missing else 0) % 2 ^ 64 ∧
    (s.writeRecord p z).rg (Obj.LATE_MODULES p) = (if z.mode = 1 then z.lateM else 0) % 2 ^ 64 ∧
    (s.writeRecord p z).rg (Obj.SILENT_MODULES p) = z.silent % 2 ^ 64 ∧
    (s.writeRecord p z).rg (Obj.LATE_UNITS p) = (if z.mode = 1 then z.late else 0) % 2 ^ 64 := by
  have hb (a v : Nat) (ha : a ∈ [1, 4, 6, 7, 8, 9]) (hm : (okey (0x3005 + p * 0x100) a, v) ∈ recordObjects p z) :
      (s.writeRecord p z).rg (okey (0x3005 + p * 0x100) a) = v % 2 ^ 64 := by
    obtain ⟨t, ht⟩ := s.rg_writeRecord_of_mem p z hm (okey_ne_of_sub (by
      simp only [List.mem_cons, List.not_mem_nil, or_false] at ha
      omega))
    rw [ht, State.rg_setRg_bytes (objBytes_recordKey p a ha) (by decide)]
  have ho : (Obj.OUTCOME p, z.outcome) ∈ recordObjects p z := by simp [recordObjects]
  obtain ⟨t, ht⟩ := s.rg_writeRecord_of_mem p z ho (okey_ne_of_sub (by decide))
  refine ⟨hb 1 _ (by decide) (by simp [recordObjects, Obj.SETTLED_TICK]), ht.trans (State.rg_setRg_small (objBytes_OUTCOME p) z.outcome_lt t), hb 4 _ (by decide) ?_, hb 6 _ (by decide) ?_,
    hb 7 _ (by decide) ?_, hb 8 _ (by decide) ?_, hb 9 _ (by decide) ?_⟩
  · simp [recordObjects, Obj.MB_DROPPED]
  · simp [recordObjects, Obj.BUCKETS_MISSING]
  · simp [recordObjects, Obj.LATE_MODULES]
  · simp [recordObjects, Obj.SILENT_MODULES]
  · simp [recordObjects, Obj.LATE_UNITS]

/-- STATUS_RECORD_WRITE. -/
theorem gives_statusRecordWrite (hz : (s.pt p).settling = some z) (hr : z.recorded = false) (hd : z.mode = 0 ∨ z.decided = true) :
    Gives (.statusRecordWrite p) s fun t => (∃ y, (t.pt p).settling = some y ∧ y.recorded = true) ∧
      t.rg (Obj.SETTLED_TICK p) = z.tick % 2 ^ 64 ∧ t.rg (Obj.OUTCOME p) = z.outcome ∧
      t.rg (Obj.MB_DROPPED p) = (if z.mode = 1 then z.dropped % 2 ^ 64 else 0) ∧
      t.rg (Obj.BUCKETS_MISSING p) = (if z.mode = 1 then z.missing % 2 ^ 64 else 0) ∧
      t.rg (Obj.LATE_MODULES p) = (if z.mode = 1 then z.lateM % 2 ^ 64 else 0) ∧
      t.rg (Obj.SILENT_MODULES p) = z.silent % 2 ^ 64 ∧
      t.rg (Obj.LATE_UNITS p) = (if z.mode = 1 then z.late % 2 ^ 64 else 0) := by
  have hmod (v : Nat) : (if z.mode = 1 then v else 0) % 2 ^ 64 = if z.mode = 1 then v % 2 ^ 64 else 0 := by
    split <;> rfl
  obtain ⟨w1, w2, w4, w6, w7, w8, w9⟩ := State.rg_writeRecord (s.at ((s.pt p).edgeNs + 9000)) p z
  refine gives_of_next (exec_statusRecordWrite hz hr hd) ?_
  have hz1 : (((s.at ((s.pt p).edgeNs + 9000)).writeRecord p z).pt p).settling = some z := by
    rw [(State.changes_writeRecord ..).kept (.part .settling) rfl p]
    exact hz
  obtain ⟨hk, hy⟩ := State.afterRecord_keeps hz1
  have k1 := hk (Obj.SETTLED_TICK p) ⟨1, by decide, by decide, rfl⟩
  have k2 := hk (Obj.OUTCOME p) ⟨2, by decide, by decide, rfl⟩
  have k4 := hk (Obj.MB_DROPPED p) ⟨4, by decide, by decide, rfl⟩
  have k6 := hk (Obj.BUCKETS_MISSING p) ⟨6, by decide, by decide, rfl⟩
  have k7 := hk (Obj.LATE_MODULES p) ⟨7, by decide, by decide, rfl⟩
  have k8 := hk (Obj.SILENT_MODULES p) ⟨8, by decide, by decide, rfl⟩
  have k9 := hk (Obj.LATE_UNITS p) ⟨9, by decide, by decide, rfl⟩
  exact ⟨hy, k1.trans w1, k2.trans w2, k4.trans (w4.trans (hmod _)), k6.trans (w6.trans (hmod _)), k7.trans (w7.trans (hmod _)),
    k8.trans w8, k9.trans (w9.trans (hmod _))⟩

/-! ## The end of a job (R80) -/

theorem State.pt_updatePart (s : State) (p q : Nat) : (s.updatePart p).pt q = s.pt q := rfl

theorem State.pt_countPins (s : State) (q : Nat) : s.countPins.pt q = s.pt q := by
  unfold State.countPins
  exact State.pt_setRg ..

theorem Part.job_setJob_self (x : Part) (j : Nat) (e : BitVec 1024) : (x.setJob j e).job j = e := SMap.getD_put_self ..

/-- A job that ends: its state, its pins, and the order. -/
theorem State.endJob_spec (s : State) (p : PartId) (j st : Nat) :
    (s.endJob p j st).jobState p j = st % 2 ^ Job.state.w ∧ (∀ kv ∈ ((s.endJob p j st).pt p).pins, kv.1 / 4 ≠ j) ∧
    (∀ kv ∈ ((s.endJob p j st).pt p).streamPins, kv.1 / 4 ≠ j) ∧ j ∉ ((s.endJob p j st).pt p).order := by
  unfold State.endJob
  extract_lets s1 s2 s3 s4
  have h1 : Job.state.get ((s1.pt p).job j) = st % 2 ^ Job.state.w := by
    unfold s1 State.setJobF State.putJob
    rw [State.pt_memPut, State.pt_modPt_fin, Part.job_setJob_self, Fld.get_set_self Job.state]
  clear_value s1
  have h2 : (s2.pt p).jobs = (s1.pt p).jobs := by
    unfold s2
    split
    · rw [State.pt_modPt_fin]
    · split
      · rw [(State.changes_endGen ..).kept (.part .jobs) rfl p, State.pt_modPt_fin]
      · rfl
  clear_value s2
  have h3 : (s3.pt p).jobs = (s2.pt p).jobs ∧ j ∉ (s3.pt p).order := by
    unfold s3
    rw [State.pt_modPt_fin]
    exact ⟨rfl, by simp⟩
  clear_value s3
  have h4 : s4.pt p = s3.pt p := by
    unfold s4
    split <;> rfl
  clear_value s4
  have h5 : (((s4.unpin p j).updatePart p).notify 0x0012 p j st).pt p =
      { s4.pt p with pins := (s4.pt p).pins.filter (fun kv => kv.1 / 4 != j), streamPins := (s4.pt p).streamPins.filter (fun kv => kv.1 / 4 != j) } := by
    rw [State.pt_notify, State.pt_updatePart, State.unpin, State.pt_countPins, State.pt_modPt_fin]
  unfold State.jobState
  rw [h5]
  refine ⟨?_, fun kv hkv => ?_, fun kv hkv => ?_, by rw [h4]; exact h3.2⟩
  · rw [← h1]
    unfold Part.job
    dsimp only
    rw [h4, h3.1, h2]
  · simpa using (List.mem_filter.mp hkv).2
  · simpa using (List.mem_filter.mp hkv).2

/-- Settles O10: the status record, and the end of the job of a final slice. -/
theorem statusRecordAndCompletion : Obligations.StatusRecordAndCompletion := by
  unfold Obligations.StatusRecordAndCompletion
  refine fun p z s hz => ⟨fun hr hd => gives_statusRecordWrite hz hr hd, fun hm hr hf hfault hst => ?_⟩
  refine gives_of_next ?_ (State.endJob_spec (s.at ((s.pt p).edgeNs + 10000)) p z.job jsComplete)
  show execJobComplete p s = _
  unfold execJobComplete
  rw [hz]
  exact takes_of (by simp [hm, hr, hf, hfault, hst]) _ _

end

end Sys2Proof.Machine

namespace Sys2Proof.Machine
open Sys2Proof

-- Short theorems, many of them: one after another, so that the threads' stacks stay within the check's memory.
set_option Elab.async false

/-! ## Elements of a tile -/

theorem SMap.getD_zip_ofNat {w : Nat} (vs : List Nat) (k e : Nat) :
    SMap.getD (0 : BitVec w) (((List.range' k vs.length).zip vs).filterMap
      (fun iv => if BitVec.ofNat w iv.2 = 0 then none else some (iv.1, BitVec.ofNat w iv.2))) (k + e) = BitVec.ofNat w (vs.getD e 0) := by
  have below (vs : List Nat) (k j : Nat) (h : j < k) : SMap.get? (((List.range' k vs.length).zip vs).filterMap
      (fun iv => if BitVec.ofNat w iv.2 = 0 then none else some (iv.1, BitVec.ofNat w iv.2))) j = none := by
    induction vs generalizing k with
    | nil => rfl
    | cons v vs ih =>
      rw [List.length_cons, List.range'_succ, List.zip_cons_cons, List.filterMap_cons]
      have hi := ih (k + 1) (by omega)
      split
      · exact hi
      next kv hkv =>
        split at hkv
        · exact absurd hkv nofun
        · obtain rfl := Option.some.inj hkv
          rw [SMap.get?, if_neg (by dsimp only; omega), hi]
  induction vs generalizing k e with
  | nil => simp [SMap.getD, SMap.get?]
  | cons v vs ih =>
    rw [List.length_cons, List.range'_succ, List.zip_cons_cons, List.filterMap_cons]
    cases e with
    | zero =>
      have hb := below vs (k + 1) k (by omega)
      split
      next hn =>
        split at hn
        next h0 =>
          show (SMap.get? _ k).getD 0 = _
          rw [hb]
          exact h0.symm
        next => exact absurd hn nofun
      next kv hkv =>
        split at hkv
        · exact absurd hkv nofun
        · obtain rfl := Option.some.inj hkv
          simp [SMap.getD, SMap.get?]
    | succ e =>
      have hi := ih (k + 1) e
      rw [show k + 1 + e = k + (e + 1) by omega] at hi
      rw [List.getD_cons_succ, ← hi]
      split
      · rfl
      next kv hkv =>
        split at hkv
        · exact absurd hkv nofun
        · obtain rfl := Option.some.inj hkv
          unfold SMap.getD
          rw [SMap.get?, if_neg (by omega)]

/-- The elements of a tile that a list gives. -/
theorem toNat_getD_sparseElems {w : Nat} (vs : List Nat) (e : Nat) :
    (SMap.getD (0 : BitVec w) (sparseElems vs) e).toNat = vs.getD e 0 % 2 ^ w := by
  have h := SMap.getD_zip_ofNat (w := w) vs 0 e
  rw [Nat.zero_add, ← List.range_eq_range'] at h
  have hs : sparseElems vs = ((List.range vs.length).zip vs).filterMap
      (fun iv => if BitVec.ofNat w iv.2 = 0 then none else some (iv.1, BitVec.ofNat w iv.2)) := rfl
  rw [hs, h, BitVec.toNat_ofNat]

theorem leNat_lt (bs : List Byte) : leNat bs < 256 ^ bs.length := by
  induction bs with
  | nil => decide
  | cons b bs ih =>
    have := b.isLt
    rw [leNat, List.length_cons, Nat.pow_succ]
    omega

/-- A part of a read of batt memory. -/
theorem Cluster.take_drop_battBytes (cl : Cluster) {a n i k : Nat} (h : i + k ≤ n) :
    ((cl.battBytes a n).drop i).take k = cl.battBytes (a + i) k := by
  unfold Cluster.battBytes Cluster.battRead SMap.range
  rw [← List.map_drop, ← List.map_take, ← List.map_drop, ← List.map_take]
  refine congrArg _ (List.ext_getElem (by simp; omega) fun j h1 h2 => ?_)
  simp only [List.getElem_map, List.getElem_take, List.getElem_drop, List.getElem_range]
  rw [Nat.add_assoc]

theorem Cluster.length_battBytes (cl : Cluster) (a n : Nat) : (cl.battBytes a n).length = n := by
  simp [Cluster.battBytes, Cluster.battRead, SMap.range]

/-! ## Operations that start (R89, R93, R97, R113) -/

section
variable {p : PartId} {c : ClusterId} {a : ArrayId} {o : ArrOp} {rest : List ArrOp} {s : State}

theorem State.arr_startHead (ho : s.ownerOfCluster c = some p.val) (hq : ((s.cl c).arr a).queue = o :: rest) (result : Cluster → ArrOp → Tile) :
    ((s.startHead c a result).cl c).arr a = { (s.cl c).arr a with
      queue := rest, flight := ((s.cl c).arr a).flight ++ [{ o with result := result (s.cl c) o }] } := by
  unfold State.startHead
  rw [hq, ho]
  dsimp only
  rw [State.cl_at, State.cl_modPt, State.cl_count, State.cl_count, State.cl_modCl_fin, Cluster.arr_modArr_self _ _ a.isLt]

/-- The parity hit of an array leaves it as it is. -/
theorem State.arr_parityHit (hit : Bool) (u : State) : ((if hit then u.arrayParity c a else u).cl c).arr a = (u.cl c).arr a := by
  split
  · unfold State.cl
    rw [(State.changes_arrayParity u c a).kept .clusters]
  · rfl

/-- PRODUCT starts. -/
theorem gives_product (par : Bool) (ho : s.ownerOfCluster c = some p.val) (hq : ((s.cl c).arr a).queue = o :: rest)
    (hs : s.headStarts c a 1 = true) : Gives (.product c a par) s fun t => ((t.cl c).arr a).queue = rest ∧
      ((t.cl c).arr a).flight = ((s.cl c).arr a).flight ++ [{ o with result := (productTile (s.cl c) o.desc
        ((s.cl c).flightTile a (64 * a.val + Ad.tile.get o.desc))
        (par || (operandA o.desc).bad (s.cl c) || (operandB o.desc).bad (s.cl c))) }] := by
  refine gives_of_takes (by unfold exec execProduct; rfl) hs ?_
  rw [hq]
  dsimp only
  rw [State.arr_parityHit, State.arr_startHead ho hq]
  exact ⟨rfl, rfl⟩

/-- PRELOAD starts. -/
theorem gives_preload (par : Bool) (ho : s.ownerOfCluster c = some p.val) (hq : ((s.cl c).arr a).queue = o :: rest)
    (hs : s.headStarts c a 2 = true) : Gives (.preload c a par) s fun t => ((t.cl c).arr a).queue = rest ∧
      ((t.cl c).arr a).flight = ((s.cl c).arr a).flight ++ [{ o with result := (preloadTile (s.cl c) o.desc
        ((s.cl c).flightTile a (64 * a.val + Ad.tile.get o.desc)) (par || (s.cl c).battBad (Ad.aAddr.get o.desc) 1344)) }] := by
  refine gives_of_takes (by unfold exec execPreload; rfl) hs ?_
  rw [hq]
  dsimp only
  rw [State.arr_parityHit, State.arr_startHead ho hq]
  exact ⟨rfl, rfl⟩

/-- An illegal descriptor starts. -/
theorem gives_illegalDescriptor (ho : s.ownerOfCluster c = some p.val) (hq : ((s.cl c).arr a).queue = o :: rest)
    (hs : s.headStarts c a 0 = true) : Gives (.illegalDescriptor c ⟨a, false⟩) s fun t => ((t.cl c).arr a).queue = rest ∧
      ((t.cl c).arr a).flight = ((s.cl c).arr a).flight ++ [{ o with
        result := { (s.cl c).flightTile a (64 * a.val + Ad.tile.get o.desc) with poison := true } }] := by
  refine gives_of_takes (by unfold exec execIllegalDescriptor; rfl) (by simp [hs]) ?_
  dsimp only
  rw [if_neg nofun, hq]
  dsimp only
  rw [State.arr_parityHit, State.arr_startHead ho hq]
  exact ⟨rfl, rfl⟩

theorem ArrState.queue_headHit (x : ArrState) (hq : x.queue = o :: rest) : ∃ o' l, x.headHit.queue = o' :: l ∧ o'.bad = true ∧
    o'.desc = o.desc ∧ x.headHit.flight = x.flight := by
  unfold ArrState.headHit
  rw [hq]
  dsimp only
  rw [retime]
  exact ⟨_, _, rfl, rfl, rfl, rfl⟩

/-- A descriptor that is found with bad parity in the queue starts as an illegal one. -/
theorem gives_illegalDescriptor_hit (ho : s.ownerOfCluster c = some p.val) (hq : ((s.cl c).arr a).queue = o :: rest)
    (hs : s.headMay c a = true) : Gives (.illegalDescriptor c ⟨a, true⟩) s fun t =>
      ∃ o', ((t.cl c).arr a).flight = ((s.cl c).arr a).flight ++ [o'] ∧ o'.bad = true ∧ o'.desc = o.desc ∧ o'.result.poison = true := by
  refine gives_of_takes (by unfold exec execIllegalDescriptor; rfl) (by simp [hs]) ?_
  dsimp only
  rw [if_pos rfl]
  obtain ⟨o', l, hq', hb, hd, hf⟩ := ((s.cl c).arr a).queue_headHit hq
  have harr : ((s.modCl c (fun cl => cl.modArr a ArrState.headHit)).cl c).arr a = ((s.cl c).arr a).headHit := by
    rw [State.cl_modCl_fin, Cluster.arr_modArr_self _ _ a.isLt]
  rw [harr, hq']
  dsimp only
  rw [State.arr_parityHit, State.arr_startHead (s := s.modCl c (fun cl => cl.modArr a ArrState.headHit)) (p := p) (o := o') (rest := l) ho (by rw [harr, hq']), harr, hf]
  exact ⟨_, rfl, hb, hd, rfl⟩

theorem List.getD_range_map (f : Nat → Nat) {n e : Nat} (h : e < n) : ((List.range n).map f).getD e 0 = f e := by
  simp [List.getD, h]

/-- The elements of a PRODUCT. -/
theorem productTile_spec (cl : Cluster) (d : ADesc) (old : Tile) (hit : Bool) (acc : Nat → Nat × Bool × Bool)
    (hacc : ∀ e, acc e = accumulate (if Ad.add.get d = 1 then old.elem e else 0) (contributions (operandA d) (operandB d) cl (e / 16) (e % 16))) :
    (∀ e, e < 256 → (productTile cl d old hit).elem e = (acc e).1 % 2 ^ 40) ∧
    ((productTile cl d old hit).sat = true ↔ (Ad.add.get d = 1 ∧ old.sat = true) ∨ ∃ e, e < 256 ∧ (acc e).2.1 = true) ∧
    ((productTile cl d old hit).nan = true ↔ (Ad.add.get d = 1 ∧ old.nan = true) ∨ ∃ e, e < 256 ∧ (acc e).2.2 = true) ∧
    (productTile cl d old hit).poison = (old.poison || hit) := by
  have hrs : (List.range 256).map (fun e => accumulate (if Ad.add.get d = 1 then old.elem e else 0)
      (contributions (operandA d) (operandB d) cl (e / 16) (e % 16))) = (List.range 256).map acc := by
    rw [show acc = _ from funext hacc]
  have hel : (productTile cl d old hit).elems = sparseElems (((List.range 256).map acc).map (·.1)) := by
    rw [← hrs]
    simp [productTile]
  have hsat : (productTile cl d old hit).sat = ((decide (Ad.add.get d = 1) && old.sat) || ((List.range 256).map acc).any (·.2.1)) := by
    rw [← hrs]
    simp [productTile]
  have hnan : (productTile cl d old hit).nan = ((decide (Ad.add.get d = 1) && old.nan) || ((List.range 256).map acc).any (·.2.2)) := by
    rw [← hrs]
    simp [productTile]
  refine ⟨fun e he => ?_, by rw [hsat]; simp, by rw [hnan]; simp, rfl⟩
  rw [Tile.elem, hel, toNat_getD_sparseElems, List.map_map, List.getD_range_map _ he]
  rfl

/-- The elements of a PRELOAD. -/
theorem preloadTile_spec (cl : Cluster) (d : ADesc) (old : Tile) (hit : Bool) :
    (∀ e, e < 256 → (preloadTile cl d old hit).elem e = leNat (cl.battBytes (Ad.aAddr.get d + 5 * e) 5)) ∧
    (preloadTile cl d old hit).sat = (leNat (cl.battBytes (Ad.aAddr.get d + 1280) 1)).testBit 0 ∧
    (preloadTile cl d old hit).nan = (leNat (cl.battBytes (Ad.aAddr.get d + 1280) 1)).testBit 1 := by
  unfold preloadTile Tile.elem
  dsimp only
  refine ⟨fun e he => ?_, ?_, ?_⟩
  · rw [toNat_getD_sparseElems, List.getD_range_map _ he, Cluster.take_drop_battBytes _ (by omega)]
    have h := leNat_lt (cl.battBytes (Ad.aAddr.get d + 5 * e) 5)
    rw [Cluster.length_battBytes] at h
    exact Nat.mod_eq_of_lt h
  · rw [Cluster.take_drop_battBytes _ (by decide)]
  · rw [Cluster.take_drop_battBytes _ (by decide)]

end

/-- Settles O18: the four ways in which the head of an array's queue starts. -/
theorem arrayOperationsStart : Obligations.ArrayOperationsStart := by
  unfold Obligations.ArrayOperationsStart
  intro p c a par o rest s x cl d old acc ho hq
  refine ⟨fun hs => ?_, fun hs => ?_, fun hs => ?_, fun hs => gives_illegalDescriptor_hit ho hq hs⟩
  · obtain ⟨t, ht, h1, h2⟩ := gives_product par ho hq hs
    exact ⟨t, ht, h1, _, h2, by
      obtain ⟨h1, h2, h3, h4⟩ := productTile_spec cl d old (par || (operandA d).bad cl || (operandB d).bad cl) acc fun _ => rfl
      exact ⟨h1, h2, h3, h4⟩⟩
  · obtain ⟨t, ht, h1, h2⟩ := gives_preload par ho hq hs
    exact ⟨t, ht, h1, _, h2, preloadTile_spec cl d old _⟩
  · obtain ⟨t, ht, h1, h2⟩ := gives_illegalDescriptor ho hq hs
    exact ⟨t, ht, h1, _, h2, rfl, rfl⟩

end Sys2Proof.Machine

namespace Sys2Proof.Machine
open Sys2Proof

-- Short theorems, many of them: one after another, so that the threads' stacks stay within the check's memory.
set_option Elab.async false

/-! ## Operations that complete (R89, R93, R112) -/

section
variable {p : PartId} {c : ClusterId} {a : ArrayId} {o : ArrOp} {rest : List ArrOp} {s : State}

theorem Cluster.tile_retile_self (x : Cluster) (n cycle : Nat) (t : Tile) : (x.retile n cycle t).tile n = t := SMap.getD_put_self ..

theorem Cluster.tile_retile_ne (x : Cluster) {n m : Nat} (cycle : Nat) (t : Tile) (h : m ≠ n) : (x.retile n cycle t).tile m = x.tile m :=
  SMap.getD_put_ne _ _ _ h

/-- The value that a completed operation leaves in its tile. -/
def ArrOp.final (o : ArrOp) (old : Tile) : Tile :=
  if o.bad || !descLegal o.desc then { old with poison := true, doneAt := o.complete }
  else { o.result with conflict := o.result.conflict || old.conflict, poison := o.result.poison || old.poison, doneAt := o.complete }

/-- ARRAY_COMPLETE: the array and its tiles. -/
theorem gives_arrayComplete (ho : s.ownerOfCluster c = some p.val) (hf : firstComplete ((s.cl c).arr a).flight = some (o, rest))
    (hc : o.complete < (s.pt p).edgeCycle) : Gives (.arrayComplete c a) s fun t =>
      t.cl c = ((s.cl c).modArr a (fun x => { x with flight := rest })).retile (64 * a.val + Ad.tile.get o.desc) o.complete
        (o.final ((s.cl c).tile (64 * a.val + Ad.tile.get o.desc))) := by
  refine gives_of_takes (by unfold exec execArrayComplete; rfl) (by rw [ho, hf]; simpa using hc) ?_
  rw [ho, hf]
  dsimp -zeta only
  extract_lets n old illegal src t s1 s2 s3
  have h1 : s1.cl c = ((s.cl c).modArr a (fun x => { x with flight := rest })).retile n o.complete t := State.cl_modCl_fin ..
  have h2 : s2.clusters = s1.clusters := rfl
  clear_value s2
  have h3 : s3.clusters = s2.clusters := by
    unfold s3
    split
    · exact Eq.trans ((State.changes_lateC ..).kept .clusters) ((State.changes_count ..).kept .clusters)
    · exact (State.changes_count ..).kept .clusters
  clear_value s3
  have key (u : State) (hu : u.clusters = s3.clusters) : u.cl c =
      ((s.cl c).modArr a (fun x => { x with flight := rest })).retile n o.complete t := by
    rw [← h1]
    unfold State.cl
    rw [hu, h3, h2]
  split
  · exact key _ ((State.changes_gaugeCountTile ..).kept .clusters)
  · exact key _ rfl

theorem ArrOp.final_doneAt (o : ArrOp) (old : Tile) : (o.final old).doneAt = o.complete := by
  unfold ArrOp.final
  split <;> rfl

/-! ## The gauge unit (R155 to R157) -/

theorem objBytes_GAUGE_NONFINITE (p : PartId) : objBytes (Obj.GAUGE_NONFINITE p) = some 8 := by
  revert p
  decide +kernel

theorem objBytes_GAUGE_SAMPLES (p : PartId) (k : Fin 5) : objBytes (Obj.GAUGE_SAMPLES p k) = some 8 := by
  revert p k
  decide +kernel

theorem objBytes_GAUGE_ALERTS (p : PartId) (k : Fin 5) : objBytes (Obj.GAUGE_ALERTS p k) = some 8 := by
  revert p k
  decide +kernel

/-- What a logged sample does after its error has been noted: the alert, where the error is above the threshold. -/
def State.gaugeAlert (s : State) (p q k e : Nat) : State :=
  if (fFP32.decode (s.num p (Obj.GAUGE_THRESHOLD k))).lt (fFP32.decode e) then
    let act := s.num p (Obj.GAUGE_ACTION k)
    let s := s.incRg (Obj.GAUGE_ALERTS p k) 1
    let s := if act.testBit 1 then s.modPt p (fun x => { x with gaugeNext := setBit x.gaugeNext q }) else s
    if act.testBit 0 then s.notify 0x0040 p k e else s
  else s

/-- A logged sample. -/
def State.gaugeLog (s : State) (p q k e : Nat) : State :=
  let s := s.incRg (Obj.GAUGE_SAMPLES p k) 1
  let s := s.setRg (Obj.GAUGE_ERR_SUM p k) (rneFP32 ((fFP32.decode (s.rg (Obj.GAUGE_ERR_SUM p k))).add (fFP32.decode e)))
  let s := if (fFP32.decode (s.rg (Obj.GAUGE_ERR_MAX p k))).lt (fFP32.decode e) then s.setRg (Obj.GAUGE_ERR_MAX p k) e else s
  s.gaugeAlert p q k e

theorem exec_gaugeEvalDone {q : QuarterId} {g : GaugeSample} (hg : SMap.get? (s.pt p).gauge q = some g)
    (hs : (s.pt p).slice.isSome = true) (hf : g.finish ≤ (s.pt p).edgeCycle) :
    exec (.gaugeEvalDone q p) s = .next (match gaugeError g.tile with
      | none => (s.modPt p (fun x => { x with gauge := SMap.del x.gauge q })).incRg (Obj.GAUGE_NONFINITE p) 1
      | some e => (s.modPt p (fun x => { x with gauge := SMap.del x.gauge q })).gaugeLog p q g.kind e) := by
  show execGaugeEvalDone q p s = _
  unfold execGaugeEvalDone
  rw [hg]
  refine (takes_of (by simp [hs, hf]) _ _).trans (congrArg _ ?_)
  rw [hg]
  dsimp -zeta only
  generalize gaugeError g.tile = e
  cases e <;> rfl

/-- What an alert does to the registers and the partition's samples. -/
theorem State.gaugeAlert_spec (s : State) (p : PartId) (q : Nat) (k : Fin 5) (e : Nat) :
    (∀ j, j ≠ Obj.GAUGE_ALERTS p k → (s.gaugeAlert p q k e).rg j = s.rg j) ∧
    (s.gaugeAlert p q k e).rg (Obj.GAUGE_ALERTS p k) = (s.rg (Obj.GAUGE_ALERTS p k) +
      (if (fFP32.decode (s.num p (Obj.GAUGE_THRESHOLD k))).lt (fFP32.decode e) then 1 else 0)) % 2 ^ 64 ∧
    ((s.gaugeAlert p q k e).pt p).gauge = (s.pt p).gauge := by
  unfold State.gaugeAlert
  split
  · extract_lets act s1 s2
    have h1 : s1.rg (Obj.GAUGE_ALERTS p k) = (s.rg (Obj.GAUGE_ALERTS p k) + 1) % 2 ^ 64 :=
      State.rg_incRg_bytes (objBytes_GAUGE_ALERTS p k) (by decide) s 1
    have hne (j : Nat) (hj : j ≠ Obj.GAUGE_ALERTS p k) : s1.rg j = s.rg j := State.rg_incRg_ne s 1 hj
    have hg : (s1.pt p).gauge = (s.pt p).gauge := rfl
    clear_value s1
    have h2 : s2.regs = s1.regs ∧ (s2.pt p).gauge = (s1.pt p).gauge := by
      unfold s2
      split
      · refine ⟨rfl, ?_⟩
        rw [State.pt_modPt_fin]
      · exact ⟨rfl, rfl⟩
    clear_value s2
    have h3 : (if act.testBit 0 = true then s2.notify 64 p k e else s2).regs = s2.regs ∧
        ((if act.testBit 0 = true then s2.notify 64 p k e else s2).pt p).gauge = (s2.pt p).gauge := by
      split
      · exact ⟨rfl, by rw [State.pt_notify]⟩
      · exact ⟨rfl, rfl⟩
    refine ⟨fun j hj => ?_, ?_, h3.2.trans (h2.2.trans hg)⟩
    · rw [rg_of_regs h3.1, rg_of_regs h2.1, hne j hj]
    · rw [rg_of_regs h3.1, rg_of_regs h2.1, h1]
  · exact ⟨fun _ _ => rfl, (Nat.mod_eq_of_lt (BitVec.isLt _)).symm, rfl⟩

/-- A sample that is logged. -/
theorem State.gaugeLog_spec (s : State) (p : PartId) (q : Nat) (k : Fin 5) (e : Nat) (hs : (s.pt p).slice.isSome = true) :
    (s.gaugeLog p q k e).rg (Obj.GAUGE_SAMPLES p k) = (s.rg (Obj.GAUGE_SAMPLES p k) + 1) % 2 ^ 64 ∧
    (s.gaugeLog p q k e).rg (Obj.GAUGE_NONFINITE p) = s.rg (Obj.GAUGE_NONFINITE p) ∧
    (s.gaugeLog p q k e).rg (Obj.GAUGE_ALERTS p k) = (s.rg (Obj.GAUGE_ALERTS p k) +
      (if (fFP32.decode (s.num p (Obj.GAUGE_THRESHOLD k))).lt (fFP32.decode e) then 1 else 0)) % 2 ^ 64 ∧
    ((s.gaugeLog p q k e).pt p).gauge = (s.pt p).gauge := by
  have hk := k.isLt
  unfold State.gaugeLog
  extract_lets s1 s2 s3
  have hrg (j : Nat) (hsum : j ≠ Obj.GAUGE_ERR_SUM p k) (hmax : j ≠ Obj.GAUGE_ERR_MAX p k) : s3.rg j = s1.rg j := by
    have h2 : s2.rg j = s1.rg j := State.rg_setRg_ne s1 _ hsum
    unfold s3
    split
    · exact (State.rg_setRg_ne s2 _ hmax).trans h2
    · exact h2
  have hpt : s3.pt p = s.pt p := by
    unfold s3
    split <;> rfl
  have hnum : s3.num p (Obj.GAUGE_THRESHOLD k) = s.num p (Obj.GAUGE_THRESHOLD k) := by
    obtain ⟨r, hr⟩ := Option.isSome_iff_exists.mp hs
    unfold State.num
    rw [hpt, hr]
  clear_value s3
  obtain ⟨hne, ha, hg⟩ := s3.gaugeAlert_spec p q k e
  refine ⟨?_, ?_, ?_, by rw [hg, hpt]⟩
  · rw [hne (Obj.GAUGE_SAMPLES p k) (okey_ne_of_sub (by omega)),
      hrg (Obj.GAUGE_SAMPLES p k) (okey_ne_of_sub (by omega)) (okey_ne_of_sub (by omega))]
    exact State.rg_incRg_bytes (objBytes_GAUGE_SAMPLES p k) (by decide) s 1
  · rw [hne (Obj.GAUGE_NONFINITE p) (okey_ne_of_sub (by omega)),
      hrg (Obj.GAUGE_NONFINITE p) (okey_ne_of_sub (by omega)) (okey_ne_of_sub (by omega))]
    exact State.rg_incRg_ne s 1 (okey_ne_of_sub (by omega))
  · rw [ha, hnum, hrg (Obj.GAUGE_ALERTS p k) (okey_ne_of_sub (by omega)) (okey_ne_of_sub (by omega))]
    rw [show s1.rg (Obj.GAUGE_ALERTS p k) = s.rg (Obj.GAUGE_ALERTS p k) from State.rg_incRg_ne s 1 (okey_ne_of_sub (by omega))]

end

/-- Settles O19: a completed operation in its tile, and a sample that the gauge unit has judged. -/
theorem arrayCompletionAndGauge : Obligations.ArrayCompletionAndGauge := by
  unfold Obligations.ArrayCompletionAndGauge
  refine ⟨fun p c a o rest s => ?_, fun q p g s hg hs hfin hk => ?_⟩
  · intro n ho hf hc
    obtain ⟨t, ht, hcl⟩ := gives_arrayComplete ho hf hc
    refine ⟨t, ht, ?_⟩
    dsimp only
    rw [hcl]
    have hself := Cluster.tile_retile_self ((s.cl c).modArr a (fun x => { x with flight := rest })) n o.complete (o.final ((s.cl c).tile n))
    refine ⟨?_, ?_, fun m hm => Cluster.tile_retile_ne _ _ _ hm, fun hb hl => ?_, fun hill => ?_⟩
    · exact congrArg (·.flight) (Cluster.arr_modArr_self (s.cl c) (fun x => { x with flight := rest }) a.isLt)
    · rw [hself, ArrOp.final_doneAt]
    · rw [hself, ArrOp.final, if_neg (by simp [hb, hl])]
      exact ⟨rfl, rfl, rfl, rfl, rfl⟩
    · rw [hself, ArrOp.final, if_pos (by simpa using hill)]
      exact ⟨rfl, rfl⟩
  · refine gives_of_next (exec_gaugeEvalDone hg hs hfin) ?_
    have hpt : (s.modPt p (fun x => { x with gauge := SMap.del x.gauge q })).pt p = { s.pt p with gauge := SMap.del (s.pt p).gauge q } :=
      State.pt_modPt_fin ..
    cases gaugeError g.tile with
    | none =>
      refine ⟨?_, State.rg_incRg_bytes (objBytes_GAUGE_NONFINITE p) (by decide) _ 1, ?_⟩
      · show SMap.get? ((s.modPt p (fun x => { x with gauge := SMap.del x.gauge q })).pt p).gauge q = none
        rw [hpt]
        exact SMap.get?_del_self ..
      · exact State.rg_incRg_ne (s.modPt p (fun x => { x with gauge := SMap.del x.gauge q })) 1 (okey_ne_of_sub (by omega))
    | some e =>
      obtain ⟨h1, h2, h3, h4⟩ := (s.modPt p (fun x => { x with gauge := SMap.del x.gauge q })).gaugeLog_spec p q ⟨g.kind, hk⟩ e (by
        rw [hpt]
        exact hs)
      have hnum : (s.modPt p (fun x => { x with gauge := SMap.del x.gauge q })).num p (Obj.GAUGE_THRESHOLD g.kind) =
          s.num p (Obj.GAUGE_THRESHOLD g.kind) := by
        unfold State.num
        rw [hpt]
        rfl
      refine ⟨?_, h1, h2, ?_⟩
      · exact (congrArg (fun m => SMap.get? m q.val) (h4.trans (congrArg (·.gauge) hpt))).trans (SMap.get?_del_self ..)
      · rw [← hnum]
        exact h3

end Sys2Proof.Machine

namespace Sys2Proof.Machine
open Sys2Proof

-- Short theorems, many of them: one after another, so that the threads' stacks stay within the check's memory.
set_option Elab.async false

/-! ## Operations of the Nap engine that start (R169, R170, R187, R202, R203) -/

section
variable {p : PartId} {c : ClusterId} {o : NapOp} {rest : List NapOp} {st : Nat} {s : State}

/-- A Nap engine after a change that leaves its queue and, but for the tiles saved, its running operation alone. -/
def Nap.SavesOnly (n m : Nap) : Prop :=
  m.queue = n.queue ∧ ∀ r, n.run = some r → ∃ saved, m.run = some { r with saved := saved }

theorem Nap.SavesOnly.refl (n : Nap) : n.SavesOnly n := ⟨rfl, fun r hr => ⟨r.saved, hr⟩⟩

theorem Nap.SavesOnly.of_eq {n m : Nap} (h : m = n) : n.SavesOnly m := h ▸ .refl n

theorem Nap.SavesOnly.trans {n m l : Nap} (h : n.SavesOnly m) (h' : m.SavesOnly l) : n.SavesOnly l := by
  refine ⟨h'.1.trans h.1, fun r hr => ?_⟩
  obtain ⟨x, hx⟩ := h.2 r hr
  obtain ⟨y, hy⟩ := h'.2 _ hx
  exact ⟨y, hy⟩

theorem Nap.SavesOnly.foldl {α : Type} {f : State → α → State} (l : List α) (u : State)
    (hf : ∀ (u : State) (x : α), (u.cl c).nap.SavesOnly ((f u x).cl c).nap) : (u.cl c).nap.SavesOnly ((l.foldl f u).cl c).nap := by
  induction l generalizing u with
  | nil => exact .refl _
  | cons x l ih => exact (hf u x).trans (ih _)

theorem State.savesOnly_tileConflict (s : State) (c : ClusterId) (n cycle : Nat) :
    (s.cl c).nap.SavesOnly ((s.tileConflict c n cycle).cl c).nap := by
  unfold State.tileConflict
  have h : ∀ u : State, u.clusters = (s.modCl c (fun cl => cl.retile n cycle { cl.tile n with conflict := true, poison := true })).clusters →
      (s.cl c).nap.SavesOnly (u.cl c).nap := by
    intro u hu
    have : u.cl c = (s.cl c).retile n cycle { (s.cl c).tile n with conflict := true, poison := true } := by
      rw [← State.cl_modCl_fin s c (fun cl => cl.retile n cycle { cl.tile n with conflict := true, poison := true })]
      unfold State.cl
      rw [hu]
    rw [this]
    refine ⟨rfl, fun r hr => ?_⟩
    unfold Cluster.retile
    rw [hr]
    exact ⟨_, rfl⟩
  refine h _ ?_
  rw [(State.changes_lateC ..).kept .clusters, (State.changes_countC ..).kept .clusters]

theorem State.savesOnly_windowConflicts (s : State) (c : ClusterId) : (s.cl c).nap.SavesOnly ((s.windowConflicts c).cl c).nap := by
  unfold State.windowConflicts
  split
  · exact .refl _
  · refine .foldl _ s fun u a => .foldl _ u fun u o => ?_
    dsimp only
    split
    · exact u.savesOnly_tileConflict c _ _
    · exact .refl _

theorem State.nap_tileParity (s : State) (c : ClusterId) (n : Nat) : ((s.tileParity c n).cl c).nap = (s.cl c).nap := by
  have h : (s.tileParity c n).clusters = (s.modCl c (fun cl => cl.setTile n { cl.tile n with poison := true })).clusters :=
    (State.changes_arrayParity ..).kept .clusters
  have hcl : (s.tileParity c n).cl c = (s.cl c).setTile n { (s.cl c).tile n with poison := true } := by
    rw [← State.cl_modCl_fin s c (fun cl => cl.setTile n { cl.tile n with poison := true })]
    unfold State.cl
    rw [h]
  rw [hcl]
  rfl

/-- An operation that starts is legal. -/
theorem State.legal_of_napStarts {op : Nat} (hq : (s.cl c).nap.queue = o :: rest) (h : s.napStarts c op = true) (hop : op ≠ 0) :
    s.napLegal c o = true ∧ op = Nd.opcode.get o.desc := by
  unfold State.napStarts at h
  rw [hq] at h
  simp only [Bool.and_eq_true] at h
  obtain ⟨-, h⟩ := h
  split at h
  next hl => exact ⟨hl, by simpa using h⟩
  next => exact absurd (by simpa using h) hop

theorem Nap.headStart_eq {n : Nap} (hq : n.queue = o :: rest) (hst : n.headStart = some st) : st = Nat.max (o.issue + 4) n.lastEnd := by
  unfold Nap.headStart at hst
  rw [hq] at hst
  exact (Option.some.inj hst).symm

/-- The image of a RUN that starts. -/
def State.runImage (s : State) (c st : Nat) (o : NapOp) : List Byte := (((s.cl c).fetchImage st (Nd.target.get o.desc)).getD []).map (·.1)

/-- The image of a RUN that is legal makes a legal program. -/
theorem State.runImage_legal (hq : (s.cl c).nap.queue = o :: rest) (hst : (s.cl c).nap.headStart = some st)
    (hl : s.napLegal c o = true) (hop : Nd.opcode.get o.desc = 0x10) :
    (parseProg (s.runImage c st o)).legal (napBases o.desc) (Nd.iterations.get o.desc) = true := by
  unfold State.napLegal at hl
  simp only [Bool.and_eq_true, hop, if_true, ← Nap.headStart_eq hq hst] at hl
  obtain ⟨-, hl⟩ := hl
  unfold State.runImage
  split at hl
  next img himg =>
    rw [himg]
    exact (Bool.and_eq_true_iff.mp hl).2
  next => exact absurd hl nofun

/-- The running operation that a RUN becomes. -/
def NapOp.running (o : NapOp) (st : Nat) (img : List Byte) : NapRun :=
  ⟨o, st, st + (parseProg img).duration img.length (Nd.iterations.get o.desc), false, img, true, [],
    runWindows (parseProg img) img.length (napBases o.desc) (Nd.iterations.get o.desc) st, []⟩

theorem NapOp.judged_running {img : List Byte} (h : (parseProg img).legal (napBases o.desc) (Nd.iterations.get o.desc) = true) :
    NapRun.judged ⟨o, st, st + 0, false, img, true, [], [], []⟩ = o.running st img := by
  unfold NapRun.judged
  dsimp only
  rw [if_pos (by simp [h])]
  rfl

/-- A RUN starts. -/
theorem gives_run {bad : List Nat} (ho : s.ownerOfCluster c = some p.val) (hq : (s.cl c).nap.queue = o :: rest)
    (hst : (s.cl c).nap.headStart = some st) (h : s.napStarts c 0x10 = true) :
    Gives (.run c bad) s fun t => (t.cl c).nap.queue = rest ∧ ∃ saved, (t.cl c).nap.run =
      some { o.running st (s.runImage c st o) with saved := saved } := by
  obtain ⟨hl, hop⟩ := State.legal_of_napStarts hq h (by decide)
  refine gives_of_takes (by unfold exec execRun; rfl) h ?_
  rw [hq]
  dsimp -zeta only
  extract_lets img s1 s2 read
  have himg : img = s.runImage c st o := by
    unfold img
    rw [hst]
    rfl
  have hb : ((s.napBegin c 0 false img true).cl c).nap.queue = rest ∧
      ((s.napBegin c 0 false img true).cl c).nap.run = some (o.running st (s.runImage c st o)) := by
    unfold State.napBegin
    rw [ho, hq, hst]
    dsimp only
    rw [State.cl_at, State.cl_modNap, himg, if_pos rfl, NapOp.judged_running (s.runImage_legal hq hst hl hop.symm)]
    exact ⟨rfl, rfl⟩
  have h1 : ((s.napBegin c 0 false img true).cl c).nap.SavesOnly (s1.cl c).nap := State.savesOnly_windowConflicts ..
  clear_value s1
  have h2 : (s2.cl c).nap = (s1.cl c).nap := by
    unfold s2 State.cl
    rw [(State.changes_countC ..).kept .clusters]
  clear_value s2
  have h3 : (s2.cl c).nap.SavesOnly ((read.foldl (fun t n => t.tileParity c n) s2).cl c).nap :=
    .foldl read s2 fun u n => .of_eq (u.nap_tileParity c n)
  obtain ⟨hq', hr'⟩ := (h1.trans (.of_eq h2)).trans h3
  exact ⟨hq'.trans hb.1, hr' _ hb.2⟩

/-- An operation without an image of its own that starts. -/
theorem State.nap_napBegin (ho : s.ownerOfCluster c = some p.val) (hq : (s.cl c).nap.queue = o :: rest)
    (hst : (s.cl c).nap.headStart = some st) (dur : Nat) (image : List Byte) :
    ((s.napBegin c dur false image false).cl c).nap.queue = rest ∧
      ((s.napBegin c dur false image false).cl c).nap.run = some ⟨o, st, st + dur, false, image, false, [], [], []⟩ := by
  rw [State.cl_napBegin ho hq hst]
  exact ⟨rfl, rfl⟩

/-- A SCALE starts. -/
theorem gives_scale (ho : s.ownerOfCluster c = some p.val) (hq : (s.cl c).nap.queue = o :: rest)
    (hst : (s.cl c).nap.headStart = some st) (h : s.napStarts c 0x11 = true) :
    Gives (.scale c) s fun t => (t.cl c).nap.queue = rest ∧
      (t.cl c).nap.run = some ⟨o, st, st + 40, false, leBytes 4 (s.scaleOf p o.desc).1, false, [], [], []⟩ := by
  refine gives_of_takes (by unfold exec execScale; rfl) h ?_
  rw [ho, hq]
  have key := State.nap_napBegin ho hq hst 40 (leBytes 4 (s.scaleOf p o.desc).1)
  dsimp only
  split
  · exact key
  · exact key

/-! ## Operations that end (R147, R170, R198, R202, R203) -/

variable {r : NapRun}

/-- The effect of a legal operation at its end. -/
def State.napFinish (s : State) (p c : Nat) (r : NapRun) : State :=
  let d := r.op.desc
  let z := Nd.summary.get d
  match Nd.opcode.get d with
  | 0x10 => s.endRun p c r
  | 0x11 =>
    let v := leNat r.image
    (s.battPut p c r.finish .nap ((Nd.base 1).get d) ((leBytes 4 v).map (·, false))).setZ p c z (zWord 0 0 v false)
  | 0x12 =>
    if (s.pt p).notes.length < 4096 then
      s.modPt p (fun x => { x with notes := x.notes ++ [⟨Nd.target.get d, (Nd.base 0).get d, leNat r.image⟩] })
    else (s.incRg (Obj.NOTE_OVERFLOW p) 1).lateCluster p c r.finish
  | 0x13 =>
    let w := leNat (r.image.take 8)
    let bad := imgField r.image 8 1 == 1
    let w := (w - (w &&& zReserved)) ||| 2 ^ zValid ||| (if bad then 2 ^ zPoison else 0)
    let s := s.setZ p c z w
    if bad then ((s.count p 1 c (wEvent 1) 1).fails p cfParity).lateCluster p c r.finish else s
  | _ => s.battPut p c r.finish .nap (Nd.target.get d) (r.image.map (·, false))

/-- The state in which a legal operation ends: its busy cycles counted. -/
def State.napAtEnd (s : State) (p c : Nat) (r : NapRun) : State := (s.napBusy p c r.finish).at ((s.pt p).edgeNs + cycleNs r.finish)

theorem exec_napOpEnd_legal (ho : s.ownerOfCluster c = some p.val) (hr : (s.cl c).nap.run = some r) (hill : r.illegal = false)
    (hs : (s.pt p).slice.isSome = true) (hf : r.finish < (s.pt p).edgeCycle) :
    exec (.napOpEnd c) s = .next (((s.napAtEnd p c r).napFinish p c r).modNap c (fun n => { n with run := none, lastEnd := r.finish })) := by
  show execNapOpEnd c s = _
  unfold execNapOpEnd
  rw [ho, hr]
  refine (takes_of (by simp [hs, hf]) _ _).trans (congrArg _ ?_)
  refine congrArg (fun u : State => u.modNap c (fun n => { n with run := none, lastEnd := r.finish })) ?_
  exact if_neg (by simp [hill])

theorem State.cl_napAtEnd (s : State) (p c d : Nat) (r : NapRun) : (s.napAtEnd p c r).cl d = s.cl d :=
  (State.cl_at ..).trans (State.cl_napBusy ..)

theorem State.queue_setZ (s : State) (p : Nat) (c : ClusterId) (z w : Nat) : ((s.setZ p c z w).cl c).nap.queue = (s.cl c).nap.queue := by
  obtain ⟨m, hm, -⟩ := s.cl_setZ p c z w
  rw [hm]

theorem State.queue_battPut (s : State) (p : Nat) (c : ClusterId) (cy a : Nat) (port : BattPort) (bs : List (Byte × Bool)) :
    ((s.battPut p c cy port a bs).cl c).nap.queue = (s.cl c).nap.queue :=
  (State.changes_battPut ..).kept (.cluster .napQueue) rfl c

/-- The end of an operation leaves the engine's queue. -/
theorem State.queue_napFinish (s : State) (p : Nat) (c : ClusterId) (r : NapRun) : ((s.napFinish p c r).cl c).nap.queue = (s.cl c).nap.queue := by
  have late (u : State) (cy : Nat) : ((u.lateCluster p c cy).cl c).nap.queue = (u.cl c).nap.queue :=
    (State.changes_lateCluster ..).kept (.cluster .napQueue) rfl c
  unfold State.napFinish
  dsimp only
  split
  · unfold State.endRun
    dsimp only
    rw [State.queue_setZ, State.cl_modNap]
    exact Changes.kept (State.changes_napEffect s p c _ _ r) (.cluster .napQueue) rfl c
  · rw [State.queue_setZ, State.queue_battPut]
  · split
    · rfl
    · exact late _ _
  · split
    · exact (late _ _).trans (State.queue_setZ ..)
    · exact State.queue_setZ ..
  · exact State.queue_battPut ..

/-! ### The summary that an operation leaves -/

theorem testBit_zWord_zValid (flags select value : Nat) (isInt : Bool) : (zWord flags select value isInt).testBit zValid = true := by
  have h : (zWord flags select value isInt) % 2 ^ 32 = (flags ||| (select % 4) <<< 12 ||| 2 ^ zValid ||| (if isInt then 2 ^ zValueInt else 0)) % 2 ^ 32 := by
    unfold zWord
    rw [Nat.mul_add_mod']
  have h2 := congrArg (fun x => x.testBit zValid) h
  simp only [Nat.testBit_mod_two_pow] at h2
  simp at h2
  exact h2 (by decide)

/-- A summary register that was written reads as the word, but for GAUGE. -/
theorem State.z_setZ (s : State) (p : Nat) (c : ClusterId) {z : Nat} (hz : z ≠ 15) (w : Nat) {b : Nat} (hb : b < 64) (hg : b ≠ zGauge) :
    (SMap.getD 0 ((s.setZ p c z w).cl c).nap.z z).toNat.testBit b = w.testBit b := by
  obtain ⟨m, hm, h, -⟩ := s.cl_setZ p c z w
  rw [hm]
  dsimp only
  rw [h hz, BitVec.toNat_ofNat, Nat.testBit_mod_two_pow, testBit_clearBit_ne hg, decide_eq_true hb, Bool.true_and]

/-- A RUN leaves VALID in its summary. -/
theorem State.valid_endRun (s : State) (p : Nat) (c : ClusterId) (r : NapRun) (hz : Nd.summary.get r.op.desc ≠ 15) :
    (SMap.getD 0 ((s.endRun p c r).cl c).nap.z (Nd.summary.get r.op.desc)).toNat.testBit zValid = true := by
  unfold State.endRun
  dsimp only
  rw [State.z_setZ _ _ _ hz _ (by decide) (by decide)]
  exact testBit_zWord_zValid ..

/-! ### The bytes that an operation leaves in batt memory (R186) -/

theorem Cluster.batt_refetch (x : Cluster) (cy : Nat) : (x.refetch cy).batt = x.batt := by
  obtain ⟨r, hr⟩ := x.refetch_eq cy
  rw [hr]

/-- Bytes taken back from the cluster as it stood. -/
theorem Cluster.getD_foldl_keepByte (old : Cluster) (l : List Nat) (x : Cluster) (b : Nat) :
    SMap.getD (0, false) (l.foldl (fun c a => c.keepByte old a) x).batt b =
      if b ∈ l then SMap.getD (0, false) old.batt b else SMap.getD (0, false) x.batt b := by
  induction l generalizing x with
  | nil => rfl
  | cons a l ih =>
    rw [List.foldl_cons, ih]
    have hk : SMap.getD (0, false) (x.keepByte old a).batt b =
        if b = a then SMap.getD (0, false) old.batt b else SMap.getD (0, false) x.batt b := by
      unfold Cluster.keepByte
      dsimp only
      split
      next h =>
        subst h
        simp [Cluster.battRead, SMap.range, SMap.putList, SMap.getD_put_self]
      next h => simp [Cluster.battRead, SMap.range, SMap.putList, SMap.getD_put_ne _ _ _ h]
    by_cases h1 : b ∈ l
    · simp [h1]
    · rw [if_neg h1, hk]
      by_cases h2 : b = a
      · simp [h2]
      · simp [h1, h2]

theorem mem_contested_one {w : List (BattPort × Nat × List (Byte × Bool))} {port : BattPort} {a n b : Nat} :
    b ∈ contested w port [(a, n)] ↔ a ≤ b ∧ b < a + n ∧ ∃ g ∈ portsAt w b, g ≠ port := by
  simp only [contested, List.mem_eraseDups, List.mem_filter, List.mem_flatMap, List.mem_singleton, exists_eq_left, List.mem_map, List.mem_range,
    List.any_eq_true, bne_iff_ne]
  constructor
  · rintro ⟨⟨i, hi, rfl⟩, h⟩
    exact ⟨by omega, by omega, h⟩
  · rintro ⟨h1, h2, h⟩
    exact ⟨⟨b - a, by omega, by omega⟩, h⟩

/-- A byte after a write of the Nap engine: the core's value stands where it wrote in that cycle. -/
theorem State.getD_batt_battPut_nap (s : State) (p : Nat) (c : ClusterId) (cy a : Nat) (bs : List (Byte × Bool)) (b : Nat) :
    SMap.getD (0, false) ((s.battPut p c cy .nap a bs).cl c).batt b =
      if (a ≤ b ∧ b < a + bs.length) ∧ (portsAt ((s.cl c).writes.at cy) b).contains .crown = true then SMap.getD (0, false) (s.cl c).batt b
      else SMap.getD (0, false) (SMap.putList (0, false) (s.cl c).batt a bs) b := by
  obtain ⟨o, h⟩ := s.battWrites_eq p c cy .nap ((s.cl c).battWrite a bs) [(a, bs.length)]
  unfold State.battPut
  rw [h]
  show SMap.getD (0, false) ((s.modCl c fun _ => _).cl c).batt b = _
  rw [State.cl_modCl_fin, Cluster.batt_refetch]
  unfold Cluster.settleWrite
  dsimp only
  rw [Cluster.getD_foldl_keepByte]
  have hbeats (l : List BattPort) : l.any (fun g => g.beats .nap) = l.contains .crown := by
    induction l with
    | nil => rfl
    | cons g l ih =>
      rw [List.any_cons, List.contains_cons, ih]
      cases g <;> rfl
  have hiff : b ∈ (contested ((s.cl c).writes.at cy) .nap [(a, bs.length)]).filter
      (fun a => (portsAt ((s.cl c).writes.at cy) a).any fun g => g.beats .nap) ↔
      (a ≤ b ∧ b < a + bs.length) ∧ (portsAt ((s.cl c).writes.at cy) b).contains .crown = true := by
    rw [List.mem_filter, mem_contested_one, hbeats]
    constructor
    · rintro ⟨⟨h1, h2, -⟩, h⟩
      exact ⟨⟨h1, h2⟩, h⟩
    · rintro ⟨⟨h1, h2⟩, h⟩
      exact ⟨⟨h1, h2, .crown, List.contains_iff_mem.mp h, nofun⟩, h⟩
  simp only [hiff]
  rfl

end

end Sys2Proof.Machine

namespace Sys2Proof.Machine
open Sys2Proof

-- Short theorems, many of them: one after another, so that the threads' stacks stay within the check's memory.
set_option Elab.async false

/-! ## RUN and SCALE (R169, R170, R187, R198, R202) -/

section
variable {p : PartId} {c : ClusterId} {r : NapRun} {s : State}

theorem State.napFinish_run (hop : Nd.opcode.get r.op.desc = 0x10) : s.napFinish p c r = s.endRun p c r := by
  simp only [State.napFinish, hop]

theorem State.napFinish_scale (hop : Nd.opcode.get r.op.desc = 0x11) : s.napFinish p c r =
    (s.battPut p c r.finish .nap ((Nd.base 1).get r.op.desc) ((leBytes 4 (leNat r.image)).map (·, false))).setZ p c (Nd.summary.get r.op.desc)
      (zWord 0 0 (leNat r.image) false) := by
  simp only [State.napFinish, hop]

theorem State.napFinish_note (hop : Nd.opcode.get r.op.desc = 0x12) : s.napFinish p c r =
    if (s.pt p).notes.length < 4096 then
      s.modPt p (fun x => { x with notes := x.notes ++ [⟨Nd.target.get r.op.desc, (Nd.base 0).get r.op.desc, leNat r.image⟩] })
    else (s.incRg (Obj.NOTE_OVERFLOW p) 1).lateCluster p c r.finish := by
  simp only [State.napFinish, hop]

/-- The word that SUMMARY_LOAD leaves in its register, from the image (R203). -/
def loadedSummary (image : List Byte) : Nat :=
  (leNat (image.take 8) - (leNat (image.take 8) &&& zReserved)) ||| 2 ^ zValid ||| (if imgField image 8 1 == 1 then 2 ^ zPoison else 0)

theorem State.napFinish_load (hop : Nd.opcode.get r.op.desc = 0x13) : s.napFinish p c r =
    if imgField r.image 8 1 == 1 then
      (((s.setZ p c (Nd.summary.get r.op.desc) (loadedSummary r.image)).count p 1 c (wEvent 1) 1).fails p cfParity).lateCluster p c r.finish
    else s.setZ p c (Nd.summary.get r.op.desc) (loadedSummary r.image) := by
  simp only [State.napFinish, loadedSummary, hop]

theorem State.napFinish_store (hop : Nd.opcode.get r.op.desc = 0x14) : s.napFinish p c r =
    s.battPut p c r.finish .nap (Nd.target.get r.op.desc) (r.image.map (·, false)) := by
  simp only [State.napFinish, hop]

theorem Cluster.battBytes_of_getD {x : Cluster} {m : SMap (Byte × Bool)} {a n : Nat}
    (h : ∀ b, a ≤ b → b < a + n → SMap.getD (0, false) x.batt b = SMap.getD (0, false) m b) :
    x.battBytes a n = (SMap.range (0, false) m a n).map (·.1) := by
  unfold Cluster.battBytes Cluster.battRead
  refine congrArg _ (List.map_congr_left fun i hi => h (a + i) (by omega) ?_)
  have := List.mem_range.mp hi
  omega

theorem length_leBytes_four (v : Nat) : ((leBytes 4 v).map (·, false)).length = 4 := by simp [length_leBytes]

/-- A SCALE leaves its scale in batt memory, where no other port wrote in that cycle. -/
theorem State.batt_napFinish_scale (hop : Nd.opcode.get r.op.desc = 0x11) (hw : (s.cl c).writes.at r.finish = []) :
    ((s.napFinish p c r).cl c).battBytes ((Nd.base 1).get r.op.desc) 4 = leBytes 4 (leNat r.image) := by
  rw [State.napFinish_scale hop]
  obtain ⟨m, hm, -⟩ := (s.battPut p c r.finish .nap ((Nd.base 1).get r.op.desc) ((leBytes 4 (leNat r.image)).map (·, false))).cl_setZ p c
    (Nd.summary.get r.op.desc) (zWord 0 0 (leNat r.image) false)
  rw [hm]
  have h := Cluster.battBytes_of_getD (x := (s.battPut p c r.finish .nap ((Nd.base 1).get r.op.desc)
    ((leBytes 4 (leNat r.image)).map (·, false))).cl c) 
    (m := SMap.putList (0, false) (s.cl c).batt ((Nd.base 1).get r.op.desc) ((leBytes 4 (leNat r.image)).map (·, false)))
    (a := (Nd.base 1).get r.op.desc) (n := 4) fun b _ _ => by
      rw [State.getD_batt_battPut_nap, hw]
      exact if_neg (by simp [portsAt])
  refine Eq.trans (b := ((s.battPut p c r.finish .nap ((Nd.base 1).get r.op.desc)
    ((leBytes 4 (leNat r.image)).map (·, false))).cl c).battBytes ((Nd.base 1).get r.op.desc) 4) rfl (h.trans ?_)
  have hr := SMap.range_putList (0, false) (s.cl c).batt ((Nd.base 1).get r.op.desc) ((leBytes 4 (leNat r.image)).map (·, false))
  rw [length_leBytes_four] at hr
  rw [hr, List.map_map]
  exact List.map_id _

/-- The end of an operation of the engine. -/
theorem gives_napOpEnd (ho : s.ownerOfCluster c = some p.val) (hr : (s.cl c).nap.run = some r) (hs : (s.pt p).slice.isSome = true)
    (hf : r.finish < (s.pt p).edgeCycle) : ∃ u, exec (.napOpEnd c) s = .next (u.modNap c (fun n => { n with run := none, lastEnd := r.finish })) ∧
      (u.cl c).nap.queue = (s.cl c).nap.queue ∧ (r.illegal = false → u = (s.napAtEnd p c r).napFinish p c r) := by
  cases hill : r.illegal with
  | false =>
    refine ⟨_, exec_napOpEnd_legal ho hr hill hs hf, ?_, fun _ => rfl⟩
    rw [State.queue_napFinish, State.cl_napAtEnd]
  | true =>
    obtain ⟨u, hu, hcase⟩ := exec_napOpEnd_illegal ho hr hill hs hf
    refine ⟨u, hu, ?_, nofun⟩
    obtain ⟨m, hm, -⟩ := s.cl_summarizeIllegal p c r
    have h : u.cl c = (s.summarizeIllegal p c r).cl c := by
      rcases hcase with rfl | ⟨hit, rfl⟩
      · rfl
      · exact State.cl_foundIllegal ..
    rw [h, hm]

end

/-- Settles O21: how RUN and SCALE start, and how the operation in progress ends. -/
theorem napOperations : Obligations.NapOperations := by
  unfold Obligations.NapOperations
  refine ⟨fun p c bad o rest st s => ?_, fun p c r s => ?_⟩
  · intro x ho hq hst
    refine ⟨fun h => ?_, fun h => gives_scale ho hq hst h⟩
    intro img prog it
    obtain ⟨t, ht, h1, saved, h2⟩ := gives_run (bad := bad) ho hq hst h
    exact ⟨t, ht, h1, saved, h2⟩
  · intro d ho hr hs hf
    obtain ⟨u, hu, hq, hlegal⟩ := gives_napOpEnd ho hr hs hf
    refine gives_of_next hu ?_
    rw [State.cl_modNap]
    refine ⟨rfl, rfl, hq, fun hill hop hz => ?_, fun hill hop hw => ?_⟩
    · rw [hlegal hill]
      rw [State.napFinish_run hop]
      exact State.valid_endRun _ p c r hz
    · rw [hlegal hill]
      refine State.batt_napFinish_scale hop ?_
      rw [State.cl_napAtEnd]
      exact hw

/-! ## Summaries and notes (R147, R186, R199, R203) -/

section
variable {p : PartId} {c : ClusterId} {r : NapRun} {s : State}

/-- An operation that runs for 8 cycles starts. -/
theorem gives_napBegin {i : Instr} {o : NapOp} {rest : List NapOp} {st : Nat} (img : List Byte) (ho : s.ownerOfCluster c = some p.val)
    (hq : (s.cl c).nap.queue = o :: rest) (hst : (s.cl c).nap.headStart = some st)
    (h : exec i s = .next (s.napBegin c 8 false img false)) :
    Gives i s fun t => (t.cl c).nap.queue = rest ∧ (t.cl c).nap.run = some ⟨o, st, st + 8, false, img, false, [], [], []⟩ :=
  gives_of_next h (State.nap_napBegin ho hq hst 8 img)

theorem exec_amaxNote {o : NapOp} {rest : List NapOp} (hq : (s.cl c).nap.queue = o :: rest) (h : s.napStarts c 0x12 = true) :
    exec (.amaxNote c) s = .next (s.napBegin c 8 false (leBytes 4 ((s.cl c).zRead ((Nd.base 1).get o.desc) / 2 ^ 32)) false) := by
  show execAmaxNote c s = _
  unfold execAmaxNote
  refine (takes_of h s _).trans (congrArg _ ?_)
  rw [hq]

theorem exec_summaryStore {o : NapOp} {rest : List NapOp} (hq : (s.cl c).nap.queue = o :: rest) (h : s.napStarts c 0x14 = true) :
    exec (.summaryStore c) s = .next (s.napBegin c 8 false (leBytes 8 ((s.cl c).zRead (Nd.summary.get o.desc))) false) := by
  show execSummaryStore c s = _
  unfold execSummaryStore
  refine (takes_of h s _).trans (congrArg _ ?_)
  rw [hq]

theorem exec_summaryLoad {o : NapOp} {rest : List NapOp} {st : Nat} (hq : (s.cl c).nap.queue = o :: rest)
    (hst : (s.cl c).nap.headStart = some st) (h : s.napStarts c 0x13 = true) :
    exec (.summaryLoad c) s = .next (s.napBegin c 8 false (((s.cl c).before st).battBytes (Nd.target.get o.desc) 8 ++
      (if ((s.cl c).before st).battBad (Nd.target.get o.desc) 8 then [1] else [0])) false) := by
  show execSummaryLoad c s = _
  unfold execSummaryLoad
  refine (takes_of h s _).trans (congrArg _ ?_)
  rw [hq, hst]
  rfl

/-! ### What a late mark leaves -/

theorem State.lateCluster_keeps (s : State) (p : PartId) (c cycle : Nat) :
    ((s.lateCluster p c cycle).pt p).notes = (s.pt p).notes ∧
    ∀ k, k ≠ Obj.TRIGGER_TICK p → (s.lateCluster p c cycle).rg k = s.rg k := by
  unfold State.lateCluster
  extract_lets was s1
  have h1 : (s1.pt p).notes = (s.pt p).notes ∧ ∀ k, s1.rg k = s.rg k := by
    unfold s1 State.late
    rw [State.pt_modPt_fin]
    exact ⟨rfl, fun _ => rfl⟩
  clear_value s1
  split
  · exact ⟨h1.1, fun k _ => h1.2 k⟩
  · unfold State.traceFire
    split
    · rw [State.pt_setRg, State.pt_modPt_fin]
      exact ⟨h1.1, fun k hk => (State.rg_setRg_ne _ _ hk).trans (h1.2 k)⟩
    · exact ⟨h1.1, fun k _ => h1.2 k⟩

theorem objBytes_NOTE_OVERFLOW (p : PartId) : objBytes (Obj.NOTE_OVERFLOW p) = some 4 := by
  revert p
  decide +kernel

/-- A note that is held, or refused and counted (R147). -/
theorem State.notes_napFinish (hop : Nd.opcode.get r.op.desc = 0x12) :
    ((s.pt p).notes.length < 4096 → ((s.napFinish p c r).pt p).notes =
      (s.pt p).notes ++ [⟨Nd.target.get r.op.desc, (Nd.base 0).get r.op.desc, leNat r.image⟩]) ∧
    (4096 ≤ (s.pt p).notes.length → ((s.napFinish p c r).pt p).notes = (s.pt p).notes ∧
      (s.napFinish p c r).rg (Obj.NOTE_OVERFLOW p) = (s.rg (Obj.NOTE_OVERFLOW p) + 1) % 2 ^ 32) := by
  rw [State.napFinish_note hop]
  refine ⟨fun h => ?_, fun h => ?_⟩
  · rw [if_pos h, State.pt_modPt_fin]
  · rw [if_neg (by omega)]
    obtain ⟨hn, hr⟩ := (s.incRg (Obj.NOTE_OVERFLOW p) 1).lateCluster_keeps p c r.finish
    refine ⟨hn, (hr (Obj.NOTE_OVERFLOW p) (okey_ne_of_index (by omega) (by decide) (by decide))).trans ?_⟩
    exact State.rg_incRg_bytes (objBytes_NOTE_OVERFLOW p) (by decide) s 1

/-- A summary that is stored, but for the bytes that the core wrote in that cycle (R186). -/
theorem State.batt_napFinish_store (hop : Nd.opcode.get r.op.desc = 0x14) {k : Nat} (hk : k < r.image.length) :
    ((s.napFinish p c r).cl c).battBytes (Nd.target.get r.op.desc + k) 1 =
      if (portsAt ((s.cl c).writes.at r.finish) (Nd.target.get r.op.desc + k)).contains .crown = true
      then (s.cl c).battBytes (Nd.target.get r.op.desc + k) 1 else (r.image.drop k).take 1 := by
  have one (x : Cluster) (b : Nat) : x.battBytes b 1 = [(SMap.getD (0, false) x.batt b).1] := by
    simp [Cluster.battBytes, Cluster.battRead, SMap.range]
  have hlen : k < (r.image.map (·, false)).length := by rwa [List.length_map]
  rw [State.napFinish_store hop, one, one, State.getD_batt_battPut_nap]
  by_cases h : (portsAt ((s.cl c).writes.at r.finish) (Nd.target.get r.op.desc + k)).contains .crown = true
  · rw [if_pos h, if_pos ⟨⟨by omega, by omega⟩, h⟩]
  · rw [if_neg h, if_neg (fun h' => h h'.2), SMap.getD_putList_in _ _ _ _ _ hlen]
    rw [List.take_one_drop_eq_of_lt_length hk, List.getElem_map]
    rfl

/-- Bits of a word without those of a mask. -/
theorem testBit_sub_and (w m i : Nat) : (w - (w &&& m)).testBit i = (w.testBit i && !m.testBit i) := by
  induction i generalizing w m with
  | zero =>
    have h1 : (w &&& m) % 2 = (w % 2) &&& (m % 2) := Nat.and_mod_two_pow (n := 1)
    have h2 : w &&& m ≤ w := Nat.and_le_left
    simp only [Nat.testBit_zero]
    rw [show (w - (w &&& m)) % 2 = (w % 2 + (w &&& m) % 2) % 2 by omega, h1]
    rcases Nat.mod_two_eq_zero_or_one w with hw | hw <;> rcases Nat.mod_two_eq_zero_or_one m with hm | hm <;> simp [hw, hm]
  | succ i ih =>
    have h1 : (w &&& m) / 2 = w / 2 &&& m / 2 := Nat.and_div_two
    have h2 : (w &&& m) % 2 = (w % 2) &&& (m % 2) := Nat.and_mod_two_pow (n := 1)
    have h3 : (w - (w &&& m)) / 2 = w / 2 - (w / 2 &&& m / 2) := by
      have h4 : (w &&& m) % 2 ≤ w % 2 := h2 ▸ Nat.and_le_left
      omega
    rw [Nat.testBit_succ, Nat.testBit_succ, Nat.testBit_succ, h3, ih]

theorem testBit_loadedSummary (image : List Byte) {b : Nat} (hv : b ≠ zValid) (hp : b = zPoison → imgField image 8 1 ≠ 1) :
    (loadedSummary image).testBit b = ((leNat (image.take 8)).testBit b && !zReserved.testBit b) := by
  unfold loadedSummary
  rw [Nat.testBit_or, Nat.testBit_or, testBit_sub_and, Nat.testBit_two_pow_of_ne (Ne.symm hv)]
  have : (if (imgField image 8 1 == 1) = true then 2 ^ zPoison else 0).testBit b = false := by
    split
    next h => exact Nat.testBit_two_pow_of_ne fun e => hp e.symm (by simpa using h)
    next => exact Nat.zero_testBit b
  rw [this]
  simp

theorem testBit_loadedSummary_valid (image : List Byte) : (loadedSummary image).testBit zValid = true := by
  unfold loadedSummary
  rw [Nat.testBit_or, Nat.testBit_or, Nat.testBit_two_pow_self]
  simp

/-- The end of SUMMARY_LOAD changes of its cluster what the write of its register does. -/
theorem State.cl_napFinish_load (hop : Nd.opcode.get r.op.desc = 0x13) :
    (s.napFinish p c r).cl c = (s.setZ p c (Nd.summary.get r.op.desc) (loadedSummary r.image)).cl c := by
  rw [State.napFinish_load hop]
  split
  · unfold State.cl
    rw [(State.changes_lateCluster ..).kept .clusters]
    rfl
  · rfl

theorem testBit_clearBit_self (v i : Nat) : (clearBit v i).testBit i = false := by
  unfold clearBit
  split
  next h =>
    have hv : v &&& 2 ^ i = 2 ^ i := by rw [Nat.and_two_pow, h]; simp
    have := testBit_sub_and v (2 ^ i) i
    rw [hv, h, Nat.testBit_two_pow_self] at this
    exact this
  next h => simpa using h

/-- GAUGE of every summary register reads the cluster's gauge state (R199). -/
theorem Cluster.testBit_zRead_zGauge (x : Cluster) (k : Nat) : (x.zRead k).testBit zGauge = x.gaugeBit := by
  unfold Cluster.zRead
  cases x.gaugeBit
  · split
    · rfl
    · exact testBit_clearBit_self ..
  · split
    · rfl
    · exact testBit_setBit_self ..

end

/-- Settles O23: the starts of the three operations, and what each leaves at its end. -/
theorem summaryAndNoteOperations : Obligations.SummaryAndNoteOperations := by
  unfold Obligations.SummaryAndNoteOperations
  intro p c o rest st r s ho begins
  refine ⟨fun hq hst => ?_, fun hr hill hs hf => ?_⟩
  · intro a
    exact ⟨fun h => gives_napBegin _ ho hq hst (exec_amaxNote hq h), fun h => gives_napBegin _ ho hq hst (exec_summaryLoad hq hst h),
      fun h => gives_napBegin _ ho hq hst (exec_summaryStore hq h)⟩
  · intro d k
    refine gives_of_next (exec_napOpEnd_legal ho hr hill hs hf) ?_
    rw [State.cl_modNap]
    have hcl : (s.napAtEnd p c r).cl c = s.cl c := s.cl_napAtEnd p c c r
    have hpt : (s.napAtEnd p c r).pt p = s.pt p := by
      unfold State.napAtEnd State.napBusy
      split <;> rfl
    have hrg : ∀ j, (s.napAtEnd p c r).rg j = s.rg j := by
      unfold State.napAtEnd State.napBusy
      split <;> exact fun _ => rfl
    generalize s.napAtEnd p c r = u at hcl hpt hrg ⊢
    refine ⟨rfl, rfl, fun hop hn => ?_, fun hop hn => ?_, fun hop k hk => ?_, fun hop hz => ?_⟩
    · exact ((State.notes_napFinish (s := u) hop).1 (by rwa [hpt])).trans (by rw [hpt])
    · obtain ⟨h1, h2⟩ := (State.notes_napFinish (s := u) (c := c) hop).2 (by rwa [hpt])
      exact ⟨h1.trans (by rw [hpt]), h2.trans (by rw [hrg])⟩
    · rw [← hcl]
      exact State.batt_napFinish_store hop hk
    · refine ⟨fun b hb hv hg hp => ?_, ?_, ?_⟩
      · rw [State.cl_napFinish_load hop]
        exact (State.z_setZ u p c hz _ hb hg).trans (testBit_loadedSummary r.image hv hp)
      · rw [State.cl_napFinish_load hop]
        exact (State.z_setZ u p c hz _ (by decide) (by decide)).trans (testBit_loadedSummary_valid r.image)
      · exact Cluster.testBit_zRead_zGauge ..

end Sys2Proof.Machine

/-! ## Device refresh and training; CXL ports (R263 to R276) -/

namespace Sys2Proof.Machine
open Sys2Proof

-- Short theorems, many of them: one after another, so that the threads' stacks stay within the check's memory.
set_option Elab.async false

section
variable {s : State}

theorem objBytes_DEV_STATE (d : DeviceId) : objBytes (Obj.DEV_STATE d) ≠ some 0 := by
  revert d
  decide +kernel

theorem objBytes_DEV_TEMP (d : DeviceId) : objBytes (Obj.DEV_TEMP d) = some 4 := by
  revert d
  decide +kernel

theorem objBytes_CXL_STATE (x : CxlId) : objBytes (Obj.CXL_STATE x) ≠ some 0 := by
  revert x
  decide +kernel

theorem objBytes_CXL_BYTES (x : CxlId) : objBytes (Obj.CXL_BYTES x) = some 8 := by
  revert x
  decide +kernel

theorem objBytes_RETRAIN_STATUS : objBytes Obj.RETRAIN_STATUS ≠ some 0 := by decide +kernel

theorem DEV_STATE_ne {d e : DeviceId} (h : e ≠ d) : Obj.DEV_STATE e ≠ Obj.DEV_STATE d := by
  have := Fin.val_ne_of_ne h
  simp only [Obj.DEV_STATE, okey]
  omega

/-- The register is none of those that the common tail of a device's or an expander's change writes. -/
theorem State.rg_updateModuleState (s : State) {k : Nat} (h : k ≠ Obj.MODULE_STATE) : s.updateModuleState.rg k = s.rg k := by
  unfold State.updateModuleState
  extract_lets m bad
  split
  · exact State.rg_setRg_ne s _ h
  · rfl

theorem State.rg_failsUsing (s : State) (m b k : Nat) : (s.failsUsing m b).rg k = s.rg k :=
  rg_of_regs ((State.changes_failsUsing s m b).kept .regs) k

theorem State.rg_notifyCxl (s : State) (code x a k : Nat) : (s.notifyCxl code x a).rg k = s.rg k :=
  rg_of_regs ((State.changes_notifyCxl s code x a).kept .regs) k

/-! ### Devices -/

theorem gives_highTempRefresh {d : DeviceId} {cycles : Nat} (h : s.rg (Obj.DEV_STATE d) = devReady ∨ s.rg (Obj.DEV_STATE d) = devHot) :
    Gives (.highTempRefresh d cycles) s (fun t => t.rg (Obj.DEV_STATE d) = devHot) := by
  refine gives_of_takes (by unfold exec execHighTempRefresh; rfl) (by simp [h]) ?_
  extract_lets u
  have hu : u.rg (Obj.DEV_STATE d) = devHot :=
    (State.rg_failsUsing _ _ _ _).trans (State.rg_setRg_small (objBytes_DEV_STATE d) (by decide) s)
  clear_value u
  split
  · exact hu
  · exact hu

theorem gives_normalTemperatureRefresh {d : DeviceId} (h : s.rg (Obj.DEV_STATE d) = devHot) :
    Gives (.normalTemperatureRefresh d) s (fun t => t.rg (Obj.DEV_STATE d) = devReady) :=
  gives_of_takes (by unfold exec execNormalTemperatureRefresh; rfl) (by simp [h])
    (State.rg_setRg_small (v := devReady) (objBytes_DEV_STATE d) (by decide) _)

theorem State.retrain_eq (s : State) (d : DeviceId) : s.retrain d = if s.retrainBarred d then (s, .of stState)
    else ((s.setRg (Obj.DEV_STATE d) devTraining).setRg Obj.RETRAIN_STATUS 1, .ok) := by
  unfold State.retrain
  rw [if_neg (by simp)]

theorem gives_retrainDevice {d : DeviceId} {sess : Nat} (hw : s.mayWrite sess Obj.RETRAIN_DEVICE d = true) {P : State → Prop}
    (h : P (s.retrain d).1) : Gives (.retrainDevice sess d) s P :=
  gives_of_takes (by unfold exec execRetrainDevice State.command; rfl) hw h

/-- RETRAIN_STATUS tells the end of a training where no device trains any more. -/
theorem State.rg_retrainEnds {st : Nat} (hst : st < 256) (h : ∀ e : DeviceId, s.rg (Obj.DEV_STATE e) ≠ devTraining) :
    (s.retrainEnds st).rg Obj.RETRAIN_STATUS = st := by
  have hnone : (List.range 48).any (fun e => s.rg (Obj.DEV_STATE e) == devTraining) = false := by
    rw [List.any_eq_false]
    intro e he
    simpa using h ⟨e, List.mem_range.1 he⟩
  unfold State.retrainEnds
  rw [hnone]
  exact State.rg_setRg_small objBytes_RETRAIN_STATUS hst s

theorem State.rg_retrainEnds_ne (s : State) (st : Nat) {k : Nat} (h : k ≠ Obj.RETRAIN_STATUS) : (s.retrainEnds st).rg k = s.rg k :=
  State.rg_setRg_ne s _ h

theorem State.rg_trained_ne (s : State) (temp : Int) {d k : Nat} (h : k ≠ Obj.DEV_TEMP d) : (s.trained d temp).rg k = s.rg k :=
  State.rg_setRg_ne s _ h

theorem State.rg_trained (s : State) (d : DeviceId) (temp : Int) : (s.trained d temp).rg (Obj.DEV_TEMP d) = unsigned 32 temp := by
  refine (State.rg_setRg_bytes (objBytes_DEV_TEMP d) (by decide) s _).trans (Nat.mod_eq_of_lt ?_)
  unfold unsigned
  omega

theorem State.testBit_advised_trained (s : State) (d : DeviceId) (temp : Int) : (s.trained d temp).advised.testBit d = false :=
  testBit_clearBit_self ..

theorem DEV_STATE_ne_DEV_TEMP (e d : DeviceId) : Obj.DEV_STATE e ≠ Obj.DEV_TEMP d :=
  okey_ne_of_index (by decide) (by omega) (by omega)

theorem DEV_STATE_ne_RETRAIN_STATUS (e : DeviceId) : Obj.DEV_STATE e ≠ Obj.RETRAIN_STATUS :=
  okey_ne_of_index (by decide) (by omega) (by decide)

theorem DEV_STATE_ne_MODULE_STATE (e : DeviceId) : Obj.DEV_STATE e ≠ Obj.MODULE_STATE :=
  okey_ne_of_index (by decide) (by omega) (by decide)

/-- A device whose state was set to `v`, where no other one trains: none trains. -/
theorem noneTrains {t : State} {d : DeviceId} {v : Nat} (hv : v ≠ devTraining) (hd : t.rg (Obj.DEV_STATE d) = v)
    (ho : ∀ e : DeviceId, e ≠ d → t.rg (Obj.DEV_STATE e) = s.rg (Obj.DEV_STATE e))
    (h : ∀ e : DeviceId, e ≠ d → s.rg (Obj.DEV_STATE e) ≠ devTraining) (e : DeviceId) : t.rg (Obj.DEV_STATE e) ≠ devTraining := by
  by_cases he : e = d
  · rw [he, hd]
    exact hv
  · rw [ho e he]
    exact h e he

theorem gives_retrainDone_some {d : DeviceId} {temp : Int} (hst : s.rg (Obj.DEV_STATE d) = devTraining)
    (h : ∀ e : DeviceId, e ≠ d → s.rg (Obj.DEV_STATE e) ≠ devTraining) :
    Gives (.retrainDone d (some temp)) s (fun t => t.rg Obj.RETRAIN_STATUS = 2 ∧ t.mem = s.mem ∧ t.poisonLog = s.poisonLog ∧
      t.rg (Obj.DEV_TEMP d) = unsigned 32 temp ∧ t.advised.testBit d = false ∧
      t.rg (Obj.DEV_STATE d) = (if (s.ownerOfDevice d).isSome || s.holdsTable d then devReady else devSelfRefresh)) := by
  refine gives_of_takes (by unfold exec execRetrainDone; rfl) (by simp [hst]) ?_
  dsimp only
  generalize hv : (if (s.ownerOfDevice d).isSome || s.holdsTable d then devReady else devSelfRefresh) = v
  have hlt : v < 256 ∧ v ≠ devTraining := by
    rw [← hv]
    split <;> decide
  have hself : ((s.setRg (Obj.DEV_STATE d) v).trained d temp).rg (Obj.DEV_STATE d) = v :=
    (State.rg_trained_ne _ _ (DEV_STATE_ne_DEV_TEMP d d)).trans (State.rg_setRg_small (objBytes_DEV_STATE d) hlt.1 s)
  refine ⟨State.rg_retrainEnds (by decide) (noneTrains hlt.2 hself (fun e he => ?_) h), rfl, rfl, ?_,
    State.testBit_advised_trained _ d temp, ?_⟩
  · exact (State.rg_trained_ne _ _ (DEV_STATE_ne_DEV_TEMP e d)).trans (State.rg_setRg_ne s _ (DEV_STATE_ne he))
  · exact (State.rg_retrainEnds_ne _ _ (okey_ne_of_index (by decide) (by omega) (by decide))).trans (State.rg_trained _ _ _)
  · exact (State.rg_retrainEnds_ne _ _ (DEV_STATE_ne_RETRAIN_STATUS d)).trans hself

/-- A device that fails is FAILED, and every other device keeps its state. -/
theorem State.rg_deviceFailed (s : State) (d e : DeviceId) :
    (s.deviceFailed d).rg (Obj.DEV_STATE e) = (s.setRg (Obj.DEV_STATE d) devFailed).rg (Obj.DEV_STATE e) := by
  unfold State.deviceFailed
  extract_lets s1 s2
  have h1 : s1.rg (Obj.DEV_STATE e) = (s.setRg (Obj.DEV_STATE d) devFailed).rg (Obj.DEV_STATE e) :=
    State.rg_updateModuleState _ (DEV_STATE_ne_MODULE_STATE e)
  have h2 : s2.rg (Obj.DEV_STATE e) = (s.setRg (Obj.DEV_STATE d) devFailed).rg (Obj.DEV_STATE e) := (State.rg_notify ..).trans h1
  clear_value s2 s1
  split
  · exact h2
  · exact h2

theorem gives_retrainDone_none {d : DeviceId} (hst : s.rg (Obj.DEV_STATE d) = devTraining)
    (h : ∀ e : DeviceId, e ≠ d → s.rg (Obj.DEV_STATE e) ≠ devTraining) :
    Gives (.retrainDone d none) s (fun t => t.rg Obj.RETRAIN_STATUS = 3 ∧ t.rg (Obj.DEV_STATE d) = devFailed ∧ t.mem = s.mem) := by
  refine gives_of_takes (by unfold exec execRetrainDone; rfl) (by simp [hst]) ?_
  have hself : (s.deviceFailed d).rg (Obj.DEV_STATE d) = devFailed :=
    (State.rg_deviceFailed s d d).trans (State.rg_setRg_small (objBytes_DEV_STATE d) (by decide) s)
  refine ⟨State.rg_retrainEnds (by decide) (noneTrains (by decide) hself (fun e he => ?_) h),
    (State.rg_retrainEnds_ne _ _ (DEV_STATE_ne_RETRAIN_STATUS d)).trans hself, Eq.trans ((State.changes_retrainEnds _ _).kept .mem) ((State.changes_deviceFailed s d).kept .mem)⟩
  exact (State.rg_deviceFailed s d e).trans (State.rg_setRg_ne s _ (DEV_STATE_ne he))

theorem gives_gddr7RetrainAdvised {d : DeviceId} {temp : Int} (ha : s.advised.testBit d = false)
    (h : 20 < temp - signed 32 (SMap.getD 0 s.trainTemp d).toNat ∨ 20 < signed 32 (SMap.getD 0 s.trainTemp d).toNat - temp) :
    Gives (.gddr7RetrainAdvised d temp) s (fun t => t.advised.testBit d = true ∧ t.rg (Obj.DEV_TEMP d) = unsigned 32 temp) := by
  refine gives_of_takes (by unfold exec execGddr7RetrainAdvised; rfl) (by simpa only [ha, Bool.not_false, Bool.true_and, Bool.or_eq_true, decide_eq_true_eq] using h) ⟨testBit_setBit_self .., ?_⟩
  exact (State.rg_notify ..).trans (State.rg_trained s d temp)

/-! ### CXL ports -/

theorem SMap.get?_filter_out {α : Type} (m : SMap α) (f : Nat → Bool) {k : Nat} (h : f k = false) :
    SMap.get? (m.filter fun x => f x.1) k = none := by
  induction m with
  | nil => rfl
  | cons x m ih =>
    obtain ⟨j, v⟩ := x
    by_cases hj : j = k
    · subst hj
      simp [h, ih]
    · cases hf : f j <;> simp [SMap.get?, hf, hj, ih]

theorem State.memByte_emptyWindow_in (s : State) (x : CxlId) {a : Nat} (h : cxlBase x ≤ a) (h' : a < cxlBase x + 2 ^ 41) :
    (s.emptyWindow x).memByte a = 0 := by
  refine congrArg (·.getD 0) (SMap.get?_filter_out s.mem (fun a => !(cxlBase x ≤ a && a < cxlBase x + 0x0200_0000_0000)) ?_)
  simpa using ⟨h, h'⟩

theorem State.memByte_updateModuleState (s : State) (a : Nat) : s.updateModuleState.memByte a = s.memByte a :=
  congrArg (SMap.getD 0 · a) ((State.changes_updateModuleState s).kept .mem)

theorem State.rg_emptyWindow (s : State) (x k : Nat) : (s.emptyWindow x).rg k = s.rg k := rfl

theorem CXL_STATE_ne_CXL_BYTES (x y : Nat) : Obj.CXL_STATE x ≠ Obj.CXL_BYTES y := okey_ne_of_sub (by decide)

theorem CXL_STATE_ne_MODULE_STATE (x : Nat) : Obj.CXL_STATE x ≠ Obj.MODULE_STATE := okey_ne_of_sub (by decide)

theorem CXL_BYTES_ne_MODULE_STATE (x : Nat) : Obj.CXL_BYTES x ≠ Obj.MODULE_STATE := okey_ne_of_sub (by decide)

theorem gives_cxlEnumerate_none {x : CxlId} {type3 hot refclk : Bool} (hup : s.power.up = true)
    (h : s.rg (Obj.CXL_STATE x) = cxlEmpty ∨ s.rg (Obj.CXL_STATE x) = cxlFailed) :
    Gives (.cxlEnumerate x none type3 hot refclk) s (fun t => t.rg (Obj.CXL_STATE x) = cxlTraining ∧
      ∀ a, cxlBase x ≤ a → a < cxlBase x + 2 ^ 41 → t.memByte a = 0) := by
  refine gives_of_takes (by unfold exec execCxlEnumerate; rfl) (by simp [hup, h]) ⟨?_, fun a ha hb => ?_⟩
  · rw [State.rg_updateModuleState _ (CXL_STATE_ne_MODULE_STATE x), State.rg_emptyWindow]
    exact State.rg_setRg_small (objBytes_CXL_STATE x) (by decide) s
  · rw [State.memByte_updateModuleState]
    exact State.memByte_emptyWindow_in _ x ha hb

/-- The state and the capacity that an enumeration gives a port. -/
theorem State.rg_enumerated (s : State) (x : CxlId) {st cap : Nat} (hst : st < 256) (hcap : cap < 2 ^ 64) :
    ((s.setRg (Obj.CXL_STATE x) st).setRg (Obj.CXL_BYTES x) cap).updateModuleState.rg (Obj.CXL_STATE x) = st ∧
    ((s.setRg (Obj.CXL_STATE x) st).setRg (Obj.CXL_BYTES x) cap).updateModuleState.rg (Obj.CXL_BYTES x) = cap := by
  rw [State.rg_updateModuleState _ (CXL_STATE_ne_MODULE_STATE x), State.rg_updateModuleState _ (CXL_BYTES_ne_MODULE_STATE x)]
  exact ⟨(State.rg_setRg_ne _ _ (CXL_STATE_ne_CXL_BYTES x x)).trans (State.rg_setRg_small (objBytes_CXL_STATE x) hst s),
    (State.rg_setRg_bytes (objBytes_CXL_BYTES x) (by decide) _ _).trans (Nat.mod_eq_of_lt hcap)⟩

/-- A clock bit of a port. -/
theorem testBit_sris (m x : Nat) (refclk : Bool) : (if refclk then clearBit m x else setBit m x).testBit x = !refclk := by
  cases refclk
  · exact testBit_setBit_self ..
  · exact testBit_clearBit_self ..

theorem gives_cxlEnumerate_some {x : CxlId} {capacity : Nat} {type3 hot refclk : Bool} (hm : s.boot.milliner = true)
    (h : s.rg (Obj.CXL_STATE x) = cxlTraining) :
    Gives (.cxlEnumerate x (some capacity) type3 hot refclk) s (fun t => t.cxlSris.testBit x = !refclk ∧
      t.rg (Obj.CXL_STATE x) = (if type3 then cxlUp else cxlFailed) ∧
      t.rg (Obj.CXL_BYTES x) = if type3 then Nat.min capacity (2 ^ 41) / 65536 * 65536 else 0) := by
  refine gives_of_takes (by unfold exec execCxlEnumerate; rfl) (by simp [hm, h]) ?_
  extract_lets cap s1 s2 s3
  have hcap : cap < 2 ^ 64 := lt_of_le_of_lt ((Nat.div_mul_le_self _ _).trans (Nat.min_le_right _ _)) (by decide)
  have h1 : s1.cxlSris.testBit x = !refclk := testBit_sris ..
  have h3 : s3.cxlSris.testBit x = !refclk ∧ s3.rg (Obj.CXL_STATE x) = (if type3 then cxlUp else cxlFailed) ∧
      s3.rg (Obj.CXL_BYTES x) = if type3 then cap else 0 := by
    cases type3
    · exact ⟨(congrArg (·.testBit x) ((State.changes_updateModuleState s2).kept .cxlSris)).trans h1, s1.rg_enumerated x (by decide) (by decide)⟩
    · exact ⟨(congrArg (·.testBit x) ((State.changes_updateModuleState s2).kept .cxlSris)).trans h1, s1.rg_enumerated x (by decide) hcap⟩
  clear_value s3 s2 s1
  cases hot
  · exact h3
  · obtain ⟨hs, hr, hb⟩ := h3
    exact ⟨(congrArg (·.testBit x) ((State.changes_notifyCxl s3 _ _ _).kept .cxlSris)).trans hs,
      (State.rg_notifyCxl ..).trans hr, (State.rg_notifyCxl ..).trans hb⟩

theorem gives_cxlRemove {x : CxlId} {sess : Nat} (hw : s.mayWrite sess (Obj.CXL_REMOVE x) 1 = true)
    (h : ∀ kv ∈ s.resList, s.region (ResEntry.slotAddr kv.2 0) ≠ some (.cxl x)) :
    Gives (.cxlRemove sess x) s (fun t => t.rg (Obj.CXL_STATE x) = cxlRemoving ∧ t.mem = s.mem) := by
  have hnone : s.resList.any (fun kv => s.region (ResEntry.slotAddr kv.2 0) == some (.cxl x)) = false := by
    simpa using fun i e he => h (i, e) he
  refine gives_of_takes (by unfold exec execCxlRemove State.command; rfl) hw ?_
  unfold State.cxlRemove
  simp only [hnone, ne_eq, not_true_eq_false, if_false, Bool.false_eq_true]
  refine ⟨?_, ?_⟩
  · rw [State.rg_updateModuleState _ (CXL_STATE_ne_MODULE_STATE x)]
    exact State.rg_setRg_small (objBytes_CXL_STATE x) (by decide) _
  · exact Eq.trans ((State.changes_updateModuleState _).kept .mem)
      (Eq.trans ((State.changes_setRg ..).kept .mem) ((State.changes_failsUsing s (48 + x) cfMaint).kept .mem))

theorem gives_cxlLost_removing {x : CxlId} (h : s.rg (Obj.CXL_STATE x) = cxlRemoving) :
    Gives (.cxlLost x) s (fun t => t.rg (Obj.CXL_STATE x) = cxlEmpty ∧ t.rg (Obj.CXL_BYTES x) = 0 ∧
      ∀ a, cxlBase x ≤ a → a < cxlBase x + 2 ^ 41 → t.memByte a = 0) := by
  have hx : exec (.cxlLost x) s =
      .next ((((s.setRg (Obj.CXL_STATE x) cxlEmpty).setRg (Obj.CXL_BYTES x) 0).emptyWindow x).updateModuleState) := by
    show execCxlLost x s = _
    unfold execCxlLost
    exact if_pos h
  refine gives_of_next hx ⟨?_, ?_, fun a ha hb => ?_⟩
  · rw [State.rg_updateModuleState _ (CXL_STATE_ne_MODULE_STATE x), State.rg_emptyWindow,
      State.rg_setRg_ne _ _ (CXL_STATE_ne_CXL_BYTES x x)]
    exact State.rg_setRg_small (objBytes_CXL_STATE x) (by decide) s
  · rw [State.rg_updateModuleState _ (CXL_BYTES_ne_MODULE_STATE x), State.rg_emptyWindow,
      State.rg_setRg_bytes (objBytes_CXL_BYTES x) (by decide)]
    decide
  · rw [State.memByte_updateModuleState]
    exact State.memByte_emptyWindow_in _ x ha hb

/-- A stop that is due stays due while further stops are noted. -/
theorem State.fault_faultDue_ne (s : State) (q : Nat) {cause : Nat} (p : PartId) (hc : cause ≠ 0) (h : (s.pt p).fault ≠ 0) :
    ((s.faultDue q cause).pt p).fault ≠ 0 := by
  by_cases hq : q = p
  · subst hq
    exact State.fault_faultDue s p hc
  · rw [State.faultDue, State.pt_modPt_ne s (Ne.symm hq)]
    exact h

theorem State.fault_foldl_faultDue {cause : Nat} (hc : cause ≠ 0) (p : PartId) {l : List Nat} (hm : p.val ∈ l) (s : State) :
    ((l.foldl (fun t q => t.faultDue q cause) s).pt p).fault ≠ 0 := by
  have kept : ∀ (l : List Nat) (u : State), (u.pt p).fault ≠ 0 → ((l.foldl (fun t q => t.faultDue q cause) u).pt p).fault ≠ 0 := by
    intro l
    induction l with
    | nil => exact fun u h => h
    | cons q l ih => exact fun u h => ih _ (State.fault_faultDue_ne u q p hc h)
  induction l generalizing s with
  | nil => cases hm
  | cons q l ih =>
    rcases List.mem_cons.1 hm with h | h
    · subst h
      exact kept l _ (State.fault_faultDue s p hc)
    · exact ih h _

theorem gives_cxlLost_up {x : CxlId} (h : s.rg (Obj.CXL_STATE x) = cxlUp) :
    Gives (.cxlLost x) s (fun t => t.rg (Obj.CXL_STATE x) = cxlFailed ∧
      ∀ p : PartId, (s.ownersOfCxl x).contains p.val = true → (t.pt p).fault ≠ 0) := by
  have hx : s.rg (Obj.CXL_STATE x) ≠ cxlRemoving := by
    rw [h]
    decide
  refine gives_of_takes (by unfold exec execCxlLost; exact if_neg hx) (by simp [h]) ?_
  extract_lets s1 s2
  have h2 : s2.rg (Obj.CXL_STATE x) = cxlFailed := by
    rw [State.rg_notifyCxl, State.rg_updateModuleState _ (CXL_STATE_ne_MODULE_STATE x)]
    exact State.rg_setRg_small (objBytes_CXL_STATE x) (by decide) s
  have howners : s2.ownersOfCxl x = s.ownersOfCxl x := by
    have hp : s2.parts = s.parts := Eq.trans ((State.changes_notifyCxl s1 _ _ _).kept .parts)
      ((State.changes_updateModuleState (s.setRg (Obj.CXL_STATE x) cxlFailed)).kept .parts)
    unfold State.ownersOfCxl State.pt
    rw [hp]
  clear_value s2 s1
  refine ⟨?_, fun p hp => ?_⟩
  · exact (rg_of_regs ((Changes.foldl .refl fun u q => State.changes_faultDue u q stopCxl).kept .regs) _).trans h2
  · rw [howners]
    exact State.fault_foldl_faultDue (by decide) p (by simpa using hp) s2

end

/-- Settles O29, command by command: what each leaves in the registers of its device or port, past what the common tail writes. -/
theorem deviceAndCxlPortCommands : Obligations.DeviceAndCxlPortCommands := by
  unfold Obligations.DeviceAndCxlPortCommands
  refine ⟨fun d sess cycles temp s => ?_, fun x sess capacity type3 hot refclk s => ?_⟩
  · refine ⟨gives_highTempRefresh, gives_normalTemperatureRefresh, fun hw hb => gives_retrainDevice hw ?_,
      fun hw hb => gives_retrainDevice hw ?_, fun hst h => ⟨gives_retrainDone_some hst h, gives_retrainDone_none hst h⟩,
      gives_gddr7RetrainAdvised⟩
    · rw [State.retrain_eq, hb]
      exact ⟨(State.rg_setRg_ne _ _ (DEV_STATE_ne_RETRAIN_STATUS d)).trans (State.rg_setRg_small (objBytes_DEV_STATE d) (by decide) s),
        State.rg_setRg_small objBytes_RETRAIN_STATUS (by decide) _⟩
    · rw [State.retrain_eq, hb]
      rfl
  · refine ⟨gives_cxlEnumerate_none, fun hm h => ⟨gives_cxlEnumerate_some hm h, ?_⟩, gives_cxlRemove, gives_cxlLost_removing, gives_cxlLost_up⟩
    obtain ⟨t, ht, -, hst, hb⟩ := gives_cxlEnumerate_some (capacity := capacity) (type3 := false) (hot := hot) (refclk := refclk) hm h
    exact ⟨t, ht, hst, hb⟩

end Sys2Proof.Machine

/-! ## Sessions' windows, and the writes of numbers (R452, R453, R459) -/

namespace Sys2Proof.Machine
open Sys2Proof

-- Short theorems, many of them: one after another, so that the threads' stacks stay within the check's memory.
set_option Elab.async false

section
variable {s : State} {id : Nat} {x : Session}

/-! ### Windows -/

/-- Windows of two objects, each with its own default. -/
theorem SMap.getD_put_ne_default {α : Type} [DecidableEq α] (d e : α) (m : SMap α) {k j : Nat} (v : α) (h : j ≠ k) :
    SMap.getD d (SMap.put e m k v) j = SMap.getD d m j := by
  unfold SMap.put
  split
  · exact SMap.getD_del_ne _ _ h
  · exact SMap.getD_ins_ne _ _ _ h

theorem Session.of_session (h : s.session id = some x) : x.id = id ∧ x.open_ = true := by
  have := List.find?_some h
  simpa using this

/-- A change of a session's record that keeps its identifier and its being open is what is found afterwards. -/
theorem State.session_modSession (h : s.session id = some x) {f : Session → Session} (hf : ∀ y, (f y).id = y.id ∧ (f y).open_ = y.open_) :
    (s.modSession id f).session id = some (f x) := by
  have hx := (Session.of_session h).1
  have hp : ((fun x : Session => x.id == id && x.open_) ∘ fun x : Session => if x.id == id then f x else x) =
      fun x => x.id == id && x.open_ := by
    funext y
    dsimp only [Function.comp]
    split
    · rw [(hf y).1, (hf y).2]
    · rfl
  unfold State.session State.modSession
  rw [List.find?_map, hp]
  exact (congrArg (Option.map _) h).trans (by simp [hx])

theorem State.session_setWin (h : s.session id = some x) (key v : Nat) : (s.setWin id key v).session id =
    some { x with regs := SMap.put (objDefault key) x.regs key (BitVec.ofNat 64 (objMask key v)) } :=
  State.session_modSession h fun _ => ⟨rfl, rfl⟩

theorem State.session_setWinDom (h : s.session id = some x) (key : Nat) (v : List Byte) : (s.setWinDom id key v).session id =
    some { x with doms := SMap.put [] x.doms key v } :=
  State.session_modSession h fun _ => ⟨rfl, rfl⟩

theorem State.win_of_session (h : s.session id = some x) (key : Nat) : s.win id key = x.win key := by
  unfold State.win
  rw [h]

theorem State.win_setWin_bytes (h : s.session id = some x) {key n v : Nat} (hk : objBytes key = some n) (hn : n ≤ 8)
    (hv : v < 2 ^ (8 * n)) : (s.setWin id key v).win id key = v := by
  have h64 : (2 : Nat) ^ (8 * n) ≤ 2 ^ 64 := Nat.pow_le_pow_right (by decide) (by omega)
  rw [State.win_of_session (State.session_setWin h key v)]
  refine (congrArg BitVec.toNat (SMap.getD_put_self ..)).trans ?_
  rw [ objMask_of_bytes hk, Nat.mod_eq_of_lt hv, BitVec.toNat_ofNat]
  exact Nat.mod_eq_of_lt (lt_of_lt_of_le hv h64)

theorem State.win_setWin_ne (h : s.session id = some x) {key k : Nat} (v : Nat) (hk : k ≠ key) :
    (s.setWin id key v).win id k = s.win id k := by
  rw [State.win_of_session (State.session_setWin h key v), State.win_of_session h]
  exact congrArg BitVec.toNat (SMap.getD_put_ne_default _ _ _ _ hk)

theorem State.winDom_of_session (h : s.session id = some x) (key : Nat) : s.winDom id key = SMap.getD [] x.doms key := by
  unfold State.winDom
  rw [h]

theorem State.winDom_setWinDom (h : s.session id = some x) (key : Nat) (v : List Byte) : (s.setWinDom id key v).winDom id key = v := by
  rw [State.winDom_of_session (State.session_setWinDom h key v)]
  exact SMap.getD_put_self ..

theorem State.winDom_setWinDom_ne (h : s.session id = some x) {key k : Nat} (v : List Byte) (hk : k ≠ key) :
    (s.setWinDom id key v).winDom id k = s.winDom id k := by
  rw [State.winDom_of_session (State.session_setWinDom h key v), State.winDom_of_session h]
  exact SMap.getD_put_ne _ _ _ hk

/-! ### Writes of numbers -/

theorem State.mayWrite_admin (hm : s.boot.milliner = true) (h : s.session id = some x) (hr : x.role = roleAdmin) (key v : Nat) :
    s.mayWrite id key v = true := by
  unfold State.mayWrite
  simp [hm, h, hr]

/-- A session may write its own window 0x1101. -/
theorem State.mayWrite_own (hm : s.boot.milliner = true) (h : s.session id = some x) {key : Nat} (hk : key / 256 = 0x1101) (v : Nat) :
    s.mayWrite id key v = true := by
  unfold State.mayWrite
  simp [hm, h, hk]

variable {key v : Nat} {f : RecoverFacts} {r : ObjRow}

/-- A number that nothing refuses has its effect. -/
theorem State.writeNum_ok (hr : objRow key = some r) (ha : r.acc ≠ .ro) (hw : s.mayWrite id key v = true)
    (hv : s.valueRights id key v = false) (hn : s.numberBad r key v = stOk) (hb : s.stateBad key v = false) :
    s.writeNum id key v f = s.applyNum id key v f := by
  unfold State.writeNum
  simp [hr, ha, hw, hv, hn, hb]

/-- A number that the object's own state refuses changes nothing. -/
theorem State.writeNum_stateBad (hr : objRow key = some r) (hb : s.stateBad key v = true) : (s.writeNum id key v f).1 = s := by
  unfold State.writeNum
  simp only [hr, hb, if_true]
  split_ifs <;> rfl

theorem State.writeNum_ro (hr : objRow key = some r) (ha : r.acc = .ro) : (s.writeNum id key v f).1 = s := by
  unfold State.writeNum
  rw [hr]
  simp [ha]

theorem gives_registerWrite_kept (h : s.mayWrite id key v = false ∨ ∃ row, objRow key = some row ∧ row.acc = .ro) :
    Gives (.registerWrite id key v f) s (fun t => t = s) := by
  rcases h with h | ⟨r, hr, ha⟩
  · exact ⟨s, by unfold exec execRegisterWrite State.command takes; simp [h], rfl⟩
  · by_cases hw : s.mayWrite id key v = true
    · exact gives_of_takes (by unfold exec execRegisterWrite State.command; rfl) hw (State.writeNum_ro hr ha)
    · exact ⟨s, by unfold exec execRegisterWrite State.command takes; simp [hw], rfl⟩

theorem objRow_EVENT_MASK : objRow Obj.EVENT_MASK = some ⟨0x1101, 1, 0x0, 0x03, 0x03, .u16, .rw, 0xFFFF, true, 0, none⟩ := by
  decide +kernel

theorem objRow_SESSION_IDLE_S : objRow Obj.SESSION_IDLE_S = some ⟨0x1100, 1, 0x0, 0x03, 0x03, .u32, .rwp, 0x12C, false, 10, some 86400⟩ := by
  decide +kernel

theorem objRow_FACTORY_RESET : objRow Obj.FACTORY_RESET = some ⟨0x2000, 1, 0x0, 0x01, 0x01, .u32, .wo, 0x0, false, 0, none⟩ := by
  decide +kernel

theorem objRow_TICK_GRAINS (p : PartId) :
    objRow (Obj.TICK_GRAINS p) = some ⟨0x3004, 12, 0x100, 0x02, 0x02, .u32, .rws, 0x64, false, 5, some 100000⟩ := by
  revert p
  decide +kernel

theorem objRow_CLOSE_GUARD_NS (p : PartId) :
    objRow (Obj.CLOSE_GUARD_NS p) = some ⟨0x3004, 12, 0x100, 0x03, 0x03, .u32, .rws, 0x7D0, false, 500, some 50000⟩ := by
  revert p
  decide +kernel

theorem objBase_eq (h : objRow key = some r) : objBase key = r.index * 256 + key % 256 := by
  unfold objBase
  rw [h]

theorem objCopy_eq (h : objRow key = some r) : objCopy key = if r.step = 0 then 0 else (key / 256 - r.index) / r.step := by
  unfold objCopy
  rw [h]

end

end Sys2Proof.Machine

/-! ## Writes of objects, of the tick grid, and the factory reset (R34, R35, R47, R458) -/

namespace Sys2Proof.Machine
open Sys2Proof

-- Short theorems, many of them: one after another, so that the threads' stacks stay within the check's memory.
set_option Elab.async false

section
variable {s : State} {id v : Nat} {x : Session} {f : RecoverFacts}

theorem State.numberBad_u32 {r : ObjRow} {key hi : Nat} (ht : r.ty = .u32) (h32 : hi < 2 ^ 32) (hlo : r.rlo ≤ v) (hhi : r.rhi = some hi)
    (hv : v ≤ hi) (hx : s.textRange key v = false) (hres : reservedBits key = 0) : s.numberBad r key v = stOk := by
  have hn : ¬ 4294967296 ≤ v := by omega
  have hl : ¬ v < r.rlo := by omega
  have hh : ¬ hi < v := by omega
  unfold State.numberBad
  simp [ht, hx, hres, ObjType.size, hhi, hn, hl, hh]

/-! ### EVENT_MASK and SESSION_IDLE_S -/

theorem objBase_EVENT_MASK : objBase Obj.EVENT_MASK = 0x110103 := (objBase_eq objRow_EVENT_MASK).trans (by decide)

theorem objBase_SESSION_IDLE_S : objBase Obj.SESSION_IDLE_S = 0x110003 := (objBase_eq objRow_SESSION_IDLE_S).trans (by decide)

theorem objBase_FACTORY_RESET : objBase Obj.FACTORY_RESET = 0x200001 := (objBase_eq objRow_FACTORY_RESET).trans (by decide)

theorem State.writeNum_EVENT_MASK (hw : s.mayWrite id Obj.EVENT_MASK v = true) (hv : v < 65536) :
    (s.writeNum id Obj.EVENT_MASK v f).1 = s.setWin id Obj.EVENT_MASK v := by
  have hr : s.valueRights id Obj.EVENT_MASK v = false := by simp [State.valueRights, objBase_EVENT_MASK]
  have ht : s.textRange Obj.EVENT_MASK v = false := by simp [State.textRange, objBase_EVENT_MASK]
  have hres : reservedBits Obj.EVENT_MASK = 0 := by decide +kernel
  have hn : s.numberBad ⟨0x1101, 1, 0x0, 0x03, 0x03, .u16, .rw, 0xFFFF, true, 0, none⟩ Obj.EVENT_MASK v = stOk := by
    unfold State.numberBad
    simp [ht, hres, ObjType.size, hv]
  have hb : s.stateBad Obj.EVENT_MASK v = false := by
    have hi : indexPart (Obj.EVENT_MASK / 256) = none := by decide
    unfold State.stateBad
    simp [objRow_EVENT_MASK, objBase_EVENT_MASK, hi]
  rw [State.writeNum_ok objRow_EVENT_MASK (by decide) hw hr hn hb]
  simp [State.applyNum, objBase_EVENT_MASK, State.keepNum, objRow_EVENT_MASK]

theorem State.writeNum_SESSION_IDLE_S (hw : s.mayWrite id Obj.SESSION_IDLE_S v = true) (h10 : 10 ≤ v) (hv : v ≤ 86400) :
    (s.writeNum id Obj.SESSION_IDLE_S v f).1 = s.setRg Obj.SESSION_IDLE_S v := by
  have hr : s.valueRights id Obj.SESSION_IDLE_S v = false := by simp [State.valueRights, objBase_SESSION_IDLE_S]
  have ht : s.textRange Obj.SESSION_IDLE_S v = false := by simp [State.textRange, objBase_SESSION_IDLE_S]
  have hres : reservedBits Obj.SESSION_IDLE_S = 0 := by decide +kernel
  have hn : s.numberBad ⟨0x1100, 1, 0x0, 0x03, 0x03, .u32, .rwp, 0x12C, false, 10, some 86400⟩ Obj.SESSION_IDLE_S v = stOk :=
    State.numberBad_u32 rfl (hi := 86400) (by decide) h10 rfl hv ht hres
  have hb : s.stateBad Obj.SESSION_IDLE_S v = false := by
    have hi : indexPart (Obj.SESSION_IDLE_S / 256) = none := by decide
    unfold State.stateBad
    simp [objRow_SESSION_IDLE_S, objBase_SESSION_IDLE_S, hi]
  rw [State.writeNum_ok objRow_SESSION_IDLE_S (by decide) hw hr hn hb]
  simp [State.applyNum, objBase_SESSION_IDLE_S, State.keepNum, objRow_SESSION_IDLE_S]

theorem gives_write_EVENT_MASK (hm : s.boot.milliner = true) (h : s.session id = some x) (hv : v < 65536) :
    Gives (.registerWrite id Obj.EVENT_MASK v f) s (fun t => t.win id Obj.EVENT_MASK = v ∧ t.regs = s.regs) := by
  have hw := State.mayWrite_own hm h (key := Obj.EVENT_MASK) (by decide) v
  refine gives_of_takes (by unfold exec execRegisterWrite State.command; rfl) hw ?_
  rw [State.writeNum_EVENT_MASK hw hv]
  exact ⟨State.win_setWin_bytes h (n := 2) (by decide +kernel) (by decide) hv, rfl⟩

theorem gives_write_SESSION_IDLE_S (hm : s.boot.milliner = true) (h : s.session id = some x) (ha : x.role = roleAdmin) (h10 : 10 ≤ v)
    (hv : v ≤ 86400) :
    Gives (.registerWrite id Obj.SESSION_IDLE_S v f) s (fun t => t.rg Obj.SESSION_IDLE_S = v ∧ t.sessions = s.sessions) := by
  have hw := State.mayWrite_admin hm h ha Obj.SESSION_IDLE_S v
  refine gives_of_takes (by unfold exec execRegisterWrite State.command; rfl) hw ?_
  rw [State.writeNum_SESSION_IDLE_S hw h10 hv]
  exact ⟨(State.rg_setRg_bytes (n := 4) (by decide +kernel) (by decide) s v).trans (Nat.mod_eq_of_lt (by omega)), rfl⟩

/-! ### TICK_GRAINS and CLOSE_GUARD_NS -/

/-- Whether the grid of a partition takes no write: it is ACTIVE or HALTED. -/
def State.gridHeld (s : State) (p : Nat) : Bool := s.rg (Obj.PART_STATE p) == psActive || s.rg (Obj.PART_STATE p) == psHalted

variable {p : PartId}

theorem objCopy_grid (p : PartId) : objCopy (Obj.TICK_GRAINS p) = p ∧ objCopy (Obj.CLOSE_GUARD_NS p) = p := by
  revert p
  decide +kernel

theorem indexPart_grid (p : PartId) :
    indexPart (Obj.TICK_GRAINS p / 256) = some p.val ∧ indexPart (Obj.CLOSE_GUARD_NS p / 256) = some p.val := by
  revert p
  decide +kernel

theorem reservedBits_grid (p : PartId) : reservedBits (Obj.TICK_GRAINS p) = 0 ∧ reservedBits (Obj.CLOSE_GUARD_NS p) = 0 := by
  revert p
  decide +kernel

theorem State.stateBad_TICK_GRAINS : s.stateBad (Obj.TICK_GRAINS p) v = s.gridHeld p := by
  unfold State.stateBad
  simp [objRow_TICK_GRAINS, objBase_TICK_GRAINS, indexPart_grid, State.gridHeld]

theorem State.stateBad_CLOSE_GUARD_NS : s.stateBad (Obj.CLOSE_GUARD_NS p) v = s.gridHeld p := by
  unfold State.stateBad
  simp [objRow_CLOSE_GUARD_NS, objBase_CLOSE_GUARD_NS, indexPart_grid, State.gridHeld]

theorem State.writeNum_TICK_GRAINS (hw : s.mayWrite id (Obj.TICK_GRAINS p) v = true) (h5 : 5 ≤ v) (hv : v ≤ 100000)
    (hg : s.rg (Obj.CLOSE_GUARD_NS p) + 20000 ≤ v * 10000) (hf : s.gridHeld p = false) :
    (s.writeNum id (Obj.TICK_GRAINS p) v f).1 = s.writeTick p (Obj.TICK_GRAINS p) v := by
  have hr : s.valueRights id (Obj.TICK_GRAINS p) v = false := by simp [State.valueRights, objBase_TICK_GRAINS]
  have ht : s.textRange (Obj.TICK_GRAINS p) v = false := by simp [State.textRange, objBase_TICK_GRAINS, objCopy_grid, hg]
  have hn : s.numberBad ⟨0x3004, 12, 0x100, 0x02, 0x02, .u32, .rws, 0x64, false, 5, some 100000⟩ (Obj.TICK_GRAINS p) v = stOk :=
    State.numberBad_u32 rfl (hi := 100000) (by decide) h5 rfl hv ht (reservedBits_grid p).1
  rw [State.writeNum_ok (objRow_TICK_GRAINS p) (by decide) hw hr hn (State.stateBad_TICK_GRAINS.trans hf)]
  simp [State.applyNum, objBase_TICK_GRAINS, objCopy_grid]

theorem State.writeNum_CLOSE_GUARD_NS (hw : s.mayWrite id (Obj.CLOSE_GUARD_NS p) v = true) (h5 : 500 ≤ v) (hv : v ≤ 50000)
    (hg : v + 20000 ≤ s.rg (Obj.TICK_GRAINS p) * 10000) (hf : s.gridHeld p = false) :
    (s.writeNum id (Obj.CLOSE_GUARD_NS p) v f).1 = s.setRg (Obj.CLOSE_GUARD_NS p) v := by
  have hr : s.valueRights id (Obj.CLOSE_GUARD_NS p) v = false := by simp [State.valueRights, objBase_CLOSE_GUARD_NS]
  have ht : s.textRange (Obj.CLOSE_GUARD_NS p) v = false := by simp [State.textRange, objBase_CLOSE_GUARD_NS, objCopy_grid, hg]
  have hn : s.numberBad ⟨0x3004, 12, 0x100, 0x03, 0x03, .u32, .rws, 0x7D0, false, 500, some 50000⟩ (Obj.CLOSE_GUARD_NS p) v = stOk :=
    State.numberBad_u32 rfl (hi := 50000) (by decide) h5 rfl hv ht (reservedBits_grid p).2
  rw [State.writeNum_ok (objRow_CLOSE_GUARD_NS p) (by decide) hw hr hn (State.stateBad_CLOSE_GUARD_NS.trans hf)]
  simp [State.applyNum, objBase_CLOSE_GUARD_NS, State.keepNum, objRow_CLOSE_GUARD_NS]

theorem State.gridHeld_eq_false (h : s.rg (Obj.PART_STATE p) ≠ psActive ∧ s.rg (Obj.PART_STATE p) ≠ psHalted) : s.gridHeld p = false := by
  simp [State.gridHeld, h]

theorem State.gridHeld_eq_true (h : ¬ (s.rg (Obj.PART_STATE p) ≠ psActive ∧ s.rg (Obj.PART_STATE p) ≠ psHalted)) : s.gridHeld p = true := by
  unfold State.gridHeld
  rw [Bool.or_eq_true, beq_iff_eq, beq_iff_eq]
  exact or_iff_not_imp_left.2 fun ha => not_not.1 fun hh => h ⟨ha, hh⟩

/-- A running generator stops at its next edge once its grid is written. -/
theorem State.gen_writeTick (s : State) (p : PartId) (key v : Nat) :
    ((s.writeTick p key v).pt p).gen.writeGrain = (if (s.pt p).gen.on then s.grain else (s.pt p).gen.writeGrain) ∧
    ((s.pt p).gen.on = true → (s.pt p).gen.begun = true → ((s.writeTick p key v).pt p).gen.stopping = true) := by
  unfold State.writeTick
  rw [State.pt_modPt_fin]
  have hp : (s.setRg key v).pt p = s.pt p := rfl
  rw [hp]
  cases hon : (s.pt p).gen.on
  · simp
  · simp +contextual

theorem gives_tickGrainsWrite (hw : s.mayWrite id (Obj.TICK_GRAINS p) v = true) (h5 : 5 ≤ v) (hv : v ≤ 100000)
    (hg : s.rg (Obj.CLOSE_GUARD_NS p) + 20000 ≤ v * 10000) (hf : s.gridHeld p = false) :
    Gives (.tickGrainsWrite id p false v) s (fun t => t.rg (Obj.TICK_GRAINS p) = v ∧ (t.pt p).gen.writeGrain =
      (if (s.pt p).gen.on then s.grain else (s.pt p).gen.writeGrain) ∧
      ((s.pt p).gen.on = true → (s.pt p).gen.begun = true → (t.pt p).gen.stopping = true)) := by
  refine gives_of_takes (by unfold exec execTickGrainsWrite State.command; rfl) hw ?_
  rw [if_neg (by decide), State.writeNum_TICK_GRAINS hw h5 hv hg hf]
  refine ⟨?_, State.gen_writeTick s p _ v⟩
  have hb : ∀ p : PartId, objBytes (Obj.TICK_GRAINS p) = some 4 := by decide +kernel
  exact (State.rg_setRg_bytes (hb p) (by decide) s v).trans (Nat.mod_eq_of_lt (by omega))

theorem gives_tickGrainsWrite_held (hw : s.mayWrite id (Obj.TICK_GRAINS p) v = true) (hf : s.gridHeld p = true) :
    Gives (.tickGrainsWrite id p false v) s (fun t => t = s) :=
  gives_of_takes (by unfold exec execTickGrainsWrite State.command; rfl) hw
    (State.writeNum_stateBad (objRow_TICK_GRAINS p) (State.stateBad_TICK_GRAINS.trans hf))

theorem gives_closeGuardNsWrite (hw : s.mayWrite id (Obj.CLOSE_GUARD_NS p) v = true) (h5 : 500 ≤ v) (hv : v ≤ 50000)
    (hg : v + 20000 ≤ s.rg (Obj.TICK_GRAINS p) * 10000) (hf : s.gridHeld p = false) :
    Gives (.closeGuardNsWrite id p v) s (fun t => t.rg (Obj.CLOSE_GUARD_NS p) = v ∧ t.parts = s.parts) := by
  refine gives_of_takes (by unfold exec execCloseGuardNsWrite State.command; rfl) hw ?_
  rw [State.writeNum_CLOSE_GUARD_NS hw h5 hv hg hf]
  have hb : ∀ p : PartId, objBytes (Obj.CLOSE_GUARD_NS p) = some 4 := by decide +kernel
  exact ⟨(State.rg_setRg_bytes (hb p) (by decide) s v).trans (Nat.mod_eq_of_lt (by omega)), rfl⟩

theorem gives_closeGuardNsWrite_held (hw : s.mayWrite id (Obj.CLOSE_GUARD_NS p) v = true) (hf : s.gridHeld p = true) :
    Gives (.closeGuardNsWrite id p v) s (fun t => t = s) :=
  gives_of_takes (by unfold exec execCloseGuardNsWrite State.command; rfl) hw
    (State.writeNum_stateBad (objRow_CLOSE_GUARD_NS p) (State.stateBad_CLOSE_GUARD_NS.trans hf))

/-! ### The factory reset -/

theorem State.stateBad_FACTORY_RESET : s.stateBad Obj.FACTORY_RESET v = !s.allFree := by
  have hi : indexPart (Obj.FACTORY_RESET / 256) = none := by decide
  unfold State.stateBad
  simp [objRow_FACTORY_RESET, objBase_FACTORY_RESET, hi]

theorem State.allFree_iff (s : State) : s.allFree = true ↔ ∀ q : PartId, (s.pt q).built = none := by
  unfold State.allFree
  rw [List.all_eq_true]
  constructor
  · intro h q
    simpa using h q (List.mem_range.2 q.isLt)
  · intro h q hq
    simpa using h ⟨q, List.mem_range.1 hq⟩

theorem State.writeNum_FACTORY_RESET (hw : s.mayWrite id Obj.FACTORY_RESET 0xA5A5 = true) (hf : s.allFree = true) :
    (s.writeNum id Obj.FACTORY_RESET 0xA5A5 f).1 = s.factoryReset := by
  have hr : s.valueRights id Obj.FACTORY_RESET 0xA5A5 = false := by simp [State.valueRights, objBase_FACTORY_RESET]
  have ht : s.textRange Obj.FACTORY_RESET 0xA5A5 = false := by simp [State.textRange, objBase_FACTORY_RESET]
  have hres : reservedBits Obj.FACTORY_RESET = 0 := by decide +kernel
  have hn : s.numberBad ⟨0x2000, 1, 0x0, 0x01, 0x01, .u32, .wo, 0x0, false, 0, none⟩ Obj.FACTORY_RESET 0xA5A5 = stOk := by
    unfold State.numberBad
    simp [ht, hres, ObjType.size]
  rw [State.writeNum_ok objRow_FACTORY_RESET (by decide) hw hr hn (State.stateBad_FACTORY_RESET.trans (by simp [hf]))]
  simp [State.applyNum, objBase_FACTORY_RESET]

/-- The registers that a factory reset leaves at their defaults, past the fold that brings every object back. -/
def ResetKey (k : Nat) : Prop := k = Obj.TABLES_SET ∨ k = Obj.SESSION_IDLE_S

theorem ResetKey.ne {k i a : Nat} (h : ResetKey k) (ha : a < 256) (hi : i ≠ 0x1100 ∧ i ≠ 0x5000) : k ≠ okey i a := by
  rcases h with rfl | rfl
  · exact okey_ne_of_index (Ne.symm hi.2) (by decide) ha
  · exact okey_ne_of_index (Ne.symm hi.1) (by decide) ha

/-- An object above the tables' bases, whatever its subindex. -/
theorem ResetKey.ne_above {k i : Nat} (h : ResetKey k) (hi : 0x5000 < i) (a : Nat) : k ≠ okey i a := by
  rcases h with rfl | rfl <;> simp only [Obj.TABLES_SET, Obj.SESSION_IDLE_S, okey] <;> omega

theorem RgKept.foldl_mem {K : Nat → Prop} {α : Type} {g : State → α → State} {l : List α} {s : State}
    (hg : ∀ u, ∀ y ∈ l, RgKept K u (g u y)) : RgKept K s (l.foldl g s) := by
  induction l generalizing s with
  | nil => exact .refl K s
  | cons y l ih => exact (hg s y List.mem_cons_self).trans (ih fun u z hz => hg u z (List.mem_cons_of_mem _ hz))

theorem resetKept_sleepDevices (s : State) (m : Nat) : RgKept ResetKey s (s.sleepDevices m) := by
  refine .foldl_mem fun u d hd => ?_
  have hd : d < 48 := List.mem_range.1 (List.mem_filter.1 hd).1
  exact .ite (.refl _ _) (.setRg (.refl _ _) (fun k h => h.ne (by omega) (by decide)) _)

theorem ResetKey.ne_linkKey {k : Nat} (h : ResetKey k) {port : Nat} (hp : port ≤ 64) : k ≠ linkKey port := by
  unfold linkKey
  split
  · exact h.ne (by decide) (by omega)
  · exact h.ne (by decide) (by decide)

theorem resetKept_adminWritten (s : State) {port : Nat} (hp : port ≤ 64) : RgKept ResetKey s (s.adminWritten port 1) := by
  unfold State.adminWritten
  rw [if_neg (by decide)]
  exact .ite (.setRg (.refl _ _) (fun k h => h.ne_linkKey hp) _) (.refl _ _)

theorem resetKept_negotiateLpi (s : State) {port : Nat} (hp : port ≤ 64) : RgKept ResetKey s (s.negotiateLpi port) := by
  unfold State.negotiateLpi
  extract_lets peer ext ok
  exact .setRg (.refl _ _) (fun k h => h.ne (by decide) (by omega)) _

theorem resetKept_updateCoFed (s : State) (q : Nat) : RgKept ResetKey s (s.updateCoFed q) :=
  .setRg (.refl _ _) (fun k h => h.ne_above (by omega) _) _

/-- An object that no restart of the milliner writes: neither the sessions open, nor what a LOAD, a firmware command or a recovery
that it ends leaves. -/
structure NotRestarted (k : Nat) : Prop where
  sessions : k ≠ Obj.SESSIONS_OPEN
  firmware : k ≠ Obj.FW_RESULT
  load : ∀ j, k ≠ Obj.SLOT_STATE j ∧ k ≠ Obj.SLOT_RESULT_9045 j
  recovery : ∀ q < 12, k ≠ Obj.RECOVERY_STATE q

theorem ResetKey.notRestarted {k : Nat} (h : ResetKey k) : NotRestarted k := by
  refine ⟨?_, h.ne_above (by decide) _, fun j => ⟨h.ne_above (by decide) _, h.ne_above (by decide) _⟩, fun q _ => h.ne_above (by omega) _⟩
  rcases h with rfl | rfl <;> decide

theorem notRestarted_loadFail (s : State) (code : Nat) : RgKept NotRestarted s (s.loadFail code) := by
  unfold State.loadFail
  split
  · exact .refl _ _
  next l _ =>
    extract_lets s1
    have h1 : RgKept NotRestarted s s1 := .of_regs rfl
    have h2 := (h1.setRg (key := Obj.SLOT_STATE l.slot) (fun k h => (h.load _).1) 3).setRg
      (key := Obj.SLOT_RESULT_9045 l.slot) (fun k h => (h.load _).2) code
    exact fun k hk => (State.rg_notify ..).trans (h2 k hk)

theorem notRestarted_dropRecovery (s : State) {q : Nat} (hq : q < 12) : RgKept NotRestarted s (s.dropRecovery q) := by
  unfold State.dropRecovery
  exact .ite (.modPt (.setRg (.refl _ _) (fun k h => h.recovery q hq) _) _ _) (.refl _ _)

theorem notRestarted_restartMilliner (s : State) : RgKept NotRestarted s s.restartMilliner := by
  unfold State.restartMilliner
  extract_lets lost boot s1 s2 s3 s4 s5
  have h1 : RgKept NotRestarted s s1 := .of_regs rfl
  have h2 : RgKept NotRestarted s s2 := h1.setRg (fun k h => h.sessions) _
  have h3 : RgKept NotRestarted s s3 := h2.trans (.foldl _ fun u c => .changes (State.changes_abandonCheck ..))
  have h4 : RgKept NotRestarted s s4 := h3.trans (notRestarted_loadFail s3 _)
  have h5 : RgKept NotRestarted s s5 := by
    unfold s5
    clear_value s4
    split
    · exact .trans (.trans h4 (.of_regs rfl)) (.setRg (.refl _ _) (fun k h => h.firmware) _)
    · exact h4
  exact h5.trans (.foldl_mem fun u q hq => notRestarted_dropRecovery u (List.mem_range.1 hq))

theorem resetKept_restartMilliner (s : State) : RgKept ResetKey s s.restartMilliner :=
  fun k hk => notRestarted_restartMilliner s k hk.notRestarted

theorem State.sessions_loadFail_nil (h : s.sessions = []) (code : Nat) : (s.loadFail code).sessions = [] := by
  unfold State.loadFail
  split
  · exact h
  · simp [State.notify, State.setWin, State.modSession, State.setRg, h, notifyAll]

theorem State.sessions_restartMilliner (s : State) : s.restartMilliner.sessions = [] := by
  unfold State.restartMilliner
  extract_lets lost boot s1 s2 s3 s4 s5
  have h2 : s2.sessions = [] := rfl
  have h3 : s3.sessions = [] := by
    unfold s3
    clear_value s2
    have hF : Changes [.parts, .part .jobs, .mem] { s2 with checks := [] }
        (s2.checks.foldl (fun t c => t.abandonCheck c.1 c.2.1) { s2 with checks := [] }) :=
      .foldl .refl fun u c => State.changes_abandonCheck u c.1 c.2.1
    exact Eq.trans (hF.kept .sessions) h2
  have h4 : s4.sessions = [] := State.sessions_loadFail_nil h3 _
  have h5 : s5.sessions = [] := by
    unfold s5
    clear_value s4
    split
    · exact h4
    · exact h4
  exact Eq.trans ((Changes.foldl (F := [.regs, .regsButJenjo, .regsButStreams, .parts]) .refl
    fun u q => State.changes_dropRecovery u q).kept .sessions) h5

/-- An object that a factory reset brings back: RWP in its table. -/
def rwpObj (k : Nat) : Bool := match objRow k with
  | some r => r.acc == .rwp
  | none => false

theorem SMap.getD_filter_out {α : Type} (d : α) (m : SMap α) (g : Nat → Bool) {k : Nat} (h : g k = false) :
    SMap.getD d (m.filter fun kv => g kv.1) k = d :=
  congrArg (·.getD d) (SMap.get?_filter_out m g h)

theorem State.factoryDefaults_spec (s : State) : s.factoryDefaults.dom Obj.ADMIN_KEYS = [] ∧ s.factoryDefaults.filters = [] ∧
    s.factoryDefaults.rg Obj.TABLES_SET = 0 ∧ s.factoryDefaults.rg Obj.SESSION_IDLE_S = 300 := by
  unfold State.factoryDefaults
  extract_lets rwp off host tables s1 s2 s3 s4 s5 s6
  have hd2 : s2.dom Obj.ADMIN_KEYS = [] := SMap.getD_filter_out _ _ (fun k => !rwp k) (by decide +kernel)
  have hf2 : s2.filters = [] := rfl
  have hr2 : s2.rg Obj.SESSION_IDLE_S = 300 := by
    have hd : (objDefault Obj.SESSION_IDLE_S).toNat = 300 := by decide +kernel
    exact (congrArg BitVec.toNat (SMap.getD_filter_out _ s1.regs (fun k => !rwp k) (by decide +kernel))).trans hd
  have hoff : ∀ q ∈ off, q ≤ 64 := fun q hq => le_of_lt (List.mem_range.1 (List.mem_filter.1 hq).1)
  clear_value s2 s1 off rwp tables host
  have h0 : (s2.setRg Obj.TABLES_SET 0).rg Obj.TABLES_SET = 0 ∧ (s2.setRg Obj.TABLES_SET 0).rg Obj.SESSION_IDLE_S = 300 :=
    ⟨State.rg_setRg_small (by decide +kernel) (by decide) s2, (State.rg_setRg_ne s2 0 (by decide)).trans hr2⟩
  have h3 : RgKept ResetKey (s2.setRg Obj.TABLES_SET 0) s3 := resetKept_sleepDevices _ _
  have h4 : RgKept ResetKey s3 s4 := .foldl_mem fun u q hq => resetKept_adminWritten u (hoff q hq)
  have h5 : RgKept ResetKey s4 s5 := .ite (resetKept_adminWritten s4 (le_refl 64)) (.refl _ _)
  have h6 : RgKept ResetKey s5 s6 := .foldl_mem fun u q hq => resetKept_negotiateLpi u (by have := List.mem_range.1 hq; omega)
  have h7 : RgKept ResetKey s6 ((List.range 12).foldl State.updateCoFed s6) := .foldl _ fun u q => resetKept_updateCoFed u q
  have hr := h3.trans (h4.trans (h5.trans (h6.trans h7)))
  have hF : Changes [.parts, .part .slice, .regs, .regsButJenjo, .regsButStreams, .sessions, .out, .txq, .streams, .txFree, .open_] s2
      ((List.range 12).foldl State.updateCoFed s6) := by
    refine .within fun F hF => ?_
    have h3 : Changes F s2 s3 := .then (.by (State.changes_setRg ..)) (State.changes_sleepDevices ..)
    have h4 : Changes F s2 s4 := .foldl h3 (fun _ _ => .by (State.changes_adminWritten ..))
    have h5 : Changes F s2 s5 := .ite (h4.then (State.changes_adminWritten ..)) h4
    have h6 : Changes F s2 s6 := .foldl h5 (fun _ _ => .by (State.changes_negotiateLpi ..))
    exact .foldl h6 (fun _ _ => .by (State.changes_updateCoFed ..))
  exact ⟨(congrArg (SMap.getD [] · Obj.ADMIN_KEYS) (hF.kept .doms)).trans hd2, Eq.trans (hF.kept .filters) hf2,
    (hr _ (.inl rfl)).trans h0.1, (hr _ (.inr rfl)).trans h0.2⟩

theorem gives_factoryReset (hm : s.boot.milliner = true) (h : s.session id = some x) (ha : x.role = roleAdmin)
    (hf : ∀ q : PartId, (s.pt q).built = none) :
    Gives (.factoryReset id 0xA5A5) s (fun t => t.sessions = [] ∧ t.dom Obj.ADMIN_KEYS = [] ∧
      t.rg Obj.TABLES_SET = 0 ∧ t.rg Obj.SESSION_IDLE_S = 300 ∧ t.filters = []) := by
  have hw := State.mayWrite_admin hm h ha Obj.FACTORY_RESET 0xA5A5
  refine gives_of_takes (by unfold exec execFactoryReset State.command; rfl) hw ?_
  rw [State.writeNum_FACTORY_RESET hw (s.allFree_iff.2 hf)]
  obtain ⟨hd, hfi, ht, hi⟩ := s.factoryDefaults_spec
  have hr := State.changes_restartMilliner s.factoryDefaults
  have hk := resetKept_restartMilliner s.factoryDefaults
  unfold State.factoryReset
  exact ⟨State.sessions_restartMilliner _, (congrArg (SMap.getD [] · Obj.ADMIN_KEYS) (hr.kept .doms)).trans hd,
    (hk _ (.inl rfl)).trans ht, (hk _ (.inr rfl)).trans hi, Eq.trans (hr.kept .filters) hfi⟩

theorem gives_factoryReset_held (hm : s.boot.milliner = true) (h : s.session id = some x) (ha : x.role = roleAdmin)
    (hf : ∃ q : PartId, (s.pt q).built ≠ none) : Gives (.factoryReset id 0xA5A5) s (fun t => t = s) := by
  have hw := State.mayWrite_admin hm h ha Obj.FACTORY_RESET 0xA5A5
  have hall : s.allFree = false := by
    rw [Bool.eq_false_iff]
    intro hh
    obtain ⟨q, hq⟩ := hf
    exact hq (s.allFree_iff.1 hh q)
  refine gives_of_takes (by unfold exec execFactoryReset State.command; rfl) hw ?_
  exact State.writeNum_stateBad objRow_FACTORY_RESET (State.stateBad_FACTORY_RESET.trans (by simp [hall]))

end

/-- Settles O43, object by object: what the dictionary's row lets through, and what the object then does. -/
theorem registerWrites : Obligations.RegisterWrites := by
  unfold Obligations.RegisterWrites
  intro id key v p facts x s free
  refine ⟨gives_registerWrite_kept, gives_write_EVENT_MASK, gives_write_SESSION_IDLE_S, fun hw h5 hv hg => ⟨fun hf => ?_, fun hf => ?_⟩,
    fun hw h5 hv hg => ⟨fun hf => ?_, fun hf => ?_⟩, fun hm h ha => ⟨gives_factoryReset hm h ha, gives_factoryReset_held hm h ha⟩⟩
  · exact gives_tickGrainsWrite hw h5 hv hg (State.gridHeld_eq_false hf)
  · exact gives_tickGrainsWrite_held hw (State.gridHeld_eq_true hf)
  · exact gives_closeGuardNsWrite hw h5 hv hg (State.gridHeld_eq_false hf)
  · exact gives_closeGuardNsWrite_held hw (State.gridHeld_eq_true hf)

end Sys2Proof.Machine

/-! ## Stores in device memory -/

namespace Sys2Proof.Machine
open Sys2Proof

-- Short theorems, many of them: one after another, so that the threads' stacks stay within the check's memory.
set_option Elab.async false

section
variable {s : State} {a b : Nat} {bs : List (Byte × Bool)}

/-- A store's bytes with their places, in order. -/
def placed (bs : List (Byte × Bool)) : List (Nat × (Byte × Bool)) := (List.range bs.length).zip bs

theorem nodup_placed (bs : List (Byte × Bool)) : ((placed bs).map Prod.fst).Nodup := by
  unfold placed
  rw [List.map_fst_zip (by simp)]
  exact List.nodup_range

theorem mem_placed {i : Nat} (h : i < bs.length) : (i, bs[i]) ∈ placed bs :=
  List.mem_iff_getElem.2 ⟨i, by simpa [placed] using h, by simp [placed]⟩

theorem lt_of_mem_placed {ib : Nat × (Byte × Bool)} (h : ib ∈ placed bs) : ib.1 < bs.length := by
  have := (List.of_mem_zip h).1
  simpa using this

/-- One byte of a store: it lands where the device takes it. -/
def storeByte (w : Nat → Bool) (a : Nat) (m : List Host.Cell) (ib : Nat × (Byte × Bool)) : List Host.Cell :=
  if w (a + ib.1) then SMap.put 0 m (a + ib.1) ib.2.1 else m

theorem getD_storeByte_ne (w : Nat → Bool) (m : List Host.Cell) {ib : Nat × (Byte × Bool)} (h : a + ib.1 ≠ b) :
    SMap.getD 0 (storeByte w a m ib) b = SMap.getD 0 m b := by
  unfold storeByte
  split
  · exact SMap.getD_put_ne 0 m _ (Ne.symm h)
  · rfl

theorem getD_foldl_storeByte_out (w : Nat → Bool) {l : List (Nat × (Byte × Bool))} (m : List Host.Cell)
    (h : ∀ ib ∈ l, a + ib.1 ≠ b) : SMap.getD 0 (l.foldl (storeByte w a) m) b = SMap.getD 0 m b := by
  induction l generalizing m with
  | nil => rfl
  | cons ib l ih =>
    exact (ih _ fun x hx => h x (List.mem_cons_of_mem _ hx)).trans (getD_storeByte_ne w m (h ib List.mem_cons_self))

theorem getD_foldl_storeByte_in (w : Nat → Bool) {l : List (Nat × (Byte × Bool))} (hl : (l.map Prod.fst).Nodup) {ib : Nat × (Byte × Bool)}
    (hm : ib ∈ l) (hw : w (a + ib.1) = true) (m : List Host.Cell) : SMap.getD 0 (l.foldl (storeByte w a) m) (a + ib.1) = ib.2.1 := by
  induction l generalizing m with
  | nil => cases hm
  | cons x l ih =>
    rw [List.map_cons, List.nodup_cons] at hl
    rcases List.mem_cons.1 hm with h | h
    · subst h
      refine (getD_foldl_storeByte_out w (l := l) _ fun y hy he => hl.1 ?_).trans ?_
      · have : y.1 = ib.1 := by omega
        exact this ▸ List.mem_map_of_mem (f := Prod.fst) hy
      · unfold storeByte
        rw [if_pos hw]
        exact SMap.getD_put_self ..
    · exact ih hl.2 h _

/-- The marks of a store leave the bytes. -/
theorem State.mem_memWrite (s : State) (a : Nat) (bs : List (Byte × Bool)) :
    (s.memWrite a bs).mem = (placed bs).foldl (storeByte s.writable a) s.mem := by
  unfold State.memWrite
  extract_lets s1
  have hF : Changes [.regs, .regsButJenjo, .regsButStreams, .sessions, .out, .poisonLog, .cxlPoison] s1
      ((unitsOf a bs.length).foldl (fun t u =>
        let inUnit := ((List.range bs.length).zip bs).filter (fun ib => (a + ib.1) / 64 * 64 == u)
        t.unitWritten u (inUnit.length == 64) (inUnit.any (·.2.2))) s1) :=
    .foldl .refl fun u x => State.changes_unitWritten ..
  exact hF.kept .mem

theorem State.memByte_memWrite_out (s : State) (h : b < a ∨ a + bs.length ≤ b) : (s.memWrite a bs).memByte b = s.memByte b := by
  unfold State.memByte
  rw [State.mem_memWrite]
  refine getD_foldl_storeByte_out _ _ fun ib hib he => ?_
  have := lt_of_mem_placed hib
  omega

theorem State.memByte_memWrite_in (s : State) {i : Nat} (h : i < bs.length) (hw : s.writable (a + i) = true) :
    (s.memWrite a bs).memByte (a + i) = bs[i].1 := by
  unfold State.memByte
  rw [State.mem_memWrite]
  exact getD_foldl_storeByte_in s.writable (nodup_placed bs) (mem_placed h) hw s.mem

/-- The rest of a store, past the bytes: stops of devices, and poison that commits. -/
theorem State.mem_store (s : State) (a : Nat) (bs : List (Byte × Bool)) : (s.store a bs).mem = (s.memWrite a bs).mem := by
  unfold State.store
  extract_lets s1
  have h1 : s1.mem = (s.memWrite a bs).mem := by
    unfold s1
    split
    · exact (State.changes_failStop ..).kept .mem
    · rfl
  clear_value s1
  split
  · have hF : Changes _ s1 ((unitsOf a bs.length).foldl (fun t u => if t.poisonAt u then t.committedPoison u else t) s1) :=
      .foldl .refl fun u x => .ite (State.changes_committedPoison ..) .refl
    exact Eq.trans (hF.kept .mem) h1
  · exact h1

theorem State.memByte_store_out (s : State) (h : b < a ∨ a + bs.length ≤ b) : (s.store a bs).memByte b = s.memByte b :=
  (congrArg (SMap.getD 0 · b) (s.mem_store a bs)).trans (State.memByte_memWrite_out s h)

theorem State.memByte_store_in (s : State) {i : Nat} (h : i < bs.length) (hw : s.writable (a + i) = true) :
    (s.store a bs).memByte (a + i) = bs[i].1 :=
  (congrArg (SMap.getD 0 · (a + i)) (s.mem_store a bs)).trans (State.memByte_memWrite_in s h hw)

theorem State.memBytes_eq {l : List Byte} (h : ∀ i (hi : i < l.length), s.memByte (a + i) = l[i]) : s.memBytes a l.length = l := by
  refine List.ext_getElem (by simp [State.memBytes, SMap.range]) fun i hi hi' => ?_
  simp only [State.memBytes, SMap.range, List.getElem_map, List.getElem_range]
  exact h i hi'

theorem length_goodBytes (l : List Byte) : (goodBytes l).length = l.length := List.length_map ..

/-- Good bytes stored where the device takes them. -/
theorem State.memBytes_store (s : State) {l : List Byte} (hw : ∀ i, i < l.length → s.writable (a + i) = true) :
    (s.store a (goodBytes l)).memBytes a l.length = l :=
  State.memBytes_eq fun i hi =>
    (State.memByte_store_in s (by simpa [goodBytes] using hi) (hw i hi)).trans (by simp [goodBytes])

theorem State.sameMemoryOutside_store (s : State) (a : Nat) (bs : List (Byte × Bool)) : SameMemoryOutside a bs.length s (s.store a bs) :=
  fun _ h => State.memByte_store_out s h

/-! ### Good bytes -/

theorem region_gddr {u e : Nat} (h : s.region u = some (.gddr e)) : u / 2 ^ 32 < 48 := by
  unfold State.region at h
  split at h
  · omega
  · split at h
    · dsimp only at h
      split at h <;> cases h
    · split at h <;> cases h

/-- What a store without poison leaves: no device changes its state, and no partition is touched. -/
theorem rg_unitWritten_good (s : State) (u : Nat) (cov : Bool) (d : DeviceId) :
    (s.unitWritten u cov false).rg (Obj.DEV_STATE d) = s.rg (Obj.DEV_STATE d) := by
  unfold State.unitWritten
  split
  next e he =>
    have := region_gddr he
    rw [if_neg (by decide)]
    split
    · unfold State.clearPoison
      extract_lets e l
      split
      · exact State.rg_setRg_ne _ _ (okey_ne_of_index (by decide) (by omega) (by omega))
      · rfl
    · rfl
  · rw [if_neg (by decide)]
    split
    · rfl
    · rfl
  · rfl

theorem any_bad_of_good (hg : ∀ x ∈ bs, x.2 = false) (q : Nat × (Byte × Bool) → Bool) :
    (((List.range bs.length).zip bs).filter q).any (·.2.2) = false := by
  rw [List.any_eq_false]
  intro ib hib
  simpa using hg _ (List.of_mem_zip (List.mem_filter.1 hib).1).2

theorem rg_memWrite_good (s : State) (a : Nat) (hg : ∀ x ∈ bs, x.2 = false) (d : DeviceId) :
    (s.memWrite a bs).rg (Obj.DEV_STATE d) = s.rg (Obj.DEV_STATE d) := by
  have kept : ∀ (l : List Nat) (u : State), (l.foldl (fun t u =>
      let inUnit := ((List.range bs.length).zip bs).filter (fun ib => (a + ib.1) / 64 * 64 == u)
      t.unitWritten u (inUnit.length == 64) (inUnit.any (·.2.2))) u).rg (Obj.DEV_STATE d) = u.rg (Obj.DEV_STATE d) := by
    intro l
    induction l with
    | nil => exact fun _ => rfl
    | cons x l ih =>
      intro u
      refine (ih _).trans ?_
      dsimp only
      rw [any_bad_of_good hg]
      exact rg_unitWritten_good u _ _ d
  exact kept _ _

/-- Good bytes stored touch no partition. -/
theorem State.parts_store_good (s : State) (a : Nat) (hg : ∀ x ∈ bs, x.2 = false) : (s.store a bs).parts = s.parts := by
  have hany : bs.any (·.2) = false := by
    rw [List.any_eq_false]
    intro x hx
    simp [hg x hx]
  have hm : (s.memWrite a bs).parts = s.parts := (State.changes_memWrite s a bs).kept .parts
  unfold State.store
  rw [hany, if_neg (by decide)]
  split
  next h =>
    have hd : a / 2 ^ 32 < 48 := by
      unfold isGddr at h
      have := of_decide_eq_true h
      omega
    have hr : (s.memWrite a bs).rg (Obj.DEV_STATE (a / 2 ^ 32)) = s.rg (Obj.DEV_STATE (a / 2 ^ 32)) := rg_memWrite_good s a hg ⟨_, hd⟩
    unfold State.failStop
    rw [hr, if_neg (by simp)]
    exact hm
  · exact hm

theorem good_goodBytes (l : List Byte) : ∀ x ∈ goodBytes l, x.2 = false := by
  intro x hx
  obtain ⟨y, -, rfl⟩ := List.mem_map.1 hx
  rfl

end

end Sys2Proof.Machine

/-! ## Coefficient rows, publisher keys and attestation (R506, R507, R543) -/

namespace Sys2Proof.Machine
open Sys2Proof

-- Short theorems, many of them: one after another, so that the threads' stacks stay within the check's memory.
set_option Elab.async false

section
variable {s : State} {id : Nat} {x : Session} {data : List Byte}

/-! ### Rows of the Coefficient Table -/

/-- A disabled row takes what is written, enabled only where no code refuses it. -/
def coefWritten (e : CoefRow) : CoefRow :=
  if Cf.enable.get e = 0 then Cf.refusal.set e 0 else Cf.enable.set (Cf.refusal.set e (coefCode e)) (if coefCode e = 0 then 1 else 0)

theorem State.writeCoef_disabled (h : s.session id = some x) (hl : data.length = 64)
    (ho : x.role = roleAdmin ∨ Cf.owner.get (BitVec.ofNat 512 (leNat data) : CoefRow) = x.part) (ht : s.tableSet 5 = true)
    (hold : Cf.enable.get (s.coefRow (s.win id Obj.WINDOW_ROW)) = 0) :
    (s.writeCoef id data).1 = s.store (s.coefAddr (s.win id Obj.WINDOW_ROW))
      (goodBytes (leBytes 64 (coefWritten (BitVec.ofNat 512 (leNat data))).toNat)) := by
  unfold State.writeCoef coefWritten
  simp only [h, hl, ht, hold, ne_eq, not_true_eq_false, if_false, Bool.not_true, Bool.false_eq_true, if_true]
  have hown : (x.role == roleAdmin || Cf.owner.get (BitVec.ofNat 512 (leNat data) : CoefRow) == x.part) = true := by simpa using ho
  rw [hown]
  simp only [Bool.not_true, Bool.false_eq_true, if_false]
  split_ifs <;> rfl

theorem coefWritten_eq (e : CoefRow) :
    (if Cf.enable.get e = 0 then Cf.refusal.set e 0
      else Cf.enable.set (Cf.refusal.set e (if Cf.enable.get e = 0 then 0 else coefCode e))
        (if (if Cf.enable.get e = 0 then 0 else coefCode e) = 0 then 1 else 0)) = coefWritten e := by
  unfold coefWritten
  split
  · rfl
  · rfl

theorem gives_windowDataWrite (hw : s.mayWrite id Obj.WINDOW_DATA 0 = true) (h : s.session id = some x) (hl : data.length = 64)
    (ho : x.role = roleAdmin ∨ Cf.owner.get (BitVec.ofNat 512 (leNat data) : CoefRow) = x.part) (ht : s.tableSet 5 = true)
    (hold : Cf.enable.get (s.coefRow (s.win id Obj.WINDOW_ROW)) = 0) :
    Gives (.windowDataWrite id data) s (fun t => SameMemoryOutside (s.coefAddr (s.win id Obj.WINDOW_ROW)) 64 s t ∧ t.parts = s.parts ∧
      ((∀ j, j < 64 → s.writable (s.coefAddr (s.win id Obj.WINDOW_ROW) + j) = true) →
        t.memBytes (s.coefAddr (s.win id Obj.WINDOW_ROW)) 64 =
          leBytes 64 (coefWritten (BitVec.ofNat 512 (leNat data))).toNat)) := by
  refine gives_of_takes (by unfold exec execWindowDataWrite State.command; rfl) hw ?_
  rw [State.writeCoef_disabled h hl ho ht hold]
  generalize s.coefAddr (s.win id Obj.WINDOW_ROW) = a
  have hlen : ∀ v : Nat, (leBytes 64 v).length = 64 := length_leBytes 64
  generalize (coefWritten (BitVec.ofNat 512 (leNat data))).toNat = v
  refine ⟨?_, State.parts_store_good s a (good_goodBytes _), fun hwr => ?_⟩
  · have := State.sameMemoryOutside_store s a (goodBytes (leBytes 64 v))
    rwa [length_goodBytes, hlen] at this
  · have := State.memBytes_store s (a := a) (l := leBytes 64 v) fun i hi => hwr i (hlen v ▸ hi)
    rwa [hlen] at this

/-! ### Publisher keys -/

theorem objBytes_SLOT_STATE (k : Fin 16) : objBytes (Obj.SLOT_STATE k) ≠ some 0 := by
  revert k
  decide +kernel

/-- Images revoked one after another. -/
theorem State.rg_revoke (l : List Nat) (s : State) {k : Nat} (hk : k < 16) :
    (l.foldl (fun t j => t.setRg (Obj.SLOT_STATE j) 5) s).rg (Obj.SLOT_STATE k) = if k ∈ l then 5 else s.rg (Obj.SLOT_STATE k) := by
  induction l generalizing s with
  | nil => simp
  | cons j l ih =>
    rw [List.foldl_cons, ih]
    by_cases hj : k = j
    · subst hj
      have : (s.setRg (Obj.SLOT_STATE k) 5).rg (Obj.SLOT_STATE k) = 5 := State.rg_setRg_small (objBytes_SLOT_STATE ⟨k, hk⟩) (by decide) s
      simp [this]
    · have : (s.setRg (Obj.SLOT_STATE j) 5).rg (Obj.SLOT_STATE k) = s.rg (Obj.SLOT_STATE k) :=
        State.rg_setRg_ne s _ (by simp only [Obj.SLOT_STATE, okey]; omega)
      simp [hj, this]

theorem State.rg_revoke_ne (l : List Nat) (s : State) {k : Nat} (hk : ∀ j, k ≠ Obj.SLOT_STATE j) :
    (l.foldl (fun t j => t.setRg (Obj.SLOT_STATE j) 5) s).rg k = s.rg k := by
  induction l generalizing s with
  | nil => rfl
  | cons j l ih => exact (ih _).trans (State.rg_setRg_ne s _ (hk j))

theorem State.doms_revoke (l : List Nat) (s : State) : (l.foldl (fun t j => t.setRg (Obj.SLOT_STATE j) 5) s).doms = s.doms := by
  induction l generalizing s with
  | nil => rfl
  | cons j l ih => exact ih _

theorem KEYS_RESULT_ne_SLOT_STATE (j : Nat) : Obj.KEYS_RESULT ≠ Obj.SLOT_STATE j := by
  simp only [Obj.KEYS_RESULT, Obj.SLOT_STATE, okey]
  omega

theorem State.writePublisherKeys_bad (h : data.length % 64 ≠ 0 ∨ 16 < (keyList data).length ∨
    (keyList data).eraseDups.length ≠ (keyList data).length) : (s.writePublisherKeys data).1 = s.setRg Obj.KEYS_RESULT 0x8D := by
  have hb : (data.length % 64 ≠ 0 || (keyList data).length > 16 || (keyList data).eraseDups.length ≠ (keyList data).length) = true := by
    simpa [or_assoc] using h
  unfold State.writePublisherKeys
  dsimp only
  rw [if_pos hb]

/-- The keys that leave the list. -/
def State.goneKeys (s : State) (data : List Byte) : List (List Byte) :=
  (keyList (s.dom Obj.PUBLISHER_KEYS)).filter (fun k => !(keyList data).contains k)

theorem State.writePublisherKeys_ok (hl : data.length % 64 = 0) (hn : (keyList data).length ≤ 16)
    (hd : (keyList data).eraseDups.length = (keyList data).length) :
    (s.writePublisherKeys data).1.rg Obj.KEYS_RESULT = 0 ∧ (s.writePublisherKeys data).1.dom Obj.PUBLISHER_KEYS = data ∧
    ∀ k, k < 16 → (s.writePublisherKeys data).1.rg (Obj.SLOT_STATE k) =
      if s.rg (Obj.SLOT_STATE k) = 2 ∧ (s.goneKeys data).contains (s.refSlot k).signer = true then 5 else s.rg (Obj.SLOT_STATE k) := by
  have hb : (data.length % 64 ≠ 0 || (keyList data).length > 16 || (keyList data).eraseDups.length ≠ (keyList data).length) = false := by
    simp [hl, hd, hn]
  unfold State.writePublisherKeys
  extract_lets ks gone s1 hit s2
  rw [if_neg (by rw [hb]; decide)]
  have hg : gone = s.goneKeys data := rfl
  have hr1 : s1.rg Obj.KEYS_RESULT = 0 := State.rg_setRg_small (by decide +kernel) (by decide) _
  have hd1 : s1.dom Obj.PUBLISHER_KEYS = data := SMap.getD_put_self ..
  have hs1 : ∀ k, s1.rg (Obj.SLOT_STATE k) = s.rg (Obj.SLOT_STATE k) := fun k =>
    State.rg_setRg_ne _ _ (Ne.symm (KEYS_RESULT_ne_SLOT_STATE k))
  have hf1 : ∀ k, s1.refSlot k = s.refSlot k := fun _ => rfl
  have hr2 : s2.rg Obj.KEYS_RESULT = 0 := (State.rg_revoke_ne _ _ KEYS_RESULT_ne_SLOT_STATE).trans hr1
  have hd2 : s2.dom Obj.PUBLISHER_KEYS = data := (congrArg (SMap.getD [] · Obj.PUBLISHER_KEYS) (State.doms_revoke hit s1)).trans hd1
  have hs2 : ∀ k, k < 16 → s2.rg (Obj.SLOT_STATE k) = if k ∈ hit then 5 else s1.rg (Obj.SLOT_STATE k) := fun k hk =>
    State.rg_revoke hit s1 hk
  have hhit : ∀ k, k < 16 → (k ∈ hit ↔ s.rg (Obj.SLOT_STATE k) = 2 ∧ gone.contains (s.refSlot k).signer = true) := fun k hk => by
    simp only [hit, List.mem_filter, List.mem_range, hk, true_and, Bool.and_eq_true, beq_iff_eq, hs1, hf1]
  clear_value s2 hit s1
  rw [← hg]
  clear_value gone ks
  by_cases he : gone.isEmpty = true
  · rw [if_pos he]
    refine ⟨hr1, hd1, fun k hk => (hs1 k).trans (if_neg ?_).symm⟩
    rw [List.isEmpty_iff.1 he]
    simp
  · rw [if_neg he]
    refine ⟨(State.rg_notify ..).trans hr2, hd2, fun k hk => (State.rg_notify ..).trans ?_⟩
    rw [hs2 k hk, hs1]
    exact if_congr (hhit k hk) rfl rfl

/-! ### Attestation -/

theorem State.attest_eq (s : State) (id : Nat) {nonce : List Byte} (h : nonce.length = 64) : ∃ l,
    (s.attest id nonce).1 = (({ s with draws := s.draws + 1 } : State).setWinDom id Obj.ATTEST_NONCE nonce).setWinDom id Obj.ATTEST_REPORT
      (leBytes 4 0x54414C42 ++ leBytes 2 1 ++ leBytes 2 s.attestEntries.length ++ nonce ++ l) := by
  unfold State.attest
  rw [if_neg (by simpa using h)]
  simp only [State.draw, List.append_assoc]
  exact ⟨_, rfl⟩

theorem gives_attestNonce (hw : s.mayWrite id Obj.ATTEST_NONCE 0 = true) (h : s.session id = some x) (hl : data.length = 64) :
    Gives (.attestNonce id data) s (fun t => t.winDom id Obj.ATTEST_NONCE = data ∧ t.draws = s.draws + 1 ∧
      ((t.winDom id Obj.ATTEST_REPORT).drop 8).take 64 = data) := by
  obtain ⟨l, hl'⟩ := s.attest_eq id hl
  refine gives_of_takes (by unfold exec execAttestNonce State.command; rfl) hw ?_
  rw [hl']
  have h0 : ({ s with draws := s.draws + 1 } : State).session id = some x := h
  have h1 := State.session_setWinDom h0 Obj.ATTEST_NONCE data
  refine ⟨?_, rfl, ?_⟩
  · rw [State.winDom_setWinDom_ne h1 _ (by decide)]
    exact State.winDom_setWinDom h0 _ _
  · rw [State.winDom_setWinDom h1]
    rw [List.append_assoc, List.drop_left' (by simp [length_leBytes])]
    exact List.take_left' hl

end

/-- Settles O44: what a disabled row, a key list and a nonce become. -/
theorem coefficientKeyAndNonceWrites : Obligations.CoefficientKeyAndNonceWrites := by
  unfold Obligations.CoefficientKeyAndNonceWrites
  intro id data x s h row a e ks goneKeys
  refine ⟨fun hw hl ho ht hold => ?_, fun hw => ⟨fun hb => ?_, fun hl hn hd => ?_⟩, fun hw hl => gives_attestNonce hw h hl⟩
  · intro code new
    have hnew : new = coefWritten e := coefWritten_eq e
    rw [hnew]
    exact gives_windowDataWrite hw h hl ho ht hold
  · refine gives_of_takes (by unfold exec execPublisherKeys State.command; rfl) hw ?_
    rw [State.writePublisherKeys_bad hb]
    exact ⟨State.rg_setRg_small (by decide +kernel) (by decide) s, rfl,
      fun k _ => State.rg_setRg_ne s _ (Ne.symm (KEYS_RESULT_ne_SLOT_STATE k))⟩
  · exact gives_of_takes (by unfold exec execPublisherKeys State.command; rfl) hw (State.writePublisherKeys_ok hl hn hd)

end Sys2Proof.Machine

/-! ## Records in memory, result codes, and the Residency Table's commands (R289 to R291, R464) -/

namespace Sys2Proof.Machine
open Sys2Proof

-- Short theorems, many of them: one after another, so that the threads' stacks stay within the check's memory.
set_option Elab.async false

/-! ### Records in memory -/

theorem leNat_leBytes (n v : Nat) : leNat (leBytes n v) = v % 256 ^ n := by
  induction n generalizing v with
  | zero => simp [leBytes, leNat, Nat.mod_one]
  | succ n ih =>
    have hb : (BitVec.ofNat 8 (v % 256)).toNat = v % 256 := by simp
    rw [leBytes, leNat, ih, hb, ← Nat.mod_mul, Nat.pow_succ, Nat.mul_comm 256]

theorem State.memByte_congr {s t : State} (h : t.mem = s.mem) (b : Nat) : t.memByte b = s.memByte b := congrArg (SMap.getD 0 · b) h

theorem State.memRec_congr {s t : State} (h : t.mem = s.mem) (a n : Nat) : t.memRec a n = s.memRec a n := by
  unfold State.memRec State.memLE State.memBytes
  rw [h]

/-- A record written where it is read. -/
theorem State.memRec_memPut (s : State) (a n : Nat) (x : BitVec (8 * n)) : (s.memPut a (leBytes n x.toNat)).memRec a n = x := by
  have hr : SMap.range 0 (SMap.putList 0 s.mem a (leBytes n x.toNat)) a n = leBytes n x.toNat := by
    have := SMap.range_putList 0 s.mem a (leBytes n x.toNat)
    rwa [length_leBytes] at this
  have h256 : (256 : Nat) ^ n = 2 ^ (8 * n) := Nat.pow_mul 2 8 n ▸ rfl
  unfold State.memRec State.memLE State.memBytes State.memPut
  rw [hr, leNat_leBytes, h256, Nat.mod_eq_of_lt x.isLt]
  exact BitVec.eq_of_toNat_eq (by rw [BitVec.toNat_ofNat]; exact Nat.mod_eq_of_lt x.isLt)

theorem State.sameMemoryOutside_memPut (s : State) (a n v : Nat) : SameMemoryOutside a n s (s.memPut a (leBytes n v)) := fun b hb =>
  State.memByte_memPut_out s a _ b (by rwa [length_leBytes])

theorem SameMemoryOutside.of_mem {a n : Nat} {s t : State} (h : t.mem = s.mem) : SameMemoryOutside a n s t :=
  fun b _ => State.memByte_congr h b

/-! ### Codes -/

theorem firstCode_lt {cs : List (Bool × Nat)} {m : Nat} (h0 : 0 < m) (h : ∀ c ∈ cs, c.2 < m) : firstCode cs < m := by
  unfold firstCode
  cases hf : cs.find? (·.1) with
  | none => exact h0
  | some c => exact h c (List.mem_of_find?_eq_some hf)

section
variable {s : State} {id j : Nat} {x : Session}

/-! ### RES_COMMAND and RES_LIST -/

/-- The code of an entry that a session offers. -/
def State.offerCode (s : State) (id j : Nat) : Nat :=
  s.resCheck j (s.resImage j) (s.imagePoison (s.resImageAddr j) 32) (s.actsFor id (Rs.partition.get (s.resImage j))) false

/-- The entry that an offer writes back. -/
def State.offerNew (s : State) (id j : Nat) : ResEntry :=
  Rs.enable.set (Rs.refusal.set (s.resImage j) (s.offerCode id j)) (if s.offerCode id j = 0 then 1 else 0)

/-- What an offer leaves in the tables, but for the session's result. -/
structure State.Offers (s : State) (id j : Nat) (t : State) : Prop where
  outside : SameMemoryOutside (s.resImageAddr j) 32 s t
  image : t.resImage j = s.offerNew id j
  entry : t.resE j = if s.offerCode id j = 0 then s.offerNew id j else s.resE j
  others : ∀ k, k ≠ j → t.resE k = s.resE k
  at_ : SMap.get? t.resAt j = if s.offerCode id j = 0 then some s.now else SMap.get? s.resAt j
  sessions : t.sessions = s.sessions

theorem State.offerCode_lt (s : State) (id j : Nat) : s.offerCode id j < 256 :=
  firstCode_lt (by decide) (by simp)

theorem State.resOffer_of_free (h : s.session id = some x) (hr : x.role ≠ roleUser) (ht : s.tableSet 0 = true) (hj : j < 524288)
    (he : s.resEnabled j = false) : s.Offers id j (s.resOffer id j).1 ∧ (s.resOffer id j).2 = s.offerCode id j := by
  have hoff : s.resOffer id j = if s.offerCode id j = 0
      then (({ s with resAt := SMap.ins s.resAt j s.now } : State).setRes j (s.offerNew id j) |>.resWriteBack j (s.offerNew id j), 0)
      else (s.resWriteBack j (s.offerNew id j), s.offerCode id j) := by
    unfold State.resOffer
    extract_lets user e code e1 e2
    have hu : user = false := by simp only [user, h, beq_eq_false_iff_ne, ne_eq, hr, not_false_eq_true]
    have hc : code = s.offerCode id j := rfl
    have h1 : e1 = Rs.refusal.set (s.resImage j) code := rfl
    have h2 : e2 = Rs.enable.set e1 1 := rfl
    clear_value e2 e1 code user
    rw [if_neg (by simp [ht, hj]), if_neg (by rw [hu]; decide), if_neg (by rw [he]; decide), h2, h1, hc]
    unfold State.offerNew
    split
    · rfl
    · rfl
  have himg : ∀ (u : State) (e : ResEntry), (u.resWriteBack j e).resImage j = e := fun u e => State.memRec_memPut u _ 32 e
  rw [hoff]
  split
  next h0 =>
    refine ⟨⟨State.sameMemoryOutside_memPut s _ 32 _, himg _ _, ?_, fun k hk => SMap.getD_put_ne _ _ _ hk, ?_, rfl⟩, h0.symm⟩
    · rw [if_pos h0]
      exact SMap.getD_put_self ..
    · rw [if_pos h0]
      exact SMap.get?_ins_self ..
  next h0 =>
    refine ⟨⟨State.sameMemoryOutside_memPut s _ 32 _, himg _ _, ?_, fun k _ => rfl, ?_, rfl⟩, rfl⟩
    · rw [if_neg h0]
      rfl
    · rw [if_neg h0]
      rfl

/-- An offer's tables once the session's results are set. -/
theorem State.Offers.setWin {t : State} (h : s.Offers id j t) (key v : Nat) :
    SameMemoryOutside (s.resImageAddr j) 32 s (t.setWin id key v) ∧ (t.setWin id key v).resImage j = s.offerNew id j ∧
    (t.setWin id key v).resE j = (if s.offerCode id j = 0 then s.offerNew id j else s.resE j) ∧
    (∀ k, k ≠ j → (t.setWin id key v).resE k = s.resE k) ∧
    SMap.get? (t.setWin id key v).resAt j = if s.offerCode id j = 0 then some s.now else SMap.get? s.resAt j :=
  ⟨h.outside, h.image, h.entry, h.others, h.at_⟩

theorem State.session_congr {t : State} (h : t.sessions = s.sessions) : t.session id = s.session id := by
  unfold State.session
  rw [h]

/-- An 8-bit result of a session's command, as it is read back. -/
theorem State.win_setWin_u8 (h : s.session id = some x) {key v : Nat} (hk : objBytes key = some 1) (hv : v < 256) :
    (s.setWin id key v).win id key = v :=
  State.win_setWin_bytes h hk (by decide) hv

theorem objBytes_RES_RESULT : objBytes Obj.RES_RESULT = some 1 := by decide +kernel

theorem gives_resEnable (hw : s.mayWrite id Obj.RES_COMMAND 1 = true) (h : s.session id = some x) (hr : x.role ≠ roleUser)
    (ht : s.tableSet 0 = true) (hj : s.win id Obj.RES_INDEX < 524288) (he : s.resEnabled (s.win id Obj.RES_INDEX) = false) :
    Gives (.resEnable id) s (fun t => t.win id Obj.RES_RESULT = s.offerCode id (s.win id Obj.RES_INDEX) ∧
      SameMemoryOutside (s.resImageAddr (s.win id Obj.RES_INDEX)) 32 s t ∧
      t.resImage (s.win id Obj.RES_INDEX) = s.offerNew id (s.win id Obj.RES_INDEX) ∧
      t.resE (s.win id Obj.RES_INDEX) =
        (if s.offerCode id (s.win id Obj.RES_INDEX) = 0 then s.offerNew id (s.win id Obj.RES_INDEX) else s.resE (s.win id Obj.RES_INDEX)) ∧
      (∀ k, k ≠ s.win id Obj.RES_INDEX → t.resE k = s.resE k) ∧
      SMap.get? t.resAt (s.win id Obj.RES_INDEX) =
        if s.offerCode id (s.win id Obj.RES_INDEX) = 0 then some s.now else SMap.get? s.resAt (s.win id Obj.RES_INDEX)) := by
  obtain ⟨hoff, hcode⟩ := State.resOffer_of_free h hr ht hj he
  refine gives_of_takes (by unfold exec execResEnable State.command; rfl) hw ?_
  unfold State.resEnable
  dsimp only
  rw [hcode]
  exact ⟨State.win_setWin_u8 ((State.session_congr hoff.sessions).trans h) objBytes_RES_RESULT (s.offerCode_lt id _), hoff.setWin _ _⟩

theorem gives_resEnable_enabled (hw : s.mayWrite id Obj.RES_COMMAND 1 = true) (h : s.session id = some x) (hr : x.role ≠ roleUser)
    (ht : s.tableSet 0 = true) (hj : s.win id Obj.RES_INDEX < 524288) (he : s.resEnabled (s.win id Obj.RES_INDEX) = true) :
    Gives (.resEnable id) s (fun t => t.win id Obj.RES_RESULT = 6 ∧ t.res = s.res ∧ t.mem = s.mem) := by
  have hoff : s.resOffer id (s.win id Obj.RES_INDEX) = (s, 0x06) := by
    unfold State.resOffer
    simp [h, hr, ht, hj, he]
  refine gives_of_takes (by unfold exec execResEnable State.command; rfl) hw ?_
  unfold State.resEnable
  dsimp only
  rw [hoff]
  exact ⟨State.win_setWin_u8 (v := 6) h objBytes_RES_RESULT (by decide), rfl, rfl⟩

theorem gives_resDisable (hw : s.mayWrite id Obj.RES_COMMAND 2 = true) (h : s.session id = some x) (ht : s.tableSet 0 = true)
    (he : s.resEnabled (s.win id Obj.RES_INDEX) = true) (ha : s.actsFor id (Rs.partition.get (s.resE (s.win id Obj.RES_INDEX))) = true)
    (hb : s.resHeldBack (s.win id Obj.RES_INDEX) = false) :
    Gives (.resDisable id) s (fun t => t.win id Obj.RES_RESULT = 0 ∧ t.resE (s.win id Obj.RES_INDEX) = 0 ∧
      (∀ k, k ≠ s.win id Obj.RES_INDEX → t.resE k = s.resE k) ∧ SameMemoryOutside (s.resImageAddr (s.win id Obj.RES_INDEX)) 32 s t) := by
  refine gives_of_takes (by unfold exec execResDisable State.command; rfl) hw ?_
  unfold State.resDisable
  simp only [ht, he, ha, hb, Bool.not_true, Bool.false_eq_true, if_false]
  exact ⟨State.win_setWin_u8 h objBytes_RES_RESULT (by decide), SMap.getD_put_self 0 s.res _ 0,
    fun k hk => SMap.getD_put_ne 0 s.res 0 hk, State.sameMemoryOutside_memPut s _ 32 _⟩

theorem gives_resDisable_held (hw : s.mayWrite id Obj.RES_COMMAND 2 = true) (ht : s.tableSet 0 = true)
    (he : s.resEnabled (s.win id Obj.RES_INDEX) = true) (ha : s.actsFor id (Rs.partition.get (s.resE (s.win id Obj.RES_INDEX))) = true)
    (hb : s.resHeldBack (s.win id Obj.RES_INDEX) = true) : Gives (.resDisable id) s (fun t => t = s) := by
  refine gives_of_takes (by unfold exec execResDisable State.command; rfl) hw ?_
  unfold State.resDisable
  simp [ht, he, ha, hb]

/-- A list of one index. -/
theorem chunks4_one {l : List Byte} (h : l.length = 4) : State.resList_.chunks4 l = [leNat l] := by
  match l, h with
  | [a, b, c, d], _ => rfl

theorem gives_resList (hw : s.mayWrite id Obj.RES_LIST 0 = true) (h : s.session id = some x) (hr : x.role ≠ roleUser)
    (ht : s.tableSet 0 = true) {l : List Byte} (hl : l.length = 4) (hj : leNat l < 524288) (he : s.resEnabled (leNat l) = false) :
    Gives (.resList id l) s (fun t => (t.win id Obj.RES_RESULT = s.offerCode id (leNat l) ∧
      SameMemoryOutside (s.resImageAddr (leNat l)) 32 s t ∧ t.resImage (leNat l) = s.offerNew id (leNat l) ∧
      t.resE (leNat l) = (if s.offerCode id (leNat l) = 0 then s.offerNew id (leNat l) else s.resE (leNat l)) ∧
      (∀ k, k ≠ leNat l → t.resE k = s.resE k) ∧
      SMap.get? t.resAt (leNat l) = if s.offerCode id (leNat l) = 0 then some s.now else SMap.get? s.resAt (leNat l)) ∧
      t.win id Obj.RES_LIST_REFUSED = if t.win id Obj.RES_RESULT = 0 then 0 else 1) := by
  obtain ⟨hoff, hcode⟩ := State.resOffer_of_free h hr ht hj he
  have hfit : resListFits l = true := by simp [resListFits, hl]
  have hlist : s.resList_ id l = ((s.resOffer id (leNat l)).1.setWin id Obj.RES_RESULT (s.offerCode id (leNat l))).setWin id
      Obj.RES_LIST_REFUSED (if s.offerCode id (leNat l) = 0 then 0 else 1) := by
    unfold State.resList_
    rw [chunks4_one hl]
    simp only [List.foldl_cons, List.foldl_nil, List.nil_append, hcode]
    by_cases h0 : s.offerCode id (leNat l) = 0
    · simp [h0]
    · simp [h0]
  refine gives_of_takes (by unfold exec execResList; rfl) (by simp [hw, hfit]) ?_
  rw [hlist]
  generalize hu : (s.resOffer id (leNat l)).1 = u at hoff
  have hs : u.session id = some x := (State.session_congr hoff.sessions).trans h
  have hs1 := State.session_setWin hs Obj.RES_RESULT (s.offerCode id (leNat l))
  have hr1 : (u.setWin id Obj.RES_RESULT (s.offerCode id (leNat l))).win id Obj.RES_RESULT = s.offerCode id (leNat l) :=
    State.win_setWin_u8 hs objBytes_RES_RESULT (s.offerCode_lt id _)
  have hr2 := (State.win_setWin_ne hs1 (key := Obj.RES_LIST_REFUSED) (k := Obj.RES_RESULT)
    (if s.offerCode id (leNat l) = 0 then 0 else 1) (by decide)).trans hr1
  refine ⟨⟨hr2, hoff.setWin Obj.RES_RESULT 0⟩, ?_⟩
  rw [hr2]
  exact State.win_setWin_bytes hs1 (n := 4) (by decide +kernel) (by decide) (by split <;> decide)

end

/-- Settles O45, from what one offer does. -/
theorem residencyCommands : Obligations.ResidencyCommands := by
  unfold Obligations.ResidencyCommands
  intro id x l s h hr ht i offered
  exact ⟨fun hw hj => ⟨gives_resEnable hw h hr ht hj, gives_resEnable_enabled hw h hr ht hj⟩,
    fun hw he ha => ⟨gives_resDisable hw h ht he ha, gives_resDisable_held hw ht he ha⟩,
    fun hw hl hj he => gives_resList hw h hr ht hl hj he⟩

end Sys2Proof.Machine

/-! ## The Stream Table's commands (R364, R367) -/

namespace Sys2Proof.Machine
open Sys2Proof

-- Short theorems, many of them: one after another, so that the threads' stacks stay within the check's memory.
set_option Elab.async false

section
variable {s : State} {id : Nat} {x : Session}

theorem objBytes_STREAM_RESULT : objBytes Obj.STREAM_RESULT = some 1 := by decide +kernel

theorem State.roleBarred_eq_false (h : s.session id = some x) (hr : x.role ≠ roleUser) : s.roleBarred id = false := by
  unfold State.roleBarred
  simp [h, hr]

/-- The code of an entry that a session enables. -/
def State.streamCode (s : State) (id i : Nat) : Nat :=
  s.streamCheck id i (s.streamImage i) (s.imagePoison (s.streamAddr i) 128) false

theorem State.streamCheck_lt (s : State) (id i : Nat) (e : Stream) (poison repl : Bool) : s.streamCheck id i e poison repl < 256 :=
  firstCode_lt (by decide) (by simp)

/-- The image that an enable writes back. -/
def State.streamNew (s : State) (id i : Nat) : Stream :=
  Sm.enable.set (Sm.refusal.set (s.streamImage i) (s.streamCode id i)) (if s.streamCode id i = 0 then 1 else 0)

theorem State.streamAddr_countStreams (s : State) (i : Nat) : s.countStreams.streamAddr i = s.streamAddr i := by
  unfold State.streamAddr State.countStreams
  rw [State.rg_setRg_ne _ _ (by decide)]

theorem State.streamImage_congr {t : State} {i : Nat} (hm : t.mem = s.mem) (ha : t.streamAddr i = s.streamAddr i) :
    t.streamImage i = s.streamImage i := by
  unfold State.streamImage
  rw [ha]
  exact State.memRec_congr hm _ _

theorem State.streamEnable_eq (h : s.session id = some x) (hr : x.role ≠ roleUser) (ht : s.tableSet 1 = true)
    (hi : s.win id Obj.STREAM_INDEX < 4096) (ho : s.streamOn (s.win id Obj.STREAM_INDEX) = false) :
    s.streamEnable id = (let i := s.win id Obj.STREAM_INDEX
      let u := s.streamStore i (s.streamNew id i)
      (if s.streamCode id i = 0 then (u.pendStream i (s.streamNew id i)).countStreams else u).setWin id Obj.STREAM_RESULT (s.streamCode id i)) := by
  unfold State.streamEnable
  extract_lets i res e code e1 s1 s2
  rw [if_neg (by simp [ht, i, hi]), if_neg (by rw [State.roleBarred_eq_false h hr]; decide), if_neg (by rw [ho]; decide)]
  rfl

theorem gives_streamEnable (hw : s.mayWrite id Obj.STREAM_COMMAND 1 = true) (h : s.session id = some x) (hr : x.role ≠ roleUser)
    (ht : s.tableSet 1 = true) {i : Nat} (hi : s.win id Obj.STREAM_INDEX = i) (hlt : i < 4096) (ho : s.streamOn i = false) :
    Gives (.streamEnable id) s (fun t => t.win id Obj.STREAM_RESULT = s.streamCode id i ∧ t.streams = s.streams ∧
      SameMemoryOutside (s.streamAddr i) 128 s t ∧ t.streamImage i = s.streamNew id i ∧
      SMap.get? t.streamPending i = (if s.streamCode id i = 0 then some (s.streamNew id i) else SMap.get? s.streamPending i) ∧
      (s.streamCode id i = 0 → SMap.get? t.streamAt i = some s.now)) := by
  subst hi
  refine gives_of_takes (by unfold exec execStreamEnable State.command; rfl) hw ?_
  rw [State.streamEnable_eq h hr ht hlt ho]
  extract_lets i u
  have himg : u.streamImage i = s.streamNew id i := State.memRec_memPut s _ 128 _
  have hout : SameMemoryOutside (s.streamAddr i) 128 s u := State.sameMemoryOutside_memPut s _ 128 _
  have hsess : u.session id = some x := h
  have hat : u.now = s.now := rfl
  have hst : u.streams = s.streams := rfl
  have hpend : u.streamPending = s.streamPending := rfl
  clear_value u
  have hlt := s.streamCheck_lt id i (s.streamImage i) (s.imagePoison (s.streamAddr i) 128) false
  change s.streamCode id i < 256 at hlt
  generalize s.streamCode id i = code at hlt ⊢
  by_cases h0 : code = 0
  · rw [if_pos h0, if_pos h0]
    have hmem : ((u.pendStream i (s.streamNew id i)).countStreams.setWin id Obj.STREAM_RESULT code).mem = u.mem := rfl
    refine ⟨State.win_setWin_u8 (x := x) hsess objBytes_STREAM_RESULT hlt, hst, fun b hb => ?_, ?_, SMap.get?_ins_self .., fun _ => ?_⟩
    · exact (State.memByte_congr hmem b).trans (hout b hb)
    · exact (State.streamImage_congr hmem (State.streamAddr_countStreams _ i)).trans himg
    · rw [← hat]
      exact SMap.get?_ins_self ..
  · rw [if_neg h0, if_neg h0]
    exact ⟨State.win_setWin_u8 hsess objBytes_STREAM_RESULT hlt, hst, hout, himg, congrArg (SMap.get? · i) hpend, fun hc => absurd hc h0⟩

theorem gives_streamDisable (hw : s.mayWrite id Obj.STREAM_COMMAND 2 = true) (h : s.session id = some x) (hr : x.role ≠ roleUser)
    (ht : s.tableSet 1 = true) (hlt : s.win id Obj.STREAM_INDEX < 4096) (he : Sm.enable.get (s.streamE (s.win id Obj.STREAM_INDEX)) = 1)
    (ha : s.actsFor id (Sm.partition.get (s.streamE (s.win id Obj.STREAM_INDEX))) = true) :
    Gives (.streamDisable id) s (fun t => t.win id Obj.STREAM_RESULT = 0 ∧
      SMap.get? t.streamPending (s.win id Obj.STREAM_INDEX) = some 0 ∧
      SMap.get? t.streamAt (s.win id Obj.STREAM_INDEX) = some s.now ∧ t.streams = s.streams) := by
  refine gives_of_takes (by unfold exec execStreamDisable State.command; rfl) hw ?_
  unfold State.streamDisable
  extract_lets i res
  rw [if_neg (by simp [ht, i, hlt]), if_neg (by rw [State.roleBarred_eq_false h hr]; decide), if_pos he, if_pos ha]
  exact ⟨State.win_setWin_u8 (s := s.pendStream i 0) (x := x) h objBytes_STREAM_RESULT (by decide), SMap.get?_ins_self ..,
    SMap.get?_ins_self .., rfl⟩

theorem gives_streamReplace (hw : s.mayWrite id Obj.STREAM_COMMAND 3 = true) (h : s.session id = some x) (hr : x.role ≠ roleUser)
    (ht : s.tableSet 1 = true) {i : Nat} (hi : s.win id Obj.STREAM_INDEX = i) (hlt : i < 4096)
    {img : List Byte} (himg : s.winDom id Obj.STREAM_IMAGE = img) (hne : img ≠ []) {e : Stream} (he : BitVec.ofNat 1024 (leNat img) = e)
    {code : Nat} (hc : s.streamCheck id i e false true = code) :
    Gives (.streamReplace id) s (fun t => t.win id Obj.STREAM_RESULT = code ∧ t.streams = s.streams ∧ SameMemory s t ∧
      SMap.get? t.streamPending i = if code = 0 then some (Stream.carry (s.streamE i) (Sm.refusal.set (Sm.enable.set e 1) 0))
        else SMap.get? s.streamPending i) := by
  have hlt256 : code < 256 := hc ▸ s.streamCheck_lt id i e false true
  refine gives_of_takes (by unfold exec execStreamReplace State.command; rfl) hw ?_
  unfold State.streamReplace
  simp only [hi, himg, he, hc]
  rw [if_neg (by simpa using hne), if_neg (by simp [ht, hlt]), if_neg (by rw [State.roleBarred_eq_false h hr]; decide)]
  by_cases h0 : code = 0
  · rw [if_pos h0, if_pos h0, h0]
    exact ⟨State.win_setWin_u8 (s := s.pendStream i _) (x := x) h objBytes_STREAM_RESULT (by decide), rfl, fun _ => rfl,
      SMap.get?_ins_self ..⟩
  · rw [if_neg h0, if_neg h0]
    exact ⟨State.win_setWin_u8 h objBytes_STREAM_RESULT hlt256, rfl, fun _ => rfl, rfl⟩

end

/-- Settles O36. -/
theorem streamTableCommands : Obligations.StreamTableCommands := by
  unfold Obligations.StreamTableCommands
  intro id x s h hr ht i hlt
  refine ⟨fun hw ho => ?_, fun hw he ha => gives_streamDisable hw h hr ht hlt he ha, fun hw hne => ?_⟩
  · intro code
    obtain ⟨t, hx, hres, hst, hout, himg, hpend, hat⟩ := gives_streamEnable hw h hr ht rfl hlt ho
    refine ⟨t, hx, hres, hst, hout, himg, hpend.trans ?_, hat⟩
    split
    next h0 =>
      have : s.streamNew id i = Sm.enable.set (Sm.refusal.set (s.streamImage i) 0) 1 := by
        unfold State.streamNew
        rw [h0, if_pos rfl]
      exact (congrArg some this).trans (if_pos h0).symm
    next h0 => exact (if_neg h0).symm
  · intro e code
    exact gives_streamReplace hw h hr ht rfl hlt rfl hne rfl rfl

end Sys2Proof.Machine

/-! ## Queue pairs and regions (R372, R373, R460) -/

namespace Sys2Proof.Machine
open Sys2Proof

-- Short theorems, many of them: one after another, so that the threads' stacks stay within the check's memory.
set_option Elab.async false

theorem firstCode_nil : firstCode [] = 0 := rfl

theorem firstCode_cons (b : Bool) (c : Nat) (cs : List (Bool × Nat)) :
    firstCode ((b, c) :: cs) = if b = true then c else firstCode cs := by
  cases b <;> rfl

section
variable {s : State} {id : Nat} {x : Session}

/-! ### Queue pairs -/

/-- The code of a connect. -/
def State.qpCode (s : State) (id : Nat) (e : BitVec 512) : Nat := firstCode [
  (qpFieldBad e, 1),
  (!s.actsFor id (Qe.partition.get e) || (s.pt (Qe.partition.get e)).built.isNone || s.qpForeign id, 2),
  ((s.qp (s.win id Obj.QP_INDEX)).state != Machine.qpReset, 3)]

/-- The queue pair that a connect makes. -/
def connectedQp (e : BitVec 512) : Qp :=
  { Qp.reset with entry := e, state := qpReady, sq := Qe.sqPsn.get e, rq := Qe.rqPsn.get e }

theorem State.qpConnect_eq (s : State) (id : Nat) : s.qpConnect id =
    (if s.qpCode id (BitVec.ofNat 512 (leNat (s.winDom id Obj.QP_DATA))) = 0
      then s.setQp (s.win id Obj.QP_INDEX) (connectedQp (BitVec.ofNat 512 (leNat (s.winDom id Obj.QP_DATA)))) else s).setWin id Obj.QP_RESULT
      (s.qpCode id (BitVec.ofNat 512 (leNat (s.winDom id Obj.QP_DATA)))) := rfl

theorem objBytes_QP_RESULT : objBytes Obj.QP_RESULT = some 1 := by decide +kernel

theorem gives_qpConnect_refused (hw : s.mayWrite id Obj.QP_COMMAND 1 = true) (h : s.session id = some x) {code : Nat}
    (hc : s.qpCode id (BitVec.ofNat 512 (leNat (s.winDom id Obj.QP_DATA))) = code) (h0 : code ≠ 0) (hlt : code < 256) :
    Gives (.qpConnect id) s (fun t => t.win id Obj.QP_RESULT = code ∧ t.qps = s.qps ∧ t.regions = s.regions ∧ SameMemory s t) := by
  refine gives_of_takes (by unfold exec execQpConnect State.command; rfl) hw ?_
  rw [State.qpConnect_eq, hc, if_neg h0]
  exact ⟨State.win_setWin_u8 h objBytes_QP_RESULT hlt, rfl, rfl, fun _ => rfl⟩

theorem gives_qpConnect (hw : s.mayWrite id Obj.QP_COMMAND 1 = true) (h : s.session id = some x)
    (hc : s.qpCode id (BitVec.ofNat 512 (leNat (s.winDom id Obj.QP_DATA))) = 0) :
    Gives (.qpConnect id) s (fun t => t.win id Obj.QP_RESULT = 0 ∧
      t.qp (s.win id Obj.QP_INDEX) = connectedQp (BitVec.ofNat 512 (leNat (s.winDom id Obj.QP_DATA))) ∧
      ∀ j, j ≠ s.win id Obj.QP_INDEX → t.qp j = s.qp j) := by
  refine gives_of_takes (by unfold exec execQpConnect State.command; rfl) hw ?_
  rw [State.qpConnect_eq, hc, if_pos rfl]
  generalize connectedQp (BitVec.ofNat 512 (leNat (s.winDom id Obj.QP_DATA))) = q
  exact ⟨State.win_setWin_u8 (s := s.setQp _ q) (x := x) h objBytes_QP_RESULT (by decide), SMap.getD_put_self Qp.reset s.qps _ q,
    fun j hj => SMap.getD_put_ne Qp.reset s.qps q hj⟩

theorem gives_qpReset (hw : s.mayWrite id Obj.QP_COMMAND 2 = true) (h : s.session id = some x) (hf : s.qpForeign id = false) :
    Gives (.qpReset id) s (fun t => t.win id Obj.QP_RESULT = 0 ∧ t.qp (s.win id Obj.QP_INDEX) = Qp.reset ∧
      ∀ j, j ≠ s.win id Obj.QP_INDEX → t.qp j = s.qp j) := by
  refine gives_of_takes (by unfold exec execQpReset State.command; rfl) hw ?_
  unfold State.qpReset
  rw [hf, if_neg (by decide)]
  generalize Qp.reset = q
  exact ⟨State.win_setWin_u8 (s := s.setQp (s.win id Obj.QP_INDEX) q) (x := x) h objBytes_QP_RESULT (by decide),
    SMap.getD_put_self Qp.reset s.qps _ q, fun j hj => SMap.getD_put_ne Qp.reset s.qps q hj⟩

theorem gives_qpReset_foreign (hw : s.mayWrite id Obj.QP_COMMAND 2 = true) (h : s.session id = some x) (hf : s.qpForeign id = true) :
    Gives (.qpReset id) s (fun t => t.win id Obj.QP_RESULT = 2 ∧ t.qps = s.qps ∧ t.regions = s.regions ∧ SameMemory s t) := by
  refine gives_of_takes (by unfold exec execQpReset State.command; rfl) hw ?_
  unfold State.qpReset
  rw [hf, if_pos rfl]
  exact ⟨State.win_setWin_u8 h objBytes_QP_RESULT (by decide), rfl, rfl, fun _ => rfl⟩

/-! ### Regions -/

/-- The code of a region's enable, by its causes in order. -/
def State.regionCode (s : State) (id : Nat) (e : BitVec 256) (admin : Bool) : Nat := firstCode [
  (s.regionForeign id (s.win id Obj.REGION_INDEX), 1),
  (Re.base.get e % 64 != 0 || Re.length.get e % 64 != 0 || Re.length.get e < 64 || Re.partition.get e > 11 || Re.access.get e > 7
    || Re.rsv.get e != 0, 3),
  (s.region (Re.base.get e) == some .refstore
    || (!admin && s.tableRanges.any (fun t => overlaps (Re.base.get e) (Re.length.get e) t.1 t.2)), 2),
  (!s.actsFor id (Re.partition.get e) || !s.inPartition (Re.partition.get e) (Re.base.get e) (Re.length.get e), 1)]

/-- A region as its enable enters it, with its key. -/
def State.addRegion (s : State) (i : Nat) (e : BitVec 256) : State :=
  { s with rkeys := (s.rkeys + 1) % 2 ^ 24, regions := SMap.ins s.regions i ⟨e, i * 2 ^ 24 + (s.rkeys + 1) % 2 ^ 24⟩ }

theorem State.regionEnable_eq (h : s.session id = some x) : s.regionEnable id =
    (if s.regionCode id (BitVec.ofNat 256 (leNat (s.winDom id Obj.REGION_DATA))) (x.role == roleAdmin) = 0
      then s.addRegion (s.win id Obj.REGION_INDEX) (BitVec.ofNat 256 (leNat (s.winDom id Obj.REGION_DATA))) else s).setWin id Obj.REGION_RESULT
      (s.regionCode id (BitVec.ofNat 256 (leNat (s.winDom id Obj.REGION_DATA))) (x.role == roleAdmin)) := by
  unfold State.regionEnable
  rw [h]
  rfl

theorem objBytes_REGION_RESULT : objBytes Obj.REGION_RESULT = some 1 := by decide +kernel

theorem gives_regionEnable_refused (hw : s.mayWrite id Obj.REGION_COMMAND 1 = true) (h : s.session id = some x) {code : Nat}
    (hc : s.regionCode id (BitVec.ofNat 256 (leNat (s.winDom id Obj.REGION_DATA))) (x.role == roleAdmin) = code) (h0 : code ≠ 0)
    (hlt : code < 256) :
    Gives (.regionEnable id) s (fun t => t.win id Obj.REGION_RESULT = code ∧ t.qps = s.qps ∧ t.regions = s.regions ∧ SameMemory s t) := by
  refine gives_of_takes (by unfold exec execRegionEnable State.command; rfl) hw ?_
  rw [State.regionEnable_eq h, hc, if_neg h0]
  exact ⟨State.win_setWin_u8 h objBytes_REGION_RESULT hlt, rfl, rfl, fun _ => rfl⟩

theorem gives_regionEnable (hw : s.mayWrite id Obj.REGION_COMMAND 1 = true) (h : s.session id = some x)
    (hc : s.regionCode id (BitVec.ofNat 256 (leNat (s.winDom id Obj.REGION_DATA))) (x.role == roleAdmin) = 0) :
    Gives (.regionEnable id) s (fun t => t.win id Obj.REGION_RESULT = 0 ∧
      SMap.get? t.regions (s.win id Obj.REGION_INDEX) = some ⟨BitVec.ofNat 256 (leNat (s.winDom id Obj.REGION_DATA)),
        s.win id Obj.REGION_INDEX * 2 ^ 24 + (s.rkeys + 1) % 2 ^ 24⟩ ∧
      ∀ j, j ≠ s.win id Obj.REGION_INDEX → SMap.get? t.regions j = SMap.get? s.regions j) := by
  refine gives_of_takes (by unfold exec execRegionEnable State.command; rfl) hw ?_
  rw [State.regionEnable_eq h, hc, if_pos rfl]
  exact ⟨State.win_setWin_u8 (s := s.addRegion _ _) (x := x) h objBytes_REGION_RESULT (by decide), SMap.get?_ins_self ..,
    fun j hj => SMap.get?_ins_ne _ _ hj⟩

theorem gives_regionDisable (hw : s.mayWrite id Obj.REGION_COMMAND 2 = true) (h : s.session id = some x) {k : Nat}
    (hk : s.win id Obj.REGION_INDEX = k) (hf : s.regionForeign id k = false) :
    Gives (.regionDisable id) s (fun t => t.win id Obj.REGION_RESULT = 0 ∧
      SMap.get? t.regions k = none ∧ ∀ j, j ≠ k → SMap.get? t.regions j = SMap.get? s.regions j) := by
  refine gives_of_takes (by unfold exec execRegionDisable State.command; rfl) hw ?_
  unfold State.regionDisable
  simp only [hk, hf, Bool.false_eq_true, if_false]
  exact ⟨State.win_setWin_u8 (s := { s with regions := SMap.del s.regions k }) (x := x) h objBytes_REGION_RESULT (by decide),
    SMap.get?_del_self .., fun j hj => SMap.get?_del_ne _ hj⟩

theorem gives_regionDisable_foreign (hw : s.mayWrite id Obj.REGION_COMMAND 2 = true) (h : s.session id = some x)
    (hf : s.regionForeign id (s.win id Obj.REGION_INDEX) = true) :
    Gives (.regionDisable id) s (fun t => t.win id Obj.REGION_RESULT = 1 ∧ t.qps = s.qps ∧ t.regions = s.regions ∧ SameMemory s t) := by
  refine gives_of_takes (by unfold exec execRegionDisable State.command; rfl) hw ?_
  unfold State.regionDisable
  simp only [hf, if_true]
  exact ⟨State.win_setWin_u8 h objBytes_REGION_RESULT (by decide), rfl, rfl, fun _ => rfl⟩

theorem State.regionForeign_of (h : SMap.get? s.regions k = some r) : s.regionForeign id k = !s.actsFor id (Re.partition.get r.entry) := by
  unfold State.regionForeign
  rw [h]

end

/-- Settles O39, cause by cause: the first that applies gives the code, and only code 0 changes anything. -/
theorem queuePairAndRegionCommands : Obligations.QueuePairAndRegionCommands := by
  unfold Obligations.QueuePairAndRegionCommands
  intro id x s h i e k g refused geom barred own mine
  have hgeom : (Re.base.get g % 64 != 0 || Re.length.get g % 64 != 0 || Re.length.get g < 64 || Re.partition.get g > 11
      || Re.access.get g > 7 || Re.rsv.get g != 0) = decide geom := by
    rw [Bool.eq_iff_iff]
    simp [geom, or_assoc]
  have hbarred : (s.region (Re.base.get g) == some .refstore || (!(x.role == roleAdmin)
      && s.tableRanges.any (fun t => overlaps (Re.base.get g) (Re.length.get g) t.1 t.2))) = decide barred := by
    rw [Bool.eq_iff_iff]
    simp [barred]
  have hown : (!s.actsFor id (Re.partition.get g) || !s.inPartition (Re.partition.get g) (Re.base.get g) (Re.length.get g)) = !own := by
    simp [own]
  have hmine : (!s.actsFor id (Qe.partition.get e) || (s.pt (Qe.partition.get e)).built.isNone || s.qpForeign id) = !mine := by
    simp [mine]
  have hq : s.qpCode id e = if qpFieldBad e = true then 1 else if mine = false then 2 else
      if (s.qp i).state ≠ Machine.qpReset then 3 else 0 := by
    unfold State.qpCode
    simp only [hmine, firstCode_cons, firstCode_nil, Bool.not_eq_true', bne_iff_ne, i]
  have hr : s.regionCode id g (x.role == roleAdmin) = if s.regionForeign id k = true then 1 else if geom then 3 else if barred then 2 else
      if own = false then 1 else 0 := by
    unfold State.regionCode
    simp only [hgeom, hbarred, hown, firstCode_cons, firstCode_nil, Bool.not_eq_true', decide_eq_true_eq, k]
  refine ⟨fun hw => ⟨fun hb => ?_, fun hb hm => ?_, fun hb hm hs => ?_, fun hb hm hs => ?_⟩,
    fun hw => ⟨gives_qpReset hw h, gives_qpReset_foreign hw h⟩,
    fun hw => ⟨fun hf => ?_, fun hf hg => ?_, fun hf hg hb => ?_, fun hf hg hb ho => ?_, fun hf hg hb ho => ?_⟩,
    fun hw r hr => ⟨fun ha => ?_, fun ha => ?_⟩⟩
  · exact gives_qpConnect_refused hw h (hq.trans (by simp [hb])) (by decide) (by decide)
  · exact gives_qpConnect_refused hw h (hq.trans (by simp [hb, hm])) (by decide) (by decide)
  · exact gives_qpConnect_refused hw h (hq.trans (by simp [hb, hm, hs])) (by decide) (by decide)
  · exact gives_qpConnect hw h (hq.trans (by simp [hb, hm, hs]))
  · exact gives_regionEnable_refused hw h (hr.trans (by simp [hf])) (by decide) (by decide)
  · exact gives_regionEnable_refused hw h (hr.trans (by simp [hf, hg])) (by decide) (by decide)
  · exact gives_regionEnable_refused hw h (hr.trans (by simp [hf, hg, hb])) (by decide) (by decide)
  · exact gives_regionEnable_refused hw h (hr.trans (by simp [hf, hg, hb, ho])) (by decide) (by decide)
  · exact gives_regionEnable hw h (hr.trans (by simp [hf, hg, hb, ho]))
  · exact gives_regionDisable hw h rfl ((State.regionForeign_of hr).trans (by simp [ha]))
  · exact gives_regionDisable_foreign hw h ((State.regionForeign_of hr).trans (by simp [ha]))

end Sys2Proof.Machine

/-! ## Slots' commands (R380, R383, R384, R398, R401) -/

namespace Sys2Proof.Machine
open Sys2Proof

-- Short theorems, many of them: one after another, so that the threads' stacks stay within the check's memory.
set_option Elab.async false

section
variable {s : State} {id : Nat} {x : Session}

theorem State.slotE_setSlot_self (s : State) (i : Nat) (e : BitVec 1024) : (s.setSlot i e).slotE i = e := SMap.getD_put_self ..

theorem State.slotE_setSlot_ne (s : State) {i j : Nat} (e : BitVec 1024) (h : j ≠ i) : (s.setSlot i e).slotE j = s.slotE j :=
  SMap.getD_put_ne 0 s.slots e h

theorem State.slotE_congr {t : State} (h : t.slots = s.slots) (i : Nat) : t.slotE i = s.slotE i := congrArg (SMap.getD 0 · i) h

theorem State.slots_refPrefix (s : State) (i : Nat) (up : Bool) : (s.refPrefix i up).slots = s.slots := by
  unfold State.refPrefix
  split
  · rfl
  · rfl

theorem State.sessions_refPrefix (s : State) (i : Nat) (up : Bool) : (s.refPrefix i up).sessions = s.sessions := by
  unfold State.refPrefix
  split
  · rfl
  · rfl

theorem objBytes_SLOT_RESULT : objBytes Obj.SLOT_RESULT = some 1 := by decide +kernel

theorem State.slotCheck_lt (s : State) (id i : Nat) (e : BitVec 1024) (poison : Bool) : s.slotCheck id i e poison < 256 :=
  firstCode_lt (by decide) (by simp)

theorem gives_slotEnable (hw : s.mayWrite id Obj.SLOT_COMMAND 1 = true) (h : s.session id = some x) (ht : s.tableSet 2 = true) {i : Nat}
    (hi : s.win id Obj.SLOT_INDEX = i) (hlt : i < 8192) (ho : s.slotOn i = false) {code : Nat}
    (hc : s.slotCheck id i (s.slotImage i) (s.imagePoison (s.slotAddr i) 128) = code) :
    Gives (.slotEnable id) s (fun t =>
      t.win id Obj.SLOT_RESULT = code ∧ t.slotE i = (if code = 0 then s.freshSlot (s.slotImage i) else s.slotE i) ∧
      (∀ k, k ≠ i → t.slotE k = s.slotE k) ∧ (code ≠ 0 → t.prefixes = s.prefixes ∧ SameMemoryOutside (s.slotAddr i) 128 s t)) := by
  have hlt256 : code < 256 := hc ▸ s.slotCheck_lt id i _ _
  refine gives_of_takes (by unfold exec execSlotEnable State.command; rfl) hw ?_
  unfold State.slotEnable
  simp only [hi, hc]
  rw [if_neg (by simp [ht, hlt]), if_neg (by rw [ho]; decide)]
  by_cases h0 : code = 0
  · rw [if_pos h0, if_pos h0, h0]
    generalize s.freshSlot (s.slotImage i) = e
    generalize hu : ((s.setSlot i e).slotWriteBack i).refPrefix (Sl.prefix_.get (s.slotImage i)) true = u
    have hsl : u.slots = (s.setSlot i e).slots := hu ▸ State.slots_refPrefix ..
    have hss : u.session id = some x := (State.session_congr (hu ▸ State.sessions_refPrefix ..)).trans h
    exact ⟨State.win_setWin_u8 hss objBytes_SLOT_RESULT (by decide), (State.slotE_congr hsl i).trans (s.slotE_setSlot_self i e),
      fun k hk => (State.slotE_congr hsl k).trans (s.slotE_setSlot_ne e hk), fun hn => absurd rfl hn⟩
  · rw [if_neg h0, if_neg h0]
    exact ⟨State.win_setWin_u8 (s := s.memPut _ _) (x := x) h objBytes_SLOT_RESULT hlt256, rfl, fun _ _ => rfl,
      fun _ => ⟨rfl, State.sameMemoryOutside_memPut s _ 128 _⟩⟩

theorem gives_slotDisable (hw : s.mayWrite id Obj.SLOT_COMMAND 2 = true) (h : s.session id = some x) (ht : s.tableSet 2 = true) {i : Nat}
    (hi : s.win id Obj.SLOT_INDEX = i) (hlt : i < 8192) (ho : s.slotOn i = true)
    (ha : s.actsFor id (Sl.partition.get (s.slotE i)) = true) (hst : slStopped (Sl.status.get (s.slotE i)) = true) :
    Gives (.slotDisable id) s (fun t => t.win id Obj.SLOT_RESULT = 0 ∧ t.slotE i = 0 ∧ ∀ k, k ≠ i → t.slotE k = s.slotE k) := by
  refine gives_of_takes (by unfold exec execSlotDisable State.command; rfl) hw ?_
  subst hi
  unfold State.slotDisable
  extract_lets i res e u u1 v
  rw [if_neg (by simp [ht, i, hlt]), if_neg (by rw [ho]; decide), if_neg (by rw [ha]; decide), if_neg (by rw [hst]; decide)]
  have hsl : u.slots = s.slots := State.slots_refPrefix ..
  have hss : u.session id = some x := (State.session_congr (State.sessions_refPrefix ..)).trans h
  have hvs : v.slots = s.slots := hsl
  have hvx : v.session id = some x := hss
  clear_value v u1 u
  generalize (0 : BitVec 1024) = z
  exact ⟨State.win_setWin_u8 (s := v.setSlot i z) hvx objBytes_SLOT_RESULT (by decide), v.slotE_setSlot_self i z,
    fun k hk => (v.slotE_setSlot_ne z hk).trans (State.slotE_congr hvs k)⟩

theorem gives_slotDisable_active (hw : s.mayWrite id Obj.SLOT_COMMAND 2 = true) (h : s.session id = some x) (ht : s.tableSet 2 = true)
    {i : Nat} (hi : s.win id Obj.SLOT_INDEX = i) (hlt : i < 8192) (ho : s.slotOn i = true)
    (ha : s.actsFor id (Sl.partition.get (s.slotE i)) = true) (hst : slStopped (Sl.status.get (s.slotE i)) = false) :
    Gives (.slotDisable id) s (fun t => t.win id Obj.SLOT_RESULT = 0x4C ∧ t.slots = s.slots ∧ t.mem = s.mem) := by
  refine gives_of_takes (by unfold exec execSlotDisable State.command; rfl) hw ?_
  unfold State.slotDisable
  simp only [hi]
  rw [if_neg (by simp [ht, hlt]), if_neg (by rw [ho]; decide), if_neg (by rw [ha]; decide), if_pos (by rw [hst]; decide)]
  exact ⟨State.win_setWin_u8 (v := 0x4C) h objBytes_SLOT_RESULT (by decide), rfl, rfl⟩

theorem gives_slotCancel {p : PartId} (hw : s.mayWrite id Obj.SLOT_COMMAND 3 = true) (h : s.session id = some x) (ht : s.tableSet 2 = true)
    {i ct : Nat} (hi : s.win id Obj.SLOT_INDEX = i) (hct : s.win id Obj.CANCEL_TICK = ct) (hlt : i < 8192) (ho : s.slotOn i = true)
    (hp : Sl.partition.get (s.slotE i) = p.val) (ha : s.actsFor id p = true) (hn : SMap.get? (s.pt p).slotCancels i = none)
    (hle : ct = 0 ∨ s.rg (Obj.TICK_NUMBER p) ≤ ct) :
    Gives (.slotCancel id) s (fun t => t.win id Obj.SLOT_RESULT = 0 ∧ SMap.get? (t.pt p).slotCancels i = some ct ∧ t.slots = s.slots) := by
  refine gives_of_takes (by unfold exec execSlotCancel State.command; rfl) hw ?_
  have hcode : firstCode [(!s.tableSet 2 || decide (i ≥ 8192), 0x03), (s.slotOn i && !s.actsFor id p, 0x40),
      (!s.slotOn i || (SMap.get? (s.pt p).slotCancels i).isSome || (ct != 0 && decide (ct < s.rg (Obj.TICK_NUMBER p))), 0x4C)] = 0 := by
    have : ct = 0 ∨ ¬ ct < s.rg (Obj.TICK_NUMBER p) := hle.imp_right not_lt.2
    have hb : (ct != 0 && decide (ct < s.rg (Obj.TICK_NUMBER p))) = false := by
      rcases this with h0 | h0 <;> simp [h0]
    simp [firstCode_cons, firstCode_nil, ht, hlt, ho, ha, hn, hb]
  unfold State.slotCancel
  simp only [hi, hct, hp, hcode, if_true]
  refine ⟨State.win_setWin_u8 (s := s.modPt p _) (x := x) h objBytes_SLOT_RESULT (by decide), ?_, rfl⟩
  show SMap.get? ((s.modPt p fun y => { y with slotCancels := SMap.ins y.slotCancels i ct }).pt p).slotCancels i = some ct
  rw [State.pt_modPt_fin]
  exact SMap.get?_ins_self ..

end

/-- Settles O46. -/
theorem slotCommands : Obligations.SlotCommands := by
  unfold Obligations.SlotCommands
  intro id x s h ht i e code ct hlt
  exact ⟨fun hw ho => gives_slotEnable hw h ht rfl hlt ho rfl,
    fun hw ho ha => ⟨gives_slotDisable hw h ht rfl hlt ho ha, gives_slotDisable_active hw h ht rfl hlt ho ha⟩,
    fun p hw ho hp ha hn hle => gives_slotCancel hw h ht rfl rfl hlt ho hp ha hn hle⟩

end Sys2Proof.Machine

/-! ## Pages, prefix handles and weight copies (R380, R395, R400, R401) -/

namespace Sys2Proof.Machine
open Sys2Proof

-- Short theorems, many of them: one after another, so that the threads' stacks stay within the check's memory.
set_option Elab.async false

section
variable {s : State} {id : Nat} {x : Session}

/-! ### Pages -/

theorem State.pageE_setPage_self (s : State) (i : Nat) (e : BitVec 128) : (s.setPage i e).pageE i = e := SMap.getD_put_self ..

theorem State.pageE_setPage_ne (s : State) {i j : Nat} (e : BitVec 128) (h : j ≠ i) : (s.setPage i e).pageE j = s.pageE j :=
  SMap.getD_put_ne 0 s.pages e h

theorem State.pageE_pageStore (s : State) (i : Nat) (e : BitVec 128) (j : Nat) : (s.pageStore i e).pageE j = s.pageE j := rfl

theorem objBytes_PAGE_RESULT : objBytes Obj.PAGE_RESULT = some 1 := by decide +kernel

theorem State.pageCheck_lt (s : State) (id i : Nat) (e : BitVec 128) (poison : Bool) : s.pageCheck id i e poison < 256 :=
  firstCode_lt (by decide) (by simp)

/-- A command over one page. -/
theorem State.pageSpan_one (h1 : s.win id Obj.PAGE_SPAN = 1) (op : State → Nat → State × Nat) :
    s.pageSpan id op = ((op s (s.win id Obj.PAGE_INDEX)).1.setWin id Obj.PAGE_RESULT (op s (s.win id Obj.PAGE_INDEX)).2).setWin id
      Obj.PAGE_REFUSED (if (op s (s.win id Obj.PAGE_INDEX)).2 = 0 then 0 else 1) := by
  unfold State.pageSpan
  rw [h1]
  simp only [List.range_one, List.foldl_cons, List.foldl_nil, Nat.add_zero, List.nil_append]
  generalize op s (s.win id Obj.PAGE_INDEX) = r
  by_cases h0 : r.2 = 0
  · simp [h0]
  · simp [h0]

/-- The two results of a command over one page. -/
theorem State.win_pageResults {u : State} (h : u.session id = some x) {c : Nat} (hc : c < 256) :
    ((u.setWin id Obj.PAGE_RESULT c).setWin id Obj.PAGE_REFUSED (if c = 0 then 0 else 1)).win id Obj.PAGE_RESULT = c ∧
    ((u.setWin id Obj.PAGE_RESULT c).setWin id Obj.PAGE_REFUSED (if c = 0 then 0 else 1)).win id Obj.PAGE_REFUSED = if c = 0 then 0 else 1 := by
  have h1 := State.session_setWin h Obj.PAGE_RESULT c
  refine ⟨(State.win_setWin_ne h1 _ (by decide)).trans (State.win_setWin_u8 h objBytes_PAGE_RESULT hc), ?_⟩
  exact State.win_setWin_bytes h1 (n := 4) (by decide +kernel) (by decide) (by split <;> decide)

theorem gives_pageEnable (hw : s.mayWrite id Obj.PAGE_COMMAND 1 = true) (h : s.session id = some x) (ht : s.tableSet 3 = true) {i : Nat}
    (hi : s.win id Obj.PAGE_INDEX = i) (hlt : i < 262144) (h1 : s.win id Obj.PAGE_SPAN = 1) (ho : s.pageOn i = false) {g : BitVec 128}
    (hg : s.memRec (s.pageAddr i) 16 = g) {code : Nat} (hc : s.pageCheck id i g (s.imagePoison (s.pageAddr i) 16) = code) :
    Gives (.pageEnable id) s (fun t => t.win id Obj.PAGE_RESULT = code ∧ t.win id Obj.PAGE_REFUSED = (if code = 0 then 0 else 1) ∧
      t.pageE i = (if code = 0 then Pg.enable.set (Pg.refusal.set g 0) 1 else s.pageE i) ∧ SameMemoryOutside (s.pageAddr i) 16 s t) := by
  have hlt256 : code < 256 := hc ▸ s.pageCheck_lt id i g _
  refine gives_of_takes (by unfold exec execPageEnable State.command; rfl) hw ?_
  have hoff : s.pageOffer id i = (if code = 0
      then (s.setPage i (Pg.enable.set (Pg.refusal.set g 0) 1)).pageStore i (Pg.enable.set (Pg.refusal.set g 0) 1)
      else s.pageStore i (Pg.enable.set (Pg.refusal.set g code) 0), code) := by
    unfold State.pageOffer
    simp only [hg, hc]
    rw [if_neg (by simp [ht, hlt]), if_neg (by rw [ho]; decide)]
    by_cases h0 : code = 0
    · subst h0
      rfl
    · simp only [if_neg h0]
  rw [State.pageSpan_one h1, hi, hoff]
  dsimp only
  generalize hu : (if code = 0 then _ else _ : State) = u
  have hspec : u.session id = some x ∧ u.pageE i = (if code = 0 then Pg.enable.set (Pg.refusal.set g 0) 1 else s.pageE i) ∧
      SameMemoryOutside (s.pageAddr i) 16 s u := by
    by_cases h0 : code = 0
    · rw [if_pos h0] at hu ⊢
      generalize Pg.enable.set (Pg.refusal.set g 0) 1 = e at hu ⊢
      subst hu
      exact ⟨h, s.pageE_setPage_self i e, State.sameMemoryOutside_memPut s _ 16 _⟩
    · rw [if_neg h0] at hu ⊢
      generalize Pg.enable.set (Pg.refusal.set g code) 0 = e at hu
      subst hu
      exact ⟨h, rfl, State.sameMemoryOutside_memPut s _ 16 _⟩
  obtain ⟨hs, hp, hm⟩ := hspec
  obtain ⟨hr1, hr2⟩ := State.win_pageResults hs hlt256
  exact ⟨hr1, hr2, hp, hm⟩

theorem gives_pageDisable (hw : s.mayWrite id Obj.PAGE_COMMAND 2 = true) (h : s.session id = some x) (ht : s.tableSet 3 = true)
    (hlt : s.win id Obj.PAGE_INDEX < 262144) (h1 : s.win id Obj.PAGE_SPAN = 1) (ho : s.pageOn (s.win id Obj.PAGE_INDEX) = true)
    (ha : s.actsFor id (Pg.partition.get (s.pageE (s.win id Obj.PAGE_INDEX))) = true)
    (hn : s.pageOwned (s.pageE (s.win id Obj.PAGE_INDEX)) = false) :
    Gives (.pageDisable id) s (fun t => t.win id Obj.PAGE_RESULT = 0 ∧ t.pageE (s.win id Obj.PAGE_INDEX) = 0) := by
  refine gives_of_takes (by unfold exec execPageDisable State.command; rfl) hw ?_
  rw [State.pageSpan_one h1]
  have hdrop : s.pageDrop id (s.win id Obj.PAGE_INDEX) = ((s.setPage (s.win id Obj.PAGE_INDEX) 0).pageStore (s.win id Obj.PAGE_INDEX)
      (Pg.enable.set (s.pageE (s.win id Obj.PAGE_INDEX)) 0), 0) := by
    unfold State.pageDrop
    rw [if_neg (by simp [ht, hlt]), if_neg (by rw [ho]; decide), if_neg (by rw [ha]; decide), if_neg (by rw [hn]; decide)]
  rw [hdrop]
  generalize (0 : BitVec 128) = z
  exact ⟨(State.win_pageResults (u := (s.setPage _ z).pageStore _ _) (x := x) (c := 0) h (by decide)).1, s.pageE_setPage_self _ z⟩

/-- A page that stays, for its owner is enabled or its partition is another's. -/
theorem gives_pageDisable_refused (hw : s.mayWrite id Obj.PAGE_COMMAND 2 = true) (h : s.session id = some x) (ht : s.tableSet 3 = true)
    (hlt : s.win id Obj.PAGE_INDEX < 262144) (h1 : s.win id Obj.PAGE_SPAN = 1) (ho : s.pageOn (s.win id Obj.PAGE_INDEX) = true)
    (hn : s.actsFor id (Pg.partition.get (s.pageE (s.win id Obj.PAGE_INDEX))) = false ∨
      s.pageOwned (s.pageE (s.win id Obj.PAGE_INDEX)) = true) :
    Gives (.pageDisable id) s (fun t => t.win id Obj.PAGE_RESULT = 0x4A ∧ t.pages = s.pages ∧ t.mem = s.mem) := by
  refine gives_of_takes (by unfold exec execPageDisable State.command; rfl) hw ?_
  rw [State.pageSpan_one h1]
  have hdrop : s.pageDrop id (s.win id Obj.PAGE_INDEX) = (s, 0x4A) := by
    unfold State.pageDrop
    rw [if_neg (by simp [ht, hlt]), if_neg (by rw [ho]; decide)]
    rcases hn with hn | hn
    · rw [if_pos (by rw [hn]; decide)]
    · rw [if_pos hn]
      split_ifs <;> rfl
  rw [hdrop]
  exact ⟨(State.win_pageResults (c := 0x4A) h (by decide)).1, rfl, rfl⟩

/-! ### Prefix handles -/

theorem State.prefixE_setPrefix_self (s : State) (i : Nat) (e : BitVec 256) : (s.setPrefix i e).prefixE i = e := SMap.getD_put_self ..

theorem objBytes_PREFIX_RESULT : objBytes Obj.PREFIX_RESULT = some 1 := by decide +kernel

theorem State.prefixCheck_lt (s : State) (id : Nat) (e : BitVec 256) (poison : Bool) : s.prefixCheck id e poison < 256 :=
  firstCode_lt (by decide) (by simp)

/-- A page that goes over to a prefix handle. -/
def handedPage (g : BitVec 128) (i : Nat) : BitVec 128 := Pg.owner.set (Pg.ownerKind.set g 2) i

/-- The pages of a run handed to a prefix handle, one after another. -/
def State.handPages (s : State) (first i n : Nat) : State := (List.range n).foldl (fun t j =>
  (t.setPage (first + j) (handedPage (t.pageE (first + j)) i)).pageStore (first + j) (handedPage (t.pageE (first + j)) i)) s

theorem State.handPages_succ (s : State) (first i n : Nat) : s.handPages first i (n + 1) =
    ((s.handPages first i n).setPage (first + n) (handedPage ((s.handPages first i n).pageE (first + n)) i)).pageStore (first + n)
      (handedPage ((s.handPages first i n).pageE (first + n)) i) := by
  unfold State.handPages
  rw [List.range_succ, List.foldl_append]
  rfl

theorem handedPage_spec (g : BitVec 128) {i : Nat} (hi : i < 65536) :
    Pg.ownerKind.get (handedPage g i) = 2 ∧ Pg.owner.get (handedPage g i) = i := by
  unfold handedPage
  refine ⟨(Fld.get_set_ne (f := Pg.ownerKind) (g := Pg.owner) _ i).trans (Fld.get_set_self Pg.ownerKind g 2), ?_⟩
  refine (Fld.get_set_self Pg.owner _ i).trans (Nat.mod_eq_of_lt ?_)
  exact lt_of_lt_of_le hi (by decide)

theorem State.handPages_spec (s : State) (first : Nat) {i : Nat} (hi : i < 65536) (n : Nat) :
    (s.handPages first i n).slots = s.slots ∧ (s.handPages first i n).sessions = s.sessions ∧
    ∀ q, q < n → Pg.ownerKind.get ((s.handPages first i n).pageE (first + q)) = 2 ∧
      Pg.owner.get ((s.handPages first i n).pageE (first + q)) = i := by
  induction n with
  | zero => exact ⟨rfl, rfl, fun q hq => absurd hq (Nat.not_lt_zero q)⟩
  | succ n ih =>
    obtain ⟨h1, h2, h3⟩ := ih
    rw [State.handPages_succ]
    generalize s.handPages first i n = u at h1 h2 h3
    refine ⟨h1, h2, fun q hq => ?_⟩
    rw [State.pageE_pageStore]
    by_cases he : q = n
    · rw [he, State.pageE_setPage_self]
      exact handedPage_spec _ hi
    · rw [State.pageE_setPage_ne _ _ (by omega)]
      exact h3 q (by omega)

/-- A prefix handle as it is taken from its source slot. -/
def takenHandle (e : BitVec 256) (x : BitVec 1024) : BitVec 256 :=
  Px.refs.set (Px.weightVersion.set (Px.pageFirst.set (Px.enable.set (Px.refusal.set e 0) 1) (Sl.ownFirst.get x)) (Sl.weightVersion.get x)) 0

theorem takenHandle_spec (e : BitVec 256) (x : BitVec 1024) :
    Px.enable.get (takenHandle e x) = 1 ∧ Px.refs.get (takenHandle e x) = 0 ∧ Px.pageFirst.get (takenHandle e x) = Sl.ownFirst.get x := by
  unfold takenHandle
  refine ⟨?_, Fld.get_set_self Px.refs _ 0, ?_⟩
  · rw [Fld.get_set_ne (f := Px.enable) (g := Px.refs), Fld.get_set_ne (f := Px.enable) (g := Px.weightVersion),
      Fld.get_set_ne (f := Px.enable) (g := Px.pageFirst)]
    exact Fld.get_set_self Px.enable _ 1
  · rw [Fld.get_set_ne (f := Px.pageFirst) (g := Px.refs), Fld.get_set_ne (f := Px.pageFirst) (g := Px.weightVersion)]
    refine (Fld.get_set_self Px.pageFirst _ _).trans (Nat.mod_eq_of_lt ?_)
    exact (x.extractLsb' Sl.ownFirst.lo Sl.ownFirst.w).isLt

/-- What an accepted prefix takes from its source slot. -/
theorem State.takePrefix_spec (s : State) {i : Nat} (hi : i < 65536) (e : BitVec 256) {k first n : Nat} (hk : Px.sourceSlot.get e = k)
    (hf : Sl.ownFirst.get (s.slotE k) = first) (hn : Px.tokenPages.get e * s.kvLayers (Px.partition.get e) = n) :
    (s.takePrefix i e).sessions = s.sessions ∧ (s.takePrefix i e).prefixE i = takenHandle e (s.slotE k) ∧
    (s.takePrefix i e).slotE k = Sl.ownPages.set (Sl.ownFirst.set (s.slotE k) (first + n)) (Sl.ownPages.get (s.slotE k) - n) ∧
    ∀ q, q < n → Pg.ownerKind.get ((s.takePrefix i e).pageE (first + q)) = 2 ∧ Pg.owner.get ((s.takePrefix i e).pageE (first + q)) = i := by
  have heq : s.takePrefix i e = ((((s.handPages first i n).setSlot k
      (Sl.ownPages.set (Sl.ownFirst.set (s.slotE k) (first + n)) (Sl.ownPages.get (s.slotE k) - n))).slotWriteBack k).setPrefix i
      (takenHandle e (s.slotE k))).prefixStore i (takenHandle e (s.slotE k)) := by
    subst hk hf hn
    rfl
  obtain ⟨-, hs, hp⟩ := State.handPages_spec s first hi n
  rw [heq]
  generalize s.handPages first i n = u at hs hp
  generalize takenHandle e (s.slotE k) = h
  generalize Sl.ownPages.set (Sl.ownFirst.set (s.slotE k) (first + n)) (Sl.ownPages.get (s.slotE k) - n) = y
  exact ⟨hs, State.prefixE_setPrefix_self ((u.setSlot k y).slotWriteBack k) i h, u.slotE_setSlot_self k y, hp⟩

theorem gives_prefixEnable (hw : s.mayWrite id Obj.PREFIX_COMMAND 1 = true) (h : s.session id = some x) (ht : s.tableSet 4 = true) {j : Nat}
    (hj : s.win id Obj.PREFIX_INDEX = j) (hlt : j < 65536) (ho : s.prefixOn j = false) {e : BitVec 256}
    (he : s.memRec (s.prefixAddr j) 32 = e) {code : Nat} (hc : s.prefixCheck id e (s.imagePoison (s.prefixAddr j) 32) = code) {k first n : Nat}
    (hk : Px.sourceSlot.get e = k) (hf : Sl.ownFirst.get (s.slotE k) = first)
    (hn : Px.tokenPages.get e * s.kvLayers (Px.partition.get e) = n) :
    Gives (.prefixEnable id) s (fun t => t.win id Obj.PREFIX_RESULT = code ∧
      (code ≠ 0 → t.prefixes = s.prefixes ∧ t.slots = s.slots ∧ t.pages = s.pages) ∧
      (code = 0 → t.prefixOn j = true ∧ Px.refs.get (t.prefixE j) = 0 ∧ Px.pageFirst.get (t.prefixE j) = first ∧
        t.slotE k = Sl.ownPages.set (Sl.ownFirst.set (s.slotE k) (first + n)) (Sl.ownPages.get (s.slotE k) - n) ∧
        ∀ q, q < n → Pg.ownerKind.get (t.pageE (first + q)) = 2 ∧ Pg.owner.get (t.pageE (first + q)) = j)) := by
  have hlt256 : code < 256 := hc ▸ s.prefixCheck_lt id e _
  refine gives_of_takes (by unfold exec execPrefixEnable State.command; rfl) hw ?_
  have heq : s.prefixEnable id = (if code = 0 then s.takePrefix j e else s.prefixStore j (Px.enable.set (Px.refusal.set e code) 0)).setWin id
      Obj.PREFIX_RESULT code := by
    unfold State.prefixEnable
    simp only [hj, he, hc]
    rw [if_neg (by simp [ht, hlt]), if_neg (by rw [ho]; decide)]
    by_cases h0 : code = 0
    · rw [if_pos h0, if_pos h0, h0]
    · rw [if_neg h0, if_neg h0]
  rw [heq]
  by_cases h0 : code = 0
  · obtain ⟨hs, hpx, hsl, hpg⟩ := State.takePrefix_spec s hlt e hk hf hn
    obtain ⟨hen, hrefs, hfirst⟩ := takenHandle_spec e (s.slotE k)
    rw [if_pos h0]
    generalize s.takePrefix j e = u at hs hpx hsl hpg ⊢
    rw [← hpx] at hen hrefs hfirst
    refine ⟨State.win_setWin_u8 ((State.session_congr hs).trans h) objBytes_PREFIX_RESULT hlt256, fun hn => absurd h0 hn,
      fun _ => ⟨?_, hrefs, hfirst.trans hf, hsl, hpg⟩⟩
    exact beq_iff_eq.2 hen
  · rw [if_neg h0]
    generalize Px.enable.set (Px.refusal.set e code) 0 = z
    exact ⟨State.win_setWin_u8 (s := s.prefixStore j z) (x := x) h objBytes_PREFIX_RESULT hlt256, fun _ => ⟨rfl, rfl, rfl⟩,
      fun hn => absurd hn h0⟩

theorem gives_prefixDisable (hw : s.mayWrite id Obj.PREFIX_COMMAND 2 = true) (h : s.session id = some x) (ht : s.tableSet 4 = true) {j : Nat}
    (hj : s.win id Obj.PREFIX_INDEX = j) (hlt : j < 65536) (ho : s.prefixOn j = true)
    (ha : s.actsFor id (Px.partition.get (s.prefixE j)) = true) (hr : Px.refs.get (s.prefixE j) = 0) :
    Gives (.prefixDisable id) s (fun t => t.win id Obj.PREFIX_RESULT = 0 ∧ t.prefixE j = 0) := by
  subst hj
  refine gives_of_takes (by unfold exec execPrefixDisable State.command; rfl) hw ?_
  unfold State.prefixDisable
  extract_lets i res e
  rw [if_neg (by simp [ht, i, hlt]), if_neg (by rw [ho]; decide), if_neg (by rw [ha]; decide), if_neg (by simp [e, i, hr])]
  generalize (0 : BitVec 256) = z
  generalize Px.enable.set e 0 = y
  exact ⟨State.win_setWin_u8 (s := (s.setPrefix i z).prefixStore i y) (x := x) h objBytes_PREFIX_RESULT (by decide),
    s.prefixE_setPrefix_self i z⟩

theorem gives_prefixDisable_referred (hw : s.mayWrite id Obj.PREFIX_COMMAND 2 = true) (h : s.session id = some x) (ht : s.tableSet 4 = true)
    {j : Nat} (hj : s.win id Obj.PREFIX_INDEX = j) (hlt : j < 65536) (ho : s.prefixOn j = true)
    (ha : s.actsFor id (Px.partition.get (s.prefixE j)) = true) (hr : Px.refs.get (s.prefixE j) ≠ 0) :
    Gives (.prefixDisable id) s (fun t => t.win id Obj.PREFIX_RESULT = 0x4C ∧ t.prefixes = s.prefixes) := by
  subst hj
  refine gives_of_takes (by unfold exec execPrefixDisable State.command; rfl) hw ?_
  unfold State.prefixDisable
  extract_lets i res e
  rw [if_neg (by simp [ht, i, hlt]), if_neg (by rw [ho]; decide), if_neg (by rw [ha]; decide), if_pos hr]
  exact ⟨State.win_setWin_u8 (v := 0x4C) h objBytes_PREFIX_RESULT (by decide), rfl⟩

/-! ### Weight copies -/

theorem objBytes_COPY_RESULT : objBytes Obj.COPY_RESULT = some 1 := by decide +kernel

/-- What an accepted copy command notes. -/
def Part.copyCommanded (v tick : Nat) (y : Part) : Part :=
  if v = 1 then { y with copyPrepared := true } else { y with copySwitch := some tick }

theorem State.pt_copyCommanded (s : State) (p : PartId) (v tick code : Nat) :
    ((s.modPt p (Part.copyCommanded v tick)).setWin id Obj.COPY_RESULT code).pt p = (s.pt p).copyCommanded v tick :=
  State.pt_modPt_fin s p _

/-- The code of a copy command of a session that acts for a generating partition, none of whose batches is bound to the other slot. -/
theorem State.copyCommand_eq {p : PartId} (hp : s.win id Obj.COPY_PARTITION = p.val) (ha : s.actsFor id p = true)
    (hg : s.generating p = true) (ho : s.otherBound p = false) {v code : Nat}
    (hc : (if v = 2 ∧ s.win id Obj.COPY_TICK ≤ s.rg (Obj.TICK_NUMBER p) then 3 else if v = 2 ∧ (s.pt p).copyPrepared = false then 4 else 0) = code) :
    s.copyCommand id v = (if code ≠ 0 then s else s.modPt p (Part.copyCommanded v (s.win id Obj.COPY_TICK))).setWin id
      Obj.COPY_RESULT code := by
  have hcode : firstCode [(!s.actsFor id p || !s.generating p, 2), (s.otherBound p, 1),
      (v == 2 && decide (s.win id Obj.COPY_TICK ≤ s.rg (Obj.TICK_NUMBER p)), 3), (v == 2 && !(s.pt p).copyPrepared, 4)] = code := by
    rw [← hc]
    simp [firstCode_cons, firstCode_nil, ha, hg, ho]
  unfold State.copyCommand
  simp only [hp, hcode]
  rfl

end

/-- Settles O47. -/
theorem pagePrefixAndCopyCommands : Obligations.PagePrefixAndCopyCommands := by
  unfold Obligations.PagePrefixAndCopyCommands
  intro id x s h i g code j e k n first
  refine ⟨fun ht hlt h1 => ⟨fun hw ho => gives_pageEnable hw h ht rfl hlt h1 ho rfl rfl,
      fun hw ho ha => ⟨gives_pageDisable hw h ht hlt h1 ho ha, fun hn => ?_⟩,
      fun hw ho ha => gives_pageDisable_refused hw h ht hlt h1 ho (.inl ha)⟩,
    fun ht hlt => ⟨fun hw ho => ?_, fun hw ho ha => ⟨gives_prefixDisable hw h ht rfl hlt ho ha,
      gives_prefixDisable_referred hw h ht rfl hlt ho ha⟩⟩,
    fun p hp ha hg ho => ⟨fun hw => ?_, fun hw htk hpr => ?_, fun hw htk => ?_⟩⟩
  · obtain ⟨t, hx, hr, hpg, -⟩ := gives_pageDisable_refused hw h ht hlt h1 ho (.inr hn)
    exact ⟨t, hx, hr, hpg⟩
  · intro bad
    exact gives_prefixEnable hw h ht rfl hlt ho rfl rfl rfl rfl rfl
  · refine gives_of_takes (by unfold exec execCopyPrepare State.command; rfl) hw ?_
    rw [State.copyCommand_eq hp ha hg ho (by simp : _ = 0), if_neg (by decide)]
    refine ⟨State.win_setWin_u8 (s := s.modPt p _) (x := x) h objBytes_COPY_RESULT (by decide), ?_, rfl⟩
    rw [State.pt_copyCommanded]
    rfl
  · refine gives_of_takes (by unfold exec execCopySwitch State.command; rfl) hw ?_
    rw [State.copyCommand_eq hp ha hg ho (by simp [not_le.2 htk, hpr] : _ = 0), if_neg (by decide)]
    refine ⟨State.win_setWin_u8 (s := s.modPt p _) (x := x) h objBytes_COPY_RESULT (by decide), ?_, rfl⟩
    rw [State.pt_copyCommanded]
    rfl
  · refine gives_of_takes (by unfold exec execCopySwitch State.command; rfl) hw ?_
    rw [State.copyCommand_eq hp ha hg ho (by simp [htk] : _ = 3), if_pos (by decide)]
    exact ⟨State.win_setWin_u8 (v := 3) h objBytes_COPY_RESULT (by decide), rfl⟩

end Sys2Proof.Machine

/-! ## Press copies (R415, R416, R419) -/

namespace Sys2Proof.Machine
open Sys2Proof

-- Short theorems, many of them: one after another, so that the threads' stacks stay within the check's memory.
set_option Elab.async false

/-! ### Registers that a store leaves alone -/

/-- An object that no store of device bytes writes: neither the poison counts, nor a state, nor COMMITTED_POISON. -/
def NotStored (k : Nat) : Prop :=
  k ≠ Obj.MODULE_STATE ∧ (∀ d, d < 48 → k ≠ Obj.DEV_STATE d ∧ k ≠ Obj.POISON_COUNT d) ∧ ∀ q, k ≠ Obj.COMMITTED_POISON q

theorem notStored_of_index {i a : Nat} (hi : i ≠ 0x1000 ∧ i ≠ 0x2201 ∧ i ≠ 0x2204) (ha : a < 256) (hc : a ≠ 2 ∨ i < 0x7830) :
    NotStored (okey i a) := by
  refine ⟨okey_ne_of_index hi.1 ha (by decide), fun d hd => ⟨okey_ne_of_index hi.2.1 ha (by omega), okey_ne_of_index hi.2.2 ha (by omega)⟩,
    fun q => ?_⟩
  simp only [Obj.COMMITTED_POISON, okey]
  omega

section
variable {s : State} {a : Nat} {bs : List (Byte × Bool)}

theorem notStored_unitWritten (s : State) (u : Nat) (cov bad : Bool) : RgKept NotStored s (s.unitWritten u cov bad) := by
  unfold State.unitWritten
  split
  next e he =>
    have hu := region_gddr he
    refine .ite ?_ (.ite ?_ (.refl _ _))
    · unfold State.logPoison
      extract_lets d l w s1
      have h1 : RgKept NotStored s s1 := .setRg (.setRg (.refl _ _) (fun k h => (h.2.1 d hu).1) _) (fun k h => h.1) _
      exact .ite (.refl _ _) (.ite (.ite (.refl _ _) (h1.notify _ _ _ _)) (.setRg (.of_regs rfl) (fun k h => (h.2.1 d hu).2) _))
    · unfold State.clearPoison
      extract_lets d l
      exact .ite (.setRg (.of_regs rfl) (fun k h => (h.2.1 d hu).2) _) (.refl _ _)
  · exact .ite (.ite (.refl _ _) (.of_regs rfl)) (.ite (.of_regs rfl) (.refl _ _))
  · exact .refl _ _

theorem notStored_committedPoison (s : State) (u : Nat) : RgKept NotStored s (s.committedPoison u) := by
  unfold State.committedPoison
  split
  · dsimp only
    exact .ite (.modPt (.incRg (.notify (.refl _ _) _ _ _ _) (fun k h => h.2.2 _) _) _ _) (.refl _ _)
  · exact .refl _ _

/-- A store leaves every register but its own marks. -/
theorem notStored_store (s : State) (a : Nat) (bs : List (Byte × Bool)) : RgKept NotStored s (s.store a bs) := by
  have hw : RgKept NotStored s (s.memWrite a bs) := .trans (.of_regs rfl) (.foldl _ fun u x => notStored_unitWritten u _ _ _)
  unfold State.store
  extract_lets s1
  have h1 : RgKept NotStored s s1 := .ite (hw.trans (.changes (State.changes_failStop ..))) hw
  exact .ite (h1.trans (.foldl _ fun u x => .ite (notStored_committedPoison u x) (.refl _ _))) h1

end

/-! ### A generation staged -/

section
variable {p : PartId} {s : State}

theorem notStored_stageEntries (p gen n off : Nat) (l : List Nat) (s : State) : RgKept NotStored s (s.stageEntries p gen n off l) := by
  induction l generalizing s n off with
  | nil => exact .refl _ _
  | cons i is ih => exact ((notStored_store s _ _).trans (notStored_store _ _ _)).trans (ih _ _ _)

theorem notStored_stageAll (s : State) (p gen : Nat) : RgKept NotStored s (s.stageAll p gen) := by
  unfold State.stageAll
  extract_lets l s1 s2
  have h1 : RgKept NotStored s s1 := notStored_stageEntries _ _ _ _ _ _
  have h2 : RgKept NotStored s s2 := h1.modPt _ _
  exact h2.trans (notStored_store _ _ _)

theorem objBytes_press (p : PartId) : objBytes (Obj.PRESS_STEP p) = some 8 ∧ objBytes (Obj.STAGED_STEP p) = some 8 ∧
    objBytes (Obj.DRAINED_STEP p) = some 8 ∧ objBytes (Obj.PRESS_COPIES p) = some 4 ∧ objBytes (Obj.PRESS_STATE p) ≠ some 0 := by
  revert p
  decide +kernel

theorem press_ne (p : Nat) : Obj.STAGED_STEP p ≠ Obj.PRESS_STATE p ∧ Obj.STAGED_STEP p ≠ Obj.PRESS_COPIES p ∧
    Obj.PRESS_STATE p ≠ Obj.PRESS_COPIES p :=
  ⟨okey_ne_of_sub (by decide), okey_ne_of_sub (by decide), okey_ne_of_sub (by decide)⟩

/-- A register as it is read is a 64-bit value. -/
theorem State.rg_lt (s : State) (k : Nat) : s.rg k < 2 ^ 64 := BitVec.isLt _

/-! ### Arming -/

/-- Whether a partition may arm a press copy. -/
def State.mayArm (s : State) (p : Nat) : Prop :=
  s.rg (Obj.RECOVERY_STATE p) = rsNone ∧ s.pressBound p ≤ s.rg (Obj.PRESS_TICKS p) * s.rg (Obj.TICK_GRAINS p) * 10 ∧
    (s.rg (Obj.STAGED_STEP p) = 2 ^ 64 - 1 ∨ s.rg (Obj.STAGED_STEP p) = s.rg (Obj.DRAINED_STEP p)) ∧ s.rg (Obj.PRESS_STATE p) ≠ 2

theorem State.pressArm_barred_iff (s : State) (p : Nat) :
    (s.rg (Obj.RECOVERY_STATE p) != rsNone || s.rg (Obj.PRESS_TICKS p) * s.rg (Obj.TICK_GRAINS p) * 10 < s.pressBound p
      || (s.rg (Obj.STAGED_STEP p) != 2 ^ 64 - 1 && s.rg (Obj.STAGED_STEP p) != s.rg (Obj.DRAINED_STEP p))
      || s.rg (Obj.PRESS_STATE p) = 2) = true ↔ ¬ s.mayArm p := by
  unfold State.mayArm
  simp only [Bool.or_eq_true, Bool.and_eq_true, bne_iff_ne, ne_eq, decide_eq_true_eq, not_and_or, not_or, not_le, not_not, or_assoc]

theorem gives_pressArm {sess step : Nat} (hw : s.mayWrite sess (Obj.PRESS_STEP p) step = true) (h : s.mayArm p) :
    Gives (.pressArm sess p step) s (fun t => t.rg (Obj.PRESS_STEP p) = step % 2 ^ 64 ∧ t.rg (Obj.PRESS_STATE p) = 1 ∧ t.parts = s.parts) := by
  refine gives_of_takes (by unfold exec execPressArm State.command; rfl) hw ?_
  unfold State.pressArm
  rw [if_neg (fun hb => (s.pressArm_barred_iff p).1 hb h)]
  obtain ⟨h8, -, -, -, h1⟩ := objBytes_press p
  refine ⟨?_, State.rg_setRg_small h1 (by decide) _, rfl⟩
  exact (State.rg_setRg_ne _ _ (okey_ne_of_sub (by decide))).trans (State.rg_setRg_bytes h8 (by decide) s step)

theorem gives_pressArm_barred {sess step : Nat} (hw : s.mayWrite sess (Obj.PRESS_STEP p) step = true) (h : ¬ s.mayArm p) :
    Gives (.pressArm sess p step) s (fun t => t = s) := by
  refine gives_of_takes (by unfold exec execPressArm State.command; rfl) hw ?_
  unfold State.pressArm
  rw [if_pos ((s.pressArm_barred_iff p).2 h)]

/-! ### Completion -/

theorem gives_pressCopyDone {at_ : Nat} (h : 0 < (s.pt p).suspend) (hd : (s.pt p).pressDone = false) (hst : s.rg (Obj.PRESS_STATE p) = 2) :
    Gives (.pressCopyDone p at_) s (fun t => t.rg (Obj.STAGED_STEP p) = s.rg (Obj.PRESS_STEP p) ∧ t.rg (Obj.PRESS_STATE p) = 3 ∧
      t.rg (Obj.PRESS_COPIES p) = (s.rg (Obj.PRESS_COPIES p) + 1) % 2 ^ 32 ∧ (t.pt p).pressDone = true ∧
      (t.pt p).drain = some ⟨(s.pt p).pressGen, s.rg (Obj.PRESS_STEP p), 0⟩ ∧
      SMap.get? (t.pt p).gens (s.pt p).pressGen = some (s.rg (Obj.PRESS_STEP p)) ∧ t.clusters = s.clusters) := by
  refine gives_of_takes (by unfold exec execPressCopyDone; rfl) (by simp [h, hd, hst]) ?_
  extract_lets s1 gen step s2
  have hcl : (s1.stageAll p gen).clusters = s1.clusters := (State.changes_stageAll s1 p gen).kept .clusters
  have hcop : (s1.stageAll p gen).rg (Obj.PRESS_COPIES p) = s1.rg (Obj.PRESS_COPIES p) :=
    notStored_stageAll s1 p gen _ (notStored_of_index (by omega) (by decide) (.inl (by decide)))
  have hpt : s2.pt p = { (s1.stageAll p gen).pt p with gens := SMap.ins ((s1.stageAll p gen).pt p).gens gen step, pressDone := true, drain := some ⟨gen, step, 0⟩ } :=
    State.pt_modPt_fin ..
  generalize (s1.stageAll p gen).pt p = y at hpt
  have hmod : s2.clusters = s.clusters ∧ s2.rg (Obj.PRESS_COPIES p) = s.rg (Obj.PRESS_COPIES p) := by
    unfold s2
    generalize s1.stageAll p gen = u at hcl hcop ⊢
    rw [State.clusters_modPt, State.rg_modPt]
    exact ⟨hcl, hcop.trans (State.rg_at s at_ _)⟩
  obtain ⟨hcl, hcop⟩ := hmod
  have hstep : step < 2 ^ 64 := s.rg_lt _
  have hsd : step = s.rg (Obj.PRESS_STEP p) := rfl
  have hgd : gen = (s.pt p).pressGen := rfl
  rw [← hsd, ← hgd]
  clear_value s2 step gen
  obtain ⟨-, h8, -, h4, h1⟩ := objBytes_press p
  have hp4 : ((((s2.setRg (Obj.STAGED_STEP p) step).setRg (Obj.PRESS_STATE p) 3)).incRg (Obj.PRESS_COPIES p) 1).pt p = s2.pt p := by
    rw [State.incRg, State.pt_setRg, State.pt_setRg, State.pt_setRg]
  obtain ⟨hne1, hne2, hne3⟩ := press_ne p
  rw [hp4, hpt]
  refine ⟨?_, ?_, ?_, rfl, rfl, SMap.get?_ins_self .., ?_⟩
  · rw [State.rg_incRg_ne _ _ hne2, State.rg_setRg_ne _ _ hne1, State.rg_setRg_bytes h8 (by decide)]
    exact Nat.mod_eq_of_lt hstep
  · rw [State.rg_incRg_ne _ _ hne3]
    exact State.rg_setRg_small h1 (by decide) _
  · rw [State.rg_incRg_bytes h4 (by decide), State.rg_setRg_ne _ _ (Ne.symm hne3), State.rg_setRg_ne _ _ (Ne.symm hne2), hcop]
  · exact Eq.trans ((State.changes_incRg ..).kept .clusters)
      (Eq.trans ((State.changes_setRg ..).kept .clusters) (Eq.trans ((State.changes_setRg ..).kept .clusters) hcl))

/-! ### Drain windows -/

theorem execDrainWindow_eq {row acked : Nat} {piece : Option DrainPiece} {r : SliceRun} {w : DrainRow} (hr : (s.pt p).slice = some r)
    (hw : ((s.drainPlan p (s.blockOf p r.job)).getD [])[row]? = some w) (hn : w.slice = r.number) :
    exec (.drainWindow p row acked piece) s = .next (if w.dir = 0
      then (s.at ((s.pt p).edgeNs + w.start)).drainSend p (Nat.min acked w.room)
      else match piece with
        | some x => (s.at ((s.pt p).edgeNs + w.start)).drainTake p x
        | none => s.at ((s.pt p).edgeNs + w.start)) := by
  show execDrainWindow p row acked piece s = _
  unfold execDrainWindow
  rw [hr]
  dsimp only
  rw [hw]
  exact takes_of (by simp [hn]) _ _

/-- What a sender's window does, by the bytes that it sends. -/
theorem State.drainSend_eq {d : Drain} (hd : (s.pt p).drain = some d) (acked : Nat) {n : Nat}
    (hn : Nat.min acked (s.genEnd p d.gen - d.cursor) = n) :
    s.drainSend p acked =
      (let u := if n = 0 then s else s.emit (.drain p ⟨d.gen, d.step, d.cursor, (List.range n).map (fun i =>
        s.memByte (s.genByteAddr p d.gen (d.cursor + i))), decide (d.cursor + n = s.genEnd p d.gen)⟩)
      if d.cursor + n = s.genEnd p d.gen
        then ((u.modPt p (fun x => { x with drain := none })).setRg (Obj.DRAINED_STEP p) d.step).setRg (Obj.PRESS_STATE p) 4
        else u.modPt p (fun x => { x with drain := some ⟨d.gen, d.step, d.cursor + n⟩ })) := by
  subst hn
  unfold State.drainSend
  rw [hd]

/-- The sending state differs from the one before it in what has been sent. -/
theorem State.drain_emitted {c : Prop} [Decidable c] (u : State) (x : Sent) : (if c then u else u.emit x).parts = u.parts ∧
    (if c then u else u.emit x).regs = u.regs ∧ (if c then u else u.emit x).mem = u.mem ∧
    (¬ c → (if c then u else u.emit x).out = x :: u.out) := by
  split
  next h => exact ⟨rfl, rfl, rfl, fun hn => absurd h hn⟩
  next h => exact ⟨rfl, rfl, rfl, fun _ => rfl⟩

theorem State.drainSend_partial {d : Drain} (hd : (s.pt p).drain = some d) {sent : Nat} (h : d.cursor + sent < s.genEnd p d.gen) :
    ((s.drainSend p sent).pt p).drain = some ⟨d.gen, d.step, d.cursor + sent⟩ ∧
    (s.drainSend p sent).rg (Obj.DRAINED_STEP p) = s.rg (Obj.DRAINED_STEP p) ∧ (s.drainSend p sent).mem = s.mem ∧
    (0 < sent → (s.drainSend p sent).out = .drain p ⟨d.gen, d.step, d.cursor, (List.range sent).map (fun i =>
      s.memByte (s.genByteAddr p d.gen (d.cursor + i))), false⟩ :: s.out) := by
  have hn : Nat.min sent (s.genEnd p d.gen - d.cursor) = sent := Nat.min_eq_left (by omega)
  rw [State.drainSend_eq hd sent hn]
  have hl : decide (d.cursor + sent = s.genEnd p d.gen) = false := decide_eq_false (by omega)
  dsimp only
  rw [if_neg (by omega : ¬ d.cursor + sent = s.genEnd p d.gen), hl]
  obtain ⟨-, hr, hm, ho⟩ := State.drain_emitted (c := sent = 0) s (.drain p ⟨d.gen, d.step, d.cursor, (List.range sent).map (fun i =>
    s.memByte (s.genByteAddr p d.gen (d.cursor + i))), false⟩)
  generalize (if sent = 0 then s else _ : State) = u at hr hm ho
  refine ⟨?_, rg_of_regs hr _, hm, fun h0 => ho (by omega)⟩
  exact congrArg Part.drain (State.pt_modPt_fin u p _)

theorem State.drainSend_whole {d : Drain} (hd : (s.pt p).drain = some d) {sent : Nat} (h : d.cursor ≤ s.genEnd p d.gen)
    (h' : s.genEnd p d.gen ≤ d.cursor + sent) :
    ((s.drainSend p sent).pt p).drain = none ∧ (s.drainSend p sent).rg (Obj.DRAINED_STEP p) = d.step % 2 ^ 64 ∧
    (s.drainSend p sent).rg (Obj.PRESS_STATE p) = 4 ∧ (s.drainSend p sent).mem = s.mem := by
  have hn : Nat.min sent (s.genEnd p d.gen - d.cursor) = s.genEnd p d.gen - d.cursor := Nat.min_eq_right (by omega)
  rw [State.drainSend_eq hd sent hn]
  dsimp only
  rw [if_pos (by omega : d.cursor + (s.genEnd p d.gen - d.cursor) = s.genEnd p d.gen)]
  obtain ⟨-, -, hm, -⟩ := State.drain_emitted (c := s.genEnd p d.gen - d.cursor = 0) s (.drain p ⟨d.gen, d.step, d.cursor,
    (List.range (s.genEnd p d.gen - d.cursor)).map (fun i => s.memByte (s.genByteAddr p d.gen (d.cursor + i))),
    decide (d.cursor + (s.genEnd p d.gen - d.cursor) = s.genEnd p d.gen)⟩)
  generalize (if s.genEnd p d.gen - d.cursor = 0 then s else _ : State) = u at hm
  obtain ⟨-, -, h8, -, h1⟩ := objBytes_press p
  have hne : Obj.DRAINED_STEP p ≠ Obj.PRESS_STATE p := okey_ne_of_sub (by decide)
  refine ⟨?_, ?_, State.rg_setRg_small h1 (by decide) _, hm⟩
  · rw [State.pt_setRg, State.pt_setRg]
    exact congrArg Part.drain (State.pt_modPt_fin u p _)
  · rw [State.rg_setRg_ne _ _ hne, State.rg_setRg_bytes h8 (by decide)]

theorem State.drainTake_spec (s : State) (p : PartId) (x : DrainPiece) : (s.drainTake p x).mem = s.mem ∧
    (∀ i, i < x.data.length → SMap.getD 0 ((s.drainTake p x).pt p).held (x.gen % 2 * 2 ^ 48 + x.offset + i) = x.data.getD i 0) ∧
    (x.last = true → SMap.get? ((s.drainTake p x).pt p).heldSteps (x.gen % 2) = some x.step) := by
  unfold State.drainTake
  rw [State.pt_modPt_fin]
  refine ⟨rfl, fun i hi => ?_, fun hl => ?_⟩
  · exact (SMap.getD_putList_in 0 x.data (s.pt p).held _ i hi).trans (by simp [hi])
  · dsimp only
    rw [if_pos hl]
    exact SMap.get?_ins_self ..

end

/-- Settles O51. -/
theorem pressCommands : Obligations.PressCommands := by
  unfold Obligations.PressCommands
  intro p sess step at_ row acked r w x s staged ready
  refine ⟨fun hw => ⟨gives_pressArm hw, gives_pressArm_barred hw⟩, gives_pressCopyDone, fun hr hw hn => ?_⟩
  intro sent
  refine ⟨fun d hdir hd => ⟨fun h => ?_, fun h h' => ?_⟩, fun hdir => ?_⟩
  · have hx := execDrainWindow_eq (acked := acked) (piece := none) hr hw hn
    rw [if_pos hdir] at hx
    exact gives_of_next hx (State.drainSend_partial (s := s.at _) hd h)
  · have hx := execDrainWindow_eq (acked := acked) (piece := none) hr hw hn
    rw [if_pos hdir] at hx
    exact gives_of_next hx (State.drainSend_whole (s := s.at _) hd h h')
  · have hx := execDrainWindow_eq (acked := acked) (piece := some x) hr hw hn
    rw [if_neg hdir] at hx
    exact gives_of_next hx (State.drainTake_spec (s.at _) p x)

end Sys2Proof.Machine

/-! ## Snapshots, counter images and the crown-core trace (R485 to R488, R491 to R494) -/

namespace Sys2Proof.Machine
open Sys2Proof

-- Short theorems, many of them: one after another, so that the threads' stacks stay within the check's memory.
set_option Elab.async false

section
variable {p : PartId} {s : State}

theorem objBytes_observe (p : PartId) : objBytes (Obj.SNAPSHOT_STATE p) ≠ some 0 ∧ objBytes (Obj.IMAGES_WRITTEN p) = some 8 ∧
    objBytes (Obj.TRACE_STATE p) ≠ some 0 ∧ objBytes (Obj.SPILL_WRITTEN p) = some 8 := by
  revert p
  decide +kernel

theorem SameMemoryOutside.trans {a n : Nat} {s t u : State} (h : SameMemoryOutside a n s t) (h' : SameMemoryOutside a n t u) :
    SameMemoryOutside a n s u := fun b hb => (h' b hb).trans (h b hb)

/-! ### Snapshots -/

theorem gives_snapshot {sess : Nat} (hw : s.mayWrite sess (Obj.COUNTER_COMMAND p) 1 = true) (hst : s.rg (Obj.SNAPSHOT_STATE p) ≠ 1)
    (hb : (s.pt p).built ≠ none) : Gives (.snapshot sess p) s (fun t =>
      (t.pt p).snapAt = some (s.grain + 1) ∧ t.rg (Obj.SNAPSHOT_STATE p) = 1 ∧ t.open_ = s.open_) := by
  refine gives_of_takes (by unfold exec execSnapshot State.command; rfl) hw ?_
  unfold State.snapshot
  rw [if_neg (by simp [hst, hb])]
  refine ⟨?_, State.rg_setRg_small (objBytes_observe p).1 (by decide) _, rfl⟩
  rw [State.pt_setRg, State.pt_modPt_fin]

theorem gives_snapshot_pending {sess : Nat} (hw : s.mayWrite sess (Obj.COUNTER_COMMAND p) 1 = true) (hst : s.rg (Obj.SNAPSHOT_STATE p) = 1) :
    Gives (.snapshot sess p) s (fun t => t = s) := by
  refine gives_of_takes (by unfold exec execSnapshot State.command; rfl) hw ?_
  unfold State.snapshot
  rw [if_pos (by simp [hst])]

theorem State.takeSnapshot_spec (s : State) (p : PartId) (g : Nat) : ((s.takeSnapshot p g).pt p).snapAt = none ∧
    (s.takeSnapshot p g).rg (Obj.SNAPSHOT_STATE p) = 2 ∧ ((s.takeSnapshot p g).pt p).snapTick = (s.pt p).gen.tick := by
  have hgen : ((s.switchBanks p g).pt p).gen = (s.pt p).gen := (State.changes_switchBanks ..).kept (.part .gen) rfl p
  unfold State.takeSnapshot
  extract_lets from_ s1 s2
  have hs2 : (s2.pt p).snapAt = none ∧ (s2.pt p).snapTick = (s.pt p).gen.tick := by
    unfold s2
    rw [State.pt_modPt_fin]
    exact ⟨rfl, congrArg TickGen.tick hgen⟩
  clear_value s2
  rw [State.pt_notify, State.pt_setRg]
  exact ⟨hs2.1, (rg_of_regs (State.regs_notify ..) _).trans (State.rg_setRg_small (objBytes_observe p).1 (by decide) _), hs2.2⟩

theorem gives_snapshotSwitch {g : Nat} (hg : (s.pt p).snapAt = some g)
    (hb : (s.pt p).gen.begun = false ∨ g < (s.pt p).gen.start + (s.pt p).gen.len) :
    Gives (.snapshotSwitch p) s (fun t => (t.pt p).snapAt = none ∧ t.rg (Obj.SNAPSHOT_STATE p) = 2 ∧ (t.pt p).snapTick = (s.pt p).gen.tick ∧
      t.now = Nat.max s.now (g * 10000) ∧ t.mem = s.mem) := by
  have he : exec (.snapshotSwitch p) s = .next ((s.at (g * 10000)).takeSnapshot p g) := by
    show execSnapshotSwitch p s = _
    unfold execSnapshotSwitch
    rw [hg]
    exact takes_of (by simpa using hb) _ _
  obtain ⟨h1, h2, h3⟩ := (s.at (g * 10000)).takeSnapshot_spec p g
  exact gives_of_next he ⟨h1, h2, h3, (State.changes_takeSnapshot ..).kept .now, (State.changes_takeSnapshot ..).kept .mem⟩

/-! ### Counter images -/

/-- The job that an image names: that of the SETTLE whose interval the image ends. -/
def Part.imageJob (x : Part) : Nat :=
  match x.settling with
  | some z => if 2 ≤ x.imgFlags ∧ z.mode = 1 then z.jobId else 0
  | none => 0

/-- The address of the row that an image of tick `n` is written into. -/
def State.imageRow (s : State) (p n : Nat) : Nat :=
  ResEntry.curAddr (s.resE (s.rg (Obj.COUNTER_ENTRY p))) +
    n / s.rg (Obj.IMAGE_EVERY p) % Rs.rows.get (s.resE (s.rg (Obj.COUNTER_ENTRY p))) * 4 * Rs.cols.get (s.resE (s.rg (Obj.COUNTER_ENTRY p)))

theorem State.writeImage_eq (s : State) (p n : Nat) : s.writeImage p n =
    (((s.store (s.imageRow p n) (goodBytes (s.counterImage p (s.pt p).imgHold (s.pt p).imgSpan n (s.pt p).imgFlags (s.pt p).imageJob))).tear p
      (s.rg (Obj.COUNTER_ENTRY p)) (Rs.cur.get (s.resE (s.rg (Obj.COUNTER_ENTRY p))))).modPt p
        (fun x => { x with imgDue := none, imgHold := [] })).incRg (Obj.IMAGES_WRITTEN p) 1 := by
  have hjob : (match (s.pt p).settling with
      | some z => if ((s.pt p).imgFlags ≥ 2 && z.mode = 1) = true then z.jobId else 0
      | none => 0) = (s.pt p).imageJob := by
    unfold Part.imageJob
    cases (s.pt p).settling with
    | none => rfl
    | some z => exact if_congr (by simp) rfl rfl
  rw [← hjob]
  rfl

theorem State.writeImage_spec (s : State) (p : PartId) (n : Nat) {img : List Byte}
    (hi : s.counterImage p (s.pt p).imgHold (s.pt p).imgSpan n (s.pt p).imgFlags (s.pt p).imageJob = img) :
    ((s.writeImage p n).pt p).imgDue = none ∧
    (s.writeImage p n).rg (Obj.IMAGES_WRITTEN p) = (s.rg (Obj.IMAGES_WRITTEN p) + 1) % 2 ^ 64 ∧
    SameMemoryOutside (s.imageRow p n) img.length s (s.writeImage p n) ∧
    ((∀ j, j < img.length → s.writable (s.imageRow p n + j) = true) → (s.writeImage p n).memBytes (s.imageRow p n) img.length = img) := by
  have hreg : (s.store (s.imageRow p n) (goodBytes img)).rg (Obj.IMAGES_WRITTEN p) = s.rg (Obj.IMAGES_WRITTEN p) :=
    notStored_store s _ _ _ (notStored_of_index (by omega) (by decide) (.inl (by decide)))
  have hout := State.sameMemoryOutside_store s (s.imageRow p n) (goodBytes img)
  rw [length_goodBytes] at hout
  have hin := State.memBytes_store s (a := s.imageRow p n) (l := img)
  rw [State.writeImage_eq, hi]
  generalize s.store (s.imageRow p n) (goodBytes img) = u at hreg hout hin
  unfold State.tear
  refine ⟨?_, ?_, hout, hin⟩
  · rw [State.pt_incRg, State.pt_modPt_fin]
  · rw [State.rg_incRg_bytes (objBytes_observe p).2.1 (by decide), State.rg_modPt, State.rg_modPt, hreg]

theorem gives_counterImageWrite {n : Nat} {post : State → Prop} (hd : (s.pt p).imgDue = some n)
    (hf : s.counterFits p (s.rg (Obj.COUNTER_ENTRY p)) = true) (h : post (s.writeImage p n)) : Gives (.counterImageWrite p) s post := by
  have he : exec (.counterImageWrite p) s = .next (s.writeImage p n) := by
    show execCounterImageWrite p s = _
    unfold execCounterImageWrite
    rw [hd]
    exact takes_of hf _ _
  exact gives_of_next he h

/-! ### The trace: arm, stop and trigger -/

theorem State.nodup_traced (s : State) (p : Nat) : (s.traced p).Nodup := by
  unfold State.traced
  split
  · exact (nodup_maskList ..).filter _
  · exact List.nodup_nil

theorem State.traced_lt {c : Nat} (h : c ∈ s.traced p) : c < 48 := by
  unfold State.traced at h
  split at h
  · exact (mem_maskList.1 (List.mem_of_mem_filter h)).1
  · cases h

theorem gives_traceArm {sess : Nat} (c : ClusterId) (hw : s.mayWrite sess (Obj.TRACE_COMMAND p) 1 = true)
    (hm : s.rg (Obj.TRACE_MODE p) ≠ tmSpill) : Gives (.traceArm sess p) s (fun t =>
      t.rg (Obj.TRACE_STATE p) = tsRecording ∧ (t.pt p).trigger = none ∧ (t.pt p).triggerDone = false ∧
      (t.cl c).trace = (if (s.traced p).contains c.val then TraceBuf.empty else (s.cl c).trace)) := by
  refine gives_of_takes (by unfold exec execTraceArm State.command; rfl) hw ?_
  unfold State.traceArm
  rw [if_neg (by simp [hm])]
  extract_lets s1
  have hcl : s1.cl c = if c.val ∈ s.traced p then { s.cl c with trace := TraceBuf.empty } else s.cl c :=
    State.cl_foldl_modCl (fun _ cl => { cl with trace := TraceBuf.empty }) c (s.nodup_traced p) s
  clear_value s1
  refine ⟨State.rg_setRg_small (objBytes_observe p).2.2.1 (by decide) _, ?_, ?_, ?_⟩
  · rw [State.pt_setRg, State.pt_modPt_fin]
  · rw [State.pt_setRg, State.pt_modPt_fin]
  · show (s1.cl c).trace = _
    by_cases hc : c.val ∈ s.traced p
    · rw [hcl, if_pos hc, if_pos (List.contains_iff_mem.2 hc)]
    · rw [hcl, if_neg hc, if_neg (fun h => hc (List.contains_iff_mem.1 h))]

theorem gives_traceStop {sess : Nat} (hw : s.mayWrite sess (Obj.TRACE_COMMAND p) 2 = true) : Gives (.traceStop sess p) s (fun t =>
    t.rg (Obj.TRACE_STATE p) = (if s.rg (Obj.TRACE_STATE p) = tsRecording then tsStopped else s.rg (Obj.TRACE_STATE p)) ∧
    t.clusters = s.clusters) := by
  refine gives_of_takes (by unfold exec execTraceStop State.command; rfl) hw ?_
  unfold State.traceStop
  dsimp only
  split
  · exact ⟨State.rg_setRg_small (objBytes_observe p).2.2.1 (by decide) _, rfl⟩
  · exact ⟨rfl, rfl⟩

/-- A TRIGGER record in a buffer that still records. -/
theorem TraceBuf.trigger_running {b : TraceBuf} (h : b.halted = false) (r : BitVec 128) (post : Nat) :
    (b.trigger r post).trig = some b.wp ∧ (b.trigger r post).post = some post := by
  unfold TraceBuf.trigger
  rw [if_neg (by simp [h])]
  exact ⟨rfl, rfl⟩

theorem gives_traceTrigger {c : ClusterId} {cyc : Nat} (ht : (s.pt p).trigger = some (c.val, cyc)) (hd : (s.pt p).triggerDone = false)
    (hst : s.rg (Obj.TRACE_STATE p) = tsRecording) (hsc : s.rg (Obj.TRIGGER_SCOPE p) ≠ 1) (hh : (s.cl c).trace.halted = false) :
    Gives (.traceTrigger p) s (fun t => (t.pt p).triggerDone = true ∧ (t.cl c).trace.trig = some (s.cl c).trace.wp ∧
      (t.cl c).trace.post = some (traceDepth * (100 - s.rg (Obj.PRE_PERCENT p)) / 100) ∧ SameOtherClusters c s t) := by
  obtain ⟨t, he, hp⟩ : ∃ t, execTraceTrigger p s = .next t ∧ t = (s.modTrace c (fun b => b.trigger
      (traceRecord trTrigger (s.rg (Obj.TRIGGER_KIND p)) c cyc c) (traceDepth * (100 - s.rg (Obj.PRE_PERCENT p)) / 100))).modPt p
        (fun x => { x with triggerDone := true }) := by
    unfold execTraceTrigger
    rw [ht]
    refine ⟨_, takes_of (by simp [hd, hst]) _ _, ?_⟩
    simp only [hsc, if_false]
    rfl
  refine ⟨t, he, ?_⟩
  obtain ⟨h1, h2⟩ := TraceBuf.trigger_running hh (traceRecord trTrigger (s.rg (Obj.TRIGGER_KIND p)) c cyc c)
    (traceDepth * (100 - s.rg (Obj.PRE_PERCENT p)) / 100)
  rw [hp]
  have hc : ∀ (u : State) (f : Part → Part) (d : Nat), (u.modPt p f).cl d = u.cl d := fun _ _ _ => rfl
  refine ⟨by rw [State.pt_modPt_fin], ?_, ?_, fun d hdc => ?_⟩
  · rw [hc, State.modTrace, State.cl_modCl_fin]
    exact h1
  · rw [hc, State.modTrace, State.cl_modCl_fin]
    exact h2
  · rw [hc, State.modTrace, State.cl_modCl_ne _ (fun h => hdc (Fin.ext h))]

/-! ### Buffers that are frozen or full -/

/-- A buffer that has been told, with its notification. -/
def State.toldTrace (s : State) (c : ClusterId) (code part a : Nat) : State :=
  (s.modTrace c (fun b => { b with told := true })).notify code part c a

theorem State.cl_toldTrace (s : State) (c : ClusterId) (code part a : Nat) :
    ((s.toldTrace c code part a).cl c).trace.told = true ∧ SameOtherClusters c s (s.toldTrace c code part a) ∧
    ∀ d, ((s.toldTrace c code part a).cl d).trace.trig = (s.cl d).trace.trig ∧
      ((s.toldTrace c code part a).cl d).trace.halted = (s.cl d).trace.halted := by
  have hc : ∀ d, (s.toldTrace c code part a).cl d = (s.modCl c (fun cl => { cl with trace := { cl.trace with told := true } })).cl d := fun _ => rfl
  refine ⟨?_, fun d hd => ?_, fun d => ?_⟩
  · rw [hc, State.cl_modCl_fin]
  · rw [hc, State.cl_modCl_ne _ (fun h => hd (Fin.ext h))]
  · rw [hc]
    by_cases hd : d = c
    · subst hd
      rw [State.cl_modCl_fin]
      exact ⟨rfl, rfl⟩
    · rw [State.cl_modCl_ne _ hd]
      exact ⟨rfl, rfl⟩

theorem State.traced_toldTrace (s : State) (c : ClusterId) (code part a : Nat) : (s.toldTrace c code part a).traced p = s.traced p := rfl

theorem List.all_congr_fun {α : Type} {l : List α} {f g : α → Bool} (h : ∀ x, f x = g x) : l.all f = l.all g := by
  rw [funext h]

/-- A told buffer whose partition's state follows where `q` holds. -/
theorem State.toldTrace_state (s : State) (c : ClusterId) (code part a : Nat) (q : Prop) [Decidable q] {v : Nat} (hv : v < 256)
    (hst : s.rg (Obj.TRACE_STATE p) = tsRecording) {t : State}
    (ht : t = if q then (s.toldTrace c code part a).setRg (Obj.TRACE_STATE p) v else s.toldTrace c code part a) :
    (t.cl c).trace.told = true ∧ t.rg (Obj.TRACE_STATE p) = (if q then v else tsRecording) ∧ SameOtherClusters c s t := by
  obtain ⟨h1, h2, -⟩ := s.cl_toldTrace c code part a
  have hr : (s.toldTrace c code part a).rg (Obj.TRACE_STATE p) = tsRecording := hst
  rw [ht]
  by_cases hq : q
  · rw [if_pos hq, if_pos hq]
    exact ⟨h1, State.rg_setRg_small (objBytes_observe p).2.2.1 hv _, h2⟩
  · rw [if_neg hq, if_neg hq]
    exact ⟨h1, hr, h2⟩

variable {c : ClusterId}

theorem gives_traceFrozen (ho : s.ownerOfCluster c = some p.val) (hst : s.rg (Obj.TRACE_STATE p) = tsRecording)
    (hh : (s.cl c).trace.halted = true) (ht : (s.cl c).trace.told = false) (hm : s.rg (Obj.TRACE_MODE p) = tmTrigger)
    (htr : (s.cl c).trace.trig.isSome = true) : Gives (.traceFrozen c) s (fun t => (t.cl c).trace.told = true ∧
      t.rg (Obj.TRACE_STATE p) = (if s.allFrozen p then tsFrozen else tsRecording) ∧ SameOtherClusters c s t) := by
  have hall : (s.toldTrace c 0x00A2 p (s.rg (Obj.TRIGGER_TICK p))).allFrozen p = s.allFrozen p := by
    unfold State.allFrozen
    rw [State.traced_toldTrace]
    refine List.all_congr_fun fun d => ?_
    obtain ⟨h1, h2⟩ := (s.cl_toldTrace c 0x00A2 p (s.rg (Obj.TRIGGER_TICK p))).2.2 d
    rw [h1, h2]
  have he : exec (.traceFrozen c) s = .next (if s.allFrozen p then (s.toldTrace c 0x00A2 p (s.rg (Obj.TRIGGER_TICK p))).setRg (Obj.TRACE_STATE p) tsFrozen
      else s.toldTrace c 0x00A2 p (s.rg (Obj.TRIGGER_TICK p))) := by
    rw [← hall]
    show execTraceFrozen c s = _
    unfold execTraceFrozen
    rw [ho]
    exact takes_of (by simp [hm, hst, htr, hh, ht]) _ _
  exact gives_of_next he (s.toldTrace_state c _ _ _ _ (by decide) hst rfl)

theorem gives_traceStoppedFull (ho : s.ownerOfCluster c = some p.val) (hst : s.rg (Obj.TRACE_STATE p) = tsRecording)
    (hh : (s.cl c).trace.halted = true) (ht : (s.cl c).trace.told = false) (hm : s.rg (Obj.TRACE_MODE p) = tmStop) :
    Gives (.traceStoppedFull c) s (fun t => (t.cl c).trace.told = true ∧
      t.rg (Obj.TRACE_STATE p) = (if (s.traced p).all (fun d => (s.cl d).trace.halted) then tsStopped else tsRecording) ∧
      SameOtherClusters c s t) := by
  have hall : ((s.toldTrace c 0x00A3 p (s.pt p).gen.tick).traced p).all (fun d => ((s.toldTrace c 0x00A3 p (s.pt p).gen.tick).cl d).trace.halted) =
      (s.traced p).all (fun d => (s.cl d).trace.halted) :=
    List.all_congr_fun fun d => ((s.cl_toldTrace c 0x00A3 p (s.pt p).gen.tick).2.2 d).2
  have he : exec (.traceStoppedFull c) s = .next (if (s.traced p).all (fun d => (s.cl d).trace.halted) then
      (s.toldTrace c 0x00A3 p (s.pt p).gen.tick).setRg (Obj.TRACE_STATE p) tsStopped else s.toldTrace c 0x00A3 p (s.pt p).gen.tick) := by
    rw [← hall]
    show execTraceStoppedFull c s = _
    unfold execTraceStoppedFull
    rw [ho]
    exact takes_of (by simp [hm, hst, hh, ht]) _ _
  exact gives_of_next he (s.toldTrace_state c _ _ _ _ (by decide) hst rfl)

end

/-! ### The spill ring -/

section
variable {p : PartId} {s t u : State} {i : Nat}

/-- What `n` spilled records leave: clusters and tables stay, each is counted, and no byte outside the ring is written. -/
structure Spills (p : PartId) (i n : Nat) (s t : State) : Prop where
  clusters : t.clusters = s.clusters
  res : t.res = s.res
  count : t.rg (Obj.SPILL_WRITTEN p) = (s.rg (Obj.SPILL_WRITTEN p) + n) % 2 ^ 64
  mem : 0 < Rs.rows.get (s.resE i) → SameMemoryOutside (ResEntry.curAddr (s.resE i)) (16 * Rs.rows.get (s.resE i)) s t

theorem State.resE_congr (h : t.res = s.res) (i : Nat) : t.resE i = s.resE i := by
  unfold State.resE
  rw [h]

theorem Spills.refl (p : PartId) (i : Nat) (s : State) : Spills p i 0 s s :=
  ⟨rfl, rfl, (Nat.mod_eq_of_lt (s.rg_lt _)).symm, fun _ _ _ => rfl⟩

theorem Spills.trans {m n : Nat} (h : Spills p i m s t) (h' : Spills p i n t u) : Spills p i (m + n) s u := by
  refine ⟨h'.clusters.trans h.clusters, h'.res.trans h.res, ?_, fun hr => ?_⟩
  · rw [h'.count, h.count, Nat.mod_add_mod, Nat.add_assoc]
  · have he := State.resE_congr h.res i
    have hm := h'.mem (by rw [he]; exact hr)
    rw [he] at hm
    exact (h.mem hr).trans hm

theorem State.spills_spillOne (s : State) (p : PartId) (i : Nat) (r : BitVec 128) : Spills p i 1 s (s.spillOne p i r) := by
  refine ⟨(State.changes_spillOne ..).kept .clusters, (State.changes_spillOne ..).kept .res, ?_, fun hr b hb => ?_⟩
  · unfold State.spillOne
    extract_lets e n
    have hn : NotStored (Obj.SPILL_WRITTEN p) := notStored_of_index (by omega) (by decide) (.inl (by decide))
    rw [State.rg_incRg_bytes (objBytes_observe p).2.2.2 (by decide), notStored_store s _ _ _ hn]
  · have hlt : s.rg (Obj.SPILL_WRITTEN p) % Rs.rows.get (s.resE i) < Rs.rows.get (s.resE i) := Nat.mod_lt _ hr
    refine State.sameMemoryOutside_store s (ResEntry.curAddr (s.resE i) + 16 * (s.rg (Obj.SPILL_WRITTEN p) % Rs.rows.get (s.resE i)))
      (goodBytes (leBytes 16 r.toNat)) b ?_
    rw [length_goodBytes, length_leBytes]
    omega

theorem State.spills_foldl (p : PartId) (i : Nat) (rs : List (BitVec 128)) (s : State) :
    Spills p i rs.length s (rs.foldl (fun u r => u.spillOne p i r) s) := by
  induction rs generalizing s with
  | nil => exact .refl p i s
  | cons r rs ih =>
    rw [List.foldl_cons, List.length_cons, Nat.add_comm]
    exact (s.spills_spillOne p i r).trans (ih _)

/-- One cluster drained, of at most so many records. -/
def State.spillCluster (p i : Nat) (t : State × Nat) (c : Nat) : State × Nat :=
  let (rs, b) := (t.1.cl c).trace.take t.2
  (rs.foldl (fun u r => u.spillOne p i r) (t.1.modTrace c (fun _ => b)), t.2 - rs.length)

/-- What draining the clusters of a list leaves. -/
structure Drains (p : PartId) (i : Nat) (l : List Nat) (s t : State) : Prop where
  others : ∀ c, c ∉ l → t.cl c = s.cl c
  filled : ∀ c, (t.cl c).trace.filled ≤ (s.cl c).trace.filled
  res : t.res = s.res
  count : t.rg (Obj.SPILL_WRITTEN p) = (s.rg (Obj.SPILL_WRITTEN p) + (l.map (fun d => (s.cl d).trace.filled - (t.cl d).trace.filled)).sum) % 2 ^ 64
  mem : 0 < Rs.rows.get (s.resE i) → SameMemoryOutside (ResEntry.curAddr (s.resE i)) (16 * Rs.rows.get (s.resE i)) s t

/-- Draining one cluster takes so many records from its buffer. -/
theorem State.drains_spillCluster {c : Nat} (hc : c < 48) (s : State) (n : Nat) : Drains p i [c] s (State.spillCluster p i (s, n) c).1 := by
  let k := Nat.min n (s.cl c).trace.filled
  have hk : k ≤ (s.cl c).trace.filled := Nat.min_le_right ..
  obtain ⟨rs, hlen, hst⟩ : ∃ rs : List (BitVec 128), rs.length = k ∧ (State.spillCluster p i (s, n) c).1 =
      rs.foldl (fun u r => u.spillOne p i r) (s.modTrace c (fun b => { b with filled := b.filled - k })) := by
    refine ⟨((s.cl c).trace.take n).1, (List.length_map ..).trans List.length_range, ?_⟩
    have hm : s.modTrace c (fun _ => ((s.cl c).trace.take n).2) = s.modTrace c (fun b => { b with filled := b.filled - k }) := rfl
    rw [← hm]
    rfl
  have hsp := State.spills_foldl p i rs (s.modTrace c (fun b => { b with filled := b.filled - k }))
  rw [← hst, hlen] at hsp
  generalize (State.spillCluster p i (s, n) c).1 = t at hsp
  have hcl : ∀ d, t.cl d = (s.modTrace c (fun b => { b with filled := b.filled - k })).cl d := fun d => by
    unfold State.cl
    rw [hsp.clusters]
  have hself : (t.cl c).trace.filled = (s.cl c).trace.filled - k := by
    rw [hcl, State.modTrace, State.cl_modCl_self _ hc]
  have hne : ∀ d, d ≠ c → t.cl d = s.cl d := fun d hd => by rw [hcl, State.modTrace, State.cl_modCl_ne _ hd]
  refine ⟨fun d hd => hne d (by simpa using hd), fun d => ?_, hsp.res, ?_, hsp.mem⟩
  · by_cases hd : d = c
    · rw [hd, hself]
      exact Nat.sub_le ..
    · rw [hne d hd]
  · rw [hsp.count, List.map_singleton, List.sum_singleton, hself, Nat.sub_sub_self hk]
    rfl

/-- Draining clusters one after another, none twice. -/
theorem State.drains_foldl {l : List Nat} (hl : l.Nodup) (h48 : ∀ c ∈ l, c < 48) (s : State) (n : Nat) :
    Drains p i l s (l.foldl (State.spillCluster p i) (s, n)).1 := by
  induction l generalizing s n with
  | nil => exact ⟨fun _ _ => rfl, fun _ => le_refl _, rfl, (Nat.mod_eq_of_lt (s.rg_lt _)).symm, fun _ _ _ => rfl⟩
  | cons c l ih =>
    obtain ⟨hcl, hl'⟩ := List.nodup_cons.1 hl
    have h1 := State.drains_spillCluster (p := p) (i := i) (h48 c List.mem_cons_self) s n
    rw [List.foldl_cons]
    generalize State.spillCluster p i (s, n) c = x at h1
    have h2 := ih hl' (fun d hd => h48 d (List.mem_cons_of_mem _ hd)) x.1 x.2
    generalize List.foldl (State.spillCluster p i) (x.1, x.2) l = y at h2
    refine ⟨fun d hd => ?_, fun d => (h2.filled d).trans (h1.filled d), h2.res.trans h1.res, ?_, fun hr => ?_⟩
    · rw [List.mem_cons, not_or] at hd
      rw [h2.others d hd.2, h1.others d (by simpa using hd.1)]
    · have hsum : l.map (fun d => (x.1.cl d).trace.filled - (y.1.cl d).trace.filled) =
          l.map (fun d => (s.cl d).trace.filled - (y.1.cl d).trace.filled) := by
        refine List.map_congr_left fun d hd => ?_
        rw [h1.others d (by rw [List.mem_singleton]; exact fun h => hcl (h ▸ hd))]
      rw [h2.count, h1.count, hsum, List.map_singleton, List.sum_singleton, List.map_cons, List.sum_cons, h2.others c hcl,
        Nat.mod_add_mod, Nat.add_assoc]
    · have he := State.resE_congr h1.res i
      have hm := h2.mem (by rw [he]; exact hr)
      rw [he] at hm
      exact (h1.mem hr).trans hm

/-- What vanishes outside a filter adds nothing to a sum. -/
theorem List.sum_map_filter_eq {l : List Nat} {q : Nat → Bool} {f : Nat → Nat} (h : ∀ x ∈ l, q x = false → f x = 0) :
    ((l.filter q).map f).sum = (l.map f).sum := by
  induction l with
  | nil => rfl
  | cons x l ih =>
    have ih := ih fun y hy => h y (List.mem_cons_of_mem _ hy)
    cases hq : q x with
    | false => rw [List.filter_cons_of_neg (by simp [hq]), ih, List.map_cons, List.sum_cons, h x List.mem_cons_self hq, Nat.zero_add]
    | true => rw [List.filter_cons_of_pos hq, List.map_cons, List.map_cons, List.sum_cons, List.sum_cons, ih]

theorem gives_traceSpill {c : ClusterId} {w n : Nat} {win : Window} (hw : (s.windows p "$trace.spill")[w]? = some win)
    (hm : s.rg (Obj.TRACE_MODE p) = tmSpill) (hst : s.rg (Obj.TRACE_STATE p) = tsRecording) (hb : (s.pt p).gen.begun = true)
    (hf : s.spillFits p (s.rg (Obj.SPILL_ENTRY p)) = true) (hu : s.unitOf p win.unit = some n) :
    Gives (.traceSpill p w) s (fun t => (t.cl c).trace.filled ≤ (s.cl c).trace.filled ∧
      (0 < Rs.rows.get (s.resE (s.rg (Obj.SPILL_ENTRY p))) → SameMemoryOutside (ResEntry.curAddr (s.resE (s.rg (Obj.SPILL_ENTRY p))))
        (16 * Rs.rows.get (s.resE (s.rg (Obj.SPILL_ENTRY p)))) s t) ∧
      (quarterOf12 c ≠ unitQuarter n → t.cl c = s.cl c) ∧ t.rg (Obj.SPILL_WRITTEN p) =
        (s.rg (Obj.SPILL_WRITTEN p) + ((s.traced p).map (fun d => (s.cl d).trace.filled - (t.cl d).trace.filled)).sum) % 2 ^ 64) := by
  have he : exec (.traceSpill p w) s = .next ((((s.traced p).filter (fun c => quarterOf12 c == unitQuarter n)).foldl
      (State.spillCluster p (s.rg (Obj.SPILL_ENTRY p))) (s.at ((s.pt p).edgeNs + win.startNs), 4 * (win.durationNs * 19 / 10))).1) := by
    show execTraceSpill p w s = _
    unfold execTraceSpill
    rw [hw]
    refine (takes_of (by simp [hm, hst, hb, hf]) _ _).trans ?_
    dsimp only
    rw [hu]
    rfl
  refine gives_of_next he ?_
  have hd := State.drains_foldl (p := p) (i := s.rg (Obj.SPILL_ENTRY p)) ((s.nodup_traced p).filter (fun c => quarterOf12 c == unitQuarter n))
    (fun c hc => State.traced_lt (List.mem_of_mem_filter hc)) (s.at ((s.pt p).edgeNs + win.startNs)) (4 * (win.durationNs * 19 / 10))
  generalize (((s.traced p).filter (fun c => quarterOf12 c == unitQuarter n)).foldl
      (State.spillCluster p (s.rg (Obj.SPILL_ENTRY p))) (s.at ((s.pt p).edgeNs + win.startNs), 4 * (win.durationNs * 19 / 10))).1 = t at hd
  refine ⟨hd.filled c, hd.mem, fun hq => hd.others c (fun h => hq (by simpa using (List.mem_filter.1 h).2)), ?_⟩
  rw [hd.count, List.sum_map_filter_eq]
  · rfl
  · intro d _ hq
    rw [hd.others d (fun h => by simp [(List.mem_filter.1 h).2] at hq)]
    exact Nat.sub_self _

end

/-- Settles O53: a spilled record lies inside the ring since its row is a remainder by the ring's rows, and each is counted as its
buffer loses it. -/
theorem snapshotAndTraceCommands : Obligations.SnapshotAndTraceCommands := by
  unfold Obligations.SnapshotAndTraceCommands
  refine ⟨fun p sess s => ⟨fun hw => ⟨gives_snapshot hw, gives_snapshot_pending hw⟩, fun g hg hb => gives_snapshotSwitch hg hb, fun n hd hf =>
    gives_counterImageWrite hd hf ?_⟩, fun p c sess cyc w u win s => ⟨gives_traceArm c, gives_traceStop, gives_traceTrigger,
      fun ho hst hh ht => ⟨gives_traceFrozen ho hst hh ht, gives_traceStoppedFull ho hst hh ht⟩, gives_traceSpill⟩⟩
  exact s.writeImage_spec p n rfl

end Sys2Proof.Machine

/-! ## Tensor dumps (R495 to R498) -/

namespace Sys2Proof.Machine
open Sys2Proof

-- Short theorems, many of them: one after another, so that the threads' stacks stay within the check's memory.
set_option Elab.async false

section
variable {p : PartId} {s : State} {sess n w room g : Nat}

/-! ### Requests -/

theorem State.dump_setDump_self (s : State) (p : PartId) (n : Nat) (d : Dump) : (s.setDump p n d).dump p n = d := by
  unfold State.dump State.setDump
  rw [State.pt_modPt_fin]
  exact SMap.getD_put_self ..

/-- A request that ended. -/
def Dump.ended (d : Dump) (state result : Nat) : Dump := { d with state := state, result := result, due := [], copies := [] }

theorem State.dump_dumpEnd (s : State) (p : PartId) (n state result : Nat) :
    (s.dumpEnd p n state result).dump p n = (s.dump p n).ended state result := by
  have h : (s.dumpEnd p n state result).dump p n = (s.setDump p n ((s.dump p n).ended state result)).dump p n := by
    unfold State.dump State.dumpEnd
    rw [State.pt_notify]
    rfl
  rw [h, State.dump_setDump_self]

/-- The request that a session's window holds. -/
def State.dumpRequest (s : State) (sess p : Nat) : BitVec 512 := BitVec.ofNat 512 (leNat (s.winDom sess (Obj.DUMP_DATA p)))

theorem gives_dumpArm_live (hn : s.win sess (Obj.DUMP_INDEX p) = n) (hw : s.mayWrite sess (Obj.DUMP_COMMAND p) 1 = true)
    (hl : (s.dump p n).live = true) : Gives (.dumpArm sess p) s (fun t => t = s) := by
  refine gives_of_takes (by unfold exec execDumpArm State.command; rfl) hw ?_
  unfold State.dumpArm
  rw [hn]
  dsimp only
  rw [if_pos hl]

theorem gives_dumpArm (hn : s.win sess (Obj.DUMP_INDEX p) = n) (hw : s.mayWrite sess (Obj.DUMP_COMMAND p) 1 = true)
    (hl : (s.dump p n).live = false) : Gives (.dumpArm sess p) s (fun t => (t.dump p n).req = s.dumpRequest sess p ∧
      (t.dump p n).copies = [] ∧ (t.dump p n).state = (if s.dumpCheck p (s.dumpRequest sess p) = 0 then duArmed else duIdle) ∧
      (t.dump p n).result = s.dumpCheck p (s.dumpRequest sess p)) := by
  refine gives_of_takes (by unfold exec execDumpArm State.command; rfl) hw ?_
  unfold State.dumpArm
  rw [hn]
  dsimp only
  rw [if_neg (by simp [hl])]
  show (fun t : State => (t.dump p n).req = s.dumpRequest sess p ∧
      (t.dump p n).copies = [] ∧ (t.dump p n).state = (if s.dumpCheck p (s.dumpRequest sess p) = 0 then duArmed else duIdle) ∧
      (t.dump p n).result = s.dumpCheck p (s.dumpRequest sess p)) (if s.dumpCheck p (s.dumpRequest sess p) = 0 then
        (s.setDump p n { Dump.idle with req := s.dumpRequest sess p, state := duArmed }, Answer.ok)
        else ((s.setDump p n { Dump.idle with req := s.dumpRequest sess p }).dumpEnd p n duIdle (s.dumpCheck p (s.dumpRequest sess p)), Answer.ok)).1
  generalize s.dumpRequest sess p = r
  by_cases hc : s.dumpCheck p r = 0
  · rw [if_pos hc, if_pos hc, hc]
    dsimp only
    rw [State.dump_setDump_self]
    exact ⟨rfl, rfl, rfl, rfl⟩
  · rw [if_neg hc, if_neg hc]
    dsimp only
    rw [State.dump_dumpEnd, State.dump_setDump_self]
    exact ⟨rfl, rfl, rfl, rfl⟩

theorem gives_dumpCancel (hn : s.win sess (Obj.DUMP_INDEX p) = n) (hw : s.mayWrite sess (Obj.DUMP_COMMAND p) 2 = true)
    (hl : (s.dump p n).live = true) : Gives (.dumpCancel sess p) s (fun t =>
      (t.dump p n).state = duDone ∧ (t.dump p n).result = 4 ∧ (t.dump p n).copies = []) := by
  refine gives_of_takes (by unfold exec execDumpCancel State.command; rfl) hw ?_
  unfold State.dumpCancel
  rw [hn]
  dsimp only
  rw [if_pos hl, State.dump_dumpEnd]
  exact ⟨rfl, rfl, rfl⟩

theorem gives_dumpCancel_over (hn : s.win sess (Obj.DUMP_INDEX p) = n) (hw : s.mayWrite sess (Obj.DUMP_COMMAND p) 2 = true)
    (hl : (s.dump p n).live = false) : Gives (.dumpCancel sess p) s (fun t => t = s) := by
  refine gives_of_takes (by unfold exec execDumpCancel State.command; rfl) hw ?_
  unfold State.dumpCancel
  rw [hn]
  dsimp only
  rw [if_neg (by simp [hl])]

/-! ### Captures -/

theorem gives_dumpCapture {rest : List Nat} {d : Dump} (hd : s.dump p n = d) (hdue : d.due = g :: rest) (hl : d.live = true)
    (hs : s.inSweep p (Du.tensor.get d.req) = false) : Gives (.dumpCapture p n) s (fun t => (t.dump p n).due = rest ∧
      (t.dump p n).state = duCopying ∧ t.now = Nat.max s.now (g * 10000) ∧
      ∃ k, (t.dump p n).copies = d.copies ++ [k] ∧ k.index = Du.tensor.get d.req ∧ k.done = 0 ∧ k.torn = false ∧
        k.from_ = ResEntry.curAddr (s.resE k.index)) := by
  have he : exec (.dumpCapture p n) s = .next (s.capture p n g rest) := by
    show execDumpCapture p n s = _
    unfold execDumpCapture
    rw [hd, hdue]
    exact takes_of (by simp [hl, hs]) _ _
  refine gives_of_next he ?_
  unfold State.capture
  extract_lets d' i e c
  have hd' : d' = d := hd
  rw [State.dump_setDump_self]
  refine ⟨rfl, rfl, rfl, c, by rw [hd'], by rw [← hd'], rfl, rfl, rfl⟩

theorem State.unmark_length (s : State) (bs : List (Byte × Bool)) : (s.unmark bs).2.length = bs.length := by
  unfold State.unmark
  split
  · split
    simp
  · simp

/-- What leaves the module depends on the draws alone. -/
theorem State.unmark_congr {s t : State} (h : t.draws = s.draws) (bs : List (Byte × Bool)) : (t.unmark bs).2 = (s.unmark bs).2 := by
  unfold State.unmark
  by_cases hb : bs.any (·.2) = true
  · rw [if_pos hb, if_pos hb]
    show List.map (fun ib : Nat × (Byte × Bool) => if ib.2.2 then Config.freeByte t.draws ib.1 else ib.2.1) _ = _
    rw [h]
    rfl
  · rw [if_neg hb, if_neg hb]

theorem State.captureRead_length {c : DumpCopy} (h : c.done + room < c.bytes) : (s.captureRead c c.done room).2.length = room := by
  unfold State.captureRead
  extract_lets e
  rw [State.unmark_length, List.length_map, List.length_range]
  exact Nat.min_eq_left (by omega)

theorem State.writable_congr {s t : State} (h : t.regs = s.regs) (a : Nat) : t.writable a = s.writable a := by
  unfold State.writable State.region State.cxlBytes State.rg
  rw [h]

/-! ### Windows -/

/-- Bytes of a capture that reach its Residency target, with more to come. -/
theorem State.dumpMove_some {d : Dump} {c : DumpCopy} {more : List DumpCopy} (hd : s.dump p n = d) (hc : d.copies = c :: more)
    (ht : s.dumpTargetOk p d.req = true) (h0 : Du.target.get d.req ≠ 0) (hr : c.done + room < c.bytes) :
    ∃ u : State, u.res = s.res ∧ u.regs = s.regs ∧ u.mem = s.mem ∧ s.dumpMove p n room =
      ((u.store (ResEntry.curAddr (s.resE (Du.destIndex.get d.req)) + (d.next + 64 + c.done)) (goodBytes (s.captureRead c c.done room).2)).tear p
        (Du.destIndex.get d.req) (Rs.cur.get (s.resE (Du.destIndex.get d.req)))).setDump p n
          { d with copies := { c with done := c.done + room } :: more } := by
  have hcr := s.changes_captureRead c c.done room
  refine ⟨(s.captureRead c c.done room).1, hcr.kept .res, hcr.kept .regs, hcr.kept .mem, ?_⟩
  have hlen := State.captureRead_length (s := s) hr
  have hres : ((s.captureRead c c.done room).1).resE (Du.destIndex.get d.req) = s.resE (Du.destIndex.get d.req) :=
    State.resE_congr (hcr.kept .res) _
  unfold State.dumpMove
  dsimp only
  rw [hd, hc]
  dsimp only
  rw [if_neg (by simp [ht])]
  generalize s.captureRead c c.done room = x at hlen hres
  obtain ⟨u, bs⟩ := x
  dsimp only at hlen hres ⊢
  unfold State.dumpPut
  rw [hlen, if_pos hr, if_neg h0]
  dsimp only
  rw [hres]

theorem State.dumpMove_lost {d : Dump} {c : DumpCopy} {more : List DumpCopy} (hd : s.dump p n = d) (hc : d.copies = c :: more)
    (ht : s.dumpTargetOk p d.req = false) : s.dumpMove p n room = s.dumpEnd p n duDone 3 := by
  unfold State.dumpMove
  dsimp only
  rw [hd, hc]
  dsimp only
  rw [if_pos (by simp [ht])]

/-- Whether a window serves the oldest capture of a request. -/
def State.windowServes (s : State) (p : Nat) (win : Window) (k : Nat) : Bool :=
  ((s.dump p k).copies.take 1).any (fun c => match s.unitOf p win.unit, s.region c.from_ with
    | some u, some (.gddr v) => u == v
    | some u, some (.cxl v) => u == 48 + v
    | _, _ => false)

/-- The start of a window. -/
def State.windowOpens (s : State) (p : Nat) (win : Window) : Nat := (s.pt p).edgeNs + win.startNs

theorem exec_dumpWindow {win : Window} (hw : (s.windows p "$dump")[w]? = some win) (hb : (s.pt p).gen.begun = true)
    (hm : (List.range 16).find? (s.windowServes p win) = some n) : exec (.dumpWindow p w room) s =
      .next ((s.at (s.windowOpens p win)).dumpMove p n (s.dumpRate (s.dump p n).req (s.windowOpens p win)
        (s.windowOpens p win + win.durationNs) room)) := by
  show execDumpWindow p w room s = _
  unfold execDumpWindow
  rw [hw]
  refine (takes_of hb _ _).trans ?_
  extract_lets u mine
  have hf : (List.range 16).find? (fun n => ((u.dump p n).copies.take 1).any mine) = some n := hm
  rw [hf]
  rfl

theorem gives_dumpWindow_lost {win : Window} {d : Dump} {c : DumpCopy} {more : List DumpCopy} (hw : (s.windows p "$dump")[w]? = some win)
    (hb : (s.pt p).gen.begun = true) (hm : (List.range 16).find? (s.windowServes p win) = some n) (hd : s.dump p n = d)
    (hc : d.copies = c :: more) (ht : s.dumpTargetOk p d.req = false) : Gives (.dumpWindow p w room) s (fun t =>
      (t.dump p n).state = duDone ∧ (t.dump p n).result = 3 ∧ t.mem = s.mem) := by
  refine gives_of_next (exec_dumpWindow hw hb hm) ?_
  rw [State.dumpMove_lost (s := s.at (s.windowOpens p win)) hd hc ht, State.dump_dumpEnd]
  exact ⟨rfl, rfl, rfl⟩

theorem gives_dumpWindow {win : Window} {d : Dump} {c : DumpCopy} {more : List DumpCopy} (hw : (s.windows p "$dump")[w]? = some win)
    (hb : (s.pt p).gen.begun = true) (hm : (List.range 16).find? (s.windowServes p win) = some n) (hd : s.dump p n = d)
    (hc : d.copies = c :: more) (ht : s.dumpTargetOk p d.req = true) (h0 : Du.target.get d.req ≠ 0) (hr : c.done + room < c.bytes) :
    Gives (.dumpWindow p w room) s (fun t => (t.dump p n).copies = { c with done := c.done + room } :: more ∧
      let a := ResEntry.curAddr (s.resE (Du.destIndex.get d.req)) + (d.next + 64 + c.done)
      SameMemoryOutside a room s t ∧
      ((∀ j, j < room → s.writable (a + j) = true) → t.memBytes a room = (s.captureRead c c.done room).2)) := by
  refine gives_of_next (exec_dumpWindow hw hb hm) ?_
  have hrate : s.dumpRate (s.dump p n).req (s.windowOpens p win) (s.windowOpens p win + win.durationNs) room = room := by
    unfold State.dumpRate
    rw [hd, if_neg h0]
  rw [hrate]
  have hlen := State.captureRead_length (s := s) hr
  have hread : ((s.at (s.windowOpens p win)).captureRead c c.done room).2 = (s.captureRead c c.done room).2 :=
    State.unmark_congr (s := s) (t := s.at (s.windowOpens p win)) rfl _
  obtain ⟨u, -, hregs, hmem, he⟩ := State.dumpMove_some (s := s.at (s.windowOpens p win)) hd hc ht h0 hr
  rw [he, hread, State.dump_setDump_self]
  generalize (s.captureRead c c.done room).2 = bs at hlen
  refine ⟨rfl, ?_⟩
  intro a
  have hout := State.sameMemoryOutside_store u a (goodBytes bs)
  rw [length_goodBytes, hlen] at hout
  refine ⟨.trans (.of_mem hmem) hout, fun hwr => ?_⟩
  have hin := State.memBytes_store u (a := a) (l := bs) fun i hi => by
    rw [State.writable_congr hregs]
    exact hwr i (hlen ▸ hi)
  rw [hlen] at hin
  exact hin

end

/-- Settles O54: a capture's bytes go behind what was copied of it, so that a window writes only its own bytes of the target. -/
theorem dumpCommands : Obligations.DumpCommands := by
  unfold Obligations.DumpCommands
  intro p sess n w room g rest win c more x s d r mine
  refine ⟨fun _ hn => ⟨fun hw => ⟨gives_dumpArm_live hn hw, gives_dumpArm hn hw⟩, fun hw => ⟨gives_dumpCancel hn hw, gives_dumpCancel_over hn hw⟩⟩,
    gives_dumpCapture rfl, fun hw hb hm hc => ⟨gives_dumpWindow_lost hw hb hm rfl hc, gives_dumpWindow hw hb hm rfl hc⟩, fun ho => ?_⟩
  refine gives_of_takes (by unfold exec execDumpDone; rfl) ho ?_
  rw [State.dump_dumpEnd]
  exact ⟨rfl, rfl⟩

end Sys2Proof.Machine

/-! ## The life of a Jenjo session (R444, R446, R447, R450) -/

namespace Sys2Proof.Machine
open Sys2Proof

-- Short theorems, many of them: one after another, so that the threads' stacks stay within the check's memory.
set_option Elab.async false

section
variable {s : State} {r : Request} {x : Session}

/-! ### Messages -/

/-- A session that a valid message was heard of. -/
def State.heard (s : State) (id : Nat) : State := s.modSession id (fun y => { y with failures := 0, lastMsg := s.now })

/-- The answer to a request of session `id`, noted and sent. -/
def State.answered (s : State) (r : Request) (op id : Nat) (a : Answer) (data : List Byte) : State :=
  (s.modSession id (fun y => { y with lastSeq := r.seq, lastResp := some (reqReply r op id a data) })).emit (.response (reqReply r op id a data))

variable {op : Nat} {act : State → State × Answer × List Byte} {fin : Nat → State → State}

/-- A new request in sequence is executed and answered. -/
theorem State.request_new (hj : s.jenjoOn r.port = true) (hl : r.payload.length ≤ 8192) (hs : s.senderOf r = some x)
    (hv : x.verifies r op = true) (ho : x.open_ = true) (hr : r.reserved = 0) (hq : x.lastSeq < r.seq) {t : State} {a : Answer}
    {data : List Byte} (ha : act (s.heard x.id) = (t, a, data)) :
    s.request r op act fin = .next (if a.code = stOk then fin x.id (t.answered r op x.id a data) else t.answered r op x.id a data) := by
  unfold State.request
  refine (takes_of hj _ _).trans ?_
  rw [if_neg (by omega), hs]
  dsimp only
  rw [if_neg (by simp [hv]), if_neg (by simp [ho]; omega), if_neg (by omega), if_neg (show ¬ r.reserved ≠ 0 by simp [hr])]
  unfold State.heard at ha
  rw [ha]
  rfl

/-- A request that is repeated has its former response. -/
theorem State.request_repeated (hj : s.jenjoOn r.port = true) (hl : r.payload.length ≤ 8192) (hs : s.senderOf r = some x)
    (hv : x.verifies r op = true) (ho : x.open_ = true) (hq : r.seq = x.lastSeq) {y : Response} (hy : x.lastResp = some y) :
    s.request r op act fin = .next ((s.heard x.id).emit (.response y)) := by
  unfold State.request
  refine (takes_of hj _ _).trans ?_
  rw [if_neg (by omega), hs]
  dsimp only
  rw [if_neg (by simp [hv]), if_neg (by simp [ho]; omega), if_pos hq, hy]
  rfl

/-- A request whose TAG fails. -/
theorem State.request_unverified (hj : s.jenjoOn r.port = true) (hl : r.payload.length ≤ 8192) (hs : s.senderOf r = some x)
    (hv : x.verifies r op = false) : s.request r op act fin = .next (s.authFail x.id) := by
  unfold State.request
  refine (takes_of hj _ _).trans ?_
  rw [if_neg (by omega), hs]
  dsimp only
  rw [if_pos (by simp [hv])]

theorem objBytes_JENJO_AUTH_FAIL : objBytes Obj.JENJO_AUTH_FAIL = some 4 := by decide +kernel

theorem State.rg_authFail (s : State) (id : Nat) : (s.authFail id).rg Obj.JENJO_AUTH_FAIL = (s.rg Obj.JENJO_AUTH_FAIL + 1) % 2 ^ 32 := by
  have hi : ((s.incRg Obj.JENJO_AUTH_FAIL 1).modSession id (fun x => { x with failures := x.failures + 1 })).rg Obj.JENJO_AUTH_FAIL =
      (s.rg Obj.JENJO_AUTH_FAIL + 1) % 2 ^ 32 := State.rg_incRg_bytes objBytes_JENJO_AUTH_FAIL (by decide) s 1
  unfold State.authFail
  dsimp only
  split
  · split
    · exact hi
    · exact hi
  · exact hi

theorem State.of_senderOf (h : s.senderOf r = some x) : x ∈ s.sessions ∧ x.id = r.session := by
  refine ⟨List.mem_of_find?_eq_some h, ?_⟩
  have := List.find?_some h
  simp at this
  exact this.1.1

/-- No session has the identifier any more. -/
def State.Gone (id : Nat) (t : State) : Prop := ∀ y ∈ t.sessions, y.id ≠ id

theorem State.gone_dropSession (s : State) (id : Nat) : State.Gone id (s.dropSession id) := by
  intro y hy
  simpa using (List.mem_filter.1 hy).2

/-! ### OPEN -/

/-- Among one more number than there are sessions, one is free. -/
theorem State.freshId_free (s : State) (k : Nat) : s.freshId k ∉ 0 :: s.sessions.map (·.id) := by
  unfold State.freshId
  extract_lets used v
  show _ ∉ used
  by_cases hv : used.contains v = true
  · rw [if_pos hv]
    cases hf : (List.range (used.length + 1)).filter (fun n => !used.contains n) with
    | nil =>
      have hsub : List.range (used.length + 1) ⊆ used := fun n hn => by
        have := List.filter_eq_nil_iff.1 hf n hn
        simpa using this
      have := (List.nodup_range.subperm hsub).length_le
      rw [List.length_range] at this
      omega
    | cons n l =>
      have hn : n ∈ (List.range (used.length + 1)).filter (fun n => !used.contains n) := hf ▸ List.mem_cons_self
      simpa using (List.mem_filter.1 hn).2
  · rw [if_neg hv]
    simpa using hv

/-- The role that an OPEN asks for. -/
def openRole (r : Request) : Nat := leNat (r.payload.take 1)

/-- The status that refuses the OPEN of a request. -/
def State.openRefused (s : State) (r : Request) : Nat :=
  s.openBad r (openRole r) (leNat ((r.payload.drop 1).take 1)) (keyHash ((r.payload.drop 36).take 512) ((r.payload.drop 548).take 4))

theorem gives_open_bad (hj : s.jenjoOn r.port = true) (hl : r.payload.length ≤ 8192) (hb : s.openRefused r ≠ stOk) :
    Gives (.open_ r) s (fun t => t.sessions = s.sessions ∧ t.out = .response (reqReply r msgOpen 0 (Answer.of (s.openRefused r)) []) :: s.out) := by
  refine gives_of_takes (by unfold exec execOpen; rfl) hj ?_
  rw [if_neg (by omega)]
  extract_lets role part nonce h bad
  have hbad : bad = s.openRefused r := rfl
  rw [hbad, if_pos hb]
  exact ⟨rfl, rfl⟩

theorem gives_open (hj : s.jenjoOn r.port = true) (hl : r.payload.length ≤ 8192) (hb : s.openRefused r = stOk) :
    Gives (.open_ r) s (fun t => ∃ y, t.sessions = s.sessions ++ [y] ∧ y.id ≠ 0 ∧ (∀ z ∈ s.sessions, z.id ≠ y.id) ∧
      y.open_ = false ∧ y.role = openRole r ∧ y.port = r.port ∧ y.source = r.source ∧ y.openedAt = s.now) := by
  refine gives_of_takes (by unfold exec execOpen; rfl) hj ?_
  rw [if_neg (by omega)]
  extract_lets role part nonce h bad
  have hbad : bad = s.openRefused r := rfl
  rw [hbad, if_neg (by simp [hb])]
  unfold State.draw
  dsimp only
  have hf := s.freshId_free s.draws
  rw [List.mem_cons, not_or] at hf
  exact ⟨_, rfl, hf.1, fun z hz he => hf.2 (List.mem_map.2 ⟨z, hz, he⟩), rfl, rfl, rfl, rfl, rfl⟩

/-! ### OPEN_CONFIRM -/

/-- A session is open, in its role, with the message of SEQ 1 behind it. -/
structure Session.Opened (role : Nat) (y : Session) : Prop where
  isOpen : y.open_ = true
  role : y.role = role
  seq : y.lastSeq = 1

/-- There is a session of an identifier, and each has a property. -/
structure State.Holds (id : Nat) (q : Session → Prop) (t : State) : Prop where
  every : ∀ y ∈ t.sessions, y.id = id → q y
  some : ∃ y ∈ t.sessions, y.id = id

theorem State.Holds.exists {id : Nat} {q : Session → Prop} {t : State} (h : State.Holds id q t) : ∃ y ∈ t.sessions, y.id = id ∧ q y :=
  let ⟨y, hy, hid⟩ := h.some
  ⟨y, hy, hid, h.every y hy hid⟩

theorem State.holds_modSession {id : Nat} {q : Session → Prop} (f : Session → Session)
    (hf : ∀ y ∈ s.sessions, y.id = id → (f y).id = id ∧ q (f y)) (hx : ∃ y ∈ s.sessions, y.id = id) : State.Holds id q (s.modSession id f) := by
  refine ⟨fun y hy hid => ?_, ?_⟩
  · obtain ⟨z, hz, rfl⟩ := List.mem_map.1 hy
    by_cases hzi : z.id = id
    · rw [if_pos (by simpa using hzi)]
      exact (hf z hz hzi).2
    · rw [if_neg (by simpa using hzi)] at hid
      exact absurd hid hzi
  · obtain ⟨y, hy, hid⟩ := hx
    refine ⟨f y, List.mem_map.2 ⟨y, hy, if_pos (by simpa using hid)⟩, (hf y hy hid).1⟩

theorem Session.push_keeps (x : Session) (now : Nat) (e : Event) : (x.push now e).1.id = x.id ∧ (x.push now e).1.open_ = x.open_ ∧
    (x.push now e).1.role = x.role ∧ (x.push now e).1.lastSeq = x.lastSeq := by
  unfold Session.push
  extract_lets full q lost e2
  split
  · exact ⟨rfl, rfl, rfl, rfl⟩
  · exact ⟨rfl, rfl, rfl, rfl⟩

theorem Session.Opened.push {role : Nat} (h : x.Opened role) (now : Nat) (e : Event) : (x.push now e).1.Opened role :=
  let ⟨_, ho, hr, hq⟩ := x.push_keeps now e
  ⟨ho.trans h.isOpen, hr.trans h.role, hq.trans h.seq⟩

theorem State.Holds.notifyOne {id role : Nat} (h : State.Holds id (Session.Opened role) s) (e : Event) :
    State.Holds id (Session.Opened role) (s.notifyOne id e) := by
  unfold State.notifyOne
  split
  next x hx =>
    have hid : x.id = id := by simpa using List.find?_some hx
    exact State.holds_modSession _ (fun _ _ _ => ⟨(x.push_keeps s.now e).1.trans hid,
      (h.every x (List.mem_of_find?_eq_some hx) hid).push s.now e⟩) h.some
  · exact h

theorem State.Holds.greet {id role : Nat} (h : State.Holds id (Session.Opened role) s) (k : Nat) :
    State.Holds id (Session.Opened role) (s.greet id k) := by
  unfold State.greet
  extract_lets u v
  have hu : State.Holds id (Session.Opened role) u := by
    unfold u
    split
    · exact h.notifyOne _
    · exact h
  split
  · exact ⟨(hu.notifyOne _).every, (hu.notifyOne _).some⟩
  · exact hu

/-- The role that a session opens in: one that claims the module becomes an admin. -/
def Session.openedRole (x : Session) : Nat := if x.role = roleClaim then roleAdmin else x.role

theorem State.holds_openSession (hx : x ∈ s.sessions) : State.Holds x.id (Session.Opened x.openedRole) (s.openSession r x) := by
  unfold State.openSession
  extract_lets y role u
  have hu : State.Holds x.id (Session.Opened x.openedRole) u :=
    State.holds_modSession _ (fun z _ hz => ⟨hz, rfl, rfl, rfl⟩) ⟨x, hx, rfl⟩
  exact State.Holds.greet (s := u.emit (.response y)) ⟨hu.every, hu.some⟩ _

/-- What an OPEN_CONFIRM that nothing bars leads to. -/
theorem exec_openConfirm (hj : s.jenjoOn r.port = true) (hl : r.payload.length ≤ 8192) (hs : s.senderOf r = some x)
    (hv : x.verifies r msgConfirm = true) (ho : x.open_ = false) (hq : r.seq = 1) (hr : r.reserved = 0)
    (hn : (s.sessions.filter (·.open_)).length < 16) : exec (.openConfirm r) s = .next (if x.role = roleClaim then
        (if (r.payload = hmac512 Config.claimCode x.nonces && (s.dom Obj.ADMIN_KEYS).isEmpty) = true then
          (s.setDom Obj.ADMIN_KEYS x.keyHash).openSession r x else (s.dropSession x.id).incRg Obj.JENJO_AUTH_FAIL 1)
      else if r.payload.isEmpty = true then s.openSession r x else s) := by
  show execOpenConfirm r s = _
  unfold execOpenConfirm
  refine (takes_of hj _ _).trans ?_
  rw [if_neg (by omega), hs]
  dsimp only
  rw [if_neg (by simp [hv]), if_neg (by simp [ho]), if_neg (by simp [hq, hr]), if_neg (by omega)]

theorem gives_openConfirm (hj : s.jenjoOn r.port = true) (hl : r.payload.length ≤ 8192) (hs : s.senderOf r = some x)
    (hv : x.verifies r msgConfirm = true) (ho : x.open_ = false) (hq : r.seq = 1) (hr : r.reserved = 0)
    (hn : (s.sessions.filter (·.open_)).length < 16) (hc : x.role ≠ roleClaim) (hp : r.payload = []) :
    Gives (.openConfirm r) s (fun t => ∃ y ∈ t.sessions, y.id = x.id ∧ y.open_ = true ∧ y.role = x.role ∧ y.lastSeq = 1) := by
  refine gives_of_next (exec_openConfirm hj hl hs hv ho hq hr hn) ?_
  rw [if_neg hc, if_pos (by simp [hp])]
  obtain ⟨y, hy, hid, h⟩ := (State.holds_openSession (r := r) (State.of_senderOf hs).1).exists
  exact ⟨y, hy, hid, h.isOpen, h.role.trans (if_neg hc), h.seq⟩

theorem gives_openConfirm_claim (hj : s.jenjoOn r.port = true) (hl : r.payload.length ≤ 8192) (hs : s.senderOf r = some x)
    (hv : x.verifies r msgConfirm = true) (ho : x.open_ = false) (hq : r.seq = 1) (hr : r.reserved = 0)
    (hn : (s.sessions.filter (·.open_)).length < 16) (hc : x.role = roleClaim) (hp : r.payload = hmac512 Config.claimCode x.nonces)
    (hk : s.dom Obj.ADMIN_KEYS = []) : Gives (.openConfirm r) s (fun t => t.dom Obj.ADMIN_KEYS = x.keyHash ∧
      ∃ y ∈ t.sessions, y.id = x.id ∧ y.open_ = true ∧ y.role = roleAdmin) := by
  refine gives_of_next (exec_openConfirm hj hl hs hv ho hq hr hn) ?_
  rw [if_pos hc, if_pos (by simp [hp, hk])]
  have hx : x ∈ (s.setDom Obj.ADMIN_KEYS x.keyHash).sessions := (State.of_senderOf hs).1
  obtain ⟨y, hy, hid, h⟩ := (State.holds_openSession (r := r) hx).exists
  refine ⟨?_, y, hy, hid, h.isOpen, h.role.trans (if_pos hc)⟩
  have hd : ((s.setDom Obj.ADMIN_KEYS x.keyHash).openSession r x).doms = (s.setDom Obj.ADMIN_KEYS x.keyHash).doms :=
    (State.changes_openSession ..).kept .doms
  exact (congrArg (fun d => SMap.getD [] d Obj.ADMIN_KEYS) hd).trans (SMap.getD_put_self ..)

theorem gives_openConfirm_barred (hj : s.jenjoOn r.port = true) (hl : r.payload.length ≤ 8192) (hs : s.senderOf r = some x)
    (hv : x.verifies r msgConfirm = true) (ho : x.open_ = false) (hq : r.seq = 1) (hr : r.reserved = 0)
    (hn : (s.sessions.filter (·.open_)).length < 16) (hc : x.role = roleClaim) (hp : r.payload ≠ hmac512 Config.claimCode x.nonces) :
    Gives (.openConfirm r) s (fun t => State.Gone x.id t ∧ t.doms = s.doms) := by
  refine gives_of_next (exec_openConfirm hj hl hs hv ho hq hr hn) ?_
  rw [if_pos hc, if_neg (by simp [hp])]
  exact ⟨s.gone_dropSession x.id, rfl⟩

theorem gives_openConfirm_unverified (hj : s.jenjoOn r.port = true) (hl : r.payload.length ≤ 8192) (hs : s.senderOf r = some x)
    (hv : x.verifies r msgConfirm = false) : Gives (.openConfirm r) s (fun t => t.out = s.out ∧
      t.rg Obj.JENJO_AUTH_FAIL = (s.rg Obj.JENJO_AUTH_FAIL + 1) % 2 ^ 32) := by
  have he : exec (.openConfirm r) s = .next (s.authFail x.id) := by
    show execOpenConfirm r s = _
    unfold execOpenConfirm
    refine (takes_of hj _ _).trans ?_
    rw [if_neg (by omega), hs]
    dsimp only
    rw [if_pos (by simp [hv])]
  exact gives_of_next he ⟨(State.changes_authFail ..).kept .out, s.rg_authFail x.id⟩

/-! ### The end of a session -/

theorem gives_close (hj : s.jenjoOn r.port = true) (hl : r.payload.length ≤ 8192) (hs : s.senderOf r = some x)
    (hv : x.verifies r msgClose = true) (ho : x.open_ = true) (hr : r.reserved = 0) (hq : x.lastSeq < r.seq) (hp : r.payload = []) :
    Gives (.close r) s (fun t => State.Gone x.id t ∧ t.out.head? = some (.response (reqReply r msgClose x.id Answer.ok []))) := by
  have he : exec (.close r) s = .next (((s.heard x.id).answered r msgClose x.id Answer.ok []).dropSession x.id) := by
    show execClose r s = _
    unfold execClose
    refine (State.request_new hj hl hs hv ho hr hq (t := s.heard x.id) (a := Answer.ok) (data := []) (by simp [hp])).trans ?_
    rw [if_pos rfl]
  refine gives_of_next he ?_
  exact ⟨State.gone_dropSession _ _, rfl⟩

theorem gives_openTimeout {sess at_ : Nat} (hs : s.sessions.find? (fun y => y.id == sess) = some x) (ho : x.open_ = false)
    (ht : x.openedAt + 5000000000 ≤ at_) : Gives (.openTimeout sess at_) s (fun t => State.Gone sess t ∧ t.now = Nat.max s.now at_) := by
  have he : exec (.openTimeout sess at_) s = .next ((s.at at_).dropSession sess) := by
    show execOpenTimeout sess at_ s = _
    unfold execOpenTimeout
    rw [hs]
    exact takes_of (by simp [ho, ht]) _ _
  exact gives_of_next he ⟨State.gone_dropSession _ _, rfl⟩

theorem gives_sessionIdleTimeout {sess at_ : Nat} (hs : s.session sess = some x)
    (ht : x.lastMsg + 1000000000 * s.rg Obj.SESSION_IDLE_S ≤ at_) : Gives (.sessionIdleTimeout sess at_) s (State.Gone sess) := by
  have he : exec (.sessionIdleTimeout sess at_) s = .next ((s.at at_).dropSession sess) := by
    show execSessionIdleTimeout sess at_ s = _
    unfold execSessionIdleTimeout
    rw [hs]
    exact takes_of (by simpa using ht) _ _
  exact gives_of_next he (State.gone_dropSession _ _)

end

/-- Settles O41: a free identifier stands among one more number than there are sessions, and what an opened session is told leaves its
role. -/
theorem sessionLifecycle : Obligations.SessionLifecycle := by
  unfold Obligations.SessionLifecycle
  intro r x sess at_ port s gone role part bad
  refine ⟨fun hj hl => ⟨gives_open_bad hj hl, gives_open hj hl, fun hs hv ho hq hr hn =>
      ⟨gives_openConfirm hj hl hs hv ho hq hr hn, gives_openConfirm_claim hj hl hs hv ho hq hr hn,
        gives_openConfirm_barred hj hl hs hv ho hq hr hn⟩, gives_openConfirm_unverified hj hl, gives_close hj hl⟩,
    gives_openTimeout, gives_sessionIdleTimeout, fun hj => ?_⟩
  refine gives_of_takes (by unfold exec execJenjoMalformed; rfl) hj ⟨rfl, ?_⟩
  exact State.rg_incRg_bytes (key := Obj.JENJO_MALFORMED) (n := 4) (by decide +kernel) (by decide) s 1

end Sys2Proof.Machine

/-! ## Requests of an open session, and its events (R448, R449, R452, R454, R455) -/

namespace Sys2Proof.Machine
open Sys2Proof

-- Short theorems, many of them: one after another, so that the threads' stacks stay within the check's memory.
set_option Elab.async false

section
variable {s : State} {r : Request} {x : Session}

/-- No object, no work and no memory differ. -/
def State.SameObjects (s t : State) : Prop := t.regs = s.regs ∧ t.doms = s.doms ∧ t.parts = s.parts ∧ t.mem = s.mem ∧ t.clusters = s.clusters

theorem State.sameObjects_heard (s : State) (id : Nat) : s.SameObjects (s.heard id) := ⟨rfl, rfl, rfl, rfl, rfl⟩

theorem State.sameObjects_answered {t : State} (h : s.SameObjects t) (op id : Nat) (a : Answer) (l : List Byte) :
    s.SameObjects (t.answered r op id a l) := h

theorem State.head_answered (t : State) (op id : Nat) (a : Answer) (l : List Byte) :
    (t.answered r op id a l).out.head? = some (.response (reqReply r op id a l)) := rfl

/-- A session's rights stand in its role and partition alone. -/
theorem State.mayWrite_heard {y : Session} (hx : s.session y.id = some y) {id : Nat} (hid : y.id = id) (key v : Nat) :
    (s.heard y.id).mayWrite id key v = s.mayWrite id key v := by
  subst hid
  have h := State.session_modSession hx (f := fun y => { y with failures := 0, lastMsg := s.now }) fun _ => ⟨rfl, rfl⟩
  unfold State.mayWrite
  rw [hx, State.heard, h]
  rfl

section
variable (hj : s.jenjoOn r.port = true) (hl : r.payload.length ≤ 8192) (hs : s.senderOf r = some x)
include hj hl hs

section
variable {op : Nat} (hv : x.verifies r op = true) (ho : x.open_ = true)
include hv ho

section
variable (hr : r.reserved = 0) (hq : x.lastSeq < r.seq)
include hr hq

/-- A new request whose answer nothing follows. -/
theorem State.request_answered {act : State → State × Answer × List Byte} {t : State} {a : Answer} {data : List Byte}
    (ha : act (s.heard x.id) = (t, a, data)) : s.request r op act = .next (t.answered r op x.id a data) :=
  (State.request_new hj hl hs hv ho hr hq ha).trans (congrArg _ (ite_self _))

end
end

section
variable (ho : x.open_ = true) (hr : r.reserved = 0) (hq : x.lastSeq < r.seq)
include ho hr hq

theorem gives_read (hv : x.verifies r msgRead = true) (hc : ((s.heard x.id).readObj r.session (reqKey r)).1 = stOk) (hp : r.payload = [])
    (hlen : ((s.heard x.id).readObj r.session (reqKey r)).2.length ≤ 8192) : Gives (.read r) s (fun t => s.SameObjects t ∧
      t.out.head? = some (.response (reqReply r msgRead x.id Answer.ok ((s.heard x.id).readObj r.session (reqKey r)).2))) := by
  have he : exec (.read r) s = .next ((s.heard x.id).answered r msgRead x.id Answer.ok ((s.heard x.id).readObj r.session (reqKey r)).2) := by
    show execRead r s = _
    unfold execRead
    refine State.request_answered hj hl hs hv ho hr hq ?_
    dsimp only
    rw [hc, if_neg (by simp [hp]; omega)]
  exact gives_of_next he ⟨State.sameObjects_answered (s.sameObjects_heard x.id) _ _ _ _, State.head_answered ..⟩

theorem gives_read_refused (hv : x.verifies r msgRead = true) (hc : ((s.heard x.id).readObj r.session (reqKey r)).1 ≠ stOk) :
    Gives (.read r) s (fun t => s.SameObjects t ∧ t.out.head? = some (.response (reqReply r msgRead x.id
      (Answer.of ((s.heard x.id).readObj r.session (reqKey r)).1) ((s.heard x.id).readObj r.session (reqKey r)).2))) := by
  have he : exec (.read r) s = .next ((s.heard x.id).answered r msgRead x.id (Answer.of ((s.heard x.id).readObj r.session (reqKey r)).1)
      ((s.heard x.id).readObj r.session (reqKey r)).2) := by
    show execRead r s = _
    unfold execRead
    refine State.request_answered hj hl hs hv ho hr hq ?_
    dsimp only
    rw [if_neg (by simp [hc])]
  exact gives_of_next he ⟨State.sameObjects_answered (s.sameObjects_heard x.id) _ _ _ _, State.head_answered ..⟩

theorem gives_readBlock (hv : x.verifies r msgReadBlock = true) (hc : ((s.heard x.id).readObj r.session (reqKey r)).1 = stOk)
    (hp : r.payload.length = 4) (hd : isDomain (reqKey r) = true) : Gives (.readBlock r) s (fun t => s.SameObjects t ∧
      t.out.head? = some (.response (reqReply r msgReadBlock x.id Answer.ok
        ((((s.heard x.id).readObj r.session (reqKey r)).2.drop r.offset).take (Nat.min 8192 (leNat r.payload)))))) := by
  have he : exec (.readBlock r) s = .next ((s.heard x.id).answered r msgReadBlock x.id Answer.ok
      ((((s.heard x.id).readObj r.session (reqKey r)).2.drop r.offset).take (Nat.min 8192 (leNat r.payload)))) := by
    show execReadBlock r s = _
    unfold execReadBlock
    refine State.request_answered hj hl hs hv ho hr hq ?_
    dsimp only
    rw [if_neg (by simp [hc]), if_neg (by simp [hp, hd])]
  exact gives_of_next he ⟨State.sameObjects_answered (s.sameObjects_heard x.id) _ _ _ _, State.head_answered ..⟩

theorem gives_write (facts : RecoverFacts) (hv : x.verifies r msgWrite = true) : Gives (.write r facts) s (fun t =>
    t.out.head? = some (.response (reqReply r msgWrite x.id ((s.heard x.id).writeObj r.session (reqKey r) r.payload facts).2 [])) ∧
    t.regs = ((s.heard x.id).writeObj r.session (reqKey r) r.payload facts).1.regs ∧
    t.doms = ((s.heard x.id).writeObj r.session (reqKey r) r.payload facts).1.doms ∧
    t.parts = ((s.heard x.id).writeObj r.session (reqKey r) r.payload facts).1.parts ∧
    t.mem = ((s.heard x.id).writeObj r.session (reqKey r) r.payload facts).1.mem) := by
  have he : exec (.write r facts) s = .next (((s.heard x.id).writeObj r.session (reqKey r) r.payload facts).1.answered r msgWrite x.id
      ((s.heard x.id).writeObj r.session (reqKey r) r.payload facts).2 []) := by
    show execWrite r facts s = _
    unfold execWrite
    exact State.request_answered hj hl hs hv ho hr hq rfl
  generalize (s.heard x.id).writeObj r.session (reqKey r) r.payload facts = w at he ⊢
  exact gives_of_next he ⟨rfl, rfl, rfl, rfl, rfl⟩

theorem gives_writeBlock (hv : x.verifies r msgWriteBlock = true) {row : ObjRow} (hrow : objRow (reqKey r) = some row) (hacc : row.acc ≠ .ro)
    (hty : row.ty = .domain) (hw : s.mayWrite r.session (reqKey r) 0 = true) (hoff : r.offset = 0) (hlast : r.last = false)
    (hx : s.session x.id = some x) : Gives (.writeBlock r) s (fun t => s.SameObjects t ∧
      t.out.head? = some (.response (reqReply r msgWriteBlock x.id Answer.ok [])) ∧
      ∃ y, t.session x.id = some y ∧ y.upload = some (reqKey r, r.payload)) := by
  have hid : x.id = r.session := (State.of_senderOf hs).2
  have hw' : (s.heard x.id).mayWrite r.session (reqKey r) 0 = true :=
    (State.mayWrite_heard hx hid _ _).trans hw
  have hseg : (s.heard x.id).writeSegment r =
      ((s.heard x.id).modSession x.id (fun y => { y with upload := some (reqKey r, r.payload) }), .ok) := by
    unfold State.writeSegment
    extract_lets id key part
    have hpart : part = [] := by
      unfold part
      split
      · split
        · rw [if_neg (by simp [hoff])]
        · rfl
      · rfl
    have hk : key = reqKey r := rfl
    rw [hpart, hk, hrow]
    dsimp only
    rw [if_neg hacc, if_neg (by simp [id, hw']), if_neg (by simp [hty]), if_neg (by simp [hoff]), if_pos (by simp [hlast])]
    rw [hid]
    rfl
  have he : exec (.writeBlock r) s = .next (((s.heard x.id).modSession x.id (fun y => { y with upload := some (reqKey r, r.payload) })).answered r
      msgWriteBlock x.id Answer.ok []) := by
    show execWriteBlock r s = _
    unfold execWriteBlock
    refine State.request_answered hj hl hs hv ho hr hq ?_
    dsimp only
    rw [hseg]
  have h1 := State.session_modSession hx (f := fun y => { y with failures := 0, lastMsg := s.now }) fun _ => ⟨rfl, rfl⟩
  have h2 := State.session_modSession h1 (f := fun y => { y with upload := some (reqKey r, r.payload) }) fun _ => ⟨rfl, rfl⟩
  have hso : s.SameObjects ((s.heard x.id).modSession x.id (fun y => { y with upload := some (reqKey r, r.payload) })) :=
    ⟨rfl, rfl, rfl, rfl, rfl⟩
  change State.session ((s.heard x.id).modSession x.id _) x.id = _ at h2
  generalize (s.heard x.id).modSession x.id (fun y => { y with upload := some (reqKey r, r.payload) }) = t at h2 hso he
  have h3 := State.session_modSession h2
    (f := fun y => { y with lastSeq := r.seq, lastResp := some (reqReply r msgWriteBlock x.id Answer.ok []) }) fun _ => ⟨rfl, rfl⟩
  exact gives_of_next he ⟨State.sameObjects_answered hso _ _ _ _, State.head_answered .., _, h3, rfl⟩

end

theorem gives_write_repeated (facts : RecoverFacts) {y : Response} (hv : x.verifies r msgWrite = true) (ho : x.open_ = true)
    (hq : r.seq = x.lastSeq) (hy : x.lastResp = some y) : Gives (.write r facts) s (fun t =>
      s.SameObjects t ∧ t.out = .response y :: s.out) := by
  have he : exec (.write r facts) s = .next ((s.heard x.id).emit (.response y)) := by
    show execWrite r facts s = _
    unfold execWrite
    exact State.request_repeated hj hl hs hv ho hq hy
  exact gives_of_next he ⟨s.sameObjects_heard x.id, rfl⟩

theorem gives_write_unverified (facts : RecoverFacts) (hv : x.verifies r msgWrite = false) : Gives (.write r facts) s (fun t =>
    t.out = s.out ∧ t.parts = s.parts ∧ t.mem = s.mem ∧ t.rg Obj.JENJO_AUTH_FAIL = (s.rg Obj.JENJO_AUTH_FAIL + 1) % 2 ^ 32) := by
  have he : exec (.write r facts) s = .next (s.authFail x.id) := by
    show execWrite r facts s = _
    unfold execWrite
    exact State.request_unverified hj hl hs hv
  have hc := s.changes_authFail x.id
  exact gives_of_next he ⟨hc.kept .out, hc.kept .parts, hc.kept .mem, s.rg_authFail x.id⟩

theorem gives_notifyAck (hv : x.verifies r msgAck = true) : Gives (.notifyAck r) s (fun t => s.SameObjects t ∧
    ∀ y ∈ t.sessions, y.id = x.id → ∀ e ∈ y.queue, e.seq ≠ r.seq) := by
  have he : exec (.notifyAck r) s = .next (s.modSession x.id (fun y =>
      { y with failures := 0, lastMsg := s.now, queue := y.queue.filter (fun u => u.seq != r.seq) })) := by
    show execNotifyAck r s = _
    unfold execNotifyAck
    refine (takes_of hj _ _).trans ?_
    rw [if_neg (by omega), hs]
    dsimp only
    rw [if_neg (by simp [hv])]
  have hold := State.holds_modSession (s := s) (id := x.id) (q := fun y => ∀ e ∈ y.queue, e.seq ≠ r.seq) (fun y =>
    { y with failures := 0, lastMsg := s.now, queue := y.queue.filter (fun u => u.seq != r.seq) })
    (fun y _ hy => ⟨hy, fun e he => by simpa using (List.mem_filter.1 he).2⟩) ⟨x, (State.of_senderOf hs).1, rfl⟩
  exact gives_of_next he ⟨⟨rfl, rfl, rfl, rfl, rfl⟩, hold.every⟩

end

theorem gives_notifyResend {sess at_ : Nat} {e : Unacked} (hx : s.session sess = some x)
    (hf : x.queue.find? (fun y => y.seq == r.seq) = some e) (hm : s.boot.milliner = true) (hn : e.sends ≤ 5)
    (ht : e.lastSent + 200000000 ≤ at_) : Gives (.notifyResend sess r.seq at_) s (fun t => s.SameObjects t ∧
      t.out = .notify sess r.seq e.event :: s.out) := by
  obtain ⟨t, he, hp⟩ : ∃ t, exec (.notifyResend sess r.seq at_) s = .next t ∧ (s.SameObjects t ∧ t.out = .notify sess r.seq e.event :: s.out) := by
    show ∃ t, execNotifyResend sess r.seq at_ s = .next t ∧ _
    unfold execNotifyResend
    rw [hx]
    dsimp only
    rw [hf]
    exact ⟨_, takes_of (by simp [hm, hn, ht]) _ _, ⟨rfl, rfl, rfl, rfl, rfl⟩, rfl⟩
  exact gives_of_next he hp

end

/-- Settles O42: a request in sequence is executed in the state in which its message was heard, and all but that stays with its answer. -/
theorem requestsAndEvents : Obligations.RequestsAndEvents := by
  unfold Obligations.RequestsAndEvents
  intro r x facts sess at_ s u key v w same answers
  refine ⟨fun hj hl hs => ⟨fun hv ho hr hq => ⟨gives_read hj hl hs ho hr hq hv, gives_read_refused hj hl hs ho hr hq hv⟩,
    fun hv ho hr hq => gives_readBlock hj hl hs ho hr hq hv, fun hv ho hr hq => gives_write hj hl hs ho hr hq facts hv,
    fun hv ho hr hq row hrow hacc hty hw hoff hlast hx => gives_writeBlock hj hl hs ho hr hq hv hrow hacc hty hw hoff hlast hx,
    fun y hv ho hq hy => gives_write_repeated hj hl hs facts hv ho hq hy, gives_write_unverified hj hl hs facts, gives_notifyAck hj hl hs⟩,
    fun e hx hf hm hn ht => gives_notifyResend hx hf hm hn ht⟩

end Sys2Proof.Machine

/-! ## Firmware: programming, activation and restart (R18, R476, R477, R503, R504) -/

namespace Sys2Proof.Machine
open Sys2Proof

-- Short theorems, many of them: one after another, so that the threads' stacks stay within the check's memory.
set_option Elab.async false

section
variable {s : State} {sess at_ : Nat} {ok : Bool}

theorem objBytes_firmware : objBytes Obj.FW_RESULT = some 1 ∧ objBytes Obj.ACTIVE_COPIES = some 2 ∧ objBytes Obj.ACTIVATE_RESULT = some 1 ∧
    objBytes (Obj.MIN_SECURITY_VERSION 0) = some 4 := by decide +kernel

/-! ### Programming -/

theorem gives_fwProgram_busy (hw : s.mayWrite sess Obj.FW_COMMAND 1 = true) (hr : s.fwRun ≠ none) :
    Gives (.fwProgram sess) s (fun t => t = s) := by
  refine gives_of_takes (by unfold exec execFwProgram State.command; rfl) hw ?_
  unfold State.fwProgram
  rw [if_pos (Option.isSome_iff_ne_none.2 hr)]

theorem gives_fwProgram (hw : s.mayWrite sess Obj.FW_COMMAND 1 = true) (hr : s.fwRun = none) : Gives (.fwProgram sess) s (fun t =>
    t.rg Obj.FW_RESULT = 0xFF ∧ ∃ r, t.fwRun = some r ∧ r.image = s.winDom sess Obj.FW_IMAGE ∧
      (r.code = 0 ↔ (s.winDom sess Obj.FW_IMAGE).length ≤ fwLimit ∧ s.freeCopy (s.win sess Obj.FW_TARGET) ≠ none ∧
        pyCheck (listImage (s.winDom sess Obj.FW_IMAGE)) (s.winDom sess Obj.FW_IMAGE).length [s.win sess Obj.FW_TARGET] [Config.romKeyHash]
          (s.minSv (s.win sess Obj.FW_TARGET)) = 0)) := by
  refine gives_of_takes (by unfold exec execFwProgram State.command; rfl) hw ?_
  unfold State.fwProgram
  rw [if_neg (by simp [hr])]
  extract_lets t img free k code s1
  refine ⟨State.rg_setRg_small (by rw [objBytes_firmware.1]; decide) (by decide) _, ⟨k, code, img⟩, rfl, rfl, ?_⟩
  have ht : s.win sess Obj.FW_TARGET = t := rfl
  have hi : s.winDom sess Obj.FW_IMAGE = img := rfl
  have hf : s.freeCopy t = free := rfl
  rw [ht, hi, hf]
  show code = 0 ↔ _
  unfold code
  generalize pyCheck (listImage img) img.length [t] [Config.romKeyHash] (s.minSv t) = c
  rw [firstCode_cons, firstCode_cons, firstCode_cons, firstCode_nil]
  by_cases hlen : img.length > fwLimit
  · simp [hlen]
  · cases free with
    | none => simp [hlen]
    | some n =>
      by_cases hc : c = 0
      · simp [hlen, hc]
        exact not_lt.1 hlen
      · simp [hlen, hc]

theorem gives_fwProgrammed {r : FwRun} (hr : s.fwRun = some r) (hm : s.boot.milliner = true) : Gives (.fwProgrammed at_ ok) s (fun t =>
    t.fwRun = none ∧ t.rg Obj.FW_RESULT = (if r.code ≠ 0 then r.code % 256 else if ok then 0 else 0x84) ∧
    (r.code = 0 → ok = true → SMap.get? t.boot.nor r.copy = some r.image ∧ t.boot.copyOk.testBit r.copy = true) ∧
    (r.code ≠ 0 ∨ ok = false → t.boot = s.boot)) := by
  obtain ⟨t, he, hp⟩ : ∃ t, exec (.fwProgrammed at_ ok) s = .next t ∧ (t.fwRun = none ∧
      t.rg Obj.FW_RESULT = (if r.code ≠ 0 then r.code else if ok then 0 else 0x84) % 256 ∧
      (r.code = 0 → ok = true → SMap.get? t.boot.nor r.copy = some r.image ∧ t.boot.copyOk.testBit r.copy = true) ∧
      (r.code ≠ 0 ∨ ok = false → t.boot = s.boot)) := by
    show ∃ t, execFwProgrammed at_ ok s = .next t ∧ _
    unfold execFwProgrammed
    rw [hr]
    refine ⟨_, takes_of hm _ _, ?_⟩
    extract_lets src s1 code bt s2
    have hcode : code = if r.code ≠ 0 then r.code else if ok then 0 else 0x84 := rfl
    rw [← hcode]
    have h2 : s2.fwRun = none ∧ (code = 0 → SMap.get? s2.boot.nor r.copy = some r.image ∧ s2.boot.copyOk.testBit r.copy = true) ∧
        (code ≠ 0 → s2.boot = s.boot) := by
      unfold s2
      by_cases hc : code = 0
      · rw [if_pos hc]
        exact ⟨rfl, fun _ => ⟨SMap.get?_ins_self .., testBit_setBit_self ..⟩, fun h => absurd hc h⟩
      · rw [if_neg hc]
        exact ⟨rfl, fun h => absurd h hc, fun _ => rfl⟩
    obtain ⟨hrun, hgood, hbad⟩ := h2
    clear_value s2
    refine ⟨hrun, (State.rg_notify ..).trans (State.rg_setRg_bytes objBytes_firmware.1 (by decide) s2 code), fun h0 hok => hgood ?_, fun h => hbad ?_⟩
    · rw [hcode, if_neg (by simp [h0]), if_pos hok]
    · rw [hcode]
      by_cases h0 : r.code = 0
      · rw [if_neg (by simp [h0]), if_neg (by simpa [h0] using h)]
        decide
      · rwa [if_pos h0]
  obtain ⟨h1, h2, h3, h4⟩ := hp
  refine gives_of_next he ⟨h1, h2.trans ?_, h3, h4⟩
  by_cases h0 : r.code = 0
  · cases ok <;> simp [h0]
  · simp [h0]

/-! ### Activation -/

/-- Whether an activation's quarter is at work. -/
def State.quarterWorks (s : State) (ty q : Nat) : Prop :=
  ty ≠ 1 ∧ ∃ p ∈ s.partsIn q, s.rg (Obj.PART_STATE p) = psActive ∨ s.rg (Obj.PART_STATE p) = psHalted

theorem State.quarterWorks_iff (s : State) (ty q : Nat) :
    (ty ≠ 1 && (s.partsIn q).any (fun p => s.rg (Obj.PART_STATE p) == psActive || s.rg (Obj.PART_STATE p) == psHalted)) = true ↔
      s.quarterWorks ty q := by
  unfold State.quarterWorks
  rw [Bool.and_eq_true, List.any_eq_true, decide_eq_true_eq]
  simp only [Bool.or_eq_true, beq_iff_eq]

variable {g ty q : Nat}

theorem State.activate_eq (hg : s.win sess Obj.ACTIVATE_TARGET = g) (ha : s.actRun = none) (ht : targetOf g = some (ty, q)) :
    (s.activate sess).1 =
      if (ty ≠ 1 && (s.partsIn q).any (fun p => s.rg (Obj.PART_STATE p) == psActive || s.rg (Obj.PART_STATE p) == psHalted)) = true then
        s.setRg Obj.ACTIVATE_RESULT 1
      else if s.boot.copyOk.testBit (otherCopy (s.activeCopy ty q)) = false then s.setRg Obj.ACTIVATE_RESULT 2
      else ({ s with actRun := some (g, 0), boot := { s.boot with milliner := s.boot.milliner && ty != 1 } } : State).setRg Obj.ACTIVATE_RESULT 3 := by
  unfold State.activate
  rw [hg]
  dsimp only
  rw [if_neg (by simp [ha]), ht]
  dsimp only
  split
  · rfl
  · cases s.boot.copyOk.testBit (otherCopy (s.activeCopy ty q)) <;> rfl

theorem gives_activate (hw : s.mayWrite sess Obj.ACTIVATE_COMMAND 1 = true) (hg : s.win sess Obj.ACTIVATE_TARGET = g) (ha : s.actRun = none)
    (ht : targetOf g = some (ty, q)) :
    (s.quarterWorks ty q → Gives (.activate sess) s (fun t => t.rg Obj.ACTIVATE_RESULT = 1 ∧ t.actRun = none ∧ t.boot = s.boot)) ∧
    (¬ s.quarterWorks ty q → s.boot.copyOk.testBit (otherCopy (s.activeCopy ty q)) = false → Gives (.activate sess) s (fun t =>
      t.rg Obj.ACTIVATE_RESULT = 2 ∧ t.actRun = none ∧ t.boot = s.boot)) ∧
    (¬ s.quarterWorks ty q → s.boot.copyOk.testBit (otherCopy (s.activeCopy ty q)) = true → Gives (.activate sess) s (fun t =>
      t.rg Obj.ACTIVATE_RESULT = 3 ∧ t.actRun = some (g, 0) ∧ (ty = 1 → t.boot.milliner = false))) := by
  have hr : ∀ (u : State) (v : Nat), v < 256 → (u.setRg Obj.ACTIVATE_RESULT v).rg Obj.ACTIVATE_RESULT = v := fun u v hv =>
    State.rg_setRg_small (by rw [objBytes_firmware.2.2.1]; decide) hv u
  have he := State.activate_eq hg ha ht
  refine ⟨fun hb => ?_, fun hb hv => ?_, fun hb hv => ?_⟩ <;>
    refine gives_of_takes (by unfold exec execActivate State.command; rfl) hw ?_ <;> rw [he]
  · rw [if_pos ((s.quarterWorks_iff ty q).2 hb)]
    exact ⟨hr _ _ (by decide), ha, rfl⟩
  · rw [if_neg (fun h => hb ((s.quarterWorks_iff ty q).1 h)), if_pos hv]
    exact ⟨hr _ _ (by decide), ha, rfl⟩
  · rw [if_neg (fun h => hb ((s.quarterWorks_iff ty q).1 h)), if_neg (by simp [hv])]
    exact ⟨hr _ _ (by decide), rfl, fun h => by simp [State.setRg, h]⟩

/-! ### Restart -/

theorem State.refLoad_loadFail (s : State) (code : Nat) : (s.loadFail code).refLoad = none := by
  unfold State.loadFail
  split
  · assumption
  · rfl

theorem State.restartMilliner_spec (s : State) : s.restartMilliner.checks = [] ∧ s.restartMilliner.refLoad = none ∧
    s.restartMilliner.fwRun = none ∧ s.restartMilliner.boot.milliner = true := by
  unfold State.restartMilliner
  extract_lets lost boot s1 s2 s3 s4 s5
  have h2 : s2.boot.milliner = true := rfl
  have hF : Changes [.parts, .part .jobs, .mem] { s2 with checks := [] } s3 :=
    .foldl .refl fun u c => State.changes_abandonCheck u c.1 c.2.1
  have h3 : s3.checks = [] ∧ s3.boot.milliner = true := ⟨hF.kept .checks, (congrArg Boot.milliner (hF.kept .boot)).trans h2⟩
  clear_value s3
  have h4 : s4.checks = [] ∧ s4.boot.milliner = true ∧ s4.refLoad = none :=
    ⟨Eq.trans ((s3.changes_loadFail _).kept .checks) h3.1, (congrArg Boot.milliner ((s3.changes_loadFail _).kept .boot)).trans h3.2,
      s3.refLoad_loadFail _⟩
  clear_value s4
  have h5 : s5.checks = [] ∧ s5.boot.milliner = true ∧ s5.refLoad = none ∧ s5.fwRun = none := by
    obtain ⟨hc, hb, hl⟩ := h4
    unfold s5
    split
    · exact ⟨hc, hb, hl, rfl⟩
    next hn => exact ⟨hc, hb, hl, hn⟩
  clear_value s5
  obtain ⟨hc, hb, hl, hf⟩ := h5
  have hD : Changes [.regs, .regsButJenjo, .regsButStreams, .parts] s5 ((List.range 12).foldl (fun t p => t.dropRecovery p) s5) :=
    .foldl .refl fun u p => State.changes_dropRecovery u p
  generalize (List.range 12).foldl (fun t p => t.dropRecovery p) s5 = u at hD
  exact ⟨Eq.trans (hD.kept .checks) hc, Eq.trans (hD.kept .refLoad) hl, Eq.trans (hD.kept .fwRun) hf, (congrArg Boot.milliner (hD.kept .boot)).trans hb⟩

theorem gives_millinerRestart (hm : s.boot.milliner = true) : Gives (.millinerRestart at_) s (fun t => t.sessions = [] ∧ t.checks = [] ∧
    t.refLoad = none ∧ t.fwRun = none ∧ t.boot.milliner = true ∧ t.clusters = s.clusters ∧
    ∀ p : PartId, (t.pt p).slice = (s.pt p).slice ∧ (t.pt p).gen = (s.pt p).gen) := by
  refine gives_of_takes (by unfold exec execMillinerRestart; rfl) hm ?_
  obtain ⟨hc, hl, hf, hb⟩ := s.restartMilliner_spec
  have hs := s.sessions_restartMilliner
  have hch := s.changes_restartMilliner
  generalize s.restartMilliner = u at hc hl hf hb hs hch
  exact ⟨hs, hc, hl, hf, hb, hch.kept .clusters, fun p => ⟨hch.kept (.part .slice) rfl p, hch.kept (.part .gen) rfl p⟩⟩

/-! ### The end of an activation -/

theorem targetOf_bounds (h : targetOf g = some (ty, q)) : 1 ≤ ty ∧ ty ≤ 4 ∧ activeBit ty q ≤ 12 := by
  unfold targetOf at h
  split at h
  · cases h
    decide
  · split at h
    next hg =>
      cases h
      simp only [Bool.and_eq_true, Bool.or_eq_true, decide_eq_true_eq] at hg
      refine ⟨by omega, by omega, ?_⟩
      unfold activeBit
      split
      · omega
      · omega
    · cases h

/-- ACTIVE_COPIES with the bit of a unit turned. -/
def turnBit (v b : Nat) : Nat := if v.testBit b then clearBit v b else setBit v b

theorem testBit_turnBit (v b : Nat) : (turnBit v b).testBit b = !v.testBit b := by
  unfold turnBit
  cases h : v.testBit b
  · simpa using testBit_setBit_self v b
  · simpa using testBit_clearBit_self v b

theorem State.activeCopy_turned {t : State} (h : targetOf g = some (ty, q))
    (hr : t.rg Obj.ACTIVE_COPIES = turnBit (s.rg Obj.ACTIVE_COPIES) (activeBit ty q) % 2 ^ 16) :
    t.activeCopy ty q = otherCopy (s.activeCopy ty q) := by
  obtain ⟨h1, -, hb⟩ := targetOf_bounds h
  have ht : (t.rg Obj.ACTIVE_COPIES).testBit (activeBit ty q) = !(s.rg Obj.ACTIVE_COPIES).testBit (activeBit ty q) := by
    rw [hr, Nat.testBit_mod_two_pow, testBit_turnBit, decide_eq_true (by omega), Bool.true_and]
  unfold State.activeCopy
  rw [ht]
  cases (s.rg Obj.ACTIVE_COPIES).testBit (activeBit ty q)
  · simp [otherCopy]
  · simp [otherCopy]

theorem notRestarted_activation {k : Nat} (h : k = Obj.ACTIVE_COPIES ∨ k = Obj.ACTIVATE_RESULT) :
    NotRestarted k ∧ k ≠ Obj.BOOT_COPY ∧ ∀ n < 4, k ≠ Obj.MIN_SECURITY_VERSION n := by
  have hi : ∃ a < 256, k = okey 0x9020 a := by
    rcases h with rfl | rfl
    · exact ⟨4, by decide, rfl⟩
    · exact ⟨3, by decide, rfl⟩
  obtain ⟨a, ha, rfl⟩ := hi
  refine ⟨⟨okey_ne_of_index (by decide) ha (by decide), okey_ne_of_index (by decide) ha (by decide), fun j => ⟨?_, ?_⟩, fun q hq =>
    okey_ne_of_index (by omega) ha (by decide)⟩, okey_ne_of_index (by decide) ha (by decide), fun n hn => okey_ne_of_index (by decide) ha (by omega)⟩
  · simp only [Obj.SLOT_STATE, okey]
    omega
  · simp only [Obj.SLOT_RESULT_9045, okey]
    omega

theorem State.restartMilliner_activated (s : State) : s.restartMilliner.actRun = s.actRun ∧
    (∀ k, k = Obj.ACTIVE_COPIES ∨ k = Obj.ACTIVATE_RESULT → s.restartMilliner.rg k = s.rg k) ∧
    s.restartMilliner.sessions = [] ∧ s.restartMilliner.boot.milliner = true :=
  ⟨(State.changes_restartMilliner s).kept .actRun, fun k hk => notRestarted_restartMilliner s k (notRestarted_activation hk).1,
    s.sessions_restartMilliner, s.restartMilliner_spec.2.2.2⟩

/-- Whether the other copy takes over. -/
def State.takesOver (s : State) (ok : Bool) (ty q : Nat) : Prop := ok = true ∧ s.minSv ty ≤ s.copySv (otherCopy (s.activeCopy ty q))

theorem gives_activationDone {y : Nat} (ha : s.actRun = some (g, y)) (ht : targetOf g = some (ty, q)) :
    Gives (.activationDone at_ ok) s (fun t => t.actRun = none ∧
      (s.takesOver ok ty q → t.rg Obj.ACTIVATE_RESULT = 0 ∧ t.activeCopy ty q = otherCopy (s.activeCopy ty q)) ∧
      (¬ s.takesOver ok ty q → t.rg Obj.ACTIVATE_RESULT = 2 ∧ t.activeCopy ty q = s.activeCopy ty q) ∧
      (ty = 1 → t.sessions = [] ∧ t.boot.milliner = true)) := by
  obtain ⟨good, hgood, t, he, hp⟩ : ∃ good : Bool, (good = true ↔ s.takesOver ok ty q) ∧ ∃ t, exec (.activationDone at_ ok) s = .next t ∧ t.actRun = none ∧
      t.rg Obj.ACTIVATE_RESULT = (if good then 0 else 2) ∧
      t.rg Obj.ACTIVE_COPIES = (if good then turnBit (s.rg Obj.ACTIVE_COPIES) (activeBit ty q) % 2 ^ 16 else s.rg Obj.ACTIVE_COPIES) ∧
      (ty = 1 → t.sessions = [] ∧ t.boot.milliner = true) := by
    refine ⟨ok && decide (s.minSv ty ≤ s.copySv (otherCopy (s.activeCopy ty q))), by simp [State.takesOver], ?_⟩
    show ∃ t, execActivationDone at_ ok s = .next t ∧ _
    unfold execActivationDone
    rw [ha]
    dsimp -zeta only
    rw [ht]
    dsimp -zeta only
    refine ⟨_, rfl, ?_⟩
    extract_lets src s1 k good b act s2 s3 u1 u2 bt s4
    have hg : (ok && decide (s.minSv ty ≤ s.copySv (otherCopy (s.activeCopy ty q)))) = good := rfl
    rw [hg]
    have hv : turnBit (s.rg Obj.ACTIVE_COPIES) (activeBit ty q) = if act.testBit b then clearBit act b else setBit act b := rfl
    have hc1 : s1.rg Obj.ACTIVE_COPIES = s.rg Obj.ACTIVE_COPIES := rfl
    have hrun1 : s1.actRun = none := rfl
    rw [hv]
    clear_value s1 k act good
    have h2 : s2.actRun = none ∧ s2.rg Obj.ACTIVE_COPIES =
        (if good then (if act.testBit b then clearBit act b else setBit act b) % 2 ^ 16 else s.rg Obj.ACTIVE_COPIES) := by
      unfold s2
      cases good
      · exact ⟨hrun1, hc1⟩
      · exact ⟨hrun1, State.rg_setRg_bytes objBytes_firmware.2.1 (by decide) s1 _⟩
    clear_value s2
    have h3 : s3.actRun = none ∧ s3.rg Obj.ACTIVATE_RESULT = (if good then 0 else 2) ∧ s3.rg Obj.ACTIVE_COPIES = s2.rg Obj.ACTIVE_COPIES :=
      ⟨h2.1, State.rg_setRg_small (by rw [objBytes_firmware.2.2.1]; decide) (by cases good <;> decide) _, State.rg_setRg_ne _ _ (by decide)⟩
    clear_value s3
    obtain ⟨hrun, hres, hact⟩ := h3
    have hu1 : u1.actRun = none ∧ ∀ k, k = Obj.ACTIVE_COPIES ∨ k = Obj.ACTIVATE_RESULT → u1.rg k = s3.rg k := by
      unfold u1
      cases good
      · exact ⟨hrun, fun _ _ => rfl⟩
      · exact ⟨hrun, fun k hk => State.rg_setRg_ne _ _ (notRestarted_activation hk).2.1⟩
    have hu2 := u1.restartMilliner_activated
    have hu : u1.restartMilliner = u2 := rfl
    rw [hu] at hu2
    clear_value u2 u1
    have h4 : s4.actRun = none ∧ (∀ k, k = Obj.ACTIVE_COPIES ∨ k = Obj.ACTIVATE_RESULT → s4.rg k = s3.rg k) ∧
        (ty = 1 → s4.sessions = [] ∧ s4.boot.milliner = true) := by
      unfold s4
      by_cases hty : ty = 1
      · rw [if_pos hty]
        obtain ⟨h1, h2, h3, h4⟩ := hu2
        exact ⟨h1.trans hu1.1, fun k hk => (h2 k hk).trans (hu1.2 k hk), fun _ => ⟨h3, h4⟩⟩
      · rw [if_neg hty]
        cases good
        · exact ⟨hrun, fun _ _ => rfl, fun h => absurd h hty⟩
        · refine ⟨hrun, fun k hk => State.rg_setRg_ne _ _ ((notRestarted_activation hk).2.2 _ ?_), fun h => absurd h hty⟩
          have := targetOf_bounds ht
          omega
    clear_value s4
    obtain ⟨hrun4, hk4, hs4⟩ := h4
    refine ⟨hrun4, (State.rg_notify ..).trans ((hk4 _ (.inr rfl)).trans hres), (State.rg_notify ..).trans ((hk4 _ (.inl rfl)).trans (hact.trans h2.2)),
      fun hty => ⟨?_, (hs4 hty).2⟩⟩
    simp [State.notify, (hs4 hty).1, notifyAll]
  obtain ⟨hrun, hres, hact, hs⟩ := hp
  refine gives_of_next he ⟨hrun, fun h => ?_, fun h => ?_, hs⟩
  · rw [hgood.2 h, if_pos rfl] at hres hact
    exact ⟨hres, State.activeCopy_turned ht hact⟩
  · rw [if_neg (fun hg => h (hgood.1 hg))] at hres hact
    refine ⟨hres, ?_⟩
    unfold State.activeCopy
    rw [hact]

theorem gives_minSecurityVersionAdvance {d : Nat} (hd : s.boot.svDue = some d) (h : d ≤ at_) (hm : s.boot.milliner = true) :
    Gives (.minSecurityVersionAdvance at_) s (fun t => t.boot.svDue = none ∧
      t.minSv 1 = Nat.max (s.minSv 1) (s.copySv (s.activeCopy 1 0)) % 2 ^ 32) := by
  obtain ⟨t, he, hp⟩ : ∃ t, exec (.minSecurityVersionAdvance at_) s = .next t ∧ (t.boot.svDue = none ∧
      t.minSv 1 = Nat.max (s.minSv 1) (s.copySv (s.activeCopy 1 0)) % 2 ^ 32) := by
    show ∃ t, execMinSecurityVersionAdvance at_ s = .next t ∧ _
    unfold execMinSecurityVersionAdvance
    rw [hd]
    refine ⟨_, takes_of (by simp [h, hm]) _ _, rfl, ?_⟩
    exact State.rg_setRg_bytes objBytes_firmware.2.2.2 (by decide) _ _
  exact gives_of_next he hp

end

/-- Settles O55: what the end of an activation restarts writes neither ACTIVE_COPIES nor ACTIVATE_RESULT. -/
theorem firmwareCommands : Obligations.FirmwareCommands := by
  unfold Obligations.FirmwareCommands
  intro sess at_ ok x s img target g
  refine ⟨fun _ hw => ⟨gives_fwProgram_busy hw, gives_fwProgram hw⟩, fun r => gives_fwProgrammed, fun _ hw ha ty q ht => gives_activate hw rfl ha ht,
    fun k y ty q ha ht => gives_activationDone ha ht, fun d => gives_minSecurityVersionAdvance, gives_millinerRestart⟩

end Sys2Proof.Machine

/-! ## The reference store (R508 to R511, R514) -/

namespace Sys2Proof.Machine
open Sys2Proof

-- Short theorems, many of them: one after another, so that the threads' stacks stay within the check's memory.
set_option Elab.async false

section
variable {s : State} {sess at_ k : Nat} {x : Session} {l : RefLoad}

theorem objBytes_refSlot (k : Fin 16) : objBytes (Obj.SLOT_STATE k) = some 1 ∧ objBytes (Obj.SLOT_BASE_9042 k) = some 8 ∧
    objBytes (Obj.SLOT_RESULT_9045 k) = some 1 := by
  revert k
  decide +kernel

theorem objBytes_REF_RESULT : objBytes Obj.REF_RESULT = some 1 := by decide +kernel

theorem State.win_congr {t : State} (h : t.sessions = s.sessions) (id key : Nat) : t.win id key = s.win id key := by
  unfold State.win
  rw [State.session_congr h]

theorem State.rg_setRg_SLOT_STATE (s : State) {k v : Nat} (hk : k < 16) (hv : v < 256) :
    (s.setRg (Obj.SLOT_STATE k) v).rg (Obj.SLOT_STATE k) = v :=
  State.rg_setRg_small (objBytes_SLOT_STATE ⟨k, hk⟩) hv s

theorem State.rg_setRg_SLOT_RESULT (s : State) {k v : Nat} (hk : k < 16) (hv : v < 256) :
    (s.setRg (Obj.SLOT_RESULT_9045 k) v).rg (Obj.SLOT_RESULT_9045 k) = v :=
  State.rg_setRg_small (by rw [(objBytes_refSlot ⟨k, hk⟩).2.2]; decide) hv s

/-- The objects of a slot of the store are different objects. -/
theorem SLOT_STATE_ne {j : Nat} (hj : j < 16) (k : Nat) (hk : k < 16) : Obj.SLOT_STATE j ≠ Obj.SLOT_BASE_9042 k ∧
    Obj.SLOT_STATE j ≠ Obj.SLOT_SERIAL k ∧ Obj.SLOT_STATE j ≠ Obj.SLOT_RESULT_9045 k :=
  ⟨okey_ne_of_index (by decide) (by omega) (by omega), okey_ne_of_index (by decide) (by omega) (by omega),
    okey_ne_of_index (by decide) (by omega) (by omega)⟩

/-! ### A LOAD that ends early -/

/-- A LOAD has ended with a code, and its range is to be erased. -/
structure RefLoad.Failed (l : RefLoad) (code : Nat) (t : State) : Prop where
  load : t.refLoad = none
  erase : t.refErase = some l.slot
  state : t.rg (Obj.SLOT_STATE l.slot) = 3
  result : t.rg (Obj.SLOT_RESULT_9045 l.slot) = code

theorem RefLoad.Failed.all {code : Nat} {t : State} (h : l.Failed code t) : t.refLoad = none ∧ t.refErase = some l.slot ∧
    t.rg (Obj.SLOT_STATE l.slot) = 3 ∧ t.rg (Obj.SLOT_RESULT_9045 l.slot) = code := ⟨h.load, h.erase, h.state, h.result⟩

theorem State.failed_loadFail {code : Nat} (h : s.refLoad = some l) (hk : l.slot < 16) (hc : code < 256) : l.Failed code (s.loadFail code) := by
  unfold State.loadFail
  rw [h]
  dsimp -zeta only
  extract_lets u
  have hu : u.refLoad = none ∧ u.refErase = some l.slot := ⟨rfl, rfl⟩
  clear_value u
  have h3 := u.rg_setRg_SLOT_STATE hk (v := 3) (by decide)
  have hst : ((u.setRg (Obj.SLOT_STATE l.slot) 3).setRg (Obj.SLOT_RESULT_9045 l.slot) code).rg (Obj.SLOT_STATE l.slot) = 3 :=
    (State.rg_setRg_ne _ _ (SLOT_STATE_ne hk _ hk).2.2).trans h3
  have hres := (u.setRg (Obj.SLOT_STATE l.slot) 3).rg_setRg_SLOT_RESULT hk hc
  exact ⟨hu.1, hu.2, (State.rg_notify ..).trans hst, (State.rg_notify ..).trans hres⟩

theorem State.mem_loadFail (s : State) (code : Nat) : (s.loadFail code).mem = s.mem := (State.changes_loadFail s code).kept .mem

theorem gives_refAbort (hw : s.mayWrite sess Obj.REF_COMMAND 2 = true) (h : s.refLoad = some l) (hk : l.slot < 16) :
    Gives (.refAbort sess) s (l.Failed 0x8A) := by
  refine gives_of_takes (by unfold exec execRefAbort State.command; rfl) hw ?_
  exact State.failed_loadFail (s := s.setWin sess Obj.REF_RESULT 0) h hk (by decide)

theorem gives_refLoadTimeout (h : s.refLoad = some l) (hk : l.slot < 16) (hm : s.boot.milliner = true) (ht : l.since + 60 * 10 ^ 9 ≤ at_) :
    Gives (.refLoadTimeout at_) s (l.Failed 0x8A) := by
  have he : exec (.refLoadTimeout at_) s = .next ((s.at at_).loadFail 0x8A) := by
    show execRefLoadTimeout at_ s = _
    unfold execRefLoadTimeout
    rw [h]
    exact takes_of (by simpa [hm] using ht) _ _
  exact gives_of_next he (State.failed_loadFail (s := s.at at_) h hk (by decide))

/-! ### LOAD and ERASE commands -/

/-- The range that a LOAD of so many bytes takes. -/
def refRange (n : Nat) : Nat := ceilDiv n gib * gib

/-- Whether the store is busy for a slot. -/
def State.refBusy (s : State) (k : Nat) : Prop := s.rg (Obj.SLOT_STATE k) ≠ 0 ∨ s.refLoad ≠ none ∨ s.refErase ≠ none

theorem State.refBusy_iff (s : State) (k : Nat) : (s.rg (Obj.SLOT_STATE k) != 0 || s.refLoad.isSome || s.refErase.isSome) = true ↔ s.refBusy k := by
  unfold State.refBusy
  rw [Bool.or_eq_true, Bool.or_eq_true, bne_iff_ne, Option.isSome_iff_ne_none, Option.isSome_iff_ne_none, or_assoc]

variable {n a : Nat}

/-- A LOAD begun in a slot. -/
def State.loadBegun (s : State) (k : Nat) (r : RefSlot) (l : RefLoad) : State :=
  { s with refs := SMap.put RefSlot.empty s.refs k r, refLoad := some l }

theorem State.refSlot_loadBegun (s : State) (k : Nat) (r : RefSlot) (l : RefLoad) : (s.loadBegun k r l).refSlot k = r := SMap.getD_put_self ..

/-- The free ranges stand in the slots' states and ranges alone. -/
theorem State.refFind_congr {t : State} (hr : t.regs = s.regs) (hf : t.refs = s.refs) (m : Nat) : t.refFind m = s.refFind m := by
  unfold State.refFind State.refRanges State.refSlot State.rg
  rw [hr, hf]

theorem gives_refLoad_busy (h : s.session sess = some x) (hk : s.win sess Obj.REF_SLOT = k) (hn : s.win sess Obj.REF_BYTES = n)
    (hw : s.mayWrite sess Obj.REF_COMMAND 1 = true) (hlen : n ≤ Config.refstoreBytes) (hf : s.refFind (refRange n) = some a) (hb : s.refBusy k) :
    Gives (.refLoad sess) s (fun t => t.win sess Obj.REF_RESULT = 0x88 ∧ t.refLoad = s.refLoad ∧ t.refs = s.refs) := by
  refine gives_of_takes (by unfold exec execRefLoad State.command; rfl) hw ?_
  unfold State.refLoadCmd
  rw [hk, hn]
  extract_lets k1 i n1 range code u v
  have hc : code = 0x88 := by
    have hr : s.refFind range = some a := hf
    unfold code
    rw [firstCode_cons, firstCode_cons, firstCode_cons, if_neg (by simpa [n1] using hlen), if_neg (by simp [hr]), if_pos ((s.refBusy_iff k).2 hb)]
  rw [hc, if_pos (by decide)]
  have hu : u = s.setWin sess Obj.REF_RESULT 0x88 := congrArg (s.setWin sess Obj.REF_RESULT) hc
  rw [hu]
  exact ⟨State.win_setWin_u8 h objBytes_REF_RESULT (by decide), rfl, rfl⟩

/-- What a LOAD begun leaves of what stood before. -/
theorem State.loadBegun_keeps (s : State) (k : Nat) (r : RefSlot) (l : RefLoad) : (s.loadBegun k r l).regs = s.regs ∧
    (s.loadBegun k r l).sessions = s.sessions ∧ (s.loadBegun k r l).refLoad = some l := ⟨rfl, rfl, rfl⟩

/-- A LOAD that its checks accept. -/
theorem State.refLoadCmd_eq (hk : s.win sess Obj.REF_SLOT = k) (hn : s.win sess Obj.REF_BYTES = n)
    {feed : ResEntry} (hfe : s.resE (s.win sess Obj.REF_FEED) = feed) (hlen : n ≤ Config.refstoreBytes) (hf : s.refFind (refRange n) = some a)
    (hst : s.rg (Obj.SLOT_STATE k) = 0) (hl : s.refLoad = none) (he : s.refErase = none) (hlay : feedLayout feed = true)
    (hact : s.actsFor sess (Rs.partition.get feed) = true) : (s.refLoadCmd sess).1 =
      (((s.setWin sess Obj.REF_RESULT 0).setRg (Obj.SLOT_STATE k) 1).setRg (Obj.SLOT_BASE_9042 k) a).loadBegun k ⟨refRange n, n, false, []⟩
        ⟨k, s.win sess Obj.REF_FEED, n, 0, s.now, [], false, 0, sess⟩ := by
  unfold State.refLoadCmd refRange
  rw [hk, hn]
  extract_lets k1 i n1 range code u v
  have hfind : s.refFind range = some a := hf
  have hc : code = 0 := by
    have hi : s.resE i = feed := hfe
    unfold code
    rw [firstCode_cons, firstCode_cons, firstCode_cons, firstCode_cons, firstCode_nil, if_neg (by simpa [n1] using hlen), if_neg (by simp [hfind]),
      if_neg (by simp [k1, hst, hl, he]), if_neg (by simp [hi, hlay, hact])]
  rw [if_neg (by simp [hc])]
  have hu : u = s.setWin sess Obj.REF_RESULT 0 := congrArg (s.setWin sess Obj.REF_RESULT) hc
  have hv : v = (u.setRg (Obj.SLOT_STATE k) 1).setRg (Obj.SLOT_BASE_9042 k) ((u.refFind range).getD refBase) := rfl
  rw [State.refFind_congr (s := s) (t := u) rfl rfl, hfind, Option.getD_some, hu] at hv
  have hnow : v.now = s.now := rfl
  rw [← hv, ← hnow]
  rfl

theorem gives_refLoad (h : s.session sess = some x) (hk : s.win sess Obj.REF_SLOT = k) (hn : s.win sess Obj.REF_BYTES = n)
    {feed : ResEntry} (hfe : s.resE (s.win sess Obj.REF_FEED) = feed)
    (hw : s.mayWrite sess Obj.REF_COMMAND 1 = true) (hlen : n ≤ Config.refstoreBytes) (hf : s.refFind (refRange n) = some a) (h16 : k < 16)
    (hst : s.rg (Obj.SLOT_STATE k) = 0) (hl : s.refLoad = none) (he : s.refErase = none) (hlay : feedLayout feed = true)
    (hact : s.actsFor sess (Rs.partition.get feed) = true) : Gives (.refLoad sess) s (fun t => t.win sess Obj.REF_RESULT = 0 ∧
      t.rg (Obj.SLOT_STATE k) = 1 ∧ t.rg (Obj.SLOT_BASE_9042 k) = a % 2 ^ 64 ∧ (t.refSlot k).range = refRange n ∧
      ∃ y, t.refLoad = some y ∧ y.slot = k ∧ y.next = 0 ∧ y.bytes = n) := by
  refine gives_of_takes (by unfold exec execRefLoad State.command; rfl) hw ?_
  rw [State.refLoadCmd_eq hk hn hfe hlen hf hst hl he hlay hact]
  have hwin : (s.setWin sess Obj.REF_RESULT 0).win sess Obj.REF_RESULT = 0 := State.win_setWin_u8 h objBytes_REF_RESULT (by decide)
  generalize s.setWin sess Obj.REF_RESULT 0 = u at hwin
  obtain ⟨hbase, -, -⟩ := SLOT_STATE_ne h16 k h16
  have hstate : ((u.setRg (Obj.SLOT_STATE k) 1).setRg (Obj.SLOT_BASE_9042 k) a).rg (Obj.SLOT_STATE k) = 1 :=
    (State.rg_setRg_ne _ _ hbase).trans (u.rg_setRg_SLOT_STATE h16 (by decide))
  have hb : ((u.setRg (Obj.SLOT_STATE k) 1).setRg (Obj.SLOT_BASE_9042 k) a).rg (Obj.SLOT_BASE_9042 k) = a % 2 ^ 64 :=
    State.rg_setRg_bytes (objBytes_refSlot ⟨k, h16⟩).2.1 (by decide) _ a
  have hsess : ((u.setRg (Obj.SLOT_STATE k) 1).setRg (Obj.SLOT_BASE_9042 k) a).sessions = u.sessions := by
    rw [State.sessions_setRg, State.sessions_setRg]
  generalize (u.setRg (Obj.SLOT_STATE k) 1).setRg (Obj.SLOT_BASE_9042 k) a = v at hstate hb hsess
  have hslot := v.refSlot_loadBegun k ⟨refRange n, n, false, []⟩ ⟨k, s.win sess Obj.REF_FEED, n, 0, s.now, [], false, 0, sess⟩
  obtain ⟨hregs, hss, hload⟩ := v.loadBegun_keeps k ⟨refRange n, n, false, []⟩ ⟨k, s.win sess Obj.REF_FEED, n, 0, s.now, [], false, 0, sess⟩
  generalize v.loadBegun k ⟨refRange n, n, false, []⟩ ⟨k, s.win sess Obj.REF_FEED, n, 0, s.now, [], false, 0, sess⟩ = w at hslot hregs hss hload
  exact ⟨(State.win_congr (hss.trans hsess) _ _).trans hwin, (rg_of_regs hregs _).trans hstate, (rg_of_regs hregs _).trans hb, by rw [hslot], _,
    hload, rfl, rfl, rfl⟩

/-- Whether the range of a slot is not to be erased now. -/
def State.eraseBarred (s : State) (k : Nat) : Prop :=
  s.refLoad ≠ none ∨ s.refErase ≠ none ∨ s.refUsed (s.rg (Obj.SLOT_BASE_9042 k)) (s.refSlot k).range = true

theorem State.eraseBarred_iff (s : State) (k : Nat) :
    (s.refLoad.isSome || s.refErase.isSome || s.refUsed (s.rg (Obj.SLOT_BASE_9042 k)) (s.refSlot k).range) = true ↔ s.eraseBarred k := by
  unfold State.eraseBarred
  rw [Bool.or_eq_true, Bool.or_eq_true, Option.isSome_iff_ne_none, Option.isSome_iff_ne_none, or_assoc]

theorem gives_refErase (h : s.session sess = some x) (hk : s.win sess Obj.REF_SLOT = k) (h16 : k < 16)
    (hw : s.mayWrite sess Obj.REF_COMMAND 3 = true) (hst : s.rg (Obj.SLOT_STATE k) ≠ 0) :
    (s.eraseBarred k → Gives (.refErase sess) s (fun t => t.win sess Obj.REF_RESULT = 0x88 ∧ t.refErase = s.refErase)) ∧
    (¬ s.eraseBarred k → Gives (.refErase sess) s (fun t => t.win sess Obj.REF_RESULT = 0 ∧ t.rg (Obj.SLOT_STATE k) = 4 ∧
      t.refErase = some k)) := by
  refine ⟨fun hb => ?_, fun hb => ?_⟩ <;> refine gives_of_takes (by unfold exec execRefErase State.command; rfl) hw ?_ <;>
    unfold State.refEraseCmd <;> rw [hk] <;> dsimp only <;> rw [if_neg hst]
  · rw [if_pos ((s.eraseBarred_iff k).2 hb)]
    exact ⟨State.win_setWin_u8 h objBytes_REF_RESULT (by decide), rfl⟩
  · rw [if_neg (fun he => hb ((s.eraseBarred_iff k).1 he))]
    have h4 : (({ s with refErase := some k } : State).setRg (Obj.SLOT_STATE k) 4).rg (Obj.SLOT_STATE k) = 4 :=
      State.rg_setRg_SLOT_STATE _ h16 (by decide)
    have hs : (({ s with refErase := some k } : State).setRg (Obj.SLOT_STATE k) 4).session sess = some x := h
    have he : (({ s with refErase := some k } : State).setRg (Obj.SLOT_STATE k) 4).refErase = some k := rfl
    generalize ({ s with refErase := some k } : State).setRg (Obj.SLOT_STATE k) 4 = u at h4 hs he
    exact ⟨State.win_setWin_u8 hs objBytes_REF_RESULT (by decide), h4, he⟩

/-! ### Chunks -/

theorem State.length_memBytes (s : State) (a n : Nat) : (s.memBytes a n).length = n := by
  unfold State.memBytes
  simp [SMap.range]

theorem State.programRef_spec (s : State) (a : Nat) (bs : List Byte) : SameMemoryOutside a bs.length s (s.programRef a bs) ∧
    (s.programRef a bs).memBytes a bs.length = bs :=
  ⟨fun b hb => State.memByte_memPut_out s a bs b hb, SMap.range_putList 0 s.mem a bs⟩

/-- Bytes of the image that the next chunk carries. -/
def RefLoad.chunkBytes (l : RefLoad) : Nat := Nat.min rowData (l.bytes - l.next * rowData)

variable (h : s.refLoad = some l) (hk : l.slot < 16) (hm : s.boot.milliner = true) (hlay : feedLayout (s.resE l.feed) = true)
  (hlt : l.next * rowData < l.bytes)

section
include h hm hlay hlt

theorem exec_refChunk (hc : s.feedChunk l.feed l.next = l.next ∨ l.next + Rs.rows.get (s.resE l.feed) ≤ s.feedChunk l.feed l.next) :
    exec (.refChunk at_) s = .next ((s.at at_).takeChunk l) := by
  show execRefChunk at_ s = _
  unfold execRefChunk
  rw [h]
  exact takes_of (by simpa [hm, hlay, hlt] using hc) _ _

end

section
include h hk hm hlay hlt

theorem gives_refChunk_overrun (hn : l.next < s.feedChunk l.feed l.next)
    (hc : l.next + Rs.rows.get (s.resE l.feed) ≤ s.feedChunk l.feed l.next) :
    Gives (.refChunk at_) s (fun t => l.Failed 0x89 t ∧ t.mem = s.mem) := by
  refine gives_of_next (exec_refChunk h hm hlay hlt (.inr hc)) ?_
  have he : (s.at at_).takeChunk l = (s.at at_).loadFail 0x89 := by
    unfold State.takeChunk
    exact if_pos hn
  rw [he]
  exact ⟨State.failed_loadFail (s := s.at at_) h hk (by decide), State.mem_loadFail ..⟩

theorem gives_refChunk_short (hc : s.feedChunk l.feed l.next = l.next)
    (hs : s.memLE (s.feedRow l.feed l.next + rowData + 8) 4 < l.chunkBytes) :
    Gives (.refChunk at_) s (fun t => l.Failed 0x84 t ∧ t.mem = s.mem) := by
  refine gives_of_next (exec_refChunk h hm hlay hlt (.inl hc)) ?_
  have he : (s.at at_).takeChunk l = (s.at at_).loadFail 0x84 := by
    have hn : ¬ (s.at at_).feedChunk l.feed l.next > l.next := not_lt_of_ge (le_of_eq hc)
    unfold State.takeChunk
    exact (if_neg hn).trans (if_pos hs)
  rw [he]
  exact ⟨State.failed_loadFail (s := s.at at_) h hk (by decide), State.mem_loadFail ..⟩

end

/-- The store with the next chunk's bytes in place. -/
def State.chunkPlaced (s : State) (l : RefLoad) (at_ : Nat) : State :=
  (s.at at_).programRef (s.rg (Obj.SLOT_BASE_9042 l.slot) + l.next * rowData) (s.memBytes (s.feedRow l.feed l.next) l.chunkBytes)

/-- Whether a segment that the next chunk completes differs from its entry. -/
def State.chunkBad (s : State) (l : RefLoad) (at_ : Nat) : Bool :=
  segmentsBad ((s.chunkPlaced l at_).imageAt (s.rg (Obj.SLOT_BASE_9042 l.slot))) (l.next * rowData) (l.next * rowData + l.chunkBytes)

theorem State.takeChunk_ready (hc : s.feedChunk l.feed l.next = l.next)
    (hs : l.chunkBytes ≤ s.memLE (s.feedRow l.feed l.next + rowData + 8) 4) (hr : l.ready = true) :
    (s.at at_).takeChunk l = if s.chunkBad l at_ = true then (s.chunkPlaced l at_).loadFail 0x84
      else { s.chunkPlaced l at_ with refLoad := some { l with next := l.next + 1, since := Nat.max s.now at_ } } := by
  have hn : ¬ (s.at at_).feedChunk l.feed l.next > l.next := not_lt_of_ge (le_of_eq hc)
  have hs' : ¬ (s.at at_).memLE ((s.at at_).feedRow l.feed l.next + rowData + 8) 4 < Nat.min rowData (l.bytes - l.next * rowData) :=
    not_lt_of_ge hs
  unfold State.takeChunk
  exact (if_neg hn).trans ((if_neg hs').trans (if_pos hr))

section
include h hm hlay hlt

theorem gives_refChunk (hc : s.feedChunk l.feed l.next = l.next)
    (hs : l.chunkBytes ≤ s.memLE (s.feedRow l.feed l.next + rowData + 8) 4) (hr : l.ready = true) (hg : s.chunkBad l at_ = false) :
    Gives (.refChunk at_) s (fun t => t.refLoad = some { l with next := l.next + 1, since := Nat.max s.now at_ } ∧
      SameMemoryOutside (s.rg (Obj.SLOT_BASE_9042 l.slot) + l.next * rowData) l.chunkBytes s t ∧
      t.memBytes (s.rg (Obj.SLOT_BASE_9042 l.slot) + l.next * rowData) l.chunkBytes = s.memBytes (s.feedRow l.feed l.next) l.chunkBytes) := by
  refine gives_of_next (exec_refChunk h hm hlay hlt (.inl hc)) ?_
  rw [State.takeChunk_ready hc hs hr, if_neg (by simp [hg])]
  have hp := (s.at at_).programRef_spec (s.rg (Obj.SLOT_BASE_9042 l.slot) + l.next * rowData)
    (s.memBytes (s.feedRow l.feed l.next) l.chunkBytes)
  rw [State.length_memBytes] at hp
  exact ⟨rfl, hp.1, hp.2⟩

include hk in
theorem gives_refChunk_bad (hc : s.feedChunk l.feed l.next = l.next)
    (hs : l.chunkBytes ≤ s.memLE (s.feedRow l.feed l.next + rowData + 8) 4) (hr : l.ready = true) (hb : s.chunkBad l at_ = true) :
    Gives (.refChunk at_) s (fun t => l.Failed 0x84 t ∧
      SameMemoryOutside (s.rg (Obj.SLOT_BASE_9042 l.slot) + l.next * rowData) l.chunkBytes s t) := by
  refine gives_of_next (exec_refChunk h hm hlay hlt (.inl hc)) ?_
  rw [State.takeChunk_ready hc hs hr, if_pos hb]
  have hp := (s.at at_).programRef_spec (s.rg (Obj.SLOT_BASE_9042 l.slot) + l.next * rowData)
    (s.memBytes (s.feedRow l.feed l.next) l.chunkBytes)
  rw [State.length_memBytes] at hp
  exact ⟨State.failed_loadFail (s := s.chunkPlaced l at_) h hk (by decide), fun b hout =>
    (State.memByte_congr (State.mem_loadFail ..) b).trans (hp.1 b hout)⟩

end

/-! ### The end of a LOAD and of an erasure -/

include h hk hm in
theorem gives_imageLoaded (hr : l.ready = true) (hn : l.bytes ≤ l.next * rowData) : Gives (.imageLoaded at_) s (fun t => t.refLoad = none ∧
    t.rg (Obj.SLOT_STATE l.slot) = 2 ∧ t.rg (Obj.SLOT_RESULT_9045 l.slot) = 0 ∧ t.mem = s.mem) := by
  obtain ⟨t, he, hp⟩ : ∃ t, exec (.imageLoaded at_) s = .next t ∧ (t.refLoad = none ∧
      t.rg (Obj.SLOT_STATE l.slot) = 2 ∧ t.rg (Obj.SLOT_RESULT_9045 l.slot) = 0 ∧ t.mem = s.mem) := by
    show ∃ t, execImageLoaded at_ s = .next t ∧ _
    unfold execImageLoaded
    rw [h]
    refine ⟨_, takes_of (by simpa [hm, hr] using hn) _ _, ?_⟩
    unfold State.draw
    dsimp -zeta only
    extract_lets base u v w
    have hu : u.refLoad = none ∧ u.mem = s.mem := ⟨rfl, rfl⟩
    clear_value u base
    have hv : v.rg (Obj.SLOT_STATE l.slot) = 2 :=
      (State.rg_setRg_ne _ _ (SLOT_STATE_ne hk _ hk).2.1).trans (u.rg_setRg_SLOT_STATE hk (by decide))
    have hvu : v.refLoad = u.refLoad ∧ v.mem = u.mem := ⟨rfl, rfl⟩
    clear_value v
    have hw : w.rg (Obj.SLOT_STATE l.slot) = 2 ∧ w.rg (Obj.SLOT_RESULT_9045 l.slot) = 0 ∧ w.refLoad = v.refLoad ∧ w.mem = v.mem :=
      ⟨(State.rg_setRg_ne _ _ (SLOT_STATE_ne hk _ hk).2.2).trans hv, v.rg_setRg_SLOT_RESULT hk (by decide), rfl, rfl⟩
    clear_value w
    exact ⟨hw.2.2.1.trans (hvu.1.trans hu.1), (State.rg_notify ..).trans hw.1, (State.rg_notify ..).trans hw.2.1, hw.2.2.2.trans (hvu.2.trans hu.2)⟩
  exact gives_of_next he hp

theorem gives_eraseDone {j : Nat} (he : s.refErase = some j) (hj : j < 16) : Gives (.eraseDone at_) s (fun t => t.refErase = none ∧
    t.rg (Obj.SLOT_STATE j) = 0 ∧ SameMemoryOutside (s.rg (Obj.SLOT_BASE_9042 j)) (s.refSlot j).range s t ∧
    ∀ b, s.rg (Obj.SLOT_BASE_9042 j) ≤ b → b < s.rg (Obj.SLOT_BASE_9042 j) + (s.refSlot j).range → t.memByte b = 0) := by
  obtain ⟨t, hx, hp⟩ : ∃ t, exec (.eraseDone at_) s = .next t ∧ (t.refErase = none ∧ t.rg (Obj.SLOT_STATE j) = 0 ∧
      t.mem = s.mem.filter (fun c => !(s.rg (Obj.SLOT_BASE_9042 j) ≤ c.1 && c.1 < s.rg (Obj.SLOT_BASE_9042 j) + (s.refSlot j).range))) := by
    show ∃ t, execEraseDone at_ s = .next t ∧ _
    unfold execEraseDone
    rw [he]
    refine ⟨_, rfl, ?_⟩
    extract_lets a n src u
    have hu : u.refErase = none ∧ u.mem = s.mem.filter (fun c => !(a ≤ c.1 && c.1 < a + n)) := ⟨rfl, rfl⟩
    clear_value u
    refine ⟨hu.1, ?_, hu.2⟩
    have h0 := u.rg_setRg_SLOT_STATE hj (v := 0) (by decide)
    obtain ⟨hb, hs, -⟩ := SLOT_STATE_ne hj j hj
    exact (State.rg_setRg_ne _ _ hs).trans ((State.rg_setRg_ne _ _ hb).trans h0)
  obtain ⟨h1, h2, hmem⟩ := hp
  generalize s.rg (Obj.SLOT_BASE_9042 j) = a at hmem ⊢
  generalize (s.refSlot j).range = n at hmem ⊢
  have hb : ∀ b, t.memByte b = SMap.getD 0 (s.mem.filter (fun c => !(a ≤ c.1 && c.1 < a + n))) b := fun b => congrArg (SMap.getD 0 · b) hmem
  refine gives_of_next hx ⟨h1, h2, fun b hout => ?_, fun b hlo hhi => ?_⟩
  · rw [hb]
    exact congrArg (·.getD 0) (SMap.get?_filter_keys s.mem (fun c => !(a ≤ c && c < a + n)) (by simp; omega))
  · rw [hb]
    exact SMap.getD_filter_out 0 s.mem (fun c => !(a ≤ c && c < a + n)) (by simp; omega)

end

/-- Settles O56: a chunk's bytes go into the slot's range alone, and a LOAD that ends leaves its range to be erased. -/
theorem referenceStoreCommands : Obligations.ReferenceStoreCommands := by
  unfold Obligations.ReferenceStoreCommands
  intro sess at_ x l s k n feed range failed
  have hf : ∀ code t, l.Failed code t → failed code t := fun code t h => h.all
  have hg : ∀ {i : Instr} {code : Nat}, Gives i s (l.Failed code) → Gives i s (failed code) := fun ⟨t, ht, hp⟩ => ⟨t, ht, hf _ _ hp⟩
  have hg' : ∀ {i : Instr} {code : Nat} {q : State → Prop}, Gives i s (fun t => l.Failed code t ∧ q t) → Gives i s (fun t => failed code t ∧ q t) :=
    fun ⟨t, ht, hp, hq⟩ => ⟨t, ht, hf _ _ hp, hq⟩
  refine ⟨fun h h16 => ⟨fun a hw hlen hfi => ⟨gives_refLoad_busy h rfl rfl hw hlen hfi, fun hst hl he hlay hact =>
      gives_refLoad h rfl rfl rfl hw hlen hfi h16 hst hl he hlay hact⟩, fun hw hst => gives_refErase h rfl h16 hw hst⟩,
    fun h hk => ⟨fun hw => hg (gives_refAbort hw h hk), fun hm ht => hg (gives_refLoadTimeout h hk hm ht), fun hm hlay hlt =>
      ⟨fun hn hc => hg' (gives_refChunk_overrun h hk hm hlay hlt hn hc), fun hc hs => hg' (gives_refChunk_short h hk hm hlay hlt hc hs),
        gives_refChunk h hm hlay hlt, fun hc hs hr hb => hg' (gives_refChunk_bad h hk hm hlay hlt hc hs hr hb)⟩,
      fun hm => gives_imageLoaded h hk hm⟩,
    fun j => gives_eraseDone⟩

end Sys2Proof.Machine

/-! ## Power on, boot, recovery and shutdown (R10, R461, R500 to R502, R527 to R531) -/

namespace Sys2Proof.Machine
open Sys2Proof

-- Short theorems, many of them: one after another, so that the threads' stacks stay within the check's memory.
set_option Elab.async false

section
variable {s : State} {at_ lowNs bad k : Nat} {keyOk : Bool}

theorem objBytes_supply : objBytes Obj.VIN_MV = some 4 ∧ objBytes Obj.LAST_SHUTDOWN ≠ some 0 ∧ objBytes Obj.MODULE_STATE ≠ some 0 ∧
    objBytes Obj.BOOT_COPY ≠ some 0 ∧ objBytes Obj.GDDR7_PRESENT = some 8 := by decide +kernel

/-! ### The supply -/

theorem gives_vinApplied {mv : Nat} {rst : Bool} (hv : s.power.vin = false) (hlo : 48000 ≤ mv) (hhi : mv ≤ 58000) :
    Gives (.vinApplied at_ mv rst) s (fun t => t.rg Obj.VIN_MV = mv ∧ t.power.vin = true ∧
      t.power.rst = rst ∧ t.power.armed = true ∧ t.power.good = false ∧ t.power.up = false) := by
  refine gives_of_takes (by unfold exec execVinApplied; rfl) (by simp [hv, hlo, hhi]) ?_
  exact ⟨(State.rg_setRg_bytes objBytes_supply.1 (by decide) _ mv).trans (Nat.mod_eq_of_lt (by omega)), rfl, rfl, rfl, rfl, rfl⟩

theorem gives_powerOnSequence {times : List Nat} (hv : s.power.vin = true) (hg : s.power.good = false) (hs : s.power.seq = none)
    (ha : s.power.armed = true ∨ 10000000 ≤ lowNs) :
    (railsMet times railLimits 0 = 8 → Gives (.powerOnSequence at_ lowNs times) s (fun t => t.power.good = true ∧ t.power.rst = true ∧
      t.power.goodAt = Nat.max s.now at_ + times.getLastD 0 ∧ t.now = t.power.goodAt)) ∧
    (railsMet times railLimits 0 ≠ 8 → Gives (.powerOnSequence at_ lowNs times) s (fun t => t.power.good = false ∧
      t.power.seq = some (Nat.max s.now at_, railsMet times railLimits 0))) := by
  have hc : (s.power.vin && !s.power.good && s.power.seq.isNone && (s.power.armed || lowNs ≥ 10000000)) = true := by
    simpa [hv, hg, hs] using ha
  have h8 : railLimits.length = 8 := rfl
  refine ⟨fun hr => gives_of_takes (by unfold exec execPowerOnSequence; rfl) hc ?_,
    fun hr => gives_of_takes (by unfold exec execPowerOnSequence; rfl) hc ?_⟩
  · dsimp only
    rw [if_pos (hr.trans h8.symm)]
    exact ⟨rfl, rfl, rfl, Nat.max_eq_right (Nat.le_add_right ..)⟩
  · dsimp only
    rw [if_neg (fun h => hr (h.trans h8))]
    exact ⟨hg, rfl⟩

theorem gives_railTimeout {b n : Nat} (hs : s.power.seq = some (b, n)) (ht : b + railLimits.getD n 0 ≤ at_) :
    Gives (.railTimeout at_) s (fun t => t.power.seq = none ∧ t.power.good = false ∧ t.rg Obj.LAST_SHUTDOWN = 6) := by
  obtain ⟨t, he, hp⟩ : ∃ t, exec (.railTimeout at_) s = .next t ∧ (t.power.seq = none ∧ t.power.good = false ∧ t.rg Obj.LAST_SHUTDOWN = 6) := by
    show ∃ t, execRailTimeout at_ s = .next t ∧ _
    unfold execRailTimeout
    rw [hs]
    exact ⟨_, takes_of (by simpa using ht) _ _, rfl, rfl, State.rg_setRg_small objBytes_supply.2.1 (by decide) _⟩
  exact gives_of_next he hp

/-! ### The start of the milliner -/

theorem SMap.getD_foldl_ins_of_none {α : Type} (d : α) (l m : SMap α) {k : Nat} (h : SMap.get? l k = none) :
    SMap.getD d (l.foldl (fun m kv => SMap.ins m kv.1 kv.2) m) k = SMap.getD d m k := by
  induction l generalizing m with
  | nil => rfl
  | cons kv l ih =>
    obtain ⟨j, v⟩ := kv
    have hj : j ≠ k := fun hjk => by simp [SMap.get?, hjk] at h
    have hl : SMap.get? l k = none := by simpa [SMap.get?, hj] using h
    exact (ih _ hl).trans (SMap.getD_ins_ne d m v (Ne.symm hj))

/-- A milliner that started from a copy. -/
theorem State.startMilliner_spec (s : State) (hk : k < 2) : (s.startMilliner k).boot.milliner = true ∧
    (s.startMilliner k).boot.romRecovery = false ∧ (s.startMilliner k).activeCopy 1 0 = k ∧
    (s.startMilliner k).boot.nor = s.boot.nor ∧ (s.startMilliner k).boot.copyOk = s.boot.copyOk ∧
    (s.startMilliner k).boot.keyOk = s.boot.keyOk ∧ (s.startMilliner k).power = s.power ∧
    ∀ key, key ≠ Obj.ACTIVE_COPIES → SMap.get? s.mram.regs key = none → (s.startMilliner k).rg key = s.rg key := by
  unfold State.startMilliner
  extract_lets u act bt
  have hu : u.power = s.power ∧ u.boot = s.boot ∧ ∀ key, SMap.get? s.mram.regs key = none → u.rg key = s.rg key :=
    ⟨rfl, rfl, fun key h => congrArg BitVec.toNat (SMap.getD_foldl_ins_of_none _ _ _ h)⟩
  obtain ⟨hp, hb, hr⟩ := hu
  refine ⟨rfl, rfl, ?_, (congrArg Boot.nor hb : u.boot.nor = _), (congrArg Boot.copyOk hb : u.boot.copyOk = _),
    (congrArg Boot.keyOk hb : u.boot.keyOk = _), hp, fun key hne h => ?_⟩
  · unfold State.activeCopy
    rw [State.rg_setRg_bytes objBytes_firmware.2.1 (by decide), Nat.testBit_mod_two_pow]
    have h01 : k = 0 ∨ k = 1 := by omega
    have hbit : activeBit 1 0 = 0 := rfl
    rcases h01 with rfl | rfl
    · rw [hbit, if_neg (show ¬ 0 % 2 = 1 by decide), testBit_clearBit_self]
      rfl
    · rw [hbit, if_pos (show 1 % 2 = 1 by decide), testBit_setBit_self]
      rfl
  · exact (State.rg_setRg_ne _ _ hne).trans (hr key h)

/-- What decides whether a copy passes. -/
theorem State.copyPasses_congr {t : State} (hb : t.boot.copyOk.testBit k = s.boot.copyOk.testBit k) (hn : t.boot.nor = s.boot.nor)
    (hr : t.minSv (k / 2 + 1) = s.minSv (k / 2 + 1)) : t.copyPasses bad k = s.copyPasses bad k := by
  unfold State.copyPasses State.copySv
  dsimp only
  rw [hb, hn, hr]

/-- The module out of reset, before the ROM has tried a copy. -/
def State.released (s : State) (at_ : Nat) (keyOk : Bool) : State :=
  ({ s.at at_ with power := { s.power with up := true }, boot := { s.boot with keyOk := keyOk } } : State).setRg Obj.MODULE_STATE
    (if keyOk then 0 else 3)

theorem State.released_spec (s : State) (at_ : Nat) (keyOk : Bool) : (s.released at_ keyOk).power.up = true ∧
    (s.released at_ keyOk).boot = { s.boot with keyOk := keyOk } ∧ (s.released at_ keyOk).rg Obj.MODULE_STATE = (if keyOk then 0 else 3) ∧
    (s.released at_ keyOk).mram = s.mram ∧ ∀ key, key ≠ Obj.MODULE_STATE → (s.released at_ keyOk).rg key = s.rg key :=
  ⟨rfl, rfl, State.rg_setRg_small objBytes_supply.2.2.1 (by cases keyOk <;> decide) _, rfl, fun _ h => State.rg_setRg_ne _ _ h⟩

theorem testBit_clearBit_other {v i b : Nat} (h : b ≠ i) : (clearBit v i).testBit b = v.testBit b := testBit_clearBit_ne h

theorem State.copyFailed_spec (s : State) (k : Nat) : (s.copyFailed k).boot = { s.boot with copyOk := clearBit s.boot.copyOk k } ∧
    (s.copyFailed k).power = s.power ∧ (s.copyFailed k).mram = s.mram ∧
    ∀ key, key ≠ Obj.BOOT_FAILURES → (s.copyFailed k).rg key = s.rg key :=
  ⟨rfl, rfl, rfl, fun _ h => State.rg_incRg_ne _ _ h⟩

theorem MODULE_STATE_ne_MIN_SECURITY_VERSION (n : Nat) : Obj.MIN_SECURITY_VERSION n ≠ Obj.MODULE_STATE := by
  simp only [Obj.MIN_SECURITY_VERSION, Obj.MODULE_STATE, okey]
  omega

/-- What the ROM leads to once the module is out of reset. -/
theorem exec_resetRelease (hg : s.power.good = true) (hr : s.power.rst = true) (hu : s.power.up = false) (ht : s.power.goodAt + 10000000 ≤ at_)
    {u : State} (hu' : s.released at_ keyOk = u) (hk : s.rg Obj.BOOT_COPY % 2 = k) :
    exec (.resetRelease at_ bad keyOk) s = .next (if u.copyPasses bad k = true then u.startMilliner k
      else if (u.copyFailed k).copyPasses bad (1 - k) = true then (u.copyFailed k).startMilliner (1 - k)
      else { (u.copyFailed k).copyFailed (1 - k) with boot := { ((u.copyFailed k).copyFailed (1 - k)).boot with romRecovery := true } }) := by
  have hb : u.rg Obj.BOOT_COPY % 2 = k := by
    rw [← hk, ← hu']
    exact congrArg (· % 2) ((s.released_spec at_ keyOk).2.2.2.2 _ (by decide))
  subst hb
  subst hu'
  show execResetRelease at_ bad keyOk s = _
  unfold execResetRelease
  exact takes_of (by simp [hg, hr, hu, ht]) _ _

theorem State.copyPasses_released : (s.released at_ keyOk).copyPasses bad k = s.copyPasses bad k := by
  obtain ⟨-, hb, -, -, hr⟩ := s.released_spec at_ keyOk
  exact State.copyPasses_congr (by rw [hb]) (by rw [hb]) (hr _ (MODULE_STATE_ne_MIN_SECURITY_VERSION _))

theorem State.copyPasses_copyFailed {j : Nat} (hj : j < 2) (hne : j ≠ k) : (s.copyFailed k).copyPasses bad j = s.copyPasses bad j := by
  obtain ⟨hb, -, -, hr⟩ := s.copyFailed_spec k
  refine State.copyPasses_congr ?_ (by rw [hb]) (hr _ ?_)
  · rw [hb]
    exact testBit_clearBit_ne hne
  · have h : j / 2 = 0 := by omega
    rw [h]
    decide

theorem gives_resetRelease (hg : s.power.good = true) (hr : s.power.rst = true) (hu : s.power.up = false)
    (ht : s.power.goodAt + 10000000 ≤ at_) (hk : s.rg Obj.BOOT_COPY % 2 = k) : Gives (.resetRelease at_ bad keyOk) s (fun t =>
      t.power.up = true ∧ t.boot.keyOk = keyOk ∧ (SMap.get? s.mram.regs Obj.MODULE_STATE = none → t.rg Obj.MODULE_STATE = (if keyOk then 0 else 3)) ∧
      (s.copyPasses bad k = true → t.boot.milliner = true ∧ t.activeCopy 1 0 = k) ∧
      (s.copyPasses bad k = false → s.copyPasses bad (1 - k) = true → t.boot.milliner = true ∧ t.activeCopy 1 0 = 1 - k) ∧
      (s.copyPasses bad k = false → s.copyPasses bad (1 - k) = false → t.boot.romRecovery = true ∧ t.boot.milliner = s.boot.milliner)) := by
  have hk2 : k < 2 := by omega
  have hp := State.copyPasses_released (s := s) (at_ := at_) (keyOk := keyOk) (bad := bad) (k := k)
  have hp' := State.copyPasses_released (s := s) (at_ := at_) (keyOk := keyOk) (bad := bad) (k := 1 - k)
  obtain ⟨hup, hb, hm, hmr, -⟩ := s.released_spec at_ keyOk
  have he := exec_resetRelease (bad := bad) hg hr hu ht (keyOk := keyOk) rfl hk
  generalize s.released at_ keyOk = u at hp hp' hup hb hm hmr he
  refine gives_of_next he ?_
  obtain ⟨hfb, hfp, hfm, hfr⟩ := u.copyFailed_spec k
  have hq := State.copyPasses_copyFailed (s := u) (bad := bad) (k := k) (j := 1 - k) (by omega) (by omega)
  by_cases h1 : s.copyPasses bad k = true
  · rw [if_pos (hp.trans h1)]
    obtain ⟨hmil, -, hact, -, -, hko, hpo, hrg⟩ := u.startMilliner_spec hk2
    refine ⟨(congrArg Power.up hpo).trans hup, hko.trans (by rw [hb]), fun hn => (hrg _ (by decide) (hmr ▸ hn)).trans hm, fun _ => ⟨hmil, hact⟩,
      fun h => absurd h1 (by simp [h]), fun h => absurd h1 (by simp [h])⟩
  · rw [if_neg (fun h => h1 (hp.symm.trans h))]
    by_cases h2 : s.copyPasses bad (1 - k) = true
    · rw [if_pos (hq.trans (hp'.trans h2))]
      obtain ⟨hmil, -, hact, -, -, hko, hpo, hrg⟩ := (u.copyFailed k).startMilliner_spec (k := 1 - k) (by omega)
      refine ⟨(congrArg Power.up (hpo.trans hfp)).trans hup, hko.trans (by rw [hfb, hb]), fun hn => ?_, fun h => absurd h h1,
        fun _ _ => ⟨hmil, hact⟩, fun _ h => absurd h2 (by simp [h])⟩
      exact (hrg _ (by decide) (by rw [hfm, hmr]; exact hn)).trans ((hfr _ (by decide)).trans hm)
    · rw [if_neg (fun h => h2 (hp'.symm.trans (hq.symm.trans h)))]
      obtain ⟨hgb, hgp, -, hgr⟩ := (u.copyFailed k).copyFailed_spec (1 - k)
      refine ⟨(congrArg Power.up (hgp.trans hfp)).trans hup, ?_, fun _ => (hgr _ (by decide)).trans ((hfr _ (by decide)).trans hm),
        fun h => absurd h h1, fun _ h => absurd h h2, fun _ _ => ⟨rfl, ?_⟩⟩
      · dsimp only
        rw [hgb, hfb, hb]
      · dsimp only
        rw [hgb, hfb, hb]

/-! ### ROM recovery -/

/-- The image once a datagram's bytes have joined it. -/
def State.romImage (s : State) (data : List Byte) : List Byte := (if leNat (data.take 8) = 0 then [] else s.boot.romBytes) ++ data.drop 8

/-- Whether an image is complete. -/
def romDone (img : List Byte) : Prop := 4096 ≤ img.length ∧ pyFormatOk (listImage img) = true ∧ pyBytes (listImage img) ≤ img.length

/-- Whether a complete image passes. -/
abbrev State.romPasses (s : State) (img : List Byte) : Prop :=
  img.length = pyBytes (listImage img) ∧ pyCheck (listImage img) img.length [1] [Config.romKeyHash] (s.minSv 1) = 0

/-- Copy A written with an image, and chosen. -/
def State.romWritten (s : State) (img : List Byte) : State :=
  (({ s with boot := { s.boot with nor := SMap.ins s.boot.nor 0 img } } : State).setCopyOk 0 true).setRg Obj.BOOT_COPY 0

section
variable {data : List Byte} (hup : s.power.up = true) (hrom : s.boot.romRecovery = true) (h8 : 8 ≤ data.length) (hlen : data.length ≤ 8200)
  (hoff : leNat (data.take 8) = s.boot.romBytes.length ∨ leNat (data.take 8) = 0) (hlim : leNat (data.take 8) + (data.length - 8) ≤ fwLimit)

section
include h8 hlen hoff hlim

/-- A datagram that continues the image, or begins it anew, is taken. -/
theorem State.romFits : ¬ (data.length < 8 || (data.drop 8).length > 8192 ||
    !(leNat (data.take 8) == s.boot.romBytes.length || leNat (data.take 8) == 0) || leNat (data.take 8) + (data.drop 8).length > fwLimit) = true := by
  have hb : (data.drop 8).length = data.length - 8 := List.length_drop
  rw [hb]
  simp only [Bool.or_eq_true, decide_eq_true_eq, Bool.not_eq_true', Bool.or_eq_false_iff, beq_eq_false_iff_ne, ne_eq]
  omega

end

include hup hrom h8 hlen hoff hlim

theorem gives_romRecovery_more (hd : ¬ romDone (s.romImage data)) : Gives (.romRecoveryDatagram data) s (fun t =>
    t.boot.romBytes = s.romImage data ∧ t.boot.romRecovery = true ∧ t.boot.nor = s.boot.nor) := by
  have hmore : ((s.romImage data).length < 4096 || !pyFormatOk (listImage (s.romImage data)) ||
      (s.romImage data).length < pyBytes (listImage (s.romImage data))) = true := by
    unfold romDone at hd
    simp only [Bool.or_eq_true, decide_eq_true_eq, Bool.not_eq_true']
    by_contra h
    simp only [not_or, not_lt, Bool.not_eq_false] at h
    exact hd ⟨h.1.1, h.1.2, h.2⟩
  have he : exec (.romRecoveryDatagram data) s = .next { s with boot := { s.boot with romBytes := s.romImage data } } := by
    show execRomRecoveryDatagram data s = _
    unfold execRomRecoveryDatagram
    exact (takes_of (by simp [hup, hrom]) _ _).trans
      (congrArg Host.Outcome.next ((if_neg (State.romFits h8 hlen hoff hlim)).trans (if_pos hmore)))
  exact gives_of_next he ⟨rfl, hrom, rfl⟩

theorem gives_romRecovery_done (hd : romDone (s.romImage data)) :
    (s.romPasses (s.romImage data) → exec (.romRecoveryDatagram data) s = .next ((s.romWritten (s.romImage data)).startMilliner 0)) ∧
    (¬ s.romPasses (s.romImage data) → exec (.romRecoveryDatagram data) s = .next s) := by
  obtain ⟨hd1, hd2, hd3⟩ := hd
  have hmore : ¬ ((s.romImage data).length < 4096 || !pyFormatOk (listImage (s.romImage data)) ||
      (s.romImage data).length < pyBytes (listImage (s.romImage data))) = true := by
    simp only [hd2, Bool.or_eq_true, decide_eq_true_eq, Bool.not_true, Bool.false_eq_true, or_false]
    omega
  have hiff : ((s.romImage data).length = pyBytes (listImage (s.romImage data)) &&
      pyCheck (listImage (s.romImage data)) (s.romImage data).length [1] [Config.romKeyHash] (s.minSv 1) = 0) = true ↔
      s.romPasses (s.romImage data) := by
    unfold State.romPasses
    rw [Bool.and_eq_true, decide_eq_true_eq, decide_eq_true_eq]
  have he : ∀ {t : State} , (if ((s.romImage data).length = pyBytes (listImage (s.romImage data)) &&
      pyCheck (listImage (s.romImage data)) (s.romImage data).length [1] [Config.romKeyHash] (s.minSv 1) = 0) = true then
        (s.romWritten (s.romImage data)).startMilliner 0 else s) = t → exec (.romRecoveryDatagram data) s = .next t := by
    intro t ht
    show execRomRecoveryDatagram data s = _
    unfold execRomRecoveryDatagram
    exact (takes_of (by simp [hup, hrom]) _ _).trans
      (congrArg Host.Outcome.next ((if_neg (State.romFits h8 hlen hoff hlim)).trans ((if_neg hmore).trans ht)))
  exact ⟨fun h => he (if_pos (hiff.2 h)), fun h => he (if_neg (fun hc => h (hiff.1 hc)))⟩

theorem gives_romRecovery (hd : romDone (s.romImage data)) : Gives (.romRecoveryDatagram data) s (fun t =>
    if s.romPasses (s.romImage data) then
      SMap.get? t.boot.nor 0 = some (s.romImage data) ∧ t.boot.copyOk.testBit 0 = true ∧ t.boot.milliner = true ∧ t.boot.romRecovery = false ∧
      t.activeCopy 1 0 = 0 ∧ (SMap.get? s.mram.regs Obj.BOOT_COPY = none → t.rg Obj.BOOT_COPY = 0)
    else t = s) := by
  obtain ⟨hgood, hbad⟩ := gives_romRecovery_done hup hrom h8 hlen hoff hlim hd
  generalize s.romImage data = img at hgood hbad ⊢
  by_cases hp : s.romPasses img
  · have hw : (s.romWritten img).boot.nor = SMap.ins s.boot.nor 0 img ∧ (s.romWritten img).boot.copyOk = setBit s.boot.copyOk 0 ∧
        (s.romWritten img).mram = s.mram ∧ (s.romWritten img).rg Obj.BOOT_COPY = 0 :=
      ⟨rfl, rfl, rfl, State.rg_setRg_small objBytes_supply.2.2.2.1 (by decide) _⟩
    have he := hgood hp
    generalize s.romWritten img = u at hw he
    obtain ⟨hmil, hrr, hact, hnor, hok, -, -, hrg⟩ := u.startMilliner_spec (k := 0) (by decide)
    refine gives_of_next he ?_
    rw [if_pos hp]
    exact ⟨by rw [hnor, hw.1, SMap.get?_ins_self], by rw [hok, hw.2.1]; exact testBit_setBit_self _ _, hmil, hrr, hact,
      fun hn => (hrg _ (by decide) (by rw [hw.2.2.1]; exact hn)).trans hw.2.2.2⟩
  · refine gives_of_next (hbad hp) ?_
    rw [if_neg hp]

end

/-! ### The boot of the helpers -/

/-- The tables' registers, which no boot of the helpers writes. -/
def TableKey (k : Nat) : Prop := k / 256 = 0x5000

theorem TableKey.ne {k i a : Nat} (h : TableKey k) (hi : i ≠ 0x5000) (ha : a < 256) : k ≠ okey i a := by
  intro he
  unfold TableKey at h
  rw [he, okey] at h
  omega

/-- Whether a device holds a table stands in the tables' registers alone. -/
theorem State.holdsTable_congr {t : State} (h : RgKept TableKey s t) (d : Nat) : t.holdsTable d = s.holdsTable d := by
  have hs : t.rg Obj.TABLES_SET = s.rg Obj.TABLES_SET := h _ (show Obj.TABLES_SET / 256 = 0x5000 by decide)
  unfold State.holdsTable State.tableSet
  rw [hs]
  rw [Bool.eq_iff_iff, List.any_eq_true, List.any_eq_true]
  refine exists_congr fun i => and_congr_right fun hi => ?_
  have hi6 : i < 6 := List.mem_range.1 hi
  have hk : TableKey (okey 0x5000 (i + 1)) := by
    unfold TableKey okey
    omega
  rw [h _ hk]

theorem tableKept_loadHelper (s : State) (bad t q : Nat) : RgKept TableKey s (s.loadHelper bad t q).1 := by
  unfold State.loadHelper
  extract_lets k b act
  split
  · exact .refl _ _
  · split
    · exact .setRg (.refl _ _) (fun k h => h.ne (by decide) (by decide)) _
    · exact .refl _ _

/-- A device that has trained waits, or stays ready for a table; another one has failed. -/
def State.bootDevice (trained : List (Nat × Int)) (t : State) (d : Nat) : State :=
  match (trained.find? (fun x => x.1 == d)).map (·.2) with
  | some c =>
    { (t.setRg (Obj.DEV_STATE d) (if t.holdsTable d then devReady else devSelfRefresh)).setRg (Obj.DEV_TEMP d) (unsigned 32 c) with
      trainTemp := SMap.put 0 t.trainTemp d (BitVec.ofInt 64 c) }
  | none => t.setRg (Obj.DEV_STATE d) devFailed

variable {trained : List (Nat × Int)}

theorem State.rg_bootDevice_ne {t : State} {d key : Nat} (h1 : key ≠ Obj.DEV_STATE d) (h2 : key ≠ Obj.DEV_TEMP d) :
    (State.bootDevice trained t d).rg key = t.rg key := by
  unfold State.bootDevice
  split
  · exact (State.rg_setRg_ne _ _ h2).trans (State.rg_setRg_ne _ _ h1)
  · exact State.rg_setRg_ne _ _ h1

/-- What a device's boot leaves in its registers. -/
def State.Booted (trained : List (Nat × Int)) (holds : Bool) (d : Nat) (t : State) : Prop :=
  (trained.find? (fun y => y.1 == d) = none → t.rg (Obj.DEV_STATE d) = devFailed) ∧
  ∀ c, trained.find? (fun y => y.1 == d) = some c → t.rg (Obj.DEV_STATE d) = (if holds then devReady else devSelfRefresh) ∧
    t.rg (Obj.DEV_TEMP d) = unsigned 32 c.2

theorem State.Booted.congr {holds : Bool} {d : Nat} {t u : State} (h : State.Booted trained holds d t)
    (h1 : u.rg (Obj.DEV_STATE d) = t.rg (Obj.DEV_STATE d)) (h2 : u.rg (Obj.DEV_TEMP d) = t.rg (Obj.DEV_TEMP d)) :
    State.Booted trained holds d u := by
  unfold State.Booted
  rw [h1, h2]
  exact h

theorem State.booted_bootDevice (t : State) (d : DeviceId) : State.Booted trained (t.holdsTable d) d (State.bootDevice trained t d) := by
  unfold State.bootDevice
  refine ⟨fun h => ?_, fun c h => ?_⟩
  · rw [h]
    exact State.rg_setRg_small (objBytes_DEV_STATE d) (by decide) _
  · rw [h]
    have hst : (if t.holdsTable d then devReady else devSelfRefresh) < 256 := by split <;> decide
    refine ⟨?_, ?_⟩
    · exact (State.rg_setRg_ne _ _ (DEV_STATE_ne_DEV_TEMP d d)).trans (State.rg_setRg_small (objBytes_DEV_STATE d) hst _)
    · exact (State.rg_setRg_bytes (objBytes_DEV_TEMP d) (by decide) _ _).trans (Nat.mod_eq_of_lt (unsigned_lt 32 c.2))

theorem tableKept_bootDevice (t : State) {d : Nat} (hd : d < 48) : RgKept TableKey t (State.bootDevice trained t d) := fun _ h =>
  State.rg_bootDevice_ne (h.ne (by decide) (by omega)) (h.ne (by decide) (by omega))

/-- The boot of other devices leaves a device's registers. -/
theorem State.rg_foldl_bootDevice (d : DeviceId) {m : List Nat} (hd : d.val ∉ m) (hm : ∀ x ∈ m, x < 48) (u : State) :
    (m.foldl (State.bootDevice trained) u).rg (Obj.DEV_STATE d) = u.rg (Obj.DEV_STATE d) ∧
      (m.foldl (State.bootDevice trained) u).rg (Obj.DEV_TEMP d) = u.rg (Obj.DEV_TEMP d) := by
  induction m generalizing u with
  | nil => exact ⟨rfl, rfl⟩
  | cons x m ih =>
    rw [List.mem_cons, not_or] at hd
    have hx := hm x List.mem_cons_self
    obtain ⟨h1, h2⟩ := ih hd.2 (fun y hy => hm y (List.mem_cons_of_mem _ hy)) (State.bootDevice trained u x)
    have hne : Obj.DEV_STATE d ≠ Obj.DEV_STATE x ∧ Obj.DEV_TEMP d ≠ Obj.DEV_TEMP x := by
      simp only [Obj.DEV_STATE, Obj.DEV_TEMP, okey]
      omega
    have hst : Obj.DEV_STATE d ≠ Obj.DEV_TEMP x := okey_ne_of_index (by decide) (by omega) (by omega)
    have hts : Obj.DEV_TEMP d ≠ Obj.DEV_STATE x := okey_ne_of_index (by decide) (by omega) (by omega)
    exact ⟨h1.trans (State.rg_bootDevice_ne hne.1 hst), h2.trans (State.rg_bootDevice_ne hts hne.2)⟩

theorem State.booted_foldl {l : List Nat} (hl : l.Nodup) (h48 : ∀ d ∈ l, d < 48) (s : State) (d : DeviceId) (hd : d.val ∈ l) :
    State.Booted trained (s.holdsTable d) d (l.foldl (State.bootDevice trained) s) := by
  induction l generalizing s with
  | nil => cases hd
  | cons e l ih =>
    obtain ⟨he, hl'⟩ := List.nodup_cons.1 hl
    have he48 : e < 48 := h48 e List.mem_cons_self
    rw [List.foldl_cons]
    by_cases hed : d.val = e
    · subst hed
      obtain ⟨h1, h2⟩ := State.rg_foldl_bootDevice d he (fun x hx => h48 x (List.mem_cons_of_mem _ hx)) (State.bootDevice trained s d)
      exact (State.booted_bootDevice s d).congr h1 h2
    · have hmem : d.val ∈ l := (List.mem_cons.1 hd).resolve_left hed
      have := ih hl' (fun x hx => h48 x (List.mem_cons_of_mem _ hx)) (State.bootDevice trained s e) hmem
      rwa [State.holdsTable_congr (tableKept_bootDevice s he48)] at this

theorem testBit_foldl_setBit (l : List Nat) (m i : Nat) : (l.foldl setBit m).testBit i = (m.testBit i || l.contains i) := by
  induction l generalizing m with
  | nil => simp
  | cons j l ih =>
    rw [List.foldl_cons, ih]
    by_cases h : i = j
    · subst h
      simp [testBit_setBit_self]
    · have : (setBit m j).testBit i = m.testBit i := by
        rw [setBit, Nat.one_shiftLeft, Nat.testBit_or, Nat.testBit_two_pow_of_ne (Ne.symm h), Bool.or_false]
      simp [this, h]

theorem gives_helperBoot (hup : s.power.up = true) (hm : s.boot.milliner = true) (hp : s.rg Obj.GDDR7_PRESENT = 0) :
    Gives (.helperBoot at_ bad trained) s (fun t =>
      ∀ d : DeviceId, (trained.find? (fun y => y.1 == d.val) = none → t.rg (Obj.DEV_STATE d) = devFailed ∧
          (t.rg Obj.GDDR7_PRESENT).testBit d = false) ∧
        (∀ c, trained.find? (fun y => y.1 == d.val) = some c → (t.rg Obj.GDDR7_PRESENT).testBit d = true ∧
          t.rg (Obj.DEV_STATE d) = (if s.holdsTable d then devReady else devSelfRefresh) ∧ t.rg (Obj.DEV_TEMP d) = unsigned 32 c.2)) := by
  refine gives_of_takes (by unfold exec execHelperBoot; rfl) (by simp [hup, hm, hp]) ?_
  intro d
  extract_lets s0 failed
  have hfold : RgKept TableKey s0 ([2, 3, 4].foldl (fun (u : State × Bool) t => (List.range 4).foldl (fun (v : State × Bool) q =>
      ((v.1.loadHelper bad t q).1, v.2 || (v.1.loadHelper bad t q).2)) u) (s0, false)).1 := by
    refine List.foldlRecOn (motive := fun u : State × Bool => RgKept TableKey s0 u.1) _ _ (.refl _ _) fun u hu t _ => ?_
    exact List.foldlRecOn (motive := fun u : State × Bool => RgKept TableKey s0 u.1) _ _ hu fun v hv q _ => hv.trans (tableKept_loadHelper v.1 bad t q)
  split
  next u dead he =>
  have hu : RgKept TableKey s u := Eq.subst (motive := RgKept TableKey s) (congrArg Prod.fst he) hfold
  extract_lets v x y
  have hv : RgKept TableKey s v := hu.trans (.foldl _ fun w k => .notify (.incRg (.of_regs rfl) (fun k h => h.ne (by decide) (by decide)) _) _ _ _ _)
  have hx : State.Booted trained (s.holdsTable d) d x := by
    have := State.booted_foldl (trained := trained) List.nodup_range (fun _ h => List.mem_range.1 h) v d (List.mem_range.2 d.isLt)
    rwa [State.holdsTable_congr hv] at this
  clear_value x
  have hy : State.Booted trained (s.holdsTable d) d y :=
    hx.congr (State.rg_setRg_ne _ _ (okey_ne_of_index (by decide) (by omega) (by decide)))
      (State.rg_setRg_ne _ _ (okey_ne_of_index (by decide) (by omega) (by decide)))
  have hbits : (y.rg Obj.GDDR7_PRESENT).testBit d = trained.any (fun x => x.1 == d.val) := by
    have hd := d.isLt
    unfold y
    rw [State.rg_setRg_bytes objBytes_supply.2.2.2.2 (by decide), Nat.testBit_mod_two_pow, testBit_foldl_setBit, decide_eq_true (by omega)]
    rw [Nat.zero_testBit, Bool.false_or, Bool.true_and, Bool.eq_iff_iff, List.contains_iff_mem, List.mem_filter, List.mem_range]
    exact ⟨fun h => h.2, fun h => ⟨hd, h⟩⟩
  clear_value y
  have hz : ∀ n, State.Booted trained (s.holdsTable d) d (y.setRg Obj.MODULE_STATE n) := fun n =>
    hy.congr (State.rg_setRg_ne _ _ (DEV_STATE_ne_MODULE_STATE d)) (State.rg_setRg_ne _ _ (okey_ne_of_index (by decide) (by omega) (by decide)))
  have hg : ∀ n, ((y.setRg Obj.MODULE_STATE n).rg Obj.GDDR7_PRESENT).testBit d = trained.any (fun x => x.1 == d.val) := fun n =>
    (congrArg (Nat.testBit · d) (State.rg_setRg_ne _ _ (by decide))).trans hbits
  refine ⟨fun h => ⟨(hz _).1 h, ?_⟩, fun c h => ⟨?_, (hz _).2 c h⟩⟩
  · rw [hg, List.any_eq_false]
    exact fun x hx => List.find?_eq_none.1 h x hx
  · rw [hg, List.any_eq_true]
    exact ⟨c, List.mem_of_find?_eq_some h, by simpa using List.find?_some h⟩

/-! ### Shutdown -/

theorem State.powerLoss_spec (s : State) : s.powerLoss.sessions = [] ∧ s.powerLoss.parts = State.reset.parts ∧
    s.powerLoss.clusters = State.reset.clusters ∧ s.powerLoss.boot.milliner = false ∧
    s.powerLoss.mem = s.mem.filter (fun c => refBase ≤ c.1) ∧ s.powerLoss.power = s.power := by
  unfold State.powerLoss
  extract_lets erase r0 b0 r r2
  have hr : r.sessions = [] ∧ r.parts = State.reset.parts ∧ r.clusters = State.reset.clusters ∧ r.boot.milliner = false ∧
      r.mem = s.mem.filter (fun c => refBase ≤ c.1) ∧ r.power = s.power := ⟨rfl, rfl, rfl, rfl, rfl, rfl⟩
  clear_value r
  have hr2 : r2.sessions = [] ∧ r2.parts = State.reset.parts ∧ r2.clusters = State.reset.clusters ∧ r2.boot.milliner = false ∧
      r2.mem = s.mem.filter (fun c => refBase ≤ c.1) ∧ r2.power = s.power := by
    unfold r2
    split
    · exact hr
    · exact hr
  clear_value r2
  split
  · split
    · exact hr2
    · exact hr2
  · exact hr2

theorem gives_shutdown {causes c : Nat} {rest : List Nat} (hc : (bitsOf 6 causes).filter (· ≠ 0) = c :: rest) (hv : s.power.vin = true) :
    Gives (.shutdown at_ causes) s (fun t =>
      t.sessions = [] ∧ t.parts = State.reset.parts ∧ t.clusters = State.reset.clusters ∧ t.power.good = false ∧ t.power.up = false ∧
      t.boot.milliner = false ∧ (∀ a, t.memByte a = (if refBase ≤ a then s.memByte a else 0)) ∧
      t.power.vin = (!(causes.testBit 1 || causes.testBit 2)) ∧ ((c ≠ 5 ∨ s.power.good = true) → t.rg Obj.LAST_SHUTDOWN = c)) := by
  have hc6 : c < 6 := by
    have : c ∈ (bitsOf 6 causes).filter (· ≠ 0) := hc ▸ List.mem_cons_self
    exact List.mem_range.1 (List.mem_filter.1 (List.mem_filter.1 this).1).1
  obtain ⟨t, he, ⟨h1, h2, h3, h4, h5, h6, hmem, h7, h8⟩⟩ : ∃ t, exec (.shutdown at_ causes) s = .next t ∧ (
      t.sessions = [] ∧ t.parts = State.reset.parts ∧ t.clusters = State.reset.clusters ∧ t.power.good = false ∧ t.power.up = false ∧
      t.boot.milliner = false ∧ t.mem = s.mem.filter (fun c => refBase ≤ c.1) ∧
      t.power.vin = (!(causes.testBit 1 || causes.testBit 2)) ∧ ((c ≠ 5 ∨ s.power.good = true) → t.rg Obj.LAST_SHUTDOWN = c)) := by
    show ∃ t, execShutdown at_ causes s = .next t ∧ _
    unfold execShutdown
    rw [hc]
    refine ⟨_, takes_of hv _ _, ?_⟩
    extract_lets was u supply pw v bt
    have hu : u.sessions = [] ∧ u.parts = State.reset.parts ∧ u.clusters = State.reset.clusters ∧ u.boot.milliner = false ∧
      u.mem = s.mem.filter (fun c => refBase ≤ c.1) ∧ u.power = s.power := (s.at at_).powerLoss_spec
    clear_value u
    obtain ⟨h1, h2, h3, h4, h5, h6⟩ := hu
    have hvv : v.sessions = [] ∧ v.parts = State.reset.parts ∧ v.clusters = State.reset.clusters ∧ v.boot.milliner = false ∧
      v.mem = s.mem.filter (fun c => refBase ≤ c.1) ∧ v.power = { Power.off with vin := !supply, rst := u.power.rst && !causes.testBit 5 } :=
      ⟨h1, h2, h3, h4, h5, rfl⟩
    clear_value v
    obtain ⟨g1, g2, g3, g4, g5, g6⟩ := hvv
    split
    next hw =>
      simp only [Bool.and_eq_true, decide_eq_true_eq, Bool.not_eq_true'] at hw
      refine ⟨g1, g2, g3, by rw [g6], by rw [g6], g4, g5, by rw [g6], fun h => ?_⟩
      rcases h with h | h
      · exact absurd hw.1 h
      · exact absurd hw.2 (by simp [was, h])
    · exact ⟨g1, g2, g3, congrArg Power.good g6, congrArg Power.up g6, g4, g5, congrArg Power.vin g6,
        fun _ => State.rg_setRg_small objBytes_supply.2.1 (by omega) _⟩
  refine gives_of_next he ⟨h1, h2, h3, h4, h5, h6, fun a => ?_, h7, h8⟩
  have hb : t.memByte a = SMap.getD 0 (s.mem.filter (fun c => refBase ≤ c.1)) a := congrArg (SMap.getD 0 · a) hmem
  rw [hb]
  by_cases ha : refBase ≤ a
  · rw [if_pos ha]
    exact congrArg (·.getD 0) (SMap.get?_filter_keys s.mem (fun c => refBase ≤ c) (by simpa using ha))
  · rw [if_neg ha]
    exact SMap.getD_filter_out 0 s.mem (fun c => refBase ≤ c) (by simpa using ha)

end

/-- Settles O57: MRAM's values come into force as the milliner starts, before ACTIVE_COPIES names its copy, and no boot of a helper
writes the tables' registers. -/
theorem powerAndBootCommands : Obligations.PowerAndBootCommands := by
  unfold Obligations.PowerAndBootCommands
  intro at_ mv lowNs bad causes rst keyOk times trained data s k
  exact ⟨gives_vinApplied, gives_powerOnSequence, fun b n => gives_railTimeout, fun hg hr hu ht => gives_resetRelease hg hr hu ht rfl,
    fun hup hrom h8 hlen hoff hlim => ⟨gives_romRecovery_more hup hrom h8 hlen hoff hlim, gives_romRecovery hup hrom h8 hlen hoff hlim⟩,
    gives_helperBoot, fun c rest => gives_shutdown⟩

end Sys2Proof.Machine

/-! ## Jobs: enable, check, disable and cancel (R470, R474, R475) -/

namespace Sys2Proof.Machine
open Sys2Proof

-- Short theorems, many of them: one after another, so that the threads' stacks stay within the check's memory.
set_option Elab.async false

section
variable {s : State} {sess id j : Nat} {x : Session} {p : PartId}

/-! ### Windows across events -/

theorem Session.regs_push (x : Session) (now : Nat) (e : Event) : (x.push now e).1.regs = x.regs := by
  unfold Session.push
  extract_lets full q lost e2
  split
  · rfl
  · rfl

/-- An event leaves every session's windows. -/
theorem regs_find_notifyAll (now : Nat) (e : Event) (id : Nat) (l : List Session) :
    ((notifyAll now e l).1.find? (fun x => x.id == id && x.open_)).map Session.regs = (l.find? (fun x => x.id == id && x.open_)).map Session.regs := by
  induction l with
  | nil => rfl
  | cons x l ih =>
    unfold notifyAll
    dsimp only
    split
    · obtain ⟨hid, ho, -, -⟩ := x.push_keeps now e
      rw [List.find?_cons, List.find?_cons, hid, ho]
      cases x.id == id && x.open_
      · exact ih
      · exact congrArg some (x.regs_push now e)
    · rw [List.find?_cons, List.find?_cons]
      cases x.id == id && x.open_
      · exact ih
      · rfl

/-- The windows' registers of the open session of an identifier. -/
def State.winRegs (s : State) (id : Nat) : Option (SMap Word) := (s.session id).map Session.regs

theorem State.winRegs_notify (s : State) (code part a b id : Nat) : (s.notify code part a b).winRegs id = s.winRegs id :=
  regs_find_notifyAll ..

theorem State.winRegs_congr {t : State} (h : t.sessions = s.sessions) (id : Nat) : t.winRegs id = s.winRegs id := by
  unfold State.winRegs
  rw [State.session_congr h]

theorem State.win_of_winRegs {t : State} (h : t.winRegs id = s.winRegs id) (key : Nat) : t.win id key = s.win id key := by
  unfold State.winRegs at h
  unfold State.win
  cases ht : t.session id with
  | none =>
    rw [ht] at h
    rw [Option.map_eq_none_iff.1 h.symm]
  | some y =>
    rw [ht] at h
    obtain ⟨z, hz, hr⟩ := Option.map_eq_some_iff.1 h.symm
    rw [hz]
    exact congrArg (fun m => (SMap.getD (objDefault key) m key).toNat) hr.symm

theorem State.win_notify (s : State) (code part a b id key : Nat) : (s.notify code part a b).win id key = s.win id key :=
  State.win_of_winRegs (s.winRegs_notify code part a b id) key

theorem State.session_of_winRegs {t : State} (h : t.winRegs id = s.winRegs id) (hs : s.session id ≠ none) : ∃ y, t.session id = some y := by
  unfold State.winRegs at h
  obtain ⟨x, hx⟩ := Option.ne_none_iff_exists'.1 hs
  rw [hx] at h
  obtain ⟨y, hy, -⟩ := Option.map_eq_some_iff.1 h
  exact ⟨y, hy⟩

/-- A window of one byte reads as the value written, cut to it. -/
theorem State.win_setWin_byte (h : s.session id = some x) {key : Nat} (hk : objBytes key = some 1) (v : Nat) :
    (s.setWin id key v).win id key = v % 256 := by
  rw [State.win_of_session (State.session_setWin h key v)]
  refine (congrArg BitVec.toNat (SMap.getD_put_self ..)).trans ?_
  rw [objMask_of_bytes hk, BitVec.toNat_ofNat]
  omega

theorem objBytes_JOB_RESULT (p : PartId) : objBytes (Obj.JOB_RESULT p) = some 1 := by
  revert p
  decide +kernel

theorem objBytes_CANCEL_ACK (p : PartId) : objBytes (Obj.CANCEL_ACK p) ≠ some 0 := by
  revert p
  decide +kernel

/-! ### Enable -/

theorem State.job_putJob (s : State) (p : PartId) (j : Nat) (e : BitVec 1024) : ((s.putJob p j e).pt p).job j = e := by
  unfold State.putJob
  rw [State.pt_memPut, State.pt_modPt_fin, Part.job_setJob_self]

theorem State.pt_putJob (s : State) (p : PartId) (j : Nat) (e : BitVec 1024) : (s.putJob p j e).pt p = (s.pt p).setJob j e := by
  unfold State.putJob
  rw [State.pt_memPut, State.pt_modPt_fin]

section
variable (hj : s.win sess (Obj.JOB_INDEX p) = j)
include hj

theorem gives_jobEnable (h : s.session sess = some x) (hw : s.mayWrite sess (Obj.JOB_COMMAND p) 1 = true) (hb : (s.pt p).built ≠ none)
    (he : Job.enable.get ((s.pt p).job j) ≠ 1) : Gives (.jobEnable sess p) s (fun t => t.jobState p j = jsChecking ∧
      t.win sess (Obj.JOB_RESULT p) = 0xFF ∧ t.checks = s.checks ++ [(p.val, j, sess)]) := by
  refine gives_of_takes (by unfold exec execJobEnable State.command; rfl) hw ?_
  unfold State.jobEnable
  rw [hj]
  dsimp only
  rw [if_neg (by simpa using hb), if_neg he]
  generalize s.memRec (s.jobAddr p j) 128 = e
  have hst := s.job_putJob p j (Job.state.set (Job.enable.set e 0) jsChecking)
  have hs : (s.putJob p j (Job.state.set (Job.enable.set e 0) jsChecking)).session sess = some x := h
  have hc : (s.putJob p j (Job.state.set (Job.enable.set e 0) jsChecking)).checks = s.checks := rfl
  generalize hu : s.putJob p j (Job.state.set (Job.enable.set e 0) jsChecking) = u at hst hs hc
  refine ⟨?_, State.win_setWin_u8 hs (objBytes_JOB_RESULT p) (by decide), congrArg (· ++ [(p.val, j, sess)]) hc⟩
  show Job.state.get ((u.pt p).job j) = _
  rw [hst, Fld.get_set_self Job.state]
  rfl

theorem gives_jobEnable_enabled (h : s.session sess = some x) (hw : s.mayWrite sess (Obj.JOB_COMMAND p) 1 = true)
    (hb : (s.pt p).built ≠ none) (he : Job.enable.get ((s.pt p).job j) = 1) : Gives (.jobEnable sess p) s (fun t =>
      t.win sess (Obj.JOB_RESULT p) = 6 ∧ t.checks = s.checks ∧ t.parts = s.parts) := by
  refine gives_of_takes (by unfold exec execJobEnable State.command; rfl) hw ?_
  unfold State.jobEnable
  rw [hj]
  dsimp only
  rw [if_neg (by simpa using hb), if_pos he]
  exact ⟨(State.win_notify ..).trans (State.win_setWin_u8 h (objBytes_JOB_RESULT p) (by decide)), rfl, rfl⟩

/-! ### Disable and cancel -/

/-- A job that is over. -/
def jobEnded (st : Nat) : Prop := st = jsComplete ∨ st = jsCancelled ∨ st = jsAbandoned

theorem gives_jobDisable (hw : s.mayWrite sess (Obj.JOB_COMMAND p) 2 = true) (hb : (s.pt p).built ≠ none)
    (he : Job.enable.get ((s.pt p).job j) ≠ 0) (hst : s.jobState p j = jsIdle ∨ jobEnded (s.jobState p j)) :
    Gives (.jobDisable sess p) s (fun t => Job.enable.get ((t.pt p).job j) = 0 ∧ t.jobState p j = s.jobState p j ∧
      ∀ kv ∈ (t.pt p).pins, kv.1 / 4 ≠ j) := by
  refine gives_of_takes (by unfold exec execJobDisable State.command; rfl) hw ?_
  unfold State.jobDisable
  rw [hj]
  dsimp only
  rw [if_neg (by simp [hb, he]), if_pos (by unfold jobEnded at hst; simpa [List.contains_iff_mem] using hst)]
  have hpt : ((s.setJobF p j Job.enable 0).unpin p j).pt p = { (s.pt p).setJob j (Job.enable.set ((s.pt p).job j) 0) with
      pins := (s.pt p).pins.filter (fun kv => kv.1 / 4 != j), streamPins := (s.pt p).streamPins.filter (fun kv => kv.1 / 4 != j) } := by
    rw [State.unpin, State.pt_countPins, State.pt_modPt_fin, State.setJobF, State.pt_putJob]
    rfl
  have hjob : (((s.setJobF p j Job.enable 0).unpin p j).pt p).job j = Job.enable.set ((s.pt p).job j) 0 := by
    rw [hpt]
    exact (s.pt p).job_setJob_self j _
  refine ⟨?_, ?_, fun kv hkv => ?_⟩
  · rw [hjob, Fld.get_set_self Job.enable]
    rfl
  · unfold State.jobState
    rw [hjob, Fld.get_set_ne (f := Job.state)]
  · rw [hpt] at hkv
    simpa using (List.mem_filter.1 hkv).2

theorem gives_jobDisable_held (hw : s.mayWrite sess (Obj.JOB_COMMAND p) 2 = true) (hb : (s.pt p).built ≠ none)
    (he : Job.enable.get ((s.pt p).job j) ≠ 0) (hst : ¬ (s.jobState p j = jsIdle ∨ jobEnded (s.jobState p j))) :
    Gives (.jobDisable sess p) s (fun t => t = s) := by
  refine gives_of_takes (by unfold exec execJobDisable State.command; rfl) hw ?_
  unfold State.jobDisable
  rw [hj]
  dsimp only
  rw [if_neg (by simp [hb, he]), if_neg (by unfold jobEnded at hst; simpa [List.contains_iff_mem] using hst)]

section
variable {ct : Nat} (hct : s.win sess (Obj.JOB_CANCEL_TICK p) = ct) (hw : s.mayWrite sess (Obj.JOB_COMMAND p) 3 = true)
  (hb : (s.pt p).built ≠ none) (ht : ct = 0 ∨ s.edgePassed p ct = false)
include hct hw hb ht

theorem gives_jobCancel :
    (s.jobState p j = jsStopped → Gives (.jobCancel sess p) s (fun t => t = s)) ∧
    (jobEnded (s.jobState p j) → Gives (.jobCancel sess p) s (fun t => t.rg (Obj.CANCEL_ACK p) = ackComplete ∧ t.parts = s.parts)) ∧
    (s.jobState p j ≠ jsStopped → ¬ jobEnded (s.jobState p j) → Gives (.jobCancel sess p) s (fun t =>
      ⟨j, ct⟩ ∈ (t.pt p).cancels ∧ t.jobState p j = s.jobState p j)) := by
  have hlate : ¬ (ct != 0 && s.edgePassed p ct) = true := by
    rcases ht with h | h <;> simp [h]
  have hbar : (s.pt p).built.isNone ≠ true := by simpa using hb
  refine ⟨fun hst => ?_, fun hst => ?_, fun hns hne => ?_⟩ <;>
    refine gives_of_takes (by unfold exec execJobCancel State.command; rfl) hw ?_ <;> unfold State.jobCancel <;> rw [hj, hct] <;> dsimp only <;>
    rw [if_neg hbar]
  · rw [if_pos (by simp [hst])]
  · have hns : s.jobState p j ≠ jsStopped := by
      intro h
      rcases hst with h' | h' | h' <;> rw [h] at h' <;> cases h'
    rw [if_neg (by simp only [Bool.or_eq_true, decide_eq_true_eq, not_or]; exact ⟨hlate, hns⟩),
      if_pos (by unfold jobEnded at hst; simpa [List.contains_iff_mem] using hst)]
    exact ⟨State.rg_setRg_small (objBytes_CANCEL_ACK p) (by decide) s, rfl⟩
  · rw [if_neg (by simp only [Bool.or_eq_true, decide_eq_true_eq, not_or]; exact ⟨hlate, hns⟩),
      if_neg (by unfold jobEnded at hne; simpa [List.contains_iff_mem] using hne)]
    unfold State.jobState
    dsimp only
    rw [State.pt_modPt_fin]
    exact ⟨by simp, rfl⟩

end
end

/-! ### The end of a check -/

/-- The entry of an accepted job. -/
def State.acceptedEntry (s : State) (x : JobOffer) : BitVec 1024 :=
  [(Job.enable, 1), (Job.refusal, 0), (Job.state, jsAccepted), (Job.slicesRun, 0), (Job.firstTick, 0), (Job.finalTick, 0),
    (Job.signer, s.jobSigner x)].foldl (fun e f => f.1.set e f.2) x.entry

theorem State.acceptedEntry_get (s : State) (x : JobOffer) : Job.state.get (s.acceptedEntry x) = jsAccepted ∧
    Job.enable.get (s.acceptedEntry x) = 1 := by
  unfold State.acceptedEntry
  simp only [List.foldl_cons, List.foldl_nil]
  constructor
  · rw [Fld.get_set_ne (f := Job.state), Fld.get_set_ne (f := Job.state), Fld.get_set_ne (f := Job.state), Fld.get_set_ne (f := Job.state),
      Fld.get_set_self Job.state]
    rfl
  · rw [Fld.get_set_ne (f := Job.enable), Fld.get_set_ne (f := Job.enable), Fld.get_set_ne (f := Job.enable), Fld.get_set_ne (f := Job.enable),
      Fld.get_set_ne (f := Job.enable), Fld.get_set_ne (f := Job.enable), Fld.get_set_self Job.enable]
    rfl

/-- Pins and rows taken for a job leave its table and the order. -/
structure Part.SameJobs (x y : Part) : Prop where
  jobs : y.jobs = x.jobs
  order : y.order = x.order
  accepted : y.accepted = x.accepted

theorem Part.SameJobs.of_eq {x y : Part} (h : y = x) : x.SameJobs y := ⟨by rw [h], by rw [h], by rw [h]⟩

theorem Part.SameJobs.trans {x y z : Part} (h : x.SameJobs y) (h' : y.SameJobs z) : x.SameJobs z :=
  ⟨h'.jobs.trans h.jobs, h'.order.trans h.order, h'.accepted.trans h.accepted⟩

theorem State.sameJobs_pinJob (s : State) (p : PartId) (j b : Nat) (stitch : List (Nat × Nat)) :
    (s.pt p).SameJobs ((s.pinJob p j b stitch).pt p) := by
  unfold State.pinJob
  rw [State.pt_countPins, State.pt_modPt_fin]
  exact ⟨rfl, rfl, rfl⟩

theorem State.sameJobs_takeRows (s : State) (p : PartId) (j b : Nat) : (s.pt p).SameJobs ((s.takeRows p j b).pt p) := by
  unfold State.takeRows
  refine List.foldlRecOn (motive := fun u : State => (s.pt p).SameJobs (u.pt p)) _ _ (.of_eq rfl) fun u hu r _ => ?_
  rw [State.pt_modPt_fin]
  exact hu.trans ⟨rfl, rfl, rfl⟩

theorem State.pt_congr {t : State} (h : t.parts = s.parts) (q : Nat) : t.pt q = s.pt q := by
  unfold State.pt
  rw [h]

/-- What the acceptance of a job leaves. -/
structure State.Accepts (s : State) (x : JobOffer) (p : PartId) (t : State) : Prop where
  job : (t.pt p).job x.index = s.acceptedEntry x
  order : (t.pt p).order = (s.pt p).order ++ [x.index]
  accepted : SMap.getD 0 (t.pt p).accepted x.index = s.now
  windows : ∀ id, t.winRegs id = s.winRegs id

theorem State.accepts_acceptJob (s : State) (x : JobOffer) (hp : x.part = p) : s.Accepts x p (s.acceptJob x) := by
  unfold State.acceptJob
  rw [hp]
  extract_lets q j b e nums s1 s2 s3 s4
  -- the entry, and what is taken for it
  have h1 : s1.pt p = (s.pt p).setJob j e := s.pt_putJob p j e
  have hs1 : s1.sessions = s.sessions := rfl
  have hn1 : s1.now = s.now := rfl
  clear_value s1
  have hbanks : (((s1.pinJob p j b x.stitch).takeRows p j b).resetJobCounters p).parts = ((s1.pinJob p j b x.stitch).takeRows p j b).parts :=
    (State.changes_resetJobCounters ..).kept .parts
  have hhist : s2.parts = (((s1.pinJob p j b x.stitch).takeRows p j b).resetJobCounters p).parts :=
    (State.changes_checkHistories ..).kept .parts
  have h2 : (s1.pt p).SameJobs (s2.pt p) :=
    ((s1.sameJobs_pinJob p j b x.stitch).trans (State.sameJobs_takeRows ..)).trans
      (.of_eq (State.pt_congr (hhist.trans hbanks) p))
  have hc2 : Changes [.parts, .part .pins, .regs, .regsButJenjo, .regsButStreams, .mem, .histUsed] s1 s2 := by
    refine .within fun F hF => ?_
    have h : Changes F s1 (s1.pinJob p j b x.stitch) := .by (State.changes_pinJob ..)
    exact .then ((h.then (State.changes_takeRows ..)).then (State.changes_resetJobCounters ..)) (State.changes_checkHistories ..)
  have hs2 : s2.sessions = s.sessions := Eq.trans (hc2.kept .sessions) hs1
  have hn2 : s2.now = s.now := Eq.trans (hc2.kept .now) hn1
  clear_value s2
  -- the descriptor, and the place in the order
  have hsrc : (s2.clearSources p).pt p = s2.pt p := State.pt_congr ((State.changes_clearSources ..).kept .parts) p
  have h3 : (s3.pt p).jobs = (s2.pt p).jobs ∧ (s3.pt p).order = (s2.pt p).order ++ [j] ∧
      (s3.pt p).accepted = SMap.put 0 (s2.pt p).accepted j s2.now := by
    rw [State.pt_modPt_fin, hsrc]
    exact ⟨rfl, rfl, rfl⟩
  have hs3 : s3.sessions = s.sessions := Eq.trans ((State.changes_clearSources ..).kept .sessions) hs2
  clear_value s3
  -- the announcement
  have h4 : s4.pt p = s3.pt p ∧ ∀ id, s4.winRegs id = s.winRegs id := by
    by_cases hf : s3.rg (Obj.CO_FED p) = 1
    · rw [show s4 = _ from if_pos hf]
      exact ⟨State.pt_notify .., fun id => (State.winRegs_notify ..).trans (State.winRegs_congr hs3 id)⟩
    · rw [show s4 = s3 from if_neg hf]
      exact ⟨rfl, fun id => State.winRegs_congr hs3 id⟩
  clear_value s4
  obtain ⟨h4, hw4⟩ := h4
  obtain ⟨hjobs, hord, hacc⟩ := h3
  have hpt : (s4.updatePart p).pt p = s3.pt p := (State.pt_updatePart ..).trans h4
  refine ⟨?_, ?_, ?_, fun id => hw4 id⟩
  · rw [hpt]
    have hj : (s3.pt p).jobs = ((s.pt p).setJob j e).jobs := by rw [hjobs, h2.jobs, h1]
    exact (congrArg (fun m => SMap.getD 0 m j) hj).trans ((s.pt p).job_setJob_self j e)
  · rw [hpt, hord, h2.order, h1]
    rfl
  · rw [hpt, hacc, hn2]
    exact SMap.getD_put_self ..

/-- The outcome of a check: the entry's code, and the session's. -/
theorem gives_jobCheckDone {at_ code : Nat} {stitch : List (Nat × Nat)} {c : Nat × Nat × Nat}
    (hc : s.checks.find? (fun c => c.1 == p.val) = some c) (hm : s.boot.milliner = true)
    (hcode : (s.at at_).jobCode ((s.at at_).jobOffer p c.2.1 stitch) = code) (he : Job.enable.get ((s.pt p).job c.2.1) ≠ 1) :
    (¬ (code = 0 ∧ (s.at at_).defersJobs p = true) → exec (.jobCheckDone p ⟨at_, stitch⟩) s = .next
      (({ s.at at_ with checks := s.checks.erase c } : State).jobChecked c.2.2 ((s.at at_).jobOffer p c.2.1 stitch) code)) ∧
    (code = 0 → (s.at at_).defersJobs p = true → exec (.jobCheckDone p ⟨at_, stitch⟩) s = .next s) := by
  subst hcode
  have hx : exec (.jobCheckDone p ⟨at_, stitch⟩) s = execJobCheckDone p ⟨at_, stitch⟩ s := rfl
  rw [hx]
  unfold execJobCheckDone
  dsimp only
  rw [hc]
  dsimp only
  rw [if_neg (show ¬ Job.enable.get (((s.at at_).pt p).job c.2.1) = 1 from he)]
  refine ⟨fun h => ?_, fun h0 hd => ?_⟩
  · refine takes_of ?_ _ _
    have : (s.at at_).boot.milliner = true := hm
    rw [hm, Bool.and_true, Bool.not_eq_true', Bool.and_eq_false_iff]
    by_cases h0 : (s.at at_).jobCode ((s.at at_).jobOffer p c.2.1 stitch) = 0
    · exact .inr (by simpa using fun hd => h ⟨h0, hd⟩)
    · exact .inl (by simpa using h0)
  · unfold takes
    rw [if_neg (by simp [h0, hd])]

theorem gives_jobCheckDone_refused {at_ code : Nat} {stitch : List (Nat × Nat)} {c : Nat × Nat × Nat}
    (hc : s.checks.find? (fun c => c.1 == p.val) = some c) (hm : s.boot.milliner = true)
    (hcode : (s.at at_).jobCode ((s.at at_).jobOffer p c.2.1 stitch) = code) (he : Job.enable.get ((s.pt p).job c.2.1) ≠ 1)
    (h0 : code ≠ 0) (h6 : code ≠ 6) : Gives (.jobCheckDone p ⟨at_, stitch⟩) s (fun t => t.checks = s.checks.erase c ∧
      t.jobState p c.2.1 = jsIdle ∧ Job.refusal.get ((t.pt p).job c.2.1) = code % 256 ∧ Job.enable.get ((t.pt p).job c.2.1) = 0 ∧
      (t.pt p).order = (s.pt p).order ∧ (s.session c.2.2 ≠ none → t.win c.2.2 (Obj.JOB_RESULT p) = code % 256)) := by
  refine gives_of_next ((gives_jobCheckDone hc hm hcode he).1 (fun h => h0 h.1)) ?_
  generalize hof : (s.at at_).jobOffer p c.2.1 stitch = x
  have hxp : x.part = p := by rw [← hof]; rfl
  have hxj : x.index = c.2.1 := by rw [← hof]; rfl
  unfold State.jobChecked
  rw [hxp, hxj]
  dsimp only
  rw [if_neg h0, if_neg h6]
  generalize hu : ({ s.at at_ with checks := s.checks.erase c } : State) = u
  have hup : u.parts = s.parts := by rw [← hu]; rfl
  have hus : u.sessions = s.sessions := by rw [← hu]; rfl
  have huc : u.checks = s.checks.erase c := by rw [← hu]
  generalize hE : Job.state.set (Job.refusal.set (Job.enable.set x.entry 0) code) jsIdle = e
  have hpt : (((u.putJob p c.2.1 e).setWin c.2.2 (Obj.JOB_RESULT p) code).notify 0x0010 p c.2.1 code).pt p = (s.pt p).setJob c.2.1 e := by
    rw [State.pt_notify, ← State.pt_congr hup]
    exact u.pt_putJob p c.2.1 e
  have hjob : ((((u.putJob p c.2.1 e).setWin c.2.2 (Obj.JOB_RESULT p) code).notify 0x0010 p c.2.1 code).pt p).job c.2.1 = e := by
    rw [hpt]
    exact (s.pt p).job_setJob_self c.2.1 e
  refine ⟨huc, ?_, ?_, ?_, ?_, fun hs => ?_⟩
  · unfold State.jobState
    rw [hjob, ← hE, Fld.get_set_self Job.state]
    rfl
  · rw [hjob, ← hE, Fld.get_set_ne (f := Job.refusal), Fld.get_set_self Job.refusal]
    rfl
  · rw [hjob, ← hE, Fld.get_set_ne (f := Job.enable), Fld.get_set_ne (f := Job.enable), Fld.get_set_self Job.enable]
    rfl
  · rw [hpt]
    rfl
  · obtain ⟨y, hy⟩ := Option.ne_none_iff_exists'.1 hs
    have hs' : (u.putJob p c.2.1 e).session c.2.2 = some y := (State.session_congr (show (u.putJob p c.2.1 e).sessions = s.sessions from hus)).trans hy
    exact (State.win_notify ..).trans (State.win_setWin_byte hs' (objBytes_JOB_RESULT p) code)

theorem gives_jobCheckDone_accepted {at_ code : Nat} {stitch : List (Nat × Nat)} {c : Nat × Nat × Nat}
    (hc : s.checks.find? (fun c => c.1 == p.val) = some c) (hm : s.boot.milliner = true)
    (hcode : (s.at at_).jobCode ((s.at at_).jobOffer p c.2.1 stitch) = code) (he : Job.enable.get ((s.pt p).job c.2.1) ≠ 1)
    (h0 : code = 0) (hd : (s.at at_).defersJobs p = false) : Gives (.jobCheckDone p ⟨at_, stitch⟩) s (fun t => t.checks = s.checks.erase c ∧
      t.jobState p c.2.1 = jsAccepted ∧ Job.enable.get ((t.pt p).job c.2.1) = 1 ∧ (t.pt p).order = (s.pt p).order ++ [c.2.1] ∧
      SMap.getD 0 (t.pt p).accepted c.2.1 = (s.at at_).now ∧ (s.session c.2.2 ≠ none → t.win c.2.2 (Obj.JOB_RESULT p) = 0)) := by
  refine gives_of_next ((gives_jobCheckDone hc hm hcode he).1 (fun h => by simp [hd] at h)) ?_
  generalize hof : (s.at at_).jobOffer p c.2.1 stitch = x
  have hxp : x.part = p := by rw [← hof]; rfl
  have hxj : x.index = c.2.1 := by rw [← hof]; rfl
  unfold State.jobChecked
  rw [hxp, hxj, h0]
  dsimp only
  rw [if_pos rfl]
  generalize hu : ({ s.at at_ with checks := s.checks.erase c } : State) = u
  have hup : u.parts = s.parts := by rw [← hu]; rfl
  have hus : u.sessions = s.sessions := by rw [← hu]; rfl
  have huc : u.checks = s.checks.erase c := by rw [← hu]
  have hun : u.now = (s.at at_).now := by rw [← hu]
  have hchk : (u.acceptJob x).checks = u.checks := (State.changes_acceptJob ..).kept .checks
  have hacc := u.accepts_acceptJob x hxp
  generalize u.acceptJob x = v at hchk hacc
  have hpt : ((v.setWin c.2.2 (Obj.JOB_RESULT p) 0).notify 0x0010 p c.2.1 0).pt p = v.pt p := (State.pt_notify ..).trans rfl
  have hjob := hacc.job
  have hord := hacc.order
  have hat := hacc.accepted
  rw [hxj] at hjob hord hat
  rw [State.pt_congr hup] at hord
  obtain ⟨hst, hen⟩ := u.acceptedEntry_get x
  refine ⟨hchk.trans huc, ?_, ?_, ?_, ?_, fun hs => ?_⟩
  · unfold State.jobState
    rw [hpt, hjob, hst]
  · rw [hpt, hjob, hen]
  · rw [hpt, hord]
  · rw [hpt, hat, hun]
  · obtain ⟨y, hy⟩ := State.session_of_winRegs ((hacc.windows c.2.2).trans (State.winRegs_congr hus c.2.2)) hs
    exact (State.win_notify ..).trans (State.win_setWin_u8 hy (objBytes_JOB_RESULT p) (by decide))

end

/-- Settles O50: what is taken for a job that is accepted leaves its entry, the order and every session's windows. -/
theorem jobCommands : Obligations.JobCommands := by
  unfold Obligations.JobCommands
  intro p sess at_ stitch x s h j st ended ct
  refine ⟨fun hw hb => ⟨gives_jobEnable rfl h hw hb, gives_jobEnable_enabled rfl h hw hb⟩, fun c hc hm he =>
      ⟨gives_jobCheckDone_refused hc hm rfl he, gives_jobCheckDone_accepted hc hm rfl he, fun h0 hd =>
        gives_of_next ((gives_jobCheckDone hc hm rfl he).2 h0 hd) rfl⟩,
    fun hw hb he => ⟨gives_jobDisable rfl hw hb he, gives_jobDisable_held rfl hw hb he⟩,
    fun hw hb ht => gives_jobCancel rfl rfl hw hb ht⟩

end Sys2Proof.Machine

/-! ## The course of a recovery (R408, R427 to R438) -/

namespace Sys2Proof.Machine
open Sys2Proof

-- Short theorems, many of them: one after another, so that the threads' stacks stay within the check's memory.
set_option Elab.async false

section
variable {s t u : State} {p : PartId} {j sess : Nat} {rc : Recover}

theorem mem_bitsOf {n v i : Nat} : i ∈ bitsOf n v ↔ i < n ∧ v.testBit i = true := by
  unfold bitsOf
  rw [List.mem_filter, List.mem_range]

theorem objBytes_recovery (p : PartId) : objBytes (Obj.RECOVERY_STATE p) ≠ some 0 ∧ objBytes (Obj.RECOVER_RESULT p) = some 1 ∧
    objBytes (Obj.RESTORE_REPORT p) ≠ some 0 ∧ objBytes (Obj.LOST_MODULES p) ≠ some 0 := by
  revert p
  decide +kernel

theorem recovery_ne (p : Nat) : Obj.RECOVERY_STATE p ≠ Obj.RECOVER_RESULT p ∧ Obj.RESTORE_REPORT p ≠ Obj.RECOVER_RESULT p ∧
    Obj.RESTORE_REPORT p ≠ Obj.RECOVERY_STATE p ∧ Obj.RESTORE_REPORT p ≠ Obj.HASH_MISMATCHES p :=
  ⟨okey_ne_of_sub (by decide), okey_ne_of_sub (by decide), okey_ne_of_sub (by decide), okey_ne_of_sub (by decide)⟩

/-! ### RECOVER -/

theorem State.recoverCode_lt (s : State) (p j : Nat) (f : RecoverFacts) : s.recoverCode p j f < 256 := by
  unfold State.recoverCode
  dsimp only
  split
  · decide
  · split <;> decide

theorem gives_recover {facts : RecoverFacts} (hw : s.mayWrite sess (Obj.RECOVER_COMMAND p) 1 = true) (hj : (s.pt p).stopped = some j)
    (hst : s.rg (Obj.RECOVERY_STATE p) = rsStopped ∨ s.rg (Obj.RECOVERY_STATE p) = rsFailed)
    (htr : ∀ r d, (s.pt p).built = some r → d < 48 → r.devices.testBit d = true → s.rg (Obj.DEV_STATE d) ≠ devTraining)
    (hb : (s.pt p).built ≠ none) : Gives (.recover sess p facts) s (fun t => t.rg (Obj.RECOVER_RESULT p) = s.recoverCode p j facts ∧
      (s.recoverCode p j facts ≠ 0 → t.parts = s.parts) ∧
      (s.recoverCode p j facts = 0 → (t.pt p).stopped = some j ∧
        ∃ y, (t.pt p).recover = some y ∧ y.active = false ∧ y.kind = s.rg (Obj.POINT_KIND p) ∧ y.step = s.rg (Obj.POINT_STEP p) ∧
          y.tick = s.rg (Obj.RECOVER_TICK p))) := by
  obtain ⟨r, hr⟩ := Option.ne_none_iff_exists'.1 hb
  have htrain : ((bitsOf 48 r.devices).any fun d => s.rg (Obj.DEV_STATE d) == devTraining) = false := by
    rw [List.any_eq_false]
    intro d hd
    obtain ⟨hlt, hbit⟩ := mem_bitsOf.1 hd
    simpa using htr r d hr hlt hbit
  have hjob : (s.pt p).recoverJob = some j := by
    unfold Part.recoverJob
    rw [hj]
  refine gives_of_takes (by unfold exec execRecover State.command; rfl) hw ?_
  unfold State.recoverCmd
  rw [hr, hjob]
  dsimp only
  rw [htrain, hj, if_neg (by rcases hst with h | h <;> simp [h])]
  have hres : ∀ u : State, u.regs = (s.setRg (Obj.RECOVER_RESULT p) (s.recoverCode p j facts)).regs →
      u.rg (Obj.RECOVER_RESULT p) = s.recoverCode p j facts := fun u h =>
    (rg_of_regs h _).trans (State.rg_setRg_small (by rw [(objBytes_recovery p).2.1]; decide) (s.recoverCode_lt p j facts) s)
  by_cases hc : s.recoverCode p j facts = 0
  · rw [if_neg (by simpa using hc)]
    refine ⟨hres _ rfl, fun h => absurd hc h, fun _ => ?_⟩
    rw [State.pt_modPt_fin]
    exact ⟨hj, _, rfl, rfl, State.rg_setRg_ne _ _ (okey_ne_of_sub (by decide)), State.rg_setRg_ne _ _ (okey_ne_of_sub (by decide)),
      State.rg_setRg_ne _ _ (okey_ne_of_sub (by decide))⟩
  · rw [if_pos hc]
    exact ⟨hres _ rfl, fun _ => rfl, fun h => absurd h hc⟩

/-! ### What restoring leaves alone -/

/-- The course of a recovery: the stopped job, whether the recovery runs, and to which step. -/
def Part.course (x : Part) : Option Nat × Option (Bool × Nat) := (x.stopped, x.recover.map fun r => (r.active, r.step))

/-- The objects that tell a recovery's course: RECOVERY_STATE, and FILTER_MODE of the ports. -/
def CourseKey (p : PartId) (k : Nat) : Prop := k = Obj.RECOVERY_STATE p ∨ ∃ q < 64, k = Obj.FILTER_MODE q

theorem CourseKey.notStored {k : Nat} (h : CourseKey p k) : NotStored k := by
  have hp := p.isLt
  rcases h with rfl | ⟨q, hq, rfl⟩
  · exact notStored_of_index (by omega) (by decide) (.inl (by decide))
  · exact notStored_of_index (by omega) (by decide) (.inl (by decide))

/-- Another object by its index or its subindex. -/
theorem CourseKey.ne {k i a : Nat} (h : CourseKey p k) (ha : a < 256) (hne : i < 0x4000 ∨ a ≠ 1 ∧ a ≠ 7) : k ≠ okey i a := by
  have hp := p.isLt
  rcases h with rfl | ⟨q, hq, rfl⟩ <;> simp only [Obj.RECOVERY_STATE, Obj.FILTER_MODE, okey] <;> omega

/-- A recovery's course stays as it is. -/
structure CourseKept (p : PartId) (s t : State) : Prop where
  rg : RgKept (CourseKey p) s t
  pt : (t.pt p).course = (s.pt p).course

theorem CourseKept.refl (p : PartId) (s : State) : CourseKept p s s := ⟨.refl _ _, rfl⟩

theorem CourseKept.trans (h : CourseKept p s t) (h' : CourseKept p t u) : CourseKept p s u := ⟨h.rg.trans h'.rg, h'.pt.trans h.pt⟩

theorem CourseKept.ite {c : Prop} [Decidable c] (h : CourseKept p s t) (h' : CourseKept p s u) : CourseKept p s (if c then t else u) := by
  split
  · exact h
  · exact h'

theorem CourseKept.foldl {α : Type} {f : State → α → State} (l : List α) (hf : ∀ u x, CourseKept p u (f u x)) : CourseKept p s (l.foldl f s) := by
  induction l generalizing s with
  | nil => exact .refl p s
  | cons x l ih => exact (hf s x).trans ih

theorem CourseKept.of_parts (h : RgKept (CourseKey p) s t) (hp : t.parts = s.parts) : CourseKept p s t :=
  ⟨h, congrArg Part.course (State.pt_congr hp p)⟩

theorem courseKept_modPt (s : State) (p : PartId) (q : Nat) {f : Part → Part} (hf : ∀ x, (f x).course = x.course) :
    CourseKept p s (s.modPt q f) := by
  refine ⟨.modPt (.refl _ _) _ _, ?_⟩
  by_cases h : p.val = q
  · rw [← h, State.pt_modPt_fin]
    exact hf _
  · rw [s.pt_modPt_ne h]

theorem courseKept_store_good (p : PartId) (s : State) (a : Nat) (bs : List Byte) : CourseKept p s (s.store a (goodBytes bs)) :=
  .of_parts (fun k hk => notStored_store s a _ k hk.notStored) (s.parts_store_good a (good_goodBytes bs))

theorem courseKept_placeSaved (p : PartId) (s : State) (i off : Nat) (bs : List Byte) : CourseKept p s (s.placeSaved i off (goodBytes bs)) := by
  have htake (n : Nat) : (goodBytes bs).take n = goodBytes (bs.take n) := by
    unfold goodBytes
    rw [List.map_take]
  have hdrop (n : Nat) : (goodBytes bs).drop n = goodBytes (bs.drop n) := by
    unfold goodBytes
    rw [List.map_drop]
  unfold State.placeSaved
  extract_lets e z low s1 high
  have h1 : CourseKept p s s1 := .ite (.refl _ _) (by unfold low; rw [htake]; exact courseKept_store_good ..)
  refine .ite h1 ?_
  unfold high
  rw [hdrop]
  exact h1.trans (courseKept_store_good ..)

theorem courseKept_freeOtherSlots (p : PartId) (s : State) (i : Nat) : CourseKept p s (s.freeOtherSlots i) := by
  unfold State.freeOtherSlots
  refine .foldl _ fun u k => ?_
  have hd : CourseKept p u { u with draws := u.draws + 1 } := .of_parts (.of_regs rfl) rfl
  exact hd.trans (courseKept_store_good ..)

theorem courseKept_setResFld (p : PartId) (s : State) (i : Nat) (f : Fld) (v : Nat) : CourseKept p s (s.setResFld i f v) :=
  .of_parts (.changes (State.changes_setResFld ..)) ((State.changes_setResFld ..).kept .parts)

theorem courseKept_restoredEntry (p : PartId) (s : State) (i v : Nat) : CourseKept p s (s.restoredEntry p i v) := by
  unfold State.restoredEntry
  extract_lets s1 s2
  have h1 : CourseKept p s s1 := courseKept_setResFld ..
  have h2 : CourseKept p s s2 := .ite (h1.trans (.of_parts (.of_regs rfl) rfl)) h1
  refine h2.trans (courseKept_modPt s2 p p fun x => ?_)
  unfold Part.course
  dsimp only
  rw [Option.map_map]
  rfl

theorem courseKept_incRg (p : PartId) (s : State) {k : Nat} (hk : ∀ i, CourseKey p i → i ≠ k) (n : Nat) : CourseKept p s (s.incRg k n) :=
  .of_parts (.incRg (.refl _ _) hk n) rfl

theorem courseKept_setRg (p : PartId) (s : State) {k : Nat} (hk : ∀ i, CourseKey p i → i ≠ k) (n : Nat) : CourseKept p s (s.setRg k n) :=
  .of_parts (.setRg (.refl _ _) hk n) rfl

theorem courseKept_updatePart (p : PartId) (s : State) : CourseKept p s (s.updatePart p) := by
  have hp := p.isLt
  exact .trans (courseKept_setRg p s (fun k h => h.ne (by decide) (.inl (by omega))) _)
    (courseKept_setRg p _ (fun k h => h.ne (by decide) (.inl (by omega))) _)

theorem courseKept_committedPoison (p : PartId) (s : State) (a : Nat) : CourseKept p s (s.committedPoison a) := by
  refine ⟨fun k hk => notStored_committedPoison s a k hk.notStored, ?_⟩
  unfold State.committedPoison
  split
  · dsimp only
    split
    · refine (courseKept_modPt _ p _ fun x => ?_).pt
      split <;> rfl
    · rfl
  · rfl

theorem courseKept_commitPoison (p : PartId) (s : State) (i : Nat) : CourseKept p s (s.commitPoison i) := by
  unfold State.commitPoison
  split
  · exact courseKept_committedPoison ..
  · exact .refl _ _

theorem courseKept_revert (p : PartId) (s : State) (i : Nat) : CourseKept p s (s.revert p i) := by
  unfold State.revert
  extract_lets e s1
  have h1 : CourseKept p s s1 := courseKept_modPt s p p fun x => by
    cases SMap.get? x.former i <;> rfl
  exact (((h1.trans (courseKept_setResFld ..)).trans (courseKept_setResFld ..)).trans (courseKept_setResFld ..)).trans (courseKept_commitPoison ..)

theorem courseKept_restoreStaged (p : PartId) (s : State) (gen : Nat) : CourseKept p s (s.restoreStaged p gen) := by
  unfold State.restoreStaged
  extract_lets po s1
  have h1 : CourseKept p s s1 := .foldl _ fun u r => by
    extract_lets i n s2
    exact (((courseKept_placeSaved ..).trans (courseKept_freeOtherSlots ..)).trans (courseKept_restoredEntry ..)).trans
      (courseKept_incRg _ _ (fun k h => h.ne (by decide) (.inr (by decide))) _)
  clear_value po s1
  exact h1.trans (courseKept_modPt s1 p p fun x => rfl)

theorem courseKept_modRecover (p : PartId) (s : State) {f : Recover → Recover} (hf : ∀ r, (f r).active = r.active ∧ (f r).step = r.step) :
    CourseKept p s (s.modRecover p f) := by
  refine courseKept_modPt s p p fun x => ?_
  unfold Part.course
  dsimp only
  rw [Option.map_map]
  cases x.recover with
  | none => rfl
  | some r =>
    obtain ⟨ha, hs⟩ := hf r
    simp [ha, hs]

/-! ### RECOVERY_START -/

/-- A register of a family written to one value at each member of a list. -/
theorem State.rg_foldl_setRg {f : Nat → Nat} {v i : Nat} (hb : objBytes (f i) ≠ some 0) (hv : v < 256) :
    ∀ (l : List Nat) (s : State), (i ∈ l ∨ s.rg (f i) = v) → (l.foldl (fun t q => t.setRg (f q) v) s).rg (f i) = v
  | [], s, h => h.resolve_left (by simp)
  | q :: l, s, h => by
    refine rg_foldl_setRg hb hv l _ ?_
    by_cases hq : f i = f q
    · right
      dsimp only
      rw [← hq]
      exact State.rg_setRg_small hb hv s
    · dsimp only
      rw [State.rg_setRg_ne s v hq]
      rcases h with h | h
      · rcases List.mem_cons.1 h with rfl | h
        · exact absurd rfl hq
        · exact .inl h
      · exact .inr h

theorem objBytes_FILTER_MODE : ∀ q < 64, objBytes (Obj.FILTER_MODE q) ≠ some 0 := by
  decide +kernel

theorem State.rg_setFilter {r : Resources} (hr : (s.pt p).built = some r) {q : Nat} (hq : q < 64) (hbit : r.ports.testBit q = true) :
    (s.setFilter p 1).rg (Obj.FILTER_MODE q) = 1 := by
  unfold State.setFilter
  rw [hr]
  exact State.rg_foldl_setRg (objBytes_FILTER_MODE q hq) (by decide) _ s (.inl (mem_bitsOf.2 ⟨hq, hbit⟩))

theorem State.rg_setFilter_ne (s : State) (p v : Nat) {k : Nat} (hk : ∀ q, k ≠ Obj.FILTER_MODE q) : (s.setFilter p v).rg k = s.rg k := by
  unfold State.setFilter
  split
  · exact RgKept.foldl (K := fun i => i = k) _ (fun u q => .setRg (.refl _ _) (fun i h => h ▸ hk q) v) k rfl
  · rfl

theorem State.pt_setFilter (s : State) (p v q : Nat) : (s.setFilter p v).pt q = s.pt q := by
  exact State.pt_congr ((State.changes_setFilter ..).kept .parts) q

theorem gives_recoveryStart (hr : (s.pt p).recover = some rc) (hj : (s.pt p).recoverJob = some j) (ha : rc.active = false)
    (ht : rc.tick ≤ (s.pt p).gen.tick) (hb : (s.pt p).gen.begun = true) :
    Gives (.recoveryStart p) s (fun t => t.rg (Obj.RECOVERY_STATE p) = rsRecovering ∧ (t.pt p).stopped = some j ∧
      (∃ y, (t.pt p).recover = some y ∧ y.active = true ∧ y.step = rc.step) ∧
      ∀ r q, (s.pt p).built = some r → q < 64 → r.ports.testBit q = true → t.rg (Obj.FILTER_MODE q) = 1) := by
  have hx : exec (.recoveryStart p) s = execRecoveryStart p s := rfl
  unfold execRecoveryStart at hx
  rw [hr, hj] at hx
  refine gives_of_takes hx (by simp [ha, ht, hb]) ?_
  extract_lets spare s1 s2 s3 s4 s5
  -- the job stopped, and the recovery at work
  have h1 : (s1.pt p).course = (some j, some (true, rc.step)) ∧ (s1.pt p).built = (s.pt p).built := by
    rw [State.pt_modPt_fin]
    exact ⟨rfl, rfl⟩
  clear_value s1
  have hjob (u : State) (f : Fld) (v : Nat) : ((u.setJobF p j f v).pt p).course = (u.pt p).course ∧
      ((u.setJobF p j f v).pt p).built = (u.pt p).built := by
    rw [State.setJobF, State.pt_putJob]
    exact ⟨rfl, rfl⟩
  have h2 : (s2.pt p).course = (some j, some (true, rc.step)) ∧ (s2.pt p).built = (s.pt p).built := by
    unfold s2
    split
    · rw [(hjob _ _ _).1, (hjob _ _ _).1, (hjob _ _ _).2, (hjob _ _ _).2]
      exact h1
    · exact h1
  clear_value s2
  -- RECOVERING, with the ports filtered by hash
  have hpt3 : s3.pt p = s2.pt p := State.pt_setFilter ..
  have hst3 : s3.rg (Obj.RECOVERY_STATE p) = rsRecovering := by
    refine (State.rg_setFilter_ne _ _ _ fun q => okey_ne_of_sub (by decide)).trans ?_
    refine (State.rg_setRg_ne _ _ (okey_ne_of_sub (by decide))).trans ((State.rg_setRg_ne _ _ (okey_ne_of_sub (by decide))).trans ?_)
    exact State.rg_setRg_small (objBytes_recovery p).1 (by decide) s2
  have hf3 (r : Resources) (q : Nat) (hr : (s.pt p).built = some r) (hq : q < 64) (hbit : r.ports.testBit q = true) :
      s3.rg (Obj.FILTER_MODE q) = 1 := by
    refine State.rg_setFilter ?_ hq hbit
    exact h2.2.trans hr
  clear_value s3
  -- what is reverted and restored leaves the course
  have h4 : CourseKept p s3 s4 := .trans (.foldl _ fun u kv => courseKept_revert ..) (courseKept_updatePart ..)
  have h5 : CourseKept p s3 s5 := h4.trans (courseKept_modPt s4 p p fun x => rfl)
  suffices hend : ∀ u, CourseKept p s3 u → u.rg (Obj.RECOVERY_STATE p) = rsRecovering ∧ (u.pt p).stopped = some j ∧
      (∃ y, (u.pt p).recover = some y ∧ y.active = true ∧ y.step = rc.step) ∧
      ∀ r q, (s.pt p).built = some r → q < 64 → r.ports.testBit q = true → u.rg (Obj.FILTER_MODE q) = 1 by
    refine hend _ (.ite ?_ ?_)
    · split
      · exact h5.trans (courseKept_restoreStaged ..)
      · exact h5.trans (courseKept_modRecover p s5 fun r => ⟨rfl, rfl⟩)
    · exact h4.trans (courseKept_modRecover p s4 fun r => ⟨rfl, rfl⟩)
  intro u hu
  have hc : (u.pt p).course = (some j, some (true, rc.step)) := by
    rw [hu.pt, hpt3]
    exact h2.1
  obtain ⟨hstop, hrec⟩ := Prod.mk.inj hc
  obtain ⟨y, hy, hys⟩ := Option.map_eq_some_iff.1 hrec
  obtain ⟨hact, hstep⟩ := Prod.mk.inj hys
  exact ⟨(hu.rg _ (.inl rfl)).trans hst3, hstop, ⟨y, hy, hact, hstep⟩,
    fun r q hr hq hbit => (hu.rg _ (.inr ⟨q, hq, rfl⟩)).trans (hf3 r q hr hq hbit)⟩

/-! ### RESTORE_TRANSFER and RECOVERY_READY -/

theorem State.verify_lt (s : State) (p j : Nat) (rc : Recover) (roots : List (Nat × List Byte)) (replicas : List (Nat × Nat × Nat)) :
    (s.verify p j rc roots replicas).1 < 256 ∧ (s.verify p j rc roots replicas).2 < 256 := by
  unfold State.verify
  extract_lets weights live moved partner replica po cursor report
  refine ⟨firstCode_lt (by decide) fun c hc => ?_, ?_⟩
  · simp only [List.mem_cons, List.not_mem_nil, or_false] at hc
    rcases hc with rfl | rfl | rfl <;> dsimp only <;> omega
  · have hbit (b : Bool) (n : Nat) : (if b = true then n else 0) ≤ n := by
      split <;> omega
    have h := Nat.add_le_add (Nat.add_le_add (hbit partner 1) (hbit (weights.any fun i => !(live i).isEmpty) 2))
      (hbit (weights.any fun i => (live i).isEmpty) 4)
    exact Nat.lt_of_le_of_lt h (by decide)

/-- What the history entries take leaves the registers but HIST_LOST. -/
theorem State.rg_checkHistories (s : State) (q b : Nat) (also : State → Nat → Bool) {k : Nat} (hk : k ≠ Obj.HIST_LOST q) :
    (s.checkHistories q b also).rg k = s.rg k := by
  unfold State.checkHistories
  refine RgKept.foldl (K := fun i => i = k) _ (fun u i => ?_) k rfl
  dsimp only
  refine .trans (.ite (t := u.loseHistory q i) (u := u) ?_ (.refl _ _)) (.of_regs rfl)
  unfold State.loseHistory
  exact .setRg (.of_regs rfl) (fun j h => h ▸ hk) _

theorem State.rg_recoverFail (s : State) (p : PartId) {code : Nat} (hc : code < 256) :
    (s.recoverFail p code).rg (Obj.RECOVERY_STATE p) = rsFailed ∧ (s.recoverFail p code).rg (Obj.RECOVER_RESULT p) = code :=
  ⟨(State.rg_setRg_ne _ _ (recovery_ne p).1).trans (State.rg_setRg_small (objBytes_recovery p).1 (by decide) s),
    State.rg_setRg_small (by rw [(objBytes_recovery p).2.1]; decide) hc _⟩

section
variable (hr : (s.pt p).recover = some rc) (hj : (s.pt p).stopped = some j) (ha : rc.active = true)
  (hst : s.rg (Obj.RECOVERY_STATE p) = rsRecovering)
include hr hj ha hst

theorem gives_restorePairing {feed mac job module_ : Nat} :
    (s.pairingOk p j feed job module_ = true → Gives (.restoreTransfer p (.receive (.pairing feed mac job module_))) s (fun t =>
      (t.pt p).recover = some { rc with paired := true } ∧ t.mem = s.mem)) ∧
    (s.pairingOk p j feed job module_ = false → Gives (.restoreTransfer p (.receive (.pairing feed mac job module_))) s (fun t =>
      t.rg (Obj.RECOVERY_STATE p) = rsFailed ∧ t.rg (Obj.RECOVER_RESULT p) = 0x62 ∧ t.mem = s.mem)) := by
  have hx : exec (.restoreTransfer p (.receive (.pairing feed mac job module_))) s =
      execRestoreTransfer p (.receive (.pairing feed mac job module_)) s := rfl
  unfold execRestoreTransfer at hx
  rw [hr, hj] at hx
  refine ⟨fun h => gives_of_takes hx (by simp [ha, hst]) ?_, fun h => gives_of_takes hx (by simp [ha, hst]) ?_⟩ <;>
    unfold State.restoreMove State.restoreTake <;> dsimp only <;> rw [if_pos hst, h]
  · rw [if_pos rfl]
    refine ⟨?_, rfl⟩
    rw [State.modRecover, State.pt_modPt_fin, hr]
    rfl
  · rw [if_neg (by decide)]
    obtain ⟨h1, h2⟩ := s.rg_recoverFail p (code := 0x62) (by decide)
    exact ⟨h1, h2, rfl⟩

theorem gives_recoveryReady {at_ : Nat} {roots : List (Nat × List Byte)} {replicas : List (Nat × Nat × Nat)} (hw : rc.wanted = [])
    (hs : rc.resync = []) (hm : s.boot.milliner = true) : Gives (.recoveryReady p at_ roots replicas) s (fun t =>
      t.rg (Obj.RESTORE_REPORT p) = ((s.at at_).verify p j rc roots replicas).2 ∧
      (((s.at at_).verify p j rc roots replicas).1 = 0 → t.rg (Obj.RECOVERY_STATE p) = rsReady) ∧
      (((s.at at_).verify p j rc roots replicas).1 ≠ 0 → t.rg (Obj.RECOVERY_STATE p) = rsFailed ∧
        t.rg (Obj.RECOVER_RESULT p) = ((s.at at_).verify p j rc roots replicas).1 ∧ t.mem = s.mem)) := by
  have hx : exec (.recoveryReady p at_ roots replicas) s = execRecoveryReady p at_ roots replicas s := rfl
  unfold execRecoveryReady at hx
  rw [hr, hj] at hx
  refine gives_of_takes hx (by simp [hm, ha, hst, hw, hs]) ?_
  dsimp only
  obtain ⟨hc, hrep⟩ := (s.at at_).verify_lt p j rc roots replicas
  generalize hcode : ((s.at at_).verify p j rc roots replicas).1 = code at hc ⊢
  generalize ((s.at at_).verify p j rc roots replicas).2 = report at hrep ⊢
  obtain ⟨hf, -, hr0, -⟩ := objBytes_recovery p
  obtain ⟨-, hne1, hne2, hne3⟩ := recovery_ne p
  -- the report, and a mismatch counted
  generalize hu : (if code = 0x69 || code = 0x6A then ((s.at at_).setRg (Obj.RESTORE_REPORT p) report).incRg (Obj.HASH_MISMATCHES p) 1
    else (s.at at_).setRg (Obj.RESTORE_REPORT p) report) = u
  have hreport : u.rg (Obj.RESTORE_REPORT p) = report := by
    have h := State.rg_setRg_small hr0 hrep (s.at at_)
    rw [← hu]
    split
    · exact (State.rg_incRg_ne _ _ hne3).trans h
    · exact h
  have hmem : u.mem = s.mem := by
    rw [← hu]
    split <;> rfl
  by_cases h0 : code = 0
  · rw [if_neg (by simpa using h0)]
    refine ⟨?_, fun _ => State.rg_setRg_small hf (by decide) _, fun h => absurd h0 h⟩
    refine (State.rg_setRg_ne _ _ hne2).trans ((State.rg_checkHistories _ _ _ _ ?_).trans hreport)
    exact okey_ne_of_sub (by decide)
  · rw [if_pos h0]
    obtain ⟨h1, h2⟩ := u.rg_recoverFail p hc
    refine ⟨?_, fun h => absurd h h0, fun _ => ⟨h1, h2, hmem⟩⟩
    exact (State.rg_setRg_ne _ _ hne1).trans ((State.rg_setRg_ne _ _ hne2).trans hreport)

end

/-! ### RESUME -/

section
variable (hw : s.mayWrite sess (Obj.RECOVER_COMMAND p) 2 = true) (hr : (s.pt p).recover = some rc) (hj : (s.pt p).stopped = some j)
include hw hr hj

theorem gives_resume (hst : s.rg (Obj.RECOVERY_STATE p) = rsReady)
    (ht : s.now + 1000000000 ≤ s.edgeOf p (s.rg (Obj.RESUME_TICK p))) {code : Nat}
    (hcode : s.resumeCode (s.jobOffer p j (SMap.getD [] (s.pt p).stitch j)) = code) :
    Gives (.resume sess p) s (fun t => t.rg (Obj.RECOVER_RESULT p) = code % 256 ∧ Job.refusal.get ((t.pt p).job j) = code % 256 ∧
      (t.pt p).recover = some (if code = 0 then { rc with resume := some (s.rg (Obj.RESUME_TICK p)) } else rc)) := by
  refine gives_of_takes (by unfold exec execResume State.command; rfl) hw ?_
  unfold State.resumeCmd
  rw [hr, hj]
  dsimp only
  rw [if_neg (by simpa [hst] using ht), hcode]
  -- the code, in RECOVER_RESULT and in the entry
  generalize hu : (s.setRg (Obj.RECOVER_RESULT p) code).setJobF p j Job.refusal code = u
  have hres : u.rg (Obj.RECOVER_RESULT p) = code % 256 := by
    rw [← hu]
    exact State.rg_setRg_bytes (objBytes_recovery p).2.1 (by decide) s code
  have htick : u.rg (Obj.RESUME_TICK p) = s.rg (Obj.RESUME_TICK p) := by
    rw [← hu]
    exact State.rg_setRg_ne s code (okey_ne_of_sub (by decide))
  have hpt : u.pt p = (s.pt p).setJob j (Job.refusal.set ((s.pt p).job j) code) := by
    rw [← hu, State.setJobF, State.pt_putJob]
    rfl
  have href : Job.refusal.get ((u.pt p).job j) = code % 256 := by
    rw [hpt, Part.job_setJob_self, Fld.get_set_self Job.refusal]
    rfl
  have hrec : (u.pt p).recover = some rc := by
    rw [hpt]
    exact hr
  by_cases h0 : code = 0
  · rw [if_neg (by simpa using h0), if_pos h0, htick]
    generalize hv : u.modPt p (fun x => { x with recover := some { rc with resume := some (s.rg (Obj.RESUME_TICK p)) } }) = v
    have hpv : v.pt p = { u.pt p with recover := some { rc with resume := some (s.rg (Obj.RESUME_TICK p)) } } := by
      rw [← hv, State.pt_modPt_fin]
    have hrv : v.regs = u.regs := by
      rw [← hv]
      rfl
    refine ⟨?_, ?_, ?_⟩
    · refine Eq.trans ?_ ((rg_of_regs hrv _).trans hres)
      exact State.rg_setRg_ne _ _ (okey_ne_of_index (by have := p.isLt; omega) (by decide) (by decide))
    · rw [show ((v.pinJob p j (u.blockOf p j) (SMap.getD [] (s.pt p).stitch j)).pt p).job j = (v.pt p).job j from
        congrArg (fun m => SMap.getD 0 m j) (State.sameJobs_pinJob ..).jobs, hpv]
      exact href
    · rw [State.pinJob, State.pt_countPins, State.pt_modPt_fin, hpv]
  · rw [if_pos h0, if_neg h0]
    exact ⟨hres, href, hrec⟩

theorem gives_resume_barred (h : ¬ (s.rg (Obj.RECOVERY_STATE p) = rsReady ∧ s.now + 1000000000 ≤ s.edgeOf p (s.rg (Obj.RESUME_TICK p)))) :
    Gives (.resume sess p) s (fun t => t = s) := by
  refine gives_of_takes (by unfold exec execResume State.command; rfl) hw ?_
  unfold State.resumeCmd
  rw [hr, hj]
  dsimp only
  rw [if_pos]
  rw [Bool.or_eq_true, decide_eq_true_eq, decide_eq_true_eq]
  by_cases hst : s.rg (Obj.RECOVERY_STATE p) = rsReady
  · exact .inr (by simpa [hst] using h)
  · exact .inl hst

end

/-! ### ABANDON -/

theorem gives_abandon (hw : s.mayWrite sess (Obj.RECOVER_COMMAND p) 3 = true) (hj : (s.pt p).stopped = some j) :
    Gives (.abandon sess p) s (fun t => (t.pt p).abandonAtEdge = true ∧ (t.pt p).stopped = some j ∧ t.jobState p j = s.jobState p j ∧
      t.rg (Obj.RECOVERY_STATE p) = s.rg (Obj.RECOVERY_STATE p)) := by
  refine gives_of_takes (by unfold exec execAbandon State.command; rfl) hw ?_
  unfold State.abandonCmd State.jobState
  rw [hj]
  dsimp only
  rw [State.pt_modPt_fin]
  exact ⟨rfl, hj, rfl, rfl⟩

theorem gives_abandon_none (hw : s.mayWrite sess (Obj.RECOVER_COMMAND p) 3 = true) (hj : (s.pt p).stopped = none) :
    Gives (.abandon sess p) s (fun t => t = s) := by
  refine gives_of_takes (by unfold exec execAbandon State.command; rfl) hw ?_
  unfold State.abandonCmd
  rw [hj]

/-- The registers of a recovery that a job's end leaves alone. -/
def AbandonKey (p : PartId) (k : Nat) : Prop := k = Obj.RECOVERY_STATE p ∨ k = Obj.LOST_MODULES p

theorem AbandonKey.ne {k i a : Nat} (h : AbandonKey p k) (ha : a < 256) (hi : i < 0x7820) : k ≠ okey i a := by
  have hp := p.isLt
  rcases h with rfl | rfl <;> simp only [Obj.RECOVERY_STATE, Obj.LOST_MODULES, okey] <;> omega

theorem abandonKept_stopSlots (s : State) (p : PartId) : RgKept (AbandonKey p) s (s.stopSlots p) := by
  have hp := p.isLt
  unfold State.stopSlots
  extract_lets act s1 s2
  have h1 : RgKept (AbandonKey p) s s1 :=
    .foldl _ fun u i => .trans (.changes (State.changes_setSlotFld ..)) (.changes (State.changes_slotWriteBack ..))
  have h2 : RgKept (AbandonKey p) s s2 := h1.modPt _ _
  clear_value s2 s1 act
  split
  · exact h2
  · exact (h2.incRg (fun k h => h.ne (by decide) (by omega)) _).notify _ _ _ _

theorem abandonKept_endGen (s : State) (p : PartId) : RgKept (AbandonKey p) s (s.endGen p) := by
  unfold State.endGen
  split
  · exact .refl _ _
  · exact (abandonKept_stopSlots s p).modPt _ _

theorem abandonKept_endJob (s : State) (p : PartId) (j st : Nat) : RgKept (AbandonKey p) s (s.endJob p j st) := by
  have hp := p.isLt
  unfold State.endJob
  extract_lets s1 s2 s3 s4
  have h1 : RgKept (AbandonKey p) s s1 := .of_regs rfl
  have h2 : RgKept (AbandonKey p) s s2 := .ite (h1.modPt _ _) (.ite ((h1.modPt _ _).trans (abandonKept_endGen _ p)) h1)
  have h3 : RgKept (AbandonKey p) s s3 := h2.modPt _ _
  have h4 : RgKept (AbandonKey p) s s4 := .ite (h3.setRg (fun k h => h.ne (by decide) (by omega)) _) h3
  clear_value s4
  have h5 : RgKept (AbandonKey p) s (s4.unpin p j) := (h4.modPt p _).setRg (fun k h => h.ne (by decide) (by decide)) _
  exact ((h5.setRg (fun k h => h.ne (by decide) (by omega)) _).setRg (fun k h => h.ne (by decide) (by omega)) _).notify _ _ _ _

/-- The stopped job and the recovery of a partition. -/
def Part.halted (x : Part) : Option Nat × Option Recover := (x.stopped, x.recover)

theorem State.halted_endGen (s : State) (p : PartId) : ((s.endGen p).pt p).halted = (s.pt p).halted := by
  unfold State.endGen
  split
  · rfl
  · dsimp only
    rw [State.pt_modPt_fin]
    show ((s.stopSlots p).pt p).halted = _
    unfold State.stopSlots
    extract_lets act s1 s2
    have h1 : s1.parts = s.parts := by
      unfold s1
      refine List.foldlRecOn (motive := fun u : State => u.parts = s.parts) _ _ rfl fun u hu i _ => ?_
      exact Eq.trans ((State.changes_slotWriteBack ..).kept .parts) (Eq.trans ((State.changes_setSlotFld ..).kept .parts) hu)
    have h2 : (s2.pt p).halted = (s.pt p).halted := by
      unfold s2
      rw [State.pt_modPt_fin, ← State.pt_congr h1 p]
      rfl
    clear_value s2 s1 act
    cases act with
    | nil => exact h2
    | cons i act => exact h2

/-- A job's end leaves the recovery and the stopped job. -/
theorem State.halted_endJob (s : State) (p : PartId) (j st : Nat) : ((s.endJob p j st).pt p).halted = (s.pt p).halted := by
  unfold State.endJob
  extract_lets s1 s2 s3 s4
  have h1 : (s1.pt p).halted = (s.pt p).halted := by
    unfold s1
    rw [State.setJobF, State.pt_putJob]
    rfl
  clear_value s1
  have h2 : (s2.pt p).halted = (s.pt p).halted := by
    rw [← h1]
    unfold s2
    split
    · rw [State.pt_modPt_fin]
      rfl
    · split
      · rw [State.halted_endGen, State.pt_modPt_fin]
        rfl
      · rfl
  clear_value s2
  have h3 : (s3.pt p).halted = (s.pt p).halted := by
    rw [← h2]
    unfold s3
    rw [State.pt_modPt_fin]
    rfl
  clear_value s3
  have h4 : s4.pt p = s3.pt p := by
    unfold s4
    split <;> rfl
  clear_value s4
  rw [State.pt_notify, State.pt_updatePart, State.unpin, State.pt_countPins, State.pt_modPt_fin, ← h3, ← h4]
  rfl

theorem State.applyAbandon_spec (ha : (s.pt p).abandonAtEdge = true) (hj : (s.pt p).stopped = some j) :
    ((s.applyAbandon p).pt p).stopped = none ∧ ((s.applyAbandon p).pt p).recover = none ∧ (s.applyAbandon p).jobState p j = jsAbandoned ∧
    (s.applyAbandon p).rg (Obj.RECOVERY_STATE p) = rsNone ∧ (s.applyAbandon p).rg (Obj.LOST_MODULES p) = 0 := by
  unfold State.applyAbandon
  rw [hj]
  dsimp only
  rw [if_pos ha]
  generalize hu : s.modPt p (fun x => { x with stopped := none, recover := none, abandonAtEdge := false }) = u
  have hpu : (u.pt p).stopped = none ∧ (u.pt p).recover = none := by
    rw [← hu, State.pt_modPt_fin]
    exact ⟨rfl, rfl⟩
  generalize hv : ((u.setRg (Obj.RECOVERY_STATE p) rsNone).setRg (Obj.HELD_UPDATE_STARTED p) 0).setRg (Obj.LOST_MODULES p) 0 = v
  obtain ⟨hf, -, -, hl⟩ := objBytes_recovery p
  have hvs : v.rg (Obj.RECOVERY_STATE p) = rsNone := by
    rw [← hv]
    exact (State.rg_setRg_ne _ _ (okey_ne_of_sub (by decide))).trans ((State.rg_setRg_ne _ _ (okey_ne_of_sub (by decide))).trans
      (State.rg_setRg_small hf (by decide) u))
  have hvl : v.rg (Obj.LOST_MODULES p) = 0 := by
    rw [← hv]
    exact State.rg_setRg_small hl (by decide) _
  have hpv : v.pt p = u.pt p := by
    rw [← hv]
    rfl
  obtain ⟨hstate, -, -, -⟩ := v.endJob_spec p j jsAbandoned
  have hk := abandonKept_endJob v p j jsAbandoned
  obtain ⟨hs, hr⟩ := Prod.mk.inj (v.halted_endJob p j jsAbandoned)
  exact ⟨hs.trans (hpv ▸ hpu.1), hr.trans (hpv ▸ hpu.2), hstate, (hk _ (.inl rfl)).trans hvs, (hk _ (.inr rfl)).trans hvl⟩

end

/-- Settles O52: what a recovery reverts and restores leaves its course, RECOVERY_STATE and the ports' filters alone. -/
theorem recoveryCommands : Obligations.RecoveryCommands := by
  unfold Obligations.RecoveryCommands
  intro p sess at_ j feed mac job module_ facts rc roots replicas s st
  refine ⟨fun hw hj hst htr hb => gives_recover hw hj hst htr hb, fun hr hj ha ht hb => gives_recoveryStart hr hj ha ht hb,
    fun hr hj ha hst => ?_, fun hw hr hj => ⟨fun h => gives_resume hw hr hj h.1 h.2 rfl, gives_resume_barred hw hr hj⟩, gives_abandon,
    gives_abandon_none, fun ha hj => State.applyAbandon_spec ha hj⟩
  obtain ⟨hok, hbad⟩ := gives_restorePairing (feed := feed) (mac := mac) (job := job) (module_ := module_) hr hj ha hst
  exact ⟨hok, hbad, fun hw hs hm => gives_recoveryReady hr hj ha hst hw hs hm⟩

end Sys2Proof.Machine

/-! ## Partitions: build, rebuild, dissolve and stop (R466 to R468) -/

namespace Sys2Proof.Machine
open Sys2Proof

-- Short theorems, many of them: one after another, so that the threads' stacks stay within the check's memory.
set_option Elab.async false

section
variable {s t : State} {p : PartId} {sess : Nat}

theorem objBytes_part (p : PartId) : objBytes (Obj.PART_RESULT p) ≠ some 0 ∧ objBytes (Obj.PART_STATE p) ≠ some 0 ∧
    objBytes (Obj.TICK_NUMBER p) ≠ some 0 := by
  revert p
  decide +kernel

theorem objBytes_PARTITION : ∀ q < 64, objBytes (Obj.PARTITION q) ≠ some 0 := by
  decide +kernel

/-! ### What joins and leaves -/

/-- The objects in which a construction tells its outcome: PART_RESULT, TICK_NUMBER, and PARTITION of the ports. -/
def BuildKey (p : PartId) (k : Nat) : Prop := k = Obj.PART_RESULT p ∨ k = Obj.TICK_NUMBER p ∨ ∃ q < 64, k = Obj.PARTITION q

/-- An object outside the partitions' and the ports' indices. -/
theorem BuildKey.ne {k i a : Nat} (h : BuildKey p k) (ha : a < 256) (hi : i < 0x3000 ∨ 0x4400 ≤ i) : k ≠ okey i a := by
  have hp := p.isLt
  rcases h with rfl | rfl | ⟨q, hq, rfl⟩ <;> simp only [Obj.PART_RESULT, Obj.TICK_NUMBER, Obj.PARTITION, okey] <;> omega

theorem BuildKey.ne_of_sub {k i a : Nat} (h : BuildKey p k) (ha : a % 256 ≠ 9 ∧ a % 256 ≠ 4 ∧ a % 256 ≠ 2) : k ≠ okey i a := by
  rcases h with rfl | rfl | ⟨q, -, rfl⟩ <;> exact okey_ne_of_sub (by omega)

theorem buildKept_updatePart (s : State) : RgKept (BuildKey p) s (s.updatePart p) :=
  .setRg (.setRg (.refl _ _) (fun k h => h.ne_of_sub (by decide)) _) (fun k h => h.ne_of_sub (by decide)) _

theorem State.rg_updatePart_free (h : (s.pt p).built = none) : (s.updatePart p).rg (Obj.PART_STATE p) = psFree := by
  refine (State.rg_setRg_ne _ _ (okey_ne_of_sub (by decide))).trans ?_
  rw [h, if_pos (by decide)]
  exact State.rg_setRg_small (objBytes_part p).2.1 (by decide) s

theorem State.rg_updatePart_idle {r : Resources} (h : (s.pt p).built = some r) (hs : (s.pt p).stopped = none) (hj : (s.pt p).jobs = []) :
    (s.updatePart p).rg (Obj.PART_STATE p) = psIdle := by
  refine (State.rg_setRg_ne _ _ (okey_ne_of_sub (by decide))).trans ?_
  rw [h, hs, hj, if_neg (by simp), if_neg (by decide), if_neg (by decide)]
  exact State.rg_setRg_small (objBytes_part p).2.1 (by decide) s

theorem buildKept_clearClusters (s : State) (m : Nat) : RgKept (BuildKey p) s (s.clearClusters m) := by
  unfold State.clearClusters
  exact .foldl _ fun u c => .of_regs rfl

theorem buildKept_wakeDevices (s : State) (m : Nat) : RgKept (BuildKey p) s (s.wakeDevices m) := by
  unfold State.wakeDevices
  refine List.foldlRecOn (motive := RgKept (BuildKey p) s) _ _ (.refl _ _) fun u hu d hd => ?_
  have := (mem_bitsOf.1 hd).1
  exact .ite (hu.setRg (fun k h => h.ne (by omega) (.inl (by decide))) _) hu

theorem buildKept_sleepDevices (s : State) (m : Nat) : RgKept (BuildKey p) s (s.sleepDevices m) := by
  unfold State.sleepDevices
  refine List.foldlRecOn (motive := RgKept (BuildKey p) s) _ _ (.refl _ _) fun u hu d hd => ?_
  have := (mem_bitsOf.1 hd).1
  exact .ite hu (hu.setRg (fun k h => h.ne (by omega) (.inl (by decide))) _)

theorem buildKept_resetCounters (s : State) : RgKept (BuildKey p) s (s.resetCounters p) := by
  have hp := p.isLt
  unfold State.resetCounters
  extract_lets s1 s2 drop
  have hfold (i n : Nat) (hi : 0x4400 ≤ i) (hn : n ≤ 0x20) (u : State) :
      RgKept (BuildKey p) u ((List.range n).foldl (fun t j => t.setRg (okey i (j + 1)) 0) u) := by
    refine List.foldlRecOn (motive := RgKept (BuildKey p) u) _ _ (.refl _ _) fun v hv j hj => ?_
    have := List.mem_range.1 hj
    exact hv.setRg (fun k h => h.ne (by omega) (.inr hi)) _
  have h2 : RgKept (BuildKey p) s s2 := (hfold _ _ (by omega) (by decide) s).trans (hfold _ _ (by omega) (by decide) s1)
  exact h2.trans (.of_regs rfl)

/-- PARTITION of the ports of a mask. -/
theorem State.rg_ownPorts (s : State) {m v q : Nat} (hq : q < 64) (hm : m.testBit q = true) (hv : v < 256) :
    (s.ownPorts m v).rg (Obj.PARTITION q) = v :=
  State.rg_foldl_setRg (objBytes_PARTITION q hq) hv _ s (.inl (mem_bitsOf.2 ⟨hq, hm⟩))

theorem State.rg_ownPorts_ne (s : State) (m v : Nat) {k : Nat} (hk : ∀ q, k ≠ Obj.PARTITION q) : (s.ownPorts m v).rg k = s.rg k := by
  unfold State.ownPorts
  exact RgKept.foldl (K := fun i => i = k) _ (fun u q => .setRg (.refl _ _) (fun i h => h ▸ hk q) v) k rfl

theorem PART_RESULT_ne_PARTITION (p : PartId) (q : Nat) : Obj.PART_RESULT p ≠ Obj.PARTITION q := okey_ne_of_sub (by decide)

theorem State.cl_congr (h : t.clusters = s.clusters) (c : Nat) : t.cl c = s.cl c := by
  unfold State.cl
  rw [h]

/-- The clusters of a mask are cleared. -/
theorem State.cl_clearClusters (s : State) (m : Nat) (c : ClusterId) :
    (s.clearClusters m).cl c = if m.testBit c.val then Cluster.empty else s.cl c := by
  unfold State.clearClusters
  have hl : (bitsOf 48 m).Nodup := List.nodup_range.filter _
  refine (State.cl_foldl_modCl (fun _ _ => Cluster.empty) c hl s).trans ?_
  by_cases h : m.testBit c.val = true
  · rw [if_pos (mem_bitsOf.2 ⟨c.isLt, h⟩), if_pos h]
  · rw [if_neg (fun hc => h (mem_bitsOf.1 hc).2), if_neg h]

theorem testBit_maskMinus {a b i : Nat} (hi : i < 64) : (maskMinus a b).testBit i = (a.testBit i && !b.testBit i) := by
  unfold maskMinus
  rw [testBit_foldl_setBit, Nat.zero_testBit, Bool.false_or, Bool.eq_iff_iff, List.contains_iff_mem, List.mem_filter, mem_bitsOf, Bool.and_eq_true]
  exact ⟨fun h => ⟨h.1.2, h.2⟩, fun h => ⟨⟨hi, h.1⟩, h.2⟩⟩

/-- The queues of ports that leave are empty. -/
theorem State.queue_dropQueues (s : State) {m q i : Nat} (hm : m.testBit q = true) (hi : i < 2) : (s.dropQueues m).queue q i = [] := by
  refine SMap.getD_filter_out [] s.queues (fun k => !m.testBit (k / 2)) ?_
  rw [show (2 * q + i) / 2 = q by omega, hm]
  rfl

theorem State.relays_dropQueues (s : State) {m q : Nat} (hm : m.testBit q = true) : SMap.getD [] (s.dropQueues m).relays q = [] := by
  refine SMap.getD_filter_out [] s.relays (fun k => !m.testBit k) ?_
  rw [hm]
  rfl

/-- What a command leaves untouched where it is refused. -/
theorem gives_part_refused {i : Instr} {n v : Nat} (hw : s.mayWrite sess (Obj.PART_COMMAND p) v = true) {eff : State → State × Answer}
    (hx : exec i s = s.command sess (Obj.PART_COMMAND p) v (fun s => (eff s).1)) (he : eff s = (s.setRg (Obj.PART_RESULT p) n, .ok))
    (hn : n < 256) : Gives i s (fun t => t.rg (Obj.PART_RESULT p) = n ∧ t.parts = s.parts ∧ t.clusters = s.clusters) := by
  refine gives_of_takes hx hw ?_
  rw [he]
  exact ⟨State.rg_setRg_small (objBytes_part p).1 hn s, rfl, rfl⟩

theorem State.partCheck_lt (s : State) (p : Nat) (r : Resources) : s.partCheck p r < 256 := by
  unfold State.partCheck
  refine firstCode_lt (by decide) fun c hc => ?_
  simp only [List.mem_cons, List.not_mem_nil, or_false] at hc
  rcases hc with rfl | rfl | rfl | rfl | rfl | rfl | rfl | rfl | rfl <;> dsimp only <;> omega

/-! ### Build -/

theorem gives_partBuild_refused (hw : s.mayWrite sess (Obj.PART_COMMAND p) 1 = true) {code : Nat}
    (hc : (if (s.pt p).built.isSome then 0x70 else s.partCheck p (s.asked p)) = code) (h0 : code ≠ 0) :
    Gives (.partBuild sess p) s (fun t => t.rg (Obj.PART_RESULT p) = code ∧ t.parts = s.parts ∧ t.clusters = s.clusters) := by
  refine gives_part_refused hw (eff := fun s => s.partBuild p) rfl ?_ ?_
  · unfold State.partBuild
    dsimp only
    rw [hc, if_pos h0]
  · rw [← hc]
    split
    · decide
    · exact s.partCheck_lt ..

/-- What a build with resources leaves of its own. -/
structure Builds (p : PartId) (r : Resources) (s t : State) : Prop where
  result : t.rg (Obj.PART_RESULT p) = 0
  built : (t.pt p).built = some r
  on : (t.pt p).gen.on = true
  begun : (t.pt p).gen.begun = false
  jobs : (t.pt p).jobs = []
  tick : t.rg (Obj.TICK_NUMBER p) = 0
  state : t.rg (Obj.PART_STATE p) = psIdle
  clusters : ∀ c : ClusterId, t.cl c = if r.clusters.testBit c.val then Cluster.empty else s.cl c
  ports : ∀ q, q < 64 → r.ports.testBit q = true → t.rg (Obj.PARTITION q) = p.val

theorem State.builds_partBuild (hb : (s.pt p).built = none) (hc : s.partCheck p (s.asked p) = 0) :
    Builds p (s.asked p) s (s.partBuild p).1 := by
  obtain ⟨hres, -, htn⟩ := objBytes_part p
  have hcode : (if (s.pt p).built.isSome then 0x70 else s.partCheck p (s.asked p)) = 0 := by
    rw [hb, if_neg (by decide)]
    exact hc
  generalize hr : s.asked p = r at hcode ⊢
  unfold State.partBuild
  rw [hr]
  extract_lets r' code s1 s2 s3 g x s4
  have hcode : code = 0 := hcode
  clear_value code
  subst hcode
  rw [if_neg (by decide)]
  have h1 : s1.rg (Obj.PART_RESULT p) = 0 := State.rg_setRg_small hres (by decide) s
  have hcl1 (c : ClusterId) : s1.cl c = s.cl c := rfl
  clear_value s1
  -- the resources join
  have hc2 (c : ClusterId) : s2.cl c = if r.clusters.testBit c.val then Cluster.empty else s.cl c := by
    rw [← hcl1, ← State.cl_clearClusters]
    exact State.cl_congr (Eq.trans ((State.changes_ownPorts ..).kept .clusters) ((State.changes_wakeDevices ..).kept .clusters)) c
  have hp2 (q : Nat) (hq : q < 64) (hbit : r.ports.testBit q = true) : s2.rg (Obj.PARTITION q) = p.val :=
    State.rg_ownPorts _ hq hbit (by have := p.isLt; omega)
  have hr2 : s2.rg (Obj.PART_RESULT p) = 0 := by
    refine (State.rg_ownPorts_ne _ _ _ (PART_RESULT_ne_PARTITION p)).trans ?_
    exact (((buildKept_clearClusters s1 r.clusters).trans (buildKept_wakeDevices _ r.devices)) _ (.inl rfl)).trans h1
  clear_value s2
  -- the counters and the tick number start again
  have hk3 : RgKept (BuildKey p) s2 (s2.resetCounters p) := buildKept_resetCounters s2
  have ht3 : s3.rg (Obj.TICK_NUMBER p) = 0 := State.rg_setRg_small htn (by decide) _
  have hr3 : s3.rg (Obj.PART_RESULT p) = 0 := (State.rg_setRg_ne _ _ (okey_ne_of_sub (by decide))).trans ((hk3 _ (.inl rfl)).trans hr2)
  have hp3 (q : Nat) (hq : q < 64) (hbit : r.ports.testBit q = true) : s3.rg (Obj.PARTITION q) = p.val :=
    (State.rg_setRg_ne _ _ (okey_ne_of_sub (by decide))).trans ((hk3 _ (.inr (.inr ⟨q, hq, rfl⟩))).trans (hp2 q hq hbit))
  have hcl3 : s3.clusters = s2.clusters := 
    Eq.trans ((State.changes_setRg (s2.resetCounters p) _ _).kept .clusters) ((State.changes_resetCounters s2 p).kept .clusters)
  have hc3 (c : ClusterId) : s3.cl c = if r.clusters.testBit c.val then Cluster.empty else s.cl c := (State.cl_congr hcl3 c).trans (hc2 c)
  clear_value s3
  -- the partition begins, idle
  have hpt : (s4.pt p).built = some r ∧ (s4.pt p).stopped = none ∧ (s4.pt p).jobs = [] ∧ (s4.pt p).gen.on = true ∧ (s4.pt p).gen.begun = false := by
    unfold s4
    rw [State.pt_modPt_fin]
    exact ⟨rfl, rfl, rfl, rfl, rfl⟩
  have h4 : s4.regs = s3.regs ∧ s4.clusters = s3.clusters := ⟨State.regs_modPt .., State.clusters_modPt ..⟩
  clear_value s4
  obtain ⟨hb4, hs4, hj4, hon, hbegun⟩ := hpt
  generalize hu : s4.setRg (Obj.SNAPSHOT_STATE p) 0 = u
  have hpu : u.pt p = s4.pt p := by
    rw [← hu, State.pt_setRg]
  have hk4 : RgKept (BuildKey p) s3 u := by
    rw [← hu]
    exact .setRg (.of_regs h4.1) (fun k h => h.ne_of_sub (by decide)) _
  have hcu : u.clusters = s4.clusters := by
    rw [← hu, State.clusters_setRg]
  rw [← hpu] at hb4 hs4 hj4 hon hbegun
  have hk : RgKept (BuildKey p) s3 (u.updatePart p) := hk4.trans (buildKept_updatePart u)
  have hcl : (u.updatePart p).clusters = s3.clusters := Eq.trans ((State.changes_updatePart ..).kept .clusters) (hcu.trans h4.2)
  have hstate := State.rg_updatePart_idle hb4 hs4 hj4
  rw [← State.pt_updatePart u p p] at hb4 hj4 hon hbegun
  exact ⟨(hk _ (.inl rfl)).trans hr3, hb4, hon, hbegun, hj4, (hk _ (.inr (.inl rfl))).trans ht3, hstate,
    fun c => (State.cl_congr hcl c).trans (hc3 c), fun q hq hbit => (hk _ (.inr (.inr ⟨q, hq, rfl⟩))).trans (hp3 q hq hbit)⟩

theorem gives_partBuild (hw : s.mayWrite sess (Obj.PART_COMMAND p) 1 = true) (hb : (s.pt p).built = none)
    (hc : s.partCheck p (s.asked p) = 0) : Gives (.partBuild sess p) s (fun t => t.rg (Obj.PART_RESULT p) = 0 ∧
      (t.pt p).built = some (s.asked p) ∧ (t.pt p).gen.on = true ∧ (t.pt p).gen.begun = false ∧ (t.pt p).jobs = [] ∧
      t.rg (Obj.TICK_NUMBER p) = 0 ∧ t.rg (Obj.PART_STATE p) = psIdle ∧ SameOtherParts p s t ∧
      (∀ c : ClusterId, t.cl c = (if (s.asked p).clusters.testBit c.val then Cluster.empty else s.cl c)) ∧
      (∀ q, q < 64 → (s.asked p).ports.testBit q = true → t.rg (Obj.PARTITION q) = p.val)) := by
  obtain ⟨h1, h2, h3, h4, h5, h6, h7, h8, h9⟩ := State.builds_partBuild hb hc
  refine gives_of_takes (by unfold exec execPartBuild State.command; rfl) hw ?_
  exact ⟨h1, h2, h3, h4, h5, h6, h7, s.partBuild_otherParts p, h8, h9⟩

/-! ### Rebuild -/

theorem gives_partRebuild_refused {o : Resources} (hw : s.mayWrite sess (Obj.PART_COMMAND p) 2 = true) (ho : (s.pt p).built = some o) {code : Nat}
    (hc : (if s.rg (Obj.PART_STATE p) ≠ psIdle then 0x70 else s.partCheck p (s.asked p)) = code) (h0 : code ≠ 0) :
    Gives (.partRebuild sess p) s (fun t => t.rg (Obj.PART_RESULT p) = code ∧ t.parts = s.parts ∧ t.clusters = s.clusters) := by
  refine gives_part_refused hw (eff := fun s => s.partRebuild p) rfl ?_ ?_
  · unfold State.partRebuild
    rw [ho]
    dsimp only
    rw [hc, if_pos h0]
  · rw [← hc]
    split
    · decide
    · exact s.partCheck_lt ..

/-- What a rebuild from resources to others leaves of its own. -/
structure Rebuilds (p : PartId) (o r : Resources) (s t : State) : Prop where
  result : t.rg (Obj.PART_RESULT p) = 0
  built : (t.pt p).built = some r
  clusters : ∀ c : ClusterId, t.cl c = if r.clusters.testBit c.val = o.clusters.testBit c.val then s.cl c else Cluster.empty
  queues : ∀ q, q < 64 → o.ports.testBit q = true → r.ports.testBit q = false →
    t.queue q 0 = [] ∧ t.queue q 1 = [] ∧ SMap.getD [] t.relays q = []
  ports : ∀ q, q < 64 → r.ports.testBit q = true → t.rg (Obj.PARTITION q) = p.val

theorem State.rebuilds_partRebuild {o : Resources} (ho : (s.pt p).built = some o) (hs : s.rg (Obj.PART_STATE p) = psIdle)
    (hc : s.partCheck p (s.asked p) = 0) : Rebuilds p o (s.asked p) s (s.partRebuild p).1 := by
  obtain ⟨hres, -, -⟩ := objBytes_part p
  have hp := p.isLt
  have hcode : (if s.rg (Obj.PART_STATE p) ≠ psIdle then 0x70 else s.partCheck p (s.asked p)) = 0 := by
    rw [if_neg (by simpa using hs)]
    exact hc
  generalize hr : s.asked p = r at hcode ⊢
  unfold State.partRebuild
  rw [hr, ho]
  extract_lets r' code s1
  have hcode : code = 0 := hcode
  clear_value code
  subst hcode
  dsimp -zeta only
  rw [if_neg (by decide)]
  extract_lets s2 s3 s4
  have h1 : s1.rg (Obj.PART_RESULT p) = 0 := State.rg_setRg_small hres (by decide) s
  have hcl1 (c : ClusterId) : s1.cl c = s.cl c := rfl
  clear_value s1
  -- the clusters that join or leave
  have hc2 (c : ClusterId) : s2.cl c = if r.clusters.testBit c.val = o.clusters.testBit c.val then s.cl c else Cluster.empty := by
    have hc : c.val < 64 := by omega
    unfold s2
    rw [State.cl_clearClusters, State.cl_clearClusters, testBit_maskMinus hc, testBit_maskMinus hc, hcl1]
    show _ = if r'.clusters.testBit c.val = o.clusters.testBit c.val then s.cl c else Cluster.empty
    cases r'.clusters.testBit c.val <;> cases o.clusters.testBit c.val <;> rfl
  have hk2 : RgKept (BuildKey p) s1 s2 := (buildKept_clearClusters s1 _).trans (buildKept_clearClusters _ _)
  clear_value s2
  -- the devices
  have hk3 : RgKept (BuildKey p) s1 s3 := hk2.trans ((buildKept_wakeDevices s2 _).trans (buildKept_sleepDevices _ _))
  have hcl3 : s3.clusters = s2.clusters := Eq.trans ((State.changes_sleepDevices ..).kept .clusters) ((State.changes_wakeDevices ..).kept .clusters)
  clear_value s3
  -- the ports
  have hr4 : s4.rg (Obj.PART_RESULT p) = 0 := by
    refine (State.rg_ownPorts_ne _ _ _ (PART_RESULT_ne_PARTITION p)).trans ?_
    refine Eq.trans ?_ ((hk3 _ (.inl rfl)).trans h1)
    exact State.rg_ownPorts_ne s3 _ _ (PART_RESULT_ne_PARTITION p)
  have hp4 (q : Nat) (hq : q < 64) (hbit : r.ports.testBit q = true) : s4.rg (Obj.PARTITION q) = p.val := State.rg_ownPorts _ hq hbit (by omega)
  have hq4 (q : Nat) (hq : q < 64) (ho : o.ports.testBit q = true) (hn : r.ports.testBit q = false) :
      s4.queue q 0 = [] ∧ s4.queue q 1 = [] ∧ SMap.getD [] s4.relays q = [] := by
    have hm : (maskMinus o.ports r.ports).testBit q = true := by
      rw [testBit_maskMinus hq, ho, hn]
      rfl
    generalize hu : s3.ownPorts (maskMinus o.ports r.ports) 0xFF = u
    have hs4 : s4 = (u.dropQueues (maskMinus o.ports r.ports)).ownPorts r.ports p := by
      rw [← hu]
    have hqs : s4.queues = (u.dropQueues (maskMinus o.ports r.ports)).queues := by
      rw [hs4]
      exact (State.changes_ownPorts ..).kept .queues
    have hrel : s4.relays = (u.dropQueues (maskMinus o.ports r.ports)).relays := by
      rw [hs4]
      exact (State.changes_ownPorts ..).kept .relays
    unfold State.queue
    rw [hqs, hrel]
    exact ⟨u.queue_dropQueues hm (by decide), u.queue_dropQueues hm (by decide), u.relays_dropQueues hm⟩
  have hcl4 : s4.clusters = s3.clusters := by
    refine Eq.trans ((State.changes_ownPorts ..).kept .clusters) ?_
    exact Eq.trans ((State.changes_dropQueues ..).kept .clusters) ((State.changes_ownPorts ..).kept .clusters)
  clear_value s4
  have hb : ((s4.modPt p (fun x => { x with built := some r, jobs := if o.jobBase = r.jobBase then x.jobs else [] })).pt p).built = some r := by
    rw [State.pt_modPt_fin]
  exact ⟨hr4, hb, fun c => (State.cl_congr (hcl4.trans hcl3) c).trans (hc2 c), hq4, hp4⟩

theorem gives_partRebuild {o : Resources} (hw : s.mayWrite sess (Obj.PART_COMMAND p) 2 = true) (ho : (s.pt p).built = some o)
    (hs : s.rg (Obj.PART_STATE p) = psIdle) (hc : s.partCheck p (s.asked p) = 0) :
    Gives (.partRebuild sess p) s (fun t => t.rg (Obj.PART_RESULT p) = 0 ∧ (t.pt p).built = some (s.asked p) ∧ SameOtherParts p s t ∧
      (∀ c : ClusterId, t.cl c = (if (s.asked p).clusters.testBit c.val = o.clusters.testBit c.val then s.cl c else Cluster.empty)) ∧
      (∀ q, q < 64 → o.ports.testBit q = true → (s.asked p).ports.testBit q = false →
        t.queue q 0 = [] ∧ t.queue q 1 = [] ∧ SMap.getD [] t.relays q = []) ∧
      ∀ q, q < 64 → (s.asked p).ports.testBit q = true → t.rg (Obj.PARTITION q) = p.val) := by
  obtain ⟨h1, h2, h3, h4, h5⟩ := State.rebuilds_partRebuild ho hs hc
  refine gives_of_takes (by unfold exec execPartRebuild State.command; rfl) hw ?_
  exact ⟨h1, h2, s.partRebuild_otherParts p, h3, h4, h5⟩

/-! ### Dissolve -/

theorem gives_partDissolve_refused {o : Resources} (hw : s.mayWrite sess (Obj.PART_COMMAND p) 3 = true) (ho : (s.pt p).built = some o) {code : Nat}
    (hc : (if s.rg (Obj.PART_STATE p) ≠ psIdle then 0x70 else if s.anyEntry p then 0x78 else 0) = code) (h0 : code ≠ 0) :
    Gives (.partDissolve sess p) s (fun t => t.rg (Obj.PART_RESULT p) = code ∧ t.parts = s.parts ∧ t.clusters = s.clusters) := by
  refine gives_part_refused hw (eff := fun s => s.partDissolve p) rfl ?_ ?_
  · unfold State.partDissolve
    rw [ho]
    dsimp only
    rw [hc, if_pos h0]
  · rw [← hc]
    split
    · decide
    · split <;> decide

/-- What the dissolution of a partition with resources leaves of its own. -/
structure Dissolves (p : PartId) (o : Resources) (s t : State) : Prop where
  result : t.rg (Obj.PART_RESULT p) = 0
  built : (t.pt p).built = none
  state : t.rg (Obj.PART_STATE p) = psFree
  clusters : ∀ c : ClusterId, t.cl c = if o.clusters.testBit c.val then Cluster.empty else s.cl c
  ports : ∀ q, q < 64 → o.ports.testBit q = true → t.rg (Obj.PARTITION q) = 0xFF

theorem State.dissolves_partDissolve {o : Resources} (ho : (s.pt p).built = some o) (hs : s.rg (Obj.PART_STATE p) = psIdle)
    (he : s.anyEntry p = false) : Dissolves p o s (s.partDissolve p).1 := by
  obtain ⟨hres, -, -⟩ := objBytes_part p
  have hcode : (if s.rg (Obj.PART_STATE p) ≠ psIdle then 0x70 else if s.anyEntry p then 0x78 else 0) = 0 := by
    rw [if_neg (by simpa using hs), he]
    rfl
  unfold State.partDissolve
  rw [ho]
  extract_lets code s1
  have hcode : code = 0 := hcode
  clear_value code
  subst hcode
  dsimp -zeta only
  rw [if_neg (by decide)]
  extract_lets s2 s3 s4
  have h1 : s1.rg (Obj.PART_RESULT p) = 0 := State.rg_setRg_small hres (by decide) s
  have hcl1 (c : ClusterId) : s1.cl c = s.cl c := rfl
  clear_value s1
  have hc2 (c : ClusterId) : s2.cl c = if o.clusters.testBit c.val then Cluster.empty else s.cl c := by
    rw [← hcl1, ← State.cl_clearClusters]
    exact State.cl_congr (Eq.trans ((State.changes_ownPorts ..).kept .clusters) ((State.changes_sleepDevices ..).kept .clusters)) c
  have hp2 (q : Nat) (hq : q < 64) (hbit : o.ports.testBit q = true) : s2.rg (Obj.PARTITION q) = 0xFF := State.rg_ownPorts _ hq hbit (by decide)
  have hr2 : s2.rg (Obj.PART_RESULT p) = 0 := by
    refine (State.rg_ownPorts_ne _ _ _ (PART_RESULT_ne_PARTITION p)).trans ?_
    exact (((buildKept_clearClusters s1 o.clusters).trans (buildKept_sleepDevices _ o.devices)) _ (.inl rfl)).trans h1
  clear_value s2
  have hb3 : (s3.pt p).built = none := by
    unfold s3
    rw [State.pt_modPt_fin]
  have hk3 : s3.regs = s2.regs ∧ s3.clusters = s2.clusters := ⟨State.regs_modPt .., State.clusters_modPt ..⟩
  clear_value s3
  have hk4 : RgKept (BuildKey p) s2 s4 := .ite (.setRg (.of_regs hk3.1) (fun k h => h.ne_of_sub (by decide)) _) (.of_regs hk3.1)
  have h4 : s4.parts = s3.parts ∧ s4.clusters = s3.clusters := by
    unfold s4
    split <;> exact ⟨rfl, rfl⟩
  clear_value s4
  have hb4 : (s4.pt p).built = none := by rw [State.pt_congr h4.1, hb3]
  have hk : RgKept (BuildKey p) s2 ((s4.setRg (Obj.TRACE_STATE p) tsIdle).updatePart p) :=
    (hk4.setRg (fun k h => h.ne_of_sub (by decide)) _).trans (buildKept_updatePart _)
  exact ⟨(hk _ (.inl rfl)).trans hr2, hb4, State.rg_updatePart_free hb4, fun c => (State.cl_congr (h4.2.trans hk3.2) c).trans (hc2 c),
    fun q hq hbit => (hk _ (.inr (.inr ⟨q, hq, rfl⟩))).trans (hp2 q hq hbit)⟩

theorem gives_partDissolve {o : Resources} (hw : s.mayWrite sess (Obj.PART_COMMAND p) 3 = true) (ho : (s.pt p).built = some o)
    (hs : s.rg (Obj.PART_STATE p) = psIdle) (he : s.anyEntry p = false) :
    Gives (.partDissolve sess p) s (fun t => t.rg (Obj.PART_RESULT p) = 0 ∧
        (t.pt p).built = none ∧ t.rg (Obj.PART_STATE p) = psFree ∧ SameOtherParts p s t ∧
        (∀ c : ClusterId, t.cl c = (if o.clusters.testBit c.val then Cluster.empty else s.cl c)) ∧
        ∀ q, q < 64 → o.ports.testBit q = true → t.rg (Obj.PARTITION q) = 0xFF) := by
  obtain ⟨h1, h2, h3, h4, h5⟩ := State.dissolves_partDissolve ho hs he
  refine gives_of_takes (by unfold exec execPartDissolve State.command; rfl) hw ?_
  exact ⟨h1, h2, h3, s.partDissolve_otherParts p, h4, h5⟩

/-! ### Stop -/

theorem gives_partStop (hw : s.mayWrite sess (Obj.PART_COMMAND p) 4 = true) (hb : (s.pt p).built ≠ none) :
    Gives (.partStop sess p) s (fun t => t.rg (Obj.PART_RESULT p) = 0 ∧ (t.pt p).jobs = (s.pt p).jobs ∧
      ((s.pt p).jobs.any (fun kv => Job.state.get kv.2 == jsAccepted || Job.state.get kv.2 == jsTicking) = true → (t.pt p).stopAtEdge = true)) := by
  refine gives_of_takes (by unfold exec execPartStop State.command; rfl) hw ?_
  unfold State.partStop
  rw [if_neg (by simpa using hb)]
  dsimp only
  refine ⟨State.rg_setRg_small (objBytes_part p).1 (by decide) _, ?_⟩
  rw [State.pt_setRg, State.pt_modPt_fin]
  refine ⟨rfl, fun h => ?_⟩
  rw [h, Bool.or_true]

end
/-- Settles O49: one lemma for what each mask of clusters, devices and ports does, and how each command combines them. -/
theorem partitionCommands : Obligations.PartitionCommands := by
  unfold Obligations.PartitionCommands
  intro p sess s r code refused
  refine ⟨fun hw => ⟨fun hb => ?_, fun hb h0 => ?_, fun hb h0 => gives_partBuild hw hb h0⟩, fun hw o ho => ⟨fun hs => ?_, fun hs h0 => ?_,
    fun hs h0 => gives_partRebuild hw ho hs h0⟩, fun hw o ho => ⟨fun hs => ?_, fun hs he => ?_, fun hs he => gives_partDissolve hw ho hs he⟩,
    gives_partStop⟩
  · exact gives_partBuild_refused hw (if_pos (Option.isSome_iff_ne_none.2 hb)) (by decide)
  · exact gives_partBuild_refused hw (if_neg (by simp [hb])) h0
  · exact gives_partRebuild_refused hw ho (if_pos hs) (by decide)
  · exact gives_partRebuild_refused hw ho (if_neg (by simpa using hs)) h0
  · exact gives_partDissolve_refused hw ho (if_pos hs) (by decide)
  · exact gives_partDissolve_refused hw ho (by rw [if_neg (by simpa using hs), he]; rfl) (by decide)

end Sys2Proof.Machine

/-! ## The step settlement of a generation job (R82, R387, R398) -/

namespace Sys2Proof.Machine
open Sys2Proof

-- Short theorems, many of them: one after another, so that the threads' stacks stay within the check's memory.
set_option Elab.async false

section
variable {s t u : State} {p : PartId}

/-! ### What of a partition an operation leaves alone -/

/-- A part of a partition's record is as before. -/
def PtKept {α : Type} (g : Part → α) (p : PartId) (s t : State) : Prop := g (t.pt p) = g (s.pt p)

section
variable {α : Type} {g : Part → α}

theorem PtKept.refl (g : Part → α) (p : PartId) (s : State) : PtKept g p s s := rfl

theorem PtKept.trans (h : PtKept g p s t) (h' : PtKept g p t u) : PtKept g p s u := Eq.trans h' h

theorem PtKept.of_parts (h : t.parts = s.parts) : PtKept g p s t := congrArg g (State.pt_congr h p)

theorem PtKept.changes {F : List Aspect} (h : PtKept g p s t) (hc : Changes F t u) (hF : decide (Aspect.parts ∈ F) = false := by rfl) :
    PtKept g p s u := h.trans (.of_parts (hc.kept .parts hF))

theorem PtKept.modPt (h : PtKept g p s t) {f : Part → Part} (hf : ∀ x, g (f x) = g x) : PtKept g p s (t.modPt p f) := by
  refine h.trans ?_
  unfold PtKept
  rw [State.pt_modPt_fin]
  exact hf _

theorem PtKept.ite {c : Prop} [Decidable c] (h : PtKept g p s t) (h' : PtKept g p s u) : PtKept g p s (if c then t else u) := by
  split
  · exact h
  · exact h'

theorem PtKept.foldl {β : Type} {f : State → β → State} (h : PtKept g p s t) (l : List β) (hf : ∀ u x, PtKept g p u (f u x)) :
    PtKept g p s (l.foldl f t) :=
  List.foldlRecOn (motive := PtKept g p s) l f h fun u hu x _ => hu.trans (hf u x)

end

/-! ### What a step leaves of the end of the job and of the pending cancels -/

/-- The generation job that has ended, and the pending cancels. -/
def Part.pending (x : Part) : Option Nat × SMap Nat := (x.genEnd, x.slotCancels)

theorem pendingKept_measureLatency (s : State) (g : Nat) : PtKept Part.pending p s (s.measureLatency p g) := by
  have hone (u : State) (i : Nat) (run : SlotRun) : PtKept Part.pending p u (u.latency p g i run).1 := by
    unfold State.latency
    dsimp only
    split
    · split
      · exact .changes (.changes (.refl _ _ _) (State.changes_setSlotFld ..)) (State.changes_incRg ..)
      · exact .refl _ _ _
    · split
      · exact .modPt (.changes (.changes (.refl _ _ _) (State.changes_setSlotFld ..)) (State.changes_incRg ..)) fun x => rfl
      · exact .refl _ _ _
  unfold State.measureLatency
  generalize hv : List.foldl _ _ _ = v
  have hall : PtKept Part.pending p s v.1 := by
    rw [← hv]
    exact List.foldlRecOn (motive := fun v : State × List Nat => PtKept Part.pending p s v.1) _ _ (.refl _ _ _)
      fun v hv kv _ => hv.trans (hone v.1 kv.1 kv.2)
  clear hv
  obtain ⟨u, hit⟩ := v
  cases hit with
  | nil => exact hall
  | cons i hit => exact hall.trans (.of_parts rfl)

theorem pendingKept_tear (s : State) (i k : Nat) : PtKept Part.pending p s (s.tear p i k) :=
  .modPt (.refl _ _ _) fun _ => rfl

theorem pendingKept_storeRecords (s : State) (first : Nat) (recs : List (List Byte)) :
    PtKept Part.pending p s (s.storeRecords p first recs) := by
  unfold State.storeRecords
  extract_lets i a s1
  have h1 : PtKept Part.pending p s s1 := .foldl (.refl _ _ _) _ fun u r => .changes (.refl _ _ _) (State.changes_memWrite ..)
  exact .ite h1 (.changes (h1.trans (pendingKept_tear ..)) (State.changes_incRg ..))

theorem pendingKept_applyEmit (s : State) (n g l i version pos d : Nat) (dg : Gdesc) (run : SlotRun) :
    PtKept Part.pending p s (s.applyEmit p n g l i version pos d dg run) := by
  unfold State.applyEmit
  extract_lets x a row e m k e2 e3 e4 s1 s2 s3
  have h1 : PtKept Part.pending p s s1 := .changes (pendingKept_storeRecords ..) (State.changes_setSlot ..)
  have h2 : PtKept Part.pending p s s2 := (h1.changes (State.changes_incRg ..)).changes (State.changes_incRg ..)
  have h3 : PtKept Part.pending p s s3 := .ite (h2.changes (State.changes_incRg ..)) h2
  exact .ite (h3.modPt fun x => rfl) h3

theorem pendingKept_applyScore (s : State) (n g l i version : Nat) (dg : Gdesc) (r : BitVec 512) (run : SlotRun) :
    PtKept Part.pending p s (s.applyScore p n g l i version dg r run) := by
  unfold State.applyScore
  dsimp only
  exact .changes (pendingKept_storeRecords ..) (State.changes_setSlot ..)

theorem pendingKept_applyLane (s : State) (n g : Nat) (dg : Gdesc) (drops : List Nat) (l : Nat) :
    PtKept Part.pending p s (s.applyLane p n g dg drops l) := by
  unfold State.applyLane
  extract_lets _ b i
  split
  · exact .refl _ _ _
  · exact .refl _ _ _
  · refine .ite (.changes (.refl _ _ _) (State.changes_incRg ..)) ?_
    extract_lets
    refine .ite (pendingKept_applyEmit ..) (.ite (pendingKept_applyScore ..) (.ite ?_ (.changes (.refl _ _ _) (State.changes_setSlot ..))))
    exact .modPt (pendingKept_applyEmit ..) fun x => rfl

theorem pendingKept_activateSlots (s : State) (n g : Nat) (dg : Gdesc) : PtKept Part.pending p s (s.activateSlots p n g dg) := by
  unfold State.activateSlots
  refine .foldl (.refl _ _ _) _ fun u kv => ?_
  unfold State.activateSlot
  extract_lets e pre s1 s2
  have h1 : PtKept Part.pending p u s1 := .changes (.refl _ _ _) (State.changes_incRg ..)
  have h2 : PtKept Part.pending p u s2 := .ite (h1.changes (State.changes_setSlotFld ..)) h1
  exact .ite (h1.changes (State.changes_setSlotFld ..)) (.modPt (h2.changes (State.changes_setSlotFld ..)) fun x => rfl)

theorem pendingKept_assignLanes (s : State) (dg : Gdesc) : PtKept Part.pending p s (s.assignLanes p dg) := by
  unfold State.assignLanes
  refine .foldl (.refl _ _ _) _ fun u x => ?_
  unfold State.assignLane
  dsimp only
  split
  · exact .modPt (.refl _ _ _) fun x => rfl
  · exact .refl _ _ _

theorem pendingKept_bindBatch (s : State) (dg : Gdesc) (b : Nat) : PtKept Part.pending p s (s.bindBatch p dg b) := by
  unfold State.bindBatch
  dsimp only
  split
  · exact .modPt (.refl _ _ _) fun x => rfl
  · exact .modPt (.refl _ _ _) fun x => rfl
  · exact .refl _ _ _

theorem pendingKept_writeRows (s : State) (i : Nat) (rows : List (Nat × List Byte)) : PtKept Part.pending p s (s.writeRows p i rows) := by
  unfold State.writeRows
  extract_lets e cur k s1 s2
  have h1 : PtKept Part.pending p s s1 := .modPt (.refl _ _ _) fun x => by
    cases SMap.get? x.former i <;> rfl
  have h2 : PtKept Part.pending p s s2 := h1.foldl _ fun u r => .changes (.refl _ _ _) (State.changes_memWrite ..)
  exact ((h2.changes (State.changes_setResFld ..)).changes (State.changes_advance ..)).trans (pendingKept_tear ..)

theorem pendingKept_writeLanes (s : State) (dg : Gdesc) : PtKept Part.pending p s (s.writeLanes p dg) := by
  unfold State.writeLanes
  extract_lets s1 s2 x ls cols s3 s4
  have h1 : PtKept Part.pending p s s1 := .modPt (.refl _ _ _) fun x => rfl
  have h2 : PtKept Part.pending p s s2 := h1.foldl _ fun u kv => by
    split
    · exact .modPt (.refl _ _ _) fun x => rfl
    · exact .refl _ _ _
  exact ((h2.trans (pendingKept_writeRows ..)).trans (pendingKept_writeRows ..)).trans (pendingKept_writeRows ..)

theorem pendingKept_tellStopped (s : State) (live : List Nat) : PtKept Part.pending p s (s.tellStopped p live) := by
  unfold State.tellStopped
  dsimp only
  split
  · exact .refl _ _ _
  · exact .of_parts rfl

/-! ### The pending cancels -/

theorem State.pt_setSlotFld (s : State) (i : Nat) (f : Fld) (v q : Nat) : (s.setSlotFld i f v).pt q = s.pt q :=
  State.pt_congr ((State.changes_setSlotFld ..).kept .parts) q

theorem State.pending_applySlotCancel (s : State) (p : PartId) (i : Nat) :
    ((s.applySlotCancel p i).pt p).pending = ((s.pt p).genEnd, SMap.del (s.pt p).slotCancels i) := by
  unfold State.applySlotCancel
  extract_lets st s1 put
  have h1 : (s1.pt p).pending = ((s.pt p).genEnd, SMap.del (s.pt p).slotCancels i) := by
    unfold s1
    rw [State.pt_modPt_fin]
    rfl
  clear_value s1
  rw [← h1]
  split
  · unfold put
    rw [State.pt_setSlotFld, State.pt_setSlotFld]
  · split
    · rw [State.pt_setSlotFld]
    · unfold put
      rw [State.pt_setSlotFld, State.pt_setSlotFld]

/-- The cancels of a list of slots are taken. -/
theorem State.pending_foldl_applySlotCancel (p : PartId) (l : List (Nat × Nat)) (s : State) :
    ((l.foldl (fun t kv => t.applySlotCancel p kv.1) s).pt p).genEnd = (s.pt p).genEnd ∧
    ∀ i, (SMap.get? (s.pt p).slotCancels i = none ∨ i ∈ l.map (·.1)) →
      SMap.get? ((l.foldl (fun t kv => t.applySlotCancel p kv.1) s).pt p).slotCancels i = none := by
  induction l generalizing s with
  | nil => exact ⟨rfl, fun i h => h.resolve_right (by simp)⟩
  | cons kv l ih =>
    obtain ⟨hend, hdel⟩ := Prod.mk.inj (s.pending_applySlotCancel p kv.1)
    obtain ⟨ihe, ihc⟩ := ih (s.applySlotCancel p kv.1)
    refine ⟨ihe.trans hend, fun i h => ihc i ?_⟩
    rw [hdel]
    by_cases hi : i = kv.1
    · rw [hi]
      exact .inl (SMap.get?_del_self ..)
    · rw [SMap.get?_del_ne _ hi]
      rcases h with h | h
      · exact .inl h
      · rcases List.mem_cons.1 h with h | h
        · exact absurd h hi
        · exact .inr h

theorem State.pending_genStep (s : State) (p : PartId) (dg : Gdesc) (drops : List Nat) (tags : SMap Nat) :
    ((s.genStep p dg drops tags).pt p).genEnd = (s.pt p).genEnd ∧ ((s.genStep p dg drops tags).pt p).genStart = (s.pt p).gen.tick ∧
    ∀ i ct, SMap.get? (s.pt p).slotCancels i = some ct → ct ≤ (s.pt p).gen.tick →
      SMap.get? ((s.genStep p dg drops tags).pt p).slotCancels i = none := by
  unfold State.genStep
  extract_lets n g live before s1 s2 s3 s4 s5 s6 s7 s8
  have h1 : PtKept Part.pending p s s1 := pendingKept_measureLatency ..
  have h2 : PtKept Part.pending p s s2 := h1.foldl _ fun u l => pendingKept_applyLane ..
  have h3 : PtKept Part.pending p s s3 := h2.foldl _ fun u b => .changes (.refl _ _ _) (State.changes_specWaste ..)
  obtain ⟨hend3, hcan3⟩ := Prod.mk.inj h3
  clear_value s3
  -- the cancels are taken
  obtain ⟨hend, hcan⟩ := State.pending_foldl_applySlotCancel p ((s3.pt p).slotCancels.filter (fun kv => kv.2 ≤ n)) s3
  have h4 : (s4.pt p).genEnd = (s.pt p).genEnd ∧
      ∀ i ct, SMap.get? (s.pt p).slotCancels i = some ct → ct ≤ n → SMap.get? (s4.pt p).slotCancels i = none := by
    have hfree : PtKept Part.pending p (s3.applySlotCancels p n) s4 := .modPt (.refl _ _ _) fun x => rfl
    obtain ⟨he4, hc4⟩ := Prod.mk.inj hfree
    refine ⟨he4.trans (hend.trans hend3), fun i ct hi hct => ?_⟩
    rw [hc4]
    refine hcan i (.inr (List.mem_map.2 ⟨(i, ct), List.mem_filter.2 ⟨?_, by simpa using hct⟩, rfl⟩))
    rw [hcan3]
    exact SMap.mem_of_get? hi
  clear_value s4
  -- what follows takes and adds none
  have h5 : PtKept Part.pending p s4 s5 := (pendingKept_activateSlots ..).trans (pendingKept_assignLanes ..)
  have h6 : PtKept Part.pending p s4 s6 := h5.foldl _ fun u b => pendingKept_bindBatch ..
  have h7 : PtKept Part.pending p s4 s7 := (h6.trans (pendingKept_writeLanes ..)).trans (pendingKept_tellStopped ..)
  have h8 : PtKept Part.pending p s4 s8 := h7.foldl _ fun u i => .changes (.refl _ _ _) (State.changes_slotWriteBack ..)
  obtain ⟨hend8, hcan8⟩ := Prod.mk.inj h8
  clear_value s8
  rw [State.pt_modPt_fin]
  exact ⟨hend8.trans h4.1, rfl, fun i ct hi hct => (congrArg (fun m => SMap.get? m i) hcan8).trans (h4.2 i ct hi hct)⟩

/-! ### The end of the job -/

/-- What the stopped slots leave of their partition. -/
theorem State.stopSlots_spec (s : State) (p : PartId) : ((s.stopSlots p).pt p).slotRuns = [] ∧ ((s.stopSlots p).pt p).slotCancels = [] ∧
    ((s.stopSlots p).pt p).genDue = none ∧ ((s.stopSlots p).pt p).genStart = (s.pt p).genStart := by
  unfold State.stopSlots
  extract_lets act s1 s2
  have h1 : s1.parts = s.parts := List.foldlRecOn (motive := fun u : State => u.parts = s.parts) _ _ rfl fun u hu i _ =>
    Eq.trans ((State.changes_slotWriteBack ..).kept .parts) (Eq.trans ((State.changes_setSlotFld ..).kept .parts) hu)
  have h2 : (s2.pt p).slotRuns = [] ∧ (s2.pt p).slotCancels = [] ∧ (s2.pt p).genDue = none ∧ (s2.pt p).genStart = (s.pt p).genStart := by
    unfold s2
    rw [State.pt_modPt_fin, State.pt_congr h1]
    exact ⟨rfl, rfl, rfl, rfl⟩
  clear_value s2 s1 act
  cases act with
  | nil => exact h2
  | cons i act => exact h2

theorem State.endGen_some {j : Nat} (h : (s.pt p).genEnd = some j) : ((s.endGen p).pt p).slotRuns = [] ∧
    ((s.endGen p).pt p).slotCancels = [] ∧ ((s.endGen p).pt p).genDue = none ∧ ((s.endGen p).pt p).genStart = (s.pt p).genStart ∧
    ((s.endGen p).pt p).genEnd = none ∧ SMap.get? ((s.endGen p).pt p).descs j = none := by
  unfold State.endGen
  rw [h]
  dsimp only
  obtain ⟨h1, h2, h3, h4⟩ := s.stopSlots_spec p
  rw [State.pt_modPt_fin]
  exact ⟨h1, h2, h3, h4, rfl, SMap.get?_del_self ..⟩

theorem State.endGen_none (h : (s.pt p).genEnd = none) : s.endGen p = s := by
  unfold State.endGen
  rw [h]

/-! ### GEN_STEP_SETTLE -/

section
variable {due : List Nat × SMap Nat} {z : Settling} (hd : (s.pt p).genDue = some due) (hz : (s.pt p).settling = some z)
  (hr : z.recorded = true)
include hd hz hr

/-- A settlement that is due: what its step leaves, and the end of a job that has ended. -/
theorem exec_genStepSettle : exec (.genStepSettle p) s = .next (((match SMap.get? (s.pt p).descs z.job with
      | some dg => if s.jobState p z.job == jsTicking || (s.pt p).genEnd == some z.job
          then (s.at ((s.pt p).edgeNs + 20000)).genStep p dg due.1 due.2 else s.at ((s.pt p).edgeNs + 20000)
      | none => s.at ((s.pt p).edgeNs + 20000)).modPt p (fun y => { y with genDue := none })).endGen p) := by
  show execGenStepSettle p s = _
  unfold execGenStepSettle
  dsimp only
  rw [hd, hz]
  exact takes_of hr s _

theorem gives_genStepSettle_ticking {dg : Gdesc} (hg : SMap.get? (s.pt p).descs z.job = some dg) (ht : s.jobState p z.job = jsTicking) :
    Gives (.genStepSettle p) s (fun t => (t.pt p).genDue = none ∧ (t.pt p).genStart = (s.pt p).gen.tick ∧
      ∀ i ct, SMap.get? (s.pt p).slotCancels i = some ct → ct ≤ (s.pt p).gen.tick → SMap.get? (t.pt p).slotCancels i = none) := by
  refine gives_of_next (exec_genStepSettle hd hz hr) ?_
  rw [hg]
  dsimp only
  rw [if_pos (by simp [ht])]
  obtain ⟨-, hstart, hcan⟩ := State.pending_genStep (s.at ((s.pt p).edgeNs + 20000)) p dg due.1 due.2
  generalize (s.at ((s.pt p).edgeNs + 20000)).genStep p dg due.1 due.2 = u at hstart hcan ⊢
  generalize hv : u.modPt p (fun y => { y with genDue := none }) = v
  have hpv : v.pt p = { u.pt p with genDue := none } := by
    rw [← hv, State.pt_modPt_fin]
  have hvs : (v.pt p).genStart = (s.pt p).gen.tick := by
    rw [hpv]
    exact hstart
  cases he : (v.pt p).genEnd with
  | none =>
    rw [State.endGen_none he, hpv]
    exact ⟨rfl, hstart, hcan⟩
  | some j =>
    obtain ⟨-, h2, h3, h4, -, -⟩ := State.endGen_some he
    refine ⟨h3, h4.trans hvs, fun i ct _ _ => ?_⟩
    rw [h2]
    rfl

theorem gives_genStepSettle_ended (he : (s.pt p).genEnd = some z.job) : Gives (.genStepSettle p) s (fun t => (t.pt p).genDue = none ∧
    (t.pt p).genEnd = none ∧ (t.pt p).slotRuns = [] ∧ SMap.get? (t.pt p).descs z.job = none) := by
  refine gives_of_next (exec_genStepSettle hd hz hr) ?_
  generalize hu : (match SMap.get? (s.pt p).descs z.job with
      | some dg => if s.jobState p z.job == jsTicking || (s.pt p).genEnd == some z.job
          then (s.at ((s.pt p).edgeNs + 20000)).genStep p dg due.1 due.2 else s.at ((s.pt p).edgeNs + 20000)
      | none => s.at ((s.pt p).edgeNs + 20000)) = u
  have hend : (u.pt p).genEnd = some z.job := by
    rw [← hu, ← he]
    split
    · split
      · exact (State.pending_genStep ..).1
      · rfl
    · rfl
  have hv : ((u.modPt p (fun y => { y with genDue := none })).pt p).genEnd = some z.job := by
    rw [State.pt_modPt_fin]
    exact hend
  obtain ⟨h1, -, h3, -, h5, h6⟩ := State.endGen_some hv
  exact ⟨h3, h5, h1, h6⟩

theorem gives_genStepSettle_idle (he : (s.pt p).genEnd = none)
    (hn : SMap.get? (s.pt p).descs z.job = none ∨ s.jobState p z.job ≠ jsTicking) : Gives (.genStepSettle p) s (fun t =>
      (t.pt p).genDue = none ∧ t.slots = s.slots ∧ t.pages = s.pages ∧ t.mem = s.mem ∧ t.now = Nat.max s.now ((s.pt p).edgeNs + 20000)) := by
  refine gives_of_next (exec_genStepSettle hd hz hr) ?_
  generalize hu : (match SMap.get? (s.pt p).descs z.job with
      | some dg => if s.jobState p z.job == jsTicking || (s.pt p).genEnd == some z.job
          then (s.at ((s.pt p).edgeNs + 20000)).genStep p dg due.1 due.2 else s.at ((s.pt p).edgeNs + 20000)
      | none => s.at ((s.pt p).edgeNs + 20000)) = u
  have hus : u = s.at ((s.pt p).edgeNs + 20000) := by
    rw [← hu]
    split
    next dg hg =>
      rcases hn with h | h
      · rw [h] at hg
        cases hg
      · rw [if_neg (by simp [h, he])]
    · rfl
  rw [hus, State.endGen_none (by rw [State.pt_modPt_fin]; exact he), State.pt_modPt_fin]
  exact ⟨rfl, rfl, rfl, rfl, rfl⟩

end
end

/-- Settles O48: a step applies, cancels and assigns without touching the end of the job or adding a cancel. -/
theorem generationStepSettles : Obligations.GenerationStepSettles := by
  unfold Obligations.GenerationStepSettles
  intro p due z s hd hz hr
  exact ⟨fun dg hg ht => gives_genStepSettle_ticking hd hz hr hg ht, gives_genStepSettle_ended hd hz hr, gives_genStepSettle_idle hd hz hr⟩

end Sys2Proof.Machine

/-! ## RoCEv2 packets: a READ that leaves the CXL window (R273, R372, R404) -/

namespace Sys2Proof.Machine
open Sys2Proof

-- Short theorems, many of them: one after another, so that the threads' stacks stay within the check's memory.
set_option Elab.async false

/-- An enabled PRESS entry of partition 0 whose slots begin at the reference store's first address. -/
def pressEntryAtRef : ResEntry :=
  Rs.base.set (Rs.ckpt.set (Rs.rows.set (Rs.cols.set (Rs.format.set (Rs.enable.set (0 : BitVec 256) 1) 0x01) 32) 32) ckptPress) (refBase / 65536)

/-- A module whose host port is up, with queue pair 0 READY and region 0 over the end of the last CXL window and the begin of the
reference store, with the first line of the latter marked as poisoned, and one admin session for its events. -/
def readsAcrossRef : State :=
  let qpEntry : BitVec 512 := Qe.mtu.set (Qe.access.set (0 : BitVec 512) 7) 4096
  let regionEntry : BitVec 256 := Re.access.set (Re.length.set (Re.base.set (0 : BitVec 256) (refBase - 64)) 128) 7
  { (((State.reset.setRg Obj.HOST_LINK_STATE linkUp).setRg (Obj.CXL_STATE 7) cxlUp).setRg (Obj.CXL_BYTES 7) cxlWindow) with
    qps := [(0, { Qp.reset with entry := qpEntry, state := qpReady })], regions := [(0, ⟨regionEntry, 0⟩)],
    cxlPoison := [refBase], res := [(0, pressEntryAtRef)],
    sessions := [⟨1, roleAdmin, 0, 64, 7, [], [], [], true, 0, 0, 1, none, 0, [], [], none, [], 1, 0⟩] }

/-- A READ request of the window's last byte and the byte behind it. -/
def readAcrossRef : RocePacket := ⟨qpBase, 0, true, true, refBase - 1, 0, 2, [], true, false, true, AccessErrors.none⟩

/-- A packet that an idle host port sends leaves at once. -/
theorem State.length_out_roceSend {s : State} (h : s.PortIdle hostPort (s.rg Obj.PFC_PRIORITY)) (i : Nat) (x : RoceOut) (bytes : Nat) :
    (s.roceSend i x bytes).out.length = s.out.length + 1 := by
  unfold State.roceSend
  dsimp only
  rw [State.send_idle h (by unfold smallWire; omega), State.started_out]
  rfl

/-- What the devices do for a READ without errors of `n` bytes. -/
def State.readDelivered (s : State) (p a n : Nat) : State :=
  (s.deviceReports (hostAgent p a) AccessErrors.none [(a, n)]).cxlDelivered (hostAgent p a) a n

/-- A READ of one packet, served by an idle host port: its data leave behind what the delivery has sent. -/
theorem State.length_out_serveRead {s : State} {i : Nat} {x : RocePacket} (h0 : x.length ≠ 0) (he : x.errs = AccessErrors.none)
    (hs : (List.range x.length).any (fun k => s.sweptAt (Qe.partition.get (s.qp i).entry) (x.addr + k)) = false)
    (hp : (s.qp i).readPackets x.length = 1) (hi : (s.readDelivered (Qe.partition.get (s.qp i).entry) x.addr x.length).PortIdle hostPort
      ((s.readDelivered (Qe.partition.get (s.qp i).entry) x.addr x.length).rg Obj.PFC_PRIORITY)) :
    (s.serveRead i x).out.length = (s.readDelivered (Qe.partition.get (s.qp i).entry) x.addr x.length).out.length + 1 := by
  obtain ⟨bs, hf⟩ : ∃ bs, s.rdmaFetch (Qe.partition.get (s.qp i).entry) x.addr x.length x.errs =
      (s.readDelivered (Qe.partition.get (s.qp i).entry) x.addr x.length).unmark bs := by
    unfold State.rdmaFetch
    rw [if_neg h0, he]
    have hpar : s.hubParity AccessErrors.none x.addr = (s, false) := if_neg (by simp)
    rw [hpar]
    dsimp only
    rw [if_neg (by simp [hs])]
    exact ⟨_, rfl⟩
  unfold State.serveRead
  dsimp only
  rw [hf, hp]
  generalize s.readDelivered (Qe.partition.get (s.qp i).entry) x.addr x.length = u at hi ⊢
  unfold State.unmark
  split
  · exact State.length_out_roceSend (s := { u with draws := u.draws + 1 }) hi ..
  · exact State.length_out_roceSend hi ..

theorem State.out_rdmaReadIn {s : State} {i : Nat} {x : RocePacket} (h : s.remoteAllowed (s.qp i) opRead x.rkey x.addr x.length = true) :
    (s.rdmaReadIn i x).out = (s.serveRead i x).out := by
  unfold State.rdmaReadIn
  dsimp only
  rw [if_neg (by simp [h])]
  rfl

/-- A request in sequence is served once the packet counts as received. -/
theorem State.roceRequest_inSequence {s : State} {x : RocePacket} (own again : State → Nat → State)
    (hfits : ¬ s.maxFrame hostPort < (s.qp (x.qp - qpBase)).frameBytes x)
    (hready : ¬ (!x.icrc || x.qp < qpBase || x.qp ≥ qpBase + 256 || ((s.received hostPort).qp (x.qp - qpBase)).state ≠ qpReady) = true)
    (hce : x.ce = false) (hpsn : (x.psn + psnMod - ((s.received hostPort).qp (x.qp - qpBase)).rq) % psnMod = 0) :
    s.roceRequest x own again = own (s.received hostPort) (x.qp - qpBase) := by
  unfold State.roceRequest
  dsimp only
  rw [if_neg hfits, if_neg hready, hce, if_neg Bool.false_ne_true, if_pos hpsn]

/-- The delivery judges the mark under R404, and its event leaves before the data. -/
theorem exec_readAcrossRef : ∃ t, exec (.rdmaRead readAcrossRef) readsAcrossRef = .next t ∧ t.out.length = 2 := by
  have hx : exec (.rdmaRead readAcrossRef) readsAcrossRef = execRdmaRead readAcrossRef readsAcrossRef := rfl
  rw [hx]
  unfold execRdmaRead
  refine ⟨_, takes_of (by decide +kernel) _ _, ?_⟩
  rw [State.roceRequest_inSequence _ _ (by decide +kernel) (by decide +kernel) rfl (by decide +kernel), State.out_rdmaReadIn (by decide +kernel)]
  refine (State.length_out_serveRead (by decide) rfl (by decide +kernel) (by decide +kernel) ?_).trans (by decide +kernel)
  unfold State.PortIdle
  decide +kernel

theorem portIdle_readsAcrossRef : readsAcrossRef.PortIdle hostPort (readsAcrossRef.rg Obj.PFC_PRIORITY) := by
  unfold State.PortIdle
  decide +kernel

/-- The byte behind the window lies in the reference store, where no page is bad. -/
theorem memRead_readsAcrossRef : (readsAcrossRef.memRead readAcrossRef.addr readAcrossRef.length).any (·.2) = false := by
  have hlast : readsAcrossRef.poisonAt (refBase - 1) = false := by decide +kernel
  have hregion : readsAcrossRef.region refBase = some .refstore := by
    have hpos : refBase < refBase + Config.refstoreBytes := by
      unfold Config.refstoreBytes
      split <;> omega
    unfold State.region
    rw [if_neg (by decide), if_neg (by decide), if_pos (by simp [hpos])]
  have hfirst : readsAcrossRef.poisonAt refBase = false := by
    unfold State.poisonAt
    rw [hregion]
    rfl
  rw [List.any_eq_false]
  intro b hb
  obtain ⟨j, hj, rfl⟩ := List.mem_map.1 hb
  have h2 : j < 2 := List.mem_range.1 hj
  interval_cases j
  · exact fun h => Bool.false_ne_true (hlast.symm.trans h)
  · exact fun h => Bool.false_ne_true (hfirst.symm.trans h)

/-- Refutes O40: the poisoned lines that a READ delivers are judged where its first address lies in a CXL window, so a READ that begins
there and ends behind it judges a mark that none of its bytes carries, and sends an event besides its data. -/
theorem not_rocePackets : ¬ Obligations.RocePackets := by
  unfold Obligations.RocePackets
  intro h
  obtain ⟨hpackets, -⟩ := h readAcrossRef 0 0 readsAcrossRef (by decide +kernel)
  obtain ⟨-, hsequence⟩ := hpackets (by decide) (by decide +kernel)
  obtain ⟨-, hread⟩ := hsequence rfl ⟨by decide, by decide⟩ (by decide +kernel) rfl (by decide +kernel)
  obtain ⟨hallowed, -⟩ := hread (by decide) (by decide +kernel)
  obtain ⟨t, hexec, -, -, -, hanswers⟩ := hallowed (by decide +kernel)
  have hout := hanswers (by decide +kernel) rfl memRead_readsAcrossRef portIdle_readsAcrossRef
  obtain ⟨u, hu, htwo⟩ := exec_readAcrossRef
  have htu : t = u := Host.Outcome.next.inj (hexec.symm.trans hu)
  rw [← htu, hout] at htwo
  exact absurd htwo (by decide +kernel)

end Sys2Proof.Machine

/-! ## Bursts: data whose first run turns the destination into a KV pool (R221, R260, R381) -/

namespace Sys2Proof.Machine
open Sys2Proof

-- Short theorems, many of them: one after another, so that the threads' stacks stay within the check's memory.
set_option Elab.async false

/-- An enabled entry of partition 0 with one slot, which begins at 64 KiB. -/
def entryAt64K : ResEntry :=
  Rs.base.set (Rs.rows.set (Rs.cols.set (Rs.format.set (Rs.enable.set (0 : BitVec 256) 1) 0x01) 32) 32) 1

/-- Two bytes in flight, the second with a version of its own. -/
def twoRunBurst : ItemRun := ⟨.running, 0, 0, [(0, false), (7, false)], noVersion, 2, [(1, 5)]⟩

/-- Partition 0 runs burst 1 of a slice to slot 0 of entry 0, which holds the list of KV pools: the list names entry 1, and entry 0 once
the burst's first byte stands. Lane 0 has one page. -/
def burstToPoolList : State :=
  ({ (((State.reset.setRg (Obj.KV_POOL_LIST 0) 0).setRg (Obj.KV_LAYERS 0) 1).setRg (Obj.PAGE_BYTES 0) 64) with
    mem := [(0x37, 0x20), (65536, 1)], res := [(0, entryAt64K)],
    slots := [(0, Sl.prefix_.set (Sl.ownPages.set (0 : BitVec 1024) 1) 0xFFFFFFFF)] } : State).modPt 0
    (fun x => { x with
      slice := some ⟨0, 0, 0, 1, false, false, [(1, twoRunBurst)], [], [], [], [], [], []⟩,
      lanes := [(0, Ln.kind.set (0 : BitVec 512) 1)], gen := { x.gen with len := 1 } })

/-- The burst's second byte goes to the lane's page. -/
theorem exec_burstToPoolList :
    ∃ t, exec (.burstComplete 0 1 0 AccessErrors.none) burstToPoolList = .next t ∧ t.memByte 65540 = 7 := by
  have hx : exec (.burstComplete 0 1 0 AccessErrors.none) burstToPoolList = execBurstComplete 0 1 0 AccessErrors.none burstToPoolList := rfl
  rw [hx]
  unfold execBurstComplete
  exact ⟨_, takes_of (by decide +kernel) _ _, by decide +kernel⟩

/-- Refutes O25: a burst that goes on with another version writes each run by itself, and its first run may change the list of KV pools
so that the second one is a lane access, which stores in a page outside the burst's bytes. -/
theorem not_bursts : ¬ Obligations.Bursts := by
  unfold Obligations.Bursts
  rintro ⟨-, hstores⟩
  obtain ⟨t, ht, hbyte⟩ := exec_burstToPoolList
  obtain ⟨-, hframe⟩ := hstores 0 1 0 AccessErrors.none 0 0
    ⟨0, 0, 0, 1, false, false, [(1, twoRunBurst)], [], [], [], [], [], []⟩ burstToPoolList t (by decide +kernel) ht
  have hsame := hframe true 0 0 0 (by decide +kernel) (by decide +kernel) (by decide +kernel) (by decide +kernel) 65540
    (.inr (by decide +kernel))
  exact absurd (hbyte.symm.trans hsame) (by decide +kernel)

end Sys2Proof.Machine
